-- ==== Sys2Proof/Word.lean ====
section
/-! DEFINITION. The word types and their plainest arithmetic. -/

namespace Sys2Proof

/-- A byte. -/
abbrev Byte := BitVec 8
/-- A 16-bit register field. -/
abbrev W16 := BitVec 16
/-- A 32-bit register or memory word (R36). -/
abbrev W32 := BitVec 32
/-- A 64-bit message word or table row (R71, R164). -/
abbrev W64 := BitVec 64

/-- A memory of `w`-bit words by word index: addresses strictly rising, and no entry equal to what an
unlisted address reads as (the default its owner passes to the operations of `Machine/Mem.lean`). -/
abbrev Mem (w : Nat) := List (Nat × BitVec w)

end Sys2Proof
end

