-- ==== Sys2Proof/Types.lean ====
section
/-! DEFINITION. The names, operand forms and frames that the commands and the state share. -/

namespace Sys2Proof

/-! ### Lanes and the cycle (R7, R12, R131, R149) -/

/-- The three lanes. -/
inductive LaneId where
  | a | b | c
  deriving DecidableEq, Repr

/-- A lane's state (R149). -/
inductive LaneLife where
  | out | restart | sync | voting
  deriving DecidableEq, Repr

/-- Where a SYNC lane stands (R152, R156, R157, R172). -/
inductive SyncStep where
  /-- Waiting for the voting lanes' image frames. -/
  | awaitFrames
  /-- Cycle phase taken; the transfer request is set in the presence frames. -/
  | request
  /-- State taken by transfer; the next cycle is a probe cycle. -/
  | probeDue
  /-- A probe cycle is running. -/
  | probing
  /-- The probe cycle passed; VOTING at the next T0. -/
  | passed
  deriving DecidableEq, Repr

/-- The grains (R97, R100, R105), with the codes 0, 1 and 2. -/
inductive Grain where
  | true | cross | counter
  deriving DecidableEq, Repr

/-- The phases of `COP.PHASE.CODE` (R131): codes 0 to 7 in this order; code 7 covers sleep entry and held awake. -/
inductive Phase where
  | asleep | wake | sampling | exchange | run | handover | mirror | sleepEntry
  deriving DecidableEq, Repr

/-- The reasons of `COP.HOLD.SRC` (R125, R131), bits 0 to 4 in this order. -/
inductive HoldReason where
  | transfer | pairLink | queueDrain | slicePrep | diagnostics
  deriving DecidableEq, Repr

/-- What the fetch stage reads for a row (R79): the stored word as it stands, the stored word after a
single-bit correction, an uncorrectable word, or a word that reaches decode changed. (DESIGN CHOICE log 77) -/
inductive Fetch where
  | clean
  | corrected
  | uncorrectable
  | altered (w : W64)
  deriving DecidableEq, Repr

/-- The two comparators of a lane (R141). -/
inductive Comparator where
  | core | copier
  deriving DecidableEq, Repr

/-- What a comparator captured in an injection window (R144). -/
inductive Capture where
  /-- Exactly the injected position. -/
  | expected
  /-- Some other position: a real mismatch. -/
  | otherPos
  deriving DecidableEq, Repr

/-- An image frame as it stands in an exchange buffer (R133): its fields and its last word, the CRC-32. `at0` is when its
transmission began at the receiver, `done` when it was complete. -/
structure ImageFrame where
  sender : LaneId
  voting : Bool
  cycle  : W32
  digest : W32
  image  : Mem 32
  crc    : W32
  at0    : Nat
  done   : Nat
  deriving DecidableEq, Repr

/-- A presence frame (R134): the intact bits for lanes A, B and C, and the transfer request. -/
structure PresenceFrame where
  sender  : LaneId
  intact  : BitVec 3
  request : Bool
  cycle   : W32
  crc     : W32
  done    : Nat
  deriving DecidableEq, Repr

/-- A lane's record of a ring receive connection (R275, R276). -/
structure RingRec where
  stamp    : Option W32 := none
  lastAt   : Nat := 0
  timedOut : Bool := true
  taken    : Nat := 0
  payload  : List W64 := []
  deriving DecidableEq, Repr

/-- A lane's record of a JXT connection (R316, R320 to R324): the `SEQ` and `ECHO` of the last authentic message,
the `SEQ` that the lane's next message echoes with the logic cycle whose sampling phase took it, the sampling
phases since a message was accepted, the settling last taken, and the last accepted `SEQ` and words. -/
structure JxtRec where
  seq      : Option W32 := none
  echo     : Option W32 := none
  reply    : Option W32 := none
  takenIn  : W32 := 0
  missed   : Nat := 0
  timedOut : Bool := true
  taken    : Nat := 0
  accepted : Option W32 := none
  words    : List W64 := []
  deriving DecidableEq, Repr

/-- A lane's record of a CAN buffer (R339, R357 to R359); `txAlive` is the alive counter last sent from a transmit
buffer. (DEDUCED log 31) -/
structure CanRec where
  lastTaken : Option Nat := none
  missed    : Nat := 0
  timedOut  : Bool := true
  alive     : Option Nat := none
  resync    : Bool := true
  new       : Bool := false
  data      : List Byte := []
  txAlive   : Nat := 0
  deriving DecidableEq, Repr

/-- The communication state of a lane: its records of every configured receive connection, in configuration order
(R153). -/
structure CommState where
  ring1 : List RingRec := []
  ring2 : List RingRec := []
  jxt   : List JxtRec := []
  can1  : List CanRec := []
  can2  : List CanRec := []
  deriving DecidableEq, Repr

/-- Runs of samples that a protection instance needs beside its block (R245, R246, R249), and which of two buttons was first. -/
structure PfAux where
  n1     : Nat := 0
  n2     : Nat := 0
  second : Bool := false
  deriving DecidableEq, Repr

/-- A rejoin transfer (R153), in true grain: its header with the sizes of its three parts in words, the parts, the running values
of the check-value contexts in use, what the protection instances remember beside their blocks, and its check word.
(DESIGN CHOICE log 33) -/
structure TransferCopy where
  sender  : LaneId
  cycle   : W32
  sdId    : W64
  timers  : Nat
  sizes   : List Nat
  vector  : Mem 32
  cells   : Mem 32
  comm    : CommState
  values  : List (Option W64)
  pfAux   : List PfAux
  rampWas : Bool
  crc     : W32
  deriving DecidableEq, Repr

/-- What arrives on an exchange link (R132). (DESIGN CHOICE log 33) -/
inductive ExchangeFrame where
  | image (f : ImageFrame)
  | presence (f : PresenceFrame)
  | transfer (f : TransferCopy)
  deriving DecidableEq, Repr

/-- A vote-link word (R164): its kind, and the sideband and data it carries. -/
inductive VoteKind where
  | message | drive | probe | endHandover
  deriving DecidableEq, Repr

structure VoteWord where
  lane  : LaneId
  kind  : VoteKind
  last  : Bool
  msg   : Nat
  word  : Nat
  data  : W64
  chk   : BitVec 3
  deriving DecidableEq, Repr

/-- Why the supply side sends the module to HALT (R26). -/
inductive RailFault where
  | callipersRail | supervisor
  deriving DecidableEq, Repr

/-! ### The major modes (R7, R391), in the order of their codes -/

inductive Mode where
  | dormant | boot | config | join | commission | service | degraded | shadow | maintain | update
  | quiesce | halt
  deriving DecidableEq, Repr

inductive Role where
  | central | objectController
  deriving DecidableEq, Repr

/-! ### Field section -/

/-- The kinds of field channel whose faults clear under R212. -/
inductive FieldKind where
  | digital | analogue
  deriving DecidableEq, Repr

/-- Causes of a pulse source fault (R200, R215), codes 1 and 2. -/
inductive SourceCause where
  | overload | cannotGoDark
  deriving DecidableEq, Repr

/-- The two poles of an output (R218, R237). -/
inductive Pole where
  | pos | neg
  deriving DecidableEq, Repr

/-- A change of an output's terminal classes, or of its current, that the checker saw begin a time after the start of another
output's pulse, in ns (R231). -/
structure CrossChange where
  out     : Nat
  after   : Nat
  current : Bool
  deriving DecidableEq, Repr

/-- Kinds of test pulse, with the codes 1 and 2 of `OUT.STATE.TEST` (R237). -/
inductive PulseKind where
  | dark | light
  deriving DecidableEq, Repr

/-- Protection function kinds (R238), codes 1 to 5. -/
inductive PfKind where
  | estop | gate | twoButton | curtain | safeStop
  deriving DecidableEq, Repr

/-- The state codes of a protection instance (R244, R245, R246, R249). -/
inductive PfCode where
  | invalid | go | stopped | waitReset | disc | unlocked | lockFault | idle | one | ack | blocked
  | ready | stopping | standstill | tripped
  deriving DecidableEq, Repr

/-! ### Rings -/

/-- The two ring interfaces of a module, rings 1 and 2 of the unit tree (R252, R277). -/
inductive RingId where
  | r1 | r2
  deriving DecidableEq, Repr

/-- The two ports of a ring interface (R251). -/
inductive Dir where
  | east | west
  deriving DecidableEq, Repr

/-- Kinds of schedule entry (R263), codes 0 to 4. -/
inductive SlotKind where
  | free | reference | exclusive | arbitrating | join
  deriving DecidableEq, Repr

/-- Parity of a schedule entry (R263), codes 0 to 2. -/
inductive Parity where
  | every | even | odd
  deriving DecidableEq, Repr

/-- States of a ring interface, the codes of `RG.STATE.IF` (R306). -/
inductive RingIf where
  | down | listen | coldstart | backoff | integrate | joining | active
  deriving DecidableEq, Repr

/-- States of a Tool rest, the codes of `TR.STATE` (R278, R296). -/
inductive RestState where
  | closed | unsync | sync | faulted
  deriving DecidableEq, Repr

/-- A ring frame on the line (R255), with what the line showed of it (R254, R260): the byte of a first symbol error, an end
delimiter out of its place, or the abort delimiter. -/
structure RingFrame where
  hop     : Byte
  loop    : Bool
  dly     : W16
  typ     : BitVec 4
  ver     : BitVec 4
  prio    : BitVec 4
  copy    : BitVec 1
  src     : BitVec 12
  slot    : W16
  seq     : W32
  msg     : BitVec 12
  len     : W16
  hcrc    : W16
  payload : List W64
  fcrc    : W32
  symErr  : Option Nat
  endOk   : Bool
  aborted : Bool
  deriving DecidableEq, Repr

/-- Kinds of link-check frame (R281), codes 1 to 5. -/
inductive LinkCheck where
  | request | echo | result | report | close
  deriving DecidableEq, Repr

/-! ### Red and blue -/

/-- The two networks (R307). -/
inductive Net where
  | red | blue
  deriving DecidableEq, Repr

/-- The Ethernet ports (R64, R307). -/
inductive EthPort where
  | red | blue | maintenance
  deriving DecidableEq, Repr

/-- What arrives at a port beside its own protocol (R64, R307): an ARP request for an address, an ARP reply of an address with its
hardware address, and an ICMP echo to an address, which may be fragmented or carry options. -/
inductive NetRequest where
  | arpRequest (target : W32)
  | arpReply (sender : W32) (hw : BitVec 48)
  | icmpEcho (dst : W32) (fragmented options : Bool)
  deriving DecidableEq, Repr

/-- The IPv4 and UDP headers of a datagram on red or blue, as far as R307 and R308 judge or set them. `udpLen` counts the UDP header
and its payload. -/
structure IpHead where
  src     : W32
  dst     : W32
  proto   : Byte
  fragmented : Bool
  options : Bool
  dscp    : BitVec 6
  ttl     : Byte
  dontFrag : Bool
  srcPort : W16
  dstPort : W16
  udpLen  : W16
  sum     : W16
  deriving DecidableEq, Repr

/-- A datagram on red or blue (R313, R317). (DESIGN CHOICE log 33) -/
structure JxtDatagram where
  ip      : IpHead
  magic   : W16
  version : Byte
  net     : BitVec 4
  copy    : BitVec 1
  conn    : W16
  words   : W16
  body    : List W64
  crc     : W32
  deriving DecidableEq, Repr

/-! ### Field bus -/

inductive CanId where
  | p1 | p2
  deriving DecidableEq, Repr

/-- Transmit kinds (R348), codes 0 to 3. -/
inductive TxKind where
  | event | exclusive | arbitrating | atTime
  deriving DecidableEq, Repr

/-- A CAN frame completed on a bus (R342, R366). -/
structure CanFrame where
  id   : BitVec 29
  ide  : Bool
  fdf  : Bool
  brs  : Bool
  esi  : Bool
  rtr  : Bool
  dlc  : BitVec 4
  data : List Byte
  deriving DecidableEq, Repr

/-- The bus errors counted by `CAN.ERR` (R365). -/
inductive CanErr where
  | bit | stuff | form | crc | ack
  deriving DecidableEq, Repr

/-- How a transmission attempt ends (R351): it completes, it loses arbitration, or it ends in an error, before
or after arbitration was won. (DESIGN CHOICE log 77) -/
inductive TxEnd where
  | completed | lostArbitration | error (won : Bool) (kind : CanErr)
  deriving DecidableEq, Repr

/-! ### Pair link -/

inductive LinkId where
  | l1 | l2
  deriving DecidableEq, Repr

/-- `PL.STATE.ROLE` (R389). -/
inductive PairRole where
  | none | lead | shadow | joining
  deriving DecidableEq, Repr

/-- A pair-link status frame (R371, R372) with what the receiving port sees of it. (DESIGN CHOICE log 33) -/
structure StatusFrame where
  fcrc     : W32
  link     : LinkId
  copy     : BitVec 1
  cycle    : W32
  mode     : BitVec 4
  role     : BitVec 2
  lanes    : BitVec 3
  sighted  : Bool
  sdId     : W64
  swap     : W32
  faults   : List (BitVec 4)
  ready    : Bool
  deriving DecidableEq, Repr

/-- Half of a mirror segment (R371, R377): the even words, or the odd ones. (DESIGN CHOICE log 33) -/
structure MirrorFrame where
  fcrc    : W32
  link    : LinkId
  copy    : BitVec 1
  odd     : Bool
  seg     : Nat
  cycle   : W32
  words   : List W64
  deriving DecidableEq, Repr

/-! ### Sessions and accesses -/

/-- Who accesses the Bench (R42): the host port's session, or a maintenance session by its number. -/
inductive Sess where
  | host
  | mnt (n : Nat)
  deriving DecidableEq, Repr

/-- The level of a maintenance session (R66). -/
inductive Level where
  | read | write
  deriving DecidableEq, Repr

/-- The status codes of R50. -/
inductive Status where
  | ok | pending | refused | addrErr | waitTimeout | crcErr | busy | none | seqErr | authErr | sessionErr
  | lenErr | notReady
  deriving DecidableEq, Repr

/-- A part of a block that travels over the maintenance port: its number, and the block's length (R463, R464). -/
structure BlockPart where
  part : Nat
  len  : Nat
  deriving DecidableEq, Repr

/-- What frames a maintenance datagram beside its type, session, sequence number and payload (R64, R65): source address, destination
port, whether it came unfragmented, and the header fields and CRC-32 as sent. -/
structure MntHead where
  ip      : W32
  port    : W16
  whole   : Bool
  magic   : W16
  version : Byte
  length  : W16
  crc     : W32
  deriving DecidableEq, Repr

/-- A reply datagram of the maintenance port (R65, R67). -/
structure MntReply where
  ip      : W32
  typ     : Byte
  session : Nat
  status  : Status
  seq     : W32
  data    : List Byte
  deriving DecidableEq, Repr

/-- An answer that left the Bench: a status code and data words. -/
structure Reply where
  status : Status
  data   : List W32
  deriving DecidableEq, Repr

/-- A Bench access request on a pair link (R37, R371); `data` is what a write carries. (DESIGN CHOICE log 33) -/
structure AccessFrame where
  fcrc  : W32
  link  : LinkId
  copy  : BitVec 1
  cycle : W32
  write : Bool
  addr  : W32
  count : Nat
  data  : List W32 := []
  deriving DecidableEq, Repr

/-- A Bench access reply on a pair link (R37, R371). (DESIGN CHOICE log 33) -/
structure AnswerFrame where
  fcrc  : W32
  link  : LinkId
  copy  : BitVec 1
  cycle : W32
  reply : Reply
  deriving DecidableEq, Repr

/-- The four frames of a pair link (R371). -/
inductive PairFrame where
  | mirror (f : MirrorFrame)
  | status (f : StatusFrame)
  | request (f : AccessFrame)
  | answer (f : AnswerFrame)
  deriving DecidableEq, Repr

/-! ### Boot, configuration and self-test -/

/-- What a lane's part of BOOT finds (R400, R401, R496): its firmware digest, both signatures, and the injection at every
position. -/
structure LaneBoot where
  firmwareOk  : Bool
  rsaOk       : Bool
  slhOk       : Bool
  injectionOk : Bool
  deriving DecidableEq, Repr

/-- A self-test block (R413), codes 0x01 to 0x0D. -/
inductive Block where
  | bistA | bistB | bistC | marchA | marchB | marchC | callipers1 | callipers2 | ports | analogue | couplers
  | outputs | supervisor
  deriving DecidableEq, Repr

/-- What a block's test controller holds at its end (R413, R414): its signatures or its mismatch count, the counter, the completion
word, and when it ended, in ms from the start of the test; which instances failed, for the blocks whose marks name instances
(R421); and for block 0x0D the lane that judges. (DESIGN CHOICE log 77, DESIGN CHOICE log 101) -/
structure BlockResult where
  block    : Block
  judge    : LaneId := .a
  sigs     : List W64 := []
  mismatches : Nat := 0
  count    : Nat
  word     : W32
  ended    : Option Nat
  failed   : List Nat
  watchdog : Bool
  deriving DecidableEq, Repr

/-- What BOOT reports (R400): per lane, the Callipers self-check and the supervisor check of the quick test, and
the blocks of the full test. (DESIGN CHOICE log 77) -/
structure BootReport where
  laneA : LaneBoot
  laneB : LaneBoot
  laneC : LaneBoot
  callipersOk  : Bool
  supervisorOk : Bool
  blocks : List BlockResult
  deriving DecidableEq, Repr

/-- Why a boot failed (R401): two lanes or more failed their firmware check, with what the lanes reported of it; the injection of the
quick test failed in two or more; or fewer than two usable lanes are left. -/
inductive BootFail where
  | lanesFirmware (report : BootReport)
  | quickInjection
  | usableLanes
  deriving DecidableEq, Repr

/-- What the lane cannot tell from the module's state in the steps of RESTART (R151, R466): the firmware's digest, both signatures of
the firmware manifest and of the station data manifest, the test slice, the image's digest, and its translation.
(DESIGN CHOICE log 77) -/
structure RestartReport where
  firmwareOk : Bool
  rsaOk      : Bool
  slhOk      : Bool
  sliceOk    : Bool
  sdRsaOk    : Bool
  sdSlhOk    : Bool
  digestOk   : Bool
  translationOk : Bool
  migrationOk : Bool
  deriving DecidableEq, Repr

/-- Kinds of Sander finding (R429, R432), codes 1 to 3. -/
inductive SanderFinding where
  | pattern | restore | uncorrectable
  deriving DecidableEq, Repr

/-- Why the Bench starts (R443, code 0x0006). -/
inductive BenchCause where
  | powerUp | watchdog | firmwareRoll
  deriving DecidableEq, Repr

/-! ### Records -/

/-- A notice (R434): code, unit path in address form, instance, two parameters, the logic cycle number where the
unit has one, and the event-counter sources it counts for, each with its instance (R439, R440). -/
structure Notice where
  code  : W16
  unit  : W32
  inst  : W16
  p0    : W32
  p1    : W32
  cycle : Option W32
  ec    : List (Byte × Byte)
  deriving DecidableEq, Repr

/-! ### Updates -/

/-- Kinds of set (R459), codes 1 to 3. -/
inductive SetKind where
  | firmware | stationData | enrolment
  deriving DecidableEq, Repr

inductive SlotId where
  | a | b
  deriving DecidableEq, Repr

/-- State of a slot (R476), codes 0 to 5. -/
inductive SlotState where
  | empty | loading | verified | active | trial | previous
  deriving DecidableEq, Repr

/-- Operations of an enrolment record (R461). -/
inductive EnrolOp where
  | addKey (slot : Nat)
  | retireKey (slot : Nat)
  | retireGeneration0
  | setPairIndex (i : BitVec 1)
  | setRailwayKey
  deriving DecidableEq, Repr

/-- A component of a set (R459): kind, offset, length, and its digest in the manifest. -/
structure Component where
  kind   : W16
  offset : Nat
  length : Nat
  digest : BitVec 384
  deriving DecidableEq, Repr

/-- A manifest (R459) as its bytes decode. -/
structure Manifest where
  magic     : W32
  kind      : Byte
  format    : Byte
  key       : Byte
  bodyLen   : Nat
  imageLen  : Nat
  version   : W32
  voteFmt   : W16
  setLow    : Byte
  setHigh   : Byte
  benchLow  : W16
  benchHigh : W16
  laneLow   : W16
  laneHigh  : W16
  sdId      : W64
  orders    : BitVec 2
  hwLow     : Byte
  hwHigh    : Byte
  serial0   : W64
  serial1   : W64
  comps     : List Component
  deriving DecidableEq, Repr

/-- A transfer request of R452 or R463. `part` numbers the part of a block that a maintenance datagram carries, `writeOk` says that
the flash write of a block reads back. -/
inductive Transfer where
  | info
  | recRead (first count : Nat)
  | recFreeze (op : Byte)
  | updOpen (kind : Byte) (mlen : Nat)
  | block (off : Nat) (part : Option BlockPart) (data : List Byte) (crc : W32) (writeOk : Bool)
  | verify
  | abort
  | updStatus
  | attest (nonce : BitVec 256)
  | attRead (off len : Nat)
  deriving DecidableEq, Repr

/-- A request of the Womas access protocol (R65): `openSess` is OPEN, `access` READ, or WRITE where it has data. -/
inductive MntReq where
  | openSess (level : Byte)
  | auth (credential : BitVec 384)
  | access (addr : W32) (count : Nat) (data : Option (List W32))
  | keep
  | close
  | transfer (x : Transfer)
  deriving DecidableEq, Repr

/-- A datagram that arrives at the maintenance port (R65). (DESIGN CHOICE log 33) -/
structure MntDatagram where
  head : MntHead
  sess : Nat
  seq  : W32
  req  : MntReq
  deriving DecidableEq, Repr

/-- How a register access reaches the Bench (R42): in a frame of the host port, or in a datagram of a maintenance session with its
number and sequence number. -/
inductive Via where
  | host
  | mnt (h : MntHead) (sess : Nat) (seq : W32)
  deriving DecidableEq, Repr

/-- How an update request reaches the Bench (R463): through the mailbox with its request number, or in a datagram. -/
inductive UpdVia where
  | mailbox (num : W32)
  | mnt (h : MntHead) (sess : Nat) (seq : W32)
  deriving DecidableEq, Repr

end Sys2Proof
end

