-- ==== Sys2Proof/Station.lean ====
section
/-! DEFINITION. A station data set as CONFIG receives it: the table images with their headers, and the
configuration set, decoded into the settings the chapters name. The byte layout of the configuration set is not
in the spec, so a set is a structure; a setting with a default is an `Option` (R495). -/

namespace Sys2Proof

/-- The fields of a table image's header (R105). `pi` and `sigma` list the tables from index 0. -/
structure ImageHeader where
  magic  : W32
  grain  : Byte
  format : Byte
  sdId   : W64
  rows   : Nat
  timers : Nat
  pi     : List Nat
  key    : BitVec 18
  sigma  : List Nat
  keyT   : BitVec 14
  deriving DecidableEq, Repr

/-- A table image: its 64 header bytes (R105) and its rows (R71). -/
structure TableImage where
  head   : List Byte
  rows   : Mem 64
  deriving DecidableEq, Repr

/-- Sources of an input variable (R88, R93, R202, R206, R240, R276, R324, R359). Network variables name the
connection by its local index and the bit of a received message by word and bit. -/
inductive InputSrc where
  | di (ch : Nat)
  | diValid (ch : Nat)
  | aiThr (ch k : Nat)
  | aiValid (ch : Nat)
  | encThr (k : Nat)
  | encValid
  | outValid (n : Nat)
  | ring (i : RingId) (entry word bit : Nat)
  | ringValid (i : RingId) (entry : Nat)
  | jxt (conn word bit : Nat)
  | jxtValid (conn : Nat)
  | can (p : CanId) (buf byte bit : Nat)
  | canValid (p : CanId) (buf : Nat)
  | protection (inst bit : Nat)
  deriving DecidableEq, Repr

/-- Where a message goes (R165). -/
inductive MsgPort where
  | ring (i : RingId)
  | ringSporadic (i : RingId)
  | jxt (conn : Nat)
  | can (p : CanId) (buf : Nat)
  | canCommand (p : CanId)
  | mirror
  deriving DecidableEq, Repr

/-- A message: number, length in words, port, and the fixed part of its words. -/
structure MsgCfg where
  msg   : Nat
  words : Nat
  port  : MsgPort
  base  : List W64
  deriving DecidableEq, Repr

/-- One mapped bit of a message: message, word, bit, and the output variable it carries (R88). -/
structure MsgBit where
  msg  : Nat
  word : Nat
  bit  : Nat
  addr : Nat
  deriving DecidableEq, Repr

/-- Settings of a digital input (R192, R194, R196, R197, R199, R202). -/
structure DiCfg where
  used  : Bool
  monGiven : Option Nat
  src   : Option Nat
  captGiven : Option Nat
  cos   : Bool
  filtN : Option Nat
  enc   : Bool
  deriving DecidableEq, Repr

/-! Settings with the default 0 (R194). -/

def DiCfg.mon (c : DiCfg) : Nat := c.monGiven.getD 0
def DiCfg.capt (c : DiCfg) : Nat := c.captGiven.getD 0

/-- An analogue or speed threshold: set value and reset value (R206). -/
structure Threshold where
  set   : Int
  reset : Int
  deriving DecidableEq, Repr

structure AiCfg where
  used : Bool
  thrs : List Threshold
  deriving DecidableEq, Repr

/-- Settings of a safety output (R221, R222, R235). -/
structure OutCfg where
  used : Bool
  ored : Bool
  old  : Bool
  imin : Option Nat
  deriving DecidableEq, Repr

/-- A protection function instance (R238 to R249). Channels are given as numbers; `none` where the kind has
none. -/
structure PfCfg where
  kind   : PfKind
  anti   : Bool
  base   : Nat
  chA    : Option Nat
  chB    : Option Nat
  chC    : Option Nat
  chD    : Option Nat
  reset  : Option Nat
  lock   : Option Nat
  guard  : List (Option Nat)
  tdisc  : Option Nat
  ackmax : Option Nat
  vmaxGiven : Option Nat
  vlim0Given : Option Nat
  tdelayGiven : Option Nat
  decelGiven : Option Nat
  vssGiven : Option Nat
  tssGiven : Option Nat
  tmaxGiven : Option Nat
  deriving DecidableEq, Repr

/-! The settings of a safe stop have no default (R247): one that is not given fails its check at CONFIG (R495). -/

def PfCfg.vmax (c : PfCfg) : Nat := c.vmaxGiven.getD 0
def PfCfg.vlim0 (c : PfCfg) : Nat := c.vlim0Given.getD 0
def PfCfg.tdelay (c : PfCfg) : Nat := c.tdelayGiven.getD 0
def PfCfg.decel (c : PfCfg) : Nat := c.decelGiven.getD 0
def PfCfg.vss (c : PfCfg) : Nat := c.vssGiven.getD 0
def PfCfg.tss (c : PfCfg) : Nat := c.tssGiven.getD 0
def PfCfg.tmax (c : PfCfg) : Nat := c.tmaxGiven.getD 0

/-- A schedule entry (R263, R267, R268, R276). `instant` is in 10 ns units; `conn` is the receive buffer shared
by the copy windows of one message; `members` lists the nodes of an arbitrating window. -/
structure RingEntry where
  kind      : SlotKind
  bc        : Nat
  parity    : Parity
  instant   : Nat
  owner     : BitVec 12
  copy      : BitVec 1
  msg       : Nat
  len       : Nat
  tx        : Bool
  rx        : Bool
  conn      : Nat
  prio      : BitVec 4
  members   : List (BitVec 12)
  arbBytesGiven : Option Nat
  rxTmo     : Option Nat
  senderC   : Nat
  deriving DecidableEq, Repr

/-! A setting without a default (R495). -/

def RingEntry.arbBytes (c : RingEntry) : Nat := c.arbBytesGiven.getD 0

/-- Settings of a sporadic ring message (R267, R268). -/
structure Sporadic where
  msg     : Nat
  prio    : BitVec 4
  refreshGiven : Option Nat
  ageMax  : Option Nat
  deriving DecidableEq, Repr

/-! A setting without a default (R267, R495). -/

def Sporadic.refresh (c : Sporadic) : Nat := c.refreshGiven.getD 0

/-- A coldstart entry (R283). -/
structure Coldstart where
  node : BitVec 12
  copy : BitVec 1
  rank : Nat
  deriving DecidableEq, Repr

/-- A ring interface (R252 to R304). -/
structure RingCfg where
  used       : Bool
  node       : BitVec 12
  pair       : Bool
  schedId    : W32
  cfgSchedId : W32
  rtMaxGiven : Option Nat
  nmod       : Nat
  entries    : List RingEntry
  sporadic   : List Sporadic
  coldstarts : List Coldstart
  lead       : Bool
  schedCrc   : W32
  loadedCrc  : W32
  declaredOpen : Bool
  deriving DecidableEq, Repr

/-! A setting without a default (R273, R495). -/

def RingCfg.rtMax (c : RingCfg) : Nat := c.rtMaxGiven.getD 0

/-- A JXT connection (R307, R311, R318, R323 to R326), its message number in each direction, with the peer's address and static hardware address for each of its copies.
`wraps` holds the wrapped keys of the two key slots. -/
structure JxtCfg where
  number   : W16
  peer     : BitVec 12
  txMsg    : Nat
  rxMsg    : Nat
  txWords  : Nat
  rxWords  : Nat
  redIp    : List W32
  blueIp   : List W32
  redHw    : List (Option (BitVec 48))
  blueHw   : List (Option (BitVec 48))
  txCcid   : W32
  rxCcid   : W32
  winUs    : Option Nat
  ageMs    : Option Nat
  tmo      : Option Nat
  peerCGiven : Option Nat
  cmac     : Bool
  keyTx    : BitVec 1
  wraps    : List (Option (BitVec 192))
  deriving DecidableEq, Repr

/-! A setting without a default (R495). -/

def JxtCfg.peerC (c : JxtCfg) : Nat := c.peerCGiven.getD 0

/-- A field bus protection profile, of check-value contexts 2 to 7 (R330 to R332, R339). -/
structure Profile where
  ctx     : Nat
  send    : Bool
  poly    : Nat
  width   : Nat
  polyv   : W64
  init    : W64
  xorOut  : W64
  refIn   : Bool
  refOut  : Bool
  checkAt : Nat
  alvBits : Nat
  alvMaxd : Nat
  alvByte : Nat
  deriving DecidableEq, Repr

/-- Direction of a CAN message buffer (R345), codes 0 to 2. -/
inductive BufDir where
  | unused | transmit | receive
  deriving DecidableEq, Repr

/-- A CAN message buffer (R345 to R359). `id2` is the partner copy's identifier on a receive buffer, and on a transmit buffer
the identifier of copy 1 of a pair (R347). Times are in µs. -/
structure BufCfg where
  dir      : BufDir
  kind     : TxKind
  id       : BitVec 29
  ide      : Bool
  fdf      : Bool
  brs      : Bool
  dlc      : BitVec 4
  mask     : BitVec 29
  id2      : BitVec 29
  pair     : Bool
  ctx      : Nat
  msg      : Nat
  late     : Option Nat
  pairWin  : Option Nat
  tmo      : Option Nat
  ttOfs    : Nat
  ttLen    : Nat
  ttMask   : W32
  deriving DecidableEq, Repr

/-- An arbitrating window of a time-triggered port (R353). -/
structure ArbWindow where
  ofs  : Nat
  len  : Nat
  mask : W32
  deriving DecidableEq, Repr

/-- A CAN FD port (R342 to R367), with the bit rates as the codes of `CAN.CFG` (R365). -/
structure CanCfg where
  nbr    : Nat
  dbr    : Nat
  tt     : Bool
  listen : Bool
  nsp    : Option Nat
  dsp    : Option Nat
  cbcGiven : Option Nat
  txen   : Option Nat
  refId  : BitVec 29
  refIde : Bool
  bufs   : List BufCfg
  arbs   : List ArbWindow
  deriving DecidableEq, Repr

/-! A setting without a default (R352, R495). -/

def CanCfg.cbc (c : CanCfg) : Nat := c.cbcGiven.getD 0

/-- Where the data words of a mirror packet hold what a receiver takes (R376): requests and memories by packet bit and own
address, the words of the running timers, cells by the packet's index and the own one, JXT records by packet word and own
connection, alive counters by packet word and own buffer. Packet bit `64 k + j` is bit `63 - j` of data word `k`. -/
structure PacketMap where
  reqs   : List (Nat × Nat)
  bits   : List (Nat × Nat)
  timer0 : Nat
  timers : Nat
  cells  : List (Nat × Nat)
  jxt    : List (Nat × Nat)
  can    : List (Nat × CanId × Nat)
  deriving DecidableEq, Repr

/-- Pair settings (R374, R376, R384, R385). `requests` lists input variables, `memories` internal bits, `cells`
timer cells; `carry` is the carry map from the set `carryFrom`. -/
structure PairCfg where
  paired   : Bool
  requests : List Nat
  memories : List Nat
  cells    : List Nat
  capacity : Nat
  segWords : List Nat
  joinCyc  : Option Nat
  canAlive : List (CanId × Nat)
  carryFrom : W64
  carry    : PacketMap
  deriving DecidableEq, Repr

/-- The permits and the other named output variables (R395, R424, R469). -/
structure Permits where
  maintain      : Option Nat
  leaveMaintain : Option Nat
  commission    : Option Nat
  endCommission : Option Nat
  swap          : Option Nat
  quiesce       : Option Nat
  actFw         : Option Nat
  actSd         : Option Nat
  enrol         : Option Nat
  slice         : Option Nat
  deriving DecidableEq, Repr

/-- An event counter's configuration (R439, R455). -/
structure EcCfg where
  src  : Byte
  qual : Byte
  sat  : Bool
  deriving DecidableEq, Repr

/-- The IPv4 settings of an Ethernet port: its address, its mask, and a gateway (R64, R307). -/
structure IpFace where
  ip      : W32 := 0
  mask    : W32 := 0
  gateway : Option W32 := none
  deriving DecidableEq, Repr

/-- Module-wide settings. `cycle` is C in ms; `red` and `blue` hold the settings of each copy's port (R310, R369). -/
structure Settings where
  cycle      : Option Nat
  evalDlPct  : Option Nat
  thrMin     : Option Nat
  thrMax     : Option Nat
  encThrs    : List Threshold
  rateLim    : Option Nat
  timeIf     : RingId
  red        : List IpFace
  blue       : List IpFace
  jxIcmp     : Option Bool
  jxDscp     : Option Nat
  redOpen    : Bool
  blueOpen   : Bool
  mntOpenRead : Option Bool
  mntStatic  : Bool
  mnt        : IpFace
  mntKey     : List Byte
  sliceFrom  : Option Nat
  sliceLen   : Option Nat
  shockThr   : Option Nat
  tempLow    : Option (List Int)
  tempHigh   : Option (List Int)
  railLow    : Option (List Nat)
  railHigh   : Option (List Nat)
  humHigh    : Option Nat
  recMode    : Bool
  buckets    : List (W16 × Nat × Nat)
  ec         : List EcCfg
  deriving DecidableEq, Repr

/-- C in ms, 32 where the set does not give it (R7, R113, R495). -/
def Settings.cycleMs (s : Settings) : Nat := s.cycle.getD 32

/-- A station data set (R88 to R106, R457, R459). -/
structure StationData where
  id          : W64
  role        : Role
  settingsFmt : Byte
  imageA      : TableImage
  imageB      : TableImage
  imageC      : TableImage
  inputs      : List (Nat × InputSrc)
  restrictIn  : List Nat
  outputs     : List (Nat × Nat)
  restrictOut : List Nat
  initial     : List Nat
  msgs        : List MsgCfg
  msgBits     : List MsgBit
  permits     : Permits
  settings    : Settings
  di          : List DiCfg
  ai          : List AiCfg
  out         : List OutCfg
  pf          : List PfCfg
  ring1       : RingCfg
  ring2       : RingCfg
  jxt         : List JxtCfg
  can1        : CanCfg
  can2        : CanCfg
  profiles    : List Profile
  pair        : PairCfg
  deriving DecidableEq, Repr

/-- What the checks of a set that the model cannot compute report (R402): the manifest checks of each lane, and
the units' other refusals, each with its unit's level-2 path value and its code of R494. (DESIGN CHOICE log 77) -/
structure ConfigVerdict where
  manifestA : Option Byte
  manifestB : Option Byte
  manifestC : Option Byte
  others    : List (Nat × Byte)
  deriving DecidableEq, Repr

end Sys2Proof
end

