-- ==== Sys2Proof/Syntax.lean ====
section
/-! DEFINITION. The commands: one constructor per row of the opcode table. An operand `t` is the instant of the
command in ns of the module's life; `l` a lane, `i` a ring interface, `d` one of its ports, `p` a CAN FD port,
`ch`, `n` and `k` instances. What an operand carries beside those is what the row's event brings from outside:
a frame, a sample, a measured value, the findings of a test. `via` is how a session's access reaches the Bench: a frame of the host
port, or a datagram with its header. -/

namespace Sys2Proof

/-- Out of the model: what only another unit, the wire or time could show. (DESIGN CHOICE log 75) -/
inductive Instr where
  -- power, reset, boot and configuration (R25, R26, R391 to R411)
  | powerUp (t : Nat)
  | supplyInterruption (t : Nat)
  | supplyLossQuiesce (t : Nat)
  | supplyReturn (t : Nat)
  | holdUpExhausted (cut : Option W32) (t : Nat)
  | holdUpReserveReached (t : Nat)
  | haltSupplyRemoved (t : Nat)
  | laneRailOutOfWindow (l : LaneId) (t : Nat)
  | callipersRailFault (cause : RailFault) (t : Nat)
  | benchRailFault (t : Nat)
  | resetNSample (low : Bool) (t : Nat)
  | resetNAsserted (t : Nat)
  | resetNReleased (t : Nat)
  | resetStuck (t : Nat)
  | benchClockLost (t : Nat)
  | bootComplete (report : BootReport) (t : Nat)
  | bootFailed (cause : BootFail) (t : Nat)
  | bootTimeout (t : Nat)
  | configAccept (sd : StationData) (verdict : ConfigVerdict) (t : Nat)
  | configRefuse (sd : StationData) (verdict : ConfigVerdict) (t : Nat)
  | configTimeout (t : Nat)
  | joinStallEvent (t : Nat)
  -- the logic cycle (R113 to R131)
  | cycleT0 (l : LaneId) (clkDev : Int) (t : Nat)
  | pllLockTimeout (l : LaneId) (t : Nat)
  | inputSample (l : LaneId) (t : Nat)
  | samplingDeadline (l : LaneId) (t : Nat)
  | imageFrameSend (l : LaneId) (t : Nat)
  | exchangeFrameReceive (l : LaneId) (frame : ExchangeFrame) (t : Nat)
  | intactJudgement (l : LaneId) (t : Nat)
  | acceptedSet (l : LaneId) (t : Nat)
  | exchangeDeadline (l : LaneId) (t : Nat)
  | runStart (l : LaneId) (t : Nat)
  | gate (l : LaneId) (fetch : Fetch) (checkerDiffers : Bool) (t : Nat)
  | storeRow (l : LaneId) (fetch : Fetch) (checkerDiffers : Bool) (t : Nat)
  | timerRow (l : LaneId) (fetch : Fetch) (checkerDiffers : Bool) (t : Nat)
  | endRow (l : LaneId) (fetch : Fetch) (checkerDiffers : Bool) (t : Nat)
  | runClose (l : LaneId) (t : Nat)
  | progressCheckpoint (l : LaneId) (m : Nat) (t : Nat)
  | evaluationDeadline (l : LaneId) (t : Nat)
  | handoverEnd (l : LaneId) (t : Nat)
  | handoverDeadline (l : LaneId) (t : Nat)
  | drivePeriodBoundary (l : LaneId) (t : Nat)
  | mirrorDeadline (l : LaneId) (t : Nat)
  | sleepEntry (l : LaneId) (t : Nat)
  | keepAwakeHoldSet (l : LaneId) (reason : HoldReason) (t : Nat)
  | keepAwakeHoldRelease (l : LaneId) (reason : HoldReason) (t : Nat)
  -- agreement and lane life (R132 to R163)
  | comparatorMismatch (l : LaneId) (unit : Comparator) (t : Nat)
  | comparatorInjection (l : LaneId) (unit : Comparator) (captured : Capture) (t : Nat)
  | missedInjection (l : LaneId) (unit : Comparator) (t : Nat)
  | exclusionLineExpire (l target : LaneId) (t : Nat)
  | supervisorResetEnd (l : LaneId) (t : Nat)
  | restartComplete (l : LaneId) (report : RestartReport) (t : Nat)
  | transferServe (l : LaneId) (dest : LaneId) (t : Nat)
  | transferReceive (l : LaneId) (t : Nat)
  | rejoinTimeout (l : LaneId) (t : Nat)
  -- Callipers (R164 to R188)
  | voteWordArrive (w : VoteWord) (t : Nat)
  | skewWindowClose (msg word : Nat) (t : Nat)
  | cycleReport (t : Nat)
  | driveMonitorSample (pos neg : List Nat) (t : Nat)
  | driveRefreshMark (l : LaneId) (t : Nat)
  | driveWatchdogTrip (t : Nat)
  | callipersHalvesMismatch (t : Nat)
  | callipersInjection (captured : Option Capture) (t : Nat)
  -- field inputs (R189 to R217)
  | inputRawSample (ch : Nat) (mV : Int) (t : Nat)
  | thresholdUpdate (t : Nat)
  | couplerFrame (ch : Nat) (okA okB okC : Bool) (t : Nat)
  | lineConductanceMeasure (ch : Nat) (nS10 : Nat) (t : Nat)
  | darkWindow (k : Nat) (readsHigh : Bool) (ma : Nat) (t : Nat)
  | pulseSourceFault (k : Nat) (cause : SourceCause) (t : Nat)
  | pulseSourceRetry (k : Nat) (shortGone : Bool) (t : Nat)
  | comparatorTest (ch : Nat) (first second : Bool) (t : Nat)
  | encoderEdge (a b : Bool) (t : Nat)
  | encoderSpeedUpdate (t : Nat)
  | encoderRevalid (t : Nat)
  | analogueConversion (ch : Nat) (code : Nat) (t : Nat)
  | analogueReferenceCheck (ch : Nat) (high : Bool) (reading : Nat) (t : Nat)
  | inputFaultClear (kind : FieldKind) (ch : Nat) (t : Nat)
  | fieldSupplySample (v10 : Int) (t : Nat)
  | fsLow (t : Nat)
  | fsLowClear (t : Nat)
  | fsSag (t : Nat)
  | fsRev (t : Nat)
  | fsHigh (t : Nat)
  | fsRelease (t : Nat)
  | fsmFreezeEnd (t : Nat)
  -- safety outputs (R218 to R237)
  | offStateJudgement (n : Nat) (vpos vneg : Int) (t : Nat)
  | openLoadOn (n : Nat) (mA : Nat) (vpos vneg : Int) (t : Nat)
  | testPeriodStart (t : Nat)
  | darkPulse (n : Nat) (pole : Pole) (opened matched : Bool) (t : Nat)
  | darkPulseRedrive (n : Nat) (pole : Pole) (seen : List CrossChange) (t : Nat)
  | darkPulseRecloseCheck (n : Nat) (pole : Pole) (ok : Bool) (seen : List CrossChange) (t : Nat)
  | lightPulse (n : Nat) (pole : Pole) (closed follow matched : Bool) (t : Nat)
  | lightPulseEnd (n : Nat) (pole : Pole) (seen : List CrossChange) (t : Nat)
  | lightPulseVerify (n : Nat) (pole : Pole) (gateBelow : Bool) (seen : List CrossChange) (t : Nat)
  | pulseRepeat (n : Nat) (pole : Pole) (t : Nat)
  | overload (n : Nat) (t : Nat)
  | thermalFoldback (n : Nat) (temp : Int) (t : Nat)
  | overtemperature (n : Nat) (temp : Int) (t : Nat)
  | outputFaultClear (n : Nat) (temp : Int) (t : Nat)
  | outputCouplerFrame (n : Nat) (okA okB okC : Bool) (t : Nat)
  -- station rings (R251 to R306)
  | ringFrameArrive (i : RingId) (d : Dir) (frame : RingFrame) (t : Nat)
  | insertionBufferDrain (i : RingId) (t : Nat)
  | toolRestWindowOpen (i : RingId) (d : Dir) (slot : Nat) (t : Nat)
  | exclusiveWindowSend (i : RingId) (slot : Nat) (t : Nat)
  | arbitratingWindow (i : RingId) (slot : Nat) (t : Nat)
  | toolRestWindowClose (i : RingId) (d : Dir) (slot : Nat) (t : Nat)
  | toolRestReopen (i : RingId) (d : Dir) (t : Nat)
  | ringEntrySettle (i : RingId) (slot : Nat) (t : Nat)
  | ringLinkUp (i : RingId) (d : Dir) (t : Nat)
  | linkCheckFrame (i : RingId) (d : Dir) (frame : RingFrame) (t : Nat)
  | linkReport (i : RingId) (t : Nat)
  | referenceSend (i : RingId) (t : Nat)
  | referenceAccept (i : RingId) (d : Dir) (frame : RingFrame) (t : Nat)
  | referenceMissed (i : RingId) (t : Nat)
  | successionReference (i : RingId) (t : Nat)
  | coldstartListenEnd (i : RingId) (t : Nat)
  | coldstartCollision (i : RingId) (t : Nat)
  | coldstartBackoffEnd (i : RingId) (t : Nat)
  | joinFrameSend (i : RingId) (slot : Nat) (returned : Bool) (t : Nat)
  | interfaceActive (i : RingId) (t : Nat)
  | ringLinkLoss (i : RingId) (d : Dir) (t : Nat)
  | loopbackClose (i : RingId) (t : Nat)
  -- red and blue (R307 to R328)
  | netArpIcmp (port : EthPort) (req : NetRequest) (t : Nat)
  | jxtDatagramReceive (net : Net) (dgram : JxtDatagram) (t : Nat)
  | jxtGroupSettle (conn : Nat) (t : Nat)
  -- check-value units (R329 to R341)
  | cvStart (l : LaneId) (ctx : Nat)
  | cvFeed (l : LaneId) (ctx : Nat) (bytes : Nat) (data : W32) (upset : Bool)
  | cvFinalise (l : LaneId) (ctx : Nat) (upset : Bool)
  -- CAN FD ports (R342 to R367)
  | tatPending (p : CanId) (b : Nat) (t : Nat)
  | txLateDeadline (p : CanId) (b : Nat) (begun : Bool) (t : Nat)
  | tatLateDeadline (p : CanId) (b : Nat) (begun : Bool) (t : Nat)
  | canFrameTxEnd (p : CanId) (b : Nat) (outcome : TxEnd) (t : Nat)
  | canReferenceMessage (p : CanId) (e : TxEnd) (t : Nat)
  | canExclusiveWindow (p : CanId) (b : Nat) (began : Bool) (t : Nat)
  | canFrameReceive (p : CanId) (frame : CanFrame) (t : Nat)
  | canPairSettle (p : CanId) (b : Nat) (t : Nat)
  | ownershipBlockExpire (p : CanId) (b : Nat) (t : Nat)
  | canOwnBitError (p : CanId) (b : Nat) (t : Nat)
  | canBusOff (p : CanId) (t : Nat)
  | canBusOffRecovery (p : CanId) (t : Nat)
  | canBusOffRecovered (p : CanId) (t : Nat)
  -- the pair (R368 to R389)
  | pairStatusSend (t : Nat)
  | pairStatusReceive (on : LinkId) (frame : StatusFrame) (t : Nat)
  | pairLinkTimeout (link : LinkId) (t : Nat)
  | mirrorFrameReceive (on : LinkId) (frame : MirrorFrame) (t : Nat)
  | mirrorTake (l : LaneId) (t : Nat)
  | joinAloneLead (t : Nat)
  | partnerRead (via : Via) (write : Bool) (addr : W32) (count : Nat) (t : Nat)
  | partnerReadTimeout (t : Nat)
  -- mode commands (R393 to R395, R469)
  | enterMaintain (via : Via) (key : Byte) (t : Nat)
  | leaveMaintain (via : Via) (key : Byte) (t : Nat)
  | enterCommission (via : Via) (key : Byte) (t : Nat)
  | endCommission (via : Via) (key : Byte) (t : Nat)
  | sweep (via : Via) (key : Byte) (t : Nat)
  | swap (via : Via) (key : Byte) (t : Nat)
  | quiesce (via : Via) (key : Byte) (t : Nat)
  | activateFw (via : Via) (key : Byte) (t : Nat)
  | armFwBoot (via : Via) (key : Byte) (t : Nat)
  | activateSd (via : Via) (key : Byte) (t : Nat)
  | commit (via : Via) (key : Byte) (t : Nat)
  | revert (via : Via) (key : Byte) (t : Nat)
  | enrol (via : Via) (key : Byte) (t : Nat)
  | commandUnserved (t : Nat)
  | sweepStep (n : Nat) (t : Nat)
  -- self-test (R412 to R432)
  | shutdownTestVerdict (results : List BlockResult) (t : Nat)
  | tokenExpiry (t : Nat)
  | sliceDue (l : LaneId) (t : Nat)
  | sliceRequest (t : Nat)
  | sliceVerdict (l : LaneId) (bist march : BlockResult) (t : Nat)
  | sliceOverdue (l : LaneId) (t : Nat)
  | sanderRegion (l : LaneId) (finding : Option SanderFinding) (corrected : List Nat) (t : Nat)
  | sanderPassLate (l : LaneId) (t : Nat)
  -- the Bench (R433 to R456)
  | benchWatchdog (t : Nat)
  | benchStart (cause : BenchCause) (ram : Option (List (Nat × Byte))) (t : Nat)
  | notice (n : Notice) (t : Nat)
  | laneQueueDrain (src : Option LaneId) (t : Nat)
  | sensorSample (temps : List Int) (rails : List Nat) (t : Nat)
  | humiditySample (rh : Nat) (air : Int) (t : Nat)
  | shockEvent (x y z : Nat) (t : Nat)
  | sensorWarningClear (idx : Nat) (t : Nat)
  | ecCfgWrite (via : Via) (val : W32) (t : Nat)
  | suppressedSummary (t : Nat)
  | anchor (t : Nat)
  | flashCommit (ok : Bool) (t : Nat)
  | sectorErase (ok : Bool) (t : Nat)
  | freeze (via : Via) (t : Nat)
  | freezeRelease (via : Via) (t : Nat)
  | freezeTimeout (t : Nat)
  | timeSet (via : Via) (lo : W32) (hi : Option W32) (t : Nat)
  | recInfo (h : MntHead) (sess : Nat) (seq : W32) (t : Nat)
  | recRead (h : MntHead) (sess : Nat) (seq : W32) (first count : Nat) (t : Nat)
  | recFreeze (h : MntHead) (sess : Nat) (seq : W32) (op : Byte) (t : Nat)
  -- host port, mailbox and maintenance port (R34 to R69)
  | h2bDoorbell (v : W32) (t : Nat)
  | hostRead (addr : W32) (count : Nat) (t : Nat)
  | hostReadComplete (t : Nat)
  | hostWrite (addr : W32) (count : Nat) (data : List W32) (crc : W16) (t : Nat)
  | fetch (t : Nat)
  | status (t : Nat)
  | hostClose (crc : W16) (t : Nat)
  | sessionTimeout (sess : Sess) (t : Nat)
  | mntOpen (h : MntHead) (level : Byte) (seq : W32) (t : Nat)
  | mntAuth (h : MntHead) (sess : Nat) (seq : W32) (credential : BitVec 384) (t : Nat)
  | authLockoutEnd (ip : W32) (t : Nat)
  | mntRead (h : MntHead) (sess : Nat) (seq : W32) (addr : W32) (count : Nat) (t : Nat)
  | mntWrite (h : MntHead) (sess : Nat) (seq : W32) (addr : W32) (count : Nat) (data : List W32) (t : Nat)
  | mntKeep (h : MntHead) (sess : Nat) (seq : W32) (t : Nat)
  | mntClose (h : MntHead) (sess : Nat) (seq : W32) (t : Nat)
  | notify (sess : Nat) (t : Nat)
  | dhcpLease (up : Bool) (lease : Option IpFace) (t : Nat)
  | chanSelWrite (via : Via) (page : W32) (index : W16) (t : Nat)
  | irqMaskWrite (via : Via) (page : W32) (mask : W32) (t : Nat)
  | irqStatClear (via : Via) (page : W32) (bits : W32) (t : Nat)
  | pageSnap (via : Via) (page : W32) (t : Nat)
  | snapshotComplete (page : W32) (t : Nat)
  | resultGroupRead (via : Via) (addr : W32) (t : Nat)
  | rcRead (via : Via) (addr : W32) (t : Nat)
  | registerWrite (via : Via) (addr : W32) (data : List W32) (t : Nat)
  | bistDiscard (via : Via) (v : Byte) (t : Nat)
  | updCtrlAbort (via : Via) (v : Byte) (t : Nat)
  -- updates and identity (R457 to R476)
  | updOpen (via : UpdVia) (kind : Byte) (mlen : Nat) (t : Nat)
  | updBlock (via : UpdVia) (off : Nat) (part : Option BlockPart) (data : List Byte) (crc : W32) (writeOk : Bool) (t : Nat)
  | updVerify (via : UpdVia) (t : Nat)
  | verifyComplete (ops : List EnrolOp) (t : Nat)
  | updAbort (via : UpdVia) (t : Nat)
  | updStatus (via : UpdVia) (t : Nat)
  | updateSessionIdle (t : Nat)
  | attest (via : UpdVia) (nonce : BitVec 256) (t : Nat)
  | attestReady (t : Nat)
  | attRead (via : UpdVia) (off len : Nat) (t : Nat)
  | trialCommit (t : Nat)
  | trialServiceTimeout (t : Nat)
  -- carrier supply and the later rows
  | carrierSupplyShort (t : Nat)
  | carrierSupplyRetry (shortGone : Bool) (t : Nat)
  | laneRailReturn (l : LaneId) (t : Nat)
  | redBlueLinkChange (net : Net) (up : Bool) (t : Nat)
  | canArbitratingWindow (p : CanId) (k : Nat) (t : Nat)
  | canBusError (p : CanId) (kind : CanErr) (heavy : Bool) (t : Nat)
  | benchAccessRequest (link : LinkId) (f : AccessFrame) (t : Nat)
  | benchAccessReply (link : LinkId) (f : AnswerFrame) (t : Nat)
  | mntAccessComplete (sess : Nat) (t : Nat)
  | stimeOkLapse (t : Nat)
  deriving DecidableEq, Repr

end Sys2Proof
end

