-- ==== Sys2Proof/Decode.lean ====
section
/-! DEFINITION. The command that a word spells. No row of the opcode table gives a command bits: a command is an event at the
block's ports, not a word. -/

namespace Sys2Proof

/-- No word spells a command. (DESIGN CHOICE log 1) -/
def decodeTableWord (_nbits _w : Nat) : Option Instr := none

end Sys2Proof
end

