-- ==== Sys2Proof/Machine/Mem.lean ====
section
/-! DEFINITION. The plain helpers: words, bit fields, byte order, sparse memories in canonical form, and lists by
index. -/

namespace Sys2Proof.Machine

/-! ### Words -/

/-- One more, held at all ones: the counters of the register tables saturate. -/
def satInc {w : Nat} (x : BitVec w) : BitVec w :=
  if x = BitVec.allOnes w then x else x + 1

/-- `n` more, held at all ones. -/
def satAdd {w : Nat} (x : BitVec w) (n : Nat) : BitVec w :=
  if x.toNat + n < 2 ^ w then BitVec.ofNat w (x.toNat + n) else BitVec.allOnes w

/-- `n` as a `w`-bit value, held at all ones where it does not fit. -/
def satOf (w n : Nat) : BitVec w :=
  if n < 2 ^ w then BitVec.ofNat w n else BitVec.allOnes w

/-- The larger and the smaller of two values, unsigned. -/
def bvMax {w : Nat} (x y : BitVec w) : BitVec w := if x.toNat < y.toNat then y else x
def bvMin {w : Nat} (x y : BitVec w) : BitVec w := if y.toNat < x.toNat then y else x

/-- A Boolean as 0 or 1. -/
def bitOf (b : Bool) : Nat := if b then 1 else 0

/-- Bit `n` of a word set to `b`. -/
def setBit {w : Nat} (x : BitVec w) (n : Nat) (b : Bool) : BitVec w :=
  if b then x ||| (BitVec.ofNat w 1 <<< n) else x &&& ~~~(BitVec.ofNat w 1 <<< n)

/-- A register word of fields: each field's value at its lowest bit. -/
def fields (fs : List (Nat × Nat)) : W32 :=
  fs.foldl (fun w f => w ||| (BitVec.ofNat 32 f.2 <<< f.1)) 0

/-- An integer as a two's complement field of `w` bits, held at the ends of its range. -/
def satInt (w : Nat) (x : Int) : BitVec w :=
  if x ≥ 2 ^ (w - 1) then BitVec.ofNat w (2 ^ (w - 1) - 1)
  else if x < -(2 ^ (w - 1) : Int) then BitVec.ofNat w (2 ^ (w - 1))
  else BitVec.ofInt w x

/-- `x` is newer than `y`, modulo 2³² (R320). -/
def newer (x y : W32) : Bool :=
  let d := (x - y).toNat
  decide (1 ≤ d) && decide (d < 2 ^ 31)

/-- The bytes of a value of `n` bytes, most significant first. -/
def beBytes (n v : Nat) : List Byte :=
  (List.range n).map (fun i => BitVec.ofNat 8 (v >>> (8 * (n - 1 - i))))

/-- The value of bytes, most significant first. -/
def ofBytes (bs : List Byte) : Nat := bs.foldl (fun a b => a * 256 + b.toNat) 0

def bytes16 (v : W16) : List Byte := beBytes 2 v.toNat
def bytes32 (v : W32) : List Byte := beBytes 4 v.toNat
def bytes64 (v : W64) : List Byte := beBytes 8 v.toNat

/-! ### CRCs (R58, R132, R255, R331) -/

/-- The parameters of a CRC. -/
structure CrcParams where
  width  : Nat
  poly   : Nat
  init   : Nat
  refIn  : Bool
  refOut : Bool
  xorOut : Nat
  deriving DecidableEq, Repr

/-- One bit into a running value held most significant bit first. -/
def crcBit (p : CrcParams) (run : Nat) (b : Bool) : Nat :=
  let top := run.testBit (p.width - 1)
  let sh := (run * 2) % 2 ^ p.width
  if top != b then sh ^^^ p.poly else sh

/-- One byte: its bits most significant first, or least significant first where input is reflected (R333). -/
def crcByte (p : CrcParams) (run : Nat) (b : Byte) : Nat :=
  let order := if p.refIn then [0, 1, 2, 3, 4, 5, 6, 7] else [7, 6, 5, 4, 3, 2, 1, 0]
  order.foldl (fun r i => crcBit p r (b.toNat.testBit i)) run

def crcFeed (p : CrcParams) (run : Nat) (bs : List Byte) : Nat := bs.foldl (crcByte p) run

/-- The bits of a value in reverse order over a width (R333). -/
def reflect (w v : Nat) : Nat :=
  (List.range w).foldl (fun a i => if v.testBit i then a ||| 2 ^ (w - 1 - i) else a) 0

/-- The result of a running value (R334). -/
def crcOut (p : CrcParams) (run : Nat) : Nat :=
  (if p.refOut then reflect p.width run else run) ^^^ p.xorOut

def crcOf (p : CrcParams) (bs : List Byte) : Nat := crcOut p (crcFeed p p.init bs)

/-- Codes 1 to 4 of R331; code 5 comes from a profile. -/
def crcCode1 : CrcParams := ⟨64, 0x42F0E1EBA9EA3693, 0xFFFFFFFFFFFFFFFF, false, false, 0xFFFFFFFFFFFFFFFF⟩
def crcCode2 : CrcParams := ⟨32, 0x04C11DB7, 0xFFFFFFFF, true, true, 0xFFFFFFFF⟩
def crcCode3 : CrcParams := ⟨32, 0x1EDC6F41, 0xFFFFFFFF, true, true, 0xFFFFFFFF⟩
def crcCode4 : CrcParams := ⟨16, 0x1021, 0xFFFF, false, false, 0⟩

def crc16 (bs : List Byte) : W16 := BitVec.ofNat 16 (crcOf crcCode4 bs)
def crc32 (bs : List Byte) : W32 := BitVec.ofNat 32 (crcOf crcCode2 bs)
/-- The safety code (R331, R337) over 64-bit words. -/
def safetyCode (ws : List W64) : W64 := BitVec.ofNat 64 (crcOf crcCode1 (ws.flatMap bytes64))

/-! ### Sparse memories -/

/-- What a memory reads at a word index; an unlisted index reads as the default `d`. (DESIGN CHOICE log 65) -/
def memRead {w : Nat} (d : BitVec w) : Mem w → Nat → BitVec w
  | [], _ => d
  | (b, x) :: r, a => if b = a then x else memRead d r a

/-- A word listed at its place. -/
def memPut {w : Nat} (a : Nat) (v : BitVec w) : Mem w → Mem w
  | [] => [(a, v)]
  | (b, x) :: r => if b < a then (b, x) :: memPut a v r else if b = a then (a, v) :: r else (a, v) :: (b, x) :: r

/-- A word written, the canonical form kept: the default is not listed. -/
def memWrite {w : Nat} (d : BitVec w) (a : Nat) (v : BitVec w) (m : Mem w) : Mem w :=
  if v = d then m.filter (fun p => p.1 != a) else memPut a v m

/-- The canonical form: every address at least `lo`, strictly rising, no entry equal to the default. -/
def memWfFrom {w : Nat} (d : BitVec w) : Nat → Mem w → Bool
  | _, [] => true
  | lo, (a, x) :: r => decide (lo ≤ a) && decide (x ≠ d) && memWfFrom d (a + 1) r

def memWf {w : Nat} (d : BitVec w) (m : Mem w) : Bool := memWfFrom d 0 m

/-- Several words written in order. -/
def memWrites {w : Nat} (d : BitVec w) (ws : List (Nat × BitVec w)) (m : Mem w) : Mem w :=
  ws.foldl (fun m p => memWrite d p.1 p.2 m) m

/-- The indexes a memory lists. -/
def memKeys {w : Nat} (m : Mem w) : List Nat := m.map Prod.fst

/-- A memory made word by word, over given indexes. -/
def memBuild {w : Nat} (d : BitVec w) (keys : List Nat) (f : Nat → BitVec w) : Mem w :=
  memWrites d (keys.map (fun k => (k, f k))) []

/-- Bit `n` of a memory of 32-bit words, bit 0 of word 0 first (R85). -/
def memBit (d : W32) (m : Mem 32) (n : Nat) : Bool := (memRead d m (n / 32)).getLsbD (n % 32)

def memSetBit (d : W32) (m : Mem 32) (n : Nat) (b : Bool) : Mem 32 :=
  memWrite d (n / 32) (setBit (memRead d m (n / 32)) (n % 32) b) m

/-- The memory of 32-bit words whose bits listed are 1. -/
def memOfBits (ns : List Nat) : Mem 32 := ns.foldl (fun m n => memSetBit 0 m n true) []

/-- The bit numbers that are 1, of a memory whose default is 0. -/
def memOnes (m : Mem 32) : List Nat :=
  m.flatMap (fun p => ((List.range 32).filter (fun i => p.2.getLsbD i)).map (fun i => 32 * p.1 + i))

/-! ### Lists by index -/

/-- Changes the entry at an index; nothing happens beyond the end. (DESIGN CHOICE log 73) -/
def modAt {α : Type} (f : α → α) : Nat → List α → List α
  | _, [] => []
  | 0, x :: xs => f x :: xs
  | n + 1, x :: xs => x :: modAt f n xs

/-- Association lists: what is listed first for a key, and a key's entry replaced. -/
def assocGet {α : Type} (k : Nat) (xs : List (Nat × α)) : Option α :=
  (xs.find? (fun p => p.1 == k)).map Prod.snd

def assocSet {α : Type} (k : Nat) (v : α) (xs : List (Nat × α)) : List (Nat × α) :=
  (k, v) :: xs.filter (fun p => p.1 != k)

end Sys2Proof.Machine
end

