-- ==== Sys2Proof/Machine/Crypto.lean ====
section
/-! DEFINITION. The functions of the standards that the spec names: AES-128 (FIPS 197) with its CMAC (NIST SP 800-38B) and its key
wrap (NIST SP 800-38F), and SHA-384 (FIPS 180-4) with its HMAC (FIPS 198-1). -/

namespace Sys2Proof.Machine

/-! ### AES-128 -/

/-- A byte of GF(2⁸) doubled, and a product in GF(2⁸). -/
def gfDouble (b : Byte) : Byte := (b <<< 1) ^^^ (if b.msb then 0x1B else 0)
def gfMul (a b : Byte) : Byte :=
  ((List.range 8).foldl (fun (q : Byte × Byte) i => (if b.getLsbD i then q.1 ^^^ q.2 else q.1, gfDouble q.2)) (0, a)).1

/-- The inverse of a byte, which is its 254th power; 0 has 0. -/
def gfInv (a : Byte) : Byte :=
  ((List.range 7).foldl (fun (q : Byte × Byte) _ => let s := gfMul q.2 q.2; (gfMul q.1 s, s)) (1, a)).1

/-- The substitution of a byte, and its inverse. -/
def subByte (b : Byte) : Byte :=
  let i := gfInv b
  [1, 2, 3, 4].foldl (fun x k => x ^^^ i.rotateLeft k) (i ^^^ 0x63)
def unsubByte (b : Byte) : Byte := gfInv (b.rotateLeft 1 ^^^ b.rotateLeft 3 ^^^ b.rotateLeft 6 ^^^ 0x05)

/-- Two byte strings of one length added. -/
def xorBytes (x y : List Byte) : List Byte := List.zipWith (· ^^^ ·) x y

/-- Rows rotated: byte `r + 4c` of a block stands in row `r` of column `c`. `step` is 1, or 3 for the inverse. -/
def shiftRows (step : Nat) (x : List Byte) : List Byte :=
  (List.range 16).map (fun n => x.getD ((n + 4 * step * (n % 4)) % 16) 0)

/-- Every column multiplied by the circulant matrix with this first row. -/
def mixColumns (row : List Byte) (x : List Byte) : List Byte :=
  (List.range 16).map (fun n => (List.range 4).foldl (fun s k =>
    s ^^^ gfMul (row.getD ((k + 4 - n % 4) % 4) 0) (x.getD (n / 4 * 4 + k) 0)) 0)

/-- The next round key after one, with the round constant. -/
def nextRoundKey (rcon : Byte) (k : List Byte) : List Byte :=
  let g := [13, 14, 15, 12].map (fun i => subByte (k.getD i 0))
  let w0 := xorBytes (xorBytes (k.take 4) g) [rcon, 0, 0, 0]
  let w1 := xorBytes w0 ((k.drop 4).take 4)
  let w2 := xorBytes w1 ((k.drop 8).take 4)
  w0 ++ w1 ++ w2 ++ xorBytes w2 (k.drop 12)

/-- The eleven round keys, the last one first. -/
def roundKeys (key : BitVec 128) : List (List Byte) :=
  ((List.range 10).foldl (fun (q : List (List Byte) × Byte) _ =>
    (nextRoundKey q.2 (q.1.headD []) :: q.1, gfDouble q.2)) ([beBytes 16 key.toNat], 0x01)).1

/-- A block of 16 bytes under the round keys, the last one first, deciphered. -/
def decipher (keys : List (List Byte)) (b : List Byte) : List Byte :=
  let x := unshift (xorBytes b (keys.headD []))
  ((keys.drop 1).zipIdx).foldl (fun x q =>
    let y := xorBytes x q.1
    if q.2 = 9 then y else unshift (mixColumns [14, 11, 13, 9] y)) x
where
  unshift (x : List Byte) : List Byte := (shiftRows 3 x).map unsubByte

/-- A block of 16 bytes under the round keys, the last one first, enciphered. -/
def encipher (keys : List (List Byte)) (b : List Byte) : List Byte :=
  ((keys.reverse.drop 1).zipIdx).foldl (fun x q =>
    let y := shiftRows 1 (x.map subByte)
    xorBytes (if q.2 = 9 then y else mixColumns [2, 3, 1, 1] y) q.1) (xorBytes b (keys.getLastD []))

/-- AES-128 of a block as a number, and its inverse. (PRESUMED log 115) -/
def aes (key b : BitVec 128) : BitVec 128 := BitVec.ofNat 128 (ofBytes (encipher (roundKeys key) (beBytes 16 b.toNat)))
/-- AES-128, SHA-384, HMAC-SHA-384, AES-CMAC and AES key unwrap are those of FIPS 197, FIPS 180-4, FIPS 198-1, SP 800-38B and SP 800-38F. (PRESUMED log 115) -/
def aesInv (key b : BitVec 128) : BitVec 128 := BitVec.ofNat 128 (ofBytes (decipher (roundKeys key) (beBytes 16 b.toNat)))

/-- A subkey of the CMAC: the double of a block in GF(2¹²⁸). -/
def cmacDouble (b : BitVec 128) : BitVec 128 := (b <<< 1) ^^^ (if b.msb then 0x87 else 0)

/-- The AES-128-CMAC of bytes (NIST SP 800-38B). (PRESUMED log 115) -/
def cmac (key : BitVec 128) (msg : List Byte) : BitVec 128 :=
  let k1 := cmacDouble (aes key 0)
  let n := max 1 ((msg.length + 15) / 16)
  let last := msg.drop (16 * (n - 1))
  let tail : BitVec 128 :=
    if last.length = 16 then BitVec.ofNat 128 (ofBytes last) ^^^ k1
    else BitVec.ofNat 128 (ofBytes ((last ++ 0x80 :: List.replicate 15 0).take 16)) ^^^ cmacDouble k1
  let c := (List.range (n - 1)).foldl (fun c i =>
    aes key (c ^^^ BitVec.ofNat 128 (ofBytes ((msg.drop (16 * i)).take 16)))) 0
  aes key (c ^^^ tail)

/-- The AES key unwrap of a 128-bit key (NIST SP 800-38F): the key, or none where the wrap fails its integrity check.
(PRESUMED log 115) -/
def keyUnwrap (kek : BitVec 128) (w : BitVec 192) : Option (BitVec 128) :=
  let a0 : W64 := (w >>> 128).setWidth 64
  let r : W64 × W64 × W64 := (List.range 12).foldl (fun q i =>
    let b := aesInv kek ((q.1 ^^^ BitVec.ofNat 64 (12 - i)) ++ q.2.2)
    ((b >>> 64).setWidth 64, b.setWidth 64, q.2.1)) (a0, ((w >>> 64).setWidth 64, w.setWidth 64))
  if r.1 = 0xA6A6A6A6A6A6A6A6 then some (r.2.1 ++ r.2.2) else none

/-! ### SHA-384 -/

/-- The largest number whose `k`th power is at most `n`, of at most `bits` bits. -/
def rootOf (k bits n : Nat) : Nat :=
  (List.range bits).foldl (fun r i => if (r + 2 ^ (bits - 1 - i)) ^ k ≤ n then r + 2 ^ (bits - 1 - i) else r) 0

/-- The first `n` primes, in ascending order. -/
def primes (n bound : Nat) : List Nat :=
  ((List.range bound).foldl (fun ps x => if 2 ≤ x ∧ ps.all (fun p => decide (x % p ≠ 0)) then ps ++ [x] else ps) []).take n

/-- The 80 round constants, from the cube roots of the first 80 primes, and the initial hash value, from the square roots of the 9th to
the 16th. -/
def shaRounds : List W64 := (primes 80 410).map (fun p => BitVec.ofNat 64 (rootOf 3 67 (p * 2 ^ 192)))
def shaInit : List W64 := ((primes 16 54).drop 8).map (fun p => BitVec.ofNat 64 (rootOf 2 67 (p * 2 ^ 128)))

/-- The sums of the schedule and of the rounds: rotations by two amounts, and a shift or a third rotation. -/
def shaSigma (a b c : Nat) (x : W64) : W64 := x.rotateRight a ^^^ x.rotateRight b ^^^ (x >>> c)
def shaSum (a b c : Nat) (x : W64) : W64 := x.rotateRight a ^^^ x.rotateRight b ^^^ x.rotateRight c

/-- The 80 words of a block's schedule, from its 16 words. -/
def shaSchedule (w : List W64) : List W64 :=
  ((List.range 64).foldl (fun (r : List W64) _ =>
    (shaSigma 19 61 6 (r.getD 1 0) + r.getD 6 0 + shaSigma 1 8 7 (r.getD 14 0) + r.getD 15 0) :: r) w.reverse).reverse

/-- One round on the eight working variables. -/
def shaRound (v : List W64) (q : W64 × W64) : List W64 :=
  match v with
  | [a, b, c, d, e, f, g, h] =>
    let t := h + shaSum 14 18 41 e + ((e &&& f) ^^^ (~~~e &&& g)) + q.1 + q.2
    [t + shaSum 28 34 39 a + ((a &&& b) ^^^ (a &&& c) ^^^ (b &&& c)), a, b, c, d + t, e, f, g]
  | _ => v

/-- A message of whole blocks of 128 bytes: the message, a bit 1, zeros, and its length in bits. -/
def shaPad (msg : List Byte) : List Byte :=
  msg ++ 0x80 :: List.replicate ((239 - msg.length % 128) % 128) 0 ++ beBytes 16 (8 * msg.length)

/-- SHA-384 over bytes. (PRESUMED log 115) -/
def sha384 (msg : List Byte) : BitVec 384 :=
  let p := shaPad msg
  let h := (List.range (p.length / 128)).foldl (fun h i =>
    let b := (p.drop (128 * i)).take 128
    let w := (List.range 16).map (fun k => BitVec.ofNat 64 (ofBytes ((b.drop (8 * k)).take 8)))
    List.zipWith (· + ·) h (((shaSchedule w).zip shaRounds).foldl shaRound h)) shaInit
  BitVec.ofNat 384 (ofBytes ((h.take 6).flatMap bytes64))

/-- HMAC-SHA-384 (FIPS 198-1), with a block of 128 bytes. (PRESUMED log 115) -/
def hmac384 (key msg : List Byte) : BitVec 384 :=
  let k := if 128 < key.length then beBytes 48 (sha384 key).toNat else key
  let pad (b : Byte) : List Byte := (List.range 128).map (fun i => k.getD i 0 ^^^ b)
  sha384 (pad 0x5C ++ beBytes 48 (sha384 (pad 0x36 ++ msg)).toNat)

end Sys2Proof.Machine
end

