-- ==== Sys2Proof/Machine/LaneState.lean ====
section
/-! DEFINITION. The state of one lane (R12 to R14, R23, R33, R108 to R163, R329 to R341, R427 to R434): Copier,
stores, exchange buffer, agreement, coupler frames, communication records, check-value unit, drive generator and
event queue. The default of a field is its value at reset. -/

namespace Sys2Proof.Machine

/-- One value per lane. -/
structure Tri (α : Type) where
  a : α
  b : α
  c : α
  deriving DecidableEq, Repr

/-- A result group (R51, R52): how many results it has completed, of which `TAG` is made, and whether no
computation is running. -/
structure ResultGroup where
  serial : Nat := 0
  ready  : Bool := false
  deriving DecidableEq, Repr

/-! ### Timebases (R23, R286) -/

/-- A timebase that follows the references of a ring: an interface's ring time, a Tool rest's, or a lane's cycle timer. `live` says that
it follows a ring, `count` is the basic cycle that runs, counted from matrix cycle 0, and `start` its local start in ns. `rate`,
the correction `corr` of this basic cycle and `next` of the one after are in 0.1 ppm, `offset` is e of the last reference in ns, and
`missRun` and `errRun` count references missed, and references with |e| above 1.0 µs, in a row (R288). `rate0` and `err0` are what
`rate` and `errRun` were before this basic cycle's reference. -/
structure TimeBase where
  live    : Bool := false
  count   : Nat := 0
  start   : Nat := 0
  rate    : Int := 0
  rate0   : Int := 0
  corr    : Int := 0
  next    : Int := 0
  offset  : Int := 0
  missRun : Nat := 0
  errRun  : Nat := 0
  err0    : Nat := 0
  deriving DecidableEq, Repr

/-- A point in ring time: the basic cycle counted from matrix cycle 0, and the offset in it in ns. -/
structure RingPoint where
  basic : Nat
  off   : Nat
  deriving DecidableEq, Repr

/-- The basic cycles that a matrix cycle count of 32 bits numbers. -/
def basicMod : Nat := 2 ^ 37

/-- The local length in ns of a basic cycle under a correction in 0.1 ppm. -/
def basicLen (corr : Int) : Nat := ((1000000 : Int) + corr / 10).toNat

def TimeBase.len (x : TimeBase) : Nat := basicLen x.corr
def TimeBase.nextStart (x : TimeBase) : Nat := x.start + x.len

/-- The basic cycle after the present one, which runs under the correction that its predecessor's reference gave; without a reference
of its own the one after it runs on the rate alone. -/
def TimeBase.advance (x : TimeBase) : TimeBase :=
  { x with
    count := (x.count + 1) % basicMod, start := x.nextStart, corr := x.next, next := x.rate, rate0 := x.rate, err0 := x.errRun }

/-- A local instant in ring time. An instant before the present basic cycle lies in the one before it, and what follows the next
one runs on the rate alone. -/
def TimeBase.at0 (x : TimeBase) (t : Nat) : RingPoint :=
  let free := basicLen x.rate
  let y := x.advance
  if t < x.start then { basic := (x.count + basicMod - 1) % basicMod, off := free - (x.start - t) }
  else if t < x.nextStart then { basic := x.count, off := t - x.start }
  else if t < y.nextStart then { basic := y.count, off := t - y.start }
  else { basic := (y.count + 1 + (t - y.nextStart) / free) % basicMod, off := (t - y.nextStart) % free }

/-- The timebase at a basic cycle ahead of it, free running past the next one. -/
def TimeBase.onTo (basic : Nat) (x : TimeBase) : TimeBase :=
  match (basic + basicMod - x.count) % basicMod with
  | 0 => x
  | 1 => x.advance
  | n + 2 =>
    let y := x.advance
    { y.advance with count := basic, start := y.nextStart + n * basicLen x.rate, corr := x.rate }

def clampInt (lim x : Int) : Int := if x < -lim then -lim else if lim < x then lim else x

/-- The correction of R286, in 0.1 ppm from an offset in ns. (DEDUCED log 39) -/
def correctRate (lim rate e : Int) : Int := clampInt lim (rate - 10 * e / 16)
def correctCorr (lim rate e : Int) : Int := clampInt lim (rate - 10 * e / 4)

/-- |e| is above 1.0 µs. -/
def farOff (e : Int) : Bool := decide (e < -1000) || decide (1000 < e)

/-- An accepted reference of the basic cycle that runs: rate and the next basic cycle's correction from its offset.
(DEDUCED log 39) -/
def TimeBase.correct (lim : Int) (refStart : Nat) (x : TimeBase) : TimeBase :=
  let e : Int := (x.start : Int) - (refStart : Int)
  let rate := correctRate lim x.rate0 e
  { x with
    rate := rate, next := correctCorr lim rate e, offset := e, missRun := 0
    errRun := if farOff e then x.err0 + 1 else 0 }

/-- Ring time from the first reference, at the rate that is kept. -/
def TimeBase.first (basic refStart : Nat) (x : TimeBase) : TimeBase :=
  { live := true, count := basic, start := refStart, rate := x.rate, rate0 := x.rate, corr := x.rate, next := x.rate }

/-- A basic cycle of which no reference was accepted. -/
def TimeBase.miss (x : TimeBase) : TimeBase := { x.advance with missRun := x.missRun + 1 }

/-- Three references missed, or three in a row too far off (R288). -/
def TimeBase.lost (x : TimeBase) : Bool := decide (3 ≤ x.missRun) || decide (3 ≤ x.errRun)

/-- Ring time cleared; the rate is kept, and the offset of the last accepted reference is still shown (R306). -/
def TimeBase.clear (x : TimeBase) : TimeBase := { rate := x.rate, offset := x.offset }

/-- Two instants within 2 µs. -/
def nearNs (a b : Nat) : Bool := decide (a ≤ b + 2000) && decide (b ≤ a + 2000)

/-- A timebase follows a reference that the interface accepted (R286); one more than two matrix cycles away starts afresh.
(DEDUCED log 39, DESIGN CHOICE log 103) -/
def TimeBase.follow (lim : Int) (basic refStart : Nat) (x : TimeBase) : TimeBase :=
  if x.live ∧ (basic + basicMod - x.count) % basicMod ≤ 64 then (x.onTo basic).correct lim refStart else x.first basic refStart

/-- The value words of the run statistics (R131). -/
structure RunStats where
  cycles   : W32 := 0
  closeMin : BitVec 23 := 0
  closeMax : BitVec 23 := 0
  awakeMax : BitVec 23 := 0
  deriving DecidableEq, Repr

/-- The Copier page and the engine behind it (R108 to R131). `live` counts since the last completed snapshot,
`snap` holds its values. `acc` is stored in the lane's grain (R100); `next` is the row to be fetched next and
`ended` says that the end marker was passed. -/
structure Copier where
  cycleMs      : BitVec 7 := 0
  dlPct        : BitVec 7 := 0
  grain        : BitVec 2 := 3
  rows         : BitVec 20 := 0
  timers       : BitVec 15 := 0
  dl           : BitVec 23 := 0
  predClose    : BitVec 23 := 0
  lastOk       : Bool := false
  rowPtr       : BitVec 20 := 0
  cycleNo      : W32 := 0
  lastClose    : BitVec 23 := 0
  lastHo       : BitVec 23 := 0
  lastSleep    : BitVec 23 := 0
  faultCause   : Byte := 0
  faultRow     : BitVec 20 := 0
  faults       : W16 := 0
  holdSrc      : BitVec 5 := 0
  holdOverride : W16 := 0
  rate         : W16 := 0
  group        : ResultGroup := {}
  snap         : RunStats := {}
  live         : RunStats := {}
  snapFrom     : Option Nat := none
  active       : Bool := false
  acc          : Bool := false
  next         : Nat := 0
  ended        : Bool := false
  deriving DecidableEq, Repr

/-- The sizes of the lane memories of R14: 64-bit table-store words beside their 8 check bits, 32-bit words in each half of the state
store, timer cells, 32-bit words of the exchange buffer, 64-bit words of the message buffer, and bytes of the core RAM and of the
communication RAM. -/
def tableWords : Nat := 1048576
def halfWords : Nat := 8192
def timerCells : Nat := 16384
def exchangeWords : Nat := 16384
def bufferWords : Nat := 8192
def coreBytes : Nat := 1048576
def commBytes : Nat := 262144

/-- The lane memories of R14 that hold vital content: the table store with the 8 check bits of each word (R71), the two halves of
the state store with the selectors of R111, and the timer store; `needsInit` says that the next run initialises the vector (R95)
and has `SYS_FIRST` 1 (R87). The header of the loaded image supplies the grain parameters. (DESIGN CHOICE log 93) -/
structure Stores where
  header    : Option ImageHeader := none
  table     : Mem 64 := []
  check     : List (Nat × Byte) := []
  half0     : Mem 32 := []
  half1     : Mem 32 := []
  selDone   : BitVec 8192 := 0
  selWork   : BitVec 8192 := 0
  timers    : Mem 32 := []
  needsInit : Bool := true
  deriving DecidableEq, Repr

/-- The exchange buffer (R132) with what the lane judged of it this cycle (R134, R135). `sampled` is the input
image formed at sampling, `sysBits` the system bits taken with it (bits 0 to 5 of the region, R87). -/
structure Exchange where
  images   : Tri (Option ImageFrame) := ⟨none, none, none⟩
  presence : Tri (Option PresenceFrame) := ⟨none, none, none⟩
  majority : Mem 32 := []
  restrict : Mem 32 := []
  staging  : List TransferCopy := []
  sampled  : Mem 32 := []
  sysBits  : W32 := 0
  ownSent  : Bool := false
  formed   : Bool := false
  mapped   : Bool := false
  sent     : Option ImageFrame := none
  sentPresence : Option PresenceFrame := none
  sentCopy : Option TransferCopy := none
  orBits   : List Nat := []
  deriving DecidableEq, Repr

/-- An entry of the divergence table (R139): input word, lane code (0: undetermined), and the three masks. -/
structure DivEntry where
  word : Nat
  lane : Nat
  m1   : W32
  m2   : W32
  m3   : W32
  deriving DecidableEq, Repr

/-- The value words of the agreement statistics (R163). -/
structure AgrStats where
  minorA   : W32 := 0
  minorB   : W32 := 0
  minorC   : W32 := 0
  twoImg   : W32 := 0
  restrict : W32 := 0
  injOk    : W32 := 0
  deriving DecidableEq, Repr

/-- The agreement page and the lane life cycle (R139 to R163). `held` says the supply supervisor holds the lane
in reset, `inReset` that its 1.0 ms reset runs since `resetAt`, `waiting` that the lane waits for two VOTING
lanes (R150). `attempts` holds the instants of the last RESTART entries that counted, newest first (R160).
`free` says that the present OUT counts no attempt, and `noSlice` that RESTART leaves out the test slice. `failedStart` says that the
lane failed a step of the present BOOT or CONFIG (R104, R401), and `since` is the instant it last left OUT (R16). -/
structure Agreement where
  life     : LaneLife := .out
  sync     : SyncStep := .awaitFrames
  outCause : Byte := 0
  outCycle : W32 := 0
  outAt    : Nat := 0
  held     : Bool := true
  inReset  : Bool := false
  resetAt  : Nat := 0
  waiting  : Bool := false
  limitFrom : Nat := 0
  railBad  : Bool := false
  unusable : Bool := false
  attempts : List Nat := []
  syncAt   : Nat := 0
  locked   : Bool := false
  free     : Bool := false
  noSlice  : Bool := false
  failedStart : Bool := false
  since    : Nat := 0
  rejoinMs : BitVec 11 := 0
  probe    : Bool := false
  intact   : BitVec 3 := 0
  accept   : BitVec 3 := 0
  sysDig   : BitVec 3 := 0
  exclUntil : Tri (Option Nat) := ⟨none, none, none⟩
  skewLo   : W16 := 0
  skewHi   : W16 := 0
  div      : List DivEntry := []
  divPeak  : Byte := 0
  divOver  : W16 := 0
  bigRun   : Tri Nat := ⟨0, 0, 0⟩
  missRun  : Tri Nat := ⟨0, 0, 0⟩
  injCore  : Byte := 0
  injEng   : Byte := 0
  outs     : W16 := 0
  rejoins  : W16 := 0
  group    : ResultGroup := {}
  snap     : AgrStats := {}
  live     : AgrStats := {}
  snapFrom : Option Nat := none
  deriving DecidableEq, Repr

/-- The lane's latest coupler frame of a digital input (R193). -/
structure DiFrame where
  level  : Bool := false
  valid  : Bool := false
  code   : BitVec 4 := 0
  tseq   : BitVec 2 := 0
  toggle : Bool := false
  checkOk : Bool := false
  at0    : Option Nat := none
  seqAt  : Nat := 0
  deriving DecidableEq, Repr

/-- The lane's latest coupler frame of a safety output (R236). -/
structure OutFrame where
  avail   : Bool := false
  code    : BitVec 4 := 0
  armed   : Bool := false
  judged  : Nat := 0
  toggle  : Bool := false
  checkOk : Bool := false
  at0     : Option Nat := none
  judgedAt : Nat := 0
  deriving DecidableEq, Repr

/-- What a lane holds of an analogue channel, the encoder and the field supply monitor (R202, R205, R209). -/
structure AiFrame where
  code  : W16 := 0
  valid : Bool := false
  deriving DecidableEq, Repr

structure EncFrame where
  count : W32 := 0
  speed : BitVec 24 := 0
  valid : Bool := false
  deriving DecidableEq, Repr

/-- A check-value context (R329 to R341): its running value is held twice, the second copy complemented.
`taken` is the `TAG` of the result that the engine last took (R336). -/
structure CvCtx where
  run     : W64 := 0
  runC    : W64 := BitVec.allOnes 64
  running : Bool := false
  group   : ResultGroup := {}
  taken   : Option Nat := none
  result  : W64 := 0
  bytes   : W16 := 0
  faults  : W16 := 0
  done    : W32 := 0
  jumps   : W16 := 0
  repeats : W16 := 0
  lost    : W16 := 0
  faultCycle : Option W32 := none
  alvCycle   : Option W32 := none
  deriving DecidableEq, Repr

/-- The lane memories page and Sander (R427 to R432). -/
structure SanderState where
  corr     : W16 := 0
  uncorr   : W16 := 0
  lastCorr : BitVec 20 := 0
  pos      : BitVec 18 := 0
  passes   : W16 := 0
  passMin  : W16 := 0
  findings : W16 := 0
  lastRegion : BitVec 18 := 0
  lastKind : BitVec 2 := 0
  spares   : BitVec 10 := 0
  passFrom : Nat := 0
  nextDue  : Nat := 0
  found    : Bool := false
  late     : Bool := false
  bringForward : Bool := false
  deriving DecidableEq, Repr

/-- The drive generator (R122, R174): the latched image and the image its windings follow. -/
structure Drive where
  latched  : BitVec 24 := 0
  latchAt  : Nat := 0
  windings : BitVec 24 := 0
  changedAt : Nat := 0
  deriving DecidableEq, Repr

/-- A lane event queue or unit FIFO (R434). `arrived` counts the notices that have come to a lane in the present cycle.
(DEDUCED log 68) -/
structure NoticeQueue where
  items   : List Notice := []
  dropped : Nat := 0
  arrived : Nat := 0
  deriving DecidableEq, Repr

/-- A lane. `strap` is the grain that its substrate straps give it (R12), `sleepEnd` when its last sleep entry ends (R116), `tb` the ring time by which it corrects its cycle timer
(R23). `cvLost` lists the contexts that a
fault has cost the check of the next frame (R340). `hoImage` is the drive image formed for the present hand-over, `closeAt` the instant of the last close,
`rampWas` the ramp command of the commit before the last (R249), `pfAux` the runs of samples beside the protection blocks,
`kek` is the key-encryption key of its one-time store and `keys` the region of its core RAM with the unwrapped keys of each JXT
connection's slots (R326, R460), and `aligned` that its T0 stands on a ring
boundary (R403). `fwVer` and `fwSlot` are the version and the slot of the firmware it runs (R470).
(DESIGN CHOICE log 7) -/
structure Lane where
  strap   : Grain := .true
  t0      : Nat := 0
  phase   : Phase := .asleep
  awake   : Bool := false
  sleepEnd : Nat := 0
  sampled : Bool := false
  aligned : Bool := false
  tb      : TimeBase := {}
  cop     : Copier := {}
  mem     : Stores := {}
  xch     : Exchange := {}
  agr     : Agreement := {}
  di      : List DiFrame := []
  capHi   : List Bool := []
  capLo   : List Bool := []
  outs    : List OutFrame := []
  ai      : List AiFrame := []
  enc     : EncFrame := {}
  fsmHeld : Bool := true
  fsmAt   : Option Nat := none
  comm    : CommState := {}
  cv      : List CvCtx := []
  cvLost  : List Nat := []
  snd     : SanderState := {}
  drive   : Drive := {}
  msgBuf  : List VoteWord := []
  hoImage : BitVec 24 := 0
  closeAt : Nat := 0
  rampWas : Bool := false
  pfAux   : List PfAux := []
  kek     : BitVec 128 := 0
  keys    : List (List (Option (BitVec 128))) := []
  queue   : NoticeQueue := {}
  fwVer   : W16 := 0
  fwSlot  : SlotId := .a
  deriving DecidableEq, Repr

end Sys2Proof.Machine
end

