-- ==== Sys2Proof/Machine/NetState.lean ====
section
/-! DEFINITION. The state of the communications units: rings (R251 to R306), JXT (R307 to R328), CAN FD ports
(R342 to R367) and the pair link (R368 to R389). -/

namespace Sys2Proof.Machine

/-- What a receive connection settled (R273): the frame, the basic cycle of its send instant counted from matrix
cycle 0, that instant on the module's own time, when it settled, the how manieth settling it is, and the entry that settled. -/
structure Settled where
  slot    : Nat
  typ     : BitVec 4
  ver     : BitVec 4
  src     : BitVec 12
  msg     : BitVec 12
  len     : W16
  payload : List W64
  basic   : Nat
  sentAt  : Nat
  at0     : Nat
  serial  : Nat
  deriving DecidableEq, Repr

/-- A copy accepted for a receive entry (R272, R273): its send instant and its arrival. -/
structure RingCopy where
  frame  : RingFrame
  sentAt : Nat
  at0    : Nat
  deriving DecidableEq, Repr

/-- A schedule entry's page values (R279) and the copies accepted in its present window (R272, R273). `windowAt` is the basic cycle in
which the entry last settled, or its window was last used or left silent. -/
structure EntryRec where
  cause   : BitVec 4 := 0
  ok      : W32 := 0
  rej     : W16 := 0
  miss    : W16 := 0
  dup     : W16 := 0
  pairDis : W16 := 0
  tmo     : W16 := 0
  bad     : Bool := false
  got0    : Option RingCopy := none
  got1    : Option RingCopy := none
  windowAt : Option Nat := none
  deriving DecidableEq, Repr

/-- A queued sporadic message (R267). -/
structure ArbItem where
  msg   : Nat
  prio  : BitVec 4
  cycle : W32
  words : List W64
  deriving DecidableEq, Repr

/-- The last version of a sporadic message that was queued, and its logic cycle (R267). -/
structure SporadicRec where
  msg    : Nat
  body   : List W64
  cycle  : W32
  deriving DecidableEq, Repr

/-- A ring port (R277, R281, R299). `checkFrom` is when the present link check began and `measures` holds the round trip of each request
that was echoed; `lost` says that the link was declared lost and its loss has not been closed. `errors` holds the instants of the
symbol errors and cuts at this receiver in the last two basic cycles, `busyUntil` is when the line behind this transmitter is idle again
and `sentAt` when a ring frame last went out; `lastTx` is the last frame that it sent, `checks` the link-check frames that it sends, each
with its instant, the ones of an exchange ahead of time. -/
structure RingPort where
  up       : Bool := false
  fx       : Bool := false
  loop     : Bool := false
  lost     : Bool := false
  unusable : Bool := false
  linkDly  : W16 := 0
  resMax   : W16 := 0
  fwd      : W32 := 0
  inserted : W32 := 0
  abortHere : W16 := 0
  abortUp  : W16 := 0
  hopDrop  : W16 := 0
  stripBad : W16 := 0
  lastCause : BitVec 4 := 0
  lastSrc  : BitVec 12 := 0
  ibufPeak : BitVec 11 := 0
  service  : Bool := false
  checkFrom : Option Nat := none
  measures : List (Nat × Nat) := []
  farErrors : W32 := 0
  errors   : List Nat := []
  busyUntil : Nat := 0
  sentAt   : Option Nat := none
  driving  : Bool := false
  lastTx   : Option RingFrame := none
  checks   : List (Nat × RingFrame) := []
  deriving DecidableEq, Repr

/-- A Tool rest (R269 to R271, R278, R296, R297). `tb` is the time that it keeps on its own crystal, `sending` is the window and the end of the frame being inserted, `recent`
the instants of the cuts of the last 2 matrix cycles, `joined` that a join or a cold start it passed has come back, `coldAt`
when it last passed a coldstart frame unsynchronised, `rank` that of the last reference its receiver accepted, `fifo` its notices
(R434). -/
structure ToolRest where
  state   : RestState := .closed
  tb      : TimeBase := {}
  opens   : W32 := 0
  cuts    : W16 := 0
  refused : W16 := 0
  fwdCut  : W16 := 0
  lastSlot : BitVec 11 := 0
  schedCrc : W32 := 0
  openSlot : Option Nat := none
  sending : Option (Nat × Nat) := none
  recent  : List Nat := []
  faultAt : Nat := 0
  joined  : Bool := false
  coldAt  : Option Nat := none
  rank    : Nat := 0
  fifo    : NoticeQueue := {}
  deriving DecidableEq, Repr

/-- A frame in the insertion buffer (R261), with the port and the instant at which it arrived and the cause for which it is cut. -/
structure HeldFrame where
  frame : RingFrame
  dir   : Dir
  at0   : Nat
  cut   : Option Nat
  deriving DecidableEq, Repr

/-- What tells a frame's second pass from its first (R302). -/
structure FrameKey where
  typ  : BitVec 4
  src  : BitVec 12
  copy : BitVec 1
  slot : W16
  seq  : W32
  deriving DecidableEq, Repr

/-- A ring interface (R251 to R306). `tb` is its ring time. `validRun` counts the valid basic cycles of the present matrix cycle from index 0 (R294), `valid0` those before the present one; `joinOk` says that a join
or coldstart frame came back intact, in basic cycle `joinB`. `lastValid` is when the last reference, coldstart or join frame
was accepted or the listen began, `lastRef` when the last reference or coldstart frame of another module was, `lastStart` when a start delimiter last reached the west port, `arriveEnd` when the frame
arriving now ends. `startedAt` is when the present cold start or backoff began, `csOut` when the coldstart frame that has not
come back was sent, `refOut` the basic cycle of the last own reference, `stimeRef` the basic cycle, `STIME` and `STIME_OK` of the last accepted one, `mustJoin` that the interface left the ring and comes back only by joining (R290, R297). `reported` is
the basic cycle of the last report (R282), `loopSeen` holds the frames taken with the instant they arrived, `arbUsed` the line time used
in the arbitrating window `arbIn`, given by entry and basic cycle. (DESIGN CHOICE log 7) -/
structure RingIfc where
  ifc     : RingIf := .down
  role    : BitVec 2 := 0
  looped  : Bool := false
  turn    : BitVec 2 := 0
  masterNode : BitVec 12 := 0
  masterCopy : BitVec 1 := 0
  masterRank : BitVec 3 := 0
  missed  : W16 := 0
  syncLoss : W16 := 0
  successions : W16 := 0
  coldstarts : W16 := 0
  collisions : W16 := 0
  joinFail : W16 := 0
  leaves  : W16 := 0
  heals   : W16 := 0
  loopDup : W16 := 0
  late    : W16 := 0
  lastLoss : W32 := 0
  tb      : TimeBase := {}
  validRun : Nat := 0
  valid0  : Nat := 0
  joinRun : Nat := 0
  joinOk  : Bool := false
  joinB   : Nat := 0
  collRun : Nat := 0
  lastValid : Nat := 0
  lastRef : Nat := 0
  lastStart : Nat := 0
  held    : Option W32 := none
  heldAt  : Nat := 0
  startedAt : Nat := 0
  csOut   : Option Nat := none
  refOut  : Option Nat := none
  stimeRef : Option (Nat × Nat × Bool) := none
  mustJoin : Bool := false
  ownLooped : Bool := false
  closeAt : Option W32 := none
  arbDrop : W16 := 0
  rsMatrix : W32 := 0
  queue   : List ArbItem := []
  sporadic : List SporadicRec := []
  reported : Option Nat := none
  loopSeen : List (FrameKey × Nat) := []
  east    : RingPort := {}
  west    : RingPort := {}
  restE   : ToolRest := {}
  restW   : ToolRest := {}
  entries : List EntryRec := []
  settled : List (Nat × Settled) := []
  ibuf    : List HeldFrame := []
  arriveEnd : Nat := 0
  arbUsed : Nat := 0
  arbIn   : Option (Nat × Nat) := none
  sentFrames : List RingFrame := []
  deriving DecidableEq, Repr

/-- Ring time as the interface shows it (R262): synchronised or not, matrix cycle count and basic cycle index. -/
def RingIfc.sync (r : RingIfc) : Bool := r.tb.live
def RingIfc.matrix (r : RingIfc) : W32 := BitVec.ofNat 32 (r.tb.count / 32)
def RingIfc.bc (r : RingIfc) : Nat := r.tb.count % 32

/-- A copy in a JXT group (R318). -/
structure JxtCopy where
  net   : Net
  copy  : BitVec 1
  words : List W64
  at0   : Nat
  deriving DecidableEq, Repr

structure JxtGroup where
  seq    : W32
  openAt : Nat
  copies : List JxtCopy
  deriving DecidableEq, Repr

/-- A JXT connection at the port section (R312, R317 to R319). `sent` lists the datagrams of its last message in the
order they went out, each with its network and destination. -/
structure JxtConn where
  groups  : List JxtGroup := []
  settled : List W32 := []
  newest  : Option (List W64 × Nat) := none
  previous : Option (List W64 × Nat) := none
  serial  : Nat := 0
  valid   : Bool := false
  sent    : List (Net × W32 × JxtDatagram) := []
  deriving DecidableEq, Repr

/-- The JXT page (R328). `lastAnswer` is what a port last answered, `arp` the hardware addresses learned, `asked` the addresses that
an open ARP request asks for (R307). -/
structure Jxt where
  redUp   : Bool := false
  redUnus : Bool := false
  blueUnus : Bool := false
  blueUp  : Bool := false
  redRx   : W32 := 0
  blueRx  : W32 := 0
  redBad  : W16 := 0
  blueBad : W16 := 0
  dup     : W32 := 0
  netDis  : W16 := 0
  pairDis : W16 := 0
  late    : W16 := 0
  tmo     : W16 := 0
  rej     : W16 := 0
  macFail : W16 := 0
  restarts : W16 := 0
  skewMax : W16 := 0
  lastConn : W16 := 0
  lastCause : BitVec 4 := 0
  lastLocal : BitVec 6 := 0
  lastCycle : W32 := 0
  agePeak : W16 := 0
  disIn   : Option W32 := none
  conns   : List JxtConn := []
  lastAnswer : Option (Net × NetRequest) := none
  arp     : List (Net × W32 × BitVec 48) := []
  asked   : List (Net × W32) := []
  deriving DecidableEq, Repr

/-- A released version of a transmit buffer (R348 to R351): T0 of the logic cycle that produced it, when it became
pending, whether a cancel is registered for it, and whether a newer version replaced it. -/
structure Version where
  words    : List W64
  cycle    : W32
  t0       : Nat
  released : Nat
  pending  : Option Nat
  cancel   : Bool
  replaced : Bool
  deriving DecidableEq, Repr

/-- A CAN message buffer (R357, R366). `slot0` and `slot1` with their settling stamps, and the control word. `winAt` is the opening of the
exclusive window last used or missed (R354), `owner` the identifier that its ownership block is about (R360). -/
structure CanBuf where
  last    : BitVec 3 := 0
  block   : BitVec 2 := 0
  series  : BitVec 2 := 0
  conflictRun : Nat := 0
  sent    : W16 := 0
  sentDc  : W16 := 0
  cancelled : W16 := 0
  miss    : W16 := 0
  version : Option Version := none
  next    : Option Version := none
  winAt   : Option Nat := none
  owner   : Option (BitVec 29 × Bool) := none
  blockedAt : Nat := 0
  retryAt : Option Nat := none
  group   : ResultGroup := {}
  slot0   : Option (CanFrame × Bool × Nat) := none
  slot1   : Option (CanFrame × Bool × Nat) := none
  slot    : Bool := false
  count   : Byte := 0
  shown   : Option (CanFrame × Bool) := none
  pairGroup : List (CanFrame × Bool) := []
  pairAt  : Nat := 0
  cause   : BitVec 4 := 0
  rej     : W16 := 0
  tmo     : W16 := 0
  dup     : W16 := 0
  pairDis : W16 := 0
  valid   : Bool := false
  discIn  : Option W32 := none
  deriving DecidableEq, Repr

/-- A CAN FD port (R342 to R367). `bus` names the transmit buffer whose frame the port has begun, and `windowEnd`
is the end of the arbitrating window that is open (R353). `cycAt` is when the present CAN basic cycle began, `refDue` that its reference has
yet to be completed (R352), `parked` the blocks of identifiers that no buffer has now (R360). (DESIGN CHOICE log 7) -/
structure CanPort where
  mode    : BitVec 2 := 0
  recov   : Bool := false
  unusable : Bool := false
  tec     : BitVec 9 := 0
  recv    : Byte := 0
  rxOk    : W32 := 0
  txOk    : W32 := 0
  errBit  : W16 := 0
  errStuff : W16 := 0
  errForm : W16 := 0
  errCrc  : W16 := 0
  errAck  : W16 := 0
  busoff  : W16 := 0
  busoffAt : Nat := 0
  rtrRx   : W16 := 0
  ownBit  : W16 := 0
  conflicts : W16 := 0
  lastId  : BitVec 29 := 0
  lastIde : Bool := false
  bufs    : List CanBuf := List.replicate 64 {}
  refBuf  : CanBuf := {}
  role    : BitVec 2 := 0
  cyc     : BitVec 6 := 0
  refSent : W32 := 0
  refLost : W16 := 0
  winMiss : W16 := 0
  lastUnblock : Bool := false
  cycAt   : Option Nat := none
  refDue  : Bool := false
  parked  : List CanBuf := []
  bus     : Option Nat := none
  windowEnd : Option Nat := none
  lastTx  : Option CanFrame := none
  deriving DecidableEq, Repr

/-- A frame that a pair link's transmitter holds (R371): when it was ready, when its start delimiter goes, and the frame. -/
structure LineFrame where
  ready : Nat
  start : Nat
  frame : PairFrame
  deriving DecidableEq, Repr

/-- One pair link (R370 to R373). -/
structure PairLink where
  up      : Bool := false
  service : Bool := false
  run     : Nat := 0
  lastAt  : Nat := 0
  errs    : W16 := 0
  unusable : Bool := false
  lastStatus : Option StatusFrame := none
  line    : List LineFrame := []
  deriving DecidableEq, Repr

/-- An access to the partner subtree on its way (R37); `num` is the number of a maintenance request. -/
structure PartnerAccess where
  sess  : Sess
  addr  : W32
  count : Nat
  at0   : Nat
  num   : W32 := 0
  deriving DecidableEq, Repr

/-- The pair link page and the pair's roles (R368 to R389). `accesses` are this module's reads on their way to the partner,
`asked` the partner's reads that wait here: address, count, instant, and the link that the answer goes on (R37). `same` and `differ`
are the lanes that found the digests of the cycle's packet equal or not (R380); `mirrorEnd` is when the last frame of the cycle's
mirror packet ends (R377). (DESIGN CHOICE log 7) -/
structure PairState where
  role    : PairRole := .none
  l1      : PairLink := {}
  l2      : PairLink := {}
  present : Bool := false
  sightIn : Option W32 := none
  sightRun : Nat := 0
  mismRun : Nat := 0
  ovf     : Bool := false
  partner : Option StatusFrame := none
  swap    : W32 := 0xFFFFFFFF
  sent    : W32 := 0
  adopted : W32 := 0
  rxBad   : W16 := 0
  rxLate  : W16 := 0
  mism    : W16 := 0
  joins   : W16 := 0
  roleChg : W16 := 0
  yields  : W16 := 0
  tmrPeak : W16 := 0
  ovfs    : W16 := 0
  lastAdopt : W32 := 0
  halves  : List MirrorFrame := []
  packet  : Option (W32 × List (List W64)) := none
  packetTo : BitVec 3 := 0
  takenBy : BitVec 3 := 0
  takenRun : Nat := 0
  noPacket : Nat := 0
  equalRun : Nat := 0
  goneAt  : Option Nat := none
  mismJoin : Bool := false
  yielded : Bool := false
  ready   : Bool := false
  oldLead : Bool := false
  alone   : Bool := false
  lastFrames : List MirrorFrame := []
  accesses : List PartnerAccess := []
  asked   : List (W32 × Nat × Nat × LinkId) := []
  lastReply : Option AnswerFrame := none
  same    : BitVec 3 := 0
  differ  : BitVec 3 := 0
  mirrorEnd : Option Nat := none
  deriving DecidableEq, Repr

end Sys2Proof.Machine
end

