-- ==== Sys2Proof/Machine/CanOps.lean ====
section
/-! DEFINITION. The transmit buffers of a CAN FD port (R348 to R351): outcomes, cancels and what is sent next. -/

namespace Sys2Proof.Machine

/-- An outcome of R351 recorded on a buffer. A replaced version was counted when it was replaced. -/
def CanBuf.outcome (code : Nat) (counted : Bool) (x : CanBuf) : CanBuf :=
  let x := { x with last := BitVec.ofNat 3 code }
  if code = 1 then { x with sent := satInc x.sent }
  else if code = 2 then { x with sentDc := satInc x.sentDc }
  else if code = 3 ∨ code = 4 then (if counted then x else { x with cancelled := satInc x.cancelled })
  else { x with miss := satInc x.miss }

/-- The present version leaves the buffer; a newer one behind it takes its place (R350). (DEDUCED log 30) -/
def CanBuf.advance (x : CanBuf) : CanBuf := { x with version := x.next, next := none }

/-- A version that its deadline ended before it was sent is no longer behind the one that is being sent (R348, R349). -/
def CanBuf.dropNext (x : CanBuf) : CanBuf := { (x.outcome 3 false) with next := none }

/-- A cancel of the present version (R351): removed at once where no attempt of it has begun, and otherwise held
against the frame's end. -/
def CanBuf.cancel (begun : Bool) (x : CanBuf) : CanBuf :=
  match x.version with
  | none => x
  | some v =>
    if begun then { x with version := some { v with cancel := true } }
    else (x.outcome 3 v.replaced).advance

/-- Every pending version cancelled (R350): bus-off, or a mode that sends no messages. (DEDUCED log 30) -/
def CanPort.cancelAll (x : CanPort) : CanPort :=
  { x with
    bufs := (x.bufs.zipIdx).map (fun p =>
      let b := { p.1 with next := none }
      let b := if p.1.next.isSome then b.outcome 3 false else b
      b.cancel (x.bus == some p.2)) }

/-- The order in which identifiers win arbitration: a base identifier before an extended one that continues it.
(DEDUCED log 30) -/
def arbKey (id : BitVec 29) (ide : Bool) : Nat :=
  if ide then id.toNat * 2 + 1 else id.toNat % 2048 * 2 ^ 18 * 2

/-- The set's settings of a port as the module of a pair holds them (R347, R352, R369): copy 1 sends with the second
identifier of each transmit buffer, and its reference with `REF_ID` + 1. -/
def bufForCopy (second : Bool) (c : BufCfg) : BufCfg :=
  if second && c.dir == .transmit then { c with id := c.id2, id2 := c.id } else c

def canForCopy (second : Bool) (c : CanCfg) : CanCfg :=
  { c with bufs := c.bufs.map (bufForCopy second), refId := if second then c.refId + 1 else c.refId }

/-- Payload bytes of a DLC. -/
def dlcBytes (fdf : Bool) (dlc : BitVec 4) : Nat :=
  let n := dlc.toNat
  if n ≤ 8 then n
  else if fdf then [12, 16, 20, 24, 32, 48, 64].getD (n - 9) 64 else 8

/-- The bit times in ns of the codes of `CAN.CFG.NBR` and `CAN.CFG.DBR`. (PRESUMED log 29) -/
def nominalBitNs (nbr : Nat) : Nat := [0, 8000, 4000, 2000, 1000].getD nbr 0
/-- The worst-case length of a CAN FD frame, and the bit times, follow ISO 11898-1. (PRESUMED log 29) -/
def dataBitNs (dbr : Nat) : Nat := [0, 1000, 500, 250, 200].getD dbr 0

/-- The worst-case time of a frame in ns, stuff bits and intermission included (R353), from the frame formats of
ISO 11898-1. (PRESUMED log 29) -/
def canWorstNs (cfg : CanCfg) (fdf brs ide : Bool) (n : Nat) : Nat :=
  let nom := nominalBitNs cfg.nbr
  if fdf then
    let head := if ide then 36 else 17
    let body := 5 + 8 * n
    let crc := if n ≤ 16 then 27 else 32
    (head + (head - 1) / 4 + 12) * nom + (body + (body + 3) / 4 + crc + 1) * (if brs then dataBitNs cfg.dbr else nom)
  else
    let body := (if ide then 54 else 34) + 8 * n
    (body + (body - 1) / 4 + 13) * nom

/-- The worst-case length of a CAN FD frame, and the bit times, follow ISO 11898-1. (PRESUMED log 29) -/
def bufWorstNs (cfg : CanCfg) (c : BufCfg) : Nat := canWorstNs cfg c.fdf c.brs c.ide (dlcBytes c.fdf c.dlc)

/-- The pending buffer of given kinds that wins among those that may begin, where the port has begun no frame.
(DEDUCED log 30) -/
def CanPort.winner (cfg : CanCfg) (kinds : List TxKind) (fits : BufCfg → Bool) (x : CanPort) : Option Nat :=
  let cands := ((x.bufs.zip cfg.bufs).zipIdx).filter (fun p =>
    kinds.contains p.1.2.kind && fits p.1.2 && (match p.1.1.version with | some v => v.pending.isSome | none => false))
  (cands.foldl (fun (best : Option (Nat × Nat)) p =>
    let k := arbKey p.1.2.id p.1.2.ide
    match best with
    | some (k0, _) => if k < k0 then some (k, p.2) else best
    | none => some (k, p.2)) none).map Prod.snd

/-- The bus is idle and the port has begun no frame: the pending version that wins begins. An event-triggered port takes any
(R348); a time-triggered one an arbitrating one whose worst-case frame ends inside the window that is open (R353). -/
def CanPort.startNext (cfg : CanCfg) (now : Nat) (x : CanPort) : CanPort :=
  if x.bus.isSome || cfg.listen || !(x.mode == 1 || x.mode == 2) then x
  else if cfg.tt then
    match x.windowEnd with
    | some e => { x with bus := x.winner cfg [.arbitrating] (fun c => decide (now + bufWorstNs cfg c ≤ e)) }
    | none => x
  else { x with bus := x.winner cfg [.event, .atTime] (fun _ => true) }

/-- A port that is off drives recessive and has begun no frame (R344). -/
def CanPort.off (x : CanPort) : CanPort :=
  { x with mode := 0, recov := false, role := 0, bus := none, windowEnd := none, cycAt := none, refDue := false }

end Sys2Proof.Machine
end

