-- ==== Sys2Proof/Config.lean ====
section
/-! DEFINITION. What the spec leaves to an implementation or to cryptography, as constants with no body: nothing
can be proved of their values (logs 4, 5 and those each names). -/

namespace Sys2Proof.Config

/-- What the spec leaves open of a vote-link word's CRC-3 (R164): its initial value, its final XOR, and whether the 89 bits enter
from the last one. (DESIGN CHOICE log 4) -/
opaque voteInit : BitVec 3
/-- What R164 leaves open of the CRC-3 of a vote word is free. (DESIGN CHOICE log 4) -/
opaque voteXor : BitVec 3
/-- What R164 leaves open of the CRC-3 of a vote word is free. (DESIGN CHOICE log 4) -/
opaque voteLowFirst : Bool

/-- The SEC-DED check bits of a table-store word (R14, R71), whose code the spec does not give.
(DESIGN CHOICE log 79, DESIGN CHOICE log 93) -/
opaque secded : W64 → Byte

/-- The word of part sizes in the header of a rejoin transfer, and the 8,192 words of its communication state (R153), whose layouts
the spec does not give. (DESIGN CHOICE log 116) -/
opaque sizesWord : List Nat → W32
/-- R153: what the header and the communication state of a rejoin transfer leave open. (DESIGN CHOICE log 116) -/
opaque commWords : CommState → List (Option W64) → List PfAux → Bool → List W32

/-- The low 12 bits of an event code that the manual does not name (R443), by the event's number.
(DESIGN CHOICE log 6) -/
opaque eventLow : Nat → BitVec 12

/-- The registers that the firmware's event code table snapshots for a code (R442). (DESIGN CHOICE log 6) -/
opaque snapshotAddrs : W16 → List W32

/-- The factory maintenance key held with the module identity (R66). (DESIGN CHOICE log 5) -/
opaque factoryKey : List Byte

/-- The challenge of the nth session (R65). (DESIGN CHOICE log 5) -/
opaque challenge : Nat → BitVec 128

/-- The supply supervisor's check value over a token's fields (R418). (DESIGN CHOICE log 5) -/
opaque tokenCheck : W64 → W64 → Nat → Nat → Bool → Nat → W64

/-- The signatures that the BIST expectations of a firmware set give (R414, R459), by the set's manifest bytes, the silicon revision and
the block code; no rule gives their layout. (DESIGN CHOICE log 101) -/
opaque bistExpect : List Byte → W16 → Nat → List W64

/-- Whether the RSA-3072 and the SLH-DSA signature of a manifest's bytes verify under the named key (R459, R465).
(DESIGN CHOICE log 5) -/
opaque rsaOk : List Byte → Bool
/-- Keys, signatures, challenges and what only production knows are uninterpreted. (DESIGN CHOICE log 5) -/
opaque slhOk : List Byte → Bool

/-- The dew point where the Magnus formula of R438 gives none: at no humidity, and at or below -243.12 °C.
(DESIGN CHOICE log 79) -/
opaque dewFree : Nat → Int → Int

/-- What `AGR.OUT.CAUSE` takes for a lane that a firmware roll takes OUT (R470): no cause of R146 is given for it.
(DESIGN CHOICE log 79) -/
opaque rollCause : Byte

/-- Bytes 400 to 423 of an attestation report (R475), whose layout the spec does not give, by the values they code.
(DESIGN CHOICE log 79) -/
opaque reportState : List Nat → BitVec 192

/-- The key-encryption key under the railway encryption key (R475). (DESIGN CHOICE log 5) -/
opaque reportKey : BitVec 3072

/-- What follows the body of an attestation report (R475): both signatures over it and the device certificate.
(DESIGN CHOICE log 5) -/
opaque reportSigned : List Byte → List Byte

/-- The SHA-384 digest of the lane firmware of a version (R475). (DESIGN CHOICE log 5) -/
opaque laneDigest : W16 → BitVec 384

/-- A free value of 32 bits, by its number: a mailbox word left undefined (R62). (DESIGN CHOICE log 65) -/
opaque freeWord : Nat → W32

/-- The residence time of a forwarded frame in 10 ns units, by its number: 99.4 to 100.0 in 0.1 units (R258), so 99 or
100; the Boolean says 100. (DESIGN CHOICE log 38) -/
opaque residence : Nat → Bool

/-- The condition of the partner's module descriptor, by the instant of the read: no rule says how it reaches the pair
descriptor (R32, R37). (DESIGN CHOICE log 48) -/
opaque partnerCond : Nat → BitVec 2

/-- What a receive error counter above 127 falls to with a good frame (R364, ISO 11898-1): 119 to 127, by port and instant; the value
is counted from 119. (PRESUMED log 28) -/
opaque recAfter : Nat → Nat → Fin 9

/-- Whether the bus of a CAN FD port is idle at an instant: what its other nodes do is not the module's.
(DEDUCED log 30) -/
opaque busIdle : Nat → Nat → Bool

/-- The payload of a Bench access request (R37, R371), of which no rule gives the layout: whether it writes, its address, its count
and its data. (DESIGN CHOICE log 119) -/
opaque accessPayload : Bool → W32 → Nat → List W32 → List Byte

/-- The payload of a Bench access reply, of which no rule gives the layout: its status and its data.
(DESIGN CHOICE log 119) -/
opaque answerPayload : Status → List W32 → List Byte

/-- A free pole state, by its number: a pole whose two windings lie 4 to 12 µs apart (R499). (DEDUCED log 22) -/
opaque freePole : Nat → Bool

end Sys2Proof.Config
end

