-- ==== Sys2Proof/Machine/BenchState.lean ====
section
/-! DEFINITION. The state of the Bench (R42 to R69, R412 to R476): sessions, host port and mailbox, maintenance
port, sensors, event counters, event recorder, update path, and self-test control. -/

namespace Sys2Proof.Machine

/-- What a session holds privately (R42): selected instances, masks, and the results it last read (R51). -/
structure Session where
  chan : List (Nat × W16) := []
  mask : Mem 32 := []
  seen : List (Nat × Nat) := []
  lastAt : Nat := 0
  deriving DecidableEq, Repr

/-- A read that waits for a bridge grant (R49, R59); `num` is the number of a maintenance request. -/
structure PendingRead where
  addr  : W32
  count : Nat
  at0   : Nat
  num   : W32 := 0
  deriving DecidableEq, Repr

/-- A maintenance session (R66, R67). `ip` is the source of its last request. `reads` holds the reads that wait for a bridge, oldest first; `seq` and `typ` are the number and
type of its last request, and `reply` what answered that request. -/
structure MntSession where
  id     : Nat
  ip     : W32
  level  : Level
  challenge : BitVec 128
  authed : Bool
  seq    : W32
  typ    : Byte := 0x01
  reply  : Option MntReply := none
  reads  : List PendingRead := []
  sess   : Session := {}
  notified : Option Nat := none
  summary : W32 := 0
  deriving DecidableEq, Repr

/-- Host port and mailbox (R34, R35, R57 to R63). `marked` lists the mailbox words a WRITE with a bad CRC
covered, `lastWrite` is the Bench clock, first word and length of the last mailbox WRITE, `benchWrite` the clock and the words of the
Bench's last writes, `rewrite` the words whose Bench write was dropped (R60), and `before` what the words written in a clock held
before it (R61). `host` is the open host session, `opens` the number of those opened. `reply` is what the port last answered, `crc` the CRC that closed the frame. -/
structure HostPort where
  host    : Option Session := none
  opens   : Nat := 0
  h2b     : W32 := 0
  b2h     : W32 := 0
  collide : W16 := 0
  collideAt : BitVec 12 := 0
  crcErrs : W16 := 0
  timeouts : W16 := 0
  last    : Status := .ok
  read    : Option PendingRead := none
  done    : Option Reply := none
  reply   : Option Reply := none
  crc     : Option W16 := none
  closedByTimeout : Bool := false
  lastFrame : Option Nat := none
  mailbox : Mem 32 := []
  marked  : List Nat := []
  lastWrite : Option (Nat × Nat × Nat) := none
  benchWrite : Option (Nat × List (Nat × W32)) := none
  before  : Option (Nat × List (Nat × W32)) := none
  rewrite : List (Nat × W32) := []
  deriving DecidableEq, Repr

/-- The maintenance port (R64 to R69). `failures` lists the instants of `AUTH_ERR` replies by source, `lockouts`
the ignored sources. `key` is the maintenance key of the station data settings in force (R66). `reply` is the last reply datagram,
`notify` the last NOTIFY, `lastAnswer` the last ARP or ICMP answer, and `waiting` the datagrams that let a host-port access of the
same Bench clock go first (R48). -/
structure MntPort where
  link    : Bool := false
  ip      : W32 := 0
  mask    : W32 := 0
  gateway : Option W32 := none
  dhcp    : Bool := true
  sessions : List MntSession := []
  nextId  : Nat := 1
  authFails : W16 := 0
  bad     : W16 := 0
  failures : List (W32 × Nat) := []
  lockouts : List (W32 × Nat) := []
  key     : Option (List Byte) := none
  reply   : Option MntReply := none
  notify  : Option MntReply := none
  lastAnswer : Option NetRequest := none
  waiting : List MntDatagram := []
  deriving DecidableEq, Repr

/-- The port as it is with no verified station data set: on DHCP, under the factory key (R64, R66). -/
def MntPort.noSet (p : MntPort) : MntPort :=
  if p.dhcp then { p with key := none } else { p with key := none, ip := 0, mask := 0, gateway := none, dhcp := true }

/-- The port under the settings of a station data set (R64, R66). -/
def MntPort.takeSet (x : Settings) (p : MntPort) : MntPort :=
  let p := { p with key := some x.mntKey }
  if x.mntStatic then { p with ip := x.mnt.ip, mask := x.mnt.mask, gateway := x.mnt.gateway, dhcp := false }
  else if p.dhcp then p else { p with ip := 0, mask := 0, gateway := none, dhcp := true }

/-- Bench sensors (R436 to R438, R454). `runs` counts consecutive samples beyond a threshold per warning, and
`inside` since when samples stay inside by the margin. -/
structure Sensors where
  temps  : List W16 := List.replicate 8 0
  rails  : List W16 := List.replicate 12 0
  fs     : W16 := 0
  rh     : BitVec 10 := 0
  air    : W16 := 0
  dew    : W16 := 0
  shockX : W16 := 0
  shockY : W16 := 0
  shockZ : W16 := 0
  shocks : W16 := 0
  warn   : BitVec 22 := 0
  warns  : W16 := 0
  runs   : List Nat := List.replicate 22 0
  inside : List (Option Nat) := List.replicate 22 none
  deriving DecidableEq, Repr

/-- An event counter (R439, R441, R455). -/
structure EventCounter where
  src   : Byte := 0
  qual  : Byte := 0xFF
  sat   : Bool := false
  count : W32 := 0
  group : ResultGroup := {}
  snap  : W32 := 0
  delta : W32 := 0
  secs  : W32 := 0
  deriving DecidableEq, Repr

/-- A record (R442). -/
structure Rec where
  seq   : Nat
  code  : W16
  unit  : W32
  inst  : W16
  flags : Byte
  snapv : Byte
  p0    : W32
  p1    : W32
  snaps : List W32
  repCount : W32
  deriving DecidableEq, Repr

/-- A token bucket (R444). -/
structure Bucket where
  code   : W16
  tokens : Nat
  from0  : Nat
  deriving DecidableEq, Repr

/-- Suppressed notices of a code (R444). -/
structure Suppressed where
  code  : W16
  count : Nat
  unit  : W32
  deriving DecidableEq, Repr

/-- A sector of the flash ring (R448): its number of 0 to 511, its NOR device, its header and its records, oldest first. -/
structure FlashSector where
  no   : Nat
  device : Nat
  header : List Byte
  recs : List Rec
  deriving DecidableEq, Repr

/-- The event recorder (R442 to R453, R456). `ram` holds the uncommitted and the recent records, oldest first; `flash` the
sectors with committed ones in the order they were begun, and `erased` the sector kept erased ahead; `recent` holds the
notices that the lanes reported (R435), `anchored` the time in the last anchor that had `STIME_OK` 1, `anchorTime` the time in
the last anchor and `anchorKey` the second that it was written for, by `STIME_OK`. `secSeen`, `sumSec` and `matSeen` are the
Bench second counted last, the one summarised last, and the matrix cycle counted last (R440, R444). `frozen` names the session that holds a freeze, which of its openings it is (`Mach.sessOpen`),
and when the freeze began. -/
structure Recorder where
  next    : Nat := 0
  ram     : List Rec := []
  flash   : List FlashSector := []
  erased  : Option Nat := some 0
  erases  : List (Nat × Nat) := []
  openRec : Bool := false
  frozen  : Option (Sess × Nat × Nat) := none
  releasedAt : Option Nat := none
  queue   : List Rec := []
  lostFrozen : W16 := 0
  lostNow : Nat := 0
  lostFull : W16 := 0
  fullOwed : Nat := 0
  suppressed : W32 := 0
  pendSupp : List Suppressed := []
  buckets : List Bucket := []
  recent  : List Notice := []
  laneq   : W16 := 0
  stepback : W16 := 0
  bad     : List Nat := []
  fails   : W16 := 0
  stime   : Nat := 0
  stimeAt : Nat := 0
  stimeOk : Bool := false
  okAt    : Nat := 0
  setPending : Option (Nat × Nat) := none
  anchored : Option Nat := none
  anchorTime : Nat := 0
  anchorKey : Option (Bool × Nat) := none
  secSeen : Nat := 0
  sumSec  : Nat := 0
  matSeen : Option W32 := none
  deriving DecidableEq, Repr

/-- A BIST token (R418). -/
structure Token where
  serial  : W64
  fw      : W64
  written : Nat
  fieldAt : Nat
  field   : Bool
  epoch   : Nat
  check   : W64
  deriving DecidableEq, Repr

/-- Self-test control (R412 to R426, R431). Times of `fieldPass` and of slices are Bench seconds. `results` are what the test
controllers of the test that runs or ran last hold, `judged` says that its verdict is given, and `fit` whether the field supply
allows its field blocks, as it stands up to 940 ms of the test. -/
structure SelfTest where
  token0  : Option Token := none
  token1  : Option Token := none
  lastKind : BitVec 2 := 0
  lastResult : BitVec 2 := 0
  lastLane : BitVec 2 := 0
  lastBlock : Byte := 0
  lastItem : BitVec 2 := 0
  lastSecs : W32 := 0
  unusLanes : BitVec 3 := 0
  unusPorts : BitVec 10 := 0
  unusWdog : Bool := false
  unusDi  : BitVec 48 := 0
  unusAi  : Byte := 0
  unusDo  : BitVec 24 := 0
  due     : BitVec 3 := 0
  dueAt   : Tri Nat := ⟨0, 0, 0⟩
  passedAt : Tri (Option Nat) := ⟨none, none, none⟩
  expiredAt : Option Nat := none
  returnAt : Option Nat := none
  askAfter : Nat := 0
  request : Option (LaneId × W32) := none
  run     : Option LaneId := none
  overdue : BitVec 3 := 0
  done    : W16 := 0
  fails   : W16 := 0
  fieldPass : Option (Nat × Nat) := none
  peak    : BitVec 10 := 0
  energy  : BitVec 10 := 0
  results : List BlockResult := []
  judged  : Bool := false
  fit     : Bool := false
  deriving DecidableEq, Repr

/-- A slot of the non-volatile store (R457, R476): `mbytes` holds its manifest's bytes. -/
structure Slot where
  state   : SlotState := .empty
  version : W32 := 0
  sdId    : W64 := 0
  manifest : Option Manifest := none
  mbytes  : List Byte := []
  station : Option StationData := none
  deriving DecidableEq, Repr

/-- The identity record and what production fixes (R411, R460). (DESIGN CHOICE log 7) -/
structure Identity where
  serial : W64 := 0
  order  : Byte := 0x45
  copy   : BitVec 1 := 0
  hwRev  : W16 := 1
  railwayKey : Bool := false
  deriving DecidableEq, Repr

/-- What a copy of the identity area holds (R457, R458): its sequence number, the identity record, which slots the slot record names
and how, the trial with its count of failed boots, and the state of the verification keys. (DESIGN CHOICE log 102) -/
structure AreaRecord where
  seq    : Nat := 0
  ident  : Identity := {}
  fwA    : SlotState := .active
  fwB    : SlotState := .empty
  sdA    : SlotState := .empty
  sdB    : SlotState := .empty
  trial  : Option SetKind := none
  boots  : BitVec 2 := 0
  filled : BitVec 4 := 0
  retired : BitVec 4 := 0
  fwGen  : BitVec 2 := 3
  deriving DecidableEq, Repr

def slotCode : SlotState → Nat
  | .empty => 0 | .loading => 1 | .verified => 2 | .active => 3 | .trial => 4 | .previous => 5

def kindCode : SetKind → Nat
  | .firmware => 1
  | .stationData => 2
  | .enrolment => 3

/-- The bytes of a copy under its CRC-32. (DESIGN CHOICE log 102) -/
def areaBytes (r : AreaRecord) : List Byte :=
  beBytes 8 r.seq ++ bytes64 r.ident.serial ++ [r.ident.order, r.ident.copy.setWidth 8] ++ bytes16 r.ident.hwRev ++
    [if r.ident.railwayKey then 1 else 0] ++
    [slotCode r.fwA, slotCode r.fwB, slotCode r.sdA, slotCode r.sdB, r.trial.elim 0 kindCode].map (BitVec.ofNat 8) ++
    [r.boots.setWidth 8, r.filled.setWidth 8, r.retired.setWidth 8, r.fwGen.setWidth 8]

/-- A copy of the identity area on one NOR device, with the CRC-32 that it holds. -/
structure AreaCopy where
  held : AreaRecord := {}
  crc  : W32 := crc32 (areaBytes {})
  deriving DecidableEq, Repr

/-- The update session and the slots (R457 to R476). `slotSeq` is the sequence number of the slot record (R458), `area1` and `area2` the
copies of the identity area on the two NOR devices (R457), `blocks` lists the written blocks by offset with their
bytes, `parts` the parts of blocks that are not whole yet (R464). -/
structure Update where
  state   : BitVec 3 := 0
  kind    : Option SetKind := none
  maint   : Bool := false
  slot    : SlotId := .a
  result  : Byte := 0
  reqAt   : Nat := 0
  bytes   : Nat := 0
  len     : Nat := 0
  mlen    : Nat := 0
  manifestOk : Bool := false
  blocks  : List (Nat × List Byte) := []
  parts   : List (Nat × BlockPart × List Byte) := []
  fwA     : Slot := { state := .active }
  fwB     : Slot := {}
  sdA     : Slot := {}
  sdB     : Slot := {}
  enrol   : Option (List EnrolOp) := none
  trial   : Option SetKind := none
  trialBoots : BitVec 2 := 0
  phase   : BitVec 3 := 0
  serviceFrom : Option Nat := none
  trialFrom : Option Nat := none
  armed   : Bool := false
  lastCause : Byte := 0
  lastKind : BitVec 2 := 0
  fallbacks : W16 := 0
  fellBack : Bool := false
  benchFw : W16 := 0
  vfmt    : W16 := 0
  sfmt    : Byte := 0
  keysFilled : BitVec 4 := 0
  keysRetired : BitVec 4 := 0
  fwGen   : BitVec 2 := 3
  att     : ResultGroup := {}
  attLen  : W16 := 0
  attNonce : Option (BitVec 256) := none
  report  : List Byte := []
  verifyFor : Option (Sess × W32) := none
  attFor  : Option (Sess × W32) := none
  rollBack : Bool := false
  rollAt  : Option W32 := none
  slotSeq : Nat := 0
  area1   : AreaCopy := {}
  area2   : AreaCopy := {}
  deriving DecidableEq, Repr

/-- The Bench. `secs` is the seconds count at the instant `secsAt`, and `clkStopped` says that the always-on clock stands
(R419). `ecSeen` lists the sources counted last in one Bench clock, with the clock (R439). (DESIGN CHOICE log 7) -/
structure Bench where
  up      : Bool := false
  secs    : Nat := 0
  secsAt  : Nat := 0
  epoch   : Nat := 0
  clkLost : Bool := false
  clkStopped : Bool := false
  host    : HostPort := {}
  mnt     : MntPort := {}
  sens    : Sensors := {}
  ec      : List EventCounter := List.replicate 32 {}
  ecSeen  : Nat × List (Byte × Byte) := (0, [])
  recd    : Recorder := {}
  test    : SelfTest := {}
  upd     : Update := {}
  deriving DecidableEq, Repr

end Sys2Proof.Machine
end

