-- ==== Sys2Proof/Machine/CallipersState.lean ====
section
/-! DEFINITION. The state of Callipers (R164 to R188): vote slots, held messages, the cycle report, the output
drive monitor with the drive watchdog, and the self-check. -/

namespace Sys2Proof.Machine

/-- A copy in a vote slot: its data, whether it is well formed (R166), and its arrival. -/
structure Copy where
  data : W64
  good : Bool
  at0  : Nat
  deriving DecidableEq, Repr

/-- A vote slot (R167, R168): the copies of one configured word, or of the drive record; `gone` names the lanes whose copies their out
lines removed. -/
structure VoteSlot where
  drive  : Bool
  msg    : Nat
  word   : Nat
  copies : Tri (Option Copy) := ⟨none, none, none⟩
  probes : Tri (Option Copy) := ⟨none, none, none⟩
  gone   : BitVec 3 := 0
  openAt : Nat := 0
  voted  : Option W64 := none
  closed : Bool := false
  deriving DecidableEq, Repr

/-- A released message that Callipers holds for its port (R169, R273), tagged with its logic cycle. -/
structure HeldMsg where
  msg   : Nat
  cycle : W32
  words : List W64
  at0   : Nat
  deriving DecidableEq, Repr

/-- The value words of the vote statistics (R188). -/
structure VoteStats where
  cycles   : W32 := 0
  released : W32 := 0
  discard  : W32 := 0
  outv     : Tri W32 := ⟨0, 0, 0⟩
  absent   : Tri W32 := ⟨0, 0, 0⟩
  skewMax  : BitVec 10 := 0
  deriving DecidableEq, Repr

/-- The message voter (R164 to R173, R185, R188). `began` names the counted lanes that have begun their hand-over in this cycle. -/
structure Voter where
  slots    : List VoteSlot := []
  held     : List HeldMsg := []
  released : List Nat := []
  outvoted : BitVec 3 := 0
  absent   : BitVec 3 := 0
  absentMsgs : List (Nat × BitVec 3) := []
  began    : BitVec 3 := 0
  ended    : BitVec 3 := 0
  firstEnd : Option Nat := none
  lastEnd  : Option Nat := none
  cycle    : W32 := 0
  reported : Bool := false
  reportOutv : BitVec 3 := 0
  reportAbs  : BitVec 3 := 0
  absRun   : Tri Nat := ⟨0, 0, 0⟩
  cfgMsgs  : BitVec 13 := 0
  cfgWords : BitVec 14 := 0
  lastMsg  : BitVec 12 := 0
  lastWord : BitVec 10 := 0
  lastKind : BitVec 2 := 0
  lastLane : BitVec 3 := 0
  lastCycle : W32 := 0
  skewNow  : BitVec 10 := 0
  skew     : BitVec 10 := 0
  group    : ResultGroup := {}
  snap     : VoteStats := {}
  live     : VoteStats := {}
  snapFrom : Option Nat := none
  deriving DecidableEq, Repr

/-- What a pole's samples show (R180). -/
inductive PoleSight where
  | normal | weak | stray | lost | against
  deriving DecidableEq, Repr

/-- What a pole's samples show (R180): the last sight and how often in a row, the current finding, and whether a lost
finding waits for a normal one. -/
structure PoleRun where
  sight : PoleSight := .normal
  run   : Nat := 0
  found : PoleSight := .normal
  lost  : Bool := false
  deriving DecidableEq, Repr

/-- The output drive monitor and the drive watchdog (R177 to R180, R186). -/
structure DriveMon where
  voted     : BitVec 24 := 0
  pendingRec : Option (BitVec 24) := none
  reference : BitVec 24 := 0
  weak      : BitVec 24 := 0
  lost      : BitVec 24 := 0
  stray     : BitVec 24 := 0
  pos       : List PoleRun := []
  neg       : List PoleRun := []
  tripped   : Bool := true
  trips     : W16 := 0
  marks     : Tri (Option Nat) := ⟨none, none, none⟩
  lastQual  : Option Nat := none
  qualRun   : Nat := 0
  deriving DecidableEq, Repr

/-- The self-check (R181 to R184, R187). -/
structure SelfCheck where
  injPos    : Byte := 0
  injOk     : W32 := 0
  clk       : Tri Byte := ⟨0, 0, 0⟩
  report    : BitVec 3 := 0
  reportIn  : W32 := 0
  haltCause : Byte := 0
  haltCycle : W32 := 0
  running   : Bool := false
  deriving DecidableEq, Repr

/-- Registers without a stated reset value: identity, the Bench's working values and every internal counter start at 0 or empty. (DESIGN CHOICE log 7) -/
structure Callipers where
  vote : Voter := {}
  odm  : DriveMon := {}
  csc  : SelfCheck := {}
  txOn : Bool := false
  fifo : NoticeQueue := {}
  deriving DecidableEq, Repr

end Sys2Proof.Machine
end

