-- ==== Sys2Proof/Machine/FieldState.lean ====
section
/-! DEFINITION. The state of the field section (R189 to R250). -/

namespace Sys2Proof.Machine

/-- A standing fault finding (R211, R212): its code, whether its condition is present, and since when it has been absent. -/
structure Finding where
  code    : BitVec 4
  present : Bool := true
  goneAt  : Nat := 0
  deriving DecidableEq, Repr

/-- A digital input channel (R189 to R213). `found` holds the findings that stand, the newest first. -/
structure DiCh where
  level  : Bool := false
  raw    : Bool := false
  valid  : Bool := false
  latch  : Bool := false
  unusable : Bool := false
  found  : List Finding := []
  fcnt   : BitVec 10 := 0
  tseq   : BitVec 2 := 0
  toggle : Bool := false
  cond   : BitVec 12 := 0xFFF
  cosCnt : W16 := 0
  faults : W16 := 0
  fresh  : Nat := 0
  judge  : Nat := 0
  judgeRun : Nat := 0
  ownLow : Nat := 0
  ownMiss : Nat := 0
  foreignSeen : List Bool := [false, false, false, false]
  foreignRun  : List Nat := [0, 0, 0, 0]
  inWin  : List Bool := [false, false, false, false]
  testFail0 : Nat := 0
  testFail1 : Nat := 0
  revalidate : Bool := false
  testAt : Option Nat := none
  cosSec : Nat := 0
  cosN   : Nat := 0
  levelAt : Nat := 0
  seenHi : Bool := false
  seenLo : Bool := false
  deriving DecidableEq, Repr

/-- The code of the newest of the findings that stand, 0 with none (R213, R214). (DEDUCED log 19) -/
def newestCode (xs : List Finding) : BitVec 4 := (xs.head?.map Finding.code).getD 0

def DiCh.fault (x : DiCh) : BitVec 4 := newestCode x.found

/-- A finding of a code whose condition is present now. -/
def standsNow (code : Nat) (xs : List Finding) : Bool := xs.any (fun f => f.code.toNat == code && f.present)

/-- A finding of a code, before the others. (DEDUCED log 19) -/
def addFinding (code : Nat) (xs : List Finding) : List Finding :=
  { code := BitVec.ofNat 4 code } :: xs.filter (fun f => f.code.toNat != code)

/-- The conditions of some codes are absent from now on. -/
def endFindings (codes : List Nat) (now : Nat) (xs : List Finding) : List Finding :=
  xs.map (fun f => if f.present && codes.contains f.code.toNat then { f with present := false, goneAt := now } else f)

def dropFinding (code : Nat) (xs : List Finding) : List Finding := xs.filter (fun f => f.code.toNat != code)

/-- The findings that still stand: those whose condition is present or has been absent for less than 1 s (R212).
(DEDUCED log 19) -/
def stillFound (now : Nat) (xs : List Finding) : List Finding :=
  xs.filter (fun f => f.present || decide (now < f.goneAt + 1000000000))

/-- An analogue input channel (R204 to R214). `convAt` is when the last conversion ended. -/
structure AiCh where
  code   : W16 := 0
  valid  : Bool := false
  found  : List Finding := []
  latch  : Bool := false
  unusable : Bool := false
  faults : W16 := 0
  refLo  : W16 := 0
  refHi  : W16 := 0
  group  : ResultGroup := {}
  lowRun : Nat := 0
  highRun : Nat := 0
  okRun  : Nat := 0
  failLo : Nat := 0
  failHi : Nat := 0
  convAt : Option Nat := none
  validAt : Nat := 0
  seen   : Bool := false
  deriving DecidableEq, Repr

def AiCh.fault (x : AiCh) : BitVec 3 := (newestCode x.found).setWidth 3

/-- A pulse source (R198 to R200, R215). -/
structure PsCh where
  fault  : Bool := false
  cause  : BitVec 2 := 0
  ma     : Byte := 0
  faults : W16 := 0
  on     : Bool := true
  dark   : Bool := false
  darkAt : Option Nat := none
  highRun : Nat := 0
  faultAt : Nat := 0
  deriving DecidableEq, Repr

/-- The encoder (R202, R203, R216). -/
structure Encoder where
  valid   : Bool := false
  illegal : Bool := false
  overfreq : Bool := false
  illCnt  : W16 := 0
  count   : W32 := 0
  speed   : BitVec 24 := 0
  lastA   : Bool := false
  lastB   : Bool := false
  edgeA   : Option Nat := none
  edgeB   : Option Nat := none
  illAt   : List Nat := []
  overAt  : Option Nat := none
  condAt  : Nat := 0
  speedBase : W32 := 0
  deriving DecidableEq, Repr

/-- The field supply monitor (R190, R191, R208 to R210, R217). `samples` holds the last 100 samples, newest
first; `sinceRelease` counts the samples since the last release. `published` is the held state the lanes are
given (R209), last at `pubAt`. `thrWas` is the ON threshold before the change of `thrAt`, which a comparator test that ran then still
has (R191). (DEDUCED log 8) -/
structure Fsm where
  volt   : W16 := 0
  vmin   : W16 := 0x7FFF
  low    : Bool := false
  sag    : Bool := true
  rev    : Bool := false
  high   : Bool := false
  pinned : Bool := false
  edge   : Bool := false
  release : Bool := false
  sags   : W16 := 0
  thrOn  : BitVec 7 := 0
  thrWas : BitVec 7 := 0
  thrAt  : Nat := 0
  published : Bool := true
  pubAt  : Option Nat := none
  frozen : Bool := false
  freezeAt : Nat := 0
  freezeIn : Option W32 := none
  samples : List Int := []
  sinceRelease : Nat := 0
  lowFrom : Option Nat := none
  okFrom  : Option Nat := none
  sagRun  : Nat := 0
  revRun  : Nat := 0
  highFrom : Option Nat := none
  rangeFrom : Option Nat := none
  lastAt  : Option Nat := none
  deadFrom : Option Nat := none
  deriving DecidableEq, Repr

/-- A safety output (R218 to R237). `noPos` and `noNeg` count the test periods without a judged pulse (R227). `drvPos`
and `drvNeg` say that a pole's gate is driven and supplied; `pos` and `neg` are what its terminal sense last read. `tphase`
is 1 while a pulse changes the drive and 2 in its check after that; `pendOk`, `pendFollow` and `pendMatch` hold what the
pulse showed until it is judged. Each lane drives the tested pole by itself: `pulseLanes` are still in their 200 µs,
`darkLanes` run the dark kind, `offLanes` met a real off, and `hold` delays a lane's energise that met its light pulse (R223,
R228); `verifyTo` is when the verify phase of the last light pulse ends, whether or not the checker has judged it by then.
`pulseEnd` is when the last pulse's drive ended, `changes` when each lane's bit last changed (R231). -/
structure OutCh where
  cmd    : Bool := false
  pos    : Bool := false
  neg    : Bool := false
  avail  : Bool := false
  armed  : Bool := false
  latch  : Bool := false
  unusable : Bool := false
  fold   : Bool := false
  fault  : BitVec 4 := 0
  isFault : Bool := false
  test   : Option PulseKind := none
  tpole  : Pole := .pos
  vpos   : W16 := 0
  vneg   : W16 := 0
  cur    : BitVec 12 := 0
  temp   : Byte := 0
  done   : W16 := 0
  disc   : W16 := 0
  posOk  : Bool := false
  negOk  : Bool := false
  posAge : Byte := 0
  negAge : Byte := 0
  faults : W16 := 0
  xconn  : BitVec 5 := 0x1F
  ipeak  : BitVec 12 := 0
  inhibit : Bool := true
  judge  : Nat := 0
  judgeRun : Nat := 0
  settleAt : Nat := 0
  lowCurAt : Option Nat := none
  noPos  : Nat := 0
  noNeg  : Nat := 0
  judgedPos : Bool := false
  judgedNeg : Bool := false
  judged : Nat := 0
  toggle : Bool := false
  pulseAt : Nat := 0
  pulseEnd : Option Nat := none
  pulseLanes : BitVec 3 := 0
  darkLanes : BitVec 3 := 0
  offLanes : BitVec 3 := 0
  driveAt : Nat := 0
  repeatsPos : Nat := 0
  repeatsNeg : Nat := 0
  repeatDue  : Option (Pole × Nat) := none
  healthyAt : Option Nat := none
  overdue : Bool := false
  changes : Tri (Option Nat) := ⟨none, none, none⟩
  drvPos  : Bool := false
  drvNeg  : Bool := false
  tphase  : Nat := 0
  pendOk  : Bool := false
  pendFollow : Bool := false
  pendMatch : Bool := false
  startPos : Bool := false
  startNeg : Bool := false
  repeatNow : Option Pole := none
  hold : Tri Nat := ⟨0, 0, 0⟩
  verifyTo : Nat := 0
  fromDark : Option Pole := none
  swPos : Bool := false
  swNeg : Bool := false
  swOff : Bool := false
  deriving DecidableEq, Repr

/-- Per protection instance what is not in its block (R250). -/
structure PfCh where
  trips  : W16 := 0
  faults : W16 := 0
  limit  : BitVec 24 := 0
  speed  : BitVec 24 := 0
  deriving DecidableEq, Repr

/-- Registers without a stated reset value: identity, the Bench's working values and every internal counter start at 0 or empty. (DESIGN CHOICE log 7) -/
structure Field where
  di  : List DiCh := List.replicate 48 {}
  ai  : List AiCh := List.replicate 8 {}
  ps  : List PsCh := List.replicate 4 {}
  enc : Encoder := {}
  fsm : Fsm := {}
  out : List OutCh := List.replicate 24 {}
  pf  : List PfCh := List.replicate 16 {}
  periodAt : Nat := 0
  periodOn : Bool := false
  suspended : Bool := false
  fifo : NoticeQueue := {}
  deriving DecidableEq, Repr

end Sys2Proof.Machine
end

