-- ==== Sys2Proof/Machine/State.lean ====
section
/-! DEFINITION. The whole state: the waiting commands and the module, with the outcomes' reasons and the state
after reset. -/

namespace Sys2Proof.Machine

/-- Why a step would stop with a fault. The module has no such stop: every command of the table has an effect the
spec gives, so the type has no value. (DESIGN CHOICE log 74) -/
inductive Fault where
  deriving DecidableEq, Repr

/-- Why a step would refuse a command. (DESIGN CHOICE log 74) -/
inductive Refusal where
  /-- Raised by a dispatch arm whose command has no meaning yet; safe, since nothing is proved of it. -/
  | notModelled (mnemonic : String)
  deriving DecidableEq, Repr

/-- A mode command on its way (R393): its code and target cycle. -/
structure PendingCmd where
  code   : Byte
  target : W32
  at0    : Nat
  applied : Bool
  outcome : Byte
  deriving DecidableEq, Repr

/-- The module descriptor (R390 to R411) with the reset input and boot counts. `lowRun` and `highRun` count the samples of
`RESET_N` in a row since `lowFrom` and `highFrom`; `assertAt` is when the line went low for the assertion that stands.
(DESIGN CHOICE log 7) -/
structure ModState where
  mode    : Mode := .dormant
  prev    : Mode := .dormant
  modeCycle : W32 := 0
  bootKind : BitVec 2 := 0
  bootAt  : Nat := 0
  failedBoots : Nat := 0
  configAt : Nat := 0
  configHeld : Bool := false
  joinAt  : Nat := 0
  joinEvents : Nat := 0
  cmd     : Option PendingCmd := none
  cmdRes  : ResultGroup := {}
  resCode : Byte := 0
  resOutcome : Byte := 0
  resTarget : W32 := 0
  rstLevel : Bool := false
  rstStuck : Bool := false
  rstHeld : Bool := false
  rstCount : W16 := 0
  rstLastMs : W32 := 0
  lowRun  : Nat := 0
  lowFrom : Nat := 0
  highRun : Nat := 0
  highFrom : Nat := 0
  asserted : Bool := false
  assertAt : Nat := 0
  released : Bool := false
  haltCause : Byte := 0
  haltSrc : BitVec 3 := 0
  haltCycle : W32 := 0
  cfgCause : Byte := 0
  cfgUnit : Byte := 0
  cfgLanes : BitVec 3 := 0
  sweepState : BitVec 2 := 0
  sweepStep : BitVec 5 := 0
  sweepDone : W16 := 0
  sweepPass : BitVec 24 := 0
  sweepIn : BitVec 48 := 0
  sweepAi : Byte := 0
  sweepFrom : Option W32 := none
  sweepStarted : Bool := false
  sweepStepAt : Nat := 0
  sweepBad : Bool := false
  aligned : Bool := false
  alignedRuns : Nat := 0
  commissionAt : Nat := 0
  activating : Bool := false
  deriving DecidableEq, Repr

/-- Supplies as the supply supervisor sees them (R25 to R27, R391, R399, R407, R478, R485). (DESIGN CHOICE log 7) -/
structure Power where
  powered  : Bool := false
  supplyOk : Bool := false
  lossAt   : Option Nat := none
  qualAt   : Nat := 0
  reserve  : Bool := false
  commanded : Bool := false
  quiesceAt : Nat := 0
  carrierOn : Bool := false
  carrierShort : Bool := false
  carrierAt : Nat := 0
  fifo     : NoticeQueue := {}
  deriving DecidableEq, Repr

/-- The module. `sd` is the station data set in force, `irq` the `IRQ_STAT` word of every page by page number
(address bits [30:10]), `freeCtr` the model's own counter that numbers free values. -/
structure Mach where
  now     : Nat := 0
  mod     : ModState := {}
  power   : Power := {}
  ident   : Identity := {}
  sd      : Option StationData := none
  lanes   : Tri Lane := ⟨{ strap := .true }, { strap := .cross }, { strap := .counter }⟩
  cal     : Callipers := {}
  field   : Field := {}
  ring1   : RingIfc := {}
  ring2   : RingIfc := {}
  jxt     : Jxt := {}
  can1    : CanPort := {}
  can2    : CanPort := {}
  pair    : PairState := {}
  bench   : Bench := {}
  irq     : Mem 32 := []
  freeCtr : Nat := 0
  deriving DecidableEq, Repr

/-- The state: the commands that wait, first in first out, and the module. -/
structure State where
  pending : List Instr
  m       : Mach
  deriving DecidableEq, Repr

/-- The module as it is before power is first applied, with its factory content and no station data.
(DESIGN CHOICE log 1, DESIGN CHOICE log 7) -/
def State.reset : State := { pending := [], m := {} }

end Sys2Proof.Machine
end

