-- ==== Sys2Proof/Machine/Operands.lean ====
section
/-! DEFINITION. What the operands of the commands name: the lanes with their bits and codes, and the units with their paths and
page addresses. -/

namespace Sys2Proof.Machine

/-! ### Lanes -/

def Tri.get {α : Type} (x : Tri α) : LaneId → α
  | .a => x.a
  | .b => x.b
  | .c => x.c

def Tri.upd {α : Type} (l : LaneId) (f : α → α) (x : Tri α) : Tri α :=
  match l with
  | .a => { x with a := f x.a }
  | .b => { x with b := f x.b }
  | .c => { x with c := f x.c }

def Tri.all {α : Type} (f : LaneId → α → α) (x : Tri α) : Tri α := ⟨f .a x.a, f .b x.b, f .c x.c⟩

def laneIds : List LaneId := [.a, .b, .c]

/-- A lane's bit in a three-lane mask: A is bit 0. -/
def laneBit : LaneId → Nat
  | .a => 0
  | .b => 1
  | .c => 2

/-- A lane's code, which is its level-2 path value: A is 1 (R31, R133). -/
def laneCode (l : LaneId) : Nat := laneBit l + 1

def maskOf (f : LaneId → Bool) : BitVec 3 :=
  BitVec.ofNat 3 (bitOf (f .a) + 2 * bitOf (f .b) + 4 * bitOf (f .c))

def inMask (x : BitVec 3) (l : LaneId) : Bool := x.getLsbD (laneBit l)

def Mach.lane (m : Mach) (l : LaneId) : Lane := m.lanes.get l
def Mach.updLane (l : LaneId) (f : Lane → Lane) (m : Mach) : Mach := { m with lanes := m.lanes.upd l f }
def Mach.updLanes (f : LaneId → Lane → Lane) (m : Mach) : Mach := { m with lanes := m.lanes.all f }

def Mach.life (m : Mach) (l : LaneId) : LaneLife := (m.lane l).agr.life
def Mach.isVoting (m : Mach) (l : LaneId) : Bool := m.life l == .voting
def Mach.isOut (m : Mach) (l : LaneId) : Bool := m.life l == .out
def Mach.votingLanes (m : Mach) : List LaneId := laneIds.filter m.isVoting
def Mach.votingMask (m : Mach) : BitVec 3 := maskOf m.isVoting

/-- The lane whose view the Bench takes (R49): lane A, or lane B if lane A is OUT, or lane C if both are.
(DESIGN CHOICE log 9, DEDUCED log 32) -/
def Mach.viewLane (m : Mach) : LaneId :=
  if m.isOut .a then (if m.isOut .b then .c else .b) else .a

/-- The lane whose events the module's own registers follow: the first that is VOTING, or the one whose view the Bench takes.
(DESIGN CHOICE log 9) -/
def Mach.countLane (m : Mach) : LaneId := (m.votingLanes.head?).getD m.viewLane

/-- The module's logic cycle number, as R497 takes it. (DESIGN CHOICE log 9) -/
def Mach.cycleNo (m : Mach) : W32 := (m.lane m.viewLane).cop.cycleNo

/-- An event of R497 falls in the logic cycle now running or in the one before it. -/
def Mach.inLastCycle (m : Mach) (e : Option W32) : Bool :=
  match e with
  | some c => decide (m.cycleNo = c) || decide (m.cycleNo = c + 1)
  | none => false

/-! ### Unit paths (R31, R34, R38) -/

/-- The page base address of a unit path. -/
def pathAddr (path : List Nat) : W32 :=
  (path.zipIdx).foldl (fun a p => a ||| (BitVec.ofNat 32 p.1 <<< (28 - 3 * p.2))) 0

/-- A page's number: its address bits [30:10]. -/
def pageNo (path : List Nat) : Nat := (pathAddr path).toNat / 1024

def modPath : List Nat := [1]
def lanePath (l : LaneId) (k : Nat) : List Nat := [1, laneCode l, k]
def calPath (k : Nat) : List Nat := [1, 4, k]
def fieldPath (k : Nat) : List Nat := [1, 5, k]
def ringNo : RingId → Nat
  | .r1 => 1
  | .r2 => 2
def ringPath (i : RingId) : List Nat := [1, 6, ringNo i]
def portPath (i : RingId) (d : Dir) : List Nat := [1, 6, ringNo i, match d with | .east => 1 | .west => 2]
def restPath (i : RingId) (d : Dir) : List Nat := [1, 6, ringNo i, match d with | .east => 3 | .west => 4]
def schedPath (i : RingId) : List Nat := [1, 6, ringNo i, 5]
def jxtPath : List Nat := [1, 6, 3]
def canNo : CanId → Nat
  | .p1 => 1
  | .p2 => 2
def canPath (p : CanId) (k : Nat) : List Nat := [1, 6, canNo p + 3, k]
def pairPath : List Nat := [1, 6, 6]
def cvPath : List Nat := [1, 6, 7]
def benchPath (k : Nat) : List Nat := [1, 7, k]

end Sys2Proof.Machine
end

