-- ==== Sys2Proof/Machine/Flags.lean ====
section
/-! DEFINITION. The flags that the units' pages carry for the Bench: interrupt causes (R34, R55) and the `READY` and `TAG` of a
result group (R51, R52). -/

namespace Sys2Proof.Machine

/-! ### Interrupt causes -/

/-- A cause raised on a page. -/
def Mach.raise (path : List Nat) (bit : Nat) (m : Mach) : Mach :=
  { m with irq := memWrite 0 (pageNo path) (setBit (memRead 0 m.irq (pageNo path)) bit true) m.irq }

/-! ### Result groups (R51, R52) -/

def ResultGroup.start (g : ResultGroup) : ResultGroup := { g with ready := false }
def ResultGroup.complete (g : ResultGroup) : ResultGroup := { serial := g.serial + 1, ready := true }

/-- The `TAG` of a result by how many results there have been. -/
def tagOf (serial : Nat) : Nat := if serial = 0 then 0 else (serial - 1) % 255 + 1

end Sys2Proof.Machine
end

