-- ==== Sys2Proof/Machine/Ops.lean ====
section
/-! DEFINITION. The named operations over the state that the meanings share: the hold of HALT, the clock, notices, mode changes,
the reset of lanes, and switching the ports off. -/

namespace Sys2Proof.Machine

/-! ### A meaning, and the clock -/

/-- The supply supervisor holds HALT for as long as the module is powered, whatever a command asks for (R409).
(DESIGN CHOICE log 78) -/
def Mach.supervise (old new : Mach) : Mach :=
  if old.mod.mode = .halt ∧ new.power.powered = true then { new with mod := { new.mod with mode := .halt } } else new

/-- A meaning changes the module, under the supply supervisor's hold, and leaves the waiting commands alone.
(DESIGN CHOICE log 3, DESIGN CHOICE log 78) -/
def State.run (f : Mach → Mach) (s : State) : Host.Outcome State Fault Refusal :=
  .next { s with m := s.m.supervise (f s.m) }

/-- The instant of a command: time never runs back. (DESIGN CHOICE log 2) -/
def Mach.tick (t : Nat) (m : Mach) : Mach := { m with now := max m.now t }

/-- A free value's number, used up. (DESIGN CHOICE log 79) -/
def Mach.bumpFree (m : Mach) : Mach := { m with freeCtr := m.freeCtr + 1 }

/-! ### Station data and modes -/

def Mach.cycleMs (m : Mach) : Nat :=
  match m.sd with
  | some sd => sd.settings.cycleMs
  | none => 0

/-- C in ns. -/
def Mach.cycleNs (m : Mach) : Nat := m.cycleMs * 1000000

def modeCode : Mode → Nat
  | .dormant => 0 | .boot => 1 | .config => 2 | .join => 3 | .commission => 4 | .service => 5
  | .degraded => 6 | .shadow => 7 | .maintain => 8 | .update => 9 | .quiesce => 10 | .halt => 11

/-- The mirror packet of the cycle is on its links until `mirrorEnd`; before the report there is none. -/
def Mach.mirrorDone (m : Mach) (t : Nat) : Bool := m.pair.mirrorEnd.any (fun e => decide (e ≤ t))

/-- The phase in which a lane stands: the mirror phase ends with the packet's last frame, and sleep entry 4.0 µs after it begins
(R116). -/
def Mach.phaseOf (m : Mach) (l : LaneId) : Phase :=
  let x := m.lane l
  if (x.phase = .mirror ∧ m.mirrorDone m.now = true) ∨ (x.phase = .asleep ∧ m.now < x.sleepEnd) then .sleepEntry else x.phase

/-- The modes in which runs are evaluated (R123). -/
def Mach.evaluates (m : Mach) : Bool :=
  match m.mod.mode with
  | .join | .commission | .service | .degraded | .shadow | .maintain => true
  | .update => !m.mod.activating
  | _ => false

/-- The modes that hand over message words from the committed output region (R123). -/
def Mach.handsOver (m : Mach) : Bool := m.evaluates && m.mod.mode != .join

/-! ### Notices (R434) -/

/-- A notice into a queue of a given size; one that finds it full is dropped and counted. -/
def NoticeQueue.push (cap : Nat) (n : Notice) (q : NoticeQueue) : NoticeQueue :=
  let q := { q with arrived := q.arrived + 1 }
  if q.items.length < cap then { q with items := q.items ++ [n] } else { q with dropped := q.dropped + 1 }

/-- What a drain of the queue leaves. -/
def NoticeQueue.drained (q : NoticeQueue) : NoticeQueue := { arrived := q.arrived }

def Lane.post (n : Notice) (x : Lane) : Lane := { x with queue := x.queue.push 512 n }

/-- A module-level notice: from every lane that is not OUT, and from the supply supervisor where none is left.
(DEDUCED log 10) -/
def Mach.postModule (n : Notice) (m : Mach) : Mach :=
  if laneIds.all m.isOut then { m with power := { m.power with fifo := m.power.fifo.push 64 n } }
  else m.updLanes (fun _ x => if x.agr.life == .out then x else x.post n)

def Mach.postLane (l : LaneId) (n : Notice) (m : Mach) : Mach := m.updLane l (Lane.post n)
/-- Who reports a module event: every lane that is not OUT, else the supply supervisor. (DEDUCED log 10) -/
def Mach.postPower (n : Notice) (m : Mach) : Mach :=
  { m with power := { m.power with fifo := m.power.fifo.push 64 n } }
/-- Callipers and its ports but for the Tool rests. -/
def Mach.postCal (n : Notice) (m : Mach) : Mach := { m with cal := { m.cal with fifo := m.cal.fifo.push 64 n } }
def Mach.postField (n : Notice) (m : Mach) : Mach :=
  { m with field := { m.field with fifo := m.field.fifo.push 64 n } }

/-- An event counter source (R440) with its instance; 0xFF where the group has no qualifier. -/
def ecSrc (src : Nat) (q : Nat := 255) : Byte × Byte := (BitVec.ofNat 8 src, BitVec.ofNat 8 q)

/-- An event code that the manual does not name (R443): its group, and a free number of that group.
(DESIGN CHOICE log 6) -/
def evCode (group k : Nat) : W16 := (BitVec.ofNat 4 group) ++ Config.eventLow k

/-- A notice of a unit without instances, unless one is given. -/
def mkNotice (code : W16) (path : List Nat) (p0 p1 : W32) (cycle : Option W32) (ec : List (Byte × Byte))
    (inst : W16 := 0xFFFF) : Notice :=
  { code := code, unit := pathAddr path, inst := inst, p0 := p0, p1 := p1, cycle := cycle, ec := ec }

/-- A notice of an event counter source, of a page without instances: its code in a group is numbered as the source is.
(DESIGN CHOICE log 6) -/
def srcNotice (group src : Nat) (path : List Nat) (q : Nat) (p0 p1 : W32) (m : Mach) : Notice :=
  mkNotice (evCode group src) path p0 p1 (some m.cycleNo) [ecSrc src q]

/-- A lane that runs cycles: VOTING, or SYNC once it has its phase. -/
def runsCycles (x : Lane) : Bool := x.agr.life == .voting || (x.agr.life == .sync && x.agr.sync != .awaitFrames)

/-! ### Mode changes (R391) -/

/-- Every alive reference undefined again, as it is in JOIN (R339). -/
def loseAlive (c : CommState) : CommState :=
  let f (r : CanRec) : CanRec := { r with alive := none, resync := true }
  { c with can1 := c.can1.map f, can2 := c.can2.map f }

/-- A running sweep ends unfinished (R405). -/
def Mach.endSweep (m : Mach) : Mach :=
  if m.mod.sweepState = 1 then { m with mod := { m.mod with sweepState := 3, sweepFrom := none } } else m

/-- The output drive monitor's reference where no drive record is handed over (R180). -/
def Mach.noReference (m : Mach) : Mach :=
  { m with cal := { m.cal with odm := { m.cal.odm with reference := 0, pendingRec := none } } }

/-- The module takes a mode; one that sends no messages cancels the CAN versions that are pending (R350). HALT is
never left here (R409). -/
def Mach.enterModeAt (cyc : W32) (new : Mode) (m : Mach) : Mach :=
  if m.mod.mode = .halt || m.mod.mode = new then m
  else
    let old := m.mod.mode
    let m := if old = .commission then m.endSweep else m
    let m := { m with mod := { m.mod with mode := new, prev := old, modeCycle := cyc } }
    let serves (x : Mode) : Bool := x == .service || x == .shadow
    let m := { m with bench := { m.bench with upd := { m.bench.upd with
      serviceFrom := if serves new then (if serves old then m.bench.upd.serviceFrom else some m.now) else none
      trialFrom := if serves new then none else m.bench.upd.trialFrom } } }
    let m := if m.handsOver then m else { m with can1 := m.can1.cancelAll, can2 := m.can2.cancelAll }.noReference
    let m := if m.evaluates then m else m.updLanes (fun _ x => { x with keys := [] })
    let m := if new = .join then m.updLanes (fun _ x => { x with comm := loseAlive x.comm }) else m
    let m := m.raise modPath 8
    m.postModule (mkNotice 0x1001 modPath (BitVec.ofNat 32 (modeCode new)) (BitVec.ofNat 32 (modeCode old))
      (some cyc)
      (ecSrc 0x01 :: (if new = .degraded then [ecSrc 0x02] else if new = .halt then [ecSrc 0x03] else [])))

def Mach.enterMode (new : Mode) (m : Mach) : Mach := m.enterModeAt m.cycleNo new

/-! ### Tests of the module (R412, R417, R426) -/

/-- The Bench seconds count at an instant. -/
def Mach.benchSecs (m : Mach) : Nat :=
  m.bench.secs + (if m.bench.clkStopped then 0 else (m.now - m.bench.secsAt) / 1000000000)

/-- When the blocks of a full boot test begin: after the firmware start and checks of R400. (DEDUCED log 57) -/
def Mach.fullTestAt (m : Mach) : Nat := m.mod.bootAt + 180000000

/-- When the shutdown test or full boot test that has no verdict yet began, or is to begin. -/
def Mach.testStart (m : Mach) : Option Nat :=
  if m.bench.test.judged then none
  else if m.mod.mode = .quiesce then some m.power.quiesceAt
  else if m.mod.mode = .boot ∧ m.mod.bootKind = 2 then some m.fullTestAt
  else none

/-- When the one that runs began. -/
def Mach.testFrom (m : Mach) : Option Nat := m.testStart.filter (fun t0 => decide (t0 ≤ m.now))

/-- The test that runs, by its kind and lane on the self-test page: a slice, a shutdown test or a full boot test (R431). -/
def Mach.testRuns (m : Mach) : Option (Nat × Nat) :=
  match m.bench.test.run with
  | some l => some (3, laneCode l)
  | none => m.testFrom.map (fun _ => (if m.mod.mode = .quiesce then 1 else 2, 0))

/-- A test that runs ends without a verdict (R407, R426). -/
def Mach.abandonTest (m : Mach) : Mach :=
  match m.testRuns with
  | none => m
  | some (kind, lane) =>
    ({ m with bench := { m.bench with test := { m.bench.test with
        run := none, judged := true, lastKind := BitVec.ofNat 2 kind, lastResult := 3, lastLane := BitVec.ofNat 2 lane
        lastBlock := 0, lastItem := 0, lastSecs := BitVec.ofNat 32 m.benchSecs } } } : Mach).raise (benchPath 7) 0

/-! ### The ring interfaces -/

def Mach.ring (m : Mach) : RingId → RingIfc
  | .r1 => m.ring1
  | .r2 => m.ring2

def Mach.updRing (i : RingId) (f : RingIfc → RingIfc) (m : Mach) : Mach :=
  match i with
  | .r1 => { m with ring1 := f m.ring1 }
  | .r2 => { m with ring2 := f m.ring2 }

def Mach.ringCfg (m : Mach) (i : RingId) : Option RingCfg :=
  m.sd.map (fun sd => match i with | .r1 => sd.ring1 | .r2 => sd.ring2)

def otherRing : RingId → RingId
  | .r1 => .r2
  | .r2 => .r1

/-- The interface of `TIME_IF`. -/
def Mach.timeIf (m : Mach) : RingId :=
  match m.sd with
  | some sd => sd.settings.timeIf
  | none => .r1

/-- The interface that logic timing follows (R287): the one named by `TIME_IF`, or the other while only that one is synchronised.
(DEDUCED log 43) -/
def Mach.timeRingId (m : Mach) : RingId :=
  let main := m.timeIf
  if !(m.ring main).sync && (m.ring (otherRing main)).sync then otherRing main else main

/-! ### The identity area (R457, R458) -/

/-- What a write of the identity area puts down, under the next sequence number. (DESIGN CHOICE log 102) -/
def Mach.areaNow (m : Mach) : AreaRecord :=
  let u := m.bench.upd
  { seq := u.slotSeq + 1, ident := m.ident, fwA := u.fwA.state, fwB := u.fwB.state, sdA := u.sdA.state, sdB := u.sdB.state
    trial := u.trial, boots := u.trialBoots, filled := u.keysFilled, retired := u.keysRetired, fwGen := u.fwGen }

/-- The identity area is written: on one device, over the copy that is not in force. (DESIGN CHOICE log 102) -/
def Mach.writeArea (m : Mach) : Mach :=
  let u := m.bench.upd
  let c : AreaCopy := { held := m.areaNow, crc := crc32 (areaBytes m.areaNow) }
  let second := u.area1.held.seq == u.slotSeq
  { m with bench := { m.bench with upd := { u with
    slotSeq := u.slotSeq + 1, area1 := if second then u.area1 else c, area2 := if second then c else u.area2 } } }

/-- On trial the slot record is written. -/
def Mach.trialWritten (m : Mach) : Mach := if m.bench.upd.trial.isSome then m.writeArea else m

def AreaCopy.valid (c : AreaCopy) : Bool := c.crc == crc32 (areaBytes c.held)

/-- The newer copy whose CRC-32 is correct. (DESIGN CHOICE log 102) -/
def Update.inForce (u : Update) : Option AreaRecord :=
  match u.area1.valid, u.area2.valid with
  | true, true => some (if u.area1.held.seq < u.area2.held.seq then u.area2.held else u.area1.held)
  | true, false => some u.area1.held
  | false, true => some u.area2.held
  | false, false => none

/-- States that the slot record names. -/
def namedState (s : SlotState) : Bool := s == .active || s == .trial || s == .previous

/-- A slot as the slot record names it; one that it does not name holds a verified set or nothing. -/
def Slot.named (st : SlotState) (s : Slot) : Slot :=
  if namedState st then { s with state := st }
  else if namedState s.state then { s with state := if s.manifest.isSome then .verified else .empty }
  else s

/-- At boot the module takes the copy that is in force. -/
def Mach.readArea (m : Mach) : Mach :=
  match m.bench.upd.inForce with
  | none => m
  | some r =>
    let u := m.bench.upd
    { m with ident := r.ident, bench := { m.bench with upd := { u with
      slotSeq := r.seq, fwA := u.fwA.named r.fwA, fwB := u.fwB.named r.fwB, sdA := u.sdA.named r.sdA, sdB := u.sdB.named r.sdB
      trial := r.trial, trialBoots := r.boots, keysFilled := r.filled, keysRetired := r.retired, fwGen := r.fwGen } } }

/-- The write of the newer copy was cut short: its CRC is what the device then holds. -/
def Mach.cutArea (crc : W32) (m : Mach) : Mach :=
  let u := m.bench.upd
  let first := u.area1.held.seq == u.slotSeq && u.area2.held.seq != u.slotSeq
  { m with bench := { m.bench with upd := { u with
    area1 := if first then { u.area1 with crc := crc } else u.area1, area2 := if first then u.area2 else { u.area2 with crc := crc } } } }

/-! ### Lanes and Callipers in reset -/

/-- What a lane's reset clears beside its state (R150): its timer phase, run, exchange buffer, divergence table,
message buffer and drive, and the place of Sander (R427). Counters and the values the supply supervisor holds stay (R163).
(DEDUCED log 11) -/
def Lane.clear (now : Nat) (x : Lane) : Lane :=
  { x with
    phase := .asleep, awake := false, sleepEnd := 0, sampled := false
    cop := { x.cop with active := false, acc := false, next := 0, ended := false, holdSrc := 0 }
    xch := {}
    agr := { x.agr with
      sync := .awaitFrames, waiting := false, intact := 0, accept := 0, sysDig := 0
      exclUntil := ⟨none, none, none⟩, skewLo := 0, skewHi := 0, div := [], bigRun := ⟨0, 0, 0⟩
      missRun := ⟨0, 0, 0⟩ }
    msgBuf := [], hoImage := 0, keys := []
    snd := { x.snd with
      pos := 0, found := false, late := false, bringForward := false, passFrom := now
      nextDue := now + 125000000 }
    drive := { latched := 0, latchAt := now, windings := 0, changedAt := now } }

/-- A lane held in reset by the supply supervisor, as in DORMANT and HALT (R390, R397). (DEDUCED log 12) -/
def Lane.hold (now : Nat) (x : Lane) : Lane :=
  let x := x.clear now
  { x with agr := { x.agr with life := .out, held := true, inReset := false } }

/-- HALT and DORMANT hold the lanes OUT without counting an OUT entry or changing AGR.OUT.CAUSE. (DEDUCED log 12) -/
def Mach.holdLanes (m : Mach) : Mach := m.updLanes (fun _ x => x.hold m.now)

def RingPort.off (x : RingPort) : RingPort :=
  { x with up := false, driving := false, service := false, loop := false, lost := false, checkFrom := none, measures := [], checks := [], errors := [] }
def ToolRest.off (x : ToolRest) : ToolRest :=
  { x with state := .closed, tb := x.tb.clear, openSlot := none, sending := none, joined := false }

/-- The matrix cycle count that an interface holds when it loses its ring time (R293). (DEDUCED log 42) -/
def RingIfc.keepCount (now : Nat) (r : RingIfc) : RingIfc :=
  if r.sync then { r with held := some r.matrix, heldAt := now } else r

/-- A ring interface that drives nothing: DOWN, its Tool rests closed (R298, R397). -/
def RingIfc.off (now : Nat) (x : RingIfc) : RingIfc :=
  { x.keepCount now with
    ifc := .down, role := 0, looped := false, turn := 0, tb := x.tb.clear, ibuf := [], joinOk := false
    csOut := none, stimeRef := none, validRun := 0, closeAt := none, queue := [], settled := [], sentFrames := [], loopSeen := []
    east := x.east.off, west := x.west.off, restE := x.restE.off, restW := x.restW.off }

def roleCode : PairRole → Nat
  | .none => 0
  | .lead => 1
  | .shadow => 2
  | .joining => 3

def PairLink.off (x : PairLink) : PairLink := { x with up := false, service := false, run := 0, line := [] }

/-- The pair with both links off: no role, no partner that a link shows (R373, R389). -/
def PairState.off (lostAt : Option Nat) (p : PairState) : PairState :=
  { p with
    role := .none, roleChg := if p.role = .none then p.roleChg else satInc p.roleChg, present := false, goneAt := p.goneAt.or lostAt
    ready := false, halves := [], packet := none, accesses := [], asked := [], mirrorEnd := none, l1 := p.l1.off, l2 := p.l2.off }

/-- The causes of the pair link page that its going off raises: role changed, a link left service, partner lost (R389). -/
def Mach.pairOffIrq (m : Mach) (lost : Bool) : List (Nat × W32) :=
  let on (b : Bool) (k : Nat) (v : W32) : W32 := if b then setBit v k true else v
  memWrite 0 (pageNo pairPath)
    (on (m.pair.role != .none) 0 (on (m.pair.l1.service || m.pair.l2.service) 1 (on lost 3 (memRead 0 m.irq (pageNo pairPath))))) m.irq

/-- The notice of a role given up. -/
def Mach.pairOffNotice (m : Mach) : NoticeQueue :=
  if m.pair.role = .none then m.cal.fifo
  else m.cal.fifo.push 64 (srcNotice 0xA 0xA3 pairPath 255 (BitVec.ofNat 32 (roleCode .none)) (BitVec.ofNat 32 (roleCode m.pair.role)) m)

/-- Every transmit driver disabled and every port off (R184, R397). -/
def Mach.portsOff (m : Mach) : Mach :=
  let lost := m.sd.any (fun sd => sd.pair.paired) && m.pair.goneAt.isNone && !m.inLastCycle m.pair.sightIn
  { m with
    irq := m.pairOffIrq lost
    cal := { m.cal with
      txOn := false, fifo := m.pairOffNotice, csc := { m.cal.csc with running := false }
      vote := { m.cal.vote with slots := [], held := [], released := [], ended := 0, firstEnd := none } }
    ring1 := m.ring1.off m.now, ring2 := m.ring2.off m.now
    can1 := m.can1.off, can2 := m.can2.off
    jxt := { m.jxt with redUp := false, blueUp := false, conns := m.jxt.conns.map (fun c => { c with groups := [] }) }
    pair := m.pair.off (if lost then some m.now else none) }

end Sys2Proof.Machine
end

