-- ==== Sys2Proof/Machine/Vector.lean ====
section
/-! DEFINITION. The state vector and the timer cells of a lane (R82 to R103, R111): the grains' address maps, the
two halves with their selectors, and the vector, cells and regions in true grain. -/

namespace Sys2Proof.Machine

/-! ### Address maps (R97) -/

/-- The bits of `n` rearranged: bit `j` of the result is bit `tbl[j]` of `n`. -/
def permBits (tbl : List Nat) (n : Nat) : Nat :=
  (tbl.zipIdx).foldl (fun a p => if n.testBit p.1 then a ||| 2 ^ p.2 else a) 0

/-- The inverse rearrangement. -/
def unpermBits (tbl : List Nat) (n : Nat) : Nat :=
  (tbl.zipIdx).foldl (fun a p => if n.testBit p.2 then a ||| 2 ^ p.1 else a) 0

/-- The grain of a lane, as its straps give it (R12). -/
def Mach.grain (m : Mach) (l : LaneId) : Grain := (m.lane l).strap

def grainCode : Grain → Nat
  | .true => 0
  | .cross => 1
  | .counter => 2

/-- P: where a lane stores the true-grain state bit `n`. -/
def stateAddr (g : Grain) (h : ImageHeader) (n : Nat) : Nat :=
  match g with
  | .cross => permBits h.pi n ^^^ h.key.toNat
  | _ => n

/-- The true-grain address of what a lane stores at `a`. -/
def trueAddr (g : Grain) (h : ImageHeader) (a : Nat) : Nat :=
  match g with
  | .cross => unpermBits h.pi (a ^^^ h.key.toNat)
  | _ => a

/-- Q: where a lane stores the true-grain timer cell `k`. -/
def cellAddr (g : Grain) (h : ImageHeader) (k : Nat) : Nat :=
  match g with
  | .cross => permBits h.sigma k ^^^ h.keyT.toNat
  | _ => k

def trueCell (g : Grain) (h : ImageHeader) (a : Nat) : Nat :=
  match g with
  | .cross => unpermBits h.sigma (a ^^^ h.keyT.toNat)
  | _ => a

/-- A bit as a lane stores it (R100). -/
def grainBit (g : Grain) (b : Bool) : Bool :=
  match g with
  | .counter => !b
  | _ => b

def grainWord (g : Grain) (w : W32) : W32 :=
  match g with
  | .counter => ~~~w
  | _ => w

/-- What a lane's unlisted state words and timer cells read as: true-grain 0. (DESIGN CHOICE log 65) -/
def vecDefault (g : Grain) : W32 := grainWord g 0

/-! ### The two halves (R111) -/

/-- A stored state word through the working selectors, and through the committed ones. -/
def Stores.workWord (g : Grain) (s : Stores) (w : Nat) : W32 :=
  memRead (vecDefault g) (if s.selWork.getLsbD w then s.half1 else s.half0) w

def Stores.doneWord (g : Grain) (s : Stores) (w : Nat) : W32 :=
  memRead (vecDefault g) (if s.selDone.getLsbD w then s.half1 else s.half0) w

/-- A word written in a run: the first write goes to the half that does not hold the committed value. -/
def Stores.putWord (g : Grain) (w : Nat) (v : W32) (s : Stores) : Stores :=
  let to1 := if s.selWork.getLsbD w = s.selDone.getLsbD w then !s.selDone.getLsbD w else s.selWork.getLsbD w
  let s := { s with selWork := setBit s.selWork w to1 }
  if to1 then { s with half1 := memWrite (vecDefault g) w v s.half1 }
  else { s with half0 := memWrite (vecDefault g) w v s.half0 }

/-- Stored bit `a` of the working vector, as it stands and written (R82). -/
def Stores.workBit (g : Grain) (s : Stores) (a : Nat) : Bool := (s.workWord g (a / 32)).getLsbD (a % 32)

def Stores.putBit (g : Grain) (a : Nat) (b : Bool) (s : Stores) : Stores :=
  s.putWord g (a / 32) (setBit (s.workWord g (a / 32)) (a % 32) b)

/-- A stored timer cell. -/
def Stores.cell (g : Grain) (s : Stores) (a : Nat) : W32 := memRead (vecDefault g) s.timers a

def Stores.putCell (g : Grain) (a : Nat) (v : W32) (s : Stores) : Stores :=
  { s with timers := memWrite (vecDefault g) a v s.timers }

/-! ### Regions and true grain (R85, R103) -/

def inInput (n : Nat) : Bool := decide (n < 0x10000)
def inOutput (n : Nat) : Bool := decide (0x10000 ≤ n) && decide (n < 0x20000)
def inSystem (n : Nat) : Bool := decide (0x24000 ≤ n) && decide (n < 0x24400)
def inInternal (n : Nat) : Bool := decide (0x24400 ≤ n) && decide (n < 0x40000)

/-- Bit `n` of the committed vector in true grain; 0 where no image is loaded. -/
def Lane.trueBit (g : Grain) (x : Lane) (n : Nat) : Bool :=
  match x.mem.header with
  | some h =>
    let a := stateAddr g h n
    grainBit g ((x.mem.doneWord g (a / 32)).getLsbD (a % 32))
  | none => false

/-- A committed timer cell in true grain. -/
def Lane.trueCellWord (g : Grain) (x : Lane) (k : Nat) : W32 :=
  match x.mem.header with
  | some h => grainWord g (x.mem.cell g (cellAddr g h k))
  | none => 0

/-- Word `w` of the committed vector in true grain. -/
def Lane.trueWord (g : Grain) (x : Lane) (w : Nat) : W32 :=
  (List.range 32).foldl (fun v i => setBit v i (x.trueBit g (32 * w + i))) 0

/-- A stored word in which every bit whose true-grain address satisfies `p` takes the value `v` gives for it. -/
def mapWord (g : Grain) (h : ImageHeader) (p v : Nat → Bool) (w : Nat) (old : W32) : W32 :=
  (List.range 32).foldl
    (fun x i => let n := trueAddr g h (32 * w + i)
      if p n then setBit x i (grainBit g (v n)) else x) old

/-- Whether a stored word holds a bit of the region `p`. -/
def touches (g : Grain) (h : ImageHeader) (p : Nat → Bool) (w : Nat) : Bool :=
  (List.range 32).any (fun i => p (trueAddr g h (32 * w + i)))

/-- The bits of a region placed in the working vector, word by word. -/
def Stores.place (g : Grain) (h : ImageHeader) (p v : Nat → Bool) (s : Stores) : Stores :=
  (List.range 8192).foldl
    (fun s w => if touches g h p w then s.putWord g w (mapWord g h p v w (s.workWord g w)) else s) s

/-- A whole committed vector and timer content, given in true grain (R95, R156). -/
def Stores.load (g : Grain) (h : ImageHeader) (v : Nat → Bool) (cells : Nat → W32) (s : Stores) : Stores :=
  { s with
    half0 := memBuild (vecDefault g) (List.range 8192) (fun w => mapWord g h (fun _ => true) v w 0)
    half1 := []
    selDone := 0, selWork := 0
    timers := memBuild (vecDefault g) (List.range 16384) (fun a => grainWord g (cells (trueCell g h a))) }

/-- A committed bit, and a committed cell, replaced between runs, given in true grain (R379, R385). -/
def Stores.setTrueBit (g : Grain) (h : ImageHeader) (n : Nat) (b : Bool) (s : Stores) : Stores :=
  let a := stateAddr g h n
  let v := setBit (s.doneWord g (a / 32)) (a % 32) (grainBit g b)
  if s.selDone.getLsbD (a / 32) then { s with half1 := memWrite (vecDefault g) (a / 32) v s.half1 }
  else { s with half0 := memWrite (vecDefault g) (a / 32) v s.half0 }

def Stores.setTrueCell (g : Grain) (h : ImageHeader) (k : Nat) (w : W32) (s : Stores) : Stores :=
  s.putCell g (cellAddr g h k) (grainWord g w)

/-- The committed selectors take the working ones, in one step (R84, R111). -/
def Stores.commit (s : Stores) : Stores := { s with selDone := s.selWork }

/-- A committed output variable of a voting lane, in true grain: permits and the other named variables (R394). -/
def Mach.committed (m : Mach) (l : LaneId) (n : Nat) : Bool := (m.lane l).trueBit (m.grain l) n

end Sys2Proof.Machine
end

