-- ==== Sys2Proof/Machine/Poles.lean ====
section
/-! DEFINITION. The poles of the safety outputs and what turns them off (R174 to R176, R218 to R236, R499): drive and
gate supply, findings, the resolution of test pulses, forced offs, and HALT with them (R184, R408). -/

namespace Sys2Proof.Machine

/-! ### Access -/

def Mach.updField (f : Field → Field) (m : Mach) : Mach := { m with field := f m.field }
def Mach.updFsm (f : Fsm → Fsm) (m : Mach) : Mach := m.updField (fun x => { x with fsm := f x.fsm })
def Mach.updOut (n : Nat) (f : OutCh → OutCh) (m : Mach) : Mach := m.updField (fun x => { x with out := modAt f n x.out })
def Mach.outCfg (m : Mach) (n : Nat) : Option OutCfg := m.sd.bind (fun sd => sd.out[n]?)
def outUsed (m : Mach) (n : Nat) : Bool := m.outCfg n |>.any (fun c => c.used)

def Fsm.held (x : Fsm) : Bool := x.sag || x.rev || x.high

/-- The field section is in operation: its supply's last sample is 8 V or more (R210). (DEDUCED log 18) -/
def Mach.fieldRuns (m : Mach) : Bool :=
  m.power.powered && (match m.field.fsm.samples with | v :: _ => decide (800 ≤ v) | [] => false)

/-- The field supply allows the field blocks (R416): within 19.2 V to 30.0 V, no condition held. -/
def Mach.fieldFit (m : Mach) : Bool :=
  let v := m.field.fsm.volt.toInt
  decide (1920 ≤ v) && decide (v ≤ 3000) && !m.field.fsm.held

/-- Posts a notice of event counter sources of the outputs, with the output as instance. -/
def Mach.noteOut (n : Nat) (srcs : List Nat) (m : Mach) : Mach :=
  match srcs with
  | [] => m
  | s :: _ => m.postField (mkNotice (evCode 5 s) (fieldPath 2) 0 0 (some m.cycleNo)
      (srcs.map (fun x => ecSrc x n)) (BitVec.ofNat 16 n))

/-! ### Windings and poles (R174, R175, R499) -/

/-- A pole's winding of a lane: the image bit its windings follow, unless a test pulse of the lane's own kind drives the
tested pole differently, or the lane's pulse has become a real off (R223, R228). -/
def windingOn (m : Mach) (n : Nat) (x : OutCh) (p : Pole) (l : LaneId) : Bool :=
  if x.tpole = p ∧ inMask x.pulseLanes l ∧ (m.lane l).agr.life = .voting then !inMask x.darkLanes l
  else if x.tpole = p ∧ inMask x.offLanes l then false
  else (m.lane l).drive.windings.getLsbD n

/-- How far the drive-period boundaries of two lanes lie apart, in ns. -/
def boundaryGap (a b : Nat) : Nat :=
  let d := (max a b - min a b) % 40000
  min d (40000 - d)

/-- What the windings of a pole do to its gate. -/
inductive GateDrive where
  | off | band | on
  deriving DecidableEq, Repr

/-- Drive gate: two windings in phase and the third opposed is on, the poles follow at once, 4 µs to 12 µs apart is a free value. (DEDUCED log 22) -/
def gateDrive (ts : List Nat) : GateDrive :=
  let gaps := match ts with
    | [a, b] => [boundaryGap a b]
    | [a, b, c] => [boundaryGap a b, boundaryGap a c, boundaryGap b c]
    | _ => []
  if gaps.any (· ≤ 4000) then .on else if gaps.any (· ≤ 12000) then .band else .off

/-- The gate supply of a pole (R219): watchdog and inhibit switches closed, and a field supply to switch. -/
def gateSupply (m : Mach) (x : OutCh) : Bool := !m.cal.odm.tripped && !x.inhibit && m.fieldRuns

/-- What the windings driven on a pole make of its gate voltage (R175). -/
def windingDrive (m : Mach) (n : Nat) (x : OutCh) (p : Pole) : GateDrive :=
  gateDrive ((laneIds.filter (windingOn m n x p)).map (fun l => (m.lane l).t0))

/-- A pole as its windings drive it. (DEDUCED log 22) -/
def poleDrive (m : Mach) (n : Nat) (x : OutCh) (p : Pole) : GateDrive :=
  if gateSupply m x then windingDrive m n x p else .off

/-- The output after its drive changed. While no pulse runs, an energise starts the 1 ms of R222, and a current below `IMIN`
counts only as long as both poles are driven. -/
def OutCh.driven (now : Nat) (x : OutCh) : OutCh :=
  let x := { x with settleAt := now, judgeRun := 0 }
  if x.test.isSome then x
  else { x with driveAt := now, lowCurAt := if x.drvPos && x.drvNeg then x.lowCurAt else none }

/-- A pole follows its drive. One whose windings lie 4 to 12 µs apart takes a free value. -/
def Mach.setPole (n : Nat) (p : Pole) (m : Mach) : Mach :=
  match m.field.out[n]? with
  | none => m
  | some x =>
    let d := poleDrive m n x p
    let b := match d with | .on => true | .off => false | .band => Config.freePole m.freeCtr
    let m := if d = .band then m.bumpFree else m
    match p with
    | .pos =>
      if x.drvPos = b then m else m.updOut n (fun x => { x with drvPos := b }.driven m.now)
    | .neg =>
      if x.drvNeg = b then m else m.updOut n (fun x => { x with drvNeg := b }.driven m.now)

/-- Every pole follows its drive. -/
def Mach.refreshPoles (m : Mach) : Mach :=
  (List.range 24).foldl (fun m n => (m.setPole n .pos).setPole n .neg) m

/-! ### Availability and findings (R227, R232, R233) -/

/-- An output is overdue for a test (R227). (DESIGN CHOICE log 112) -/
def OutCh.isOverdue (x : OutCh) : Bool := decide (8 ≤ x.noPos) || decide (8 ≤ x.noNeg)

/-- The output is available once nothing forbids it. (DESIGN CHOICE log 112) -/
def Mach.outAvail (n : Nat) (m : Mach) : Mach :=
  match m.field.out[n]? with
  | none => m
  | some x =>
    if x.isFault || x.latch || x.unusable || m.field.fsm.held then m
    else if x.isOverdue && outUsed m n then m.updOut n (fun x => { x with fault := 0xA, avail := false })
    else
      let m := m.updOut n (fun x => { x with fault := 0, avail := true })
      if x.avail then m else (m.raise (fieldPath 2) 1).noteOut n [0x41]

/-- A test of an output ends; one that ends inside its 200 µs ends its drive now. -/
def OutCh.endTest (now : Nat) (x : OutCh) : OutCh :=
  { x with test := none, tphase := 0, pulseEnd := if x.test.isSome then x.pulseEnd.map (min now) else x.pulseEnd }

/-- A pulse was judged on a pole. -/
def OutCh.judgedPulse (p : Pole) (pass : Bool) (x : OutCh) : OutCh :=
  let x := { x with done := satInc x.done, judged := x.judged + 1 }
  match p with
  | .pos => { x with posOk := pass, posAge := 0, noPos := 0, judgedPos := true, swPos := x.swPos || pass }
  | .neg => { x with negOk := pass, negAge := 0, noNeg := 0, judgedNeg := true, swNeg := x.swNeg || pass }

def Mach.pulseJudged (n : Nat) (pass : Bool) (m : Mach) : Mach :=
  let m := m.updOut n (fun x => (x.endTest m.now).judgedPulse x.tpole pass)
  match m.field.out[n]? with
  | some x => if x.fault = 0xA then m.outAvail n else m
  | none => m

/-- A pulse was discarded: it is repeated 5 ms after its start, at most twice in its slot (R226). (DEDUCED log 24) -/
def Mach.pulseDiscard (n : Nat) (start : Nat) (p : Pole) (m : Mach) : Mach :=
  (m.updOut n (fun x =>
    let x := { x.endTest m.now with disc := satInc x.disc }
    let k := match p with | .pos => x.repeatsPos | .neg => x.repeatsNeg
    { x with repeatDue := if k < 2 then some (p, start + 5000000) else none })).noteOut n [0x44]

/-- A finding that is not FAULT: the output is unavailable, its poles not forced. -/
def Mach.outUnavail (n code : Nat) (m : Mach) : Mach :=
  match m.field.out[n]? with
  | none => m
  | some x =>
    if x.isFault || x.latch || x.unusable || m.field.fsm.held || x.fault.toNat == code then m
    else
      let m := m.updOut n (fun x => { x with
        fault := BitVec.ofNat 4 code, avail := false, faults := satInc x.faults, healthyAt := none })
      let m := if m.mod.sweepState = 1 ∧ m.mod.sweepStep.toNat = n then { m with mod := { m.mod with sweepBad := true } } else m
      if x.avail then (m.raise (fieldPath 2) 0).noteOut n [0x40] else m

/-- Codes latched until module power-up. -/
def codeLatches (code : Nat) : Bool := code == 4 || code == 5 || code == 8

/-- A FAULT finding of an output on which no pulse runs: both inhibit switches open, the output unavailable and not armed. A
latched output keeps its code, except that code 0x8 takes precedence, and that a held-high or held-low readback names the
cause of a dark pulse that found its pole not opening. (DEDUCED log 23) -/
def Mach.takeFault (n code : Nat) (m : Mach) : Mach :=
  match m.field.out[n]? with
  | none => m
  | some x =>
    let named := x.fault == 4 && ((x.fromDark == some .pos && code == 1) || (x.fromDark == some .neg && code == 2))
    if x.unusable || x.fault.toNat == code || (x.latch && code != 8 && !named) then m
    else
      let m := m.updOut n (fun x => { x with
        fault := BitVec.ofNat 4 code, isFault := true, avail := false, armed := false, inhibit := true
        latch := codeLatches code, faults := satInc x.faults, healthyAt := none, fromDark := none, repeatDue := none })
      let m := if m.mod.sweepState = 1 ∧ m.mod.sweepStep.toNat = n then { m with mod := { m.mod with sweepBad := true } } else m
      let m := (m.setPole n .pos).setPole n .neg
      let m := if x.avail then m.raise (fieldPath 2) 0 else m
      let m := if codeLatches code then m.raise (fieldPath 2) 2 else m
      let m := if code = 8 then m.raise (fieldPath 2) 3 else m
      m.noteOut n ((if x.avail then [0x40] else []) ++ (if codeLatches code then [0x42] else []) ++
        (if code = 8 then [0x43] else []))

/-- A dark pulse is kept on its open check alone: a pole that did not open is a finding, whose cause a later readback may
name (R224, R232). -/
def Mach.keepDark (n : Nat) (x : OutCh) (m : Mach) : Mach :=
  let m := m.pulseJudged n x.pendOk
  if x.pendOk then m else (m.takeFault n 4).updOut n (fun y => { y with fromDark := some x.tpole })

/-- A forced off meets a pulse that runs (R228): a dark pulse whose open check had ended is judged on it, any other is
discarded. A light pulse's windings stop at once. -/
def Mach.forcedOff (n : Nat) (m : Mach) : Mach :=
  match m.field.out[n]? with
  | none => m
  | some x =>
    match x.test with
    | none => m
    | some .dark =>
      if x.pulseAt + 190000 ≤ m.now ∧ x.pendMatch then m.keepDark n x else m.pulseDiscard n x.pulseAt x.tpole
    | some .light => (m.pulseDiscard n x.pulseAt x.tpole).updOut n (fun y => { y with pulseLanes := 0, verifyTo := 0 })

/-- A FAULT finding: a forced off for a pulse that runs on the output, then FAULT (R228, R232). -/
def Mach.outFault (n code : Nat) (m : Mach) : Mach := (m.forcedOff n).takeFault n code

/-! ### Forced offs (R228, R234) -/

/-- Every pulse that runs meets a forced off, and every pole follows its drive. -/
def Mach.forcedOffAll (m : Mach) : Mach :=
  ((List.range 24).foldl (fun m n => m.forcedOff n) m).refreshPoles

/-- A field supply hold at the outputs: every inhibit switch opens, code 0x7, and no output is left armed.
(DEDUCED log 23, DESIGN CHOICE log 111) -/
def Mach.outHold (m : Mach) : Mach :=
  let m := (List.range 24).foldl (fun m n => m.forcedOff n) m
  let m := (List.range 24).foldl (fun m n =>
    match m.field.out[n]? with
    | none => m
    | some x =>
      let m := m.updOut n (fun x =>
        let x := { x with armed := false, inhibit := true, avail := false, repeatDue := none }
        if x.isFault || x.latch || x.unusable then x else { x with fault := 7 })
      if x.avail then (m.raise (fieldPath 2) 0).noteOut n [0x40] else m) m
  m.refreshPoles

/-- The release of a hold at the outputs. -/
def Mach.outRelease (m : Mach) : Mach :=
  (List.range 24).foldl (fun m n =>
    (m.updOut n (fun x => { x with
      settleAt := m.now, judgeRun := 0, healthyAt := none, fault := if x.fault = 7 then 0 else x.fault })).outAvail n) m

/-! ### HALT (R184, R408) -/

/-- The token is cleared: both copies are discarded (R408, R420). -/
def Mach.eraseToken (m : Mach) : Mach :=
  { m with bench := { m.bench with test := { m.bench.test with token0 := none, token1 := none } } }

/-- The module takes HALT for a cause of R408: lanes held in reset with their windings stopped, transmit drivers
disabled, the token cleared, the cause recorded. On trial it counts as a failed boot (R473). (DEDUCED log 12) -/
def Mach.enterHalt (cause : Byte) (src : Nat) (m : Mach) : Mach :=
  if m.mod.mode = .halt then m
  else
    let cyc := m.cycleNo
    let m := m.abandonTest
    let m : Mach := { m with
      mod := { m.mod with haltCause := cause, haltSrc := BitVec.ofNat 3 src, haltCycle := cyc }
      bench := { m.bench with upd := { m.bench.upd with
        trialBoots := if m.bench.upd.trial.isSome then satInc m.bench.upd.trialBoots else m.bench.upd.trialBoots } } }
    let m := m.trialWritten.holdLanes.forcedOffAll.portsOff.eraseToken.enterModeAt cyc .halt
    let m := m.raise modPath 11
    m.postModule (mkNotice 0x1005 modPath (cause.setWidth 32) cyc (some cyc) [])

/-- HALT by Callipers (R184), with the code of `CSC.HALT.CAUSE`. -/
def Mach.haltCallipers (code : Byte) (m : Mach) : Mach :=
  if m.mod.mode = .halt then m
  else
    let cyc := m.cycleNo
    ({ m with cal := { m.cal with csc := { m.cal.csc with haltCause := code, haltCycle := cyc } } } : Mach).enterHalt
      0x01 4

/-- HALT by the lanes jointly. -/
def Mach.haltLanes (cause : Byte) (m : Mach) : Mach := m.enterHalt cause 6

end Sys2Proof.Machine
end

