-- ==== Sys2Proof/Machine/Can.lean ====
section
/-! DEFINITION. The CAN FD ports (R342 to R367): release of versions, the ends of frames, windows, receipt,
ownership, and error states. -/

namespace Sys2Proof.Machine

/-! ### Access -/

def Mach.can (m : Mach) : CanId → CanPort
  | .p1 => m.can1
  | .p2 => m.can2

def Mach.updCan (p : CanId) (f : CanPort → CanPort) (m : Mach) : Mach :=
  match p with
  | .p1 => { m with can1 := f m.can1 }
  | .p2 => { m with can2 := f m.can2 }

/-- The port's settings, with the identifiers of this module's copy (R347). -/
def Mach.canCfg (m : Mach) (p : CanId) : Option CanCfg :=
  m.sd.map (fun sd => canForCopy (sd.pair.paired && m.ident.copy == 1) (match p with | .p1 => sd.can1 | .p2 => sd.can2))

def canBuf (c : CanCfg) (b : Nat) : Option BufCfg := c.bufs[b]?

def CanPort.updBuf (b : Nat) (f : CanBuf → CanBuf) (x : CanPort) : CanPort := { x with bufs := modAt f b x.bufs }

/-- Posts a notice of an event counter source of group 0x9, with the port as its qualifier. -/
def Mach.noteCan (p : CanId) (src : Nat) (p0 p1 : W32) (m : Mach) : Mach :=
  m.postCal (srcNotice 9 src (canPath p 1) (canNo p) p0 p1 m)

/-- A data or reference frame may be sent (R344): a mode that hands messages over, drivers enabled, and a port
that is on, not in bus-off and not listen-only. -/
def Mach.canSends (m : Mach) (p : CanId) : Bool :=
  m.cal.txOn && m.handsOver && ((m.can p).mode == 1 || (m.can p).mode == 2) &&
    !(match m.canCfg p with | some c => c.listen | none => true)

/-! ### Frames (R346) -/

/-- The frame of a version: the buffer's configuration and the voted payload words. -/
def canFrameOf (x : CanPort) (c : BufCfg) (words : List W64) : CanFrame :=
  { id := c.id, ide := c.ide, fdf := c.fdf, brs := c.brs, esi := c.fdf && x.mode == 2, rtr := false, dlc := c.dlc
    data := (words.tail.flatMap bytes64).take (dlcBytes c.fdf c.dlc) }

/-- `TX_LATE` or `TAT_LATE` of a buffer in ns (R348, R349). -/
def canLateNs (m : Mach) (c : BufCfg) : Nat :=
  (c.late.getD (if c.kind = .atTime then 1000 else m.cycleMs * 1000)) * 1000

/-! ### Release (R348 to R350, R354, R361) -/

/-- The version that a release replaces is cancelled, and counted whatever its outcome (R351). An exclusive one
whose window has not opened is recorded as status 7 (R354). (DEDUCED log 30) -/
def CanBuf.replace (kind : TxKind) (begun : Bool) (x : CanBuf) : CanBuf :=
  match x.version with
  | none => x
  | some v =>
    let x := if x.next.isSome then { (x.outcome (if kind = .exclusive then 7 else 3) true) with cancelled := satInc x.cancelled, next := none } else x
    let x := if v.replaced then x
      else { x with cancelled := satInc x.cancelled, version := some { v with replaced := true } }
    if kind = .exclusive ∧ begun = false then (x.outcome 7 true).advance
    else if begun then x.cancel true else (x.outcome 3 true).advance

/-- T0 + `TAT` of a version (R349), or none where its buffer or its word 0 gives no time. -/
def tatAt (kind : TxKind) (v : Version) : Option Nat :=
  let tat := ((v.words.headD 0) >>> 48).toNat
  if kind = .atTime ∧ tat ≠ 0xFFFF then some (v.t0 + tat * 1000) else none

/-- When a version's cancel is registered: `TX_LATE` after it became pending (R348), or at T0 + `TAT` + `TAT_LATE` (R349).
(DEDUCED log 30) -/
def versionDue (m : Mach) (c : BufCfg) (v : Version) : Option Nat :=
  match c.kind, tatAt c.kind v with
  | .event, _ => v.pending.map (· + canLateNs m c)
  | .atTime, some at0 => some (at0 + canLateNs m c)
  | .atTime, none => v.pending.map (· + canLateNs m c)
  | _, _ => none

/-- Whether the bus is idle where a version becomes pending while the port has begun nothing is the bus's affair: a free
value. A frame of another node that occupies it ends with a CAN_FRAME_RECEIVE or a CAN_BUS_ERROR. (DEDUCED log 30) -/
def Mach.canStart (p : CanId) (cfg : CanCfg) (m : Mach) : Mach :=
  if Config.busIdle (canNo p) m.now then m.updCan p (CanPort.startNext cfg m.now) else m

/-- A voted version released to a transmit buffer. -/
def Mach.releaseCan (p : CanId) (b : Nat) (words : List W64) (cycle : W32) (m : Mach) : Mach :=
  match m.canCfg p with
  | none => m
  | some cfg =>
    match canBuf cfg b with
    | none => m
    | some c =>
      let w0 := words.headD 0
      let tat := (w0 >>> 48).toNat
      let begun := (m.can p).bus == some b
      let v : Version :=
        { words := words, cycle := cycle, t0 := (m.lane m.countLane).t0, released := m.now, pending := none, cancel := false
          replaced := false }
      let v := { v with pending := if (tatAt c.kind v).all (fun a => decide (a ≤ m.now)) then some m.now else none }
      let bad := (w0 <<< 16) ≠ 0 || (tat ≠ 0xFFFF && c.kind ≠ .atTime)
      (m.updCan p (fun x => x.updBuf b (fun y =>
        let y := y.replace c.kind begun
        if bad then y.outcome 7 false
        else if y.block ≠ 0 then y.outcome 6 false
        else if y.version.isSome then { y with next := some v } else { y with version := some v }))).canStart p cfg

/-- A port command message (R361): `UNBLOCK` turning from 0 to 1 releases the identifiers that are blocked until
commanded, and their series restart, those that no buffer has now included. -/
def Mach.releaseCanCommand (p : CanId) (words : List W64) (m : Mach) : Mach :=
  let u := (words.headD 0).getLsbD 0
  m.updCan p (fun x =>
    let free (y : CanBuf) : CanBuf :=
      if y.block = 2 then { y with block := 0, series := 0, conflictRun := 0, retryAt := none } else y
    let x := if u && !x.lastUnblock then { x with bufs := x.bufs.map free, refBuf := free x.refBuf, parked := x.parked.map free } else x
    { x with lastUnblock := u })

/-! ### Error states (R364) -/

/-- The port's state after its error counters moved: error passive above 127. -/
def Mach.canPassive (p : CanId) (m : Mach) : Mach :=
  let x := m.can p
  if x.mode = 1 ∧ (x.tec.toNat > 127 ∨ x.recv.toNat > 127) then
    ((m.updCan p (fun x => { x with mode := 2 })).raise (canPath p 1) 0).noteCan p 0x91 0 0
  else if x.mode = 2 ∧ x.tec.toNat ≤ 127 ∧ x.recv.toNat ≤ 127 then m.updCan p (fun x => { x with mode := 1 })
  else m

/-! ### Ends of frames (R351, R353, R354) -/

/-- What a version's outcome raises beside its count. -/
def Mach.canOutcomeNotes (p : CanId) (code : Nat) (m : Mach) : Mach :=
  if code = 2 then (m.raise (canPath p 2) 3).noteCan p 0x93 0 0
  else if code = 5 then
    ((m.updCan p (fun x => { x with winMiss := satInc x.winMiss })).raise (canPath p 2) 4).noteCan p 0x94 0 0
  else m

/-- The outcome of an attempt, or none where the version stays for another. (PRESUMED log 28) -/
def attemptOutcome (kind : TxKind) (cancel : Bool) (e : TxEnd) : Option Nat :=
  match e with
  | .completed => if cancel then some 2 else some 1
  | .lostArbitration => if cancel then some 3 else if kind = .exclusive then some 5 else none
  | .error _ _ => if cancel then some 4 else if kind = .exclusive then some 5 else none

/-- An error counted by its kind (R365). -/
def CanPort.countErr (kind : CanErr) (x : CanPort) : CanPort :=
  match kind with
  | .bit => { x with errBit := satInc x.errBit }
  | .stuff => { x with errStuff := satInc x.errStuff }
  | .form => { x with errForm := satInc x.errForm }
  | .crc => { x with errCrc := satInc x.errCrc }
  | .ack => { x with errAck := satInc x.errAck }

/-- An error of an own frame: counted, with a bit error after arbitration was won counted as another sender's (R362), and in
the transmit error counter but for a missing acknowledgement while error passive and a stuff error during arbitration (ISO 11898-1).
(PRESUMED log 28) -/
def CanPort.txError (won : Bool) (kind : CanErr) (x : CanPort) : CanPort :=
  let x := x.countErr kind
  let x := if won ∧ kind = .bit then { x with ownBit := satInc x.ownBit } else x
  if (kind = .ack ∧ x.mode = 2) ∨ (kind = .stuff ∧ won = false) then x else { x with tec := satAdd x.tec 8 }

/-- A port enters bus-off (R364): the frame begun has ended in an error, every pending version is cancelled, the windows and
the reference stay silent; counted and recorded. (PRESUMED log 28) -/
def Mach.canEnterBusOff (p : CanId) (m : Mach) : Mach :=
  let m := m.updCan p (fun x =>
    let x := match x.bus with
      | some b => x.updBuf b (fun y => match y.version with | some v => (y.outcome 4 v.replaced).advance | none => y)
      | none => x
    let x := ({ x with bus := none, windowEnd := none } : CanPort).cancelAll
    { x with mode := 3, recov := false, busoff := satInc x.busoff, busoffAt := m.now, tec := bvMax x.tec 256 })
  (m.raise (canPath p 1) 1).noteCan p 0x90 0 0

/-- A transmission attempt ends. One that lost arbitration leaves the bus to the winner's frame, and the next attempt begins at the end
of that. -/
def canFrameTxEnd (p : CanId) (b : Nat) (e : TxEnd) (m : Mach) : Mach :=
  match m.canCfg p with
  | none => m
  | some cfg =>
    match canBuf cfg b, ((m.can p).bufs[b]?).bind (fun y => y.version) with
    | some c, some v =>
      if v.pending.isNone || cfg.listen || !((m.can p).mode == 1 || (m.can p).mode == 2) then m
      else
        let m := m.updCan p (fun x =>
          let x := { x with bus := none }
          match e with
          | .completed => { x with
              txOk := satInc x.txOk, tec := if x.tec = 0 then 0 else x.tec - 1
              lastTx := some (canFrameOf x c v.words) }
          | .lostArbitration => x
          | .error won kind => x.txError won kind)
        let m := match attemptOutcome c.kind v.cancel e with
          | some code =>
            (m.updCan p (fun x => x.updBuf b (fun y => (y.outcome code v.replaced).advance))).canOutcomeNotes p code
          | none => m
        let m := m.canPassive p
        if (m.can p).tec.toNat > 255 then m.canEnterBusOff p
        else if e = .lostArbitration then m
        else m.updCan p (CanPort.startNext cfg m.now)
    | _, _ => m

/-- CAN_FRAME_TX_END. -/
def execCanFrameTxEnd (p : CanId) (b : Nat) (e : TxEnd) (t : Nat) (s : State) : Host.Outcome State Fault Refusal :=
  s.run (fun m => canFrameTxEnd p b e (m.tick t))

/-- A transmit-at-time version becomes pending once T0 + `TAT` is reached (R349). -/
def tatPending (p : CanId) (b : Nat) (m : Mach) : Mach :=
  match m.canCfg p with
  | none => m
  | some cfg =>
    let due (v : Version) : Version :=
      if v.pending.isNone && (tatAt .atTime v).all (fun a => decide (a ≤ m.now)) then { v with pending := some m.now } else v
    (m.updCan p (fun x => x.updBuf b (fun y =>
      { y with version := y.version.map due, next := y.next.map due }))).canStart p cfg

/-- TAT_PENDING. -/
def execTatPending (p : CanId) (b : Nat) (t : Nat) (s : State) : Host.Outcome State Fault Refusal :=
  s.run (fun m => tatPending p b (m.tick t))

/-- The deadline's cancel of the unsent versions of a buffer (R348, R349), with whether an attempt of the older one has
begun. -/
def canDeadline (p : CanId) (b : Nat) (kind : TxKind) (begun : Bool) (m : Mach) : Mach :=
  match (m.canCfg p).bind (fun cfg => canBuf cfg b) with
  | none => m
  | some c =>
    let past (v : Version) : Bool := (versionDue m c v).any (fun d => decide (d ≤ m.now))
    if c.kind ≠ kind then m
    else m.updCan p (fun x =>
      let begun := begun && (x.bufs[b]?).any (fun y => y.version.isSome)
      let x := { x with bus := if begun then some b else if x.bus = some b then none else x.bus }
      x.updBuf b (fun y =>
        let y := if y.next.any past then y.dropNext else y
        if y.version.any (fun v => past v && !v.cancel) then y.cancel begun else y))

/-- TX_LATE_DEADLINE. -/
def execTxLateDeadline (p : CanId) (b : Nat) (begun : Bool) (t : Nat) (s : State) : Host.Outcome State Fault Refusal :=
  s.run (fun m => canDeadline p b .event begun (m.tick t))

/-- TAT_LATE_DEADLINE: at T0 + `TAT` + `TAT_LATE`. -/
def execTatLateDeadline (p : CanId) (b : Nat) (begun : Bool) (t : Nat) (s : State) : Host.Outcome State Fault Refusal :=
  s.run (fun m => canDeadline p b .atTime begun (m.tick t))

/-! ### Windows and references (R352 to R354) -/

/-- The ring interface that logic timing follows (R287). (DEDUCED log 43) -/
def Mach.timeRing (m : Mach) : RingIfc := m.ring m.timeRingId

/-- A span of ring time on the module's own time. -/
def ringSpan (r : RingIfc) (ns : Nat) : Nat := ns * basicLen r.tb.rate / 1000000

/-- A window of the present CAN basic cycle, from an offset for a length in µs: when it opens, where it is open now (R353). -/
def Mach.canWindow (p : CanId) (mask : W32) (ofs len : Nat) (m : Mach) : Option Nat :=
  let x := m.can p
  x.cycAt.bind (fun c =>
    let opens := c + ringSpan m.timeRing (ofs * 1000)
    if mask.getLsbD x.cyc.toNat && decide (opens ≤ m.now) && decide (m.now < opens + ringSpan m.timeRing (len * 1000))
    then some opens else none)

/-- An exclusive window is open: its unsent version, released at least 20 µs before it opened, begins within `TXEN` of the opening or is
recorded as status 5, as in bus-off; a window without one stays silent (R354, R364). -/
def canExclusiveWindow (p : CanId) (b : Nat) (began : Bool) (m : Mach) : Mach :=
  match m.canCfg p with
  | none => m
  | some cfg =>
    match canBuf cfg b, ((m.can p).bufs[b]?).bind (fun y => y.version) with
    | some c, some v =>
      match m.canWindow p c.ttMask c.ttOfs c.ttLen with
      | none => m
      | some opens =>
        let used := ((m.can p).bufs[b]?).bind (fun y => y.winAt) == some opens
        if c.kind ≠ .exclusive ∨ cfg.tt = false ∨ (m.can p).mode = 0 ∨ opens < v.released + 20000 ∨ v.cancel = true ∨ used = true then m
        else
          let m := m.updCan p (fun x => x.updBuf b (fun y => { y with winAt := some opens }))
          if m.canSends p && began && decide (m.now ≤ opens + cfg.txen.getD 4 * nominalBitNs cfg.nbr) then
            m.updCan p (fun x => { x with bus := some b })
          else (m.updCan p (fun x => x.updBuf b (fun y => (y.outcome 5 v.replaced).advance))).canOutcomeNotes p 5
    | _, _ => m

/-- CAN_EXCLUSIVE_WINDOW. -/
def execCanExclusiveWindow (p : CanId) (b : Nat) (began : Bool) (t : Nat) (s : State) : Host.Outcome State Fault Refusal :=
  s.run (fun m => canExclusiveWindow p b began (m.tick t))

/-- An arbitrating window is open in the CAN basic cycles of its mask, at its offset for its length: the pending arbitrating version with
the winning identifier begins once the bus is idle. (DEDUCED log 30) -/
def canArbitratingWindow (p : CanId) (k : Nat) (m : Mach) : Mach :=
  match m.canCfg p with
  | none => m
  | some cfg =>
    match cfg.arbs[k]? with
    | none => m
    | some a =>
      match m.canWindow p a.mask a.ofs a.len with
      | none => m
      | some opens =>
        if cfg.tt = false ∨ m.canSends p = false then m
        else (m.updCan p (fun x => { x with windowEnd := some (opens + ringSpan m.timeRing (a.len * 1000)) })).canStart p cfg

/-- CAN_ARBITRATING_WINDOW. -/
def execCanArbitratingWindow (p : CanId) (k : Nat) (t : Nat) (s : State) : Host.Outcome State Fault Refusal :=
  s.run (fun m => canArbitratingWindow p k (m.tick t))

/-- The port's part in the CAN basic cycle: 0 none, 1 time master, 2 backup (R367). (DEDUCED log 30) -/
def Mach.setCanRole (p : CanId) (role : BitVec 2) (m : Mach) : Mach :=
  if (m.can p).role = role then m else (m.updCan p (fun x => { x with role := role })).raise (canPath p 3) 0

/-- The CAN basic cycle that begins now, within the 50 µs of a ring boundary: its start and its count. It begins at a basic cycle of the
ring whose index is a multiple of `CBC`; with no ring synchronised the port runs on at the last rate. -/
def canCycleNow (cfg : CanCfg) (r : RingIfc) (now : Nat) (x : CanPort) : Option (Nat × Nat) :=
  let cbc := max cfg.cbc 1
  if r.sync then
    let p := r.tb.at0 (now + 50000)
    if p.off ≤ 100000 ∧ p.basic % 32 % cbc = 0 then some (now + 50000 - p.off, p.basic % 32 / cbc) else none
  else match x.cycAt with
    | none => some (now, 0)
    | some c =>
      let start := c + ringSpan r (cbc * 1000000)
      if start ≤ now + 50000 then some (start, (x.cyc.toNat + 1) % (32 / cbc)) else none

/-- A CAN basic cycle begins where one falls now, once. (DEDUCED log 30) -/
def Mach.beginCanCycle (p : CanId) (cfg : CanCfg) (m : Mach) : Mach :=
  match canCycleNow cfg m.timeRing m.now (m.can p) with
  | none => m
  | some (start, cyc) =>
    m.updCan p (fun x =>
      if x.cycAt.any (fun c => decide (start < c + 500000)) then x
      else { x with cyc := BitVec.ofNat 6 cyc, cycAt := some start, windowEnd := none, refDue := true })

/-- The reference message of the CAN basic cycle, with the cycle count, and how it ended. Copy 1 of a pair that lost to the partner's is
backup; one that met an error is retransmitted in its cycle, as one is that lost to a foreign frame (R352, R362).
(DEDUCED log 30) -/
def canReferenceMessage (p : CanId) (e : TxEnd) (m : Mach) : Mach :=
  match m.canCfg p with
  | none => m
  | some cfg =>
    if cfg.tt = false ∨ (m.can p).mode = 0 then m
    else
      let m := m.beginCanCycle p cfg
      if (m.can p).refDue = false then m
      else if m.canSends p = false ∨ (m.can p).refBuf.block ≠ 0 then
        (m.updCan p (fun x => { x with refDue := false })).setCanRole p 0
      else match e with
        | .completed =>
          let frame : CanFrame :=
            { id := cfg.refId, ide := cfg.refIde, fdf := false, brs := false, esi := false, rtr := false, dlc := 1
              data := [(m.can p).cyc.setWidth 8] }
          (m.setCanRole p 1).updCan p (fun x => { x with
            refDue := false, refSent := satInc x.refSent, txOk := satInc x.txOk, tec := if x.tec = 0 then 0 else x.tec - 1
            lastTx := some frame })
        | .lostArbitration =>
          if m.ident.copy == 1 && m.sd.any (fun sd => sd.pair.paired) then
            (m.setCanRole p 2).updCan p (fun x => { x with refDue := false, refLost := satInc x.refLost })
          else m.setCanRole p 1
        | .error won kind =>
          let m := ((m.setCanRole p 1).updCan p (CanPort.txError won kind)).canPassive p
          if (m.can p).tec.toNat > 255 then m.canEnterBusOff p else m

/-- CAN_REFERENCE_MESSAGE. -/
def execCanReferenceMessage (p : CanId) (e : TxEnd) (t : Nat) (s : State) : Host.Outcome State Fault Refusal :=
  s.run (fun m => canReferenceMessage p e (m.tick t))

/-! ### Receipt (R355 to R357) -/

/-- A settled frame written into the slot that does not hold the newest one (R357). -/
def CanBuf.settle (f : CanFrame) (partner : Bool) (now : Nat) (x : CanBuf) : CanBuf :=
  let x := if x.slot then { x with slot0 := some (f, partner, now), slot := false }
           else { x with slot1 := some (f, partner, now), slot := true }
  { x with count := x.count + 1 }

def Lane.updCanRec (p : CanId) (b : Nat) (f : CanRec → CanRec) (x : Lane) : Lane :=
  match p with
  | .p1 => { x with comm := { x.comm with can1 := modAt f b x.comm.can1 } }
  | .p2 => { x with comm := { x.comm with can2 := modAt f b x.comm.can2 } }

/-- A frame settles on a buffer, for every lane that is not OUT (R16). (DEDUCED log 31) -/
def Mach.canSettle (p : CanId) (b : Nat) (f : CanFrame) (partner : Bool) (m : Mach) : Mach :=
  (m.updCan p (fun x => x.updBuf b (fun y => y.settle f partner m.now))).updLanes
    (fun _ x => if x.agr.life == .out then x else x.updCanRec p b (fun r => { r with new := true }))

/-- A discard on a receive buffer, with its cause. -/
def CanBuf.discard (cause : Nat) (c : W32) (x : CanBuf) : CanBuf :=
  { x with cause := BitVec.ofNat 4 cause, rej := satInc x.rej, discIn := some c }

/-- Whether a buffer takes an identifier: under its mask, or as the partner's exactly (R355, R356). -/
def bufTakes (c : BufCfg) (f : CanFrame) : Bool :=
  c.dir == .receive && c.ide == f.ide &&
    (f.id &&& c.mask == c.id &&& c.mask || (c.pair && f.id == c.id2))

def fromPartner (c : BufCfg) (f : CanFrame) : Bool := c.pair && f.id == c.id2

/-- A frame offered to the receive buffers in index order. -/
def Mach.canOffer (p : CanId) (cfg : CanCfg) (f : CanFrame) (m : Mach) : Mach :=
  match (cfg.bufs.zipIdx).find? (fun q => bufTakes q.1 f) with
  | none => m
  | some (c, b) =>
    if c.fdf ≠ f.fdf ∨ c.brs ≠ f.brs ∨ c.dlc ≠ f.dlc then
      m.updCan p (fun x => x.updBuf b (CanBuf.discard 2 m.cycleNo))
    else if c.pair then
      m.updCan p (fun x => x.updBuf b (fun y =>
        if y.pairGroup.isEmpty then { y with pairGroup := [(f, fromPartner c f)], pairAt := m.now }
        else { y with pairGroup := y.pairGroup ++ [(f, fromPartner c f)] }))
    else m.canSettle p b f false

/-! ### Ownership (R360) -/

/-- A conflict on an owned identifier: the pending version is cancelled with status 6, and the identifier blocked
for 1 s, or until commanded on the fourth conflict of a series. (DEDUCED log 30) -/
def CanBuf.conflict (now : Nat) (x : CanBuf) : CanBuf :=
  let gone (y : CanBuf) (v : Option Version) : CanBuf := match v with
    | some v => if v.cancel then y.outcome 3 v.replaced else y.outcome 6 false
    | none => y
  let x : CanBuf := { gone (gone x x.version) x.next with version := none, next := none }
  if x.block ≠ 0 then x
  else
    let run := if (match x.retryAt with | some r => decide (now ≤ r + 10000000000) | none => false)
      then x.conflictRun + 1 else 1
    { x with
      conflictRun := run, series := BitVec.ofNat 2 (min run 3), blockedAt := now
      block := if run ≤ 3 then 1 else 2 }

/-- The owned identifiers: a transmit buffer's index, or none for the reference (R347). -/
def canOwner (cfg : CanCfg) (f : CanFrame) : Option (Option Nat) :=
  match (cfg.bufs.zipIdx).find? (fun q => q.1.dir == .transmit && q.1.id == f.id && q.1.ide == f.ide) with
  | some (_, b) => some (some b)
  | none => if cfg.tt && f.id == cfg.refId && f.ide == cfg.refIde then some none else none

def Mach.canConflict (p : CanId) (owner : Option Nat) (f : CanFrame) (m : Mach) : Mach :=
  let m := m.updCan p (fun x =>
    let x := { x with conflicts := satInc x.conflicts, lastId := f.id, lastIde := f.ide }
    match owner with
    | some b => { x.updBuf b (fun y => y.conflict m.now) with bus := if x.bus = some b then none else x.bus }
    | none => { x with refBuf := x.refBuf.conflict m.now })
  (m.raise (canPath p 1) 3).noteCan p 0x92 (f.id.setWidth 32) 0

/-- A frame completed without error on the bus. (PRESUMED log 28, DEDUCED log 30) -/
def canFrameReceive (p : CanId) (f : CanFrame) (m : Mach) : Mach :=
  match m.canCfg p with
  | none => m
  | some cfg =>
    if (m.can p).mode = 0 ∨ (m.can p).mode = 3 then m
    else
      let m := m.updCan p (fun x => { x with
        rxOk := satInc x.rxOk
        recv := if cfg.listen then x.recv else if x.recv.toNat > 127 then BitVec.ofNat 8 (119 + Config.recAfter (canNo p) m.now) else if x.recv = 0 then 0 else x.recv - 1
        rtrRx := if f.rtr then satInc x.rtrRx else x.rtrRx })
      let m := m.canPassive p
      let m := match canOwner cfg f with
        | some o => m.canConflict p o f
        | none => if f.rtr then m else m.canOffer p cfg f
      m.updCan p (CanPort.startNext cfg m.now)

/-- CAN_FRAME_RECEIVE. -/
def execCanFrameReceive (p : CanId) (f : CanFrame) (t : Nat) (s : State) : Host.Outcome State Fault Refusal :=
  s.run (fun m => canFrameReceive p f (m.tick t))

/-- `PAIR_WIN` in ns (R356). -/
def pairWinNs (c : BufCfg) : Nat := c.pairWin.getD 1000 * 1000

/-- A pair group settles: one copy, or equal copies, give the new frame; different ones give none. (DEDUCED log 31) -/
def canPairSettle (p : CanId) (b : Nat) (m : Mach) : Mach :=
  match (m.canCfg p).bind (fun cfg => canBuf cfg b), (m.can p).bufs[b]? with
  | some c, some y =>
    if m.now < y.pairAt + pairWinNs c then m
    else
      let m' := m.updCan p (fun x => x.updBuf b (fun y => { y with pairGroup := [] }))
      match y.pairGroup with
      | [] => m
      | (f, q) :: rest =>
        if rest.all (fun g => g.1.data == f.data) then
          (m'.updCan p (fun x => x.updBuf b (fun y => { y with dup := satAdd y.dup rest.length }))).canSettle p b f q
        else
          let m' := m'.updCan p (fun x => x.updBuf b (fun y =>
            { y with pairDis := satInc y.pairDis, cause := 1, discIn := some m.cycleNo }))
          (m'.raise (canPath p 2) 2).noteCan p 0x96 (BitVec.ofNat 32 b) 0
  | _, _ => m

/-- CAN_PAIR_SETTLE. -/
def execCanPairSettle (p : CanId) (b : Nat) (t : Nat) (s : State) : Host.Outcome State Fault Refusal :=
  s.run (fun m => canPairSettle p b (m.tick t))

/-- A 1 s block ends and the identifier is retried (R360). Index 64 names the reference. (DEDUCED log 30) -/
def ownershipBlockExpire (p : CanId) (b : Nat) (m : Mach) : Mach :=
  let free (y : CanBuf) : CanBuf :=
    if y.block = 1 ∧ y.blockedAt + 1000000000 ≤ m.now then { y with block := 0, retryAt := some m.now } else y
  m.updCan p (fun x => if b < 64 then x.updBuf b free else { x with refBuf := free x.refBuf })

/-- OWNERSHIP_BLOCK_EXPIRE. -/
def execOwnershipBlockExpire (p : CanId) (b : Nat) (t : Nat) (s : State) : Host.Outcome State Fault Refusal :=
  s.run (fun m => ownershipBlockExpire p b (m.tick t))

/-! ### Errors and bus-off (R362, R364) -/

/-- A bit error after arbitration was won (R362): an error of the frame, counted as another sender's. Index 64 names the reference.
(DEDUCED log 30) -/
def canOwnBitError (p : CanId) (b : Nat) (m : Mach) : Mach :=
  if b < 64 then canFrameTxEnd p b (.error true .bit) m else canReferenceMessage p (.error true .bit) m

/-- CAN_OWN_BIT_ERROR. -/
def execCanOwnBitError (p : CanId) (b : Nat) (t : Nat) (s : State) : Host.Outcome State Fault Refusal :=
  s.run (fun m => canOwnBitError p b (m.tick t))

/-- What an error on a received frame adds to the receive error counter (ISO 11898-1): 1; 8 for a bit error during the own error flag, or a
dominant bit after it (`heavy`); nothing for an acknowledgement error, which is a transmitter's. (PRESUMED log 28) -/
def recStep (kind : CanErr) (heavy : Bool) : Nat := if kind = .ack then 0 else if heavy then 8 else 1

/-- An error on a received frame: counted by its kind, and in the receive error counter except in listen-only.
(PRESUMED log 28) -/
def canBusError (p : CanId) (kind : CanErr) (heavy : Bool) (m : Mach) : Mach :=
  match m.canCfg p with
  | none => m
  | some cfg =>
    if (m.can p).mode = 0 ∨ (m.can p).mode = 3 then m
    else
      let m := m.updCan p (fun x =>
        let x := x.countErr kind
        if cfg.listen then x else { x with recv := satAdd x.recv (recStep kind heavy) })
      (m.canPassive p).updCan p (CanPort.startNext cfg m.now)

/-- CAN_BUS_ERROR. -/
def execCanBusError (p : CanId) (kind : CanErr) (heavy : Bool) (t : Nat) (s : State) : Host.Outcome State Fault Refusal :=
  s.run (fun m => canBusError p kind heavy (m.tick t))

/-- Bus-off (R364), which a listen-only port never enters. (PRESUMED log 28) -/
def canBusOff (p : CanId) (m : Mach) : Mach :=
  match m.canCfg p with
  | none => m
  | some cfg =>
    if (m.can p).mode = 0 ∨ (m.can p).mode = 3 ∨ cfg.listen then m
    else m.canEnterBusOff p

/-- CAN_BUS_OFF. -/
def execCanBusOff (p : CanId) (t : Nat) (s : State) : Host.Outcome State Fault Refusal :=
  s.run (fun m => canBusOff p (m.tick t))

/-- 1 s after bus-off the recovery starts. -/
def canBusOffRecovery (p : CanId) (m : Mach) : Mach :=
  m.updCan p (fun x => if x.mode = 3 ∧ x.busoffAt + 1000000000 ≤ m.now then { x with recov := true } else x)

/-- CAN_BUS_OFF_RECOVERY. -/
def execCanBusOffRecovery (p : CanId) (t : Nat) (s : State) : Host.Outcome State Fault Refusal :=
  s.run (fun m => canBusOffRecovery p (m.tick t))

/-- The recovery ends: error active, both counters 0. -/
def canBusOffRecovered (p : CanId) (m : Mach) : Mach :=
  if (m.can p).mode = 3 ∧ (m.can p).recov then
    (m.updCan p (fun x => { x with mode := 1, recov := false, tec := 0, recv := 0 })).raise (canPath p 1) 2
  else m

/-- CAN_BUS_OFF_RECOVERED. -/
def execCanBusOffRecovered (p : CanId) (t : Nat) (s : State) : Host.Outcome State Fault Refusal :=
  s.run (fun m => canBusOffRecovered p (m.tick t))

end Sys2Proof.Machine
end

