-- ==== Sys2Proof/Machine/CheckValue.lean ====
section
/-! DEFINITION. The check-value units (R329 to R341): a context's three operations, whole computations, and the
alive counter. -/

namespace Sys2Proof.Machine

/-! ### Parameters (R330 to R332) -/

/-- The parameters of a profile's polynomial code. -/
def profileParams (p : Profile) : CrcParams :=
  match p.poly with
  | 1 => crcCode1
  | 2 => crcCode2
  | 3 => crcCode3
  | 4 => crcCode4
  | _ => { width := p.width, poly := p.polyv.toNat, init := p.init.toNat, refIn := p.refIn, refOut := p.refOut
           xorOut := p.xorOut.toNat }

def Mach.profile (m : Mach) (ctx : Nat) : Option Profile :=
  match m.sd with
  | some sd => sd.profiles.find? (fun p => p.ctx == ctx)
  | none => none

/-- The parameters of a context; none where it is unused. -/
def Mach.ctxParams (m : Mach) (ctx : Nat) : Option CrcParams :=
  if m.sd.isNone then none
  else if ctx < 2 then some crcCode1 else (m.profile ctx).map profileParams

/-! ### The three operations (R334, R336, R340) -/

/-- Start: the initial value in both copies, `READY` 0. -/
def CvCtx.start (p : CrcParams) (x : CvCtx) : CvCtx :=
  { x with
    run := BitVec.ofNat 64 p.init, runC := ~~~(BitVec.ofNat 64 p.init), running := true, bytes := 0
    group := x.group.start }

/-- The two copies of the running value agree. -/
def CvCtx.sound (x : CvCtx) : Bool := x.runC == ~~~x.run

/-- A context fault: the computation is abandoned without a result. -/
def CvCtx.fault (c : W32) (x : CvCtx) : CvCtx :=
  { x with running := false, faults := satInc x.faults, faultCycle := some c }

/-- A feed of bytes. -/
def CvCtx.feed (p : CrcParams) (bs : List Byte) (x : CvCtx) : CvCtx :=
  let r := BitVec.ofNat 64 (crcFeed p x.run.toNat bs)
  { x with run := r, runC := ~~~r, bytes := satAdd x.bytes bs.length }

/-- Finalise: output reflection and the final XOR, the result with a new `TAG`. -/
def CvCtx.finalise (p : CrcParams) (x : CvCtx) : CvCtx :=
  { x with
    result := BitVec.ofNat 64 (crcOut p x.run.toNat), running := false, done := satInc x.done
    group := x.group.complete }

/-- The engine takes a result (R336). -/
def CvCtx.took (x : CvCtx) : CvCtx := { x with taken := some (tagOf x.group.serial) }

/-- A whole computation over bytes, its result taken by the engine. -/
def CvCtx.compute (p : CrcParams) (bs : List Byte) (x : CvCtx) : CvCtx := (((x.start p).feed p bs).finalise p).took

/-- The next result has a `TAG` other than that of the result last taken: taken with the same one twice it is a fault of the
engine's own sequence (R336). -/
def CvCtx.nextFresh (x : CvCtx) : Bool := x.taken != some (tagOf (x.group.serial + 1))

def Lane.updCv (ctx : Nat) (f : CvCtx → CvCtx) (x : Lane) : Lane := { x with cv := modAt f ctx x.cv }

/-- A damaged copy of the running value. -/
def CvCtx.upset (b : Bool) (x : CvCtx) : CvCtx := if b then { x with runC := x.runC ^^^ 1 } else x

def cvStart (l : LaneId) (ctx : Nat) (m : Mach) : Mach :=
  match m.ctxParams ctx with
  | some p => m.updLane l (fun x => x.updCv ctx (CvCtx.start p))
  | none => m

/-- CV_START. -/
def execCvStart (l : LaneId) (ctx : Nat) (s : State) : Host.Outcome State Fault Refusal :=
  s.run (cvStart l ctx)

/-- How many words follow the safety code word in a message that carries one: the CMAC of a JXT message (R314). -/
def behindSeal (sd : StationData) (msg : Nat) : Option Nat :=
  (sd.msgs.find? (fun c => c.msg == msg)).bind (fun c => match c.port with
    | .jxt k => some (bitOf ((sd.jxt[k]?).any (fun j => j.cmac)))
    | .ring _ | .ringSporadic _ | .mirror => some 0
    | .can _ _ | .canCommand _ => none)

/-- A message's last word on the vote link, with how many words its safety code word stands before it. -/
def sealBefore (sd : StationData) (w : VoteWord) : Option Nat :=
  if w.last && (w.kind == .message || (w.kind == .probe && w.word != 0x3FF)) then behindSeal sd w.msg else none

/-- The safety code word of the message that the engine is forming, the first that is not handed over yet, is dropped.
(DESIGN CHOICE log 99) -/
def dropSeal (sd : StationData) (ws : List VoteWord) : List VoteWord :=
  match ws.findSome? (fun w => (sealBefore sd w).map (fun n => (w.msg, w.word - n))) with
  | some q => ws.filter (fun v => !((v.kind == .message || v.kind == .probe) && v.msg == q.1 && v.word == q.2))
  | none => ws

/-- What a context fault costs (R340): a safety code that is being sent is not handed over, and the lane is absent from that message;
a frame that is being checked, in a lane about to sample, counts as not received in it. (DESIGN CHOICE log 99) -/
def Lane.loseCheck (sd : StationData) (ctx : Nat) (x : Lane) : Lane :=
  if ctx = 0 then (if x.phase = .handover then { x with msgBuf := dropSeal sd x.msgBuf } else x)
  else if x.phase = .wake then { x with cvLost := ctx :: x.cvLost.filter (· != ctx) } else x

/-- An operation on a running context: with its copies in disagreement a context fault, and otherwise its effect.
(DESIGN CHOICE log 99) -/
def cvOperate (l : LaneId) (ctx : Nat) (upset : Bool) (f : CrcParams → CvCtx → CvCtx) (m : Mach) : Mach :=
  match m.sd, m.ctxParams ctx, (m.lane l).cv[ctx]? with
  | some sd, some p, some x =>
    if x.running = false then m
    else
      let x := x.upset upset
      if x.sound then m.updLane l (fun y => y.updCv ctx (fun _ => f p x))
      else (m.updLane l (fun y => (y.updCv ctx (fun _ => x.fault (m.lane l).cop.cycleNo)).loseCheck sd ctx)).raise cvPath 0
  | _, _, _ => m

/-- CV_FEED of a byte, half-word or word, most significant byte first (R333). -/
def execCvFeed (l : LaneId) (ctx bytes : Nat) (data : W32) (upset : Bool) (s : State) :
    Host.Outcome State Fault Refusal :=
  s.run (cvOperate l ctx upset (fun p x => x.feed p (beBytes bytes data.toNat)))

/-- CV_FINALISE. -/
def execCvFinalise (l : LaneId) (ctx : Nat) (upset : Bool) (s : State) : Host.Outcome State Fault Refusal :=
  s.run (cvOperate l ctx upset (fun p x => x.finalise p))

/-! ### The alive counter (R339) -/

/-- What the judgement of a received counter brings: whether the message is accepted, the new reference and
resynchronisation state, and what is counted: jumps, repetitions and lost messages. -/
structure AliveVerdict where
  ok      : Bool
  ref     : Option Nat
  resync  : Bool
  jumps   : Nat
  repeats : Nat
  lost    : Nat
  deriving DecidableEq, Repr

/-- Check value and alive counter on the CAN bus stand big-endian at their configured byte. (DEDUCED log 35) -/
def judgeAlive (bits maxd : Nat) (ref : Option Nat) (resync : Bool) (got : Nat) : AliveVerdict :=
  match ref with
  | none => { ok := false, ref := some got, resync := true, jumps := 0, repeats := 0, lost := 0 }
  | some r =>
    let d := (got + 2 ^ bits - r % 2 ^ bits) % 2 ^ bits
    if d = 0 then { ok := false, ref := some r, resync := resync, jumps := 0, repeats := 1, lost := 0 }
    else if d = 1 then { ok := true, ref := some got, resync := false, jumps := 0, repeats := 0, lost := 0 }
    else if d ≤ maxd ∧ resync = false then
      { ok := true, ref := some got, resync := false, jumps := 0, repeats := 0, lost := d - 1 }
    else { ok := false, ref := some got, resync := true, jumps := 1, repeats := 0, lost := 0 }

end Sys2Proof.Machine
end

