-- ==== Sys2Proof/Machine/Sess.lean ====
section
/-! DEFINITION. Sessions and their answers (R42 to R50, R65 to R68): which sessions are open, what a session may write,
and the reply that an access ends with. -/

namespace Sys2Proof.Machine

def Mach.updBench (f : Bench → Bench) (m : Mach) : Mach := { m with bench := f m.bench }
def Mach.updHost (f : HostPort → HostPort) (m : Mach) : Mach := m.updBench (fun b => { b with host := f b.host })
def Mach.updMnt (f : MntPort → MntPort) (m : Mach) : Mach := m.updBench (fun b => { b with mnt := f b.mnt })
def Mach.updMntSess (n : Nat) (f : MntSession → MntSession) (m : Mach) : Mach :=
  m.updMnt (fun p => { p with sessions := p.sessions.map (fun x => if x.id = n then f x else x) })
/-- Maintenance sessions are named by their number alone. (DEDUCED log 67) -/
def Mach.mntSess (m : Mach) (n : Nat) : Option MntSession := m.bench.mnt.sessions.find? (fun x => x.id == n)

/-! ### Event counters (R439, R440) -/

/-- Source groups whose qualifier is ignored. -/
def ecPlain (src : Byte) : Bool :=
  let n := src.toNat
  decide (n < 0x10) || n == 0x20 || n == 0x26 || (decide (0x46 ≤ n) && decide (n ≤ 0x48)) || decide (0xA0 ≤ n)

/-- A counter admits an event of a source with an instance. (DEDUCED log 68) -/
def EventCounter.admits (src q : Byte) (x : EventCounter) : Bool :=
  x.src != 0 && x.src == src && (ecPlain src || x.qual == 0xFF || x.qual == q)

/-- The counter `n` higher: wrapped, or held at its limit. -/
def EventCounter.stepBy (n : Nat) (x : EventCounter) : EventCounter :=
  { x with count := if x.sat then BitVec.ofNat 32 (min (2 ^ 32 - 1) (x.count.toNat + n)) else x.count + BitVec.ofNat 32 n }

/-- `n` events of a source reach every counter that admits it; one that wraps or meets its limit raises its cause.
(DEDUCED log 121) -/
def Mach.ecAdd (src q : Byte) (n : Nat) (m : Mach) : Mach :=
  if m.bench.up = false then m
  else
    let hit := m.bench.ec.any (fun x => x.admits src q && decide (2 ^ 32 ≤ x.count.toNat + n))
    let m := m.updBench (fun b => { b with ec := b.ec.map (fun x => if x.admits src q then x.stepBy n else x) })
    if hit then m.raise (benchPath 2) 1 else m

/-- The sources that counted in the present Bench clock. (DEDUCED log 121) -/
def Mach.ecNow (m : Mach) : List (Byte × Byte) := if m.bench.ecSeen.1 = m.now / 10 then m.bench.ecSeen.2 else []

/-- One event of a source, in the present Bench clock. (DEDUCED log 68) -/
def Mach.ecCount (src q : Byte) (m : Mach) : Mach :=
  (m.ecAdd src q 1).updBench (fun b => { b with ecSeen := (m.now / 10, m.ecNow ++ [(src, q)]) })

/-- The Bench serves accesses: it is powered and not restarting (R22, R433). -/
def Mach.benchServes (m : Mach) : Bool := m.power.powered && m.bench.up

/-- What a session holds, while it is open. -/
def Mach.session (m : Mach) : Sess → Option Session
  | .host => m.bench.host.host
  | .mnt n => (m.mntSess n).bind (fun x => if x.authed then some x.sess else none)

def Mach.updSession (s : Sess) (f : Session → Session) (m : Mach) : Mach :=
  match s with
  | .host => m.updHost (fun h => { h with host := h.host.map f })
  | .mnt n => m.updMntSess n (fun x => { x with sess := f x.sess })

/-- What tells a host session from those before it; a maintenance session's own number does so. -/
def Mach.sessOpen (m : Mach) : Sess → Nat
  | .host => m.bench.host.opens
  | .mnt _ => 0

/-- A session holds the recorder's freeze (R451). -/
def Mach.holdsFreeze (s : Sess) (m : Mach) : Bool := m.bench.recd.frozen.any (fun q => q.1 == s && q.2.1 == m.sessOpen s)

/-- An accepted frame or datagram: the host session opens with its first one (R47). -/
def Mach.touch (s : Sess) (m : Mach) : Mach :=
  let m := match s with
    | .host =>
      let m := m.updHost (fun h => { h with lastFrame := some m.now })
      if m.bench.host.host.isSome then m
      else
        let m := if m.bench.host.closedByTimeout then m.raise (benchPath 4) 1 else m
        m.updHost (fun h => { h with host := some {}, closedByTimeout := false, opens := h.opens + 1 })
    | .mnt _ => m
  m.updSession s (fun x => { x with lastAt := m.now })

/-- The reply to request `num` of a maintenance session goes out, and is kept for a repeat while it is the session's last request
(R67). -/
def Mach.mntAnswer (n : Nat) (num : W32) (typ : Byte) (c : Status) (bs : List Byte) (m : Mach) : Mach :=
  let r : MntReply :=
    { ip := (m.mntSess n).elim 0 (fun x => x.ip), typ := typ, session := n, status := c, seq := num, data := bs }
  (m.updMntSess n (fun x => if x.seq = num then { x with reply := some r } else x)).updMnt (fun p => { p with reply := some r })

/-- The answer that an access ends with: of a maintenance session, to its last request. -/
def Mach.answer (s : Sess) (r : Reply) (m : Mach) : Mach :=
  match s with
  | .host => m.updHost (fun h => { h with last := r.status, reply := some r, crc := none })
  | .mnt n =>
    let x := m.mntSess n
    m.mntAnswer n (x.elim 0 (fun x => x.seq)) (x.elim 0 (fun x => x.typ)) r.status (r.data.flatMap bytes32)

end Sys2Proof.Machine
end

