-- ==== Sys2Proof/Machine/Jxt.lean ====
section
/-! DEFINITION. Jexsuty transport over red and blue (R307 to R328): sending, the port section's checks and groups,
and the checks of a lane. -/

namespace Sys2Proof.Machine

def Mach.jxtCfgs (m : Mach) : List JxtCfg :=
  match m.sd with
  | some sd => sd.jxt
  | none => []

def Mach.updConn (k : Nat) (f : JxtConn → JxtConn) (m : Mach) : Mach :=
  { m with jxt := { m.jxt with conns := modAt f k m.jxt.conns } }

/-- Posts a notice of an event counter source of group 0x8, with the connection's local index as qualifier. -/
def Mach.noteJxt (k src : Nat) (p0 p1 : W32) (m : Mach) : Mach :=
  m.postCal (srcNotice 8 src jxtPath k p0 p1 m)

/-- `JX.LAST` takes an event of a connection. (DEDUCED log 32) -/
def Mach.jxtLast (k : Nat) (number : W16) (cause : Nat) (m : Mach) : Mach :=
  { m with jxt := { m.jxt with
      lastConn := number, lastCause := BitVec.ofNat 4 cause, lastLocal := BitVec.ofNat 6 k
      lastCycle := m.cycleNo } }

/-! ### Datagrams (R313) -/

def netNo : Net → Nat
  | .red => 1
  | .blue => 2

/-- The bytes a datagram's CRC-32 covers. -/
def dgramBytes (d : JxtDatagram) : List Byte :=
  bytes16 d.magic ++ [d.version] ++ [BitVec.ofNat 8 (d.net.toNat * 16 + d.copy.toNat)] ++ bytes16 d.conn
    ++ bytes16 d.words ++ d.body.flatMap bytes64

/-- The ones' complement sum of 16-bit words. -/
def onesSum (ws : List Nat) : Nat :=
  let n := ws.foldl (· + ·) 0
  let fold (k : Nat) : Nat := k % 65536 + k / 65536
  fold (fold n)

/-- 16-bit words of bytes, the last padded with 0. -/
def words16 (bs : List Byte) : List Nat :=
  (List.range ((bs.length + 1) / 2)).map (fun k => (bs.getD (2 * k) 0).toNat * 256 + (bs.getD (2 * k + 1) 0).toNat)

/-- The UDP checksum (RFC 768) of a datagram: over the pseudo-header, the UDP header and the payload; 0 is sent as 0xFFFF. -/
def udpSum (d : JxtDatagram) : W16 :=
  let h := d.ip
  let bs := bytes32 h.src ++ bytes32 h.dst ++ [0x00, h.proto] ++ bytes16 h.udpLen ++ bytes16 h.srcPort ++ bytes16 h.dstPort ++
    bytes16 h.udpLen ++ [0x00, 0x00] ++ dgramBytes d ++ bytes32 d.crc
  let s : W16 := ~~~BitVec.ofNat 16 (onesSum (words16 bs))
  if s = 0 then 0xFFFF else s

/-- The port of JXT (R308). -/
def jxtPort : W16 := 27341

/-- The module's own settings on a network: those of its copy (R310, R369). -/
def Mach.face (m : Mach) (n : Net) : IpFace :=
  match m.sd with
  | some sd => (match n with | .red => sd.settings.red | .blue => sd.settings.blue).getD m.ident.copy.toNat {}
  | none => {}

/-- `JX_DSCP`, default 46. -/
def Mach.jxDscp (m : Mach) : Nat := (m.sd.bind (fun sd => sd.settings.jxDscp)).getD 46

/-- The datagram of a voted message on a network to an address (R308, R313). (DEDUCED log 32) -/
def Mach.dgramOf (m : Mach) (c : JxtCfg) (n : Net) (dst : W32) (words : List W64) : JxtDatagram :=
  let h : IpHead :=
    { src := (m.face n).ip, dst := dst, proto := 17, fragmented := false, options := false, dscp := BitVec.ofNat 6 m.jxDscp
      ttl := 64, dontFrag := true, srcPort := jxtPort, dstPort := jxtPort
      udpLen := BitVec.ofNat 16 (8 + 8 + 8 * words.length + 4), sum := 0 }
  let d : JxtDatagram :=
    { ip := h, magic := 0x4A58, version := 1, net := BitVec.ofNat 4 (netNo n), copy := m.ident.copy, conn := c.number
      words := BitVec.ofNat 16 words.length, body := words, crc := 0 }
  let d := { d with crc := crc32 (dgramBytes d) }
  { d with ip := { d.ip with sum := udpSum d } }

/-! ### Hardware addresses (R307) -/

def peerIps (n : Net) (c : JxtCfg) : List W32 := match n with | .red => c.redIp | .blue => c.blueIp
def peerHws (n : Net) (c : JxtCfg) : List (Option (BitVec 48)) := match n with | .red => c.redHw | .blue => c.blueHw

/-- The station data gives a static hardware address for a peer's address. -/
def Mach.staticHw (m : Mach) (n : Net) (ip : W32) : Option (BitVec 48) :=
  m.jxtCfgs.findSome? (fun c => ((peerIps n c).zipIdx).findSome? (fun q => if q.1 = ip then (peerHws n c).getD q.2 none else none))

/-- The address that a datagram goes to on the wire: its own within the port's network, else the gateway where there is one. -/
def nextHop (dst : W32) (f : IpFace) : W32 :=
  if dst &&& f.mask = f.ip &&& f.mask then dst else f.gateway.getD dst

/-- An address whose hardware address is not known is asked for; one of a peer with a static hardware address never is. -/
def Mach.askArp (n : Net) (dst : W32) (m : Mach) : Mach :=
  let hop := nextHop dst (m.face n)
  let known := (m.staticHw n dst).isSome || (m.staticHw n hop).isSome || m.jxt.arp.any (fun q => q.1 == n && q.2.1 == hop) ||
    m.jxt.asked.contains (n, hop)
  if known then m else { m with jxt := { m.jxt with asked := m.jxt.asked ++ [(n, hop)] } }

/-- A released message goes out on red and on blue to every module of the peer node, copy 0 first (R312). -/
def Mach.jxtSend (k : Nat) (words : List W64) (m : Mach) : Mach :=
  match m.jxtCfgs[k]? with
  | none => m
  | some c =>
    if m.cal.txOn = false then m
    else
      let n := max c.redIp.length c.blueIp.length
      let one (copy : Nat) : List (Net × W32 × JxtDatagram) := [Net.red, .blue].flatMap (fun n =>
        match (peerIps n c)[copy]? with
        | some ip => [(n, ip, m.dgramOf c n ip words)]
        | none => [])
      let out := (List.range n).flatMap one
      (out.foldl (fun m q => m.askArp q.1 q.2.1) m).updConn k (fun x => { x with sent := out })

/-! ### The port section (R317, R318) -/

/-- Check 1 of R317: UDP to the port's own unicast address, unfragmented and without options, both ports those of JXT, and the UDP
checksum right where it is not 0. (DESIGN CHOICE log 97) -/
def Mach.ipPasses (m : Mach) (n : Net) (d : JxtDatagram) : Bool :=
  let h := d.ip
  !h.fragmented && !h.options && h.dst == (m.face n).ip && h.proto == 17 && h.srcPort == jxtPort && h.dstPort == jxtPort &&
    (h.sum == 0 || h.sum == udpSum d)

/-- The connection of a datagram that passes checks 1 to 6 of R317, by local index. (DESIGN CHOICE log 33) -/
def Mach.jxtPasses (m : Mach) (n : Net) (d : JxtDatagram) : Option (Nat × JxtCfg) :=
  if m.ipPasses n d && d.magic == 0x4A58 && d.version == 1 && d.crc == crc32 (dgramBytes d) && d.net.toNat == netNo n then
    match (m.jxtCfgs.zipIdx).find? (fun q => q.1.number == d.conn) with
    | some (c, k) =>
      if (peerIps n c)[d.copy.toNat]? == some d.ip.src && d.words.toNat == c.rxWords && d.body.length == c.rxWords &&
          d.ip.udpLen.toNat == 8 + 8 + 8 * c.rxWords + 4 then some (k, c) else none
    | none => none
  else none

/-- A discarded datagram of a network, counted. -/
def Mach.countBad (n : Net) (m : Mach) : Mach :=
  match n with
  | .red => { m with jxt := { m.jxt with redBad := satInc m.jxt.redBad } }
  | .blue => { m with jxt := { m.jxt with blueBad := satInc m.jxt.blueBad } }

/-- The event counter source of a network's discards. -/
def badSrc : Net → Nat
  | .red => 0x80
  | .blue => 0x81

/-- A datagram discarded on a network that names no connection. -/
def Mach.jxtDiscard (n : Net) (m : Mach) : Mach := (m.countBad n).postCal (srcNotice 8 (badSrc n) jxtPath 0xFF 0 0 m)

/-- A datagram discarded on a network. -/
def Mach.jxtBad (n : Net) (conn : W16) (m : Mach) : Mach :=
  match (m.jxtCfgs.zipIdx).find? (fun q => q.1.number == conn) with
  | some (_, k) => ((m.countBad n).jxtLast k conn 1).noteJxt k (badSrc n) 0 0
  | none => m.jxtDiscard n

/-- A group's message reaches the connection's buffers (R319). -/
def JxtConn.take (words : List W64) (now : Nat) (x : JxtConn) : JxtConn :=
  { x with previous := x.newest, newest := some (words, now), serial := x.serial + 1 }

/-- The gap between the first red and the first blue copy of a group, in 10 µs units. -/
def groupSkew (g : JxtGroup) : Nat :=
  match g.copies.find? (fun c => c.net == .red), g.copies.find? (fun c => c.net == .blue) with
  | some r, some b => (max r.at0 b.at0 - min r.at0 b.at0) / 10000
  | _, _ => 0

/-- A group is judged (R318). -/
def Mach.jxtSettle (k : Nat) (c : JxtCfg) (g : JxtGroup) (m : Mach) : Mach :=
  let m := m.updConn k (fun x =>
    { x with groups := x.groups.filter (fun h => h.seq != g.seq), settled := (g.seq :: x.settled).take 2 })
  let m := { m with jxt := { m.jxt with skewMax := bvMax m.jxt.skewMax (satOf 16 (groupSkew g)) } }
  match g.copies with
  | [] => m
  | a :: rest =>
    if rest.all (fun b => b.words == a.words) then
      ({ m with jxt := { m.jxt with dup := satAdd m.jxt.dup rest.length } } : Mach).updConn k (fun x => x.take a.words m.now)
    else
      let all := a :: rest
      if all.any (fun x => all.any (fun y => x.copy != y.copy && x.words != y.words)) then
        let m := { m with jxt := { m.jxt with pairDis := satInc m.jxt.pairDis, disIn := some m.cycleNo } }
        ((m.jxtLast k c.number 3).raise jxtPath 2).noteJxt k 0x83 0 0
      else
        let m := { m with jxt := { m.jxt with netDis := satInc m.jxt.netDis, disIn := some m.cycleNo } }
        ((m.jxtLast k c.number 2).raise jxtPath 3).noteJxt k 0x82 0 0

/-- A copy gathered into its group (R318). -/
def Mach.jxtGather (k : Nat) (c : JxtCfg) (n : Net) (d : JxtDatagram) (m : Mach) : Mach :=
  let m := match n with
    | .red => { m with jxt := { m.jxt with redRx := satInc m.jxt.redRx } }
    | .blue => { m with jxt := { m.jxt with blueRx := satInc m.jxt.blueRx } }
  let seq : W32 := ((d.body.headD 0) >>> 32).setWidth 32
  let copy : JxtCopy := { net := n, copy := d.copy, words := d.body, at0 := m.now }
  match m.jxt.conns[k]? with
  | none => m
  | some x =>
    if x.settled.contains seq then
      ({ m with jxt := { m.jxt with late := satInc m.jxt.late } } : Mach).jxtLast k c.number 10
    else match x.groups.find? (fun g => g.seq == seq) with
      | some g =>
        if g.copies.any (fun y => y.net == n && y.copy == d.copy) then m.jxtBad n c.number
        else m.updConn k (fun x => { x with groups := x.groups.map (fun h =>
          if h.seq = seq then { h with copies := h.copies ++ [copy] } else h) })
      | none =>
        let m := match x.groups with
          | g :: _ :: _ => m.jxtSettle k c g
          | _ => m
        m.updConn k (fun x => { x with groups := x.groups ++ [{ seq := seq, openAt := m.now, copies := [copy] }] })

def jxtDatagramReceive (n : Net) (d : JxtDatagram) (m : Mach) : Mach :=
  match m.jxtPasses n d with
    | some (k, c) => m.jxtGather k c n d
    | none => m.jxtBad n d.conn

/-- JXT_DATAGRAM_RECEIVE. -/
def execJxtDatagramReceive (n : Net) (d : JxtDatagram) (t : Nat) (s : State) : Host.Outcome State Fault Refusal :=
  s.run (fun m => jxtDatagramReceive n d (m.tick t))

/-- `JX_WIN` in ns, default 2 ms. -/
def jxWinNs (c : JxtCfg) : Nat := c.winUs.getD 2000 * 1000

/-- The oldest open group settles once `JX_WIN` has passed since its first copy. -/
def jxtGroupSettle (k : Nat) (m : Mach) : Mach :=
  match m.jxtCfgs[k]?, (m.jxt.conns[k]?).bind (fun x => x.groups.head?) with
  | some c, some g => if m.now < g.openAt + jxWinNs c then m else m.jxtSettle k c g
  | _, _ => m

/-- JXT_GROUP_SETTLE. -/
def execJxtGroupSettle (k : Nat) (t : Nat) (s : State) : Host.Outcome State Fault Refusal :=
  s.run (fun m => jxtGroupSettle k (m.tick t))

/-! ### ARP, ICMP and links (R307, R328) -/

/-- A request that a port with an address answers: ARP for that address, and an unfragmented ICMP echo to it where echoes are
answered, of which one with IP options is `plain` only. (DESIGN CHOICE log 97) -/
def answeredBy (own : W32) (echo plain : Bool) : NetRequest → Bool
  | .arpRequest target => target == own
  | .arpReply _ _ => false
  | .icmpEcho dst fragmented options => echo && dst == own && !fragmented && !(plain && options)

/-- A datagram, as ARP is none. -/
def isEcho : NetRequest → Bool
  | .icmpEcho _ _ _ => true
  | _ => false

/-- A reply to an ARP request that is open gives the address its hardware address; one about a peer with a static hardware address
is ignored. (DESIGN CHOICE log 97) -/
def Mach.learnArp (n : Net) (ip : W32) (hw : BitVec 48) (m : Mach) : Mach :=
  if m.jxt.asked.contains (n, ip) = false ∨ (m.staticHw n ip).isSome then m
  else { m with jxt := { m.jxt with
    arp := (n, ip, hw) :: m.jxt.arp.filter (fun q => !(q.1 == n && q.2.1 == ip)), asked := m.jxt.asked.filter (· != (n, ip)) } }

/-- ARP and ICMP at a red or blue port. (DESIGN CHOICE log 97) -/
def Mach.netAsked (n : Net) (req : NetRequest) (m : Mach) : Mach :=
  match m.sd with
  | none => if isEcho req then m.jxtDiscard n else m
  | some sd =>
    match req with
    | .arpReply ip hw => m.learnArp n ip hw
    | _ =>
      if answeredBy (m.face n).ip (sd.settings.jxIcmp.getD false) true req then
        if m.cal.txOn then { m with jxt := { m.jxt with lastAnswer := some (n, req) } } else m
      else if isEcho req then m.jxtDiscard n else m

/-- ARP and ICMP at the maintenance port, which answers both for its address while it has one (R64).
(DESIGN CHOICE log 97) -/
def Mach.mntAsked (req : NetRequest) (m : Mach) : Mach :=
  if m.benchServes && m.bench.mnt.ip != 0 && answeredBy m.bench.mnt.ip true false req then
    m.updMnt (fun p => { p with link := true, lastAnswer := some req })
  else m

def netArpIcmp (p : EthPort) (req : NetRequest) (m : Mach) : Mach :=
  match p with
  | .red => m.netAsked .red req
  | .blue => m.netAsked .blue req
  | .maintenance => m.mntAsked req

/-- NET_ARP_ICMP. -/
def execNetArpIcmp (p : EthPort) (req : NetRequest) (t : Nat) (s : State) : Host.Outcome State Fault Refusal :=
  s.run (fun m => netArpIcmp p req (m.tick t))

/-- A red or blue link comes up or goes down; its loss raises `IRQ_STAT`[5]. -/
def redBlueLinkChange (n : Net) (up : Bool) (m : Mach) : Mach :=
  let was := match n with | .red => m.jxt.redUp | .blue => m.jxt.blueUp
  let now := up && !(match n with | .red => m.jxt.redUnus | .blue => m.jxt.blueUnus)
  let m := match n with
    | .red => { m with jxt := { m.jxt with redUp := now } }
    | .blue => { m with jxt := { m.jxt with blueUp := now } }
  if was && !now then m.raise jxtPath 5 else m

/-- RED_BLUE_LINK_CHANGE. -/
def execRedBlueLinkChange (n : Net) (up : Bool) (t : Nat) (s : State) : Host.Outcome State Fault Refusal :=
  s.run (fun m => redBlueLinkChange n up (m.tick t))

/-! ### In the lanes (R320 to R326) -/

/-- The key that a lane holds for a slot of a connection, by local index. -/
def Lane.slotKey (x : Lane) (conn slot : Nat) : Option (BitVec 128) := (x.keys.getD conn []).getD slot none

/-- The CMAC word: the most significant half of the tag over the words before it. -/
def cmacWord (key : BitVec 128) (body : List W64) : W64 := (cmac key (body.flatMap bytes64) >>> 64).setWidth 64


/-- A JXT message's fields and parts (R314). -/
def jxtSeq (ws : List W64) : W32 := ((ws.headD 0) >>> 32).setWidth 32
def jxtCcid (ws : List W64) : W32 := (ws.headD 0).setWidth 32
def jxtEcho (ws : List W64) : Option W32 :=
  let e : W32 := ((ws.getD 1 0) >>> 32).setWidth 32
  if e = 0xFFFFFFFF then none else some e
def jxtEage (ws : List W64) : Nat := (((ws.getD 1 0) >>> 16).setWidth 16 : W16).toNat
def jxtSlot (ws : List W64) : BitVec 1 := (ws.getD 1 0).setWidth 1

/-- The words the safety code covers, and the safety code word. -/
def jxtCovered (cmac : Bool) (ws : List W64) : List W64 := ws.take (ws.length - (if cmac then 2 else 1))
def jxtSafety (cmac : Bool) (ws : List W64) : W64 := ws.getD (ws.length - (if cmac then 2 else 1)) 0

/-- `JX_AGE` in ms and `JX_TMO` in sampling phases (R323, R324), with their defaults. -/
def jxAge (c : JxtCfg) (cMs : Nat) : Nat := c.ageMs.getD (max (4 * cMs) (c.peerC + 2 * cMs))
/-- JXT datagrams: reserved bits 0, last-status words, time-out and whose take is counted. (DEDUCED log 32) -/
def jxTmo (c : JxtCfg) (cMs : Nat) : Nat := c.tmo.getD (max 2 ((3 * c.peerC + cMs - 1) / max cMs 1))

/-- The round-trip bound in ms (R323). -/
def roundTrip (b echo : W32) (cMs eage : Nat) : Nat := (b - echo).toNat * cMs - eage

/-- What the checks of R320 bring for a message: a cause, whether it is authentic, and whether it is a restart. -/
structure JxtVerdict where
  cause     : Option Nat
  authentic : Bool
  restart   : Bool
  bound     : Nat
  deriving DecidableEq, Repr

def jxtJudge (c : JxtCfg) (key : Nat → Option (BitVec 128)) (cMs : Nat) (b : W32) (r : JxtRec) (ws : List W64) : JxtVerdict :=
  let fail (k : Nat) : JxtVerdict := { cause := some k, authentic := false, restart := false, bound := 0 }
  let body := ws.dropLast
  let seq := jxtSeq ws
  let echo := jxtEcho ws
  let slot := jxtSlot ws
  let echoOk := match echo with
    | none => true
    | some e => !(newer e b) && !(match r.echo with | some e0 => newer e0 e | none => false)
  let fresh := match r.seq with | some s0 => newer seq s0 | none => true
  let restart := !fresh && (match echo with
    | some e => (match r.echo with | some e0 => newer e e0 | none => true)
    | none => false)
  if jxtCcid ws ≠ c.rxCcid then fail 4
  else if c.cmac && !((key slot.toNat).any (fun k => cmacWord k body == ws.getLastD 0)) then fail 5
  else if safetyCode (jxtCovered c.cmac ws) ≠ jxtSafety c.cmac ws then fail 6
  else if !fresh && !(restart && echoOk) then fail 7
  else if !echoOk then fail 8
  else
    let bound := match echo with | some e => roundTrip b e cMs (jxtEage ws) | none => 0
    { cause := if echo.isNone || decide (jxAge c cMs < bound) then some 9 else none
      authentic := true, restart := restart, bound := bound }

/-- The record after a message was judged. -/
def JxtRec.apply (v : JxtVerdict) (b : W32) (ws : List W64) (r : JxtRec) : JxtRec :=
  let r := if v.authentic then
      { r with
        seq := some (jxtSeq ws), echo := jxtEcho ws
        reply := if jxtSeq ws = 0xFFFFFFFF then r.reply else some (jxtSeq ws)
        takenIn := if jxtSeq ws = 0xFFFFFFFF then r.takenIn else b }
    else r
  if v.cause.isNone then { r with words := ws, accepted := some (jxtSeq ws), missed := 0, timedOut := false } else r

/-- The newest message settled before a lane's own T0, with its settling number; one that settled while the lane was OUT, before `since`,
was not delivered to it (R16). -/
def JxtConn.before (since t0 : Nat) (x : JxtConn) : Option (List W64 × Nat) :=
  match x.newest with
  | some (ws, t) =>
    if t < since then none
    else if t < t0 then some (ws, x.serial)
    else match x.previous with
      | some (ws', t') => if t' < t0 ∧ since ≤ t' then some (ws', x.serial - 1) else none
      | none => none
  | none => none

end Sys2Proof.Machine
end

