-- ==== Sys2Proof/Machine/Release.lean ====
section
/-! DEFINITION. What a released message does at its port (R169): held for its ring window or for the mirror,
queued for arbitrating windows, sent on red and blue, or given to a CAN FD buffer. -/

namespace Sys2Proof.Machine

/-- A released message held for its window; a newer release replaces one that is still held (R274). -/
def Mach.holdMsg (h : HeldMsg) (m : Mach) : Mach :=
  { m with cal := { m.cal with vote := { m.cal.vote with
      held := m.cal.vote.held.filter (fun g => g.msg != h.msg) ++ [h] } } }

/-- A full queue drops the oldest entry of its lowest priority, the highest `PRIO` value (R267). -/
def dropLowest (q : List ArbItem) : List ArbItem :=
  let worst := q.foldl (fun a x => max a x.prio.toNat) 0
  q.eraseP (fun x => x.prio.toNat == worst)

/-- A sporadic message's voted version is queued when its body changed, or when `REFRESH` logic cycles have passed
since the last version was queued (R267). -/
def Mach.sporadicQueue (i : RingId) (msg : Nat) (words : List W64) (cycle : W32) (m : Mach) : Mach :=
  match (m.ringCfg i).bind (fun c => c.sporadic.find? (fun s => s.msg == msg)) with
  | none => m
  | some sp =>
    let body := (words.drop 1).dropLast
    let r := m.ring i
    let due := match r.sporadic.find? (fun x => x.msg == msg) with
      | some x => x.body != body || decide (sp.refresh ≤ (cycle - x.cycle).toNat)
      | none => true
    if due = false then m
    else
      let q := r.queue.filter (fun x => x.msg != msg)
      let full := decide (32 ≤ q.length)
      let m := m.updRing i (fun r => { r with
        queue := (if full then dropLowest q else q) ++ [{ msg := msg, prio := sp.prio, cycle := cycle, words := words }]
        arbDrop := if full then satInc r.arbDrop else r.arbDrop
        sporadic := { msg := msg, body := body, cycle := cycle } :: r.sporadic.filter (fun x => x.msg != msg) })
      if full then m.raise (schedPath i) 3 else m

/-- A message released to its port. -/
def Mach.releaseMsg (c : MsgCfg) (cycle : W32) (words : List W64) (m : Mach) : Mach :=
  match c.port with
  | .ring _ | .mirror => m.holdMsg { msg := c.msg, cycle := cycle, words := words, at0 := m.now }
  | .ringSporadic i => m.sporadicQueue i c.msg words cycle
  | .jxt k => m.jxtSend k words
  | .can p b => m.releaseCan p b words cycle
  | .canCommand p => m.releaseCanCommand p words

end Sys2Proof.Machine
end

