-- ==== Sys2Proof/Machine/Voter.lean ====
section
/-! DEFINITION. The message voter (R164 to R173): copies, slots, their judgement, and the release of messages. -/

namespace Sys2Proof.Machine

/-! ### Words and slots (R164 to R166) -/

def voteKindCode : VoteKind → Nat
  | .message => 0
  | .drive => 1
  | .probe => 2
  | .endHandover => 3

/-- Sideband bits [27:3]. -/
def sideband (w : VoteWord) : BitVec 25 :=
  BitVec.ofNat 25 (voteKindCode w.kind * 2 ^ 23 + bitOf w.last * 2 ^ 22 + w.msg % 4096 * 2 ^ 10 + w.word % 1024)

def Mach.msgCfg (m : Mach) (msg : Nat) : Option MsgCfg :=
  match m.sd with
  | some sd => sd.msgs.find? (fun c => c.msg == msg)
  | none => none

/-- The messages that this cycle hands over: mirror segments only as the lead of a pair (R374), and none in the cycle in
which an old lead hands over to a new set (R385). -/
def Mach.msgs (m : Mach) : List MsgCfg :=
  match m.sd with
  | some sd =>
    if m.pair.oldLead then []
    else sd.msgs.filter (fun c => c.port != .mirror || (sd.pair.paired && m.pair.role == .lead))
  | none => []

/-- Messages in ascending `MSG`. -/
def insertMsg (c : MsgCfg) : List MsgCfg → List MsgCfg
  | [] => [c]
  | d :: r => if c.msg ≤ d.msg then c :: d :: r else d :: insertMsg c r

def sortMsgs (cs : List MsgCfg) : List MsgCfg := cs.foldr insertMsg []

/-- `CHK` (R164): CRC-3 of polynomial x³ + x + 1 over the 64 data bits and sideband bits [27:3].
(DESIGN CHOICE log 4) -/
def voteChk (data : W64) (side : BitVec 25) : BitVec 3 :=
  let bits := (List.range 64).reverse.map data.getLsbD ++ (List.range 25).reverse.map side.getLsbD
  let p : CrcParams := ⟨3, 3, 0, false, false, 0⟩
  BitVec.ofNat 3 ((if Config.voteLowFirst then bits.reverse else bits).foldl (crcBit p) Config.voteInit.toNat) ^^^ Config.voteXor

/-- A drive record in a SYNC lane's hand-over, where every word is `KIND` 2 (R165): message 0, word 0x3FF, unless that is a
configured word. (DESIGN CHOICE log 84) -/
def Mach.probeDrive (m : Mach) (w : VoteWord) : Bool :=
  w.kind == .probe && w.msg == 0 && w.word == 0x3FF && !((m.msgCfg 0).any (fun c => decide (0x3FF < c.words)))

/-- A word that is a drive record. (DESIGN CHOICE log 84) -/
def Mach.isDrive (m : Mach) (w : VoteWord) : Bool := w.kind == .drive || m.probeDrive w

/-- A word's `MSG` is configured, and its `WORD` is below the configured length. -/
def Mach.named (m : Mach) (w : VoteWord) : Bool :=
  m.isDrive w || (m.msgCfg w.msg).any (fun c => decide (w.word < c.words))

/-- A copy is well formed (R166). -/
def Mach.wellFormed (m : Mach) (w : VoteWord) : Bool :=
  w.chk == voteChk w.data (sideband w) &&
    (m.isDrive w || (m.msgCfg w.msg).any (fun c => decide (w.word < c.words) && (w.last == decide (w.word + 1 = c.words))))

/-- The number under which absences from the drive record are kept, beside those from messages 0 to 4,095. -/
def driveMsg : Nat := 4096

def VoteSlot.key (s : VoteSlot) : Nat × Nat := if s.drive then (driveMsg, 0) else (s.msg, s.word)

def Mach.updVote (f : Voter → Voter) (m : Mach) : Mach := { m with cal := { m.cal with vote := f m.cal.vote } }
def Mach.updSlot (k : Nat × Nat) (f : VoteSlot → VoteSlot) (m : Mach) : Mach :=
  m.updVote (fun v => { v with slots := v.slots.map (fun s => if s.key = k then f s else s) })
def Mach.slot (m : Mach) (k : Nat × Nat) : Option VoteSlot := m.cal.vote.slots.find? (fun s => s.key == k)

/-- The keys of the cycle's slots in the order of R165. -/
def Mach.slotKeys (m : Mach) : List (Nat × Nat) :=
  (sortMsgs m.msgs).flatMap (fun c => (List.range c.words).map (fun k => (c.msg, k))) ++ [(driveMsg, 0)]

/-- The slot that a copy goes to: the one its `MSG` and `WORD` name; a word that they give no slot stands in its lane's stream where
the first word that it still owes was due. (DESIGN CHOICE log 90) -/
def Mach.slotOf (m : Mach) (given : Nat × Nat → Bool) (w : VoteWord) : Option (Nat × Nat) :=
  if m.isDrive w then some (driveMsg, 0)
  else if m.named w then some (w.msg, w.word)
  else m.slotKeys.find? (fun k => !given k)

/-- A lane is absent from a message in this cycle. -/
def Mach.absentFrom (m : Mach) (msg : Nat) (l : LaneId) : Bool := inMask ((assocGet msg m.cal.vote.absentMsgs).getD 0) l

/-- A slot that holds no copy of a counted lane yet: its window has not opened. -/
def VoteSlot.bare (s : VoteSlot) : Bool := s.copies == ⟨none, none, none⟩ && !s.closed

/-- The copies of counted lanes that stand in a slot. -/
def VoteSlot.present (s : VoteSlot) (counted : List LaneId) : List (LaneId × Copy) :=
  counted.filterMap (fun l => (s.copies.get l).map (fun c => (l, c)))

/-- The value that two well-formed copies share. -/
def agreed (cs : List (LaneId × Copy)) : Option W64 :=
  (cs.find? (fun x => x.2.good && decide (2 ≤ (cs.filter (fun y => y.2.good && y.2.data == x.2.data)).length))).map
    (fun x => x.2.data)

/-! ### Outvoted, absent, HALT -/

def VoteSlot.wordCode (s : VoteSlot) : Nat := if s.drive then 0x3FF else s.word

/-- `MV.LAST` takes an event of a slot. -/
def Mach.voteLast (s : VoteSlot) (kind : Nat) (lanes : BitVec 3) (m : Mach) : Mach :=
  m.updVote (fun v => { v with
    lastMsg := BitVec.ofNat 12 s.msg, lastWord := BitVec.ofNat 10 s.wordCode, lastKind := BitVec.ofNat 2 kind
    lastLane := lanes, lastCycle := m.cycleNo })

/-- A lane is outvoted on a word. -/
def Mach.outvote (s : VoteSlot) (l : LaneId) (m : Mach) : Mach :=
  let m := m.updVote (fun v => { v with
    outvoted := v.outvoted ||| maskOf (· == l)
    live := { v.live with outv := v.live.outv.upd l satInc } })
  ((m.voteLast s 1 (maskOf (· == l))).raise (calPath 1) 0).postCal
    (mkNotice 0x3001 (calPath 1) (BitVec.ofNat 32 (laneCode l)) (BitVec.ofNat 32 (s.msg * 1024 + s.wordCode))
      (some m.cycleNo) [ecSrc 0x21 (laneCode l)])

/-- A lane is absent from a whole message, counted once in a cycle. -/
def Mach.markAbsent (s : VoteSlot) (l : LaneId) (m : Mach) : Mach :=
  let k := s.key.1
  let old := (assocGet k m.cal.vote.absentMsgs).getD 0
  if inMask old l then m
  else
    let m := m.updVote (fun v => { v with
      absent := v.absent ||| maskOf (· == l)
      absentMsgs := assocSet k (old ||| maskOf (· == l)) v.absentMsgs
      live := { v.live with absent := v.live.absent.upd l satInc } })
    ((m.voteLast s 2 (maskOf (· == l))).raise (calPath 1) 1).postCal
      (srcNotice 3 0x22 (calPath 1) (laneCode l) (BitVec.ofNat 32 (laneCode l)) (BitVec.ofNat 32 s.msg) m)

/-- A slot leads to HALT: no majority of three, or a difference of two (R168). -/
def Mach.slotHalt (s : VoteSlot) (m : Mach) : Mach :=
  let code : Byte := if m.votingLanes.length = 3 then 0x04 else 0x05
  (m.voteLast s 3 m.votingMask).haltCallipers code

/-! ### Voted words and release (R168 to R170) -/

/-- The voted words of a message, when all of them are. -/
def Mach.votedWords (m : Mach) (c : MsgCfg) : Option (List W64) :=
  (List.range c.words).mapM (fun w => (m.slot (c.msg, w)).bind (fun s => s.voted))

/-- A message whose words are all voted is released, once. -/
def Mach.tryRelease (msg : Nat) (m : Mach) : Mach :=
  match m.msgCfg msg with
  | none => m
  | some c =>
    if m.cal.vote.released.contains msg then m
    else match m.votedWords c with
      | none => m
      | some ws =>
        (m.updVote (fun v => { v with
          released := msg :: v.released, live := { v.live with released := satInc v.live.released } })).releaseMsg
          c m.cal.vote.cycle ws

/-- A slot's word is voted: lanes whose copies differ from it are outvoted, and the message may be complete. The
voted drive record becomes the pending reference of the monitor (R180). -/
def Mach.emitVoted (s : VoteSlot) (v : W64) (m : Mach) : Mach :=
  let m := m.updSlot s.key (fun x => { x with voted := some v })
  let m := ((s.present m.votingLanes).filter (fun p => !(p.2.good && p.2.data == v))).foldl
    (fun m p => m.outvote s p.1) m
  if s.drive then
    let image : BitVec 24 := v.setWidth 24
    { m with cal := { m.cal with odm := { m.cal.odm with voted := image, pendingRec := some image } } }
  else m.tryRelease s.msg

/-- An open slot judged with the copies it now holds (R168). (DESIGN CHOICE log 88) -/
def Mach.judgeSlot (k : Nat × Nat) (m : Mach) : Mach :=
  match m.slot k with
  | none => m
  | some s =>
    if s.voted.isSome || s.closed then m
    else
      let cs := s.present m.votingLanes
      let n := m.votingLanes.length
      match agreed cs with
      | some v => m.emitVoted s v
      | none => if 2 ≤ n ∧ n ≤ cs.length then m.slotHalt s else m

/-- A copy that arrives after its slot was voted is compared with the voted word. -/
def Mach.compareLate (k : Nat × Nat) (l : LaneId) (c : Copy) (m : Mach) : Mach :=
  match m.slot k with
  | some s => (match s.voted with
      | some v => if c.good && c.data == v then m else m.outvote s l
      | none => m)
  | none => m

/-- A slot's window closes (R168): counted lanes without a copy are absent, except that two different copies of
three lead to HALT. -/
def Mach.closeSlot (k : Nat × Nat) (m : Mach) : Mach :=
  match m.slot k with
  | none => m
  | some s =>
    if s.closed then m
    else
      let m := m.updSlot k (fun x => { x with closed := true })
      let cs := s.present m.votingLanes
      if s.voted.isNone && decide (2 ≤ cs.length) then m.slotHalt s
      else (m.votingLanes.filter (fun l => (s.copies.get l).isNone)).foldl (fun m l => m.markAbsent s l) m

/-- The spread of counted copies in a slot, in 10 ns units, up to 400 (R185). -/
def VoteSlot.spread (s : VoteSlot) (counted : List LaneId) : Nat :=
  let ts := (s.present counted).map (fun p => p.2.at0)
  min 400 ((ts.foldl max 0 - ts.foldl min (ts.headD 0)) / 10)

/-! ### Arrival (R167, R168, R172, R173) -/

/-- Callipers accepts words from the earliest hand-over start of a counted lane to 4 µs after the last
end-of-hand-over word (R173). -/
def Mach.voteOpen (m : Mach) : Bool :=
  m.handsOver && m.cal.vote.began != 0 && m.cal.vote.lastEnd.all (fun t => decide (m.now ≤ t + 4000))

/-- The slot of a word, opened by its earliest copy. -/
def Mach.openSlot (k : Nat × Nat) (m : Mach) : Mach :=
  let drive := k.1 == driveMsg
  let s : VoteSlot := { drive := drive, msg := if drive then 0 else k.1, word := k.2, openAt := m.now }
  match m.slot k with
  | some _ => m
  | none => m.updVote (fun v => { v with slots := v.slots ++ [s] })

/-- A copy from a counted lane into a slot. (DESIGN CHOICE log 106) -/
def Mach.slotCopy (k : Nat × Nat) (w : VoteWord) (m : Mach) : Mach :=
  let m := (m.openSlot k).updSlot k (fun x => if x.bare then { x with openAt := m.now } else x)
  match m.slot k with
  | none => m
  | some s =>
    if m.absentFrom k.1 w.lane || (s.copies.get w.lane).isSome then m
    else if s.closed || decide (s.openAt + 4000 < m.now) then m.markAbsent s w.lane
    else
      let c : Copy := { data := w.data, good := m.wellFormed w, at0 := m.now }
      let m := m.updSlot k (fun x => { x with copies := x.copies.upd w.lane (fun _ => some c) })
      let m := match m.slot k with
        | some s => m.updVote (fun v => { v with
            skewNow := bvMax v.skewNow (BitVec.ofNat 10 (s.spread m.votingLanes)) })
        | none => m
      if s.voted.isSome then m.compareLate k w.lane c else m.judgeSlot k

/-- A copy from a counted lane. -/
def Mach.voteCopy (w : VoteWord) (m : Mach) : Mach :=
  match m.slotOf (fun k => m.absentFrom k.1 w.lane || (m.slot k).any (fun s => (s.copies.get w.lane).isSome)) w with
  | none => m
  | some k => m.slotCopy k w

/-- A probe word of a SYNC lane, kept beside its slot; the first for a slot stands. -/
def Mach.probeCopy (w : VoteWord) (m : Mach) : Mach :=
  match m.slotOf (fun k => (m.slot k).any (fun s => (s.probes.get w.lane).isSome)) w with
  | none => m
  | some k =>
    let c : Copy := { data := w.data, good := m.wellFormed w, at0 := m.now }
    (m.openSlot k).updSlot k (fun x =>
      if x.closed || (!x.bare && decide (x.openAt + 4000 < m.now)) || (x.probes.get w.lane).isSome then x
      else { x with probes := x.probes.upd w.lane (fun _ => some c) })

/-- An end-of-hand-over word of a counted lane. (DESIGN CHOICE log 89) -/
def Mach.endCopy (w : VoteWord) (m : Mach) : Mach :=
  m.updVote (fun v => { v with
    ended := v.ended ||| maskOf (· == w.lane), lastEnd := some m.now
    firstEnd := match v.firstEnd with | some t => some t | none => some m.now })

/-- R166: a word whose KIND does not fit its lane's life is ignored. (DESIGN CHOICE log 107) -/
def voteWordArrive (w : VoteWord) (m : Mach) : Mach :=
  if m.voteOpen = false then m
  else match m.life w.lane, w.kind with
    | .voting, .message | .voting, .drive => m.voteCopy w
    | .voting, .endHandover => m.endCopy w
    | .sync, .probe => m.probeCopy w
    | _, _ => m

/-- VOTE_WORD_ARRIVE. -/
def execVoteWordArrive (w : VoteWord) (t : Nat) (s : State) : Host.Outcome State Fault Refusal :=
  s.run (fun m => voteWordArrive w (m.tick t))

/-- A window closes 4 µs after its slot opened. -/
def skewWindowClose (msg word : Nat) (m : Mach) : Mach :=
  match m.slot (msg, word) with
  | some s => if s.bare || decide (m.now < s.openAt + 4000) then m else m.closeSlot (msg, word)
  | none => m

/-- SKEW_WINDOW_CLOSE. Message 4096 names the drive record. -/
def execSkewWindowClose (msg word : Nat) (t : Nat) (s : State) : Host.Outcome State Fault Refusal :=
  s.run (fun m => skewWindowClose msg word (m.tick t))

/-- A slot without a lane's copy and probe word. -/
def VoteSlot.drop (l : LaneId) (s : VoteSlot) : VoteSlot :=
  { s with
    copies := s.copies.upd l (fun _ => none), probes := s.probes.upd l (fun _ => none)
    gone := if (s.copies.get l).isSome then s.gone ||| maskOf (· == l) else s.gone }

/-- A lane's out line removes its copies from every open slot, and each is judged again (R167). -/
def Mach.removeCopies (l : LaneId) (m : Mach) : Mach :=
  let m := m.updVote (fun v => { v with slots := v.slots.map (fun s => if s.closed then s else s.drop l) })
  (m.cal.vote.slots.map VoteSlot.key).foldl (fun m k => m.judgeSlot k) m

end Sys2Proof.Machine
end

