-- ==== Sys2Proof/Machine/LaneLife.lean ====
section
/-! DEFINITION. The lane life cycle (R146 to R162): charges, OUT entries, exclusion lines, the supply supervisor's
reset, RESTART, SYNC with the rejoin transfer, and the entry into VOTING. -/

namespace Sys2Proof.Machine

def Mach.updAgr (l : LaneId) (f : Agreement → Agreement) (m : Mach) : Mach :=
  m.updLane l (fun x => { x with agr := f x.agr })

/-- 24 h in ns. -/
def dayNs : Nat := 86400000000000

/-- The RESTART entries that count at an instant (R160). -/
def Agreement.recentAttempts (now : Nat) (a : Agreement) : List Nat :=
  a.attempts.filter (fun t => decide (now < t + dayNs))

/-- A lane OUT in its slice with no attempt left is locked, and cycle numbers before alignment count on. (DEDUCED log 52) -/
def Agreement.attemptFree (now : Nat) (a : Agreement) : Bool := decide ((a.recentAttempts now).length < 3)

/-- The event counter sources that a cause counts for beside the OUT entry (R440). -/
def causeSrc (cause : Byte) (l : LaneId) : List (Byte × Byte) :=
  match cause.toNat with
  | 0x21 => [ecSrc 0x13 (laneCode l)]
  | 0x23 => [ecSrc 0x14 (laneCode l)]
  | 0x24 => [ecSrc 0x15 (laneCode l)]
  | 0x25 => [ecSrc 0x16 (laneCode l)]
  | _ => []

/-! ### OUT entry (R150, R161) -/

/-- What an OUT entry does to the lane itself: its windings and frames stop, its reset begins, the cause and the
cycle are recorded. With no attempt left it is held in reset until power-up (R160). -/
def Lane.goOut (roll : Bool) (cause : Byte) (now : Nat) (x : Lane) : Lane :=
  let noTry := !(x.agr.attemptFree now)
  let y := x.clear now
  { y with
    cop := { y.cop with lastOk := y.cop.lastOk && !x.cop.active }
    agr := { y.agr with
      life := .out, outCause := cause, outCycle := x.cop.cycleNo, outAt := now, limitFrom := now
      held := true, inReset := roll || cause != 0x40, resetAt := now, outs := satInc y.agr.outs, probe := false
      locked := y.agr.locked || noTry, free := roll || cause == 0x40, noSlice := !roll && cause == 0x40
      unusable := y.agr.unusable || (!roll && cause == 0x41)
      railBad := y.agr.railBad || (!roll && cause == 0x29) } }

/-- The module's mode follows the count of VOTING lanes at an OUT entry (R129, R159, R161). (DEDUCED log 15) -/
def Mach.countVoters (m : Mach) : Mach :=
  if m.evaluates = false then m
  else if m.votingLanes.length < 2 then m.haltLanes 0x02
  else if m.votingLanes.length = 2 ∧ m.mod.mode = .service then m.enterMode .degraded
  else m

/-- A lane goes OUT for a cause of R146. A lane that is OUT already does not go OUT again. -/
def Mach.laneOutFor (roll : Bool) (l : LaneId) (cause : Byte) (m : Mach) : Mach :=
  if m.isOut l ∨ m.mod.mode = .halt then m
  else
    let wasVoting := m.isVoting l
    let a := (m.lane l).agr
    let cyc := (m.lane l).cop.cycleNo
    let m := (m.updLane l (Lane.goOut roll cause m.now)).raise (lanePath l 6) 0
    let m := if a.locked then m else if (m.lane l).agr.locked then m.raise (lanePath l 6) 3 else m
    let m := if wasVoting then m else m.raise (lanePath l 6) 2
    let m := m.postModule (mkNotice 0x2001 (lanePath l 6) (cause.setWidth 32) cyc (some cyc)
      ([ecSrc 0x10 (laneCode l)] ++ causeSrc cause l ++ (if wasVoting then [] else [ecSrc 0x12 (laneCode l)])))
    if wasVoting then (m.removeCopies l).forcedOffAll.countVoters else m

def Mach.laneOut (l : LaneId) (cause : Byte) (m : Mach) : Mach := m.laneOutFor false l cause

/-- A lane that fails in BOOT, CONFIG or an outage, where no lane votes: it is held OUT with its cause and does not start with the
others; the supervisor's reset runs. With no attempt left it stays held until power-up (R150, R160, R401, R496). -/
def Mach.bootLaneOut (l : LaneId) (cause : Byte) (m : Mach) : Mach :=
  let old := (m.lane l).agr
  let cyc := (m.lane l).cop.cycleNo
  let m := (m.updAgr l (fun a => { a with
    life := .out, held := true, inReset := true, resetAt := m.now, waiting := false, outCause := cause, outCycle := cyc
    outAt := m.now, limitFrom := m.now, outs := satInc a.outs, free := false, noSlice := false, failedStart := true
    locked := a.locked || !a.attemptFree m.now })).raise (lanePath l 6) 0
  let m := if !old.locked && (m.lane l).agr.locked then m.raise (lanePath l 6) 3 else m
  m.postModule (mkNotice 0x2001 (lanePath l 6) (cause.setWidth 32) cyc (some cyc) ([ecSrc 0x10 (laneCode l)] ++ causeSrc cause l))

/-- A lane that BOOT, CONFIG or an outage has running: released from reset, and not failed there. -/
def Mach.startsUp (m : Mach) (l : LaneId) : Bool :=
  let a := (m.lane l).agr
  (m.mod.mode == .boot || m.mod.mode == .config || m.mod.activating) && !a.held && !a.inReset && !a.failedStart

/-- A lane fault raised by the Copier or the cycle timer (R128): recorded on the Copier page, the run ended
without a commit, and the lane OUT. -/
def Mach.copierFault (l : LaneId) (cause : Byte) (m : Mach) : Mach :=
  if m.isOut l ∨ m.mod.mode = .halt then m
  else
    let m := m.updLane l (fun x => { x with cop := { x.cop with
      faultCause := cause, faultRow := x.cop.rowPtr, faults := satInc x.cop.faults } })
    (m.raise (lanePath l 3) 0).laneOut l cause

/-! ### Exclusion lines (R147) -/

/-- A line that a lane asserts now. -/
def Mach.excludes (m : Mach) (l target : LaneId) : Bool :=
  !m.isOut l && (match (m.lane l).agr.exclUntil.get target with | some t => decide (m.now < t) | none => false)

/-- A lane asserts its line for another for 2 ms; the supervisor holds a lane in reset while both others do.
(DESIGN CHOICE log 83) -/
def Mach.assertExcl (l target : LaneId) (m : Mach) : Mach :=
  if l = target ∨ m.isOut l then m
  else
    let m := m.updAgr l (fun a => { a with exclUntil := a.exclUntil.upd target (fun _ => some (m.now + 2000000)) })
    if (laneIds.filter (· != target)).all (fun o => m.excludes o target) then m.laneOut target 0x28
    else if m.isOut target then m
    else m.postLane l (mkNotice (evCode 2 0x300) (lanePath l 6) (BitVec.ofNat 32 (laneCode target)) m.cycleNo
      (some m.cycleNo) [])

/-- A charge that every VOTING lane makes together (R146): the lane goes OUT by its own action, and the others
assert their lines for it. -/
def Mach.charge (l : LaneId) (cause : Byte) (m : Mach) : Mach :=
  if m.isVoting l then
    let m := m.laneOut l cause
    (m.votingLanes.filter (· != l)).foldl (fun m o => m.assertExcl o l) m
  else m

def exclusionLineExpire (l target : LaneId) (m : Mach) : Mach :=
  m.updAgr l (fun a =>
    match a.exclUntil.get target with
    | some t => if t ≤ m.now then { a with exclUntil := a.exclUntil.upd target (fun _ => none) } else a
    | none => a)

/-- EXCLUSION_LINE_EXPIRE. -/
def execExclusionLineExpire (l target : LaneId) (t : Nat) (s : State) : Host.Outcome State Fault Refusal :=
  s.run (fun m => exclusionLineExpire l target (m.tick t))

/-! ### Comparators (R142 to R145) -/

def comparatorCause : Comparator → Byte
  | .core => 0x20
  | .copier => 0x0B

/-- A comparator's charge on a lane, in a cycle or in a start. -/
def Mach.unitOut (l : LaneId) (cause : Byte) (m : Mach) : Mach :=
  if m.isOut l then m.bootLaneOut l cause else m.laneOut l cause

/-- A real mismatch of a comparator: the core's is cause 0x20, the Copier's 0x0B. -/
def Mach.mismatch (l : LaneId) (u : Comparator) (m : Mach) : Mach :=
  match u with
  | .core => m.unitOut l 0x20
  | .copier => if m.isOut l then m.bootLaneOut l 0x0B else m.copierFault l 0x0B

/-- A comparator compares while its unit runs (R143): the control cores from wake to sleep, the Copier in a run, and both in BOOT's
and RESTART's tests. -/
def Mach.unitRuns (m : Mach) (l : LaneId) (u : Comparator) : Bool :=
  let x := m.lane l
  x.agr.life == .restart || m.startsUp l ||
    (x.agr.life != .out && (match u with | .core => x.awake || m.phaseOf l == .sleepEntry | .copier => x.cop.active))

/-- A lane in its sleep entry, in which nothing is injected (R144). -/
def Mach.enteringSleep (m : Mach) (l : LaneId) : Bool := m.phaseOf l == .sleepEntry && (m.lane l).cop.holdSrc == 0

/-- The next injection position of a comparator, wrapping after the last. -/
def Agreement.nextPosition (u : Comparator) (a : Agreement) : Agreement :=
  match u with
  | .core => { a with injCore := if a.injCore.toNat < 139 then a.injCore + 1 else 0 }
  | .copier => { a with injEng := if a.injEng.toNat < 88 then a.injEng + 1 else 0 }

/-- COMPARATOR_MISMATCH. -/
def execComparatorMismatch (l : LaneId) (u : Comparator) (t : Nat) (s : State) : Host.Outcome State Fault Refusal :=
  s.run (fun m => let m := m.tick t; if m.unitRuns l u then m.mismatch l u else m)

/-- An injection at the next position: caught there it counts, and the position moves on; a capture elsewhere is a
real mismatch. -/
def comparatorInjection (l : LaneId) (u : Comparator) (c : Capture) (m : Mach) : Mach :=
  if m.unitRuns l u = false ∨ m.enteringSleep l = true then m
  else
    let m := m.updAgr l (Agreement.nextPosition u)
    match c with
    | .expected => m.updAgr l (fun a => { a with live := { a.live with injOk := satInc a.live.injOk } })
    | .otherPos => m.mismatch l u

/-- COMPARATOR_INJECTION. -/
def execComparatorInjection (l : LaneId) (u : Comparator) (c : Capture) (t : Nat) (s : State) :
    Host.Outcome State Fault Refusal :=
  s.run (fun m => comparatorInjection l u c (m.tick t))

/-- An injection that its comparator does not signal: the position moves on, and the lane is charged with cause 0x21. -/
def missedInjection (l : LaneId) (u : Comparator) (m : Mach) : Mach :=
  if m.unitRuns l u = false ∨ m.enteringSleep l = true then m
  else (m.updAgr l (Agreement.nextPosition u)).unitOut l 0x21

/-- MISSED_INJECTION. -/
def execMissedInjection (l : LaneId) (u : Comparator) (t : Nat) (s : State) : Host.Outcome State Fault Refusal :=
  s.run (fun m => missedInjection l u (m.tick t))

/-! ### The supervisor's reset and RESTART (R150, R151, R160) -/

/-- A lane enters RESTART; the attempt counts unless the OUT was for a planned slice or a firmware roll. -/
def Mach.enterRestart (l : LaneId) (m : Mach) : Mach :=
  m.updAgr l (fun a => { a with
    life := .restart, waiting := false, held := false, sync := .awaitFrames, failedStart := false, since := m.now
    limitFrom := if a.waiting then m.now else a.limitFrom
    attempts := if a.free then a.attempts else (m.now :: a.attempts).take 3 })

/-- A waiting lane enters RESTART as soon as two lanes are VOTING and an attempt is available. -/
def Mach.wakeWaiting (m : Mach) : Mach :=
  if m.evaluates = false then m
  else laneIds.foldl (fun m l =>
    let a := (m.lane l).agr
    if a.life == .out && a.waiting && decide (2 ≤ m.votingLanes.length) && a.attemptFree m.now then m.enterRestart l
    else m) m

/-- The 1.0 ms reset of an OUT lane ends. Lanes with no attempt left, with a rail outside its window, marked
unusable, or excluded by both others stay held, and so does every lane in DORMANT and HALT. A lane for which no attempt is available
while the module evaluates is held until power-up. -/
def supervisorResetEnd (l : LaneId) (m : Mach) : Mach :=
  let a := (m.lane l).agr
  if a.life ≠ .out ∨ a.inReset = false ∨ m.now < a.resetAt + 1000000 ∨ a.locked ∨ a.railBad ∨ a.unusable
      ∨ m.mod.mode = .dormant ∨ m.mod.mode = .halt then m
  else if (laneIds.filter (· != l)).all (fun o => m.excludes o l) then m
  else if m.evaluates && !a.attemptFree m.now then (m.updAgr l (fun a => { a with locked := true })).raise (lanePath l 6) 3
  else
    let m := m.updAgr l (fun a => { a with inReset := false, held := false, failedStart := a.failedStart && a.outCause != 0x29 })
    if m.evaluates && decide (2 ≤ m.votingLanes.length) then m.enterRestart l
    else m.updAgr l (fun a => { a with waiting := true })

/-- SUPERVISOR_RESET_END. -/
def execSupervisorResetEnd (l : LaneId) (t : Nat) (s : State) : Host.Outcome State Fault Refusal :=
  s.run (fun m => supervisorResetEnd l (m.tick t))

/-- A lane not VOTING 1.5 s after its OUT entry, or after the end of its wait, goes OUT with cause 0x34. -/
def rejoinTimeout (l : LaneId) (m : Mach) : Mach :=
  let a := (m.lane l).agr
  if (a.life == .restart || a.life == .sync) && decide (a.limitFrom + 1500000000 ≤ m.now) then m.laneOut l 0x34 else m

/-- REJOIN_TIMEOUT. -/
def execRejoinTimeout (l : LaneId) (t : Nat) (s : State) : Host.Outcome State Fault Refusal :=
  s.run (fun m => rejoinTimeout l (m.tick t))

/-! ### The entry into VOTING (R150, R157) -/

/-- A lane whose probe cycle passed enters VOTING at its T0; the third lane brings DEGRADED back to SERVICE. -/
def Mach.enterVoting (l : LaneId) (m : Mach) : Mach :=
  let ms : Nat := (m.now - (m.lane l).agr.outAt) / 1000000
  let m := if (m.lane l).agr.outCause = 0x40 then
      { m with bench := { m.bench with test := { m.bench.test with returnAt := some m.now } } } else m
  let m := m.updAgr l (fun a => { a with
    life := .voting, probe := true, sync := .awaitFrames, rejoinMs := satOf 11 ms, rejoins := satInc a.rejoins
    free := false, noSlice := false })
  let m := (m.raise (lanePath l 6) 1).postModule
    (mkNotice 0x2002 (lanePath l 6) (BitVec.ofNat 32 ms) m.cycleNo (some m.cycleNo) [ecSrc 0x11 (laneCode l)])
  if m.mod.mode = .degraded ∧ m.votingLanes.length = 3 then m.enterMode .service else m

end Sys2Proof.Machine
end

