-- ==== Sys2Proof/Machine/Rows.lean ====
section
/-! DEFINITION. A run of the logic table (R71 to R91, R100 to R102, R108 to R127): start, the four row classes, the
checkpoints and the evaluation deadline. -/

namespace Sys2Proof.Machine

/-! ### The timetable (R117, R119, R120, R126) -/

/-- The predicted close from T0, in half-ns (R120). -/
def predClose (rows timers : Nat) : Nat := 229400 + (rows + 1) * 5 + timers * 10

/-- Half-ns as 10 ns units, to the nearest. -/
def units10 (h : Nat) : Nat := (h + 10) / 20

def Mach.evalPct (m : Mach) : Nat :=
  match m.sd with
  | some sd => sd.settings.evalDlPct.getD 60
  | none => 60

/-- The evaluation deadline from T0, in ns (R119). -/
def Mach.evalDl (m : Mach) : Nat := m.cycleNs * m.evalPct / 100

/-- Checkpoint row `CPm` (R126). -/
def checkRow (rows k : Nat) : Nat := k * (rows + 1) / 4

/-! ### Rows (R72 to R77) -/

def rowClass (w : W64) : Nat := (w >>> 60).toNat
def rowField (w : W64) (hi lo : Nat) : Nat := (w.toNat / 2 ^ lo) % 2 ^ (hi - lo + 1)

/-- The reserved fields of a row's class are 0. -/
def reservedOk (w : W64) : Bool :=
  match rowClass w with
  | 0x1 | 0x2 => rowField w 51 50 == 0 && rowField w 31 30 == 0 && rowField w 11 0 == 0
  | 0x3 => rowField w 7 0 == 0
  | 0xE => rowField w 37 0 == 0
  | _ => false

/-- A class of R72. -/
def classOk (w : W64) : Bool := [0x1, 0x2, 0x3, 0xE].contains (rowClass w)

/-- A truth table at inputs (x2, x1, x0) (R74). -/
def truth (tt : Nat) (x2 x1 x0 : Bool) : Bool := tt.testBit (4 * bitOf x2 + 2 * bitOf x1 + bitOf x0)

/-- GATE (R75): ACC takes the truth table over ACC, A and B. -/
def gateRow (g : Grain) (w : W64) (x : Lane) : Lane :=
  let b (a : Nat) := x.mem.workBit g a
  { x with cop := { x.cop with acc := truth (rowField w 59 52) x.cop.acc (b (rowField w 49 32)) (b (rowField w 29 12)) } }

/-- STORE (R75): state bit D takes the truth table over ACC, A and D; ACC stays. -/
def storeRowOf (g : Grain) (w : W64) (x : Lane) : Lane :=
  let b (a : Nat) := x.mem.workBit g a
  let d := rowField w 29 12
  { x with mem := x.mem.putBit g d (truth (rowField w 59 52) x.cop.acc (b (rowField w 49 32)) (b d)) }

/-- A timer cell and done bit after a TIMER row, true-grain form (R90): enable, stored cell, preset. -/
def timerTrue (en : Bool) (cell : W32) (preset : Nat) : W32 × Bool :=
  if en then (setBit cell 31 true, decide (10 * preset ≤ cell.toNat % 2 ^ 24)) else (0, false)

/-- The same in counter-grain (R102), on the stored cell and the row's own preset field. -/
def timerCounter (en : Bool) (cell : W32) (preset : Nat) : W32 × Bool :=
  let elapsed := (~~~cell).toNat % 2 ^ 24
  let pre := 0xFFFFF - preset
  if en then (setBit cell 31 false, !(decide (10 * pre ≤ elapsed))) else (BitVec.allOnes 32, true)

/-- TIMER (R90, R102). -/
def timerRowOf (g : Grain) (w : W64) (x : Lane) : Lane :=
  let k := rowField w 39 26
  let cell := x.mem.cell g k
  let r := match g with
    | .counter => timerCounter (!x.cop.acc) cell (rowField w 59 40)
    | _ => timerTrue x.cop.acc cell (rowField w 59 40)
  { x with mem := (x.mem.putCell g k r.1).putBit g (rowField w 25 8) r.2 }

/-- A running cell's step by the cycle length in ms, saturating; in lane C on the complement (R91, R102). -/
def stepCell (g : Grain) (cMs : Nat) (w : W32) : W32 :=
  let t := grainWord g w
  let t := if t.getLsbD 31 then
      BitVec.ofNat 32 (t.toNat / 2 ^ 24 * 2 ^ 24 + min 0xFFFFFF (t.toNat % 2 ^ 24 + cMs))
    else t
  grainWord g t

/-- The timer step (R91): every visited cell, those with true index below `TIMERS`. A cell that an unlisted word
stands for does not run. -/
def timerStep (g : Grain) (h : ImageHeader) (timers cMs : Nat) (s : Stores) : Stores :=
  { s with timers := s.timers.map (fun p =>
      if trueCell g h p.1 < timers then (p.1, stepCell g cMs p.2) else p) }

/-! ### Fetching (R79) -/

/-- What a fetch of row `n` gives: the word, or none where it is uncorrectable. -/
def fetched (f : Fetch) (stored : W64) : Option W64 :=
  match f with
  | .clean | .corrected => some stored
  | .uncorrectable => none
  | .altered w => some w

/-- The fetch stage's marks: the row last fetched, and a correction counted. -/
def Mach.markFetch (l : LaneId) (f : Fetch) (n : Nat) (m : Mach) : Mach :=
  let m := m.updLane l (fun x => { x with cop := { x.cop with rowPtr := BitVec.ofNat 20 n } })
  match f with
  | .corrected =>
    let m := m.updLane l (fun x => { x with snd := { x.snd with
      corr := satInc x.snd.corr, lastCorr := BitVec.ofNat 20 n } })
    m.postLane l (mkNotice (evCode 2 0x18) (lanePath l 4) (BitVec.ofNat 32 n) m.cycleNo
      (some m.cycleNo) [ecSrc 0x18 (laneCode l)])
  | .uncorrectable =>
    let m := m.updLane l (fun x => { x with snd := { x.snd with uncorr := satInc x.snd.uncorr } })
    (m.raise (lanePath l 4) 1).postModule (mkNotice (evCode 2 0x19) (lanePath l 4) (BitVec.ofNat 32 n) m.cycleNo
      (some m.cycleNo) [ecSrc 0x19 (laneCode l)])
  | _ => m

/-- A row of the class that a command names: fetched, checked, and given its effect, or a row fault (R78, R110,
R128). A row of another valid class is not this command's. -/
def Mach.row (l : LaneId) (cls : Nat) (f : Fetch) (differs : Bool) (endOk : W64 → Nat → Bool)
    (eff : W64 → Lane → Lane) (m : Mach) : Mach :=
  let x := m.lane l
  if x.cop.active = false ∨ x.cop.ended ∨ m.isOut l then m
  else
    let n := x.cop.next
    match fetched f (memRead 0 x.mem.table n) with
    | none => (m.markFetch l f n).copierFault l 0x06
    | some w =>
      if classOk w = false ∨ reservedOk w = false then (m.markFetch l f n).copierFault l 0x04
      else if rowClass w ≠ cls then m
      else if endOk w n = false then (m.markFetch l f n).copierFault l 0x05
      else if differs then (m.markFetch l f n).copierFault l 0x0B
      else (m.markFetch l f n).updLane l (fun x =>
        let x := eff w x
        { x with cop := { x.cop with next := n + 1 } })

/-- GATE. -/
def execGate (l : LaneId) (f : Fetch) (differs : Bool) (t : Nat) (s : State) : Host.Outcome State Fault Refusal :=
  s.run (fun m => (m.tick t).row l 0x1 f differs (fun _ _ => true) (fun w x => gateRow x.strap w x))

/-- STORE. -/
def execStoreRow (l : LaneId) (f : Fetch) (differs : Bool) (t : Nat) (s : State) : Host.Outcome State Fault Refusal :=
  s.run (fun m => (m.tick t).row l 0x2 f differs (fun _ _ => true) (fun w x => storeRowOf x.strap w x))

/-- TIMER. -/
def execTimerRow (l : LaneId) (f : Fetch) (differs : Bool) (t : Nat) (s : State) : Host.Outcome State Fault Refusal :=
  s.run (fun m => (m.tick t).row l 0x3 f differs (fun _ _ => true) (fun w x => timerRowOf x.strap w x))

/-- The end marker's checks: its own row number and the lane's grain (R78). -/
def endRowOk (g : Grain) (w : W64) (n : Nat) : Bool :=
  rowField w 59 40 == n && rowField w 39 38 == grainCode g

/-- END: row evaluation ends and the timers step (R78, R91). -/
def execEndRow (l : LaneId) (f : Fetch) (differs : Bool) (t : Nat) (s : State) : Host.Outcome State Fault Refusal :=
  s.run (fun m => let m := m.tick t
    m.row l 0xE f differs (endRowOk (m.grain l)) (fun _ x =>
      { x with
        cop := { x.cop with ended := true }
        mem := match x.mem.header with
          | some h => timerStep x.strap h x.cop.timers.toNat m.cycleMs x.mem
          | none => x.mem }))

/-! ### Start (R81, R84, R95, R111) -/

/-- The values of a freshly initialised vector, in true grain (R95): the input and system regions are placed by
every run. -/
def initialBit (sd : StationData) (n : Nat) : Bool :=
  if inOutput n then sd.restrictOut.contains n
  else if inInput n then sd.restrictIn.contains n
  else inInternal n && sd.initial.contains n

/-- The working vector at the start of a run (R84): the committed one, with this cycle's majority image and system
bits. (DEDUCED log 13) -/
def startVector (g : Grain) (h : ImageHeader) (sd : StationData) (x : Lane) : Stores :=
  let s := if x.mem.needsInit then x.mem.load g h (initialBit sd) (fun _ => 0) else x.mem
  let s := { s with selWork := s.selDone, needsInit := false }
  let v (n : Nat) : Bool :=
    if inInput n then memBit 0 x.xch.majority n else decide (n - 0x24000 < 32) && x.xch.sysBits.getLsbD (n - 0x24000)
  s.place g h (fun n => inInput n || inSystem n) v

/-- A lane that may evaluate: VOTING, or SYNC in its probe cycle, its stores replaced by the rejoin transfer (R112).
(DEDUCED log 45) -/
def Lane.mayRun (x : Lane) : Bool := x.agr.life == .voting || (x.agr.life == .sync && x.agr.sync == .probing)

/-- A lane that waits for its transfer evaluates nothing; its cycle ends with the mapping.
(DEDUCED log 13, DEDUCED log 45, DESIGN CHOICE log 92) -/
def runStart (l : LaneId) (m : Mach) : Mach :=
  let x := m.lane l
  match m.sd, x.mem.header with
  | some sd, some h =>
    if x.phase = .exchange ∧ x.xch.mapped ∧ x.t0 + 108000 ≤ m.now then
      if x.mayRun then
        m.updLane l (fun x => { x with
          phase := .run
          mem := startVector x.strap h sd x
          cop := { x.cop with active := true, acc := grainBit x.strap false, next := 0, ended := false } })
      else m.updLane l (fun x => { x with phase := .sleepEntry })
    else m
  | _, _ => m

/-- RUN_START. -/
def execRunStart (l : LaneId) (t : Nat) (s : State) : Host.Outcome State Fault Refusal :=
  s.run (fun m => runStart l (m.tick t))

/-! ### Watching the run (R126 to R128) -/

/-- A lane in a cycle whose run has not closed. -/
def Lane.beforeClose (x : Lane) : Bool :=
  x.awake && x.mayRun && [Phase.wake, .sampling, .exchange, .run].contains x.phase

/-- Checkpoint `k`: `ROW_PTR` must read `CPk` within 4 rows, whether or not the run has started. -/
def progressCheckpoint (l : LaneId) (k : Nat) (m : Mach) : Mach :=
  let x := m.lane l
  let cp := checkRow x.cop.rows.toNat k
  let p := x.cop.rowPtr.toNat
  if x.beforeClose = false ∨ k = 0 ∨ 3 < k ∨ 2 * m.now < 2 * (x.t0 + 110000) + cp * 5 then m
  else if cp ≤ p + 4 ∧ p ≤ cp + 4 then m
  else m.copierFault l 0x07

/-- PROGRESS_CHECKPOINT. -/
def execProgressCheckpoint (l : LaneId) (k : Nat) (t : Nat) (s : State) : Host.Outcome State Fault Refusal :=
  s.run (fun m => progressCheckpoint l k (m.tick t))

/-- A mark that a lane running a cycle has not met: at `after` from T0 it is still in one of these phases. -/
def Mach.missedMark (l : LaneId) (after : Nat) (ph : List Phase) (cause : Byte) (m : Mach) : Mach :=
  let x := m.lane l
  if x.awake && ph.contains x.phase && decide (x.t0 + after ≤ m.now) then m.copierFault l cause else m

/-- PLL_LOCK_TIMEOUT: the PLL has not locked 20 µs after its start. -/
def execPllLockTimeout (l : LaneId) (t : Nat) (s : State) : Host.Outcome State Fault Refusal :=
  s.run (fun m => (m.tick t).missedMark l 20000 [.wake] 0x01)

/-- SAMPLING_DEADLINE: sampling not complete at 45 µs. -/
def execSamplingDeadline (l : LaneId) (t : Nat) (s : State) : Host.Outcome State Fault Refusal :=
  s.run (fun m => let m := m.tick t
    if (m.lane l).sampled then m else m.missedMark l 45000 [.wake, .sampling] 0x02)

/-- EXCHANGE_DEADLINE: own image not written, or mapping not complete, at 108 µs. -/
def execExchangeDeadline (l : LaneId) (t : Nat) (s : State) : Host.Outcome State Fault Refusal :=
  s.run (fun m => let m := m.tick t
    if (m.lane l).xch.ownSent && (m.lane l).xch.mapped then m
    else m.missedMark l 108000 [.wake, .sampling, .exchange] 0x03)

/-- EVALUATION_DEADLINE: close not complete at the evaluation deadline. -/
def execEvaluationDeadline (l : LaneId) (t : Nat) (s : State) : Host.Outcome State Fault Refusal :=
  s.run (fun m => let m := m.tick t
    m.missedMark l m.evalDl [.wake, .sampling, .exchange, .run] 0x08)

/-- HANDOVER_DEADLINE: hand-over not complete at the evaluation deadline + 400 µs. -/
def execHandoverDeadline (l : LaneId) (t : Nat) (s : State) : Host.Outcome State Fault Refusal :=
  s.run (fun m => let m := m.tick t
    m.missedMark l (m.evalDl + 400000) [.wake, .sampling, .exchange, .run, .handover] 0x0A)

/-- MIRROR_DEADLINE: the lead's mirror packet not complete at 90 % of C. -/
def execMirrorDeadline (l : LaneId) (t : Nat) (s : State) : Host.Outcome State Fault Refusal :=
  s.run (fun m => let m := m.tick t
    if m.mirrorDone ((m.lane l).t0 + m.cycleNs * 9 / 10) then m
    else m.missedMark l (m.cycleNs * 9 / 10) [.mirror] 0x0C)

/-! ### Sleep and keep-awake (R124, R125) -/

def holdBit : HoldReason → Nat
  | .transfer => 0
  | .pairLink => 1
  | .queueDrain => 2
  | .slicePrep => 3
  | .diagnostics => 4

/-- Sleep entry takes 4.0 µs from its start. -/
def sleepEntry (l : LaneId) (m : Mach) : Mach :=
  let x := m.lane l
  if m.phaseOf l = .sleepEntry ∧ x.phase ≠ .asleep ∧ x.cop.holdSrc = 0 then
    let u : BitVec 23 := satOf 23 ((m.now + 4000 - x.t0 + 5) / 10)
    m.updLane l (fun x => { x with
      phase := .asleep, awake := false, sleepEnd := m.now + 4000
      cop := { x.cop with
        lastSleep := u, live := { x.cop.live with awakeMax := bvMax x.cop.live.awakeMax u } } })
  else m

/-- SLEEP_ENTRY. -/
def execSleepEntry (l : LaneId) (t : Nat) (s : State) : Host.Outcome State Fault Refusal :=
  s.run (fun m => sleepEntry l (m.tick t))

/-- A hold is set by lane firmware, which runs only while the lane is awake; for the event queue, once more than 64 notices arrived in
the cycle (R434). -/
def keepAwakeHold (l : LaneId) (r : HoldReason) (on : Bool) (m : Mach) : Mach :=
  if (m.lane l).awake && !(on && r == .queueDrain && decide ((m.lane l).queue.arrived ≤ 64)) then
    m.updLane l (fun x => { x with cop := { x.cop with holdSrc := setBit x.cop.holdSrc (holdBit r) on } })
  else m

/-- KEEP_AWAKE_HOLD_SET. -/
def execKeepAwakeHoldSet (l : LaneId) (r : HoldReason) (t : Nat) (s : State) : Host.Outcome State Fault Refusal :=
  s.run (fun m => keepAwakeHold l r true (m.tick t))

/-- KEEP_AWAKE_HOLD_RELEASE. -/
def execKeepAwakeHoldRelease (l : LaneId) (r : HoldReason) (t : Nat) (s : State) :
    Host.Outcome State Fault Refusal :=
  s.run (fun m => keepAwakeHold l r false (m.tick t))

end Sys2Proof.Machine
end

