-- ==== Sys2Proof/Machine/Exchange.lean ====
section
/-! DEFINITION. The exchange (R132 to R140) and the rejoin transfer (R152 to R156): frames on the links, the intact
judgement, the accepted set, majority, digests and divergence. -/

namespace Sys2Proof.Machine

/-! ### Image frames (R133) -/

/-- A frame's CRC-32 over its other words, each most significant byte first (R132). (DESIGN CHOICE log 33) -/
def exchangeCrc (ws : List W32) : W32 := crc32 (ws.flatMap bytes32)

/-- Words 0 to 2,051 of an image frame. -/
def imageWords (f : ImageFrame) : List W32 :=
  [fields [(24, 0xA1), (22, laneCode f.sender), (20, if f.voting then 3 else 2)], f.cycle, f.digest, 0] ++
    (List.range 2048).map (memRead 0 f.image)

/-- Words 0 and 1 of a presence frame (R134). -/
def presenceWords (f : PresenceFrame) : List W32 :=
  [fields [(24, 0xA2), (22, laneCode f.sender), (3, bitOf f.request), (0, f.intact.toNat)], f.cycle]

/-- A frame with its CRC-32, and whether a frame's is right. -/
def sealImage (f : ImageFrame) : ImageFrame := { f with crc := exchangeCrc (imageWords f) }
def imageCrcOk (f : ImageFrame) : Bool := f.crc == exchangeCrc (imageWords f)
def sealPresence (f : PresenceFrame) : PresenceFrame := { f with crc := exchangeCrc (presenceWords f) }
def presenceCrcOk (f : PresenceFrame) : Bool := f.crc == exchangeCrc (presenceWords f)

/-- The system digest: CRC-32 over the 1,024 system bits in address order. (DEDUCED log 14) -/
def sysDigest (sysBits : W32) : W32 :=
  crc32 (((beBytes 4 sysBits.toNat).reverse) ++ List.replicate 124 0)

/-- At 45 µs a lane sends its image frame and writes it into its own buffer. -/
def imageFrameSend (l : LaneId) (m : Mach) : Mach :=
  let x := m.lane l
  if x.phase = .sampling ∧ x.sampled ∧ x.t0 + 45000 ≤ m.now then
    let f : ImageFrame := sealImage
      { sender := l, voting := x.agr.life == .voting, cycle := x.cop.cycleNo, digest := sysDigest x.xch.sysBits
        image := x.xch.sampled, crc := 0, at0 := m.now, done := m.now + 10265 }
    m.updLane l (fun x => { x with
      phase := .exchange
      xch := { x.xch with sent := some f, ownSent := true, images := x.xch.images.upd l (fun _ => some f) } })
  else m

/-- IMAGE_FRAME_SEND. -/
def execImageFrameSend (l : LaneId) (t : Nat) (s : State) : Host.Outcome State Fault Refusal :=
  s.run (fun m => imageFrameSend l (m.tick t))

/-- A SYNC lane takes its cycle phase and number from an image frame of a VOTING lane whose transmission began after
its SYNC entry, and requests a transfer (R152). -/
def adoptTiming (f : ImageFrame) (x : Lane) : Lane :=
  if x.agr.life = .sync ∧ x.agr.sync = .awaitFrames ∧ f.voting ∧ imageCrcOk f = true ∧ x.agr.syncAt ≤ f.at0 then
    { x with
      t0 := f.at0 - 45000, cop := { x.cop with cycleNo := f.cycle }
      agr := { x.agr with sync := .request } }
  else x

/-- What arrives on a link is written into the lane's own exchange buffer (R132). A lane that is OUT or in RESTART
takes nothing. -/
def exchangeFrameReceive (l : LaneId) (e : ExchangeFrame) (m : Mach) : Mach :=
  if m.life l = .out ∨ m.life l = .restart then m
  else m.updLane l (fun x => match e with
    | .image f =>
      if f.sender = l then x
      else adoptTiming f { x with xch := { x.xch with images := x.xch.images.upd f.sender (fun _ => some f) } }
    | .presence f =>
      if f.sender = l then x
      else { x with xch := { x.xch with presence := x.xch.presence.upd f.sender (fun _ => some f) } }
    | .transfer f =>
      if f.sender = l ∨ x.agr.life ≠ .sync then x
      else { x with xch := { x.xch with staging := x.xch.staging.filter (fun g => g.sender != f.sender) ++ [f] } })

/-- EXCHANGE_FRAME_RECEIVE. -/
def execExchangeFrameReceive (l : LaneId) (e : ExchangeFrame) (t : Nat) (s : State) :
    Host.Outcome State Fault Refusal :=
  s.run (fun m => exchangeFrameReceive l e (m.tick t))

/-! ### The intact judgement (R134) -/

/-- An image frame is intact at a lane. -/
def frameIntact (x : Lane) (f : ImageFrame) : Bool :=
  decide (f.done ≤ x.t0 + 62000) && imageCrcOk f && f.cycle == x.cop.cycleNo && f.voting

def intactMask (x : Lane) : BitVec 3 :=
  maskOf (fun o => match x.xch.images.get o with | some f => frameIntact x f | none => false)

/-- The offset of a lane's image frame from the 45.0 µs mark, in 10 ns units; 0x8000 for no frame.
(DESIGN CHOICE log 82) -/
def skewOf (x : Lane) (o : LaneId) : W16 :=
  match x.xch.images.get o with
  | some f => satInt 16 (((f.at0 : Int) - ((x.t0 + 45000 : Nat) : Int)) / 10)
  | none => 0x8000

/-- The lower-lettered and the higher-lettered other lane. -/
def otherLanes : LaneId → LaneId × LaneId
  | .a => (.b, .c)
  | .b => (.a, .c)
  | .c => (.a, .b)

/-- A lane in the exchange phase, or a SYNC lane that took its timing in this cycle. -/
def inExchange (x : Lane) : Bool := x.phase == .exchange || (x.agr.life == .sync && x.agr.sync == .request)

/-- At 62 µs the lane judges the frames and sends its presence frame, with the transfer request of a SYNC lane. -/
def intactJudgement (l : LaneId) (m : Mach) : Mach :=
  let x := m.lane l
  if inExchange x && decide (x.t0 + 62000 ≤ m.now) && !m.isOut l then
    let k := intactMask x
    let f : PresenceFrame := sealPresence
      { sender := l, intact := k, request := x.agr.life == .sync && x.agr.sync == .request
        cycle := x.cop.cycleNo, crc := 0, done := m.now }
    m.updLane l (fun x => { x with
      xch := { x.xch with sentPresence := some f, presence := x.xch.presence.upd l (fun _ => some f) }
      agr := { x.agr with intact := k, skewLo := skewOf x (otherLanes l).1, skewHi := skewOf x (otherLanes l).2 } })
  else m

/-- INTACT_JUDGEMENT. -/
def execIntactJudgement (l : LaneId) (t : Nat) (s : State) : Host.Outcome State Fault Refusal :=
  s.run (fun m => intactJudgement l (m.tick t))

/-! ### The accepted set and the majority (R135, R136) -/

/-- A presence frame counts as received at a lane. -/
def presenceOf (x : Lane) (o : LaneId) : Option PresenceFrame :=
  match x.xch.presence.get o with
  | some f => if presenceCrcOk f && decide (f.done ≤ x.t0 + 63000) then some f else none
  | none => none

/-- The accepted set at a lane. -/
def acceptedMask (m : Mach) (x : Lane) : BitVec 3 :=
  maskOf (fun o => inMask x.agr.intact o && (presenceOf x o).isSome &&
    m.votingLanes.all (fun v => match presenceOf x v with | some f => inMask f.intact o | none => true))

/-- The images of a set of lanes, in lane order. -/
def imagesOf (x : Lane) (k : BitVec 3) : List (LaneId × Mem 32) :=
  laneIds.filterMap (fun o => if inMask k o then (x.xch.images.get o).map (fun f => (o, f.image)) else none)

/-- The input words that some image or entry names. -/
def wordsOf (imgs : List (LaneId × Mem 32)) (extra : List Nat) : List Nat :=
  let ks := (imgs.flatMap (fun p => memKeys p.2) ++ extra).filter (· < 2048)
  (List.range 2048).filter (fun w => ks.contains w)

def maj3 (a b c : W32) : W32 := (a &&& b) ||| (a &&& c) ||| (b &&& c)

/-- A word of the consensus: two of three, or with two images their common value and the restrictive value where
they differ. -/
def consensusWord (restrict : Mem 32) (imgs : List (LaneId × Mem 32)) (w : Nat) : W32 :=
  match imgs with
  | [a, b, c] => maj3 (memRead 0 a.2 w) (memRead 0 b.2 w) (memRead 0 c.2 w)
  | [a, b] =>
    let x := memRead 0 a.2 w
    let y := memRead 0 b.2 w
    (x &&& y) ||| ((x ^^^ y) &&& memRead 0 restrict w)
  | _ => 0

def popcount (w : W32) : Nat := (List.range 32).foldl (fun n i => n + bitOf (w.getLsbD i)) 0

/-! ### Divergence tracking (R139, R140) -/

/-- The table during a pass: entries, whether a word could not be tracked, and the lane codes hit. -/
structure DivPass where
  tbl  : List DivEntry
  full : Bool
  hits : List Nat
  deriving DecidableEq, Repr

def trackDiv (w lane : Nat) (d : W32) (p : DivPass) : DivPass :=
  match p.tbl.find? (fun e => e.word == w && e.lane == lane) with
  | some e =>
    let hit := d &&& e.m3
    let e' : DivEntry := { word := w, lane := lane, m1 := d, m2 := d &&& e.m1, m3 := d &&& e.m2 }
    let rest := p.tbl.filter (fun x => !(x.word == w && x.lane == lane))
    { tbl := if d = 0 then rest else e' :: rest, full := p.full
      hits := if hit = 0 then p.hits else lane :: p.hits }
  | none =>
    if d = 0 then p
    else if p.tbl.length < 128 then
      { p with tbl := { word := w, lane := lane, m1 := d, m2 := 0, m3 := 0 } :: p.tbl
               full := p.full || p.tbl.length + 1 == 128 }
    else { p with full := true }

/-- The pass over a cycle's words. -/
def divPass (maj : Mem 32) (imgs : List (LaneId × Mem 32)) (ws : List Nat) (tbl : List DivEntry) : DivPass :=
  ws.foldl (fun p w =>
    match imgs with
    | [a, b] => trackDiv w 0 (memRead 0 a.2 w ^^^ memRead 0 b.2 w) p
    | _ => imgs.foldl (fun p x => trackDiv w (laneCode x.1) (memRead 0 x.2 w ^^^ memRead 0 maj w) p) p)
    { tbl := tbl, full := tbl.length == 128, hits := [] }

/-- The words on which a lane's image differs from the consensus. -/
def diffWords (maj : Mem 32) (img : Mem 32) (ws : List Nat) : Nat :=
  (ws.filter (fun w => memRead 0 img w != memRead 0 maj w)).length

/-! ### ACCEPTED_SET -/

/-- A VOTING lane's charge against a lane it judges on its own: itself goes OUT, another gets its exclusion line. -/
def Mach.judge (l target : LaneId) (cause : Byte) (m : Mach) : Mach :=
  if m.isVoting l = false then m
  else if l = target then m.laneOut l cause
  else m.assertExcl l target

/-- The system digests of the intact frames of VOTING lanes (R137): the lane that differs, or HALT. -/
inductive DigestVerdict where
  | agree | differs (l : LaneId) | halt
  deriving DecidableEq, Repr

/-- Rejoin: what a transfer copies, and when a SYNC lane's image counts. (DEDUCED log 45) -/
def digestVerdict (ds : List (LaneId × W32)) : DigestVerdict :=
  match ds with
  | [a, b, c] =>
    if a.2 = b.2 ∧ b.2 = c.2 then .agree
    else if a.2 = b.2 then .differs c.1
    else if a.2 = c.2 then .differs b.1
    else if b.2 = c.2 then .differs a.1
    else .halt
  | [a, b] => if a.2 = b.2 then .agree else .halt
  | _ => .agree

def digestsOf (m : Mach) (x : Lane) : List (LaneId × W32) :=
  laneIds.filterMap (fun o =>
    if m.isVoting o && inMask x.agr.intact o then (x.xch.images.get o).map (fun f => (o, f.digest)) else none)

/-- The majority pass in a lane: consensus, divergence table and statistics. -/
def majorityPass (l : LaneId) (acc : BitVec 3) (m : Mach) : Mach :=
  let x := m.lane l
  let imgs := imagesOf x acc
  let ws := wordsOf imgs (x.agr.div.map DivEntry.word)
  let maj := memBuild 0 ws (consensusWord x.xch.restrict imgs)
  let p := divPass maj imgs ws x.agr.div
  let two := imgs.length == 2
  let minor (o : LaneId) : Bool := !two && (match imgs.find? (fun q => q.1 == o) with
    | some q => decide (0 < diffWords maj q.2 ws) | none => false)
  let restr := match imgs with
    | [a, b] => ws.foldl (fun n w => n + popcount (memRead 0 a.2 w ^^^ memRead 0 b.2 w)) 0
    | _ => 0
  let big (o : LaneId) (n : Nat) : Nat := match imgs.find? (fun q => q.1 == o) with
    | some q => if 64 < diffWords maj q.2 ws then n + 1 else 0
    | none => 0
  let inc (b : Bool) (v : W32) : W32 := if b then satInc v else v
  let m := m.updLane l (fun x => { x with
    xch := { x.xch with majority := maj, formed := true, mapped := true }
    agr := { x.agr with
      div := p.tbl, divPeak := bvMax x.agr.divPeak (satOf 8 p.tbl.length)
      divOver := if p.full then satInc x.agr.divOver else x.agr.divOver
      bigRun := x.agr.bigRun.all big
      live := { x.agr.live with
        minorA := inc (minor .a) x.agr.live.minorA, minorB := inc (minor .b) x.agr.live.minorB
        minorC := inc (minor .c) x.agr.live.minorC, twoImg := inc two x.agr.live.twoImg
        restrict := satAdd x.agr.live.restrict restr } } })
  let m := if p.full then m.raise (lanePath l 6) 4 else m
  if p.hits.contains 0 then m.haltLanes 0x05
  else
    let runs := (m.lane l).agr.bigRun
    (laneIds.filter (fun o => p.hits.contains (laneCode o) || decide (4 ≤ runs.get o))).foldl
      (fun m o => m.judge l o 0x23) m

def acceptedSet (l : LaneId) (m : Mach) : Mach :=
  let x := m.lane l
  if x.phase = .exchange ∧ x.xch.formed = false ∧ x.t0 + 63000 ≤ m.now ∧ m.isOut l = false then
    let acc := acceptedMask m x
    let ds := digestsOf m x
    let own := (ds.find? (fun d => d.1 == l)).map Prod.snd
    let differ := maskOf (fun o => match own, (ds.find? (fun d => d.1 == o)).map Prod.snd with
      | some a, some b => a != b
      | _, _ => false)
    let miss (o : LaneId) (n : Nat) : Nat := if m.isVoting o && !inMask acc o then n + 1 else 0
    let m := m.updAgr l (fun a => { a with accept := acc, sysDig := differ, missRun := a.missRun.all miss })
    if (imagesOf x acc).length < 2 then m.haltLanes 0x03
    else
      let m := if m.isVoting l then (match digestVerdict ds with
        | .agree => m
        | .differs o => m.judge l o 0x25
        | .halt => m.haltLanes 0x04) else m
      let m := (laneIds.filter (fun o => decide (2 ≤ ((m.lane l).agr.missRun.get o)))).foldl
        (fun m o => m.judge l o 0x24) m
      if m.isOut l then m else majorityPass l acc m
  else m

/-- ACCEPTED_SET. -/
def execAcceptedSet (l : LaneId) (t : Nat) (s : State) : Host.Outcome State Fault Refusal :=
  s.run (fun m => acceptedSet l (m.tick t))

/-! ### The rejoin transfer (R153 to R156) -/

/-- The sizes of the three parts of a transfer in words: vector, cells, communication state. (DEDUCED log 45) -/
def transferSizes (timers : Nat) : List Nat := [8192, timers, 8192]

/-- The running values that pass: no computation runs at the transfer point, so they are the start values of the contexts in use
(R340). (DEDUCED log 45) -/
def Mach.startValues (m : Mach) : List (Option W64) :=
  (List.range 8).map (fun k => (m.ctxParams k).map (fun p => BitVec.ofNat 64 p.init))

/-- A context takes a running value, and its complement beside it. -/
def CvCtx.resume (v : Option W64) (c : CvCtx) : CvCtx :=
  match v with
  | some r => { c with run := r, runC := ~~~r, running := false }
  | none => c

/-- The words of a transfer before its check word: header, state vector, timer cells and communication state.
(DESIGN CHOICE log 116) -/
def copyWords (c : TransferCopy) : List W32 :=
  [c.cycle, (c.sdId >>> 32).setWidth 32, c.sdId.setWidth 32, BitVec.ofNat 32 c.timers, BitVec.ofNat 32 (laneCode c.sender),
    Config.sizesWord c.sizes, 0, 0] ++
    (List.range 8192).map (memRead 0 c.vector) ++ (List.range c.timers).map (memRead 0 c.cells) ++
    Config.commWords c.comm c.values c.pfAux c.rampWas

def copyCrc (c : TransferCopy) : W32 := crc32 ((copyWords c).flatMap bytes32)
def copyIntact (c : TransferCopy) : Bool := c.crc == copyCrc c

/-- A VOTING lane's copy of its committed state, in true grain, before its check word. -/
def copyBody (g : Grain) (l : LaneId) (sdId : W64) (values : List (Option W64)) (x : Lane) : TransferCopy :=
  { sender := l, cycle := x.cop.cycleNo, sdId := sdId, timers := x.cop.timers.toNat, sizes := transferSizes x.cop.timers.toNat
    vector := memBuild 0 (List.range 8192) (x.trueWord g)
    cells := memBuild 0 (List.range x.cop.timers.toNat) (x.trueCellWord g)
    comm := x.comm, values := values, pfAux := x.pfAux, rampWas := x.rampWas, crc := 0 }

/-- The copy with its check word. (DEDUCED log 45) -/
def copyOf (g : Grain) (l : LaneId) (sdId : W64) (values : List (Option W64)) (x : Lane) : TransferCopy :=
  let c := copyBody g l sdId values x
  { c with crc := copyCrc c }

/-- A VOTING lane serves a transfer request of its cycle after its last phase, held awake for it by hold reason [0] (R125, R153), but
not in a cycle in which it ends its mirror packet after 90 % of C (R155). (DEDUCED log 45, DESIGN CHOICE log 92) -/
def transferServe (l dest : LaneId) (m : Mach) : Mach :=
  let x := m.lane l
  let asked := match presenceOf x dest with | some f => f.request | none => false
  let lateMirror := m.pair.mirrorEnd.any (fun e => decide (x.t0 + m.cycleNs * 9 / 10 < e))
  if m.isVoting l && m.phaseOf l == .sleepEntry && x.cop.holdSrc.getLsbD 0 && asked && !lateMirror && x.xch.sentCopy.isNone then
    match m.sd with
    | some sd => m.updLane l (fun x => { x with xch := { x.xch with sentCopy := some (copyOf x.strap l sd.id m.startValues x) } })
    | none => m
  else m

/-- TRANSFER_SERVE. -/
def execTransferServe (l dest : LaneId) (t : Nat) (s : State) : Host.Outcome State Fault Refusal :=
  s.run (fun m => transferServe l dest (m.tick t))

/-- The requesting lane takes two equal copies; it asks again when one is missing, damaged or of other station data;
copies that differ send the module to HALT. (DEDUCED log 45) -/
def transferReceive (l : LaneId) (m : Mach) : Mach :=
  let x := m.lane l
  match m.sd, x.mem.header with
  | some sd, some h =>
    if x.agr.life = .sync ∧ x.agr.sync = .request then
      let again := m.updLane l (fun x => { x with xch := { x.xch with staging := [] } })
      match x.xch.staging.filter (fun c => m.isVoting c.sender) with
      | [a, b] =>
        if !(copyIntact a && copyIntact b) || a.sdId != sd.id || b.sdId != sd.id then again
        else if { b with sender := a.sender, crc := a.crc } = a then
          m.updLane l (fun x =>
            let s := x.mem.load x.strap h (memBit 0 a.vector) (memRead 0 a.cells)
            { x with
              mem := { s with needsInit := false }
              comm := a.comm, pfAux := a.pfAux, rampWas := a.rampWas
              cv := (x.cv.zipIdx).map (fun q => q.1.resume (a.values.getD q.2 none))
              xch := { x.xch with staging := [] }
              agr := { x.agr with sync := .probeDue } })
        else
          (m.laneOut l 0x31).enterHalt 0x06 (laneCode l)
      | _ => again
    else m
  | _, _ => m

/-- TRANSFER_RECEIVE. -/
def execTransferReceive (l : LaneId) (t : Nat) (s : State) : Host.Outcome State Fault Refusal :=
  s.run (fun m => transferReceive l (m.tick t))

end Sys2Proof.Machine
end

