-- ==== Sys2Proof/Machine/FieldOut.lean ====
section
/-! DEFINITION. Safety outputs (R218 to R236, R387): readback, test pulses, current and temperature, clearing and
coupler frames, with the resolution of demands that meet a pulse (R228). -/

namespace Sys2Proof.Machine

/-! ### Readback (R221, R222, R235) -/

/-- The class of a terminal voltage against the field supply, both in 10 mV. -/
inductive TermClass where
  | low | mid | high
  deriving DecidableEq, Repr

def termClass (supply v : Int) : TermClass :=
  if 100 * v ≤ 30 * supply then .low else if 70 * supply ≤ 100 * v then .high else .mid

/-- The judgement of a pair of classes with both poles open; 0 is healthy. -/
def offCode (c : OutCfg) (p q : TermClass) : Nat :=
  match p, q with
  | .mid, .mid => 0
  | .low, .high => if c.old && !c.ored then 6 else 0
  | .high, .high => 1
  | .low, .low => 2
  | _, _ => 11

/-- The field supply as the monitor last sampled it. -/
def Mach.supplyV (m : Mach) : Int := m.field.fsm.samples.headD 0

/-- A sample of the terminals. A pole that the drive closes, or that is under test, reads closed with its terminal at its rail
(R224, R225); with neither driven both poles read open, whatever holds a terminal (R237's worked reading).
(DEDUCED log 23) -/
def OutCh.senses (vp vn : Int) (p q : TermClass) (x : OutCh) : OutCh :=
  let live := x.drvPos || x.drvNeg || x.test.isSome
  { x with vpos := satInt 16 vp, vneg := satInt 16 vn, pos := live && p == .high, neg := live && q == .low }

/-- A pole's reading as a pulse's checks show it. -/
def OutCh.reads (p : Pole) (closed : Bool) (x : OutCh) : OutCh :=
  match p with
  | .pos => { x with pos := closed }
  | .neg => { x with neg := closed }

/-- Readback: how runs of judgements and of low current are kept, what a finding does to an earlier code, and what POS and NEG read with neither pole driven. (DEDUCED log 23) -/
def offStateJudgement (n : Nat) (vp vn : Int) (m : Mach) : Mach :=
  match m.field.out[n]?, m.outCfg n with
  | some x, some c =>
    if m.fieldRuns = false then m
    else
      let p := termClass m.supplyV vp
      let q := termClass m.supplyV vn
      let m := m.updOut n (OutCh.senses vp vn p q)
      if c.used = false ∨ m.field.fsm.held ∨ x.drvPos ∨ x.drvNeg ∨ x.test.isSome ∨ m.now < x.settleAt + 20000000 then m
      else
        let code := offCode c p q
        let run := if x.judge = code then x.judgeRun + 1 else 1
        let m := m.updOut n (fun x => { x with
          judge := code, judgeRun := run
          healthyAt := if code ≠ 0 then none else if run < 10 then x.healthyAt
            else match x.healthyAt with | some t => some t | none => some m.now })
        if run < 10 then m
        else if code = 0 then
          let inStep := m.mod.sweepState == 1 && m.mod.sweepStarted && m.mod.sweepStep.toNat == n
          m.updOut n (fun x => { x with
            fromDark := none, swOff := x.swOff || (inStep && decide (m.now ≤ m.mod.sweepStepAt + 40000000)) })
        else if code = 6 then m.outUnavail n 6
        else (m.outFault n code).updOut n (fun x => { x with fromDark := none })
  | _, _ => m

/-- OFF_STATE_JUDGEMENT: terminal voltages in 10 mV. -/
def execOffStateJudgement (n : Nat) (vp vn : Int) (t : Nat) (s : State) : Host.Outcome State Fault Refusal :=
  s.run (fun m => offStateJudgement n vp vn (m.tick t))

/-- `OUT.CFG.IMIN`, default 5 mA (R222). -/
def outImin (c : OutCfg) : Nat := c.imin.getD 5

/-- A sample of the terminals and the current: below `IMIN` for 100 ms with both poles closed it is an open load.
(DEDUCED log 23) -/
def openLoadOn (n mA : Nat) (vp vn : Int) (m : Mach) : Mach :=
  match m.field.out[n]?, m.outCfg n with
  | some x, some c =>
    if m.fieldRuns = false then m
    else
      let i : BitVec 12 := satOf 12 mA
      let m := m.updOut n (fun x =>
        { x with cur := i, ipeak := bvMax x.ipeak i }.senses vp vn (termClass m.supplyV vp) (termClass m.supplyV vn))
      if c.used = false ∨ m.field.fsm.held ∨ (x.drvPos && x.drvNeg) = false ∨ x.test.isSome
          ∨ m.now < x.driveAt + 1000000 then m
      else if mA < outImin c then
        let since := x.lowCurAt.getD m.now
        let m := m.updOut n (fun x => { x with lowCurAt := some since, healthyAt := none })
        if since + 100000000 ≤ m.now ∧ c.old ∧ c.ored = false then m.outUnavail n 6 else m
      else m.updOut n (fun x => { x with
        lowCurAt := none, healthyAt := match x.healthyAt with | some t => some t | none => some m.now })
  | _, _ => m

/-- OPEN_LOAD_ON: the current in mA and the terminal voltages in 10 mV. -/
def execOpenLoadOn (n mA : Nat) (vp vn : Int) (t : Nat) (s : State) : Host.Outcome State Fault Refusal :=
  s.run (fun m => openLoadOn n mA vp vn (m.tick t))

/-! ### The test period (R223, R227) -/

/-- One output at the start of a period: the poles that no pulse of the last one judged. Outside a sweep its slot is to come. -/
def OutCh.newPeriod (counts sweeps : Bool) (x : OutCh) : OutCh :=
  let x := { x with
    noPos := if counts && !x.judgedPos then x.noPos + 1 else x.noPos
    noNeg := if counts && !x.judgedNeg then x.noNeg + 1 else x.noNeg
    posAge := satInc x.posAge, negAge := satInc x.negAge
    judgedPos := false, judgedNeg := false }
  if sweeps then x
  else { x with repeatsPos := 0, repeatsNeg := 0, repeatDue := none, repeatNow := none, startPos := false, startNeg := false }

/-- The output becomes overdue. -/
def Mach.outOverdue (n : Nat) (m : Mach) : Mach :=
  match m.field.out[n]? with
  | none => m
  | some x =>
    if x.isOverdue = false ∨ outUsed m n = false then m.updOut n (fun x => { x with overdue := false })
    else
      let m := if x.overdue then m else (m.updOut n (fun x => { x with overdue := true })).raise (fieldPath 2) 4
      m.outUnavail n 0xA

def testPeriodStart (m : Mach) : Mach :=
  let t0 := (m.lane m.countLane).t0
  if m.evaluates = false ∨ m.cycleMs = 0 ∨ m.cycleNo.toNat * m.cycleMs % 1024 ≠ 0
      ∨ (m.field.periodOn && m.field.periodAt == t0) then m
  else
    let had := m.field.periodOn
    let m := (List.range 24).foldl (fun m n =>
      (m.updOut n (OutCh.newPeriod (had && outUsed m n) (m.mod.sweepState == 1))).outOverdue n) m
    m.updField (fun x => { x with periodAt := t0, periodOn := true, suspended := m.mod.sweepState == 1 })

/-- TEST_PERIOD_START. -/
def execTestPeriodStart (t : Nat) (s : State) : Host.Outcome State Fault Refusal :=
  s.run (fun m => testPeriodStart (m.tick t))

/-! ### Pulses (R223 to R226, R231, R387) -/

/-- When a pole's pulse of the present period starts: 2.4 ms later in copy 1 of a pair. -/
def Mach.pulseTime (m : Mach) (n : Nat) (p : Pole) : Nat :=
  let late : Nat := if (m.sd.any (fun sd => sd.pair.paired)) && m.ident.copy == 1 then 2400000 else 0
  m.field.periodAt + n * 31000000 + (match p with | .pos => 1000000 | .neg => 16000000) + late

/-- A step of a field sweep calls for a light pulse on a pole now (R405). -/
def Mach.sweepPulse (m : Mach) (n : Nat) (p : Pole) : Bool :=
  m.mod.sweepState == 1 && m.mod.sweepStep.toNat == n && m.mod.sweepStarted &&
    decide (m.mod.sweepStepAt + (match p with | .pos => 40000000 | .neg => 80000000) ≤ m.now)

/-- A first pulse of a slot, a repeat, or a sweep pulse is called for now. (DEDUCED log 24) -/
def Mach.pulseCalled (m : Mach) (n : Nat) (x : OutCh) (p : Pole) : Bool :=
  let begun : Bool := match p with | .pos => x.startPos | .neg => x.startNeg
  if m.mod.sweepState = 1 then x.repeatNow == some p || (m.sweepPulse n p && !begun)
  else !m.field.suspended && (x.repeatNow == some p ||
    (m.field.periodOn && !begun && decide (m.pulseTime n p ≤ m.now) && decide (m.now < m.pulseTime n p + 15000000)))

/-- Pulses run on a used, armed output without FAULT or hold while the watchdog is released, one output at a time. -/
def Mach.pulseMay (m : Mach) (n : Nat) (x : OutCh) : Bool :=
  outUsed m n && m.fieldRuns && !m.cal.odm.tripped && !x.isFault && !x.latch && !x.unusable && !m.field.fsm.held
    && x.armed && m.field.out.all (fun y => y.test.isNone)

/-- The image bit that the VOTING lanes have latched for an output. -/
def Mach.latchedBit (m : Mach) (n : Nat) : Bool :=
  decide (2 ≤ (m.votingLanes.filter (fun l => (m.lane l).drive.latched.getLsbD n)).length)

/-- A light pulse on an ORED output waits for a partner that is present and reports no shorted pole (R387). -/
def Mach.oredLightOk (m : Mach) (n : Nat) : Bool :=
  !(m.outCfg n |>.any (fun c => c.ored)) ||
    (m.pair.present && (match m.pair.partner with
      | some f => !([1, 2, 11].contains (f.faults.getD n 0).toNat)
      | none => false))

/-- The windings driven on the tested pole agree with a pulse of one kind: at most one for dark, two in phase for light. Where
the phase leaves the count open, what the monitor senses decides (R226, R499). (DEDUCED log 24) -/
def Mach.countFits (m : Mach) (n : Nat) (x : OutCh) (p : Pole) (kind : PulseKind) : Bool :=
  match windingDrive m n x p, kind with
  | .on, .dark => false
  | .off, .light => false
  | _, _ => true

/-- While a pulse changes the drive, its count must fit throughout. -/
def Mach.recount (n : Nat) (m : Mach) : Mach :=
  m.updOut n (fun x => match x.test with
    | some k => if x.tphase = 1 then { x with pendMatch := x.pendMatch && m.countFits n x x.tpole k } else x
    | none => x)

/-- A lane's latch changed the output's bit less than 200 µs before an instant (R228, R231). (DEDUCED log 24) -/
def OutCh.changedBefore (e : Nat) (x : OutCh) : Bool :=
  laneIds.any (fun l => match x.changes.get l with | some t => decide (t ≤ e) && decide (e < t + 200000) | none => false)

/-- A pulse starts, or is discarded because its output's bit changed less than 200 µs before. Each VOTING lane drives the kind
of its own latched bit. What the pulse shows until its checks is given with it: `ok` for the tested pole, `follow` for the other
terminal, `matched` for the sensed winding count. (DEDUCED log 24) -/
def Mach.startPulse (n : Nat) (p : Pole) (kind : PulseKind) (ok follow matched : Bool) (m : Mach) : Mach :=
  match m.field.out[n]? with
  | none => m
  | some x =>
    if m.pulseMay n x = false ∨ m.pulseCalled n x p = false ∨ m.latchedBit n ≠ (kind == .dark)
        ∨ (kind = .light ∧ m.oredLightOk n = false) then m
    else
      let m := m.updOut n (fun x =>
        let x := if x.repeatNow = some p then { x with repeatNow := none } else x
        match p with | .pos => { x with startPos := true } | .neg => { x with startNeg := true })
      if x.changedBefore m.now then m.pulseDiscard n m.now p
      else
        let m := m.updOut n (fun x => { x with
          test := some kind, tpole := p, tphase := 1, pulseAt := m.now, pulseEnd := some (m.now + 200000)
          pulseLanes := maskOf m.isVoting, offLanes := 0, verifyTo := if kind = .light then m.now + 300000 else 0
          darkLanes := maskOf (fun l => (m.lane l).drive.latched.getLsbD n)
          pendOk := ok, pendFollow := follow, pendMatch := matched })
        ((m.setPole n p).recount n).updOut n (OutCh.reads p (ok == (kind == .light)))

/-- DARK_PULSE. -/
def execDarkPulse (n : Nat) (p : Pole) (opened matched : Bool) (t : Nat) (s : State) :
    Host.Outcome State Fault Refusal :=
  s.run (fun m => (m.tick t).startPulse n p .dark opened true matched)

/-- A change seen on another output is a cross-connection finding on both. It counts if it begins from the pulse's start to
100 µs after its end, was not due to that output's own bit, and is no current change of an ORED output (R231, R235). An unused
output is watched too, but carries no finding itself (R221). (DEDUCED log 24) -/
def Mach.crossFound (n : Nat) (m : Mach) (c : CrossChange) : Mach :=
  match m.field.out[n]?, m.field.out[c.out]?, m.outCfg c.out with
  | some x, some y, some cfg =>
    let e := x.pulseAt + c.after
    let inWindow := match x.pulseEnd with | some t => decide (e ≤ t + 100000) && decide (e ≤ m.now) | none => false
    if c.out = n ∨ inWindow = false ∨ y.changedBefore e ∨ (c.current && cfg.ored) then m
    else
      let m := m.updOut n (fun x => { x with xconn := BitVec.ofNat 5 c.out })
      let m := m.updOut c.out (fun y => { y with xconn := BitVec.ofNat 5 n })
      if cfg.used then (m.outFault n 8).outFault c.out 8 else m.outFault n 8
  | _, _, _ => m

def Mach.crossFindings (n : Nat) (cs : List CrossChange) (m : Mach) : Mach := cs.foldl (Mach.crossFound n) m

/-- The pulse that an output runs on a pole, in a phase and at its time. -/
def OutCh.runs (kind : PulseKind) (p : Pole) (phase after now : Nat) (x : OutCh) : Bool :=
  x.test == some kind && x.tpole == p && x.tphase == phase && decide (x.pulseAt + after ≤ now)

/-- At t0 + 200 µs the windings are driven again, and the open check is judged. -/
def darkPulseRedrive (n : Nat) (p : Pole) (m : Mach) : Mach :=
  match m.field.out[n]? with
  | none => m
  | some x =>
    if x.runs .dark p 1 200000 m.now = false then m
    else
      let m := (m.updOut n (fun x => { x with tphase := 2, pulseLanes := 0 })).setPole n p
      if x.pendMatch = false then m.pulseDiscard n x.pulseAt p else if x.pendOk then m else m.keepDark n x

/-- DARK_PULSE_REDRIVE, with the changes seen on other outputs by then. -/
def execDarkPulseRedrive (n : Nat) (p : Pole) (seen : List CrossChange) (t : Nat) (s : State) :
    Host.Outcome State Fault Refusal :=
  s.run (fun m => darkPulseRedrive n p ((m.tick t).crossFindings n seen))

/-- By t0 + 320 µs the output meets R222 once more, or the pole did not close. -/
def darkPulseReclose (n : Nat) (p : Pole) (ok : Bool) (m : Mach) : Mach :=
  match m.field.out[n]? with
  | none => m
  | some x =>
    if x.runs .dark p 2 320000 m.now = false then m
    else
      let m := (m.updOut n (OutCh.reads p ok)).pulseJudged n ok
      if ok then m else m.outFault n 5

/-- DARK_PULSE_RECLOSE_CHECK. -/
def execDarkPulseRecloseCheck (n : Nat) (p : Pole) (ok : Bool) (seen : List CrossChange) (t : Nat) (s : State) :
    Host.Outcome State Fault Refusal :=
  s.run (fun m => darkPulseReclose n p ok ((m.tick t).crossFindings n seen))

/-- LIGHT_PULSE. -/
def execLightPulse (n : Nat) (p : Pole) (closed follow matched : Bool) (t : Nat) (s : State) :
    Host.Outcome State Fault Refusal :=
  s.run (fun m => (m.tick t).startPulse n p .light closed follow matched)

/-- Follow-through is judged: `OLD` 1, or in a sweep, and never on an ORED output (R225, R405). -/
def Mach.followJudged (m : Mach) (n : Nat) : Bool :=
  m.outCfg n |>.any (fun c => (c.old || m.mod.sweepState == 1) && !c.ored)

/-- At t0 + 200 µs the windings stop and the verify phase begins. -/
def lightPulseEnd (n : Nat) (p : Pole) (m : Mach) : Mach :=
  match m.field.out[n]? with
  | none => m
  | some x =>
    if x.runs .light p 1 200000 m.now = false then m
    else
      let m := (m.updOut n (fun x => { x with tphase := 2, pulseLanes := 0 })).setPole n p
      if x.pendMatch = false then m.pulseDiscard n x.pulseAt p
      else if x.pendOk = false then (m.pulseJudged n false).outFault n 5
      else m

/-- LIGHT_PULSE_END. -/
def execLightPulseEnd (n : Nat) (p : Pole) (seen : List CrossChange) (t : Nat) (s : State) :
    Host.Outcome State Fault Refusal :=
  s.run (fun m => lightPulseEnd n p ((m.tick t).crossFindings n seen))

/-- By t0 + 300 µs the tested pole's gate reads below threshold. -/
def lightPulseVerify (n : Nat) (p : Pole) (below : Bool) (m : Mach) : Mach :=
  match m.field.out[n]? with
  | none => m
  | some x =>
    if x.runs .light p 2 300000 m.now = false then m
    else
      let follow := x.pendFollow || !m.followJudged n
      let m := (m.updOut n (OutCh.reads p (!below))).pulseJudged n (below && follow)
      if below = false then m.outFault n 4 else if follow then m else m.outUnavail n 6

/-- LIGHT_PULSE_VERIFY. -/
def execLightPulseVerify (n : Nat) (p : Pole) (below : Bool) (seen : List CrossChange) (t : Nat) (s : State) :
    Host.Outcome State Fault Refusal :=
  s.run (fun m => lightPulseVerify n p below ((m.tick t).crossFindings n seen))

/-- A repeat is due 5 ms after the start of the discarded pulse. -/
def pulseRepeat (n : Nat) (p : Pole) (m : Mach) : Mach :=
  m.updOut n (fun x => match x.repeatDue with
    | some (q, due) =>
      if q = p ∧ due ≤ m.now then
        { x with
          repeatDue := none, repeatNow := some p
          repeatsPos := if p = .pos then x.repeatsPos + 1 else x.repeatsPos
          repeatsNeg := if p = .neg then x.repeatsNeg + 1 else x.repeatsNeg }
      else x
    | none => x)

/-- PULSE_REPEAT. -/
def execPulseRepeat (n : Nat) (p : Pole) (t : Nat) (s : State) : Host.Outcome State Fault Refusal :=
  s.run (fun m => pulseRepeat n p (m.tick t))

/-! ### Demands (R228) -/

/-- A lane's latch changes its bit of an output: what that does to the lane's own drive of the pole under test. In a dark pulse
the lane does not drive it again; its light pulse ends, and it drives from the first boundary 50 µs on; in the verify phase also
not before t0 + 300 µs. (DEDUCED log 24) -/
def OutCh.laneDemand (l : LaneId) (on : Bool) (now : Nat) (x : OutCh) : OutCh :=
  let x := { x with changes := x.changes.upd l (fun _ => some now) }
  if inMask x.pulseLanes l then
    match inMask x.darkLanes l, on with
    | true, false => { x with
        pulseLanes := x.pulseLanes &&& ~~~maskOf (· == l), offLanes := x.offLanes ||| maskOf (· == l) }
    | false, true => { x with
        pulseLanes := x.pulseLanes &&& ~~~maskOf (· == l), hold := x.hold.upd l (fun _ => now + 50000) }
    | _, _ => x
  else if on ∧ now < x.verifyTo then { x with hold := x.hold.upd l (fun _ => max x.verifyTo (now + 50000)) }
  else x

/-- The latch changed what the VOTING lanes hold: a dark pulse has become a real off and is judged on its open check, and a light
pulse that still drives its pole is discarded. (DEDUCED log 24) -/
def Mach.resolvePulse (n : Nat) (m : Mach) : Mach :=
  match m.field.out[n]? with
  | none => m
  | some x =>
    match x.test, m.latchedBit n with
    | some .dark, false => if x.pendMatch then m.keepDark n x else m.pulseDiscard n x.pulseAt x.tpole
    | some .light, true => if x.tphase = 1 then m.pulseDiscard n x.pulseAt x.tpole else m
    | _, _ => m

/-- A demand on one output. -/
def Mach.demand (l : LaneId) (n : Nat) (on : Bool) (m : Mach) : Mach :=
  match m.field.out[n]? with
  | none => m
  | some x => (((m.updOut n (OutCh.laneDemand l on m.now)).setPole n x.tpole).recount n).resolvePulse n

/-- The image bits that change between two images, each with its new value. -/
def changedBits (old new : BitVec 24) : List (Nat × Bool) :=
  ((List.range 24).filter (fun n => old.getLsbD n != new.getLsbD n)).map (fun n => (n, new.getLsbD n))

/-- A VOTING lane latches an image: every changed bit is a demand. (DEDUCED log 76) -/
def Mach.demands (l : LaneId) (old new : BitVec 24) (m : Mach) : Mach :=
  (changedBits old new).foldl (fun m p => m.demand l p.1 p.2) m

/-! ### Current, temperature, clearing (R230, R232, R233) -/

/-- A pole at its limit for 5 ms. -/
def overload (n : Nat) (m : Mach) : Mach :=
  match m.field.out[n]? with
  | some x => if m.fieldRuns && outUsed m n && (x.drvPos || x.drvNeg) then m.outFault n 3 else m
  | none => m

/-- OVERLOAD. -/
def execOverload (n : Nat) (t : Nat) (s : State) : Host.Outcome State Fault Refusal :=
  s.run (fun m => overload n (m.tick t))

/-- Foldback above 150 °C. -/
def thermalFoldback (n : Nat) (temp : Int) (m : Mach) : Mach :=
  match m.field.out[n]? with
  | none => m
  | some x =>
    if m.fieldRuns = false then m
    else
      let hot := decide (150 < temp)
      let m := m.updOut n (fun x => { x with temp := satInt 8 temp, fold := hot })
      if hot && !x.fold then (m.raise (fieldPath 2) 5).noteOut n [0x45] else m

/-- THERMAL_FOLDBACK. -/
def execThermalFoldback (n : Nat) (temp : Int) (t : Nat) (s : State) : Host.Outcome State Fault Refusal :=
  s.run (fun m => thermalFoldback n temp (m.tick t))

/-- A switch at 175 °C opens. -/
def overtemperature (n : Nat) (temp : Int) (m : Mach) : Mach :=
  if m.fieldRuns && outUsed m n && decide (175 ≤ temp) then (m.updOut n (fun x => { x with temp := satInt 8 temp })).outFault n 9 else m

/-- OVERTEMPERATURE. -/
def execOvertemperature (n : Nat) (temp : Int) (t : Nat) (s : State) : Host.Outcome State Fault Refusal :=
  s.run (fun m => overtemperature n temp (m.tick t))

/-- An unlatched fault clears after 1 s of healthy readback, code 0x9 also only below 120 °C; a FAULT leaves the
output available but not armed. -/
def outputFaultClear (n : Nat) (temp : Int) (m : Mach) : Mach :=
  match m.field.out[n]? with
  | none => m
  | some x =>
    let healthy := match x.healthyAt with | some t => decide (t + 1000000000 ≤ m.now) | none => false
    if x.latch ∨ healthy = false ∨ m.field.fsm.held then m
    else if x.isFault ∧ (x.fault ≠ 9 ∨ temp < 120) then
      (m.updOut n (fun x => { x with isFault := false, fault := 0, temp := satInt 8 temp })).outAvail n
    else if x.isFault = false ∧ x.fault = 6 then (m.updOut n (fun x => { x with fault := 0 })).outAvail n
    else m

/-- OUTPUT_FAULT_CLEAR. -/
def execOutputFaultClear (n : Nat) (temp : Int) (t : Nat) (s : State) : Host.Outcome State Fault Refusal :=
  s.run (fun m => outputFaultClear n temp (m.tick t))

/-- An output is armed at the first sample that shows fewer than two windings in phase on both poles (R233).
(DEDUCED log 25) -/
def Mach.armOutput (n p q : Nat) (m : Mach) : Mach :=
  match m.field.out[n]? with
  | none => m
  | some x =>
    if !x.armed && !x.isFault && !x.latch && !x.unusable && !m.field.fsm.held && m.fieldRuns && decide (p < 2) && decide (q < 2)
    then m.updOut n (fun x => { x with armed := true, inhibit := false }) else m

/-- Under a new set an output that is unused carries no finding; a latched one is kept until power-up (R221, R233).
(DEDUCED log 23) -/
def Mach.refitOut (n : Nat) (m : Mach) : Mach :=
  match m.field.out[n]? with
  | none => m
  | some x =>
    if outUsed m n ∨ x.latch ∨ x.fault = 0 ∨ x.fault = 7 then m
    else (m.updOut n (fun x => { x with fault := 0, isFault := false })).outAvail n

/-! ### Coupler frames (R236) -/

/-- FAULT and field supply hold, as a frame's code shows them. -/
def outFaultCode (code : BitVec 4) : Bool := [1, 2, 3, 4, 5, 7, 8, 9, 11].contains code.toNat

/-- An output coupler's frame reaches a lane once CONFIG has sized its lists, and the lanes' memories are lists of fixed length. (DESIGN CHOICE log 73) -/
def Lane.takeOut (n : Nat) (x : OutCh) (toggle ok : Bool) (now : Nat) (y : Lane) : Lane :=
  { y with
    outs := modAt (fun f => { f with
      avail := x.avail, code := x.fault, armed := x.armed, toggle := toggle, checkOk := ok, at0 := some now
      judged := x.judged
      judgedAt := if f.judged = x.judged && f.at0.isSome && !outFaultCode x.fault then f.judgedAt else now }) n y.outs }

def outputCouplerFrame (n : Nat) (ok : LaneId → Bool) (m : Mach) : Mach :=
  match m.field.out[n]? with
  | none => m
  | some x =>
    if m.fieldRuns = false then m
    else
      (m.updOut n (fun x => { x with toggle := !x.toggle })).updLanes
        (fun l y => y.takeOut n x (!x.toggle) (ok l) m.now)

/-- OUTPUT_COUPLER_FRAME. -/
def execOutputCouplerFrame (n : Nat) (okA okB okC : Bool) (t : Nat) (s : State) : Host.Outcome State Fault Refusal :=
  s.run (fun m => outputCouplerFrame n
    (fun l => match l with | .a => okA | .b => okB | .c => okC) (m.tick t))

end Sys2Proof.Machine
end

