-- ==== Sys2Proof/Machine/PairFrames.lean ====
section
/-! DEFINITION. The frames of the pair links (R371, R372, R376, R377): their bytes, `FCRC`, the halves of a mirror segment, the packet's
words, and the order in which a link's line carries frames. -/

namespace Sys2Proof.Machine

def linkBit : LinkId → Nat
  | .l1 => 0
  | .l2 => 1

/-- The bytes that `FCRC` covers (R371). (DESIGN CHOICE log 33) -/
def pairFrameBytes (ptype : Nat) (half : Bool) (copy : BitVec 1) (k : LinkId) (seg : Nat) (cycle : W32) (payload : List Byte) :
    List Byte :=
  [BitVec.ofNat 8 (ptype * 16 + bitOf half * 8 + copy.toNat), BitVec.ofNat 8 (linkBit k * 128 + seg % 8)] ++
    beBytes 2 payload.length ++ bytes32 cycle ++ List.replicate 8 0 ++ payload

/-- A status frame's payload (R372): the fault codes with output 0 in the highest bits. (DEDUCED log 46) -/
def statusPayload (f : StatusFrame) : List Byte :=
  let code (n : Nat) : Nat := (f.faults.getD n 0).toNat
  [BitVec.ofNat 8 f.mode.toNat, BitVec.ofNat 8 (f.role.toNat + 4 * f.lanes.toNat + 32 * bitOf f.sighted), 0, 0] ++
    bytes64 f.sdId ++ bytes32 f.swap ++
    (List.range 12).map (fun k => BitVec.ofNat 8 (16 * code (2 * k) + code (2 * k + 1))) ++ List.replicate 4 0

def pairPayload : PairFrame → List Byte
  | .mirror f => f.words.flatMap bytes64
  | .status f => statusPayload f
  | .request f => Config.accessPayload f.write f.addr f.count f.data
  | .answer f => Config.answerPayload f.reply.status f.reply.data

/-- The `FCRC` that a frame's bytes give (R371). -/
def pairCrc (x : PairFrame) : W32 :=
  crc32 (match x with
    | .mirror f => pairFrameBytes 1 f.odd f.copy f.link f.seg f.cycle (pairPayload x)
    | .status f => pairFrameBytes 2 false f.copy f.link 0 f.cycle (pairPayload x)
    | .request f => pairFrameBytes 3 false f.copy f.link 0 f.cycle (pairPayload x)
    | .answer f => pairFrameBytes 4 false f.copy f.link 0 f.cycle (pairPayload x))

def pairFcrc : PairFrame → W32
  | .mirror f => f.fcrc
  | .status f => f.fcrc
  | .request f => f.fcrc
  | .answer f => f.fcrc

def pairLinkOf : PairFrame → LinkId
  | .mirror f => f.link
  | .status f => f.link
  | .request f => f.link
  | .answer f => f.link

def pairIntact (x : PairFrame) : Bool := pairFcrc x == pairCrc x

def sealStatus (f : StatusFrame) : StatusFrame := { f with fcrc := pairCrc (.status f) }
def sealMirror (f : MirrorFrame) : MirrorFrame := { f with fcrc := pairCrc (.mirror f) }
/-- R37, R371: Bench access frames of the pair link. (DESIGN CHOICE log 119) -/
def sealRequest (f : AccessFrame) : AccessFrame := { f with fcrc := pairCrc (.request f) }
/-- R37, R371: Bench access frames of the pair link. (DESIGN CHOICE log 119) -/
def sealAnswer (f : AnswerFrame) : AnswerFrame := { f with fcrc := pairCrc (.answer f) }

/-! ### The packet's words (R376) -/

def packetData (segs : List (List W64)) : List W64 := segs.flatMap (fun ws => (ws.drop 2).dropLast)

/-- The control word: announced swap, overflow, and the count of running cells. -/
def ctlSwap (data : List W64) : W32 := ((data.getD 1 0) >>> 32).setWidth 32
def ctlOvf (data : List W64) : Bool := (data.getD 1 0).getLsbD 15
def ctlCells (data : List W64) : Nat := (data.getD 1 0).toNat / 2 ^ 16 % 2 ^ 16

/-! ### Mirror segments (R377) -/

/-- The even-numbered words of a segment, or the odd-numbered ones. -/
def halfOf (odd : Bool) (ws : List W64) : List W64 := (ws.zipIdx.filter (fun p => (p.2 % 2 == 1) == odd)).map Prod.fst

/-- The frames of a packet (R377): even words on link 1 and odd words on link 2, or both on the one link that is in service,
even half first. -/
def mirrorFrames (copy : BitVec 1) (cycle : W32) (l1 l2 : Bool) (segs : List (Nat × List W64)) : List MirrorFrame :=
  if l1 || l2 then
    segs.flatMap (fun s => [false, true].map (fun odd =>
      sealMirror { fcrc := 0, link := if l1 && (!l2 || !odd) then .l1 else .l2, copy := copy, odd := odd, seg := s.1
                   cycle := cycle, words := halfOf odd s.2 }))
  else []

/-! ### A link's line (R371) -/

/-- Mirror segments go before status frames, and status frames before Bench access frames. -/
def pairRank : PairFrame → Nat
  | .mirror _ => 0
  | .status _ => 1
  | .request _ | .answer _ => 2

/-- The line time in ns: 32 bytes beyond the payload, at 100 Mbit/s. -/
def pairLineNs (x : PairFrame) : Nat := (32 + (pairPayload x).length) * 80

def LineFrame.stop (x : LineFrame) : Nat := x.start + pairLineNs x.frame

/-- The frame that starts on a line free at `t`: of those that are ready, the first of the highest precedence. -/
def nextOnLine (t : Nat) (ws : List LineFrame) : Option LineFrame :=
  ([0, 1, 2].filterMap (fun r => ws.find? (fun w => decide (w.ready ≤ t) && pairRank w.frame == r))).head?

/-- The waiting frames in the order in which they start on a line that is free from `t` on; each round places a frame, or waits for
the first that becomes ready. -/
def lineOrder : Nat → Nat → List LineFrame → List LineFrame
  | 0, _, _ => []
  | n + 1, t, ws =>
    match nextOnLine t ws with
    | some w => { w with start := t } :: lineOrder n (t + pairLineNs w.frame) (ws.erase w)
    | none => match (ws.map LineFrame.ready).min? with
      | some r => lineOrder n (max t r) ws
      | none => []

/-- Frames join a line: one that has started is never interrupted, one that has ended is gone, and the others take their order
again. (DESIGN CHOICE log 119) -/
def lineSend (now : Nat) (new : List (Nat × PairFrame)) (line : List LineFrame) : List LineFrame :=
  let begun := line.filter (fun x => decide (x.start ≤ now))
  let waiting := line.filter (fun x => decide (now < x.start)) ++ new.map (fun f => { ready := f.1, start := f.1, frame := f.2 })
  begun.filter (fun x => decide (now < x.stop)) ++
    lineOrder (2 * waiting.length) (begun.foldl (fun t x => max t x.stop) now) waiting

def PairState.link (k : LinkId) (p : PairState) : PairLink :=
  match k with
  | .l1 => p.l1
  | .l2 => p.l2

def PairState.updLink (k : LinkId) (f : PairLink → PairLink) (p : PairState) : PairState :=
  match k with
  | .l1 => { p with l1 := f p.l1 }
  | .l2 => { p with l2 := f p.l2 }

/-- When the mirror frames on the links' lines have all been sent. -/
def PairState.mirrorStop (t : Nat) (p : PairState) : Nat :=
  ((p.l1.line ++ p.l2.line).filter (fun x => pairRank x.frame == 0)).foldl (fun t x => max t x.stop) t

/-- Frames go to the links that they name; a mirror packet on its way ends as the lines now stand. -/
def PairState.send (now : Nat) (fs : List (Nat × PairFrame)) (p : PairState) : PairState :=
  let on (k : LinkId) : List (Nat × PairFrame) := fs.filter (fun f => pairLinkOf f.2 == k)
  let p := { p with l1 := { p.l1 with line := lineSend now (on .l1) p.l1.line }, l2 := { p.l2 with line := lineSend now (on .l2) p.l2.line } }
  { p with mirrorEnd := p.mirrorEnd.map (fun e => p.mirrorStop e) }

end Sys2Proof.Machine
end

