-- ==== Sys2Proof/Machine/Callipers.lean ====
section
/-! DEFINITION. Callipers beside the voter (R171, R172, R177 to R184): the cycle report with the lanes' charges, the
output drive monitor, the drive watchdog and the self-check. -/

namespace Sys2Proof.Machine

def Mach.updOdm (f : DriveMon → DriveMon) (m : Mach) : Mach := { m with cal := { m.cal with odm := f m.cal.odm } }
def Mach.updCsc (f : SelfCheck → SelfCheck) (m : Mach) : Mach := { m with cal := { m.cal with csc := f m.cal.csc } }

/-! ### The cycle report (R171) -/

/-- The slots of a message's configured words, or none where a word never arrived. -/
def Mach.msgSlots (m : Mach) (c : MsgCfg) : List (Option VoteSlot) :=
  (List.range c.words).map (fun w => m.slot (c.msg, w))

/-- Every window that is still open closes. -/
def Mach.closeAll (m : Mach) : Mach :=
  (m.cal.vote.slots.map VoteSlot.key).foldl (fun m k =>
    match m.slot k with
    | some s => if s.bare then m else m.closeSlot k
    | none => m) m

/-- A lane has handed over a slot's word; its out line may have removed the copy since. -/
def hasCopy (s : Option VoteSlot) (l : LaneId) : Bool :=
  match s with
  | some x => (x.copies.get l).isSome || inMask x.gone l
  | none => false

/-- A lane whose end-of-hand-over word has not come is absent from every message whose words it did not hand over.
(DEDUCED log 76) -/
def Mach.unendedAbsent (l : LaneId) (m : Mach) : Mach :=
  if inMask m.cal.vote.ended l then m
  else
    let m := m.msgs.foldl (fun m c =>
      if (m.msgSlots c).all (fun s => hasCopy s l) then m
      else m.markAbsent { drive := false, msg := c.msg, word := 0 } l) m
    if hasCopy (m.slot (driveMsg, 0)) l then m else m.markAbsent { drive := true, msg := 0, word := 0 } l

/-- A message with a word that is not voted is discarded whole (R169). -/
def Mach.discards (m : Mach) : Mach :=
  m.msgs.foldl (fun m c =>
    if m.cal.vote.released.contains c.msg then m
    else
      let m := m.updVote (fun v => { v with live := { v.live with discard := satInc v.live.discard } })
      (m.raise (calPath 1) 2).postCal (srcNotice 3 0x20 (calPath 1) 255 (BitVec.ofNat 32 c.msg) 0 m)) m

/-! ### Probe cycles (R157, R172) -/

inductive ProbeVerdict where
  | passed | mismatch | notJudged
  deriving DecidableEq, Repr

/-- The judgement of a SYNC lane's probe words, the drive record's among them (R165, R170), in the order of R172.
(DESIGN CHOICE log 84) -/
def Mach.probeVerdict (m : Mach) (l : LaneId) : ProbeVerdict :=
  let slots := m.msgs.flatMap m.msgSlots ++ [m.slot (driveMsg, 0)]
  let differs (s : Option VoteSlot) : Bool :=
    match s with
    | some x => (match x.voted with
        | some v => (match x.probes.get l with | some c => !(c.good && c.data == v) | none => true)
        | none => false)
    | none => false
  let unvoted (s : Option VoteSlot) : Bool := match s with | some x => x.voted.isNone | none => true
  if slots.any differs then .mismatch else if slots.any unvoted then .notJudged else .passed

/-- What the verdict does to the lane: VOTING at its next T0, another probe cycle, or OUT with cause 0x33. A pass also
needs its run committed. -/
def Mach.judgeProbe (l : LaneId) (m : Mach) : Mach :=
  let x := m.lane l
  if x.agr.life ≠ .sync ∨ x.agr.sync ≠ .probing then m
  else match m.probeVerdict l with
    | .mismatch =>
      (m.updAgr l (fun a => { a with probe := false })).laneOut l 0x33 |>.postCal
        (srcNotice 3 0x28 (calPath 1) (laneCode l) (BitVec.ofNat 32 (laneCode l)) 0 m)
    | .notJudged => m.updAgr l (fun a => { a with sync := .probeDue })
    | .passed => m.updAgr l (fun a => { a with sync := if x.cop.lastOk then .passed else .probeDue })

/-! ### Charges (R148) -/

/-- Every VOTING lane charges the lanes that the report names: outvoted now, or absent in two cycles in a row. -/
def Mach.chargeReport (outv abs : BitVec 3) (m : Mach) : Mach :=
  let run (l : LaneId) (n : Nat) : Nat := if inMask abs l && m.isVoting l then n + 1 else 0
  let m := m.updVote (fun v => { v with absRun := v.absRun.all run })
  let m := (laneIds.filter (inMask outv)).foldl (fun m l => m.charge l 0x26) m
  (laneIds.filter (fun l => decide (2 ≤ m.cal.vote.absRun.get l))).foldl (fun m l => m.charge l 0x27) m

/-! ### The mirror packet's sending (R377) -/

/-- The mirror packet begins with the report, and not before a VOTING lane's hand-over has ended (R33, R116, R377).
(DEDUCED log 37) -/
def Mach.mirrorStart (m : Mach) : Nat :=
  m.votingLanes.foldl (fun t l => if (m.lane l).phase = .handover then max t ((m.lane l).closeAt + 240000) else t) m.now

/-- What the lead counts of a packet (R389): packets sent, the running cells listed, and overflow. -/
def PairState.countSent (data : List W64) (p : PairState) : PairState :=
  { p with
    sent := satInc p.sent, tmrPeak := bvMax p.tmrPeak (BitVec.ofNat 16 (ctlCells data)), ovf := ctlOvf data
    ovfs := if ctlOvf data then satInc p.ovfs else p.ovfs }

/-- The lead sends the segments that were released, over the links in service; a packet with a segment missing is not
complete and is not counted as sent. The lanes' mirror phases end with its last frame. (DEDUCED log 76) -/
def Mach.mirrorSend (m : Mach) : Mach :=
  match m.sd with
  | none => m
  | some sd =>
    if sd.pair.paired = false ∨ m.pair.role ≠ .lead then m
    else
      let segs := (List.range sd.pair.segWords.length).filterMap (fun k =>
        (m.cal.vote.held.find? (fun h => h.msg == 4088 + k && h.cycle == m.cal.vote.cycle)).map (fun h => (k, h.words)))
      let frames := mirrorFrames m.ident.copy m.cal.vote.cycle m.pair.l1.service m.pair.l2.service segs
      let from0 := m.mirrorStart
      let m := m.updVote (fun v => { v with held := v.held.filter (fun h => decide (h.msg < 4088)) })
      let m := { m with pair := ({ m.pair with mirrorEnd := some from0 } : PairState).send m.now (frames.map (fun f => (from0, .mirror f))) }
      if frames = [] then m
      else
        let m := { m with pair := { m.pair with lastFrames := frames } }
        let data := packetData (segs.map Prod.snd)
        if segs.length ≠ sd.pair.segWords.length then m
        else
          let m := { m with pair := m.pair.countSent data }
          if ctlOvf data then m.raise pairPath 5 else m

/-- 4 µs after the first end-of-hand-over word: windows closed, absences, discards, the two masks, the probe cycle's
verdict, the packet, and the lanes' charges. (DEDUCED log 76) -/
def cycleReport (m : Mach) : Mach :=
  match m.cal.vote.firstEnd with
  | none => m
  | some e =>
    if m.cal.vote.reported ∨ m.now < e + 4000 then m
    else
      let m := m.closeAll
      if m.mod.mode = .halt then m
      else
        let m := (laneIds.filter (fun l => m.isVoting l || inMask m.cal.vote.began l)).foldl (fun m l => m.unendedAbsent l) m
        let m := m.discards
        let m := m.updVote (fun v => { v with
          reported := true, reportOutv := v.outvoted, reportAbs := v.absent, skew := v.skewNow
          live := { v.live with skewMax := bvMax v.live.skewMax v.skewNow } })
        let m := laneIds.foldl (fun m l => m.judgeProbe l) m
        m.mirrorSend.chargeReport m.cal.vote.reportOutv m.cal.vote.reportAbs

/-- CYCLE_REPORT. -/
def execCycleReport (t : Nat) (s : State) : Host.Outcome State Fault Refusal :=
  s.run (fun m => cycleReport (m.tick t))

/-! ### The output drive monitor (R180) -/

/-- What a count shows against the reference bit and the number of VOTING lanes. -/
def poleSight (ref : Bool) (voting count : Nat) : PoleSight :=
  if ref then
    if count < 2 then .lost
    else if count = voting then .normal
    else if count < voting then .weak
    else .stray
  else if count = 0 then .normal
  else if count = 1 then .stray
  else .against

/-- A sample into a pole's run: a finding is made on two in a row. (DEDUCED log 24) -/
def PoleRun.take (x : PoleRun) (s : PoleSight) : PoleRun :=
  let run := if x.sight = s then x.run + 1 else 1
  let y := { x with sight := s, run := run }
  if 2 ≤ run then { y with found := s, lost := if s = .normal then false else y.lost || s == .lost } else y

/-- A sample is skipped for 100 µs after a lane's drive image change. -/
def Mach.driveSettled (m : Mach) : Bool :=
  laneIds.all (fun l => decide ((m.lane l).drive.changedAt + 100000 ≤ m.now))

/-- A sample is skipped during a test pulse on its pole. -/
def poleTested (m : Mach) (n : Nat) (p : Pole) : Bool :=
  match m.field.out[n]? with
  | some x => x.test.isSome && x.tpole == p
  | none => false

/-- The poles' runs after a sample. -/
def Mach.sampleRuns (m : Mach) (p : Pole) (counts : List Nat) (runs : List PoleRun) : List PoleRun :=
  let ref := if m.handsOver then m.cal.odm.reference else 0
  (List.range 24).map (fun n =>
    let x := runs.getD n {}
    if poleTested m n p then x else x.take (poleSight (ref.getLsbD n) m.votingLanes.length (counts.getD n 0)))

/-- The outputs of which a pole meets a condition. -/
def poleMask (f : PoleRun → Bool) (p q : List PoleRun) : BitVec 24 :=
  (List.range 24).foldl (fun w n => setBit w n (f (p.getD n {}) || f (q.getD n {}))) 0

/-- Bits gained by a findings register: its interrupt cause, and a notice for each. -/
def Mach.gained (bit src : Nat) (old new : BitVec 24) (m : Mach) : Mach :=
  let g := new &&& ~~~old
  if g = 0 then m
  else ((List.range 24).filter (fun n => g.getLsbD n)).foldl
    (fun m n => m.postCal (srcNotice 3 src (calPath 2) n (BitVec.ofNat 32 n) 0 m)) (m.raise (calPath 2) bit)

/-- Callipers: what the drive monitor skips, and lanes without an end mark. (DEDUCED log 76) -/
def driveMonitorSample (pos neg : List Nat) (m : Mach) : Mach :=
  if m.cal.csc.running = false ∨ m.fieldRuns = false ∨ m.sd.isNone then m
  else
    let m := (List.range 24).foldl (fun m n =>
      (m.updOut n (fun x => { x with cmd := decide (2 ≤ pos.getD n 0) && decide (2 ≤ neg.getD n 0) })).armOutput n
        (pos.getD n 0) (neg.getD n 0)) m
    let m := m.refreshPoles
    if m.driveSettled = false then m
    else
      let o := m.cal.odm
      let p := m.sampleRuns .pos pos o.pos
      let q := m.sampleRuns .neg neg o.neg
      let weak := poleMask (fun x => x.found == .weak) p q
      let lost := poleMask (fun x => x.lost) p q
      let stray := poleMask (fun x => x.found == .stray) p q
      let m := m.updOdm (fun x => { x with pos := p, neg := q, weak := weak, lost := lost, stray := stray })
      let m := ((m.gained 0 0x23 o.weak weak).gained 1 0x24 o.lost lost).gained 2 0x25 o.stray stray
      if (p ++ q).any (fun x => x.found == .against) then m.haltCallipers 0x06 else m

/-- DRIVE_MONITOR_SAMPLE: the counts of windings in phase of the + and the − poles. -/
def execDriveMonitorSample (pos neg : List Nat) (t : Nat) (s : State) : Host.Outcome State Fault Refusal :=
  s.run (fun m => driveMonitorSample pos neg (m.tick t))

/-! ### The drive watchdog (R177 to R179) -/

/-- Marks of two lanes within 100 µs qualify a cycle; a third mark of the same cycle does not qualify another. Two
qualified cycles in a row, spaced 0.75 C to 1.25 C, release a tripped watchdog. (DESIGN CHOICE log 86) -/
def driveRefreshMark (l : LaneId) (m : Mach) : Mach :=
  if m.sd.isNone ∨ m.isVoting l = false ∨ m.power.powered = false then m
  else
    let o := m.cal.odm
    let near := laneIds.any (fun k => k != l && (match o.marks.get k with
      | some t => decide (m.now ≤ t + 100000) | none => false))
    let same := match o.lastQual with | some t => decide (m.now ≤ t + 200000) | none => false
    let m := m.updOdm (fun x => { x with marks := x.marks.upd l (fun _ => some m.now) })
    if near = false ∨ same = true then m
    else
      let c := m.cycleNs
      let spaced := match o.lastQual with
        | some t => decide (3 * c ≤ 4 * (m.now - t)) && decide (4 * (m.now - t) ≤ 5 * c) | none => false
      let release := o.tripped && spaced && !m.bench.test.unusWdog
      let m := m.updOdm (fun x => { x with
        lastQual := some m.now, qualRun := if spaced then x.qualRun + 1 else 1
        tripped := x.tripped && !release })
      if release then m.refreshPoles else m

/-- DRIVE_REFRESH_MARK. -/
def execDriveRefreshMark (l : LaneId) (t : Nat) (s : State) : Host.Outcome State Fault Refusal :=
  s.run (fun m => driveRefreshMark l (m.tick t))

/-- With no qualified cycle for 2 C the watchdog opens the gate supply of every pole. -/
def driveWatchdogTrip (m : Mach) : Mach :=
  let o := m.cal.odm
  let due := match o.lastQual with | some t => decide (t + 2 * m.cycleNs ≤ m.now) | none => false
  if m.sd.isNone ∨ o.tripped ∨ due = false then m
  else
    let m := m.updOdm (fun x => { x with tripped := true, trips := satInc x.trips, qualRun := 0, lastQual := none })
    let m := (m.raise (calPath 2) 3).forcedOffAll
    m.postCal (mkNotice (evCode 3 0x26) (calPath 2) 0 0 (some m.cycleNo) [ecSrc 0x26])

/-- DRIVE_WATCHDOG_TRIP. -/
def execDriveWatchdogTrip (t : Nat) (s : State) : Host.Outcome State Fault Refusal :=
  s.run (fun m => driveWatchdogTrip (m.tick t))

/-! ### Self-check (R181, R182) -/

/-- CALLIPERS_HALVES_MISMATCH. -/
def execCallipersHalvesMismatch (t : Nat) (s : State) : Host.Outcome State Fault Refusal :=
  s.run (fun m => let m := m.tick t; if m.cal.csc.running then m.haltCallipers 0x01 else m)

/-- A half of Callipers is under logic BIST (R182, R413): blocks 0x07 and 0x08, from 320 ms to 620 ms and from 640 ms to 940 ms of the
shutdown test, and the same after the start of a full boot's blocks. (DEDUCED log 94) -/
def Mach.calBist (m : Mach) : Bool :=
  let inBlocks (t0 : Nat) : Bool :=
    let d := m.now - t0
    decide (t0 ≤ m.now) && ((decide (320000000 ≤ d) && decide (d < 620000000)) || (decide (640000000 ≤ d) && decide (d < 940000000)))
  (m.mod.mode == .quiesce && inBlocks m.power.quiesceAt) ||
    (m.mod.mode == .boot && m.mod.bootKind == 2 && inBlocks m.fullTestAt)

/-- An injection each 1 ms: caught at its position, missed, or captured elsewhere. It pauses while a half is under logic BIST. -/
def callipersInjection (c : Option Capture) (m : Mach) : Mach :=
  if m.cal.csc.running = false ∨ m.calBist = true then m
  else
    let m := m.updCsc (fun x => { x with injPos := x.injPos + 1 })
    match c with
    | some .expected => m.updCsc (fun x => { x with injOk := satInc x.injOk })
    | some .otherPos => m.haltCallipers 0x01
    | none => m.haltCallipers 0x02

/-- CALLIPERS_INJECTION. -/
def execCallipersInjection (c : Option Capture) (t : Nat) (s : State) : Host.Outcome State Fault Refusal :=
  s.run (fun m => callipersInjection c (m.tick t))

end Sys2Proof.Machine
end

