-- ==== Sys2Proof/Machine/FieldIn.lean ====
section
/-! DEFINITION. Field inputs (R189 to R207, R211, R212): digital channels, pulse sources, comparator tests, encoder and
analogue channels. -/

namespace Sys2Proof.Machine

/-! ### Access -/

def Mach.diCfg (m : Mach) (ch : Nat) : Option DiCfg := m.sd.bind (fun sd => sd.di[ch]?)
def Mach.aiCfg (m : Mach) (ch : Nat) : Option AiCfg := m.sd.bind (fun sd => sd.ai[ch]?)
def Mach.updDi (ch : Nat) (f : DiCh → DiCh) (m : Mach) : Mach := m.updField (fun x => { x with di := modAt f ch x.di })
def Mach.updAi (ch : Nat) (f : AiCh → AiCh) (m : Mach) : Mach := m.updField (fun x => { x with ai := modAt f ch x.ai })
def Mach.updPs (k : Nat) (f : PsCh → PsCh) (m : Mach) : Mach := m.updField (fun x => { x with ps := modAt f k x.ps })
def Mach.updEnc (f : Encoder → Encoder) (m : Mach) : Mach := m.updField (fun x => { x with enc := f x.enc })
def diEnc (m : Mach) (ch : Nat) : Bool := m.diCfg ch |>.any (fun c => c.enc)
def diMon (m : Mach) (ch : Nat) : Nat := (m.diCfg ch |>.map (fun c => c.mon)).getD 0
def diUsed (m : Mach) (ch : Nat) : Bool := m.diCfg ch |>.any (fun c => c.used)
/-- The source of a pulse-monitored channel (R199). -/
def diSource (m : Mach) (ch : Nat) : Option Nat := if diMon m ch = 2 then (m.diCfg ch).bind (fun c => c.src) else none
/-- `FILT_N`, default 60 (R192). -/
def filtN (c : DiCfg) : Nat := c.filtN.getD 60

/-- Posts a notice of event counter sources of the inputs, with the channel as instance. -/
def Mach.noteIn (k ch : Nat) (srcs : List Nat) (m : Mach) : Mach :=
  match srcs with
  | [] => m
  | s :: _ => m.postField (mkNotice (evCode 4 s) (fieldPath k) 0 0 (some m.cycleNo)
      (srcs.map (fun x => ecSrc x ch)) (BitVec.ofNat 16 ch))

/-! ### Faults of a digital channel (R211, R212) -/

/-- The event counter sources of a fault code. -/
def diFaultSrc : Nat → List Nat
  | 1 => [0x34] | 2 => [0x35] | 3 => [0x36] | 4 => [0x37] | 6 => [0x33, 0x38] | _ => []

/-- A fault finding: the channel is invalid with the code. A latched fault keeps its code. (DEDUCED log 19) -/
def Mach.diFault (ch code : Nat) (latch : Bool) (m : Mach) : Mach :=
  match m.field.di[ch]? with
  | none => m
  | some x =>
    if x.latch ∨ standsNow code x.found = true then m
    else
      let m := m.updDi ch (fun x => { x with
        found := addFinding code x.found, valid := false, latch := latch, revalidate := false
        faults := satInc x.faults, levelAt := m.now })
      let m := if x.valid then m.raise (fieldPath 1) 0 else m
      let m := if latch then m.raise (fieldPath 1) 2 else m
      m.noteIn 1 ch (diFaultSrc code ++ (if x.valid then [0x31] else []))

/-- The conditions of some fault codes are absent now. -/
def Mach.diGone (ch : Nat) (codes : List Nat) (m : Mach) : Mach :=
  m.updDi ch (fun x => { x with found := endFindings codes m.now x.found })

/-! ### Filter (R192, R196, R208) -/

/-- The filtered level takes a value: a change is counted, and on a COS channel reported at most 8 times a second.
(DEDUCED log 19) -/
def Mach.diLevel (ch : Nat) (b : Bool) (m : Mach) : Mach :=
  match m.field.di[ch]? with
  | none => m
  | some x =>
    if x.level = b then m
    else
      let sec := m.now / 1000000000
      let n := if x.cosSec = sec then x.cosN else 0
      let rep := (m.diCfg ch |>.any (fun c => c.cos)) && decide (n < 8)
      let m := m.updDi ch (fun x => { x with
        level := b, cosCnt := satInc x.cosCnt, levelAt := m.now, cosSec := sec, cosN := if rep then n + 1 else n })
      if rep then
        let off := (m.now - (m.lane m.countLane).t0) / 50000
        m.postField (mkNotice 0x4001 (fieldPath 1) (BitVec.ofNat 32 (bitOf b * 2 ^ 31 + off % 65536)) m.cycleNo
          (some m.cycleNo) [ecSrc 0x30 ch] (BitVec.ofNat 16 ch))
      else m

/-- The filter restarts: counter and level 0, and validity only after `FILT_N` samples. -/
def Mach.diRestart (ch : Nat) (m : Mach) : Mach :=
  (m.diLevel ch false).updDi ch (fun x => { x with
    fcnt := 0, fresh := 0, revalidate := true, ownMiss := 0, foreignRun := [0, 0, 0, 0], judge := 0, judgeRun := 0 })

/-- A channel becomes valid. -/
def Mach.diValid (ch : Nat) (m : Mach) : Mach :=
  ((m.updDi ch (fun x => { x with valid := true, revalidate := false, levelAt := m.now })).raise (fieldPath 1) 1).noteIn
    1 ch [0x32]

/-- Whether a source's dark window, and the 100 µs after it, run now. -/
def darkNow (m : Mach) (k len : Nat) : Bool :=
  match (m.field.ps[k]?).bind (fun x => x.darkAt) with
  | some t => decide (t ≤ m.now) && decide (m.now < t + len)
  | none => false

/-- A sample that the filter does not count: in the comparator test, or in the own source's dark window and the
100 µs after it. -/
def diSkips (m : Mach) (ch : Nat) (x : DiCh) : Bool :=
  (match x.testAt with | some t => decide (m.now < t + 100000) | none => false) ||
    (match diSource m ch with | some k => darkNow m k 400000 | none => false)

/-! ### Pulse line check (R199) -/

/-- A dark window of source `k` ended: what its samples showed of a channel. -/
def Mach.windowJudge (ch own k : Nat) (m : Mach) : Mach :=
  match m.field.di[ch]? with
  | none => m
  | some x =>
    if k = own then
      let miss := if x.ownLow < 4 then x.ownMiss + 1 else 0
      let m := m.updDi ch (fun x => { x with ownMiss := miss, ownLow := 0, inWin := modAt (fun _ => false) k x.inWin })
      if 2 ≤ miss then m.diFault ch 3 false else if miss = 0 then m.diGone ch [3] else m
    else
      let low := x.foreignSeen.getD k false
      let run := if low then x.foreignRun.getD k 0 + 1 else 0
      let m := m.updDi ch (fun x => { x with
        foreignRun := modAt (fun _ => run) k x.foreignRun, foreignSeen := modAt (fun _ => false) k x.foreignSeen
        inWin := modAt (fun _ => false) k x.inWin })
      if 2 ≤ run then m.diFault ch 4 false
      else if ((m.field.di[ch]?).map (fun y => y.foreignRun)).getD [] = [0, 0, 0, 0] then m.diGone ch [4] else m

/-- A raw sample of a pulse-monitored channel at level 1; at level 0 the contact is open and no check is made. -/
def Mach.pulseCheck (ch own : Nat) (high : Bool) (m : Mach) : Mach :=
  match m.field.di[ch]? with
  | none => m
  | some x =>
    if x.level = false then
      (m.updDi ch (fun x => { x with
        ownMiss := 0, ownLow := 0, foreignRun := [0, 0, 0, 0], foreignSeen := [false, false, false, false]
        inWin := [false, false, false, false] })).diGone ch [3, 4]
    else (List.range 4).foldl (fun m k =>
      if darkNow m k 300000 then
        m.updDi ch (fun x => { x with
          inWin := modAt (fun _ => true) k x.inWin
          ownLow := if k = own ∧ high = false then x.ownLow + 1 else x.ownLow
          foreignSeen := if k ≠ own ∧ high = false then modAt (fun _ => true) k x.foreignSeen else x.foreignSeen })
      else if ((m.field.di[ch]?).map (fun y => y.inWin.getD k false)).getD false then m.windowJudge ch own k
      else m) m

/-! ### Raw samples -/

/-- Commissioning marks an input as seen after 1 s at 1 and 1 s at 0 while valid (R406). -/
def Mach.diSeen (ch : Nat) (m : Mach) : Mach :=
  match m.field.di[ch]? with
  | none => m
  | some x =>
    if m.mod.mode = .commission ∧ diUsed m ch ∧ x.valid ∧ max x.levelAt m.mod.commissionAt + 1000000000 ≤ m.now then
      let m := m.updDi ch (fun x => if x.level then { x with seenHi := true } else { x with seenLo := true })
      match m.field.di[ch]? with
      | some y => if y.seenHi && y.seenLo then
          { m with mod := { m.mod with sweepIn := setBit m.mod.sweepIn ch true } } else m
      | none => m
    else m

/-- A counted sample (R192). (DEDUCED log 20) -/
def Mach.diCount (ch n : Nat) (up : Bool) (m : Mach) : Mach :=
  match m.field.di[ch]? with
  | none => m
  | some x =>
    let c := min n (if up then x.fcnt.toNat + 1 else x.fcnt.toNat - 1)
    let m := m.updDi ch (fun x => { x with fcnt := BitVec.ofNat 10 c, fresh := x.fresh + 1 })
    let m := if c = n then m.diLevel ch true else if c = 0 then m.diLevel ch false else m
    if x.revalidate && decide (n ≤ x.fresh + 1) && x.found.isEmpty && !x.latch && !x.unusable && !m.field.fsm.held then
      m.diValid ch
    else m

/-- The ON threshold in mV at a channel: a change does not take effect during its comparator test (R191). -/
def thrAtChannel (m : Mach) (x : DiCh) : Int :=
  let f := m.field.fsm
  let testing := match x.testAt with
    | some t => decide (m.now < t + 100000) && decide (t ≤ f.thrAt)
    | none => false
  100 * ((if testing then f.thrWas else f.thrOn).toNat : Int)

def inputRawSample (ch : Nat) (mV : Int) (m : Mach) : Mach :=
  match m.field.di[ch]? with
  | none => m
  | some x =>
    if m.fieldRuns = false ∨ diEnc m ch then m
    else
      let on := thrAtChannel m x
      let up := decide (on < mV) || (x.level && decide (on - 1000 < mV))
      let m := m.updDi ch (fun x => { x with raw := up })
      match m.diCfg ch with
      | none => m
      | some c =>
        let m := match diSource m ch with | some own => m.pulseCheck ch own up | none => m
        let m := if diSkips m ch x then m else m.diCount ch (filtN c) up
        m.diSeen ch

/-- INPUT_RAW_SAMPLE. -/
def execInputRawSample (ch : Nat) (mV : Int) (t : Nat) (s : State) : Host.Outcome State Fault Refusal :=
  s.run (fun m => inputRawSample ch mV (m.tick t))

/-! ### Coupler frames (R193, R194, R202) -/

def Lane.takeDi (ch : Nat) (x : DiCh) (valid toggle ok : Bool) (now : Nat) (y : Lane) : Lane :=
  { y with
    di := modAt (fun f => { f with
      level := x.level, valid := valid, code := x.fault, tseq := x.tseq, toggle := toggle, checkOk := ok
      at0 := some now, seqAt := if f.tseq = x.tseq && f.at0.isSome then f.seqAt else now }) ch y.di
    capHi := modAt (fun b => b || x.level) ch y.capHi
    capLo := modAt (fun b => b || !x.level) ch y.capLo }

/-- The validity that a channel's coupler frame carries: an encoder track's is the encoder's. -/
def frameValid (m : Mach) (ch : Nat) (x : DiCh) : Bool := if diEnc m ch then m.field.enc.valid else x.valid

def couplerFrame (ch : Nat) (ok : LaneId → Bool) (m : Mach) : Mach :=
  match m.field.di[ch]? with
  | none => m
  | some x =>
    if m.fieldRuns = false then m
    else
      let enc := diEnc m ch
      let e := m.field.enc
      let valid := frameValid m ch x
      let m := m.updDi ch (fun x => { x with toggle := !x.toggle })
      m.updLanes (fun l y =>
        let y := y.takeDi ch x valid (!x.toggle) (ok l) m.now
        if enc then { y with enc := { count := e.count, speed := e.speed, valid := e.valid && ok l } } else y)

/-- Three Booleans as a choice by lane. -/
def byLane (a b c : Bool) : LaneId → Bool
  | .a => a
  | .b => b
  | .c => c

/-- COUPLER_FRAME. -/
def execCouplerFrame (ch : Nat) (okA okB okC : Bool) (t : Nat) (s : State) : Host.Outcome State Fault Refusal :=
  s.run (fun m => couplerFrame ch (byLane okA okB okC) (m.tick t))

/-! ### Line conductance (R197) -/

/-- The judgement of a conductance in 0.01 µS. -/
def condCode (c : Nat) : Nat := if c < 300 then 1 else if c < 1000 ∨ 1600 < c then 2 else 0

/-- R213: DI.COND saturates at 0xFFF. (DESIGN CHOICE log 109) -/
def lineConductance (ch c : Nat) (m : Mach) : Mach :=
  match m.field.di[ch]? with
  | none => m
  | some x =>
    if m.fieldRuns = false ∨ diMon m ch ≠ 1 ∨ diEnc m ch ∨ x.level then m
    else
      let code := condCode c
      let run := if x.judge = code then x.judgeRun + 1 else 1
      let m := m.updDi ch (fun x => { x with cond := satOf 12 c, judge := code, judgeRun := run })
      if run < 10 then m else if code = 0 then m.diGone ch [1, 2] else (m.diGone ch [3 - code]).diFault ch code false

/-- LINE_CONDUCTANCE_MEASURE, in 0.01 µS. -/
def execLineConductanceMeasure (ch c : Nat) (t : Nat) (s : State) : Host.Outcome State Fault Refusal :=
  s.run (fun m => lineConductance ch c (m.tick t))

/-! ### Pulse sources (R198 to R200) -/

/-- The channels fed from a source. -/
def Mach.fedFrom (m : Mach) (k : Nat) : List Nat := (List.range 48).filter (fun ch => diSource m ch == some k)

/-- Source `k` begins its dark window: `readsHigh` is its own readback inside it, `ma` the current it measured before.
(DEDUCED log 63) -/
def darkWindow (k : Nat) (readsHigh : Bool) (ma : Nat) (m : Mach) : Mach :=
  match m.field.ps[k]? with
  | none => m
  | some x =>
    if m.fieldRuns = false ∨ x.on = false then m
    else m.updPs k (fun x => { x with
      dark := true, darkAt := some m.now, highRun := if readsHigh then x.highRun + 1 else 0, ma := satOf 8 ma })

/-- DARK_WINDOW. -/
def execDarkWindow (k : Nat) (readsHigh : Bool) (ma t : Nat) (s : State) : Host.Outcome State Fault Refusal :=
  s.run (fun m => darkWindow k readsHigh ma (m.tick t))

def sourceCode : SourceCause → Nat
  | .overload => 1
  | .cannotGoDark => 2

/-- A source goes into fault: switched off, and its channels invalid with code 0x5. -/
def pulseSourceFault (k : Nat) (c : SourceCause) (m : Mach) : Mach :=
  match m.field.ps[k]? with
  | none => m
  | some x =>
    if m.fieldRuns = false ∨ x.fault ∨ (c = .cannotGoDark ∧ x.highRun < 2) then m
    else
      let m := m.updPs k (fun x => { x with
        fault := true, cause := BitVec.ofNat 2 (sourceCode c), faults := satInc x.faults, on := false, dark := false
        darkAt := none, ma := 0, faultAt := m.now })
      (m.fedFrom k).foldl (fun m ch => m.diFault ch 5 false) (m.raise (fieldPath 4) 0)

/-- PULSE_SOURCE_FAULT. -/
def execPulseSourceFault (k : Nat) (c : SourceCause) (t : Nat) (s : State) : Host.Outcome State Fault Refusal :=
  s.run (fun m => pulseSourceFault k c (m.tick t))

/-- A source in fault retries after 1 s. -/
def pulseSourceRetry (k : Nat) (gone : Bool) (m : Mach) : Mach :=
  match m.field.ps[k]? with
  | none => m
  | some x =>
    if m.fieldRuns = false ∨ x.fault = false ∨ m.now < x.faultAt + 1000000000 then m
    else if gone then
      (m.fedFrom k).foldl (fun m ch => m.diGone ch [5])
        (m.updPs k (fun x => { x with fault := false, cause := 0, on := true, highRun := 0 }))
    else m.updPs k (fun x => { x with faultAt := m.now })

/-- PULSE_SOURCE_RETRY. -/
def execPulseSourceRetry (k : Nat) (gone : Bool) (t : Nat) (s : State) : Host.Outcome State Fault Refusal :=
  s.run (fun m => pulseSourceRetry k gone (m.tick t))

/-! ### Comparator test (R201) -/

/-- A test in two halves. A passed test advances the test sequence; two failures of one half in a row latch 0x6. -/
def comparatorTest (ch : Nat) (first second : Bool) (m : Mach) : Mach :=
  match m.field.di[ch]? with
  | none => m
  | some x =>
    if m.fieldRuns = false ∨ diEnc m ch then m
    else
      let f0 := if first then 0 else x.testFail0 + 1
      let f1 := if second then 0 else x.testFail1 + 1
      let m := m.updDi ch (fun x => { x with
        testAt := some m.now, testFail0 := f0, testFail1 := f1
        tseq := if first && second then x.tseq + 1 else x.tseq })
      if 2 ≤ f0 ∨ 2 ≤ f1 then m.diFault ch 6 true else m

/-- COMPARATOR_TEST. -/
def execComparatorTest (ch : Nat) (first second : Bool) (t : Nat) (s : State) : Host.Outcome State Fault Refusal :=
  s.run (fun m => comparatorTest ch first second (m.tick t))

/-! ### A channel under a new set (R192, R199, R200, R212) -/

/-- The fault codes whose condition a channel's present settings cannot have: a monitoring, a source or an encoder that it no longer
has under them; `same` says that its source stayed. (DEDUCED log 117) -/
def diLeft (m : Mach) (same : Bool) (ch : Nat) : List Nat :=
  let enc := diEnc m ch
  (if enc || diMon m ch != 1 then [1, 2] else []) ++ (if enc || !same || (diSource m ch).isNone then [3, 4] else []) ++
    (if (diSource m ch).any (fun k => (m.field.ps[k]?).any (fun x => x.fault)) then [] else [5]) ++ (if enc then [] else [8])

/-- A channel takes the settings of a set in force after `old`. (DEDUCED log 117) -/
def Mach.refitDi (old : Option StationData) (ch : Nat) (m : Mach) : Mach :=
  let n := (m.diCfg ch).elim 1 filtN
  let m := (m.diGone ch (diLeft m (diSource { m with sd := old } ch == diSource m ch) ch)).updDi ch (fun x => { x with
    fcnt := BitVec.ofNat 10 (min n x.fcnt.toNat) })
  if (diSource m ch).any (fun k => (m.field.ps[k]?).any (fun x => x.fault)) then m.diFault ch 5 false else m

/-! ### Encoder (R202, R203) -/

/-- The quadrature phase of the tracks: it rises by one where A leads B. -/
def quadPhase (a b : Bool) : Nat :=
  match a, b with
  | false, false => 0 | true, false => 1 | true, true => 2 | false, true => 3

/-- Illegal transitions in the last 10 ms. -/
def Encoder.recentIllegal (now : Nat) (e : Encoder) : List Nat := e.illAt.filter (fun t => decide (now < t + 10000000))

def edgeShort (now : Nat) (e : Option Nat) : Bool := match e with | some t => decide (now < t + 4550) | none => false

/-- The encoder becomes invalid with code 0x8. (DEDUCED log 21) -/
def Mach.encInvalid (m : Mach) : Mach :=
  let m := if m.field.enc.valid then m.raise (fieldPath 5) 0 else m
  let m := m.updEnc (fun e => { e with valid := false })
  (m.diFault 46 8 false).diFault 47 8 false

def encoderEdge (a b : Bool) (m : Mach) : Mach :=
  if m.fieldRuns = false ∨ diEnc m 46 = false then m
  else
    let e := m.field.enc
    let dA := e.lastA != a
    let dB := e.lastB != b
    let illegal := dA && dB
    let overf := (dA && edgeShort m.now e.edgeA) || (dB && edgeShort m.now e.edgeB)
    let step := (quadPhase a b + 4 - quadPhase e.lastA e.lastB) % 4
    let m := m.updEnc (fun e =>
      let e := { e with
        lastA := a, lastB := b
        edgeA := if dA then some m.now else e.edgeA, edgeB := if dB then some m.now else e.edgeB
        count := if illegal then e.count else if step = 1 then e.count + 1 else if step = 3 then e.count - 1 else e.count
        illCnt := if illegal then satInc e.illCnt else e.illCnt
        illAt := if illegal then m.now :: e.recentIllegal m.now else e.illAt
        overAt := if overf then some m.now else e.overAt
        overfreq := e.overfreq || overf }
      { e with illegal := e.illegal || decide (2 ≤ (e.recentIllegal m.now).length) })
    if m.field.enc.illegal ∨ m.field.enc.overfreq then m.encInvalid.updEnc (fun e => { e with condAt := m.now }) else m

/-- ENCODER_EDGE. -/
def execEncoderEdge (a b : Bool) (t : Nat) (s : State) : Host.Outcome State Fault Refusal :=
  s.run (fun m => encoderEdge a b (m.tick t))

/-- Every 10 ms: speed, and the two conditions as they stand over the last 10 ms. (DEDUCED log 21) -/
def encoderSpeedUpdate (m : Mach) : Mach :=
  if m.fieldRuns = false ∨ diEnc m 46 = false then m
  else m.updEnc (fun e =>
    let ill := decide (2 ≤ (e.recentIllegal m.now).length)
    let overf := match e.overAt with | some t => decide (m.now < t + 10000000) | none => false
    { e with
      speed := BitVec.ofInt 24 ((e.count - e.speedBase).toInt * 100), speedBase := e.count
      illegal := ill, overfreq := overf
      condAt := if (e.illegal && !ill) || (e.overfreq && !overf) || ill || overf then m.now else e.condAt })

/-- ENCODER_SPEED_UPDATE. -/
def execEncoderSpeedUpdate (t : Nat) (s : State) : Host.Outcome State Fault Refusal :=
  s.run (fun m => encoderSpeedUpdate (m.tick t))

/-- A track with no finding but the encoder's own, neither latched nor unusable (R212). (DEDUCED log 21) -/
def trackFree (x : DiCh) : Bool := (dropFinding 8 x.found).isEmpty && !x.latch && !x.unusable

/-- After 1 s with neither condition present the encoder is valid, where both of its tracks can be. (DEDUCED log 21) -/
def encoderRevalid (m : Mach) : Mach :=
  let e := m.field.enc
  if m.fieldRuns && diEnc m 46 && !e.valid && !e.illegal && !e.overfreq && !m.field.fsm.held &&
      decide (e.condAt + 1000000000 ≤ m.now) && [46, 47].all (fun ch => (m.field.di[ch]?).any trackFree) then
    let m := m.updEnc (fun e => { e with valid := true })
    [46, 47].foldl (fun m ch => (m.updDi ch (fun x => { x with found := [] })).diValid ch) m
  else m

/-- ENCODER_REVALID. -/
def execEncoderRevalid (t : Nat) (s : State) : Host.Outcome State Fault Refusal :=
  s.run (fun m => encoderRevalid (m.tick t))

/-! ### Analogue channels (R204, R205, R207) -/

/-- A fault finding of an analogue channel. (DEDUCED log 19) -/
def Mach.aiFault (ch code : Nat) (latch : Bool) (m : Mach) : Mach :=
  match m.field.ai[ch]? with
  | none => m
  | some x =>
    if x.latch ∨ standsNow code x.found = true then m
    else
      let m := m.updAi ch (fun x => { x with
        found := addFinding code x.found, valid := false, latch := latch, faults := satInc x.faults })
      let m := if x.valid then m.raise (fieldPath 3) 0 else m
      m.noteIn 3 ch ((if latch then [0x33] else []) ++ (if x.valid then [0x39] else []))

/-- The conditions of some fault codes of an analogue channel are absent now. -/
def Mach.aiGone (ch : Nat) (codes : List Nat) (m : Mach) : Mach :=
  m.updAi ch (fun x => { x with found := endFindings codes m.now x.found })

/-- A result within the range: the condition of an unlatched fault is absent, and the third one makes a channel without
a fault valid. -/
def Mach.aiInRange (ch : Nat) (m : Mach) : Mach :=
  let m := m.aiGone ch [1, 2]
  match m.field.ai[ch]? with
  | none => m
  | some x =>
    if !x.valid && x.found.isEmpty && !x.latch && !x.unusable && !m.field.fsm.held && decide (3 ≤ x.okRun) then
      (m.updAi ch (fun x => { x with valid := true, validAt := m.now })).raise (fieldPath 3) 1
    else m

/-- Commissioning marks an analogue input as seen once it has been valid for 1 s (R406). -/
def Mach.aiSeen (ch : Nat) (m : Mach) : Mach :=
  match m.field.ai[ch]? with
  | none => m
  | some x =>
    if m.mod.mode = .commission ∧ (m.aiCfg ch |>.any (fun c => c.used)) ∧ x.valid
        ∧ max x.validAt m.mod.commissionAt + 1000000000 ≤ m.now then
      let m := m.updAi ch (fun x => { x with seen := true })
      { m with mod := { m.mod with sweepAi := setBit m.mod.sweepAi ch true } }
    else m

def analogueConversion (ch code : Nat) (m : Mach) : Mach :=
  match m.field.ai[ch]? with
  | none => m
  | some x =>
    if m.fieldRuns = false then m
    else
      let low := if code < 7200 then x.lowRun + 1 else 0
      let high := if 42000 < code then x.highRun + 1 else 0
      let m := m.updAi ch (fun x => { x with
        code := satOf 16 code, group := x.group.complete, convAt := some m.now, lowRun := low, highRun := high
        okRun := if low = 0 ∧ high = 0 then x.okRun + 1 else 0 })
      let m := if low ≠ 0 then m.aiGone ch [2] else if high ≠ 0 then m.aiGone ch [1] else m
      let m := if 3 ≤ low then m.aiFault ch 1 false else if 3 ≤ high then m.aiFault ch 2 false
        else if low = 0 ∧ high = 0 then m.aiInRange ch else m
      m.aiSeen ch

/-- ANALOGUE_CONVERSION. -/
def execAnalogueConversion (ch code : Nat) (t : Nat) (s : State) : Host.Outcome State Fault Refusal :=
  s.run (fun m => analogueConversion ch code (m.tick t))

/-- A reference check: two failures on the same reference latch code 0x3. -/
def analogueReferenceCheck (ch : Nat) (high : Bool) (r : Nat) (m : Mach) : Mach :=
  match m.field.ai[ch]? with
  | none => m
  | some x =>
    if m.fieldRuns = false then m
    else
      let ref : Nat := if high then 40000 else 8000
      let bad := decide (r + 80 < ref) || decide (ref + 80 < r)
      let n := if bad then (if high then x.failHi else x.failLo) + 1 else 0
      let m := m.updAi ch (fun x =>
        if high then { x with refHi := satOf 16 r, failHi := n, convAt := some m.now }
        else { x with refLo := satOf 16 r, failLo := n, convAt := some m.now })
      let m := if bad then m.raise (fieldPath 3) 2 else m
      if 2 ≤ n then m.aiFault ch 3 true else m

/-- ANALOGUE_REFERENCE_CHECK. -/
def execAnalogueReferenceCheck (ch : Nat) (high : Bool) (r : Nat) (t : Nat) (s : State) :
    Host.Outcome State Fault Refusal :=
  s.run (fun m => analogueReferenceCheck ch high r (m.tick t))

/-! ### Clearing (R212) -/

/-- An unlatched fault clears after its condition has been absent for 1 s; the channel is valid once its filter, or
three results, have run. Code 0x7 clears at release, and the encoder's with its validity. (DEDUCED log 19) -/
def inputFaultClear (kind : FieldKind) (ch : Nat) (m : Mach) : Mach :=
  match kind with
  | .digital =>
    match m.field.di[ch]? with
    | some x =>
      let left := stillFound m.now x.found
      if x.latch ∨ left.length = x.found.length then m
      else
        let m := m.updDi ch (fun x => { x with found := left })
        if left.isEmpty then m.diRestart ch else m
    | none => m
  | .analogue =>
    match m.field.ai[ch]? with
    | some x =>
      let left := stillFound m.now x.found
      if x.latch ∨ left.length = x.found.length then m
      else m.updAi ch (fun x => { x with found := left, okRun := if left.isEmpty then 0 else x.okRun })
    | none => m

/-- INPUT_FAULT_CLEAR. -/
def execInputFaultClear (kind : FieldKind) (ch : Nat) (t : Nat) (s : State) : Host.Outcome State Fault Refusal :=
  s.run (fun m => inputFaultClear kind ch (m.tick t))

end Sys2Proof.Machine
end

