-- ==== Sys2Proof/Machine/NetTake.lean ====
section
/-! DEFINITION. What a lane takes from the networks at its sampling phase (R273 to R276, R319 to R324, R337 to R339, R357 to
R359): the newest settled messages, their checks, and the receive timeouts. Registers that belong to the module, not to a
lane, follow the first VOTING lane. -/

namespace Sys2Proof.Machine

/-! ### The safety code (R337, R338) -/

/-- The prefix word of a ring message. -/
def ringPrefix (typ ver : BitVec 4) (src msg : BitVec 12) (len : W16) : W64 :=
  BitVec.ofNat 64 (typ.toNat * 2 ^ 60 + ver.toNat * 2 ^ 56 + src.toNat * 2 ^ 32 + msg.toNat * 2 ^ 16 + len.toNat)

/-- A safety code computed in a context of a lane. -/
def Lane.safety (ctx : Nat) (ws : List W64) (x : Lane) : Lane := x.updCv ctx (CvCtx.compute crcCode1 (ws.flatMap bytes64))

/-! ### Rings (R273 to R276) -/

def ringEntries (m : Mach) (i : RingId) : List RingEntry :=
  match m.ringCfg i with
  | some c => c.entries
  | none => []

/-- The receive connections of a ring interface, in configuration order. -/
def ringConns (es : List RingEntry) : List Nat := ((es.filter (fun e => e.rx)).map RingEntry.conn).eraseDups

/-- Time-outs and ages of messages in a lane. (DEDUCED log 34) -/
def connEntry (es : List RingEntry) (k : Nat) : Option RingEntry := es.find? (fun e => e.rx && e.conn == k)

def commRing (i : RingId) (c : CommState) : List RingRec :=
  match i with
  | .r1 => c.ring1
  | .r2 => c.ring2

def Lane.updRingRec (i : RingId) (j : Nat) (f : RingRec → RingRec) (x : Lane) : Lane :=
  match i with
  | .r1 => { x with comm := { x.comm with ring1 := modAt f j x.comm.ring1 } }
  | .r2 => { x with comm := { x.comm with ring2 := modAt f j x.comm.ring2 } }

/-- A receive entry's message's sporadic settings. -/
def sporadicOf (c : RingCfg) (e : RingEntry) : Option Sporadic := c.sporadic.find? (fun s => s.msg == e.msg)

def entrySporadic (m : Mach) (i : RingId) (e : RingEntry) : Option Sporadic := (m.ringCfg i).bind (fun c => sporadicOf c e)

/-- `RX_TMO` in ms with its default. -/
def rxTmoOf (c : RingCfg) (e : RingEntry) : Nat :=
  e.rxTmo.getD (if e.kind = .arbitrating then 3 * ((sporadicOf c e).elim 1 (fun s => s.refresh)) * e.senderC else 3 * e.senderC)

/-- Time-outs and ages of messages in a lane. (DEDUCED log 34) -/
def rxTmoMs (m : Mach) (i : RingId) (e : RingEntry) : Nat := (m.ringCfg i).elim 0 (fun c => rxTmoOf c e)

/-- The lane's cause for rejecting a settled frame, or none. (DEDUCED log 34) -/
def ringVerdict (m : Mach) (i : RingId) (e : RingEntry) (r : RingRec) (f : Settled) : Option Nat :=
  let w0 := f.payload.headD 0
  let stamp : W32 := (w0 >>> 32).setWidth 32
  let sched : W32 := w0.setWidth 32
  let now : W32 := BitVec.ofNat 32 (f.basic / max e.senderC 1)
  let fresh := match r.stamp with | some s => newer stamp s | none => true
  let aged := if e.kind = .arbitrating
    then decide ((now - stamp).toNat ≤ ((entrySporadic m i e).bind (fun s => s.ageMax)).getD 2) else stamp == now
  if (m.ringCfg i).elim true (fun c => c.schedId != sched) then some 7
  else if safetyCode (ringPrefix f.typ f.ver f.src f.msg f.len :: f.payload.dropLast) ≠ f.payload.getLastD 0 then some 8
  else if fresh && aged then none
  else some 7

def Mach.updEntries (i : RingId) (p : Nat → RingEntry → Bool) (f : EntryRec → EntryRec) (m : Mach) : Mach :=
  let es := ringEntries m i
  m.updRing i (fun r => { r with entries := (r.entries.zipIdx).map (fun q =>
    match es[q.2]? with
    | some e => if p q.2 e then f q.1 else q.1
    | none => q.1) })

/-- Posts a notice of an event counter source of a ring, with the interface as its qualifier. -/
def Mach.noteRing (i : RingId) (src : Nat) (p0 p1 : W32) (m : Mach) : Mach :=
  m.postCal (srcNotice 7 src (ringPath i) (ringNo i) p0 p1 m)

/-- The check of a frame in a context, or the loss of it to a context fault: the frame then counts as not received (R340).
(DESIGN CHOICE log 99) -/
def Mach.checkIn (l : LaneId) (ctx : Nat) (lost check : Mach → Mach) (m : Mach) : Mach :=
  if (m.lane l).cvLost.contains ctx then lost (m.updLane l (fun x => { x with cvLost := x.cvLost.filter (· != ctx) })) else check m

/-- A frame that a lane takes and checks. (DEDUCED log 34) -/
def Mach.ringCheck (l : LaneId) (i : RingId) (j : Nat) (e : RingEntry) (f : Settled) (m : Mach) : Mach :=
  let x := m.lane l
  let r := (commRing i x.comm).getD j {}
  let v := ringVerdict m i e r f
  let m := m.updLane l (fun x =>
    (x.safety 1 (ringPrefix f.typ f.ver f.src f.msg f.len :: f.payload.dropLast)).updRingRec i j (fun r =>
      let r := { r with taken := f.serial }
      if v.isNone then
        { r with stamp := some (((f.payload.headD 0) >>> 32).setWidth 32), lastAt := f.sentAt, timedOut := false
                 payload := f.payload }
      else r))
  match v with
  | some c =>
    if l = m.countLane then m.updEntries i (fun n _ => n == f.slot) (fun y => { y with
      rej := satInc y.rej, cause := BitVec.ofNat 4 c })
    else m
  | none => if r.timedOut && l == m.countLane then m.raise (schedPath i) 1 else m

/-- The receive timeout of a connection, checked at the sampling phase. (DEDUCED log 34) -/
def Mach.ringTimeout (l : LaneId) (i : RingId) (j k : Nat) (e : RingEntry) (m : Mach) : Mach :=
  let r := (commRing i (m.lane l).comm).getD j {}
  if r.timedOut ∨ m.now < r.lastAt + rxTmoMs m i e * 1000000 then m
  else
    let m := m.updLane l (fun x => x.updRingRec i j (fun r => { r with timedOut := true }))
    if l = m.countLane then
      ((m.updEntries i (fun _ y => y.rx && y.conn == k) (fun y => { y with tmo := satInc y.tmo })).raise
        (schedPath i) 0).noteRing i 0x68 (BitVec.ofNat 32 k) 0
    else m

def Mach.ringTake (l : LaneId) (i : RingId) (m : Mach) : Mach :=
  let es := ringEntries m i
  let t0 := (m.lane l).t0
  let since := (m.lane l).agr.since
  let m := if l = .a then m.updRing i (fun r => { r with rsMatrix := BitVec.ofNat 32 ((r.tb.at0 m.now).basic / 32) }) else m
  (ringConns es).zipIdx.foldl (fun m q =>
    match connEntry es q.1 with
    | none => m
    | some e =>
      let taken := ((commRing i (m.lane l).comm).getD q.2 {}).taken
      let best := ((m.ring i).settled.filter (fun p => p.1 == q.1 && decide (since ≤ p.2.at0) && decide (p.2.at0 < t0))).foldl
        (fun (b : Option Settled) p => match b with
          | some y => if y.serial < p.2.serial then some p.2 else b
          | none => some p.2) none
      let m := match best with
        | some f =>
          if f.serial = taken then m
          else m.checkIn l 1 (fun m => m.updLane l (fun x => x.updRingRec i q.2 (fun r => { r with taken := f.serial })))
            (fun m => m.ringCheck l i q.2 e f)
        | none => m
      m.ringTimeout l i q.2 q.1 e) m

/-! ### JXT (R319 to R324) -/

def Mach.jxtCheck (l : LaneId) (k : Nat) (c : JxtCfg) (ws : List W64) (serial : Nat) (m : Mach) : Mach :=
  let x := m.lane l
  let r := x.comm.jxt.getD k {}
  let v := jxtJudge c (x.slotKey k) m.cycleMs x.cop.cycleNo r ws
  let m := m.updLane l (fun x =>
    { x.safety 1 (jxtCovered c.cmac ws) with
      comm := { x.comm with jxt := modAt (fun r =>
        JxtRec.apply v x.cop.cycleNo ws { r with taken := serial, missed := r.missed + 1 }) k x.comm.jxt } })
  if l ≠ m.countLane then m
  else
    let m := if v.restart && v.authentic then
        ({ m with jxt := { m.jxt with restarts := satInc m.jxt.restarts } } : Mach).noteJxt k 0x87 0 0 else m
    match v.cause with
    | some 5 =>
      let m := { m with jxt := { m.jxt with rej := satInc m.jxt.rej, macFail := satInc m.jxt.macFail } }
      (((m.jxtLast k c.number 5).raise jxtPath 4).noteJxt k 0x84 5 0).noteJxt k 0x85 0 0
    | some n =>
      let m := { m with jxt := { m.jxt with rej := satInc m.jxt.rej } }
      (m.jxtLast k c.number n).noteJxt k 0x84 (BitVec.ofNat 32 n) 0
    | none =>
      let m := { m with jxt := { m.jxt with agePeak := bvMax m.jxt.agePeak (satOf 16 v.bound) } }
      let m := m.updConn k (fun y => { y with valid := true })
      if r.timedOut then m.raise jxtPath 1 else m

/-- A sampling phase without an accepted message, and the timeout that `JX_TMO` of them make. -/
def Mach.jxtTimeout (l : LaneId) (k : Nat) (c : JxtCfg) (m : Mach) : Mach :=
  let r := (m.lane l).comm.jxt.getD k {}
  if r.timedOut ∨ r.missed < jxTmo c m.cycleMs then m
  else
    let m := m.updLane l (fun x => { x with comm := { x.comm with jxt := modAt (fun r => { r with timedOut := true }) k x.comm.jxt } })
    if l ≠ m.countLane then m
    else
      let m := { m with jxt := { m.jxt with tmo := satInc m.jxt.tmo } }
      let m := m.updConn k (fun y => { y with valid := false })
      ((m.jxtLast k c.number 11).raise jxtPath 0).noteJxt k 0x86 0 0

/-- JXT datagrams: reserved bits 0, last-status words, time-out and whose take is counted. (DEDUCED log 32) -/
def Mach.jxtTake (l : LaneId) (m : Mach) : Mach :=
  (m.jxtCfgs.zipIdx).foldl (fun m q =>
    let x := m.lane l
    let taken := (x.comm.jxt.getD q.2 {}).taken
    let missed (serial : Nat) (m : Mach) : Mach := m.updLane l (fun x => { x with comm := { x.comm with
      jxt := modAt (fun r => { r with taken := serial, missed := r.missed + 1 }) q.2 x.comm.jxt } })
    let m := match (m.jxt.conns[q.2]?).bind (fun y => (y.before x.agr.since x.t0).filter (fun p => p.2 != taken)) with
      | some (ws, serial) => m.checkIn l 1 (missed serial) (fun m => m.jxtCheck l q.2 q.1 ws serial)
      | none => missed taken m
    m.jxtTimeout l q.2 q.1) m

/-! ### Field bus (R357 to R359) -/

def canRecs (p : CanId) (c : CommState) : List CanRec :=
  match p with
  | .p1 => c.can1
  | .p2 => c.can2

/-- Bytes of a value of a profile. -/
def byteLen (bits : Nat) : Nat := (bits + 7) / 8

/-- The covered data of a protected payload: every byte but those of the check value. (DEDUCED log 35) -/
def coveredBytes (p : Profile) (w : Nat) (bs : List Byte) : List Byte :=
  bs.take p.checkAt ++ bs.drop (p.checkAt + byteLen w)

/-- The check value, and the alive counter, that a payload carries. (DEDUCED log 35) -/
def carriedCheck (p : Profile) (w : Nat) (bs : List Byte) : Nat := ofBytes ((bs.drop p.checkAt).take (byteLen w)) % 2 ^ w
/-- Check value and alive counter on the CAN bus stand big-endian at their configured byte. (DEDUCED log 35) -/
def carriedAlive (p : Profile) (bs : List Byte) : Nat :=
  ofBytes ((bs.drop p.alvByte).take (byteLen p.alvBits)) % 2 ^ p.alvBits

/-- The newest frame of a buffer that a lane may take, with the record's flag after the read (R357): a frame settled at or
after T0 is left for the next cycle, and the one in the other slot taken if it was not yet. One that settled while the lane was OUT,
before `since`, was not written to it (R16). (DEDUCED log 31) -/
def canRead (b : CanBuf) (since t0 : Nat) (r : CanRec) : Option (CanFrame × Bool × Nat) × Bool :=
  if r.new = false then (none, false)
  else
    let pick (s : Bool) := if s then b.slot1 else b.slot0
    match pick b.slot with
    | none => (none, false)
    | some f =>
      if f.2.2 < t0 then (some f, false)
      else match pick (!b.slot) with
        | some g => if g.2.2 < since ∨ r.lastTaken.any (fun t => decide (g.2.2 ≤ t)) then (none, true) else (some g, true)
        | none => (none, true)

/-- The check value first, then the alive counter (R358): the cause of a rejection, with the counter's verdict. -/
def canVerdict (prof : Option Profile) (r : CanRec) (bs : List Byte) : Option Nat × Option AliveVerdict :=
  match prof with
  | none => (none, none)
  | some p =>
    let q := profileParams p
    if crcOf q (coveredBytes p q.width bs) ≠ carriedCheck p q.width bs then (some 3, none)
    else if p.alvBits = 0 then (none, none)
    else
      let v := judgeAlive p.alvBits p.alvMaxd r.alive r.resync (carriedAlive p bs)
      (if v.ok then none else some 4, some v)

/-- A counter verdict in a context: what it counts. -/
def CvCtx.alive (v : AliveVerdict) (c : W32) (x : CvCtx) : CvCtx :=
  { x with
    jumps := satAdd x.jumps v.jumps, repeats := satAdd x.repeats v.repeats, lost := satAdd x.lost v.lost
    alvCycle := if v.ok then x.alvCycle else some c }

/-- `CAN_TMO` with its default. -/
def canTmo (c : BufCfg) : Nat := c.tmo.getD 3

/-- A receive buffer's profile. -/
def bufProfile (m : Mach) (c : BufCfg) : Option Profile := if c.ctx = 0 then none else m.profile c.ctx

def Mach.canCheck (l : LaneId) (p : CanId) (b : Nat) (c : BufCfg) (f : CanFrame) (partner : Bool) (m : Mach) : Mach :=
  let x := m.lane l
  let r := (canRecs p x.comm).getD b {}
  let prof := bufProfile m c
  let v := canVerdict prof r f.data
  let ctx (y : Lane) : Lane := match prof with
    | some q =>
      let y := y.updCv q.ctx (CvCtx.compute (profileParams q) (coveredBytes q (profileParams q).width f.data))
      (match v.2 with | some w => y.updCv q.ctx (CvCtx.alive w x.cop.cycleNo) | none => y)
    | none => y
  let m := m.updLane l (fun y => (ctx y).updCanRec p b (fun r =>
    let r := match v.2 with | some w => { r with alive := w.ref, resync := w.resync } | none => r
    if v.1.isNone then { r with data := f.data, missed := 0, timedOut := false } else r))
  let m := if l = .a then m.updCan p (fun y => y.updBuf b (fun z => { z with
    shown := some (f, partner), group := z.group.complete })) else m
  let m := if v.1 = some 4 then m.raise cvPath 1 else m
  if l ≠ m.countLane then m
  else match v.1 with
    | some k =>
      let m := m.updCan p (fun y => y.updBuf b (CanBuf.discard k m.cycleNo))
      if k = 4 then m.noteCan p 0x97 (BitVec.ofNat 32 b) 0 else m
    | none =>
      let m := m.updCan p (fun y => y.updBuf b (fun z => { z with valid := true }))
      if r.timedOut then m.raise (canPath p 2) 1 else m

/-- `CAN_TMO` sampling phases without an accepted frame: a timeout, after which the alive reference is undefined. -/
def Mach.canTimeout (l : LaneId) (p : CanId) (b : Nat) (c : BufCfg) (m : Mach) : Mach :=
  let r := (canRecs p (m.lane l).comm).getD b {}
  if r.timedOut ∨ r.missed < canTmo c then m
  else
    let m := m.updLane l (fun x => x.updCanRec p b (fun r => { r with timedOut := true, alive := none, resync := true }))
    if l ≠ m.countLane then m
    else
      let m := m.updCan p (fun y => y.updBuf b (fun z => { z with valid := false, tmo := satInc z.tmo }))
      (m.raise (canPath p 2) 0).noteCan p 0x95 (BitVec.ofNat 32 b) 0

/-- CAN reception: the buffer slots are shared and the NEW flags belong to a lane. (DEDUCED log 31) -/
def Mach.canTake (l : LaneId) (p : CanId) (m : Mach) : Mach :=
  match m.canCfg p with
  | none => m
  | some cfg =>
    (cfg.bufs.zipIdx).foldl (fun m q =>
      if q.1.dir ≠ .receive then m
      else
        let x := m.lane l
        let r := canRead ((m.can p).bufs.getD q.2 {}) x.agr.since x.t0 ((canRecs p x.comm).getD q.2 {})
        let m := m.updLane l (fun y => y.updCanRec p q.2 (fun z => { z with
          new := r.2, missed := z.missed + 1
          lastTaken := match r.1 with | some f => some f.2.2 | none => z.lastTaken }))
        let m := match r.1 with
          | some f => m.checkIn l q.1.ctx id (fun m => m.canCheck l p q.2 q.1 f.1 f.2.1)
          | none => m
        m.canTimeout l p q.2 q.1) m

/-- Everything that a lane takes from the networks at its sampling phase. -/
def Mach.takeNetworks (l : LaneId) (m : Mach) : Mach :=
  (((((m.ringTake l .r1).ringTake l .r2).jxtTake l).canTake l .p1).canTake l .p2).updLane l (fun x => { x with cvLost := [] })

end Sys2Proof.Machine
end

