-- ==== Sys2Proof/Machine/Protection.lean ====
section
/-! DEFINITION. Staff and machine protection functions (R238 to R249): an instance's new block from its old one and
what a lane sampled. -/

namespace Sys2Proof.Machine

/-! ### Blocks (R240) -/

def pfCodeNat : PfCode → Nat
  | .invalid => 0 | .go => 1 | .stopped => 2 | .waitReset => 3 | .disc => 4 | .unlocked => 5 | .lockFault => 6
  | .idle => 8 | .one => 9 | .ack => 10 | .blocked => 11 | .ready => 12 | .stopping => 13 | .standstill => 14
  | .tripped => 15

def pfCodeOf (n : Nat) : PfCode :=
  match n with
  | 1 => .go | 2 => .stopped | 3 => .waitReset | 4 => .disc | 5 => .unlocked | 6 => .lockFault | 8 => .idle | 9 => .one
  | 10 => .ack | 11 => .blocked | 12 => .ready | 13 => .stopping | 14 => .standstill | 15 => .tripped | _ => .invalid

/-- A block's state: code, latch and sample counter. -/
structure PfState where
  code  : PfCode
  latch : Bool
  tcnt  : Nat
  deriving DecidableEq, Repr

def blockState (w : W32) : PfState :=
  { code := pfCodeOf ((w.toNat / 4) % 16), latch := w.getLsbD 6, tcnt := (w.toNat / 256) % 65536 }

def pfResult (c : PfCode) : Bool := c == .go || c == .ack || c == .ready || c == .stopping

/-- What a lane sampled of an instance's channels: value and validity of the contacts, the reset and the lock
channel's value where they are configured, whether every channel is valid, the speed, and the committed commands of the
guarded outputs. `rampFell` says that the ramp command turned from 1 to 0 in the last cycle of COMMISSION or
MAINTAIN. -/
structure PfIn where
  a : Bool
  b : Bool
  c : Bool
  d : Bool
  pairValid : Bool
  allValid  : Bool
  reset : Option Bool
  lock  : Option Bool
  speed : Nat
  guard : List Bool
  rampFell : Bool
  deriving DecidableEq, Repr

/-- A duration in ms as samples. -/
def samplesOf (cMs ms : Nat) : Nat := (ms + cMs - 1) / max cMs 1

/-- N_D (R244), with `TDISC` 100 ms where it is not set. -/
def pfNd (c : PfCfg) (cMs : Nat) : Nat := samplesOf cMs (c.tdisc.getD 100)

/-! ### Contact pairs (R243, R244, R245) -/

inductive PairRead where
  | bad | go | stop | split
  deriving DecidableEq, Repr

def readPair (c : PfCfg) (i : PfIn) : PairRead :=
  let goB := !c.anti
  if i.pairValid = false then .bad
  else if i.a && i.b == goB then .go
  else if !i.a && i.b != goB then .stop
  else .split

/-- GO, or UNLOCKED in its place. -/
def goState (i : PfIn) : PfCode := if i.lock = some false then .unlocked else .go

/-- A reset pulse ends in this sample: `n` samples of 1 came before a 0. -/
def resetEnds (cMs n : Nat) (r : Option Bool) : Bool :=
  r == some false && decide (samplesOf cMs 100 ≤ n) && decide (n ≤ 5000 / max cMs 1)

/-- TCNT counts SPLIT samples in a row in every state, and reset-high samples in WAIT_RESET. (DEDUCED log 25) -/
def pairCount (r : PairRead) (s : PfState) : Nat :=
  if r = .split then (if s.code = .waitReset then 1 else s.tcnt + 1) else 0

/-- A contact pair with its lock channel; `run` counts the samples in a row of STOP with the lock at 1, this one included. A latch
clears when both contacts are seen at their stop level together; with the lock at 1 only DISC is left so (R244, R245).
(DEDUCED log 25) -/
def pairStep (c : PfCfg) (cMs run : Nat) (i : PfIn) (s : PfState) : PfState :=
  let r := readPair c i
  let nd := pfNd c cMs
  let locked := i.lock == some true
  let n := pairCount r s
  let latch := s.latch && !(r == .stop && (!locked || s.code == .disc))
  let go (k : PfCode) : PfState := { code := k, latch := latch, tcnt := n }
  let permit : PfCode := if c.reset.isSome then .waitReset else goState i
  if r = .bad then { code := .invalid, latch := s.latch, tcnt := 0 }
  else if s.code ≠ .disc ∧ nd < n then { code := .disc, latch := true, tcnt := n }
  else if nd < run then { code := .lockFault, latch := true, tcnt := n }
  else match s.code with
    | .disc => if r = .stop then go .stopped else go .disc
    | .lockFault => if r = .stop ∧ locked = false then go .stopped else go .lockFault
    | .go | .unlocked => if r = .go then go (goState i) else go .stopped
    | .stopped => if r = .go then go permit else go .stopped
    | .waitReset =>
      if r ≠ .go then go .stopped
      else if i.reset = some true then { code := .waitReset, latch := latch, tcnt := s.tcnt + 1 }
      else if resetEnds cMs s.tcnt i.reset then go (goState i)
      else go .waitReset
    | _ => if r = .go ∧ i.allValid then go permit else if r = .stop then go .stopped else go .invalid

/-! ### Two-button acknowledgement (R246) -/

inductive ButtonRead where
  | pressed | released | split
  deriving DecidableEq, Repr

def readButton (no nc : Bool) : ButtonRead :=
  if no && !nc then .pressed else if !no && nc then .released else .split

/-- A two-button instance; `aux` counts the SPLIT samples in a row of each button, this one included, and names the button that
was first (R246). (DEDUCED log 25) -/
def buttonStep (c : PfCfg) (cMs : Nat) (i : PfIn) (aux : PfAux) (s : PfState) : PfState :=
  let x := readButton i.a i.b
  let y := readButton i.c i.d
  let first := if aux.second then y else x
  let both (k : ButtonRead) : Bool := x == k && y == k
  let k := 500 / max cMs 1 - 1
  let n := max aux.n1 aux.n2
  let t := s.tcnt + 1
  let plain (k : PfCode) (t : Nat) : PfState := { code := k, latch := false, tcnt := t }
  if i.allValid = false then { code := .invalid, latch := s.latch, tcnt := 0 }
  else if s.code ≠ .disc ∧ pfNd c cMs < n then { code := .disc, latch := true, tcnt := n }
  else match s.code with
    | .disc => if both .released then plain .idle n else { code := .disc, latch := true, tcnt := n }
    | .idle =>
      if both .pressed then plain .ack 1
      else if (x == .pressed && y == .released) || (x == .released && y == .pressed) then plain .one 0
      else plain .idle n
    | .one =>
      if both .pressed ∧ t ≤ k then plain .ack 1
      else if k < t then plain .blocked n
      else if first = .released then plain .idle n
      else plain .one t
    | .ack =>
      if both .pressed ∧ s.tcnt < samplesOf cMs (c.ackmax.getD 5000) then plain .ack t else plain .blocked n
    | .blocked => if both .released then plain .idle n else plain .blocked n
    | _ => if both .released then plain .idle n else { code := .invalid, latch := s.latch, tcnt := n }

/-! ### Safe stop (R247 to R249) -/

/-- The limit curve at t ms. -/
def limitCurve (c : PfCfg) (t : Nat) : Nat :=
  if t < c.tdelay then c.vlim0 else max c.vss (c.vlim0 - c.decel * (t - c.tdelay) / 1000)

/-- A safe stop's new state, with the samples in a row at or below `VSS` up to this one. (DEDUCED log 25) -/
def stopStep (c : PfCfg) (cMs low : Nat) (i : PfIn) (s : PfState) : PfState :=
  let slow := decide (i.speed ≤ c.vss)
  let still := decide (samplesOf cMs c.tss ≤ low)
  let off := !(i.guard.getD 0 false) && !(i.guard.getD 1 false)
  let n := s.tcnt + 1
  if i.pairValid = false then { code := .invalid, latch := false, tcnt := 0 }
  else match s.code with
    | .ready =>
      if c.vmax < i.speed ∨ i.rampFell then { code := .stopping, latch := false, tcnt := 1 }
      else { code := .ready, latch := false, tcnt := 0 }
    | .stopping =>
      if limitCurve c (n * cMs) < i.speed ∨ c.tmax < n * cMs then { code := .tripped, latch := true, tcnt := 0 }
      else if still then { code := .standstill, latch := s.latch, tcnt := 0 }
      else { code := .stopping, latch := s.latch, tcnt := n }
    | .standstill =>
      let resetOk := !s.latch || i.reset.isNone || resetEnds cMs s.tcnt i.reset
      if off && slow && resetOk then { code := .ready, latch := false, tcnt := 0 }
      else { code := .standstill, latch := s.latch, tcnt := if i.reset = some true then n else 0 }
    | .tripped =>
      if still then { code := .standstill, latch := true, tcnt := 0 } else { code := .tripped, latch := true, tcnt := n }
    | _ =>
      if slow && off then { code := .ready, latch := false, tcnt := 0 } else { code := .invalid, latch := false, tcnt := 0 }

/-! ### The new block (R240, R241) -/

/-- The runs of samples that an instance's `TCNT` has no room for, after this sample: STOP with the lock at 1 (R245), each button's
SPLIT with the button pressed first (R246), and a safe stop's speed at or below `VSS` (R249). (DEDUCED log 25) -/
def pfAuxStep (c : PfCfg) (i : PfIn) (s : PfState) (x : PfAux) : PfAux :=
  let count (b : Bool) (n : Nat) : Nat := if b then n + 1 else 0
  match c.kind with
  | .estop | .gate | .curtain => { x with n1 := count (readPair c i == .stop && i.lock == some true) x.n1 }
  | .twoButton =>
    { n1 := count (i.allValid && readButton i.a i.b == .split) x.n1
      n2 := count (i.allValid && readButton i.c i.d == .split) x.n2
      second := if s.code = .idle then readButton i.c i.d == .pressed else x.second }
  | .safeStop =>
    { x with n1 := count (i.pairValid && decide (i.speed ≤ c.vss) && (s.code == .stopping || s.code == .tripped)) x.n1 }

def pfStep (c : PfCfg) (cMs : Nat) (i : PfIn) (aux : PfAux) (s : PfState) : PfState :=
  match c.kind with
  | .estop | .gate | .curtain => pairStep c cMs aux.n1 i s
  | .twoButton => buttonStep c cMs i aux s
  | .safeStop => stopStep c cMs aux.n1 i s

/-- A slot's `HOLD` bit. The ramp output of a safe stop is held in every state but READY. -/
def holdBitOf (c : PfCfg) (i : PfIn) (old : W32) (s : PfState) (g : Nat) : Bool :=
  let kept := old.getLsbD (24 + g) && i.guard.getD g false
  if (c.guard.getD g none).isNone then false
  else if c.kind = .safeStop ∧ g = 1 then (s.code != .ready) || kept
  else !(pfResult s.code) || kept

def pfBlock (c : PfCfg) (i : PfIn) (old : W32) (s : PfState) : W32 :=
  fields ([(0, bitOf (pfResult s.code)), (1, bitOf i.allValid), (2, pfCodeNat s.code), (6, bitOf s.latch),
    (8, min s.tcnt 65535)] ++ (List.range 8).map (fun g => (24 + g, bitOf (holdBitOf c i old s g))))

end Sys2Proof.Machine
end

