-- ==== Sys2Proof/Machine/Sampling.lean ====
section
/-! DEFINITION. The input sampling phase of a lane (R18, R87, R93, R118, R193 to R195, R202, R206, R236, R239): what it judges of
its latest coupler frames, its protection blocks, and its input image with the system bits. -/

namespace Sys2Proof.Machine

/-! ### Field channels as a lane judges them -/

/-- A monitor frame no older than two of its samples (R210). (DEDUCED log 17) -/
def fsmFresh (now : Nat) (x : Lane) : Bool := match x.fsmAt with | some t => decide (now ≤ t + 200000) | none => false

/-- A coupler frame no older than 100 µs. (DEDUCED log 17) -/
def frameFresh (now : Nat) (at0 : Option Nat) : Bool := match at0 with | some t => decide (now ≤ t + 100000) | none => false

/-- A digital input is valid in a lane (R193); the test sequence does not apply to the encoder's tracks. -/
def diJudged (m : Mach) (x : Lane) (ch : Nat) : Bool :=
  match x.di[ch]? with
  | some f => fsmFresh m.now x && frameFresh m.now f.at0 && f.checkOk && f.valid &&
      (diEnc m ch || decide (m.now < f.seqAt + 2500000000))
  | none => false

/-- The value that `CAPT` selects (R194). -/
def diTaken (m : Mach) (x : Lane) (ch : Nat) : Bool :=
  let level := (x.di.getD ch {}).level
  match (m.diCfg ch).elim 0 (fun c => c.capt) with
  | 1 => level || x.capHi.getD ch false
  | 2 => level && !x.capLo.getD ch false
  | _ => level

def aiJudged (m : Mach) (x : Lane) (ch : Nat) : Bool := fsmFresh m.now x && (x.ai.getD ch {}).valid

def encJudged (m : Mach) (x : Lane) : Bool := x.enc.valid && diJudged m x 46 && diJudged m x 47

/-- An output is available in a lane (R236); one that the drive monitor found lost is not (R180). -/
def outJudged (m : Mach) (x : Lane) (n : Nat) : Bool :=
  match x.outs[n]? with
  | some f => fsmFresh m.now x && frameFresh m.now f.at0 && f.checkOk && f.avail &&
      decide (m.now < f.judgedAt + 10000000000) && !m.cal.odm.lost.getLsbD n
  | none => false

/-- A threshold variable (R206): set, reset, or as the committed vector holds it. -/
def thresholdBit (th : Threshold) (v : Int) (old : Bool) : Bool := if th.set ≤ v then true else if v ≤ th.reset then false else old

/-! ### Protection instances (R239) -/

/-- The output variable of a field output channel. -/
def outVar (sd : StationData) (n : Nat) : Option Nat := (sd.outputs.find? (fun p => p.2 == n)).map Prod.fst

/-- The committed command of a field output in a lane. -/
def outCommand (sd : StationData) (g : Grain) (x : Lane) (n : Nat) : Bool :=
  match outVar sd n with
  | some a => x.trueBit g a
  | none => false

/-- A channel's value with its validity: an invalid one has its restrictive 0. (DESIGN CHOICE log 114) -/
def chanValue (m : Mach) (x : Lane) (ch : Option Nat) : Bool × Bool :=
  match ch with
  | some k => let v := diJudged m x k; (v && diTaken m x k, v)
  | none => (false, true)

def pfInOf (m : Mach) (sd : StationData) (g : Grain) (x : Lane) (c : PfCfg) : PfIn :=
  let v (k : Option Nat) := chanValue m x k
  let enc := c.kind == .safeStop
  let aux := (v c.reset).2 && (v c.lock).2
  let all := (v c.chA).2 && (v c.chB).2 && (v c.chC).2 && (v c.chD).2 && aux && (!enc || encJudged m x)
  let cmd := (List.range 8).map (fun k => match c.guard.getD k none with | some n => outCommand sd g x n | none => false)
  { a := (v c.chA).1, b := (v c.chB).1, c := (v c.chC).1, d := (v c.chD).1
    pairValid := if enc then encJudged m x else (v c.chA).2 && (v c.chB).2
    allValid := all
    reset := c.reset.map (fun k => (v (some k)).1), lock := c.lock.map (fun k => (v (some k)).1)
    speed := x.enc.speed.toInt.natAbs, guard := cmd
    rampFell := (m.mod.mode == .commission || m.mod.mode == .maintain) && x.rampWas && !cmd.getD 1 false }

/-- The new blocks of every instance, with the lane's runs of samples beside them and what a safe stop shows: its limit, where the
sample was one in STOPPING, and its speed. -/
structure PfPass where
  blocks : List W32
  aux    : List PfAux
  shown  : List (Nat × Option Nat × Nat)
  deriving DecidableEq, Repr

def pfPass (m : Mach) (sd : StationData) (g : Grain) (x : Lane) : PfPass :=
  (sd.pf.zipIdx).foldl (fun p q =>
    let c := q.1
    let old := x.trueWord g (c.base / 32)
    let s := blockState old
    let i := pfInOf m sd g x c
    let aux := pfAuxStep c i s (x.pfAux.getD q.2 {})
    let new := pfStep c m.cycleMs i aux s
    let t := if s.code = .stopping then s.tcnt + 1 else new.tcnt
    let limit := if s.code = .stopping ∨ new.code = .stopping then some (limitCurve c (t * m.cycleMs)) else none
    { blocks := p.blocks ++ [pfBlock c i old new], aux := p.aux ++ [aux]
      shown := if c.kind = .safeStop then p.shown ++ [(q.2, limit, i.speed)] else p.shown })
    { blocks := [], aux := [], shown := [] }

/-- `SS.LIMIT` is the limit at the last sample in STOPPING, `SS.SPEED` the speed at lane A's last sample (R250). -/
def PfCh.showStop (l view : LaneId) (limit : Option Nat) (speed : Nat) (y : PfCh) : PfCh :=
  { y with
    limit := match limit with | some v => if l = view then BitVec.ofNat 24 v else y.limit | none => y.limit
    speed := if l = .a then BitVec.ofNat 24 speed else y.speed }

/-! ### The input image (R88, R93, R95) -/

/-- What a source gives the input variable at an address, or none where the source is invalid. -/
def sourceValue (m : Mach) (sd : StationData) (g : Grain) (x : Lane) (blocks : List W32) (addr : Nat) :
    InputSrc → Option Bool
  | .di ch => if diJudged m x ch then some (diTaken m x ch) else none
  | .diValid ch => some (diJudged m x ch)
  | .aiThr ch k =>
    match ((sd.ai[ch]?).bind (fun c => c.thrs[k]?)) with
    | some th => if aiJudged m x ch then some (thresholdBit th (x.ai.getD ch {}).code.toNat (x.trueBit g addr)) else none
    | none => none
  | .aiValid ch => some (aiJudged m x ch)
  | .encThr k =>
    match sd.settings.encThrs[k]? with
    | some th => if encJudged m x then some (thresholdBit th x.enc.speed.toInt (x.trueBit g addr)) else none
    | none => none
  | .encValid => some (encJudged m x)
  | .outValid n => some (outJudged m x n)
  | .ring i e w b =>
    let es := ringEntries m i
    let r := (commRing i x.comm).getD ((ringConns es).idxOf ((es[e]?).elim 0 (fun y => y.conn))) {}
    if r.timedOut then none else some ((r.payload.getD w 0).getLsbD b)
  | .ringValid i e =>
    let es := ringEntries m i
    some (!((commRing i x.comm).getD ((ringConns es).idxOf ((es[e]?).elim 0 (fun y => y.conn))) {}).timedOut)
  | .jxt k w b => let r := x.comm.jxt.getD k {}; if r.timedOut then none else some ((r.words.getD w 0).getLsbD b)
  | .jxtValid k => some (!(x.comm.jxt.getD k {}).timedOut)
  | .can p k by0 b => let r := (canRecs p x.comm).getD k {}; if r.timedOut then none else some ((r.data.getD by0 0).getLsbD b)
  | .canValid p k => some (!((canRecs p x.comm).getD k {}).timedOut)
  | .protection j b => some ((blocks.getD j 0).getLsbD b)

/-- The bits of the input image that are 1: sources, restrictive values, and in a shadow the request inputs that the lead
held (R379). In JOIN every variable has its restrictive value. -/
def imageBits (m : Mach) (sd : StationData) (g : Grain) (x : Lane) (blocks : List W32) : List Nat :=
  if m.mod.mode = .join then sd.restrictIn
  else
    let mapped := sd.inputs.map Prod.fst
    let src := sd.inputs.filterMap (fun p =>
      if (sourceValue m sd g x blocks p.1 p.2).getD (sd.restrictIn.contains p.1) then some p.1 else none)
    src ++ sd.restrictIn.filter (fun n => !mapped.contains n) ++ x.xch.orBits

/-- The system bits of a run (R87). (DEDUCED log 37) -/
def sysBitsOf (m : Mach) (x : Lane) : W32 :=
  fields [(1, 1), (2, bitOf x.mem.needsInit), (3, bitOf (fsmFresh m.now x && !x.fsmHeld)),
    (4, bitOf (m.mod.mode == .commission)), (5, bitOf (m.mod.mode == .maintain))]

def Mach.updPf (j : Nat) (f : PfCh → PfCh) (m : Mach) : Mach := m.updField (fun x => { x with pf := modAt f j x.pf })

/-- The lane's image, once it has taken everything. -/
def Mach.formImage (l : LaneId) (sd : StationData) (m : Mach) : Mach :=
  let x := m.lane l
  let g := m.grain l
  let p := pfPass m sd g x
  let img := memOfBits (imageBits m sd g x p.blocks)
  let sys := sysBitsOf m x
  let m := p.shown.foldl (fun m s => m.updPf s.1 (PfCh.showStop l m.countLane s.2.1 s.2.2)) m
  m.updLane l (fun x => { x with
    sampled := true, pfAux := p.aux
    xch := { x.xch with sampled := img, sysBits := sys } })

/-- At T0 + 20 µs: the frames are latched, the capture latches cleared, and the image formed. -/
def inputSample (l : LaneId) (m : Mach) : Mach :=
  let x := m.lane l
  match m.sd with
  | none => m
  | some sd =>
    if x.awake && x.phase == .wake && decide (x.t0 + 20000 ≤ m.now) && !m.isOut l then
      let ai := m.field.ai.map (fun c => ({ code := c.code, valid := c.valid } : AiFrame))
      let m := m.updLane l (fun x => { x with phase := .sampling, ai := ai })
      let m := (m.takeNetworks l).formImage l sd
      m.updLane l (fun x => { x with
        capHi := x.capHi.map (fun _ => false), capLo := x.capLo.map (fun _ => false), xch := { x.xch with orBits := [] } })
    else m

/-- INPUT_SAMPLE. -/
def execInputSample (l : LaneId) (t : Nat) (s : State) : Host.Outcome State Fault Refusal :=
  s.run (fun m => inputSample l (m.tick t))

end Sys2Proof.Machine
end

