-- ==== Sys2Proof/Machine/Close.lean ====
section
/-! DEFINITION. The close of a run and the forming of what a lane hands over (R84, R111, R121, R123, R127, R165, R241, R256, R314
to R316, R337, R374 to R376, R405). -/

namespace Sys2Proof.Machine

/-! ### Message words (R88, R165) -/

/-- A message's words as the I/O map forms them: the fixed part with each mapped output variable in its bit. -/
def mappedWords (sd : StationData) (val : Nat → Bool) (c : MsgCfg) : List W64 :=
  (sd.msgBits.filter (fun b => b.msg == c.msg)).foldl
    (fun ws b => modAt (fun w => setBit w b.bit (val b.addr)) b.word ws)
    ((List.range c.words).map (fun k => c.base.getD k 0))

def hiLo (hi lo : W32) : W64 := hi ++ lo

/-- A lane that forms messages, with the words of one formed; one that it does not hand over is none. -/
abbrev Formed := Lane × List (Option W64)

/-- The last word takes the safety code of the words before it, with a prefix where there is one; context 0 computes it. A result that
the engine cannot take is not handed over (R336). -/
def sealSafety (pre ws : List W64) (x : Lane) : Formed :=
  let body := ws.dropLast
  let fresh := (x.cv[0]?).all CvCtx.nextFresh
  (x.safety 0 (pre ++ body), body.map some ++ [if fresh then some (safetyCode (pre ++ body)) else none])

/-- A ring message (R256): its stamp, and the safety code over the prefix word of R337. -/
def formRing (r : RingCfg) (sporadic : Bool) (c : MsgCfg) (ws : List W64) (x : Lane) : Formed :=
  let ws := modAt (fun _ => hiLo x.cop.cycleNo r.schedId) 0 ws
  sealSafety [ringPrefix (if sporadic then 2 else 1) 1 r.node (BitVec.ofNat 12 c.msg) (BitVec.ofNat 16 (8 * ws.length))] ws x

/-- `EAGE` (R315), from the cycle timetable. -/
def jxtEageOf (h s : W32) (cMs predHalf : Nat) : Nat :=
  min 0xFFFF (((h - s).toNat * cMs * 2000000 + predHalf - 40000) / 2000000)

/-- A JXT message (R314): header words, safety code, and the CMAC where it is carried. -/
def formJxt (c : JxtCfg) (cMs predHalf k : Nat) (ws : List W64) (x : Lane) : Formed :=
  let r := x.comm.jxt.getD k {}
  let eage := match r.reply with
    | some _ => jxtEageOf x.cop.cycleNo r.takenIn cMs predHalf
    | none => 0xFFFF
  let slot := if c.cmac then c.keyTx.toNat else 0
  let ws := modAt (fun _ => hiLo x.cop.cycleNo c.txCcid) 0 ws
  let ws := modAt (fun _ => hiLo (r.reply.getD 0xFFFFFFFF) (BitVec.ofNat 32 (eage * 65536 + slot))) 1 ws
  if c.cmac then
    let (x, body) := sealSafety [] ws.dropLast x
    (x, body ++ [some ((x.slotKey k c.keyTx.toNat).elim 0 (fun key => cmacWord key (body.filterMap id)))])
  else sealSafety [] ws x

/-- Bytes written at a place of a payload. -/
def overlay (at0 : Nat) (bs pay : List Byte) : List Byte := pay.take at0 ++ bs ++ pay.drop (at0 + bs.length)

/-- 64-bit words of bytes. -/
def wordsOfBytes (n : Nat) (bs : List Byte) : List W64 :=
  (List.range n).map (fun k => BitVec.ofNat 64 (ofBytes ((List.range 8).map (fun i => bs.getD (8 * k + i) 0))))

/-- A field bus message: its profile's alive counter, one more than the last, and then its check value (R337, R339).
(DEDUCED log 35) -/
def formCan (m : Mach) (p : CanId) (b : Nat) (ws : List W64) (x : Lane) : Formed :=
  match (m.canCfg p).bind (fun c => canBuf c b) with
  | none => (x, ws.map some)
  | some c =>
    match bufProfile m c with
    | none => (x, ws.map some)
    | some q =>
      let params := profileParams q
      let n := dlcBytes c.fdf c.dlc
      let pay := ws.tail.flatMap bytes64
      let alive := (((canRecs p x.comm).getD b {}).txAlive + 1) % 2 ^ q.alvBits
      let pay := if q.alvBits = 0 then pay else overlay q.alvByte (beBytes (byteLen q.alvBits) alive) pay
      let cov := coveredBytes q params.width (pay.take n)
      let pay := overlay q.checkAt (beBytes (byteLen params.width) (crcOf params cov)) pay
      let x := x.updCv q.ctx (CvCtx.compute params cov)
      (x.updCanRec p b (fun r => { r with txAlive := alive }), (ws.headD 0 :: wordsOfBytes ws.tail.length pay).map some)

/-! ### The mirror packet (R375, R376) -/

/-- Bits packed from bit 63 down, 64 to a word. -/
def packBits (bs : List Bool) : List W64 :=
  (List.range ((bs.length + 63) / 64)).map (fun k =>
    (List.range 64).foldl (fun w i => setBit w (63 - i) (bs.getD (64 * k + i) false)) 0)

/-- The words of the committed output region in true grain. -/
def outputWords (g : Grain) (x : Lane) : List W64 :=
  (List.range 1024).map (fun k => (x.trueWord g (0x800 + 2 * k + 1)) ++ (x.trueWord g (0x800 + 2 * k)))

/-- The output digest. (DEDUCED log 36) -/
def outputDigest (g : Grain) (x : Lane) : W64 := safetyCode (outputWords g x)

/-- The running cells of the mirror map, in ascending index. (DEDUCED log 36) -/
def runningCells (g : Grain) (x : Lane) (cells : List Nat) : List Nat :=
  (List.range 16384).filter (fun k => cells.contains k && (x.trueCellWord g k).getLsbD 31)

/-- Bit orders: output digest, mirror records. (DEDUCED log 36) -/
def cellRecord (g : Grain) (x : Lane) (k : Nat) : W64 :=
  BitVec.ofNat 64 (k * 2 ^ 48 + bitOf (x.trueBit g (0x20000 + k)) * 2 ^ 24 + (x.trueCellWord g k).toNat % 2 ^ 24)

/-- A JXT connection's three words. (DEDUCED log 36) -/
def jxtRecord (cMs : Nat) (c : W32) (r : JxtRec) : List W64 :=
  let none32 : W32 := 0xFFFFFFFF
  [hiLo (r.seq.getD none32) (r.echo.getD none32),
   hiLo (BitVec.ofNat 32 ((c - r.takenIn).toNat * cMs)) (BitVec.ofNat 32 r.missed),
   hiLo 0 (r.accepted.getD none32)]

/-- A CAN FD alive counter: the one last sent from a transmit buffer, the reference of a receive buffer.
(DEDUCED log 36) -/
def aliveRecord (m : Mach) (x : Lane) (q : CanId × Nat) : W64 :=
  let r := (canRecs q.1 x.comm).getD q.2 {}
  match (m.canCfg q.1).bind (fun c => canBuf c q.2) with
  | some c => if c.dir = .transmit then BitVec.ofNat 64 r.txAlive else (match r.alive with
      | some a => BitVec.ofNat 64 a | none => BitVec.allOnes 64)
  | none => BitVec.allOnes 64

/-- The packet's data words. (DEDUCED log 36) -/
def packetWords (m : Mach) (sd : StationData) (g : Grain) (x : Lane) : List W64 :=
  let p := sd.pair
  let run := runningCells g x p.cells
  let listed := run.take p.capacity
  let ovf := decide (p.capacity < run.length)
  let control := hiLo m.pair.swap (BitVec.ofNat 32 (listed.length * 2 ^ 16 + bitOf ovf * 2 ^ 15))
  [outputDigest g x, control]
    ++ packBits (p.requests.map (fun n => memBit 0 x.xch.sampled n))
    ++ packBits (p.memories.map (fun n => x.trueBit g n))
    ++ (List.range p.capacity).map (fun k => match listed[k]? with
        | some c => cellRecord g x c
        | none => (0xFFFF : W64) <<< 48)
    ++ (List.range sd.jxt.length).flatMap (fun k => jxtRecord m.cycleMs x.cop.cycleNo (x.comm.jxt.getD k {}))
    ++ p.canAlive.map (aliveRecord m x)

/-- Segment `s` of a packet's data words. -/
def formSegment (sd : StationData) (data : List W64) (s : Nat) (x : Lane) : Formed :=
  let n := sd.pair.segWords.getD s 3
  let from0 := ((sd.pair.segWords.take s).map (· - 3)).foldl (· + ·) 0
  let part := (data.drop from0).take (n - 3)
  let w0 := hiLo x.cop.cycleNo (BitVec.ofNat 32 (s * 2 ^ 28 + sd.pair.segWords.length * 2 ^ 24))
  sealSafety [] (w0 :: sd.id :: part ++ [0]) x

/-! ### Everything that a lane hands over (R121, R165) -/

/-- A message formed for its port. -/
def formMsg (m : Mach) (sd : StationData) (g : Grain) (c : MsgCfg) (x : Lane) : Formed :=
  let ws := mappedWords sd (x.trueBit g) c
  match c.port with
  | .ring i => match m.ringCfg i with | some r => formRing r false c ws x | none => (x, ws.map some)
  | .ringSporadic i => match m.ringCfg i with | some r => formRing r true c ws x | none => (x, ws.map some)
  | .jxt k => match sd.jxt[k]? with
    | some j => formJxt j m.cycleMs (predClose x.cop.rows.toNat x.cop.timers.toNat) k ws x
    | none => (x, ws.map some)
  | .can p b => formCan m p b ws x
  | .canCommand _ => (x, ws.map some)
  | .mirror => formSegment sd (packetWords m sd g x) (c.msg - 4088) x

/-- A vote-link word with its CRC-3. -/
def voteWord (l : LaneId) (kind : VoteKind) (last : Bool) (msg word : Nat) (data : W64) : VoteWord :=
  let w : VoteWord := { lane := l, kind := kind, last := last, msg := msg, word := word, data := data, chk := 0 }
  { w with chk := voteChk data (sideband w) }

/-- The words of a message that are handed over, each with its place. -/
def voteWords (l : LaneId) (kind : VoteKind) (c : MsgCfg) (ws : List (Option W64)) : List VoteWord :=
  (ws.zipIdx).filterMap (fun p => p.1.map (fun d => voteWord l kind (p.2 + 1 == ws.length) c.msg p.2 d))

/-- The lane after it formed every message, with the vote-link words in order. In a pair the output digest is computed
last. -/
def formAll (m : Mach) (l : LaneId) (sd : StationData) (kind : VoteKind) (x : Lane) : Lane × List VoteWord :=
  let r := (sortMsgs m.msgs).foldl (fun (a : Lane × List VoteWord) c =>
    let f := formMsg m sd x.strap c a.1
    (f.1, a.2 ++ voteWords l kind c f.2)) (x, [])
  if sd.pair.paired then (r.1.safety 0 (outputWords x.strap x), r.2) else r

/-! ### The drive image (R121, R241, R405) -/

/-- The cycles of a sweep step. -/
def sweepK (cMs : Nat) : Nat := 128 / max cMs 1

/-- The output that a sweep holds off in the hand-over of a cycle. -/
def Mach.sweepHeld (m : Mach) (c : W32) : Option Nat :=
  match m.mod.sweepFrom with
  | some s => let n := (c - s).toNat / sweepK m.cycleMs; if n < 24 then some n else none
  | none => none

/-- Outputs that some instance's block holds off. -/
def guardHeld (sd : StationData) (g : Grain) (x : Lane) (n : Nat) : Bool :=
  sd.pf.any (fun c => (List.range 8).any (fun k =>
    c.guard.getD k none == some n && (x.trueWord g (c.base / 32)).getLsbD (24 + k)))

/-- The drive image that a lane forms from its committed output region. -/
def driveImage (m : Mach) (sd : StationData) (g : Grain) (x : Lane) : BitVec 24 :=
  if m.handsOver = false then 0
  else sd.outputs.foldl (fun w p =>
    if x.trueBit g p.1 && !guardHeld sd g x p.2 && m.sweepHeld x.cop.cycleNo != some p.2 then setBit w p.2 true else w) 0

def driveRecord (c : W32) (img : BitVec 24) : W64 := hiLo c (img.setWidth 32)

/-! ### Changes of the committed protection blocks (R250) -/

def pfTripped (old new : W32) : Bool := old.getLsbD 0 && !new.getLsbD 0
def pfLatches (old new : W32) : Bool :=
  let o := (blockState old).code
  let n := (blockState new).code
  o != n && (n == .disc || n == .lockFault || n == .tripped)
def pfInvalid (old new : W32) : Bool := (blockState old).code != .invalid && (blockState new).code == .invalid

/-- Posts a notice of an event counter source of group 0x5, with the instance as qualifier. (DEDUCED log 76) -/
def Mach.notePf (j src : Nat) (m : Mach) : Mach :=
  m.postField (mkNotice (evCode 6 src) (fieldPath 7) 0 0 (some m.cycleNo) [ecSrc src j] (BitVec.ofNat 16 j))

def Mach.pfChange (j : Nat) (old new : W32) (m : Mach) : Mach :=
  let m := if pfTripped old new then
      ((m.updPf j (fun y => { y with trips := satInc y.trips })).raise (fieldPath 7) 0).notePf j 0x50 else m
  let m := if pfLatches old new then
      ((m.updPf j (fun y => { y with faults := satInc y.faults })).raise (fieldPath 7) 1).notePf j 0x51 else m
  if pfInvalid old new then (m.raise (fieldPath 7) 2).notePf j 0x52 else m

/-- The committed ramp command: the output in slot 1 of the safe stop instance. -/
def rampCommand (sd : StationData) (g : Grain) (x : Lane) : Bool :=
  match sd.pf.find? (fun c => c.kind == .safeStop) with
  | some c => (match c.guard.getD 1 none with | some n => outCommand sd g x n | none => false)
  | none => false

/-! ### RUN_CLOSE -/

/-- The statistics after a committed run. -/
def RunStats.closed (u : BitVec 23) (s : RunStats) : RunStats :=
  { s with
    cycles := satInc s.cycles
    closeMin := if s.cycles = 0 then u else bvMin s.closeMin u
    closeMax := if s.cycles = 0 then u else bvMax s.closeMax u }

/-- The commit: working selectors become committed ones, and the run is recorded. -/
def commitRun (sd : StationData) (g : Grain) (now : Nat) (x : Lane) : Lane :=
  let u : BitVec 23 := satOf 23 ((now - x.t0 + 5) / 10)
  { x with
    rampWas := rampCommand sd g x
    mem := x.mem.commit
    phase := .handover, closeAt := now
    cop := { x.cop with
      active := false, lastOk := true, lastClose := u, live := x.cop.live.closed u } }

/-- What the lane forms for its hand-over (R165): the message words, the drive record and the end word, every one of them `KIND` 2 in
SYNC. The image of a SYNC lane is not latched (R157). (DESIGN CHOICE log 84) -/
def formHandover (m : Mach) (l : LaneId) (sd : StationData) (x : Lane) : Lane :=
  let img := driveImage m sd x.strap x
  if m.handsOver = false then { x with msgBuf := [], hoImage := 0 }
  else if x.agr.life = .sync then
    let r := formAll m l sd .probe x
    { r.1 with
      hoImage := 0
      msgBuf := r.2 ++ [voteWord l .probe true 0 0x3FF (driveRecord x.cop.cycleNo img), voteWord l .probe false 0 0x3FF 0] }
  else
    let r := formAll m l sd .message x
    { r.1 with
      hoImage := img
      msgBuf := r.2 ++ [voteWord l .drive true 0 0 (driveRecord x.cop.cycleNo img), voteWord l .endHandover false 0 0 0] }

/-- A counted lane begins its hand-over (R173). -/
def Mach.beginHandover (l : LaneId) (m : Mach) : Mach :=
  if m.handsOver && m.isVoting l then m.updVote (fun v => { v with began := v.began ||| maskOf (· == l) }) else m

/-- A run that closes too early or too late is a lane fault and has no commit (R127). (DEDUCED log 37) -/
def runClose (l : LaneId) (m : Mach) : Mach :=
  let x := m.lane l
  match m.sd with
  | none => m
  | some sd =>
    let pred := predClose x.cop.rows.toNat x.cop.timers.toNat
    if x.phase ≠ .run ∨ x.cop.active = false ∨ x.cop.ended = false ∨ m.isOut l then m
    else if 2 * (m.now - x.t0) + 400 < pred then m.copierFault l 0x09
    else if x.t0 + m.evalDl < m.now then m.copierFault l 0x08
    else
      let g := x.strap
      let y := commitRun sd g m.now x
      let m := (m.updLane l (fun _ => formHandover m l sd y)).beginHandover l
      if l = m.countLane then
        let m := if x.aligned then { m with mod := { m.mod with alignedRuns := m.mod.alignedRuns + 1 } } else m
        (sd.pf.zipIdx).foldl (fun m q =>
          m.pfChange q.2 (x.trueWord g (q.1.base / 32)) (y.trueWord g (q.1.base / 32))) m
      else m

/-- RUN_CLOSE. -/
def execRunClose (l : LaneId) (t : Nat) (s : State) : Host.Outcome State Fault Refusal :=
  s.run (fun m => runClose l (m.tick t))

/-! ### DRIVE_PERIOD_BOUNDARY (R122, R174) -/

/-- The last drive-period boundary of a lane up to an instant. -/
def lastBoundary (t0 now : Nat) : Nat := t0 + (now - t0) / 40000 * 40000

/-- A lane's share of a pulse is over at its boundary: its winding has stopped after a real off, or the 200 µs have passed. -/
def OutCh.pastPulse (l : LaneId) (at0 : Nat) (driven : Bool) (x : OutCh) : OutCh :=
  let off := maskOf (· == l)
  let past := decide (x.pulseAt + 200000 ≤ at0)
  { x with
    pulseLanes := if past && x.test.isNone then x.pulseLanes &&& ~~~off else x.pulseLanes
    offLanes := if !driven then x.offLanes &&& ~~~off else x.offLanes }

/-- The windings of a lane at a boundary follow the latched image. An energise that met the lane's light pulse waits (R228). -/
def Mach.windingsAt (m : Mach) (l : LaneId) (at0 : Nat) : BitVec 24 :=
  let x := m.lane l
  let waits (n : Nat) : Bool := !x.drive.windings.getLsbD n &&
    (match m.field.out[n]? with | some o => decide (at0 < o.hold.get l) | none => false)
  if at0 ≤ x.drive.latchAt then x.drive.windings
  else (List.range 24).foldl (fun w n => if waits n then setBit w n false else w) x.drive.latched

/-- The windings follow the latched image from the first boundary strictly later than the latch. -/
def drivePeriodBoundary (l : LaneId) (m : Mach) : Mach :=
  let x := m.lane l
  if m.isVoting l = false ∨ m.handsOver = false then m
  else
    let at0 := lastBoundary x.t0 m.now
    let w := m.windingsAt l at0
    let m := if w = x.drive.windings then m
      else m.updLane l (fun x => { x with drive := { x.drive with windings := w, changedAt := at0 } })
    let m := (List.range 24).foldl (fun m n => m.updOut n (OutCh.pastPulse l at0 (w.getLsbD n))) m
    m.refreshPoles

/-- DRIVE_PERIOD_BOUNDARY. -/
def execDrivePeriodBoundary (l : LaneId) (t : Nat) (s : State) : Host.Outcome State Fault Refusal :=
  s.run (fun m => drivePeriodBoundary l (m.tick t))

end Sys2Proof.Machine
end

