-- ==== Sys2Proof/Machine/UpdateOps.lean ====
section
/-! DEFINITION. The slots of the non-volatile store and the trial (R457, R458, R469 to R474): which slot holds what, the
start of a trial, its commit and its end. -/

namespace Sys2Proof.Machine

/-! ### Slots -/

def Update.slotOf (k : SetKind) (i : SlotId) (u : Update) : Slot :=
  match k, i with
  | .stationData, .a => u.sdA
  | .stationData, .b => u.sdB
  | _, .a => u.fwA
  | _, .b => u.fwB

def Update.updSlot (k : SetKind) (i : SlotId) (f : Slot → Slot) (u : Update) : Update :=
  match k, i with
  | .stationData, .a => { u with sdA := f u.sdA }
  | .stationData, .b => { u with sdB := f u.sdB }
  | _, .a => { u with fwA := f u.fwA }
  | _, .b => { u with fwB := f u.fwB }

def otherSlot : SlotId → SlotId
  | .a => .b
  | .b => .a

/-- The slot of a kind in one of given states, slot A first. -/
def Update.find (k : SetKind) (p : SlotState → Bool) (u : Update) : Option SlotId :=
  if p (u.slotOf k .a).state then some .a else if p (u.slotOf k .b).state then some .b else none

def runState (s : SlotState) : Bool := s == .active || s == .trial

/-- The slot that a kind runs from, the one verified beside it, and the one before a trial. -/
def Update.running (k : SetKind) (u : Update) : Option SlotId := u.find k runState
def Update.verified (k : SetKind) (u : Update) : Option SlotId := u.find k (· == .verified)
def Update.previous (k : SetKind) (u : Update) : Option SlotId := u.find k (· == .previous)
def Update.onTrial (k : SetKind) (u : Update) : Bool := (u.find k (· == .trial)).isSome
def Update.runSlot (k : SetKind) (u : Update) : Slot :=
  match u.running k with
  | some i => u.slotOf k i
  | none => {}

/-- The settings of the active station data set, which the Bench takes its own from. -/
def Mach.benchSet (m : Mach) : Option Settings := (m.bench.upd.runSlot .stationData).station.map (fun sd => sd.settings)

def Mach.updUpd (f : Update → Update) (m : Mach) : Mach := { m with bench := { m.bench with upd := f m.bench.upd } }

/-- A notice of the update path. -/
def Mach.noteUpd (code : W16) (p0 p1 : W32) (m : Mach) : Mach :=
  m.postModule (mkNotice code (benchPath 6) p0 p1 (some m.cycleNo) [])

/-! ### Trials -/

/-- The verified slot of a kind becomes active on trial, and the active one previous. (DEDUCED log 51) -/
def Update.beginTrial (k : SetKind) (now : Nat) (u : Update) : Update :=
  match u.verified k with
  | none => u
  | some i =>
    let u := u.updSlot k (otherSlot i) (fun (s : Slot) => if runState s.state then { s with state := .previous } else s)
    { u.updSlot k i (fun s => { s with state := .trial }) with
      trial := some k, trialBoots := 0, trialFrom := some now, serviceFrom := none, phase := 5, armed := false }

def Mach.beginTrial (k : SetKind) (m : Mach) : Mach :=
  if (m.bench.upd.verified k).isNone then m
  else
    ((m.updUpd (Update.beginTrial k m.now)).writeArea.raise (benchPath 6) 2).noteUpd (evCode 0xC 0x10) (BitVec.ofNat 32 (kindCode k)) 0

/-- The kind still on trial once another's trial has ended. -/
def Update.trialLeft (u : Update) : Option SetKind :=
  if u.onTrial .firmware then some .firmware else if u.onTrial .stationData then some .stationData else none

/-- A trial commits: its slots are active, and the previous ones released. (DEDUCED log 51) -/
def Update.commitTrial (u : Update) : Update :=
  let f (s : Slot) : Slot := if s.state = .trial then { s with state := .active } else s
  { u with
    fwA := f u.fwA, fwB := f u.fwB, sdA := f u.sdA, sdB := f u.sdB, trial := none, trialBoots := 0, phase := 0
    trialFrom := none, serviceFrom := none, fellBack := false, rollAt := none, rollBack := false }

def Mach.commitTrial (m : Mach) : Mach :=
  if m.bench.upd.trial.isNone then m
  else ((m.updUpd Update.commitTrial).writeArea.raise (benchPath 6) 3).noteUpd (evCode 0xC 0x11) 0 0

/-- A trial ends (R473): the previous slot is active again, and the trial slot empty. (DEDUCED log 51) -/
def Update.endTrial (k : SetKind) (cause : Nat) (u : Update) : Update :=
  let u := match u.find k (· == .trial) with
    | some i =>
      let v := u.updSlot k i (fun _ => {})
      v.updSlot k (otherSlot i) (fun (s : Slot) => if s.state = SlotState.previous then { s with state := .active } else s)
    | none => u
  { u with
    trial := u.trialLeft, trialBoots := 0, phase := 0, trialFrom := none, serviceFrom := none
    lastCause := BitVec.ofNat 8 cause, lastKind := BitVec.ofNat 2 (kindCode k), fallbacks := satInc u.fallbacks
    fellBack := true, rollAt := none, rollBack := false }

/-- Trials: two may stand by slot, and the boots of a trial are counted in a row. (DEDUCED log 51) -/
def Mach.endTrial (k : SetKind) (cause : Nat) (m : Mach) : Mach :=
  let v := (m.bench.upd.runSlot .firmware).version
  let m := (m.updUpd (Update.endTrial k cause)).writeArea.raise (benchPath 6) 4
  let m := if (m.bench.upd.running .stationData).isNone then { m with bench := { m.bench with mnt := m.bench.mnt.noSet } } else m
  if cause = 1 then m.noteUpd 0xC002 v (BitVec.ofNat 32 (match m.bench.upd.running k with | some .b => 1 | _ => 0))
  else m.noteUpd (evCode 0xC 0x12) (BitVec.ofNat 32 cause) (BitVec.ofNat 32 (kindCode k))

/-! ### The firmware roll (R470) -/

/-- The slot whose firmware the lanes are to run. (DEDUCED log 49) -/
def Mach.fwTarget (m : Mach) : SlotId := (m.bench.upd.running .firmware).getD .a

/-- The lane that rolls next: in the order A, B, C, or C, B, A when rolling back, the first that does not run the active
firmware. (DEDUCED log 49) -/
def Mach.rollNext (m : Mach) : Option LaneId :=
  (if m.bench.upd.rollBack then [.c, .b, .a] else laneIds).find? (fun l => (m.lane l).fwSlot != m.fwTarget)

/-- The lanes begin to roll in a cycle. (DEDUCED log 49) -/
def Mach.startRoll (back : Bool) (at0 : W32) (m : Mach) : Mach :=
  m.updUpd (fun u => { u with rollAt := some at0, rollBack := back, phase := if back then 6 else 1 })

end Sys2Proof.Machine
end

