-- ==== Sys2Proof/Machine/Modes.lean ====
section
/-! DEFINITION. Entries into modes and roles (R368, R381, R382, R390 to R407, R470, R471, R473): drive and sending off,
JOIN, QUIESCE, DORMANT, BOOT and UPDATE, and the fallback of a trial. -/

namespace Sys2Proof.Machine

def Mach.updMod (f : ModState → ModState) (m : Mach) : Mach := { m with mod := f m.mod }
def Mach.updPair (f : PairState → PairState) (m : Mach) : Mach := { m with pair := f m.pair }
def Mach.updTest (f : SelfTest → SelfTest) (m : Mach) : Mach := m.updBench (fun b => { b with test := f b.test })

def Mach.paired (m : Mach) : Bool := m.sd.any (fun sd => sd.pair.paired)

/-- SERVICE with three VOTING lanes, DEGRADED with two (R391). -/
def Mach.serveMode (m : Mach) : Mode := if m.votingLanes.length = 3 then .service else .degraded

/-! ### Drive and sending (R123, R176, R382) -/

def Lane.driveOff (now : Nat) (x : Lane) : Lane :=
  { x with
    msgBuf := [], hoImage := 0
    drive := { latched := 0, latchAt := now, windings := 0
               changedAt := if x.drive.windings = 0 then x.drive.changedAt else now } }

/-- Every winding stops, and every pole with it. -/
def Mach.driveOff (m : Mach) : Mach := (m.updLanes (fun _ x => x.driveOff m.now)).forcedOffAll

/-- Nothing that was released is sent any more. -/
def Mach.stopSending (m : Mach) : Mach :=
  { m with
    cal := { m.cal with vote := { m.cal.vote with held := [], slots := [] } }
    ring1 := { m.ring1 with queue := [] }, ring2 := { m.ring2 with queue := [] } }

/-- A cycle that was running ends where it stands: the lanes evaluate no more. -/
def Lane.standDown (x : Lane) : Lane :=
  { x with
    phase := .asleep, awake := false, sleepEnd := 0, sampled := false
    cop := { x.cop with active := false, holdSrc := 0 } }

/-! ### Roles (R368, R381, R389) -/

/-- Posts a notice of an event counter source of the pair link. -/
def Mach.notePair (src : Nat) (p0 p1 : W32) (m : Mach) : Mach := m.postCal (srcNotice 0xA src pairPath 255 p0 p1 m)

/-- The module takes a role; a change is counted and recorded. -/
def Mach.setRole (r : PairRole) (m : Mach) : Mach :=
  if m.pair.role = r then m
  else
    let old := m.pair.role
    ((m.updPair (fun p => { p with role := r, roleChg := satInc p.roleChg })).raise pairPath 0).notePair 0xA3
      (BitVec.ofNat 32 (roleCode r)) (BitVec.ofNat 32 (roleCode old))

/-! ### JOIN (R381, R382, R403) -/

/-- The module goes back to JOIN: it stops sending and driving at once. -/
def Mach.backToJoin (m : Mach) : Mach :=
  let shadow := m.mod.mode == .shadow
  let m := m.enterMode .join
  let m := m.stopSending.driveOff.setRole .joining
  let m := m.updMod (fun x => { x with joinAt := m.now, joinEvents := 0 })
  let m := m.updPair (fun p => { p with takenRun := 0, mismRun := 0, noPacket := 0, equalRun := 0, alone := false })
  if shadow then
    ((m.updPair (fun p => { p with joins := satInc p.joins })).raise pairPath 4).notePair 0xA4 0 0
  else m

/-! ### QUIESCE and DORMANT (R397, R407, R414, R416) -/

/-- A test of the whole module starts: its controllers are clear, and its verdict is to come. -/
def Mach.startTest (m : Mach) : Mach := m.updTest (fun t => { t with results := [], judged := false, fit := m.fieldFit })

/-- QUIESCE: nothing is handed over, driven or sent, the token is erased, and the shutdown test runs. A running slice is
abandoned. -/
def Mach.enterQuiesce (commanded : Bool) (m : Mach) : Mach :=
  let m := m.abandonTest.enterMode .quiesce
  let m := ((m.updLanes (fun _ x => x.standDown)).stopSending.driveOff.eraseToken).setRole .none
  let m := { m with power := { m.power with commanded := commanded, quiesceAt := m.now } }
  m.startTest

/-- DORMANT: lanes and Callipers held in reset, windings and ports off. -/
def Mach.enterDormant (m : Mach) : Mach :=
  let cyc := m.cycleNo
  (m.holdLanes.forcedOffAll.portsOff.enterModeAt cyc .dormant).updMod (fun x => { x with activating := false })

/-! ### The token and BOOT (R399, R400, R419) -/

/-- The firmware field of a token: the first 64 bits of the digest of the active firmware manifest (R418). -/
def Mach.fwField (m : Mach) : W64 := ((sha384 (m.bench.upd.runSlot .firmware).mbytes) >>> 320).setWidth 64

/-- A copy of the token is valid (R419). -/
def Mach.tokenValid (m : Mach) (t : Token) : Bool :=
  t.check == Config.tokenCheck t.serial t.fw t.written t.fieldAt t.field t.epoch && t.serial == m.ident.serial &&
    t.fw == m.fwField && t.epoch == m.bench.epoch &&
    decide (m.benchSecs - t.written < 259200)

/-- The valid token, the first copy before the second. -/
def Mach.token (m : Mach) : Option Token :=
  match m.bench.test.token0 with
  | some t => if m.tokenValid t then some t else m.bench.test.token1.filter m.tokenValid
  | none => m.bench.test.token1.filter m.tokenValid

/-- A lane that starts with the others in BOOT: released from reset with nothing loaded, on the firmware of the active slot. -/
def Lane.bootStart (slot : SlotId) (ver : W16) (now : Nat) (x : Lane) : Lane :=
  let x := x.clear now
  { x with
    fwSlot := slot, fwVer := ver, aligned := false, mem := {}, comm := {}, cv := x.cv.map (fun (c : CvCtx) => { group := c.group })
    cop := { x.cop with grain := 3, cycleMs := 0, dlPct := 0, rows := 0, timers := 0, dl := 0, predClose := 0, lastOk := false }
    agr := { x.agr with
      life := .out, held := x.agr.locked || x.agr.railBad || x.agr.unusable, inReset := false, waiting := false
      failedStart := false } }

/-- BOOT: lanes and Callipers leave reset; a firmware set that was armed becomes active on trial, and a trial that has failed
three times has ended. (DESIGN CHOICE log 108) -/
def Mach.enterBoot (m : Mach) : Mach :=
  let m := match m.bench.upd.trial with
    | some k => if 3 ≤ m.bench.upd.trialBoots.toNat then m.endTrial k 3 else m
    | none => m
  let m := m.portsOff.enterMode .boot
  let m := if m.bench.upd.armed then m.beginTrial .firmware else m
  let run : Slot := m.bench.upd.runSlot .firmware
  let v : W16 := (run.version >>> 16).setWidth 16
  let m := m.updUpd (fun u => { u with
    trialFrom := if u.trial.isSome then some m.now else u.trialFrom, rollAt := none, rollBack := false
    phase := if u.trial.isSome then 5 else 0, vfmt := run.manifest.elim u.vfmt (fun x => x.voteFmt) })
  let quick := m.token.isSome
  let slot := m.fwTarget
  let m := m.updLanes (fun _ x => x.bootStart slot v m.now)
  let m := { m with sd := none, cal := { m.cal with txOn := true, csc := { m.cal.csc with running := true, injPos := 0 } } }
  let m := m.updMod (fun x => { x with
    bootAt := m.now, bootKind := if quick then 1 else 2, configHeld := false, activating := false })
  let m := if quick then m else m.startTest
  m.postPower (mkNotice (evCode 1 0x08) modPath (BitVec.ofNat 32 (if quick then 1 else 2)) 0 none
    (ecSrc 0x08 :: (if quick then [ecSrc 0x09] else [])))

/-- Every rail is in its window (R25, R399). -/
def Mach.railsOk (m : Mach) : Bool := laneIds.all (fun l => !(m.lane l).agr.railBad)

/-- DORMANT is left for BOOT once the supply is qualified, with every rail in its window, and `RESET_N` released, but after a
commanded QUIESCE only once `RESET_N` was asserted. -/
def Mach.tryBoot (m : Mach) : Mach :=
  if m.mod.mode = .dormant ∧ m.power.powered ∧ m.power.supplyOk ∧ m.railsOk ∧ m.mod.released ∧ m.mod.asserted = false
      ∧ m.power.commanded = false then m.enterBoot else m

/-! ### UPDATE and fallback (R470, R471, R473) -/

/-- The station data outage: UPDATE without evaluation, drive or sending. (DEDUCED log 51) -/
def Mach.enterOutage (m : Mach) : Mach :=
  let m := (m.enterMode .update).updMod (fun x => { x with activating := true, configAt := m.now })
  let m := { m with can1 := m.can1.cancelAll, can2 := m.can2.cancelAll }
  ((m.updLanes (fun _ x => { x.standDown with
      keys := [], agr := { x.agr with failedStart := false } })).noReference).stopSending.driveOff.setRole .none

/-- CONFIG, at power-up or again: on the set of the running slot, or held where there is none. -/
def Mach.enterConfig (m : Mach) : Mach :=
  let m := m.enterMode .config
  let m := ((m.updLanes (fun _ x => { x.standDown with keys := [] })).stopSending.driveOff.setRole .none)
  m.updMod (fun x => { x with
    configAt := m.now, configHeld := (m.bench.upd.running .stationData).isNone, activating := false })

/-- The station data slot that runs after a fallback is activated (R471), in CONFIG by starting it again. With none left the
module is held in CONFIG (R402). -/
def Mach.reconfigure (m : Mach) : Mach :=
  if m.mod.mode = .config ∨ (m.bench.upd.running .stationData).isNone then m.enterConfig else m.enterOutage

/-- A trial falls back. Firmware is rolled back while the module evaluates, in UPDATE from the next T0 on (`Mach.rollT0`, R391) or,
where nothing was served yet, in JOIN; a module that evaluates nothing boots from the previous slot. A station data set makes way for the previous one in an
outage. In BOOT, QUIESCE, DORMANT and HALT the next start finds the previous slot. (DEDUCED log 51) -/
def Mach.fallBack (k : SetKind) (cause : Nat) (m : Mach) : Mach :=
  let m := m.endTrial k cause
  let starts := m.mod.mode == .config || m.mod.mode == .update
  match k with
  | .firmware =>
    if m.evaluates then m.startRoll true (m.cycleNo + 1)
    else if starts || m.mod.mode == .boot then m.enterBoot
    else m
  | _ => if m.evaluates || starts then m.reconfigure else m

/-! ### The field sweep (R405, R406) -/

/-- A sweep starts in cycle `c`; the test schedule is suspended until the test period after its end. -/
def Mach.startSweep (c : W32) (m : Mach) : Mach :=
  (m.endSweep.updMod (fun x => { x with
    sweepState := 1, sweepStep := 0, sweepPass := 0, sweepFrom := some c, sweepStarted := false, sweepBad := false })).updField
    (fun f => { f with out := f.out.map (fun o => { o with swPos := false, swNeg := false, swOff := false }), suspended := true })

end Sys2Proof.Machine
end

