-- ==== Sys2Proof/Machine/PairOps.lean ====
section
/-! DEFINITION. The pair at a T0 (R368, R373, R378 to R385, R404): presence of the partner, the exit from JOIN, swaps,
withdrawals and the loss of the lead. -/

namespace Sys2Proof.Machine

/-! ### The partner (R373) -/

/-- The partner is lost: no link in service, and not sighted in this logic cycle or the one before. -/
def Mach.noPartner (m : Mach) : Bool := !m.pair.present && !m.inLastCycle m.pair.sightIn

/-- Presence as links and sightings now give it. -/
def Mach.refreshPartner (m : Mach) : Mach :=
  let m := m.updPair (fun p => { p with present := p.l1.service || p.l2.service })
  if m.paired = false then m
  else if m.noPartner then
    if m.pair.goneAt.isSome then m else (m.updPair (fun p => { p with goneAt := some m.now })).raise pairPath 3
  else m.updPair (fun p => { p with goneAt := none, alone := false })

/-- The partner's status frame shows a mode that sends nothing (R123, R381). -/
def partnerSilent (f : StatusFrame) : Bool :=
  [0, 1, 2, 3, 10].contains f.mode.toNat || (f.mode == 9 && f.role != 1)

/-! ### JOIN exit (R404) -/

/-- A ring boundary at an instant, within 50 µs: the basic cycle that begins, counted from matrix cycle 0.
(DEDUCED log 52) -/
def ringBoundary (r : RingIfc) (now : Nat) : Option Nat :=
  let p := r.tb.at0 (now + 50000)
  if r.sync && decide (p.off ≤ 100000) then some p.basic else none

/-- An interface is ACTIVE, or becomes so at the basic cycle 0 that begins now. -/
def ringReady (c : RingCfg) (r : RingIfc) (now : Nat) : Bool :=
  !c.used || r.ifc == .active ||
    (r.joinOk && (match ringBoundary r now with | some b => b % 32 == 0 | none => false))

/-- The conditions of R404. -/
def Mach.joinReady (m : Mach) : Bool :=
  match m.sd with
  | some sd =>
    ringReady sd.ring1 m.ring1 m.now && ringReady sd.ring2 m.ring2 m.now && decide (2 ≤ m.mod.alignedRuns) &&
      decide (2 ≤ m.votingLanes.length) && m.power.reserve
  | none => false

/-- A single module leaves JOIN by itself; in a pair, one left alone, or copy 0 while both are in JOIN (R381). -/
def Mach.joinMay (m : Mach) : Bool :=
  !m.paired || m.pair.alone ||
    (m.ident.copy == 0 && m.pair.present && (match m.pair.partner with | some f => f.mode == 3 | none => false))

/-- The module becomes lead, or serves alone. (DEDUCED log 47) -/
def Mach.becomeLead (n : W32) (m : Mach) : Mach :=
  let m := m.enterModeAt n m.serveMode
  if m.paired then
    (m.setRole .lead).updPair (fun p => { p with alone := false, noPacket := 0, mismRun := 0, equalRun := 0, mismJoin := false })
  else m

def Mach.becomeShadow (n : W32) (m : Mach) : Mach :=
  ((m.enterModeAt n .shadow).setRole .shadow).updPair (fun p => { p with
    noPacket := 0, mismRun := 0, equalRun := 0, mismJoin := false })

def Mach.joinExit (n : W32) (m : Mach) : Mach :=
  if m.mod.mode = .join ∧ m.joinReady ∧ m.joinMay then m.becomeLead n else m

/-- `JOIN_CYC`, default 2. -/
def Mach.joinCyc (m : Mach) : Nat :=
  match m.sd with
  | some sd => sd.pair.joinCyc.getD 2
  | none => 2

/-- The set that the partner holds is this module's. -/
def Mach.partnerSame (m : Mach) : Bool :=
  match m.sd, m.pair.partner with
  | some sd, some f => f.sdId == sd.id
  | _, _ => false

/-- A joiner under a lead in SERVICE or DEGRADED with the same set enters SHADOW; one with another set is ready (R384,
R385). -/
def Mach.shadowEntry (n : W32) (m : Mach) : Mach :=
  if m.mod.mode ≠ .join ∨ m.paired = false ∨ m.pair.takenRun < m.joinCyc then m
  else match m.pair.partner with
    | some f =>
      if f.role ≠ 1 ∨ ¬(f.mode = 5 ∨ f.mode = 6) ∨ m.pair.present = false then m
      else if m.partnerSame then m.becomeShadow n
      else m.updPair (fun p => { p with ready := true })
    | none => m

/-! ### Swap (R383, R385) -/

/-- The old lead enters UPDATE for its own activation at the T0 after the swap. (DEDUCED log 47) -/
def Mach.oldLeadOut (m : Mach) : Mach :=
  if m.pair.oldLead then ((m.updPair (fun p => { p with oldLead := false })).beginTrial .stationData).enterOutage else m

/-- Leading, yielding and the mirror: what a module does when both links are out, when it becomes lead, and how a packet is taken. (DEDUCED log 47) -/
def Mach.swapRoles (n : W32) (m : Mach) : Mach :=
  if m.pair.swap = 0xFFFFFFFF ∨ m.pair.swap ≠ n then m
  else
    let m := m.updPair (fun p => { p with swap := 0xFFFFFFFF })
    match m.pair.role with
    | .lead => if m.partnerSame then m.becomeShadow n else m.updPair (fun p => { p with oldLead := true })
    | .shadow => m.becomeLead n
    | .joining => if m.pair.ready then (m.updPair (fun p => { p with ready := false })).becomeLead n else m
    | .none => m

/-! ### Withdrawal and the loss of the lead (R380, R381) -/

/-- A sighting in the cycle before counts on; a cycle without one starts again. (DEDUCED log 47) -/
def Mach.countSight (n : W32) (m : Mach) : Mach :=
  m.updPair (fun p => { p with sightRun := if p.sightIn = some (n - 1) then p.sightRun + 1 else 0 })

/-- Copy 1 withdraws, or stays in JOIN, while both links are out and copy 0 was sighted in two cycles.
(DEDUCED log 47) -/
def Mach.linksLostYield (m : Mach) : Mach :=
  if m.ident.copy = 1 ∧ m.pair.present = false ∧ 2 ≤ m.pair.sightRun then
    match m.pair.role with
    | .lead | .shadow => m.backToJoin.updPair (fun p => { p with yields := satInc p.yields, yielded := true })
    | .joining => m.updPair (fun p => { p with yielded := true })
    | .none => m
  else m

/-- A shadow whose partner is lost, or whose partner's status shows that it sends nothing, becomes lead.
(DEDUCED log 47) -/
def Mach.leadLost (n : W32) (m : Mach) : Mach :=
  if m.pair.role = .shadow ∧ m.mod.mode = .shadow ∧
      (m.noPartner || (m.pair.present && (match m.pair.partner with | some f => partnerSilent f | none => false))) then
    m.becomeLead n
  else m

/-- The lanes' comparisons of the cycle's digests, judged at the next T0 (R380): the VOTING lanes that took the packet decide, and
the digests count as different unless more lanes found them equal. (DEDUCED log 47) -/
def Mach.judgeDigests (n : W32) (m : Mach) : Mach :=
  let count (w : BitVec 3) : Nat := (m.votingLanes.filter (inMask w)).length
  let p := m.pair
  let m := m.updPair (fun p => { p with same := 0, differ := 0 })
  if count p.same + count p.differ = 0 then m
  else if count p.differ < count p.same then m.updPair (fun p => { p with mismRun := 0, equalRun := p.equalRun + 1 })
  else (m.updPair (fun p => { p with mismRun := p.mismRun + 1, equalRun := 0, mism := satInc p.mism })).notePair 0xA2 (n - 1) 0

/-- At a T0 a shadow goes to JOIN after 2 taken packets in a row with a digest mismatch, or after 8 cycles in a row without a
taken packet while the partner is present (R380, R391). (DEDUCED log 47) -/
def Mach.mirrorAbsent (n : W32) (m : Mach) : Mach :=
  let took := m.pair.lastAdopt == n - 1 && m.pair.adopted != 0
  let m := (m.judgeDigests n).updPair (fun p => { p with
    takenRun := if took then p.takenRun else 0
    noPacket := if took then 0 else if p.role = .shadow ∧ p.present then p.noPacket + 1 else p.noPacket })
  if m.pair.role = .shadow ∧ m.mod.mode = .shadow ∧ 2 ≤ m.pair.mismRun then m.backToJoin.updPair (fun p => { p with mismJoin := true })
  else if m.pair.role = .shadow ∧ m.mod.mode = .shadow ∧ 8 ≤ m.pair.noPacket then m.backToJoin else m

/-- Halves of a packet that is not complete at T0 count as late; a packet that was delivered is no longer there.
(DEDUCED log 47) -/
def Mach.dropPacket (m : Mach) : Mach :=
  let late := !m.pair.halves.isEmpty && m.pair.packet.isNone
  let m := m.updPair (fun p => { p with halves := [], packet := none, takenBy := 0 })
  if late then (m.updPair (fun p => { p with rxLate := satInc p.rxLate })).notePair 0xA1 0 0 else m

/-- Everything that a T0 brings for the pair. (DEDUCED log 47) -/
def Mach.pairT0 (n : W32) (m : Mach) : Mach :=
  if m.paired = false then m
  else
    let m := m.oldLeadOut
    if m.evaluates = false then m
    else (((((m.refreshPartner.countSight n).dropPacket.mirrorAbsent n).swapRoles n).linksLostYield).leadLost n).shadowEntry n

end Sys2Proof.Machine
end

