-- ==== Sys2Proof/Machine/Pair.lean ====
section
/-! DEFINITION. The pair link (R370 to R373, R377 to R381, R384, R385): status frames, mirror frames, the taking of the packet,
link timeouts, and the lead of a module left alone. -/

namespace Sys2Proof.Machine

def linkSrc : LinkId → Nat
  | .l1 => 0xA5
  | .l2 => 0xA6

/-! ### Links (R370, R373) -/

/-- A link leaves service. -/
def Mach.linkOut (k : LinkId) (m : Mach) : Mach :=
  if (m.pair.link k).service = false then m.updPair (PairState.updLink k (fun x => { x with run := 0 }))
  else ((m.updPair (PairState.updLink k (fun x => { x with service := false, run := 0 }))).raise pairPath 1).refreshPartner

/-- A frame that fails its `FCRC` or carries the other link's number. Crossed links leave service at once. -/
def Mach.linkError (k : LinkId) (crossed : Bool) (m : Mach) : Mach :=
  let m := m.updPair (PairState.updLink k (fun x => { x with up := true, errs := satInc x.errs, run := 0 }))
  let m := m.notePair (linkSrc k) (BitVec.ofNat 32 (bitOf crossed)) 0
  if crossed then m.linkOut k else m

/-- A frame that the port section of a link accepts. (DEDUCED log 46) -/
def Mach.linkHears (m : Mach) (k : LinkId) : Bool := m.cal.txOn && m.paired && !(m.pair.link k).unusable

/-- A frame of any type that arrives on a link (R370, R371, R373): one with a right `FCRC` and link number keeps the link up, and does
what its type says. -/
def Mach.linkTakes (k : LinkId) (x : PairFrame) (f : Mach → Mach) (m : Mach) : Mach :=
  if m.linkHears k = false then m
  else if pairIntact x = false then m.linkError k false
  else if pairLinkOf x ≠ k then m.linkError k true
  else f (m.updPair (PairState.updLink k (fun x => { x with up := true, lastAt := m.now })))

/-! ### Status frames (R372, R387, R392) -/

/-- The status frame that a module sends on a link. (DEDUCED log 46) -/
def Mach.statusFrame (k : LinkId) (m : Mach) : StatusFrame := sealStatus
  { fcrc := 0, link := k, copy := m.ident.copy, cycle := m.cycleNo, mode := BitVec.ofNat 4 (modeCode m.mod.mode)
    role := BitVec.ofNat 2 (roleCode m.pair.role), lanes := m.votingMask, sighted := m.inLastCycle m.pair.sightIn
    sdId := (match m.sd with | some sd => sd.id | none => 0), swap := m.pair.swap, faults := m.field.out.map OutCh.fault
    ready := (m.pair.role == .shadow && decide (8 ≤ m.pair.equalRun)) || (m.pair.role == .joining && m.pair.ready) }

def Mach.sendStatus (k : LinkId) (m : Mach) : Mach :=
  let f := m.statusFrame k
  m.updPair (fun p => (p.updLink k (fun x => { x with lastStatus := some f })).send m.now [(m.now, .status f)])

/-- PAIR_STATUS_SEND. -/
def execPairStatusSend (t : Nat) (s : State) : Host.Outcome State Fault Refusal :=
  s.run (fun m => let m := m.tick t
    if m.cal.txOn && m.paired then
      [LinkId.l1, LinkId.l2].foldl (fun m k => if (m.pair.link k).unusable then m else m.sendStatus k) m
    else m)

/-- What a valid status frame shows of the partner. (DEDUCED log 46) -/
def Mach.takeStatus (f : StatusFrame) (m : Mach) : Mach :=
  let m := m.updPair (fun p => { p with
    partner := some f, swap := if p.role = .shadow ∨ p.role = .joining then f.swap else p.swap })
  let m := m.refreshPartner
  if m.pair.role = .shadow ∧ m.mod.mode = .shadow ∧ f.role = 1 ∧ (f.mode = 4 ∨ f.mode = 8) then m.backToJoin else m

/-- Twenty valid status frames in a row bring a link back into service (R373). -/
def Mach.countStatus (k : LinkId) (m : Mach) : Mach :=
  let x := m.pair.link k
  let back := !x.service && decide (20 ≤ x.run + 1)
  let m := m.updPair (PairState.updLink k (fun x => { x with run := x.run + 1, service := x.service || back }))
  if back then (m.raise pairPath 2).updPair (fun p => { p with yielded := false }) else m

/-- Status frames of the pair: sent on every usable link, and a link is up with any intact frame of it. (DEDUCED log 46) -/
def pairStatusReceive (k : LinkId) (f : StatusFrame) (m : Mach) : Mach :=
  m.linkTakes k (.status f) (fun m => (m.countStatus k).takeStatus f)

/-- PAIR_STATUS_RECEIVE. -/
def execPairStatusReceive (k : LinkId) (f : StatusFrame) (t : Nat) (s : State) : Host.Outcome State Fault Refusal :=
  s.run (fun m => pairStatusReceive k f (m.tick t))

/-- No valid frame for 3 ms: the link leaves service. (DEDUCED log 46) -/
def pairLinkTimeout (k : LinkId) (m : Mach) : Mach :=
  let x := m.pair.link k
  if x.up = true ∧ x.lastAt + 3000000 ≤ m.now then
    (m.updPair (PairState.updLink k (fun x => { x with up := false }))).linkOut k
  else m

/-- PAIR_LINK_TIMEOUT. -/
def execPairLinkTimeout (k : LinkId) (t : Nat) (s : State) : Host.Outcome State Fault Refusal :=
  s.run (fun m => pairLinkTimeout k (m.tick t))

/-! ### Mirror frames (R375, R378) -/

/-- The two halves of a segment as one. -/
def interleave : List W64 → List W64 → List W64
  | [], ys => ys
  | x :: xs, [] => x :: xs
  | x :: xs, y :: ys => x :: y :: interleave xs ys

def findHalf (hs : List MirrorFrame) (seg : Nat) (odd : Bool) : Option MirrorFrame :=
  hs.find? (fun h => h.seg == seg && h.odd == odd)

def wholeSegment (hs : List MirrorFrame) (seg : Nat) : Option (List W64) :=
  match findHalf hs seg false, findHalf hs seg true with
  | some a, some b => some (interleave a.words b.words)
  | _, _ => none

/-- The segment count of a segment's word 0. -/
def segCount (w : W64) : Nat := w.toNat / 2 ^ 24 % 16

/-- The segments, once both halves of each are there. -/
def wholePacket (hs : List MirrorFrame) : Option (List (List W64)) :=
  match wholeSegment hs 0 with
  | some (w :: _) =>
    let segs := (List.range (segCount w)).map (wholeSegment hs)
    if segs.any Option.isNone then none else some (segs.filterMap id)
  | _ => none

/-- A mirror frame of the lead's present cycle joins its packet. -/
def Mach.takeHalf (f : MirrorFrame) (m : Mach) : Mach :=
  if f.copy = m.ident.copy ∨ f.cycle ≠ m.cycleNo ∨ m.pair.packet.isSome
      ∨ ¬(m.pair.role = .shadow ∨ m.pair.role = .joining) then m
  else
    let hs := if (findHalf m.pair.halves f.seg f.odd).isSome then m.pair.halves else m.pair.halves ++ [f]
    m.updPair (fun p => { p with
      halves := hs, packet := (wholePacket hs).map (fun ss => (f.cycle, ss)), packetTo := maskOf (fun l => !m.isOut l) })

def mirrorFrameReceive (k : LinkId) (f : MirrorFrame) (m : Mach) : Mach := m.linkTakes k (.mirror f) (Mach.takeHalf f)

/-- MIRROR_FRAME_RECEIVE. -/
def execMirrorFrameReceive (k : LinkId) (f : MirrorFrame) (t : Nat) (s : State) : Host.Outcome State Fault Refusal :=
  s.run (fun m => mirrorFrameReceive k f (m.tick t))

/-! ### Taking the packet (R379, R380, R384, R385) -/

/-- Where a packet of the own set holds its items (R376). -/
def ownMap (sd : StationData) : PacketMap :=
  let p := sd.pair
  let up (n : Nat) : Nat := (n + 63) / 64
  let r0 := 2
  let b0 := r0 + up p.requests.length
  let t0 := b0 + up p.memories.length
  let j0 := t0 + p.capacity
  let c0 := j0 + 3 * sd.jxt.length
  { reqs := p.requests.zipIdx.map (fun q => (64 * r0 + q.2, q.1))
    bits := p.memories.zipIdx.map (fun q => (64 * b0 + q.2, q.1))
    timer0 := t0, timers := p.capacity
    cells := p.cells.map (fun k => (k, k))
    jxt := (List.range sd.jxt.length).map (fun k => (j0 + 3 * k, k))
    can := p.canAlive.zipIdx.map (fun q => (c0 + q.2, q.1)) }

/-- The map for a packet of a station data set: the own one's, or in JOIN through the carry map (R385). -/
def packetMap (joining : Bool) (sd : StationData) (id : W64) : Option PacketMap :=
  if id = sd.id then some (ownMap sd) else if joining ∧ id = sd.pair.carryFrom then some sd.pair.carry else none

/-- A segment is right: its safety code, station data ID and cycle number. -/
def segmentOk (id : W64) (c : W32) (ws : List W64) : Bool :=
  decide (3 ≤ ws.length) && safetyCode ws.dropLast == ws.getLastD 0 && ws.getD 1 0 == id && ((ws.headD 0) >>> 32).setWidth 32 == c

def packetBit (data : List W64) (n : Nat) : Bool := (data.getD (n / 64) 0).getLsbD (63 - n % 64)

/-- The timer words, by the packet's cell index. -/
def listedCells (p : PacketMap) (data : List W64) : List (Nat × W64) :=
  (((data.drop p.timer0).take p.timers).map (fun w => (w.toNat / 2 ^ 48, w))).filter (fun q => q.1 != 0xFFFF)

/-- A mirrored cell: running with its elapsed time and done bit where listed, 0 otherwise. -/
def takeCell (g : Grain) (h : ImageHeader) (listed : List (Nat × W64)) (s : Stores) (q : Nat × Nat) : Stores :=
  match assocGet q.1 listed with
  | some w => (s.setTrueCell g h q.2 (setBit (w.setWidth 32 &&& 0xFFFFFF) 31 true)).setTrueBit g h (0x20000 + q.2) (w.getLsbD 24)
  | none => (s.setTrueCell g h q.2 0).setTrueBit g h (0x20000 + q.2) false

/-- The mirrored bits and cells of the own set that the packet's map does not name take their initial values (R95, R385).
(DEDUCED log 120) -/
def freshStores (g : Grain) (h : ImageHeader) (sd : StationData) (p : PacketMap) (ovf : Bool) (s : Stores) : Stores :=
  let s := (sd.pair.memories.filter (fun n => !(p.bits.map Prod.snd).contains n)).foldl
    (fun s n => s.setTrueBit g h n (initialBit sd n)) s
  if ovf then s
  else (sd.pair.cells.filter (fun n => !(p.cells.map Prod.snd).contains n)).foldl (fun s n => takeCell g h [] s (n, n)) s

/-- R385: a joiner's items that the carry map does not name take initial values, but for its receive records. (DEDUCED log 120) -/
def takeStores (g : Grain) (h : ImageHeader) (p : PacketMap) (data : List W64) (s : Stores) : Stores :=
  let s := p.bits.foldl (fun s q => s.setTrueBit g h q.2 (packetBit data q.1)) s
  if ctlOvf data then s else p.cells.foldl (takeCell g h (listedCells p data)) s

/-- A value of which all ones means none. -/
def orNone (w : W32) : Option W32 := if w = 0xFFFFFFFF then none else some w

/-- A JXT record taken over: what the words say, the phase of the taking counted back from the own cycle. -/
def takeJxt (cMs : Nat) (c : W32) (ws : List W64) (r : JxtRec) : JxtRec :=
  let hi (k : Nat) : W32 := ((ws.getD k 0) >>> 32).setWidth 32
  let lo (k : Nat) : W32 := (ws.getD k 0).setWidth 32
  { r with
    seq := orNone (hi 0), echo := orNone (lo 0), reply := orNone (hi 0)
    takenIn := c - BitVec.ofNat 32 ((hi 1).toNat / max cMs 1), missed := (lo 1).toNat, accepted := orNone (lo 2) }

def takeComm (m : Mach) (c : W32) (p : PacketMap) (data : List W64) (x : CommState) : CommState :=
  let x := { x with jxt := p.jxt.foldl (fun js q => modAt (takeJxt m.cycleMs c (data.drop q.1)) q.2 js) x.jxt }
  p.can.foldl (fun x q =>
    let w := data.getD q.1 0
    let tx := ((m.canCfg q.2.1).bind (fun f => canBuf f q.2.2)).any (fun b => b.dir == .transmit)
    let f (r : CanRec) : CanRec :=
      if w = BitVec.allOnes 64 then (if tx then r else { r with alive := none })
      else if tx then { r with txAlive := w.toNat } else { r with alive := some w.toNat }
    match q.2.1 with
    | .p1 => { x with can1 := modAt f q.2.2 x.can1 }
    | .p2 => { x with can2 := modAt f q.2.2 x.can2 }) x

/-- The packet taken into a lane; its request bits wait for the next sampling phase. -/
def Lane.takePacket (m : Mach) (sd : StationData) (g : Grain) (p : PacketMap) (data : List W64) (x : Lane) : Lane :=
  match x.mem.header with
  | none => x
  | some h =>
    { x with
      mem := takeStores g h p data (freshStores g h sd p (ctlOvf data) x.mem)
      comm := takeComm m x.cop.cycleNo p data x.comm
      xch := { x.xch with orBits := (p.reqs.filter (fun q => packetBit data q.1)).map Prod.snd } }

/-- The time in ns that the taking needs. (DEDUCED log 47) -/
def takeNs (p : PacketMap) (data : List W64) : Nat :=
  2000 + p.bits.length * 25 / 80 + (if ctlOvf data then 0 else 10 * (listedCells p data).length)

/-- The module's own account of a taken packet. -/
def Mach.packetTaken (c : W32) (data : List W64) (m : Mach) : Mach :=
  let ovf := ctlOvf data
  let m := m.updPair (fun p => { p with
    adopted := satInc p.adopted, lastAdopt := c, takenRun := if ovf then 0 else p.takenRun + 1, ovf := ovf
    ovfs := if ovf then satInc p.ovfs else p.ovfs, tmrPeak := bvMax p.tmrPeak (BitVec.ofNat 16 (ctlCells data))
    swap := ctlSwap data })
  if ovf then m.raise pairPath 5 else m

/-- A shadow lane's comparison of the lead's digest with its own (R380). -/
def Mach.compareDigest (l : LaneId) (equal : Bool) (m : Mach) : Mach :=
  if m.mod.mode ≠ .shadow then m
  else if equal then m.updPair (fun p => { p with same := p.same ||| maskOf (· == l) })
  else m.updPair (fun p => { p with differ := p.differ ||| maskOf (· == l) })

def mirrorTake (l : LaneId) (m : Mach) : Mach :=
  let x := m.lane l
  match m.pair.packet, m.sd with
  | some (c, segs), some sd =>
    let first := m.pair.takenBy == 0
    let id := ((segs.headD []).getD 1 0)
    if m.isOut l ∨ inMask m.pair.packetTo l = false ∨ inMask m.pair.takenBy l = true ∨ x.phase ≠ .sleepEntry ∨ ¬(m.pair.role = .shadow ∨ m.pair.role = .joining) then m
    else
      let m := (m.updPair (fun p => { p with takenBy := p.takenBy ||| maskOf (· == l) })).updLane l (fun y =>
        { segs.foldl (fun y ws => y.safety 1 ws.dropLast) y with cop := { y.cop with holdSrc := setBit y.cop.holdSrc 1 false } })
      match (packetMap (m.pair.role == .joining) sd id).filter (fun _ => segs.all (segmentOk id x.cop.cycleNo) && c == x.cop.cycleNo) with
      | none =>
        if first then (m.updPair (fun p => { p with rxBad := satInc p.rxBad })).notePair 0xA0 c 0 else m
      | some p =>
        let data := packetData segs
        if x.t0 + m.cycleNs < m.now + takeNs p data + 10000 then
          if first then (m.updPair (fun p => { p with rxLate := satInc p.rxLate })).notePair 0xA1 c 0 else m
        else
          let m := (m.updLane l (Lane.takePacket m sd x.strap p data)).compareDigest l (data.headD 0 == outputDigest x.strap x)
          if first then m.packetTaken c data else m
  | _, _ => m

/-- MIRROR_TAKE. -/
def execMirrorTake (l : LaneId) (t : Nat) (s : State) : Host.Outcome State Fault Refusal :=
  s.run (fun m => mirrorTake l (m.tick t))

/-! ### Left alone in JOIN (R381) -/

/-- The partner neither present nor sighted for 2 s. Copy 1 stays where it withdrew while both links are out. -/
def joinAloneLead (m : Mach) : Mach :=
  let m := m.refreshPartner
  match m.pair.goneAt with
  | some g =>
    if m.mod.mode = .join ∧ m.paired = true ∧ g + 2000000000 ≤ m.now ∧ m.pair.yielded = false then
      m.updPair (fun p => { p with alone := true })
    else m
  | none => m

/-- JOIN_ALONE_LEAD. -/
def execJoinAloneLead (t : Nat) (s : State) : Host.Outcome State Fault Refusal :=
  s.run (fun m => joinAloneLead (m.tick t))

end Sys2Proof.Machine
end

