-- ==== Sys2Proof/Machine/FieldSupply.lean ====
section
/-! DEFINITION. The field supply monitor and the switching threshold (R190, R191, R208 to R210, R217). -/

namespace Sys2Proof.Machine

/-! ### The published state (R209) -/

/-- The held state as it stands reaches the lanes, unless it is frozen. -/
def Mach.publishFsm (m : Mach) : Mach :=
  let m := if m.field.fsm.frozen then m else m.updFsm (fun x => { x with published := x.held })
  let b := m.field.fsm.published
  (m.updLanes (fun _ x => { x with fsmHeld := b, fsmAt := some m.now })).updFsm (fun x => { x with pubAt := some m.now })

/-! ### Threshold (R190, R191) -/

/-- The band in 0.1 V: the set's, with its defaults. -/
def Mach.thrBand (m : Mach) : Nat × Nat :=
  match m.sd with
  | some sd => (sd.settings.thrMin.getD 80, sd.settings.thrMax.getD 110)
  | none => (80, 110)

/-- 0.45 × the mean of 100 samples in 10 mV, in 0.1 V, to the nearest. -/
def thrTarget (samples : List Int) : Int := (samples.foldl (· + ·) 0 * 9 + 10000) / 20000

/-- The ON threshold takes a value: a change is kept with the value before it (R191). -/
def Fsm.moveThr (now : Nat) (new : BitVec 7) (x : Fsm) : Fsm :=
  if new = x.thrOn then x else { x with thrOn := new, thrWas := x.thrOn, thrAt := now }

def thresholdUpdate (m : Mach) : Mach :=
  let f := m.field.fsm
  if m.fieldRuns = false ∨ f.held ∨ f.samples.length < 100 ∨ f.sinceRelease < 100 then m
  else
    let (lo, hi) := m.thrBand
    let v := thrTarget f.samples
    let low := decide (v < (lo : Int))
    let high := decide ((hi : Int) < v)
    let goal := if low then lo else if high then hi else v.toNat
    let cur := f.thrOn.toNat
    let new := if cur < goal then min goal (cur + 2) else max goal (cur - 2)
    let new := max lo (min hi new)
    let pin := low || high
    let m := m.updFsm (fun x => { x.moveThr m.now (BitVec.ofNat 7 new) with pinned := pin, edge := if pin then high else x.edge })
    if pin = f.pinned then m
    else (m.raise (fieldPath 6) 3).postField
      (mkNotice (evCode 5 0x48) (fieldPath 6) (BitVec.ofNat 32 (bitOf pin)) 0 (some m.cycleNo) [ecSrc 0x48])

/-- THRESHOLD_UPDATE. -/
def execThresholdUpdate (t : Nat) (s : State) : Host.Outcome State Fault Refusal :=
  s.run (fun m => thresholdUpdate (m.tick t))

/-! ### Samples (R208, R210) -/

def keepFirst (b : Bool) (now : Nat) (x : Option Nat) : Option Nat :=
  if b then (match x with | some t => some t | none => some now) else none

/-- A command of the field supply monitor. The field blocks of a test that runs go by what stands up to its 940 ms (R416). -/
def fsmRun (t : Nat) (f : Mach → Mach) (s : State) : Host.Outcome State Fault Refusal :=
  s.run (fun m =>
    let m := f (m.tick t)
    if m.testStart.any (fun t0 => decide (m.now ≤ t0 + 940000000)) then
      { m with bench := { m.bench with test := { m.bench.test with fit := m.fieldFit } } }
    else m)

/-- A sample in 10 mV. -/
def Fsm.sample (v : Int) (now : Nat) (x : Fsm) : Fsm :=
  let inside := decide (1920 ≤ v) && decide (v ≤ 3000)
  let w : W16 := satInt 16 v
  { x with
    volt := w, vmin := if w.toInt < x.vmin.toInt then w else x.vmin
    samples := (v :: x.samples).take 100, sinceRelease := x.sinceRelease + 1
    lowFrom := keepFirst (decide (v < 1800)) now x.lowFrom, okFrom := keepFirst (decide (1850 ≤ v)) now x.okFrom
    sagRun := if v < 1600 then x.sagRun + 1 else 0, revRun := if v < -100 then x.revRun + 1 else 0
    highFrom := keepFirst (decide (3200 < v)) now x.highFrom
    rangeFrom := keepFirst inside now x.rangeFrom, release := x.held && inside
    deadFrom := keepFirst (decide (v < 800)) now x.deadFrom, lastAt := some now }

/-- Below 8 V the pulse sources stop with the field section, in fault, and start again with it. (DEDUCED log 18) -/
def PsCh.supply (stop : Bool) (x : PsCh) : PsCh :=
  if stop then (if x.fault then x else { x with
    fault := true, cause := 3, faults := satInc x.faults, on := false, dark := false, darkAt := none, ma := 0 })
  else if x.cause = 3 then { x with fault := false, cause := 0, on := true, highRun := 0 } else x

def fieldSupplySample (v : Int) (m : Mach) : Mach :=
  if m.power.powered = false then m
  else
    let m := m.updFsm (Fsm.sample v m.now)
    let stops := decide (v < 800) && m.field.ps.any (fun x => !x.fault)
    let m := m.updField (fun x => { x with ps := x.ps.map (PsCh.supply (decide (v < 800))) })
    let m := if stops then m.raise (fieldPath 4) 0 else m
    let m := if m.fieldRuns then m else m.refreshPoles
    m.publishFsm

/-- FIELD_SUPPLY_SAMPLE, in 10 mV. -/
def execFieldSupplySample (v : Int) (t : Nat) (s : State) : Host.Outcome State Fault Refusal :=
  fsmRun t (fieldSupplySample v) s

/-! ### Low, sag, reversal, overvoltage (R208, R234) -/

/-- A condition has stood for 1 ms: ten samples, the first and the last 0.9 ms apart. (DEDUCED log 16) -/
def stood (now : Nat) (from0 : Option Nat) (ns : Nat) : Bool :=
  match from0 with | some t => decide (t + ns ≤ now) | none => false

/-- 1 ms of the field supply is ten samples, nine tenths of a millisecond apart at its ends. (DEDUCED log 16) -/
def fsLow (m : Mach) : Mach :=
  let f := m.field.fsm
  if f.low = false && stood m.now f.lowFrom 900000 then
    ((m.updFsm (fun x => { x with low := true })).raise (fieldPath 6) 0).postField
      (mkNotice (evCode 5 0x46) (fieldPath 6) (f.volt.setWidth 32) 0 (some m.cycleNo) [ecSrc 0x46])
  else m

/-- FS_LOW. -/
def execFsLow (t : Nat) (s : State) : Host.Outcome State Fault Refusal := s.run (fun m => fsLow (m.tick t))

/-- FS_LOW_CLEAR. -/
def execFsLowClear (t : Nat) (s : State) : Host.Outcome State Fault Refusal :=
  s.run (fun m => let m := m.tick t
    if stood m.now m.field.fsm.okFrom 900000 then m.updFsm (fun x => { x with low := false }) else m)

/-- A hold: every input invalid with code 0x7, every output off and latched off, the state published. -/
def Mach.fieldHold (m : Mach) : Mach :=
  let m := (List.range 48).foldl (fun m ch => m.diFault ch 7 false) m
  let m := (List.range 8).foldl (fun m ch => m.aiFault ch 7 false) m
  let m := if m.field.enc.valid then m.raise (fieldPath 5) 0 else m
  let m := m.updEnc (fun e => { e with valid := false })
  let m := (m.updFsm (fun x => { x with sags := satInc x.sags, release := false, rangeFrom := none })).raise (fieldPath 6) 1
  let m := m.postField (mkNotice (evCode 5 0x47) (fieldPath 6) (m.field.fsm.volt.setWidth 32) 0 (some m.cycleNo) [ecSrc 0x47])
  m.outHold.publishFsm

def fsSag (m : Mach) : Mach :=
  if m.field.fsm.sag ∨ m.field.fsm.sagRun < 2 then m else (m.updFsm (fun x => { x with sag := true })).fieldHold

/-- FS_SAG. -/
def execFsSag (t : Nat) (s : State) : Host.Outcome State Fault Refusal := fsmRun t fsSag s

def fsRev (m : Mach) : Mach :=
  if m.field.fsm.rev ∨ m.field.fsm.revRun < 2 then m else (m.updFsm (fun x => { x with rev := true })).fieldHold

/-- FS_REV. -/
def execFsRev (t : Nat) (s : State) : Host.Outcome State Fault Refusal := fsmRun t fsRev s

def fsHigh (m : Mach) : Mach :=
  if m.field.fsm.high = false && stood m.now m.field.fsm.highFrom 900000 then
    (m.updFsm (fun x => { x with high := true })).fieldHold
  else m

/-- FS_HIGH. -/
def execFsHigh (t : Nat) (s : State) : Host.Outcome State Fault Refusal := fsmRun t fsHigh s

/-- Release after 200 ms in range: filters restart, code 0x7 clears, outputs become available, the state is
published. (DEDUCED log 16) -/
def fsRelease (m : Mach) : Mach :=
  let f := m.field.fsm
  if f.held && stood m.now f.rangeFrom 200000000 then
    let m := m.updFsm (fun x => { x with
      sag := false, rev := false, high := false, release := false, sinceRelease := 0 })
    let m := (List.range 48).foldl (fun m ch =>
      (m.updDi ch (fun x => { x with found := dropFinding 7 x.found })).diRestart ch) m
    let m := (List.range 8).foldl (fun m ch => m.updAi ch (fun x => { x with okRun := 0, found := dropFinding 7 x.found })) m
    (m.raise (fieldPath 6) 2).outRelease.publishFsm
  else m

/-- FS_RELEASE. -/
def execFsRelease (t : Nat) (s : State) : Host.Outcome State Fault Refusal := fsmRun t fsRelease s

/-- The freeze ends 100 µs after the cycle's first wake notice (R209). -/
def fsmFreezeEnd (m : Mach) : Mach :=
  if m.field.fsm.frozen ∧ m.field.fsm.freezeAt + 100000 ≤ m.now then
    (m.updFsm (fun x => { x with frozen := false })).publishFsm
  else m

/-- FSM_FREEZE_END. -/
def execFsmFreezeEnd (t : Nat) (s : State) : Host.Outcome State Fault Refusal :=
  s.run (fun m => fsmFreezeEnd (m.tick t))

/-- A lane's wake notice: the first of a cycle freezes the published state. (DEDUCED log 37) -/
def Mach.freezeFsm (cycle : W32) (m : Mach) : Mach :=
  if m.field.fsm.freezeIn = some cycle then m
  else m.updFsm (fun x => { x with frozen := true, freezeAt := m.now, freezeIn := some cycle })

end Sys2Proof.Machine
end

