-- ==== Sys2Proof/Machine/PageTree.lean ====
section
/-! DEFINITION. The register space (R30, R31, R34 to R36, R41, R70): the 38 page types, their paths, members and
instances, and what an address names. -/

namespace Sys2Proof.Machine

/-- The pages of a module, one constructor per page type of R70. -/
inductive Page where
  | pair | module
  | lane (l : LaneId)
  | callipers | fieldGroup | commGroup | benchGroup
  | ring (i : RingId)
  | canGroup (p : CanId)
  | core (l : LaneId)
  | engine (l : LaneId)
  | copier (l : LaneId)
  | memories (l : LaneId)
  | clocks (l : LaneId)
  | agreement (l : LaneId)
  | voter | driveMon | selfCheck | voteStats
  | di | out | ai | ps | enc | fsm | pf
  | port (i : RingId) (d : Dir)
  | rest (i : RingId) (d : Dir)
  | schedule (i : RingId)
  | jxt
  | canCtl (p : CanId)
  | canBufs (p : CanId)
  | canMatrix (p : CanId)
  | pairLink | cv
  | sensors | counters | recorder | hostPort | mntPort | update | selfTest
  deriving DecidableEq, Repr

/-! ### Types, paths and members (R31, R41, R70) -/

def Page.typ : Page → Nat
  | .pair => 0x01 | .module => 0x02 | .lane _ => 0x03 | .callipers => 0x04
  | .fieldGroup | .commGroup | .benchGroup | .ring _ | .canGroup _ => 0x05
  | .core _ => 0x06 | .engine _ => 0x07 | .copier _ => 0x08 | .memories _ => 0x09 | .clocks _ => 0x0A
  | .agreement _ => 0x0B | .voter => 0x0C | .driveMon => 0x0D | .selfCheck => 0x0E | .voteStats => 0x0F
  | .di => 0x10 | .out => 0x11 | .ai => 0x12 | .ps => 0x13 | .enc => 0x14 | .fsm => 0x15 | .pf => 0x16
  | .port _ _ => 0x17 | .rest _ _ => 0x18 | .schedule _ => 0x19 | .jxt => 0x1A | .canCtl _ => 0x1B
  | .canBufs _ => 0x1C | .canMatrix _ => 0x1D | .pairLink => 0x1E | .cv => 0x1F | .sensors => 0x20
  | .counters => 0x21 | .recorder => 0x22 | .hostPort => 0x23 | .mntPort => 0x24 | .update => 0x25
  | .selfTest => 0x26

def Page.path : Page → List Nat
  | .pair => []
  | .module => modPath
  | .lane l => [1, laneCode l]
  | .callipers => [1, 4]
  | .fieldGroup => [1, 5]
  | .commGroup => [1, 6]
  | .benchGroup => [1, 7]
  | .ring i => ringPath i
  | .canGroup p => [1, 6, canNo p + 3]
  | .core l => lanePath l 1
  | .engine l => lanePath l 2
  | .copier l => lanePath l 3
  | .memories l => lanePath l 4
  | .clocks l => lanePath l 5
  | .agreement l => lanePath l 6
  | .voter => calPath 1
  | .driveMon => calPath 2
  | .selfCheck => calPath 3
  | .voteStats => calPath 4
  | .di => fieldPath 1
  | .out => fieldPath 2
  | .ai => fieldPath 3
  | .ps => fieldPath 4
  | .enc => fieldPath 5
  | .fsm => fieldPath 6
  | .pf => fieldPath 7
  | .port i d => portPath i d
  | .rest i d => restPath i d
  | .schedule i => schedPath i
  | .jxt => jxtPath
  | .canCtl p => canPath p 1
  | .canBufs p => canPath p 2
  | .canMatrix p => canPath p 3
  | .pairLink => pairPath
  | .cv => cvPath
  | .sensors => benchPath 1
  | .counters => benchPath 2
  | .recorder => benchPath 3
  | .hostPort => benchPath 4
  | .mntPort => benchPath 5
  | .update => benchPath 6
  | .selfTest => benchPath 7

/-- The members of a group descriptor by path value, the partner apart; none of a leaf. -/
def Page.members : Page → List (Nat × Page)
  | .pair => [(1, .module)]
  | .module => [(1, .lane .a), (2, .lane .b), (3, .lane .c), (4, .callipers), (5, .fieldGroup), (6, .commGroup), (7, .benchGroup)]
  | .lane l => [(1, .core l), (2, .engine l), (3, .copier l), (4, .memories l), (5, .clocks l), (6, .agreement l)]
  | .callipers => [(1, .voter), (2, .driveMon), (3, .selfCheck), (4, .voteStats)]
  | .fieldGroup => [(1, .di), (2, .out), (3, .ai), (4, .ps), (5, .enc), (6, .fsm), (7, .pf)]
  | .commGroup => [(1, .ring .r1), (2, .ring .r2), (3, .jxt), (4, .canGroup .p1), (5, .canGroup .p2), (6, .pairLink), (7, .cv)]
  | .benchGroup =>
    [(1, .sensors), (2, .counters), (3, .recorder), (4, .hostPort), (5, .mntPort), (6, .update), (7, .selfTest)]
  | .ring i => [(1, .port i .east), (2, .port i .west), (3, .rest i .east), (4, .rest i .west), (5, .schedule i)]
  | .canGroup p => [(1, .canCtl p), (2, .canBufs p), (3, .canMatrix p)]
  | _ => []

def Page.isGroup : Page → Bool
  | .pair | .module | .lane _ | .callipers | .fieldGroup | .commGroup | .benchGroup | .ring _ | .canGroup _ => true
  | _ => false

/-- The member reached by a path below a group. -/
def Page.below (p : Page) : List Nat → Option Page
  | [] => some p
  | k :: ks => match assocGet k p.members with
    | some q => q.below ks
    | none => none

def Page.ofPath (path : List Nat) : Option Page := Page.pair.below path

/-- A leaf page served by a unit of the Bench (path 1, 7, …), and the Bench group's descriptor. -/
def Page.isBench : Page → Bool
  | .benchGroup | .sensors | .counters | .recorder | .hostPort | .mntPort | .update | .selfTest => true
  | _ => false

/-- The lane whose bridge serves a page, where one does (R49): its own lane, or for the field section and the
communications the lane whose view the Bench takes. -/
def Page.servingLane (m : Mach) : Page → Option LaneId
  | .lane l | .core l | .engine l | .copier l | .memories l | .clocks l | .agreement l => some l
  | .fieldGroup | .commGroup | .ring _ | .canGroup _ | .di | .out | .ai | .ps | .enc | .fsm | .pf | .port _ _
  | .rest _ _ | .schedule _ | .jxt | .canCtl _ | .canBufs _ | .canMatrix _ | .pairLink | .cv => some m.viewLane
  | _ => none

/-- The instances behind `CHAN_SEL`. -/
def Page.count (m : Mach) : Page → Nat
  | .di => 48
  | .out => 24
  | .ai => 8
  | .ps => 4
  | .pf => 16
  | .schedule i => match m.ringCfg i with
    | some c => c.entries.length
    | none => 0
  | .canBufs _ => 64
  | .cv => 8
  | .counters => 32
  | _ => 0

/-! ### Addresses (R34 to R36) -/

/-- The path values of an address, levels 1 to 7. -/
def addrLevels (a : W32) : List Nat := (List.range 7).map (fun k => a.toNat / 2 ^ (28 - 3 * k) % 8)

def addrPath (a : W32) : List Nat := (addrLevels a).takeWhile (· != 0)

/-- No level after a 0 level is other than 0. -/
def pathWhole (a : W32) : Bool := ((addrLevels a).dropWhile (· != 0)).all (· == 0)

def inMailbox (a : W32) : Bool := a.getLsbD 31

/-- The byte offset within the page or the mailbox. -/
def addrOffset (a : W32) : Nat := if inMailbox a then a.toNat % 2 ^ 14 else a.toNat % 1024

/-- An access of `count` words is well addressed. -/
def addrOk (s : Sess) (a : W32) (count : Nat) : Bool :=
  decide (a.toNat % 4 = 0) &&
    (if inMailbox a then
      (match s with | .host => true | .mnt _ => false) && decide (a.toNat % 2 ^ 31 < 2 ^ 14) &&
        decide (addrOffset a + 4 * count ≤ 2 ^ 14)
    else pathWhole a && decide (addrOffset a + 4 * count ≤ 1024))

/-- What a well-formed register address names. -/
inductive Place where
  /-- A page of this module, or the pair descriptor. -/
  | own (p : Page)
  /-- A page of the partner's tree. -/
  | partner
  /-- An absent or unassigned unit. -/
  | absent
  deriving DecidableEq, Repr

/-- The partner is reached over the pair link. (DESIGN CHOICE log 48) -/
def Mach.partnerReached (m : Mach) : Bool := m.paired && (m.pair.l1.service || m.pair.l2.service)

def Mach.place (m : Mach) (a : W32) : Place :=
  match addrPath a with
  | 2 :: _ => if m.partnerReached then .partner else .absent
  | path => match Page.ofPath path with
    | some p => .own p
    | none => .absent

end Sys2Proof.Machine
end

