-- ==== Sys2Proof/Machine/RingOps.lean ====
section
/-! DEFINITION. What the ring commands share (R252 to R306): ring time, windows, frames, the path through a Tool rest, and
the ways into LISTEN. A ring command's instant is the module's own time; that of a frame is the arrival of its start
delimiter. -/

namespace Sys2Proof.Machine

/-! ### Ports and rests -/

def RingIfc.port (d : Dir) (r : RingIfc) : RingPort :=
  match d with
  | .east => r.east
  | .west => r.west

def Mach.updPort (i : RingId) (d : Dir) (f : RingPort → RingPort) (m : Mach) : Mach :=
  m.updRing i (fun r => match d with
    | .east => { r with east := f r.east }
    | .west => { r with west := f r.west })

def RingIfc.rest (d : Dir) (r : RingIfc) : ToolRest :=
  match d with
  | .east => r.restE
  | .west => r.restW

def Mach.updRest (i : RingId) (d : Dir) (f : ToolRest → ToolRest) (m : Mach) : Mach :=
  m.updRing i (fun r => match d with
    | .east => { r with restE := f r.restE }
    | .west => { r with restW := f r.restW })

def Mach.updRests (i : RingId) (f : ToolRest → ToolRest) (m : Mach) : Mach := (m.updRest i .east f).updRest i .west f

def Mach.updEntry (i : RingId) (k : Nat) (f : EntryRec → EntryRec) (m : Mach) : Mach :=
  m.updRing i (fun r => { r with entries := modAt f k r.entries })

def otherDir : Dir → Dir
  | .east => .west
  | .west => .east

/-- The configuration of an interface in use. -/
def Mach.ringUsed (m : Mach) (i : RingId) : Option RingCfg := (m.ringCfg i).filter (fun c => c.used)

/-- The port through which the module inserts: west at an east turning point, else east (R251, R300). -/
def RingIfc.outDir (r : RingIfc) : Dir := if r.turn = 1 then .west else .east

/-- The pair index that a node's frames carry: that of the identity in a pair, 0 for a single module (R253). -/
def ringCopy (m : Mach) (c : RingCfg) : BitVec 1 := if c.pair then m.ident.copy else 0

/-! ### Ring time (R262, R286) -/

def RingIfc.count (r : RingIfc) : Nat := r.tb.count

/-- An instant of the module in ring time. -/
def RingIfc.at0 (r : RingIfc) (x : Nat) : RingPoint := r.tb.at0 x

/-- The local start of the next basic cycle. -/
def RingIfc.nextStart (r : RingIfc) : Nat := r.tb.nextStart

/-! ### Windows (R257, R262, R263) -/

/-- The line time of a payload in ns. -/
def lineNs (len : Nat) : Nat := (26 + len) * 80

def parityOk (p : Parity) (basic : Nat) : Bool :=
  match p with
  | .every => true
  | .even => basic / 32 % 2 == 0
  | .odd => basic / 32 % 2 == 1

/-- The entry's window lies in a basic cycle. -/
def inBasic (e : RingEntry) (basic : Nat) : Bool := decide (basic % 32 = e.bc) && parityOk e.parity basic

def instantNs (e : RingEntry) : Nat := e.instant * 10
def opensNs (e : RingEntry) : Nat := if e.kind = .reference then 0 else instantNs e - 4000
def closesNs (e : RingEntry) : Nat := if e.kind = .reference then 10000 else instantNs e + lineNs e.len + 4000

/-- The window is open at a point in ring time. -/
def openAt (e : RingEntry) (p : RingPoint) : Bool :=
  inBasic e p.basic && decide (opensNs e ≤ p.off) && decide (p.off ≤ closesNs e)

/-- The Tool rest's window, rounded outward to its 40 ns clock (R269). -/
def restOpens (e : RingEntry) : Nat := opensNs e / 40 * 40
def restCloses (e : RingEntry) : Nat := (closesNs e + 39) / 40 * 40

/-- The module's own rank on a ring, 0 where it has no coldstart entry (R283). -/
def ownRank (m : Mach) (c : RingCfg) : Nat :=
  match c.coldstarts.find? (fun k => k.node == c.node && k.copy == ringCopy m c) with
  | some k => k.rank
  | none => 0

/-- The windows that a Tool rest holds for its port (R269, R283). -/
def restHolds (m : Mach) (c : RingCfg) (e : RingEntry) : Bool :=
  match e.kind with
  | .exclusive => e.tx && e.owner == c.node && e.copy == ringCopy m c
  | .arbitrating => e.members.contains c.node
  | .join => true
  | .reference => ownRank m c != 0
  | .free => false

/-! ### Frames (R255, R256, R280) -/

def headerBytes (f : RingFrame) : List Byte :=
  [f.typ ++ f.ver, f.prio ++ (0 : BitVec 3) ++ f.copy] ++ bytes16 ((0 : BitVec 4) ++ f.src) ++ bytes16 f.slot ++
    bytes32 f.seq ++ bytes16 ((0 : BitVec 4) ++ f.msg) ++ bytes16 f.len

def hcrcOk (f : RingFrame) : Bool := f.hcrc == crc16 (headerBytes f)

def frameCrc (f : RingFrame) : W32 := crc32 (headerBytes f ++ bytes16 f.hcrc ++ f.payload.flatMap bytes64)

def fcrcOk (f : RingFrame) : Bool := f.fcrc == frameCrc f

/-- A frame that arrived whole, with both CRCs right. -/
def intactFrame (f : RingFrame) : Bool := f.symErr.isNone && !f.aborted && f.endOk && hcrcOk f && fcrcOk f

/-- A frame as the port section forms it. -/
def mkFrame (m : Mach) (c : RingCfg) (typ : BitVec 4) (prio : BitVec 4) (slot : Nat) (basic msg : Nat) (payload : List W64) :
    RingFrame :=
  let f : RingFrame :=
    { hop := 0, loop := false, dly := 0, typ := typ, ver := 1, prio := prio, copy := ringCopy m c, src := c.node
      slot := BitVec.ofNat 16 slot, seq := BitVec.ofNat 32 basic, msg := BitVec.ofNat 12 msg
      len := BitVec.ofNat 16 (8 * payload.length), hcrc := 0, payload := payload, fcrc := 0, symErr := none, endOk := true
      aborted := false }
  let f := { f with hcrc := crc16 (headerBytes f) }
  { f with fcrc := frameCrc f }

/-- Two frames have the same covered header and payload. (DESIGN CHOICE log 38) -/
def sameFrame (f g : RingFrame) : Bool := headerBytes f == headerBytes g && f.payload == g.payload

/-! ### Out of the ring (R288, R297) -/

def ToolRest.lose (x : ToolRest) : ToolRest :=
  { x with
    state := if x.state = .sync then .unsync else x.state
    tb := x.tb.clear, openSlot := none, sending := none, joined := false }

/-- The interface stops inserting, clears its ring time and listens. -/
def RingIfc.toListen (rank now : Nat) (r : RingIfc) : RingIfc :=
  { r.keepCount now with
    ifc := .listen, role := if rank = 0 then 0 else 2, tb := r.tb.clear, validRun := 0, joinRun := 0, joinOk := false
    csOut := none, stimeRef := none, lastValid := now, closeAt := none, masterNode := 0, masterCopy := 0, masterRank := 0, ownLooped := false
    entries := r.entries.map (fun e => { e with got0 := none, got1 := none, windowAt := none }) }

def Mach.ringRank (m : Mach) (i : RingId) : Nat :=
  match m.ringCfg i with
  | some c => ownRank m c
  | none => 0

/-- Loss of synchronisation. -/
def Mach.syncLost (i : RingId) (m : Mach) : Mach :=
  let mat := (m.ring i).matrix
  let m := m.updRing i (fun r => { r.toListen (m.ringRank i) m.now with syncLoss := satInc r.syncLoss, lastLoss := mat })
  (m.raise (ringPath i) 8).noteRing i 0x61 mat 0

/-- The interface leaves the ring after three cuts; it returns only by joining. (DEDUCED log 42) -/
def Mach.leaveRing (i : RingId) (m : Mach) : Mach :=
  let m := m.updRing i (fun r => { r.toListen (m.ringRank i) m.now with leaves := satInc r.leaves, mustJoin := true })
  (m.raise (ringPath i) 13).noteRing i 0x65 0 0

/-- Synchronisation gained: the lanes clear the last accepted stamp of every receive entry of the ring (R288). -/
def Mach.syncGained (i : RingId) (m : Mach) : Mach :=
  let f (r : RingRec) : RingRec := { r with stamp := none }
  (m.updLanes (fun _ x => match i with
    | .r1 => { x with comm := { x.comm with ring1 := x.comm.ring1.map f } }
    | .r2 => { x with comm := { x.comm with ring2 := x.comm.ring2.map f } })).raise (ringPath i) 9

/-- Each lane that is not OUT brings its cycle timer to a reference of the ring that logic timing follows (R23, R286).
(DEDUCED log 39, DESIGN CHOICE log 103) -/
def Mach.lanesFollow (i : RingId) (f : TimeBase → TimeBase) (m : Mach) : Mach :=
  if m.timeRingId = i then m.updLanes (fun _ x => if x.agr.life = .out then x else { x with tb := f x.tb }) else m

/-! ### Through the Tool rest (R269 to R271, R283, R296, R297) -/

/-- A cut or refusal of an insertion: the third within 2 matrix cycles closes the Tool rest and takes the interface out of
the ring. -/
def Mach.restCut (i : RingId) (d : Dir) (slot : Nat) (refused : Bool) (m : Mach) : Mach :=
  let now := m.now
  let recent := now :: ((m.ring i).rest d).recent.filter (fun x => decide (now < x + 64000000))
  let m := m.updRest i d (fun x => { x with
    recent := recent, lastSlot := BitVec.ofNat 11 slot
    cuts := if refused then x.cuts else satInc x.cuts, refused := if refused then satInc x.refused else x.refused })
  let m := m.raise (restPath i d) (if refused then 1 else 0)
  if recent.length < 3 then m
  else (m.updRest i d (fun x => { x with
    state := .faulted, tb := x.tb.clear, joined := false, faultAt := now, recent := [], openSlot := none
    sending := none })).leaveRing i

/-- What an inserted frame must be in a window (R270, R283). -/
def fitsWindow (m : Mach) (c : RingCfg) (slot : Nat) (e : RingEntry) (f : RingFrame) : Bool :=
  f.copy == ringCopy m c && f.src == c.node &&
    (match e.kind with
      | .exclusive => f.typ == 1 && f.slot == BitVec.ofNat 16 slot && f.len == BitVec.ofNat 16 e.len
      | .arbitrating => f.typ == 2 && decide (f.len.toNat ≤ 1496)
      | .join => f.typ == 0xA || f.typ == 9
      | .reference => f.typ == 8 || f.typ == 9
      | .free => false)

/-- The end of the line time of a frame that starts now. -/
def frameEnd (now : Nat) (f : RingFrame) : Nat := now + lineNs f.len.toNat

/-- An own frame on the line. -/
def Mach.putFrame (i : RingId) (d : Dir) (f : RingFrame) (m : Mach) : Mach :=
  let f := { f with loop := (m.ring i).turn == 1 }
  let m := m.updPort i d (fun p => { p with
    lastTx := some f, busyUntil := frameEnd m.now f, sentAt := some m.now
    inserted := if f.aborted then p.inserted else satInc p.inserted })
  m.updRing i (fun r => { r with
    sentFrames := f :: r.sentFrames.filter (fun g => decide ((f.seq - g.seq).toNat ≤ 2)) })

/-- A frame that the Tool rest passes goes out where its port is in ring service; `slot` is its window and `cut` where it is cut at
the window's close. -/
def Mach.passFrame (i : RingId) (d : Dir) (slot : Nat) (cut : Option Nat) (f : RingFrame) (m : Mach) : Mach × Bool :=
  if ((m.ring i).port d).service = false then (m, false)
  else
    let m := m.updRest i d (fun x => { x with sending := some (slot, cut.getD (frameEnd m.now f)) })
    match cut with
    | none => (m.putFrame i d f, true)
    | some t =>
      ((m.updPort i d (fun p => { p with
        lastTx := some { f with aborted := true }, busyUntil := t, sentAt := some m.now })).restCut i d slot false, false)

/-- An own frame in a window: suppressed whole where the Tool rest holds the window closed or its own time has passed it, cut where its
fields do not match, and on the line otherwise. The Boolean says that it went out. (DESIGN CHOICE log 38) -/
def Mach.insertFrame (i : RingId) (c : RingCfg) (slot : Nat) (e : RingEntry) (f : RingFrame) (m : Mach) : Mach × Bool :=
  let d := (m.ring i).outDir
  let x := (m.ring i).rest d
  if x.openSlot ≠ some slot ∨ restCloses e < (x.tb.at0 m.now).off then (m.restCut i d slot false, false)
  else if fitsWindow m c slot e f = false then
    ((m.updPort i d (fun p => { p with lastTx := some { f with aborted := true } })).restCut i d slot true, false)
  else m.passFrame i d slot none f

/-- The index of the schedule's reference window in a basic cycle, where the set lists it. (DEDUCED log 42) -/
def refSlot (c : RingCfg) (basic : Nat) : Nat :=
  ((c.entries.zipIdx.find? (fun q => q.1.kind == .reference && inBasic q.1 basic)).map Prod.snd).getD 0

/-- A reference or coldstart frame (R283, R296, R297). A synchronised Tool rest passes it in its reference window, which only a coldstart module has, suppresses one outside
it and cuts one that runs past its close; an unsynchronised one passes a coldstart frame in each 1 ms of its clock.
(DEDUCED log 42) -/
def Mach.insertRef (i : RingId) (c : RingCfg) (f : RingFrame) (m : Mach) : Mach × Bool :=
  let d := (m.ring i).outDir
  let x := (m.ring i).rest d
  match x.state with
  | .sync =>
    let p := x.tb.at0 m.now
    let slot := refSlot c p.basic
    if ownRank m c = 0 ∨ 10000 < p.off then (m.restCut i d slot false, false)
    else
      let fits := f.copy == ringCopy m c && f.src == c.node && (f.typ == 8 || f.typ == 9)
      if fits = false then (m.restCut i d slot true, false)
      else m.passFrame i d slot (if 10000 < p.off + lineNs f.len.toNat then some (m.now + (10000 - p.off)) else none) f
  | .unsync =>
    if f.typ == 9 && ownRank m c != 0 && (match x.coldAt with | some t => decide (t + 1000000 ≤ m.now) | none => true) then
      (m.updRest i d (fun x => { x with coldAt := some m.now })).passFrame i d 0 none f
    else (m, false)
  | _ => (m, false)

/-- R261: the insertion buffer is empty, no frame is arriving, and the last insertion is over with its idle gap. -/
def Mach.mayInsert (m : Mach) (i : RingId) : Bool :=
  let r := m.ring i
  r.ibuf.isEmpty && decide (r.arriveEnd ≤ m.now) && decide ((r.port r.outDir).busyUntil = 0 ∨ (r.port r.outDir).busyUntil + 640 ≤ m.now)

/-! ### The queue of sporadic frames (R268) -/

/-- Queued frames past their age limit are dropped. -/
def Mach.dropAged (i : RingId) (c : RingCfg) (cycle : W32) (m : Mach) : Mach :=
  let old (x : ArbItem) : Bool :=
    let lim := ((c.sporadic.find? (fun s => s.msg == x.msg)).bind (fun s => s.ageMax)).getD 2
    decide (lim < (cycle - x.cycle).toNat)
  let n := ((m.ring i).queue.filter old).length
  if n = 0 then m
  else (m.updRing i (fun r => { r with queue := r.queue.filter (fun x => !old x), arbDrop := satAdd r.arbDrop n })).raise
    (schedPath i) 3

/-- The queues of both rings at the start of a logic cycle. -/
def Mach.dropAllAged (cycle : W32) (m : Mach) : Mach :=
  [RingId.r1, .r2].foldl (fun m i => match m.ringCfg i with
    | some c => m.dropAged i c cycle
    | none => m) m

end Sys2Proof.Machine
end

