-- ==== Sys2Proof/Machine/RingFrames.lean ====
section
/-! DEFINITION. Ring frames as they arrive (R258 to R261, R271 to R273, R295, R300 to R302, R373): forwarding, removal at the
sender, judgement, the insertion buffer, and the settling of receive entries. -/

namespace Sys2Proof.Machine

/-! ### Forwarding (R258 to R260, R300) -/

/-- Where a frame that arrives at a port goes out: a turning point sends it back, every other module passes it on. -/
def RingIfc.forwardDir (d : Dir) (r : RingIfc) : Dir :=
  match d with
  | .west => if r.turn = 1 then .west else .east
  | .east => if r.turn = 2 then .east else .west

/-- The number of modules on the frame's path (R301). -/
def pathModules (c : RingCfg) (f : RingFrame) : Nat := if f.loop then 2 * c.nmod - 2 else c.nmod

def ownFrame (m : Mach) (c : RingCfg) (f : RingFrame) : Bool := f.src == c.node && f.copy == ringCopy m c

/-- The frame ends its path here (R301). -/
def endsPath (m : Mach) (c : RingCfg) (d : Dir) (r : RingIfc) (f : RingFrame) : Bool :=
  ownFrame m c f && (d == .west || r.turn == 2)

/-- A symbol error at or before a byte of the frame. -/
def errBy (f : RingFrame) (n : Nat) : Bool := f.symErr.any (fun p => decide (p ≤ n))

/-- Why a forwarding module cuts a frame (R260), with its cause; the first check that fails decides, each where it is known. -/
def cutCause (f : RingFrame) : Option Nat :=
  let typed := f.ver == 1 && [1, 2, 8, 9, 10].contains f.typ.toNat
  if errBy f 4 then some 1
  else if !f.aborted && !typed then some 2
  else if errBy f 19 then some 1
  else if f.aborted then (if f.symErr.isSome then some 1 else none)
  else if hcrcOk f = false then some 3
  else if f.len.toNat < 16 ∨ 1496 < f.len.toNat ∨ f.len.toNat % 8 ≠ 0 then some 4
  else if errBy f (23 + f.len.toNat) then some 1
  else if f.endOk = false then some 5
  else if fcrcOk f = false then some 6
  else none

/-- `SRC`, bytes 6 and 7, was read before the frame was cut. (DESIGN CHOICE log 38) -/
def srcRead (f : RingFrame) : Bool := cutCause f != some 2 && !errBy f 7

/-- `DLY` after this module: the incoming link, and a residence time in 10 ns units. (DEDUCED log 39) -/
def addDly (x : W16) (n : Nat) : W16 := satAdd x n

/-- `DLY` with the delay of the incoming link (R258). (DEDUCED log 39) -/
def linkedDly (m : Mach) (i : RingId) (d : Dir) (f : RingFrame) : W16 := addDly f.dly ((m.ring i).port d).linkDly.toNat

/-- A frame sent on from this module, whole or as a stub. One that arrived with the abort delimiter is counted so unless an earlier check
failed (R260). -/
def Mach.sendOn (i : RingId) (d : Dir) (f : RingFrame) (aborted : Bool) (res : Nat) (start : Nat) (m : Mach) : Mach :=
  let r := m.ring i
  let out := r.forwardDir d
  let g : RingFrame :=
    { f with
      hop := f.hop + 1, dly := addDly f.dly ((r.port d).linkDly.toNat + res), aborted := f.aborted || aborted, symErr := none
      loop := f.loop || (d == .west && r.turn == 1) }
  let m := if (r.port out).service then
      m.updPort i out (fun p => { p with lastTx := some g, busyUntil := start + lineNs f.len.toNat, sentAt := some start }) else m
  m.updPort i d (fun p =>
    if f.aborted then (if (cutCause f).isSome then p else { p with abortUp := satInc p.abortUp })
    else { p with fwd := if aborted then p.fwd else satInc p.fwd, resMax := bvMax p.resMax (BitVec.ofNat 16 res) })

/-- The residence time of a frame that did not wait: 0.994 to 1.000 µs. (DESIGN CHOICE log 38) -/
def Mach.residence (m : Mach) : Nat := if Config.residence m.freeCtr then 100 else 99

/-- The receiver keeps the instants of its symbol errors and of the frames cut here, for its report (R281). -/
def Mach.noteError (i : RingId) (d : Dir) (m : Mach) : Mach :=
  m.updPort i d (fun p => { p with errors := m.now :: p.errors.filter (fun x => decide (m.now < x + 2001000)) })

/-- A frame cut here is counted and recorded at the port where it arrived. -/
def Mach.cutHere (i : RingId) (d : Dir) (f : RingFrame) (k : Nat) (m : Mach) : Mach :=
  let src := if srcRead f then f.src else 0
  let m := (m.noteError i d).updPort i d (fun p => { p with
    abortHere := satInc p.abortHere, lastCause := BitVec.ofNat 4 k, lastSrc := src })
  (m.raise (portPath i d) 2).noteRing i 0x67 (BitVec.ofNat 32 k) (src.setWidth 32)

/-- A frame that is to be forwarded: held behind an insertion or behind what its port still sends with the idle gap, or sent on, cut where
a check fails. Each port has its own buffer (R261). (DESIGN CHOICE log 38) -/
def Mach.forward (i : RingId) (d : Dir) (f : RingFrame) (m : Mach) : Mach :=
  let r := m.ring i
  let cut := cutCause f
  let m := match cut with
    | some k => m.cutHere i d f k
    | none => m
  let busy := (r.port (r.forwardDir d)).busyUntil
  let inserting := decide (m.now < busy)
    && (match (r.rest (r.forwardDir d)).sending with | some s => decide (m.now < s.2) | none => false)
  let mine := r.ibuf.filter (fun x => x.dir == d)
  let used := (mine.map (fun x => 24 + x.frame.len.toNat)).sum
  if inserting || !mine.isEmpty || decide (busy ≠ 0 ∧ m.now + 1000 < busy + 640) then
    if used + 24 + f.len.toNat ≤ 1536 then
      (m.updRing i (fun r => { r with ibuf := r.ibuf ++ [{ frame := f, dir := d, at0 := m.now, cut := cut }] })).updPort i d (fun p => { p with
        ibufPeak := bvMax p.ibufPeak (BitVec.ofNat 11 (used + 24 + f.len.toNat)) })
    else m
  else (m.sendOn i d f cut.isSome m.residence (m.now + 1000)).bumpFree

/-- The frame held longest for a line that is idle again, its gap over, is forwarded. The Tool rest cuts what of it would go later than
125 µs after it ended (R271). -/
def insertionBufferDrain (i : RingId) (m : Mach) : Mach :=
  let r := m.ring i
  match r.ibuf.find? (fun x => decide ((r.port (r.forwardDir x.dir)).busyUntil + 640 ≤ m.now)) with
  | none => m
  | some x =>
    let out := r.forwardDir x.dir
    let late := decide (x.at0 + 125000 < m.now)
    let m := m.updRing i (fun r => { r with ibuf := r.ibuf.erase x })
    let m := m.sendOn i x.dir x.frame (x.cut.isSome || late) ((m.now - x.at0) / 10) m.now
    if late then (m.updRest i out (fun x => { x with fwdCut := satInc x.fwdCut })).raise (restPath i out) 2 else m

/-- INSERTION_BUFFER_DRAIN. -/
def execInsertionBufferDrain (i : RingId) (t : Nat) (s : State) : Host.Outcome State Fault Refusal :=
  s.run (fun m => insertionBufferDrain i (m.tick t))

/-! ### Back at the sender (R259, R296, R301) -/

/-- The send instant on the module's own time (R272). -/
def sendInstant (m : Mach) (i : RingId) (d : Dir) (f : RingFrame) : Nat := m.now - (linkedDly m i d f).toNat * 10

/-- A synchronised Tool rest takes a reference of the next basic cycle within ±2 µs of its own time, or one of lower rank in the same
window; an unsynchronised one takes its time from the first. It loses synchronisation on its own count (R285, R288, R296).
(DEDUCED log 39) -/
def ToolRest.follow (lim : Int) (basic refStart rank : Nat) (x : ToolRest) : ToolRest :=
  match x.state with
  | .unsync => { x with state := .sync, tb := x.tb.first basic refStart, rank := rank }
  | .sync =>
    let y := x.tb.onTo basic
    let steps := (basic + basicMod - x.tb.count) % basicMod
    if (steps = 1 ∨ (steps = 0 ∧ rank < x.rank)) ∧ nearNs y.start refStart = true then
      let x := { x with tb := y.correct lim refStart, rank := rank }
      if x.tb.lost then x.lose else x
    else x
  | _ => x

/-- The limit of the rate in 0.1 ppm (R286). -/
def rateLim (m : Mach) : Int :=
  match m.sd with
  | some sd => (10 * sd.settings.rateLim.getD 200 : Nat)
  | none => 2000

def refMatrix (f : RingFrame) : W32 := ((f.payload.headD 0) >>> 32).setWidth 32
def refBc (f : RingFrame) : Nat := ((f.payload.headD 0).toNat / 2 ^ 27) % 32

def refRank (f : RingFrame) : Nat := ((f.payload.headD 0).toNat / 2 ^ 24) % 8

/-- The basic cycle that a reference names. -/
def refBasic (f : RingFrame) : Nat := (refMatrix f).toNat * 32 + refBc f

/-- An own frame removed and compared with what was sent. A coldstart or join frame that is intact lets the start or the join
proceed, a first one gives a starting interface its synchronisation, and a reference shows whether it came back turned. The Tool rests
follow the reference as their receiver has it. (DESIGN CHOICE log 38) -/
def Mach.strip (i : RingId) (d : Dir) (f : RingFrame) (m : Mach) : Mach :=
  let r := m.ring i
  let same := r.sentFrames.any (fun g => sameFrame f g)
  let m := if f.aborted then m.updPort i d (fun p => { p with abortUp := satInc p.abortUp })
    else if same then m
    else m.updPort i d (fun p => { p with stripBad := satInc p.stripBad })
  if !(same && intactFrame f) then m
  else
    let m := m.updRing i (fun r => { r with sentFrames := r.sentFrames.filter (fun g => !sameFrame f g) })
    let follow := ToolRest.follow (rateLim m) (refBasic f) (sendInstant m i d f - 4000) (refRank f)
    if f.typ = 8 then (m.updRing i (fun r => { r with ownLooped := f.loop })).updRests i follow
    else if f.typ = 9 ∧ r.ifc = .coldstart then
      let m := (m.updRing i (fun r => { r with
        csOut := none, joinOk := true, joinB := f.seq.toNat, ownLooped := f.loop, tb := { r.tb with live := true } })).updRests i
          (fun x => { follow x with joined := true })
      if r.sync then m else m.syncGained i
    else if f.typ = 0xA ∧ r.ifc = .joining then
      (m.updRing i (fun r => { r with joinOk := true, joinB := f.seq.toNat, joinRun := 0 })).updRests i (fun x => { x with
        joined := true })
    else m

/-! ### Judgement (R272, R302) -/

/-- A send instant within 2 µs of a scheduled instant. -/
def nearInstant (p : RingPoint) (ns : Nat) : Bool := decide (p.off ≤ ns + 2000) && decide (ns ≤ p.off + 2000)

/-- The receive entry that a data frame may match: by its slot in an exclusive window, by its message in an arbitrating one, where a
window that is open comes first. (DEDUCED log 40) -/
def matchEntry (c : RingCfg) (f : RingFrame) (p : RingPoint) : Option (Nat × RingEntry) :=
  if f.typ = 1 then
    (c.entries[f.slot.toNat]?).bind (fun e => if e.rx && e.kind == .exclusive then some (f.slot.toNat, e) else none)
  else
    let bound := (c.entries.zipIdx).filter (fun q => q.1.rx && q.1.kind == .arbitrating && BitVec.ofNat 12 q.1.msg == f.msg)
    ((bound.find? (fun q => openAt q.1 p)).or bound.head?).map (fun q => (q.2, q.1))

/-- `SRC` and `COPY` are those of an exclusive window, or `SRC` is a member of an arbitrating one. -/
def sourceFits (e : RingEntry) (f : RingFrame) : Bool :=
  if e.kind = .exclusive then f.src == e.owner && f.copy == e.copy else e.members.contains f.src

/-- The send instant lies within ±2 µs of an exclusive window's instant, or in an arbitrating window. -/
def instantFits (e : RingEntry) (p : RingPoint) : Bool :=
  if e.kind = .exclusive then inBasic e p.basic && nearInstant p (instantNs e) else openAt e p

/-- The cause of a discard, or none; `dly` is the frame's `DLY` with the incoming link's delay. (DEDUCED log 40) -/
def judgeData (e : RingEntry) (f : RingFrame) (dly : W16) (p : RingPoint) : Option Nat :=
  if intactFrame f = false then some 5
  else if sourceFits e f = false then some 3
  else if dly = 0xFFFF ∨ instantFits e p = false then some 1
  else if f.seq ≠ BitVec.ofNat 32 p.basic then some 2
  else if f.len ≠ BitVec.ofNat 16 e.len then some 4
  else none

def EntryRec.put (f : RingFrame) (sent at0 : Nat) (x : EntryRec) : EntryRec :=
  let y : RingCopy := { frame := f, sentAt := sent, at0 := at0 }
  if f.copy = 0 then { x with got0 := some y } else { x with got1 := some y }

def frameKey (f : RingFrame) : FrameKey := { typ := f.typ, src := f.src, copy := f.copy, slot := f.slot, seq := f.seq }

/-- A frame is taken; a second pass of it is told by its key while two basic cycles last. (DEDUCED log 40) -/
def Mach.noteTaken (i : RingId) (f : RingFrame) (m : Mach) : Mach :=
  m.updRing i (fun r => { r with
    loopSeen := (frameKey f, m.now) :: r.loopSeen.filter (fun q => q.1 != frameKey f && decide (m.now < q.2 + 2000000)) })

/-- A frame with `LOOP` 1 that has been accepted before (R302). -/
def Mach.secondPass (m : Mach) (i : RingId) (f : RingFrame) : Bool :=
  f.loop && (m.ring i).loopSeen.any (fun q => q.1 == frameKey f && decide (m.now < q.2 + 2000000))

/-- A data frame judged for receipt where its header was read. A frame after settling is not taken. (DEDUCED log 40) -/
def Mach.judgeFrame (i : RingId) (c : RingCfg) (d : Dir) (f : RingFrame) (m : Mach) : Mach :=
  let r := m.ring i
  if r.sync = false ∨ errBy f 19 ∨ ¬(f.typ = 1 ∨ f.typ = 2) then m
  else
    let sent := sendInstant m i d f
    let p := r.at0 sent
    match matchEntry c f p with
    | none => m
    | some (k, e) =>
      match judgeData e f (linkedDly m i d f) p with
      | some n => m.updEntry i k (fun x => { x with rej := satInc x.rej, cause := BitVec.ofNat 4 n })
      | none =>
        if (match (r.entries.getD k {}).windowAt with | some b => decide (p.basic ≤ b) | none => false) then
          (m.updRing i (fun r => { r with late := satInc r.late })).noteRing i 0x6A (BitVec.ofNat 32 k) 0
        else (m.updEntry i k (EntryRec.put f sent m.now)).noteTaken i f

/-- The partner sighted on a ring (R373): a frame with the own `SRC` and the other `COPY`. -/
def Mach.sight (c : RingCfg) (f : RingFrame) (m : Mach) : Mach :=
  if m.paired && f.src == c.node && f.copy != ringCopy m c && !f.aborted && hcrcOk f
  then { m with pair := { m.pair with sightIn := some m.cycleNo } } else m

/-- A join frame heard from another node (R291, R295): its node and copy, and the 64 bits of its station data ID. -/
def Mach.hearJoin (i : RingId) (c : RingCfg) (f : RingFrame) (m : Mach) : Mach :=
  if f.typ = 0xA ∧ intactFrame f ∧ ownFrame m c f = false ∧ ((f.payload.headD 0) >>> 32).setWidth 32 = c.schedId then
    let id := f.payload.getD 1 0
    ((m.noteTaken i f).updRing i (fun r => { r with lastValid := m.now })).postCal
      (mkNotice (evCode 7 0x10) (ringPath i) ((id >>> 32).setWidth 32) (id.setWidth 32) (some m.cycleNo) []
        ((f.copy ++ f.src).setWidth 16))
  else m

/-! ### RING_FRAME_ARRIVE -/

/-- A frame from elsewhere is received: a second pass in loop-back is counted only, a first one is heard or judged. -/
def Mach.receive (i : RingId) (c : RingCfg) (d : Dir) (f : RingFrame) (m : Mach) : Mach :=
  if m.secondPass i f then
    m.updRing i (fun r => { r with loopDup := satInc r.loopDup })
  else (m.hearJoin i c f).judgeFrame i c d f

/-- Ring frames arrive whole: a command's instant is the arrival of the start delimiter, and residence is free. (DESIGN CHOICE log 38) -/
def ringFrameArrive (i : RingId) (d : Dir) (f : RingFrame) (m : Mach) : Mach :=
  match m.ringUsed i with
  | none => m
  | some c =>
    let r := m.ring i
    if (r.port d).service = false ∨ f.typ = 0xB then m
    else
      let m := m.updRing i (fun r => { r with
        lastStart := if d = .west then m.now else r.lastStart, arriveEnd := frameEnd m.now f })
      let m := if f.symErr.isSome then m.noteError i d else m
      if endsPath m c d r f then m.strip i d f
      else
        let m := m.sight c f
        let m := if f.hop.toNat ≥ 253 then m.updPort i d (fun p => { p with hopDrop := satInc p.hopDrop })
          else if f.hop.toNat + 1 = pathModules c f then m
          else m.forward i d f
        m.receive i c d f

/-- RING_FRAME_ARRIVE. -/
def execRingFrameArrive (i : RingId) (d : Dir) (f : RingFrame) (t : Nat) (s : State) : Host.Outcome State Fault Refusal :=
  s.run (fun m => ringFrameArrive i d f (m.tick t))

/-! ### Settling (R273) -/

/-- The receive entries whose windows share a connection in a basic cycle. -/
def connGroup (c : RingCfg) (e : RingEntry) : List (Nat × RingEntry) :=
  ((c.entries.zipIdx).filter (fun q => q.1.rx && q.1.conn == e.conn && q.1.bc == e.bc && q.1.parity == e.parity)).map
    (fun q => (q.2, q.1))

/-- The two newest settlings of a connection stay with its buffers. -/
def addSettled (k : Nat) (x : Settled) (xs : List (Nat × Settled)) : List (Nat × Settled) :=
  let mine := xs.filter (fun q => q.1 == k)
  xs.filter (fun q => q.1 != k) ++ (mine.drop (mine.length - 1)) ++ [(k, x)]

def lastSerial (k : Nat) (xs : List (Nat × Settled)) : Nat :=
  (xs.filter (fun q => q.1 == k)).foldl (fun a q => max a q.2.serial) 0

/-- The copies accepted by a group of entries, in the order of their arrival. (DEDUCED log 40) -/
def copiesGot (r : RingIfc) (group : List (Nat × RingEntry)) : List (Nat × RingCopy) :=
  let got := group.flatMap (fun q =>
    let x := r.entries.getD q.1 {}
    (x.got0.toList ++ x.got1.toList).map (fun y => (q.1, y)))
  got.foldr (fun x xs => xs.takeWhile (fun y => decide (y.2.at0 < x.2.at0)) ++ x :: xs.dropWhile (fun y => decide (y.2.at0 < x.2.at0))) []

/-- A settling: its counters are kept in the entry of the last copy window. (DEDUCED log 40) -/
def Mach.settleEntry (i : RingId) (k : Nat) (e : RingEntry) (group : List (Nat × RingEntry)) (basic : Nat) (m : Mach) : Mach :=
  let r := m.ring i
  let mark (bad : Bool) (m : Mach) : Mach := m.updRing i (fun r => { r with
    entries := (r.entries.zipIdx).map (fun q =>
      if group.any (fun g => g.1 == q.2) then { q.1 with got0 := none, got1 := none, windowAt := some basic, bad := bad }
      else q.1) })
  match copiesGot r group with
  | [] => (m.updEntry i k (fun x => { x with miss := satInc x.miss })) |> mark true
  | (j, x) :: more =>
    let f := x.frame
    if more.any (fun g => g.2.frame.payload != f.payload) then
      let m := m.updEntry i k (fun x => { x with pairDis := satInc x.pairDis, cause := 6 })
      (((mark true m).raise (schedPath i) 2).noteRing i 0x69 (BitVec.ofNat 32 k) (BitVec.ofNat 32 e.msg))
    else
      let y : Settled :=
        { slot := j, typ := f.typ, ver := f.ver, src := f.src, msg := f.msg, len := f.len, payload := f.payload
          basic := basic, sentAt := x.sentAt, at0 := m.now, serial := lastSerial e.conn r.settled + 1 }
      let m := m.updRing i (fun r => { r with settled := addSettled e.conn y r.settled })
      (m.updEntry i k (fun y => { y with
        ok := satInc y.ok, dup := if more.isEmpty then y.dup else satInc y.dup })) |> mark false

/-- Ring entries: what is counted where when a group settles, and the order in which a frame is judged. (DEDUCED log 40) -/
def ringEntrySettle (i : RingId) (k : Nat) (m : Mach) : Mach :=
  match (m.ringUsed i).bind (fun c => (c.entries[k]?).map (fun e => (c, e))) with
  | none => m
  | some (c, e) =>
    let r := m.ring i
    let p := r.at0 m.now
    let group := connGroup c e
    if r.sync = false ∨ e.rx = false ∨ inBasic e p.basic = false then m
    else if group.any (fun q => decide (closesNs e < closesNs q.2)) then m
    else if p.off < closesNs e + c.rtMax * 10 then m
    else if (match (r.entries.getD k {}).windowAt with | some b => decide (p.basic ≤ b) | none => false) then m
    else m.settleEntry i k e group p.basic

/-- RING_ENTRY_SETTLE. -/
def execRingEntrySettle (i : RingId) (k : Nat) (t : Nat) (s : State) : Host.Outcome State Fault Refusal :=
  s.run (fun m => ringEntrySettle i k (m.tick t))

end Sys2Proof.Machine
end

