-- ==== Sys2Proof/Machine/RingSend.lean ====
section
/-! DEFINITION. Sending on a ring (R268 to R274, R294 to R298): the windows of the Tool rests, exclusive and arbitrating windows,
join frames, and the entry into ACTIVE. -/

namespace Sys2Proof.Machine

def Mach.entryOf (m : Mach) (i : RingId) (k : Nat) : Option (RingCfg × RingEntry) :=
  (m.ringUsed i).bind (fun c => (c.entries[k]?).map (fun e => (c, e)))

/-! ### Windows (R263, R270, R296, R297) -/

/-- A window of a synchronised Tool rest opens by the rest's own time: a join or reference window always, the others once a join or cold start it
passed came back. -/
def toolRestWindowOpen (i : RingId) (d : Dir) (k : Nat) (m : Mach) : Mach :=
  match m.entryOf i k with
  | none => m
  | some (c, e) =>
    let x := (m.ring i).rest d
    let p := x.tb.at0 m.now
    let inTime := (e.kind == .reference || inBasic e p.basic) && decide (restOpens e ≤ p.off) && decide (p.off ≤ restCloses e)
    let allowed := e.kind == .join || e.kind == .reference || x.joined
    if x.state = .sync ∧ x.openSlot ≠ some k ∧ (restHolds m c e && inTime && allowed) = true then
      m.updRest i d (fun x => { x with openSlot := some k, opens := satInc x.opens })
    else m

/-- TOOL_REST_WINDOW_OPEN. -/
def execToolRestWindowOpen (i : RingId) (d : Dir) (slot : Nat) (t : Nat) (s : State) : Host.Outcome State Fault Refusal :=
  s.run (fun m => toolRestWindowOpen i d slot (m.tick t))

/-- A window closes: a frame still being sent is cut with the abort delimiter. -/
def toolRestWindowClose (i : RingId) (d : Dir) (k : Nat) (m : Mach) : Mach :=
  match m.entryOf i k with
  | none => m
  | some (_, e) =>
    let x := (m.ring i).rest d
    let p := x.tb.at0 m.now
    let inside := (e.kind == .reference || inBasic e p.basic) && decide (p.off < restCloses e)
    if x.openSlot ≠ some k ∨ inside = true then m
    else
      let m := m.updRest i d (fun x => { x with openSlot := none, sending := none })
      match x.sending with
      | some (j, endAt) =>
        if j = k ∧ m.now < endAt then
          (m.updPort i d (fun q => { q with
            lastTx := q.lastTx.map (fun f => { f with aborted := true }), busyUntil := m.now })).restCut i d k false
        else m
      | none => m

/-- TOOL_REST_WINDOW_CLOSE. -/
def execToolRestWindowClose (i : RingId) (d : Dir) (slot : Nat) (t : Nat) (s : State) : Host.Outcome State Fault Refusal :=
  s.run (fun m => toolRestWindowClose i d slot (m.tick t))

/-- A Tool rest closed after faults is unsynchronised again after 2 matrix cycles. -/
def toolRestReopen (i : RingId) (d : Dir) (m : Mach) : Mach :=
  let x := (m.ring i).rest d
  if x.state = .faulted ∧ x.faultAt + 64000000 ≤ m.now then
    m.updRest i d (fun x => { x with state := .unsync, recent := [], joined := false, tb := x.tb.clear })
  else m

/-- TOOL_REST_REOPEN. -/
def execToolRestReopen (i : RingId) (d : Dir) (t : Nat) (s : State) : Host.Outcome State Fault Refusal :=
  s.run (fun m => toolRestReopen i d (m.tick t))

/-! ### Exclusive windows (R265, R274, R298) -/

/-- The logic cycle of the module that holds a basic cycle (R115). -/
def Mach.cycleOf (m : Mach) (basic : Nat) : W32 := BitVec.ofNat 32 (basic / max m.cycleMs 1)

/-- The window stays silent: a miss of the sending entry. (DEDUCED log 42) -/
def Mach.silentWindow (i : RingId) (k basic : Nat) (m : Mach) : Mach :=
  m.updEntry i k (fun x => { x with miss := satInc x.miss, windowAt := some basic })

/-- Ring start, joining and leaving. (DEDUCED log 42) -/
def exclusiveWindowSend (i : RingId) (k : Nat) (m : Mach) : Mach :=
  match m.entryOf i k with
  | none => m
  | some (c, e) =>
    let r := m.ring i
    let p := r.at0 m.now
    let mine := e.kind == .exclusive && e.tx && e.owner == c.node && e.copy == ringCopy m c
    if mine = false ∨ r.ifc ≠ .active ∨ inBasic e p.basic = false ∨ p.off < instantNs e ∨ closesNs e < p.off
        ∨ (r.entries.getD k {}).windowAt = some p.basic then m
    else if instantNs e + 2000 < p.off then m.silentWindow i k p.basic
    else if m.mayInsert i = false then (if instantNs e + 2000 ≤ p.off then m.silentWindow i k p.basic else m)
    else match (m.cal.vote.held.find? (fun h => h.msg == e.msg && h.cycle == m.cycleOf p.basic)).filter (fun _ => m.handsOver) with
      | none => m.silentWindow i k p.basic
      | some h =>
        let m := { m with cal := { m.cal with vote := { m.cal.vote with held := m.cal.vote.held.filter (fun g => g != h) } } }
        let m := m.updEntry i k (fun x => { x with windowAt := some p.basic })
        let (m, sent) := m.insertFrame i c k e (mkFrame m c 1 0 k p.basic e.msg h.words)
        if sent then m.updEntry i k (fun x => { x with ok := satInc x.ok }) else m

/-- EXCLUSIVE_WINDOW_SEND. -/
def execExclusiveWindowSend (i : RingId) (slot : Nat) (t : Nat) (s : State) : Host.Outcome State Fault Refusal :=
  s.run (fun m => exclusiveWindowSend i slot (m.tick t))

/-! ### Arbitrating windows (R267, R268) -/

/-- The queue in the order of sending: by priority, and oldest first within one. -/
def arbOrder (q : List ArbItem) : List ArbItem :=
  (List.range 16).flatMap (fun p => q.filter (fun x => x.prio.toNat == p))

/-- A queued frame that ends 4 µs before the window's close and within the budget. -/
def arbFits (e : RingEntry) (off used : Nat) (x : ArbItem) : Bool :=
  let line := lineNs (8 * x.words.length)
  decide (off + line + 4000 ≤ closesNs e) && decide (used + line ≤ e.arbBytes * 80)

/-- One insertion in an arbitrating window: the first queued frame that fits. Each further one asks R261 again.
(DEDUCED log 42) -/
def arbitratingWindow (i : RingId) (k : Nat) (m : Mach) : Mach :=
  match m.entryOf i k with
  | none => m
  | some (c, e) =>
    let r := m.ring i
    let p := r.at0 m.now
    if e.kind ≠ .arbitrating ∨ e.members.contains c.node = false ∨ r.ifc ≠ .active ∨ openAt e p = false then m
    else
      let m := m.dropAged i c (m.cycleOf p.basic)
      if m.mayInsert i = false ∨ m.handsOver = false then m
      else
        let used := if r.arbIn = some (k, p.basic) then r.arbUsed else 0
        match (arbOrder (m.ring i).queue).find? (arbFits e p.off used) with
        | none => m
        | some x =>
          let (m, sent) := m.insertFrame i c k e (mkFrame m c 2 x.prio k p.basic x.msg x.words)
          if sent = false then m
          else
            let m := m.updRing i (fun r => { r with
              queue := r.queue.filter (fun y => y.msg != x.msg), arbIn := some (k, p.basic)
              arbUsed := used + lineNs (8 * x.words.length) })
            m.updEntry i k (fun y => { y with ok := satInc y.ok })

/-- ARBITRATING_WINDOW. -/
def execArbitratingWindow (i : RingId) (slot : Nat) (t : Nat) (s : State) : Host.Outcome State Fault Refusal :=
  s.run (fun m => arbitratingWindow i slot (m.tick t))

/-! ### Joining (R294, R295) -/

/-- A join frame in a join window. It comes back intact, or is counted as failed. (DEDUCED log 42) -/
def joinFrameSend (i : RingId) (k : Nat) (returned : Bool) (m : Mach) : Mach :=
  match m.entryOf i k with
  | none => m
  | some (c, e) =>
    let r := m.ring i
    let p := r.at0 m.now
    if e.kind ≠ .join ∨ r.ifc ≠ .joining ∨ r.joinOk = true ∨ openAt e p = false ∨ p.off < instantNs e ∨ m.mayInsert i = false
        ∨ (r.entries.getD k {}).windowAt = some p.basic then m
    else
      let m := m.updEntry i k (fun x => { x with windowAt := some p.basic })
      let id : W64 := match m.sd with
        | some sd => sd.id
        | none => 0
      let f := { mkFrame m c 0xA 0 0 p.basic 0 [c.schedId ++ BitVec.ofNat 32 (p.basic / 32), id] with msg := 0 }
      let (m, sent) := m.insertFrame i c k e f
      if sent = false then m
      else if returned then
        (m.updRing i (fun r => { r with joinOk := true, joinB := p.basic % 2 ^ 32, joinRun := 0 })).updRests i (fun x => { x with
          joined := true })
      else
        let m := (m.updRing i (fun r => { r with joinFail := satInc r.joinFail, joinRun := r.joinRun + 1 })).noteRing i 0x64 0 0
        if (m.ring i).joinRun = 16 then
          m.postCal (mkNotice (evCode 7 0x11) (ringPath i) 16 0 (some m.cycleNo) [])
        else m

/-- JOIN_FRAME_SEND. -/
def execJoinFrameSend (i : RingId) (slot : Nat) (returned : Bool) (t : Nat) (s : State) : Host.Outcome State Fault Refusal :=
  s.run (fun m => joinFrameSend i slot returned (m.tick t))

/-- The interface becomes ACTIVE at the next basic cycle 0; one that started the ring is its time master then.
(DEDUCED log 42) -/
def interfaceActive (i : RingId) (m : Mach) : Mach :=
  match m.ringUsed i with
  | none => m
  | some c =>
    let r := m.ring i
    let p := r.at0 m.now
    if !(r.ifc == .joining || r.ifc == .coldstart) || !r.joinOk || p.basic % 32 != 0
        || !newer (BitVec.ofNat 32 p.basic) (BitVec.ofNat 32 r.joinB) then m
    else
      let start := r.ifc == .coldstart
      m.updRing i (fun r => { r with
        ifc := .active, joinOk := false, mustJoin := false, collRun := 0
        role := if start then 1 else r.role
        masterNode := if start then c.node else r.masterNode, masterCopy := if start then ringCopy m c else r.masterCopy
        masterRank := if start then BitVec.ofNat 3 (ownRank m c) else r.masterRank })

/-- INTERFACE_ACTIVE. -/
def execInterfaceActive (i : RingId) (t : Nat) (s : State) : Host.Outcome State Fault Refusal :=
  s.run (fun m => interfaceActive i (m.tick t))

end Sys2Proof.Machine
end

