-- ==== Sys2Proof/Machine/RingTime.lean ====
section
/-! DEFINITION. The time of a ring (R283 to R293, R446): references, correction, loss of synchronisation, succession, and cold
start. -/

namespace Sys2Proof.Machine

def Mach.updRec (f : Recorder → Recorder) (m : Mach) : Mach := m.updBench (fun b => { b with recd := f b.recd })

/-! ### Station time (R284, R446) -/

/-- Station time in ms at an instant. -/
def Mach.stimeAt (m : Mach) (x : Nat) : Nat := (m.bench.recd.stime + (x - m.bench.recd.stimeAt) / 1000000) % 2 ^ 48

/-- A basic cycle of the time master begins: station time is a whole number of ms further, 1 ms for each basic cycle. -/
def Mach.advanceStime (start : Nat) (m : Mach) : Mach :=
  m.updRec (fun r => { r with stime := (r.stime + (start + 500000 - r.stimeAt) / 1000000) % 2 ^ 48, stimeAt := start })

/-- A set value goes out in the first reference sent at least 2 ms after the write. (DEDUCED log 39) -/
def Mach.applyTimeSet (start : Nat) (m : Mach) : Mach :=
  match m.bench.recd.setPending with
  | some (v, w) =>
    if w + 2000000 ≤ m.now then
      m.updRec (fun r => { r with stime := v, stimeAt := start, stimeOk := true, okAt := m.now, setPending := none })
    else m
  | none => m

/-! ### The reference frame (R284) -/

/-- Station time and `STIME_OK` as a master's reference carries them: the Bench's, or on a slaved ring those of the ring it follows.
(DEDUCED log 118) -/
def Mach.stimeSent (m : Mach) (i : RingId) (c : RingCfg) (basic start : Nat) : Nat × Bool :=
  let o := m.ring (otherRing i)
  match (if !c.lead && o.sync && o.role != 1 then o.stimeRef else none) with
  | some (b, t, ok) => ((t + (basic + basicMod - b) % basicMod) % 2 ^ 48, ok)
  | none => (m.stimeAt start, m.bench.recd.stimeOk)

def refPayload (m : Mach) (i : RingId) (c : RingCfg) (basic start : Nat) (looped : Bool) : List W64 :=
  let st := m.stimeSent i c basic start
  [ BitVec.ofNat 64 (basic / 32 % 2 ^ 32 * 2 ^ 32 + basic % 32 * 2 ^ 27 + ownRank m c * 2 ^ 24 + bitOf looped * 2 ^ 23
      + (c.node.toNat / 256) * 2 ^ 12),
    c.schedId ++ (0 : W32),
    BitVec.ofNat 64 (st.1 * 2 ^ 16 + bitOf st.2) ]

def refLooped (f : RingFrame) : Bool := (f.payload.headD 0).getLsbD 23
def refRing (f : RingFrame) : Nat := ((f.payload.headD 0).toNat / 2 ^ 12) % 16
def refSched (f : RingFrame) : W32 := ((f.payload.getD 1 0) >>> 32).setWidth 32
def refStime (f : RingFrame) : Nat := (f.payload.getD 2 0).toNat / 2 ^ 16
def refStimeOk (f : RingFrame) : Bool := (f.payload.getD 2 0).getLsbD 0

/-- The timebase of a slaved ring's master corrects toward a reference of the ring that it follows, and takes its count from it (R287).
One that stands more than half a basic cycle off starts afresh. (DEDUCED log 118) -/
def TimeBase.slaved (lim : Int) (basic refStart : Nat) (x : TimeBase) : TimeBase :=
  let y := x.onTo basic
  if (basic + basicMod - x.count) % basicMod ≤ 64 ∧ y.start ≤ refStart + 500000 ∧ refStart ≤ y.start + 500000 then
    { y.correct lim refStart with errRun := 0 }
  else { x.first basic refStart with live := x.live }

/-- A reference of one ring at the module's other ring, where that is slaved and the module its master or starting it. -/
def Mach.slaveFollows (i : RingId) (basic refStart : Nat) (m : Mach) : Mach :=
  let j := otherRing i
  let r := m.ring j
  if ((m.ringUsed j).any (fun c => !c.lead) && (r.ifc == .coldstart || (r.role == 1 && r.ifc == .active))) = true then
    m.updRing j (fun r => { r with tb := r.tb.slaved (rateLim m) basic refStart })
  else m

/-- The module's own reference or coldstart frame for the basic cycle at which the timebase `tb` stands; ring time and the lanes stand at
it. `LOOPED` tells of the frame before, whose return it ends to await (R303). -/
def Mach.sendRef (i : RingId) (c : RingCfg) (typ : BitVec 4) (tb : TimeBase) (m : Mach) : Mach :=
  let m := m.advanceStime tb.start
  let m := if c.lead then m.applyTimeSet tb.start else m
  let f := mkFrame m c typ 0 0 tb.count 0 (refPayload m i c tb.count tb.start (m.ring i).ownLooped)
  let (m, _) := m.insertRef i c f
  let m := m.updRing i (fun r => { r with
    tb := { tb with missRun := 0, errRun := 0 }, ownLooped := false, refOut := some tb.count
    csOut := if typ = 9 then some m.now else r.csOut })
  if (m.ring i).sync then (m.lanesFollow i (TimeBase.follow (rateLim m) tb.count tb.start)).slaveFollows i tb.count tb.start else m

/-! ### The time master (R283, R284, R287, R289) -/

def Mach.newMaster (i : RingId) (node : BitVec 12) (copy : BitVec 1) (rank : Nat) (m : Mach) : Mach :=
  let r := m.ring i
  if r.masterNode = node ∧ r.masterCopy = copy then m.updRing i (fun r => { r with masterRank := BitVec.ofNat 3 rank })
  else
    let first := r.masterNode = 0
    let m := m.updRing i (fun r => { r with masterNode := node, masterCopy := copy, masterRank := BitVec.ofNat 3 rank })
    if first then m
    else ((m.updRing i (fun r => { r with successions := satInc r.successions })).raise (ringPath i) 12).noteRing i 0x62
      ((copy ++ node).setWidth 32) (BitVec.ofNat 32 rank)

/-- The master's reference at 4.00 µs of a basic cycle; a cold start's first matrix cycle is of coldstart frames, each sent only
once the one before came back. -/
def referenceSend (i : RingId) (m : Mach) : Mach :=
  match m.ringUsed i with
  | none => m
  | some c =>
    let r := m.ring i
    let p := r.at0 m.now
    let starts := r.ifc == .coldstart
    if !(starts || (r.role == 1 && r.ifc == .active)) || ownRank m c == 0 || r.refOut == some p.basic || decide (m.now < r.tb.start)
        || decide (p.off < 4000) || decide (10000 < p.off) || (starts && r.csOut.isSome) || !m.mayInsert i then m
    else
      let m := if starts ∧ p.basic % 32 = 0 then
          (m.updRing i (fun r => { r with role := 1 })).newMaster i c.node (ringCopy m c) (ownRank m c) else m
      m.sendRef i c (if (m.ring i).role = 1 then 8 else 9) (r.tb.onTo p.basic)

/-- REFERENCE_SEND. -/
def execReferenceSend (i : RingId) (t : Nat) (s : State) : Host.Outcome State Fault Refusal :=
  s.run (fun m => referenceSend i (m.tick t))

/-- Rank 2 sends in the basic cycle after one missed reference, rank 3 after two; the sender becomes time master. -/
def successionReference (i : RingId) (m : Mach) : Mach :=
  match m.ringUsed i with
  | none => m
  | some c =>
    let r := m.ring i
    let k := ownRank m c
    if r.ifc ≠ .active ∨ r.role = 1 ∨ ¬(k = 2 ∨ k = 3) ∨ r.tb.missRun < k - 1 ∨ m.now < r.nextStart + 4000
        ∨ r.nextStart + 10000 < m.now ∨ m.mayInsert i = false then m
    else
      let m := ((m.updRing i (fun r => { r with role := 1, ownLooped := false })).newMaster i c.node (ringCopy m c) k)
      m.sendRef i c 8 r.tb.advance

/-- SUCCESSION_REFERENCE. -/
def execSuccessionReference (i : RingId) (t : Nat) (s : State) : Host.Outcome State Fault Refusal :=
  s.run (fun m => successionReference i (m.tick t))

/-! ### Acceptance and correction (R285, R286, R288, R290, R294) -/

/-- The checks of R285 that ask nothing of the own ring time. -/
def refValid (m : Mach) (c : RingCfg) (f : RingFrame) : Bool :=
  intactFrame f && (f.typ == 8 || f.typ == 9) && !ownFrame m c f &&
    c.coldstarts.any (fun k => k.node == f.src && k.copy == f.copy && decide (k.rank = refRank f)) &&
    refSched f == c.schedId && decide (refRing f = c.node.toNat / 256)

/-- Valid basic cycles count from index 0; a whole matrix cycle of them lets the interface join. A second reference in the same window
(`again`) is judged in place of the first. -/
def RingIfc.countValid (again : Bool) (r : RingIfc) : RingIfc :=
  if r.ifc ≠ .integrate then r
  else
    let was := if again then r.valid0 else r.validRun
    let n := if farOff r.tb.offset then 0 else if r.bc = 0 then 1 else if was = r.bc then r.bc + 1 else 0
    { r with validRun := n, valid0 := was, ifc := if n = 32 then .joining else .integrate }

/-- The last reference that a synchronised interface accepted carried station time. -/
def RingIfc.givesStime (r : RingIfc) : Bool := r.sync && r.stimeRef.any (fun q => q.2.2)

/-- Station time from a reference, the interface of `TIME_IF` before the other; it clears `CLK_LOST` (R419, R446).
(DEDUCED log 43) -/
def Mach.takeStime (i : RingId) (f : RingFrame) (start : Nat) (m : Mach) : Mach :=
  let m := m.updRing i (fun r => { r with stimeRef := some (refBasic f, refStime f, refStimeOk f) })
  let main := m.timeIf
  if m.bench.up && refStimeOk f && (i == main || !(m.ring main).givesStime) then
    (m.updRec (fun r => { r with stime := refStime f, stimeAt := start, stimeOk := true, okAt := m.now })).updBench (fun b =>
      { b with clkLost := false })
  else m

/-- A master or backup that accepts a reference of lower rank sends no more. -/
def Mach.yieldMaster (i : RingId) (c : RingCfg) (f : RingFrame) (m : Mach) : Mach :=
  if (m.ring i).role = 1 ∧ refRank f < ownRank m c then
    m.updRing i (fun r => { r with role := 2 }) else m

/-- An accepted reference's effect beside ring time: the lanes and a slaved ring follow it, it may bring station time, and it is not
accepted again on its second pass. -/
def Mach.followRef (i : RingId) (f : RingFrame) (refStart : Nat) (step : TimeBase → TimeBase) (m : Mach) : Mach :=
  (((m.noteTaken i f).lanesFollow i step).slaveFollows i (refBasic f) refStart).takeStime i f refStart

/-- A reference taken while synchronised, in the basic cycle at which the timebase `tb` stands. (DEDUCED log 42) -/
def Mach.takeRef (i : RingId) (c : RingCfg) (f : RingFrame) (again : Bool) (tb : TimeBase) (refStart : Nat) (m : Mach) : Mach :=
  let lim := rateLim m
  let m := (m.yieldMaster i c f).newMaster i f.src f.copy (refRank f)
  let m := m.updRing i (fun r => RingIfc.countValid again { r with
    tb := tb.correct lim refStart, looped := refLooped f, lastValid := m.now, lastRef := m.now })
  let m := m.followRef i f refStart (TimeBase.follow lim (refBasic f) refStart)
  if 3 ≤ (m.ring i).tb.errRun then m.syncLost i else m

/-- The first reference or coldstart frame that an interface accepts gives it its ring time. -/
def Mach.firstRef (i : RingId) (c : RingCfg) (f : RingFrame) (refStart : Nat) (m : Mach) : Mach :=
  let m := m.newMaster i f.src f.copy (refRank f)
  let m := m.updRing i (fun r => RingIfc.countValid false { r with
    ifc := .integrate, tb := r.tb.first (refBasic f) refStart
    role := if ownRank m c = 0 then 0 else 2, looped := refLooped f, validRun := 0
    lastValid := m.now, lastRef := m.now, collRun := 0 })
  (m.followRef i f refStart (TimeBase.first (refBasic f) refStart)).syncGained i

/-- REFERENCE_ACCEPT's effect for a frame that arrives at a port: the Tool rests judge it by their own time, the interface by its own. -/
def referenceAccept (i : RingId) (d : Dir) (f : RingFrame) (m : Mach) : Mach :=
  match m.ringUsed i with
  | none => m
  | some c =>
    let r := m.ring i
    if refValid m c f = false ∨ linkedDly m i d f = 0xFFFF ∨ m.secondPass i f then m
    else
      let refStart := sendInstant m i d f - 4000
      let m := m.updRests i (ToolRest.follow (rateLim m) (refBasic f) refStart (refRank f))
      match r.ifc with
      | .down => m
      | .coldstart => (m.noteTaken i f).updRing i (fun r => { r with lastValid := m.now, lastRef := m.now })
      | .listen | .backoff => m.firstRef i c f refStart
      | _ =>
        if r.role = 1 ∧ ownRank m c ≤ refRank f then m
        else if refBasic f = (r.count + 1) % basicMod ∧ nearNs r.nextStart refStart = true then
          m.takeRef i c f false r.tb.advance refStart
        else if refBasic f = r.count ∧ nearNs r.tb.start refStart = true ∧ refRank f < r.masterRank.toNat then
          m.takeRef i c f true r.tb refStart
        else m

/-- REFERENCE_ACCEPT. -/
def execReferenceAccept (i : RingId) (d : Dir) (f : RingFrame) (t : Nat) (s : State) : Host.Outcome State Fault Refusal :=
  s.run (fun m => referenceAccept i d f (m.tick t))

/-! ### Missed references (R286, R288, R296) -/

/-- A basic cycle of a Tool rest's own time ended without a reference at its receiver. -/
def ToolRest.miss (now rtNs : Nat) (x : ToolRest) : ToolRest :=
  if x.state ≠ .sync ∨ now < x.tb.nextStart + 10000 + rtNs then x
  else
    let x := { x with tb := x.tb.miss }
    if x.tb.lost then x.lose else x

/-- A basic cycle without an accepted reference: the timebase runs on at its rate; after three the interface loses
synchronisation. The Tool rests count by themselves. -/
def referenceMissed (i : RingId) (m : Mach) : Mach :=
  match m.ringUsed i with
  | none => m
  | some c =>
    let r := m.ring i
    let m := m.updRests i (ToolRest.miss m.now (c.rtMax * 10))
    if r.sync = false ∨ r.role = 1 ∨ r.ifc = .coldstart ∨ m.now < r.nextStart + 10000 + c.rtMax * 10 then m
    else
      let m := (m.updRing i (fun r => { r with
        tb := r.tb.miss, missed := satInc r.missed, validRun := 0 })).noteRing i 0x60 0 0
      if 3 ≤ (m.ring i).tb.missRun then m.syncLost i else m

/-- REFERENCE_MISSED. -/
def execReferenceMissed (i : RingId) (t : Nat) (s : State) : Host.Outcome State Fault Refusal :=
  s.run (fun m => referenceMissed i (m.tick t))

/-! ### Cold start (R291 to R293) -/

/-- The first matrix cycle of a cold start. -/
def firstMatrix (now : Nat) (r : RingIfc) : W32 :=
  match r.held with
  | some h => h + BitVec.ofNat 32 ((now - r.heldAt) / 32000000) + 2
  | none => 0

/-- A coldstart interface that listened through 64 ms starts the ring; on a slaved ring at a basic cycle 0 of the ring it
follows. (DEDUCED log 42) -/
def coldstartListenEnd (i : RingId) (m : Mach) : Mach :=
  match m.ringUsed i with
  | none => m
  | some c =>
    let r := m.ring i
    let o := m.ring (otherRing i)
    let q := o.at0 m.now
    let slaved := !c.lead
    if r.ifc ≠ .listen ∨ ownRank m c = 0 ∨ r.mustJoin = true ∨ r.east.service = false ∨ r.west.service = false
        ∨ m.now < r.lastValid + 64000000 ∨ m.now < r.lastStart + c.rtMax * 10 ∨ m.mayInsert i = false
        ∨ (slaved && (!o.sync || q.basic % 32 != 0 || decide (q.off < 4000) || decide (10000 < q.off))) = true then m
    else
      let basic := if slaved then q.basic else (firstMatrix m.now r).toNat * 32
      let start := if slaved then m.now - q.off else m.now - 4000
      let m := m.updRing i (fun r => { r with
        ifc := .coldstart, coldstarts := satInc r.coldstarts, startedAt := m.now, joinOk := false, ownLooped := false })
      m.sendRef i c 9 { r.tb.first basic start with live := r.tb.live, offset := r.tb.offset }

/-- COLDSTART_LISTEN_END. -/
def execColdstartListenEnd (i : RingId) (t : Nat) (s : State) : Host.Outcome State Fault Refusal :=
  s.run (fun m => coldstartListenEnd i (m.tick t))

/-- Another module's frame, or an own one that did not come back within `RT_MAX`, stops a cold start.
(DEDUCED log 42) -/
def coldstartCollision (i : RingId) (m : Mach) : Mach :=
  match m.ringUsed i with
  | none => m
  | some c =>
    let r := m.ring i
    let lost := match r.csOut with
      | some x => decide (x + c.rtMax * 10 ≤ m.now)
      | none => false
    if r.ifc = .coldstart ∧ (decide (r.startedAt < r.lastRef) || lost) = true then
      let m := (m.updRing i (fun r => { r.keepCount m.now with
        ifc := .backoff, role := 2, startedAt := m.now, collisions := satInc r.collisions, collRun := r.collRun + 1
        tb := r.tb.clear, csOut := none, joinOk := false, masterNode := 0, masterCopy := 0, masterRank := 0 })).noteRing i 0x63 0 0
      if (m.ring i).collRun = 8 then m.postCal (mkNotice (evCode 7 0x12) (ringPath i) 8 0 (some m.cycleNo) []) else m
    else m

/-- COLDSTART_COLLISION. -/
def execColdstartCollision (i : RingId) (t : Nat) (s : State) : Host.Outcome State Fault Refusal :=
  s.run (fun m => coldstartCollision i (m.tick t))

/-- The backoff: the ring position × 3.9 µs, and 1.95 µs more for copy 1. -/
def backoffNs (m : Mach) (c : RingCfg) : Nat := c.node.toNat % 256 * 3900 + (if ringCopy m c = 1 then 1950 else 0)

/-- Ring start, joining and leaving. (DEDUCED log 42) -/
def coldstartBackoffEnd (i : RingId) (m : Mach) : Mach :=
  match m.ringUsed i with
  | none => m
  | some c =>
    let r := m.ring i
    if r.ifc = .backoff ∧ r.startedAt + backoffNs m c ≤ m.now then
      m.updRing i (fun r => { r with ifc := .listen, lastValid := m.now }) else m

/-- COLDSTART_BACKOFF_END. -/
def execColdstartBackoffEnd (i : RingId) (t : Nat) (s : State) : Host.Outcome State Fault Refusal :=
  s.run (fun m => coldstartBackoffEnd i (m.tick t))

end Sys2Proof.Machine
end

