-- ==== Sys2Proof/Machine/PageBodies.lean ====
section
/-! DEFINITION. The page bodies of the lanes, Callipers and the field section (R131, R163, R185 to R188, R213 to R217, R237, R250,
R432): each register word of a page with its offset. A word not listed reads 0. -/

namespace Sys2Proof.Machine

/-- The words of a page body by offset. -/
abbrev Body := List (Nat × W32)

/-- Two 16-bit fields: [15:0] and [31:16]. -/
def pack16 (lo hi : W16) : W32 := hi ++ lo

def word {w : Nat} (x : BitVec w) : W32 := x.setWidth 32

def loWord (x : W64) : W32 := x.setWidth 32
def hiWord (x : W64) : W32 := (x >>> 32).setWidth 32

/-- The set in force, as the register tables count it: nothing before CONFIG. -/
def Mach.configured (m : Mach) : Bool := m.sd.isSome

/-! ### The Copier (R131) -/

def phaseCode : Phase → Nat
  | .asleep => 0 | .wake => 1 | .sampling => 2 | .exchange => 3 | .run => 4 | .handover => 5 | .mirror => 6
  | .sleepEntry => 7

def copierBody (phase : Phase) (x : Lane) : Body :=
  let c := x.cop
  [(0x020, fields [(0, c.cycleMs.toNat), (8, c.dlPct.toNat), (16, c.grain.toNat)]),
   (0x024, word c.rows), (0x028, word c.timers), (0x02C, word c.dl), (0x030, word c.predClose),
   (0x034, fields [(0, phaseCode phase), (3, bitOf (c.holdSrc != 0)), (4, bitOf c.lastOk)]),
   (0x038, word c.rowPtr), (0x03C, c.cycleNo), (0x040, word c.lastClose), (0x044, word c.lastHo),
   (0x048, word c.lastSleep), (0x04C, fields [(0, c.faultCause.toNat), (8, c.faultRow.toNat)]),
   (0x050, word c.faults), (0x054, fields [(0, c.holdSrc.toNat), (8, c.holdOverride.toNat)]), (0x058, word c.rate),
   (0x064, c.snap.cycles), (0x068, word c.snap.closeMin), (0x06C, word c.snap.closeMax),
   (0x070, word c.snap.awakeMax)]

/-! ### Lane memories (R432) -/

/-- Regions that fell due before the lane's last T0 and were not tested by it (R428). -/
def sanderLag (x : Lane) : W16 :=
  if x.snd.nextDue < x.t0 then satOf 16 ((x.t0 - x.snd.nextDue) / 125000000 + 1) else 0

def memoriesBody (x : Lane) : Body :=
  let s := x.snd
  [(0x020, pack16 s.corr s.uncorr), (0x024, word s.lastCorr), (0x028, word s.pos), (0x02C, pack16 s.passes (sanderLag x)),
   (0x030, pack16 s.passMin s.findings), (0x034, fields [(0, s.lastRegion.toNat), (18, s.lastKind.toNat)]),
   (0x038, word s.spares)]

/-! ### Agreement (R163) -/

def lifeCode : LaneLife → Nat
  | .out => 0 | .restart => 1 | .sync => 2 | .voting => 3

/-- Minutes until the oldest counted attempt leaves the window. (DESIGN CHOICE log 85) -/
def nextAttemptMin (now : Nat) (a : Agreement) : Nat :=
  match (a.recentAttempts now).getLast? with
  | some t => min 1440 ((t + dayNs - now + 59999999999) / 60000000000)
  | none => 0

def exclNow (m : Mach) (l : LaneId) : BitVec 3 := maskOf (fun o => m.excludes l o)

/-- The words that the supply supervisor serves while it holds the lane in reset. -/
def agreementHeld (m : Mach) (l : LaneId) : Body :=
  let a := (m.lane l).agr
  [(0x020, fields [(0, lifeCode a.life), (2, m.votingMask.toNat), (5, bitOf a.probe)]),
   (0x024, word a.outCause), (0x028, a.outCycle),
   (0x02C, fields [(0, (a.recentAttempts m.now).length), (2, bitOf a.locked), (8, nextAttemptMin m.now a)])]

def agreementBody (m : Mach) (l : LaneId) : Body :=
  let a := (m.lane l).agr
  agreementHeld m l ++ (if a.held then [] else
    [(0x030, word a.rejoinMs),
     (0x034, fields [(0, a.intact.toNat), (4, a.accept.toNat), (8, (exclNow m l).toNat), (12, a.sysDig.toNat)]),
     (0x038, pack16 a.skewLo a.skewHi), (0x03C, fields [(0, a.div.length), (8, a.divPeak.toNat)]),
     (0x040, word a.divOver), (0x044, fields [(0, a.injCore.toNat), (8, a.injEng.toNat)]), (0x048, word a.outs),
     (0x04C, word a.rejoins), (0x064, a.snap.minorA), (0x068, a.snap.minorB), (0x06C, a.snap.minorC),
     (0x070, a.snap.twoImg), (0x074, a.snap.restrict), (0x078, a.snap.injOk)])

/-! ### Callipers (R185 to R188) -/

def voterBody (m : Mach) : Body :=
  let v := m.cal.vote
  let probes : BitVec 3 := if m.handsOver then maskOf (fun l => (m.lane l).agr.sync == .probing && m.life l == .sync) else 0
  [(0x020, fields [(0, v.cfgMsgs.toNat), (16, v.cfgWords.toNat)]), (0x024, fields [(0, m.votingMask.toNat), (4, probes.toNat)]),
   (0x028, fields [(0, v.lastMsg.toNat), (12, v.lastWord.toNat), (22, v.lastKind.toNat), (24, v.lastLane.toNat)]),
   (0x02C, v.lastCycle), (0x030, word v.skew)]

def driveMonBody (m : Mach) : Body :=
  let o := m.cal.odm
  [(0x020, word o.voted), (0x024, word o.weak), (0x028, word o.lost), (0x02C, word o.stray),
   (0x030, fields [(0, bitOf o.tripped), (8, o.trips.toNat)])]

def selfCheckBody (m : Mach) : Body :=
  let c := m.cal.csc
  [(0x020, word c.injPos), (0x024, c.injOk), (0x028, fields [(0, c.clk.a.toNat), (8, c.clk.b.toNat), (16, c.clk.c.toNat)]),
   (0x02C, word c.haltCause), (0x030, c.haltCycle)]

def voteStatsBody (m : Mach) : Body :=
  let s := m.cal.vote.snap
  [(0x024, s.cycles), (0x028, s.released), (0x02C, s.discard), (0x030, s.outv.a), (0x034, s.outv.b), (0x038, s.outv.c),
   (0x03C, s.absent.a), (0x040, s.absent.b), (0x044, s.absent.c), (0x048, word s.skewMax)]

/-! ### Field inputs (R213 to R217) -/

def diBody (m : Mach) (n : Nat) : Body :=
  let x := m.field.di.getD n {}
  let cfg := match m.diCfg n with
    | some c => fields [(0, bitOf c.used), (1, c.mon), (3, if c.mon = 2 then c.src.getD 0 else 0), (5, c.capt), (7, bitOf c.cos),
        (8, filtN c), (18, bitOf c.enc)]
    | none => 0
  [(0x020, cfg),
   (0x024, fields [(0, bitOf x.level), (1, bitOf x.raw), (2, bitOf (frameValid m n x)), (3, bitOf (x.latch || x.unusable)),
     (4, x.fault.toNat), (8, x.fcnt.toNat), (18, x.tseq.toNat)]),
   (0x028, word x.cond), (0x02C, pack16 x.cosCnt x.faults)]

def aiBody (m : Mach) (n : Nat) : Body :=
  let x := m.field.ai.getD n {}
  let cfg := match m.sd.bind (fun sd => sd.ai[n]?) with
    | some c => fields [(0, bitOf c.used), (1, c.thrs.length % 8)]
    | none => 0
  [(0x020, cfg), (0x028, word x.code),
   (0x02C, fields [(0, bitOf x.valid), (1, x.fault.toNat), (4, bitOf (x.latch || x.unusable)), (16, x.faults.toNat)]),
   (0x030, pack16 x.refLo x.refHi)]

/-- A pulse source feeds at least one channel. -/
def psUsed (m : Mach) (k : Nat) : Bool :=
  m.sd.any (fun sd => sd.di.any (fun c => c.used && c.mon == 2 && c.src == some k))

def psBody (m : Mach) (k : Nat) : Body :=
  let x := m.field.ps.getD k {}
  [(0x020, fields [(0, bitOf (psUsed m k)), (1, bitOf x.fault), (2, x.cause.toNat), (8, x.ma.toNat), (16, x.faults.toNat)])]

def encUsed (m : Mach) : Bool := diEnc m 46 || diEnc m 47

def encBody (m : Mach) : Body :=
  let e := m.field.enc
  [(0x020, fields [(0, bitOf (encUsed m)), (1, bitOf e.valid), (2, bitOf e.illegal), (3, bitOf e.overfreq), (8, e.illCnt.toNat)]),
   (0x024, e.count), (0x028, word e.speed)]

/-- No fresh monitor frame reaches the lanes (R210): none in two of the monitor's samples. (DEDUCED log 96) -/
def fsmSilent (m : Mach) : Bool := m.field.fsm.pubAt.any (fun t => decide (t + 200000 < m.now))

/-- An analogue channel's result group: `READY` is 0 while an integration of 200 µs runs, which ends 1.0 ms after the last (R207).
(DEDUCED log 95) -/
def aiGroup (m : Mach) (x : AiCh) : ResultGroup :=
  let runs := m.fieldRuns && x.convAt.any (fun t => decide (t + 800000 ≤ m.now))
  { x.group with ready := x.group.ready && !runs }

def fsmBody (m : Mach) : Body :=
  let f := m.field.fsm
  let band := if m.configured then m.thrBand else (0, 0)
  [(0x020, pack16 f.volt f.vmin),
   (0x024, fields [(0, bitOf f.low), (1, bitOf f.sag), (2, bitOf f.rev), (3, bitOf f.high), (4, bitOf f.pinned),
     (5, bitOf f.edge), (6, bitOf f.release), (7, bitOf (fsmSilent m)), (16, f.sags.toNat)]),
   (0x028, fields [(0, f.thrOn.toNat), (8, band.1), (16, band.2)])]

/-! ### Safety outputs and protection (R237, R250) -/

/-- R237: OUT.STATE.TPOLE keeps the pole tested last while no pulse runs, and code 0x7 is not counted in OUT.FAULTS. (DESIGN CHOICE log 111) -/
def outBody (m : Mach) (n : Nat) : Body :=
  let x := m.field.out.getD n {}
  let cfg := match m.outCfg n with
    | some c => fields [(0, bitOf c.used), (1, bitOf c.ored), (2, bitOf c.old), (8, outImin c % 512)]
    | none => 0
  let test := match x.test with
    | none => 0
    | some .dark => 1
    | some .light => 2
  [(0x020, cfg),
   (0x024, fields [(0, bitOf x.cmd), (1, bitOf x.pos), (2, bitOf x.neg), (3, bitOf x.avail), (4, bitOf x.armed),
     (5, bitOf (x.latch || x.unusable)), (6, bitOf x.fold), (8, x.fault.toNat), (12, test), (14, bitOf (x.tpole == .neg))]),
   (0x028, pack16 x.vpos x.vneg), (0x02C, fields [(0, x.cur.toNat), (16, x.temp.toNat)]),
   (0x030, pack16 x.done x.disc),
   (0x034, fields [(0, bitOf x.posOk), (1, bitOf x.negOk), (8, x.posAge.toNat), (16, x.negAge.toNat)]),
   (0x038, fields [(0, x.faults.toNat), (16, x.xconn.toNat)]), (0x03C, word x.ipeak)]

def pfKindCode : PfKind → Nat
  | .estop => 1 | .gate => 2 | .twoButton => 3 | .curtain => 4 | .safeStop => 5

def Mach.pfCfg (m : Mach) (k : Nat) : Option PfCfg := m.sd.bind (fun sd => sd.pf[k]?)

/-- The committed block of an instance, in true grain. -/
def pfBlockNow (m : Mach) (c : PfCfg) : W32 := (m.lane m.viewLane).trueWord (m.grain m.viewLane) (c.base / 32)

def chanField (c : Option Nat) : Nat := c.getD 0x3F

def guardWord (c : PfCfg) (from0 : Nat) : W32 :=
  fields ((List.range 4).map (fun k => (8 * k, (c.guard.getD (from0 + k) none).getD 0x1F)))

def pfBody (m : Mach) (k : Nat) : Body :=
  let x := m.field.pf.getD k {}
  match m.pfCfg k with
  | none => [(0x024, 0x3F3F3F3F), (0x028, 0x00003F3F), (0x030, 0x1F1F1F1F), (0x034, 0x1F1F1F1F), (0x03C, pack16 x.trips x.faults)]
  | some c =>
    [(0x020, fields [(0, pfKindCode c.kind), (3, bitOf c.anti), (4, bitOf c.reset.isSome), (5, bitOf c.lock.isSome),
       (8, if c.kind = .safeStop then 0 else c.tdisc.getD 100)]),
     (0x024, fields [(0, chanField c.chA), (8, chanField c.chB), (16, chanField c.chC), (24, chanField c.chD)]),
     (0x028, fields [(0, chanField c.reset), (8, chanField c.lock)]),
     (0x02C, fields [(0, c.base), (16, if c.kind = .twoButton then c.ackmax.getD 5000 else 0)]),
     (0x030, guardWord c 0), (0x034, guardWord c 4), (0x038, pfBlockNow m c), (0x03C, pack16 x.trips x.faults)] ++
    (if c.kind = .safeStop then
      [(0x040, fields [(0, c.vmax)]), (0x044, fields [(0, c.vlim0)]), (0x048, fields [(0, c.decel)]), (0x04C, fields [(0, c.vss)]),
       (0x050, fields [(0, c.tdelay), (16, c.tss)]), (0x054, fields [(0, c.tmax)]), (0x058, word x.limit), (0x05C, word x.speed)]
    else [])

end Sys2Proof.Machine
end

