-- ==== Sys2Proof/Machine/PageNets.lean ====
section
/-! DEFINITION. The page bodies of the communications units (R277 to R279, R306, R328, R341, R365 to R367, R389). -/

namespace Sys2Proof.Machine

/-! ### Rings (R277 to R279, R306) -/

def portBody (p : RingPort) : Body :=
  [(0x020, fields [(0, bitOf p.up), (1, bitOf p.fx), (2, bitOf p.loop)]), (0x024, pack16 p.linkDly p.resMax), (0x028, p.fwd),
   (0x02C, p.inserted), (0x030, pack16 p.abortHere p.abortUp), (0x034, pack16 p.hopDrop p.stripBad),
   (0x038, fields [(0, p.lastCause.toNat), (4, p.lastSrc.toNat)]), (0x03C, word p.ibufPeak)]

def restCode : RestState → Nat
  | .closed => 0 | .unsync => 1 | .sync => 2 | .faulted => 3

def restBody (x : ToolRest) : Body :=
  [(0x020, fields [(0, restCode x.state)]), (0x024, pack16 (satInt 16 (x.tb.offset / 10)) (satInt 16 x.tb.rate)), (0x028, x.opens), (0x02C, pack16 x.cuts x.refused),
   (0x030, fields [(0, x.fwdCut.toNat), (16, x.lastSlot.toNat)]), (0x034, x.schedCrc)]

def slotKindCode : SlotKind → Nat
  | .free => 0 | .reference => 1 | .exclusive => 2 | .arbitrating => 3 | .join => 4

def parityCode : Parity → Nat
  | .every => 0 | .even => 1 | .odd => 2

/-- A receive entry's connection is timed out in the lane whose view the Bench takes. -/
def entryTimedOut (m : Mach) (i : RingId) (e : RingEntry) : Bool :=
  e.rx && ((commRing i (m.lane m.viewLane).comm).getD ((ringConns (ringEntries m i)).idxOf e.conn) {}).timedOut

/-- The words of the selected entry. -/
def entryBody (m : Mach) (i : RingId) (k : Nat) : Body :=
  match (ringEntries m i)[k]? with
  | none => []
  | some e =>
    let x := (m.ring i).entries.getD k {}
    let named := e.kind == .reference || e.kind == .exclusive
    let sends := (m.ringUsed i).any (fun c => restHolds m c e)
    [(0x040, fields [(0, slotKindCode e.kind), (3, bitOf sends), (4, bitOf e.rx), (5, e.copy.toNat), (6, parityCode e.parity),
       (8, e.bc), (16, if e.rx then e.conn else 0)]),
     (0x044, fields [(0, if named then e.owner.toNat else 0), (12, e.msg), (24, e.prio.toNat)]),
     (0x048, fields [(0, e.instant)]),
     (0x04C, fields [(0, e.len), (16, if e.rx then rxTmoMs m i e else 0)]),
     (0x050, fields [(0, bitOf (e.rx && !entryTimedOut m i e)), (4, x.cause.toNat)]),
     (0x054, x.ok), (0x058, pack16 x.rej x.miss), (0x05C, pack16 x.dup x.pairDis), (0x060, word x.tmo)]

def scheduleBody (m : Mach) (i : RingId) (k : Nat) : Body :=
  let r := m.ring i
  let c := m.ringUsed i
  [(0x020, match c with
     | some c => fields [(0, c.node.toNat), (12, (ringCopy m c).toNat), (13, bitOf c.pair)]
     | none => 0),
   (0x024, c.elim 0 (fun c => c.schedId)),
   (0x028, fields [(0, c.elim 0 (fun c => c.rtMax)), (16, r.arbDrop.toNat)]), (0x02C, r.rsMatrix)] ++ entryBody m i k

def ringIfCode : RingIf → Nat
  | .down => 0 | .listen => 1 | .coldstart => 2 | .backoff => 3 | .integrate => 4 | .joining => 5 | .active => 6

def ringGroupBody (m : Mach) (i : RingId) : Body :=
  let r := m.ring i
  [(0x024, fields [(0, ringIfCode r.ifc), (3, r.role.toNat), (5, m.ringRank i), (8, bitOf r.looped), (9, r.turn.toNat),
     (11, bitOf (m.configured && m.timeRingId == i && r.sync))]),
   (0x028, fields [(0, r.masterNode.toNat), (12, r.masterCopy.toNat), (13, r.masterRank.toNat),
     (16, (m.ringUsed i).elim 0 (fun c => c.nmod))]),
   (0x02C, pack16 (satInt 16 r.tb.offset) (satInt 16 r.tb.rate)), (0x030, pack16 r.missed r.syncLoss),
   (0x034, pack16 r.successions r.coldstarts), (0x038, pack16 r.collisions r.joinFail), (0x03C, pack16 r.leaves r.heals),
   (0x040, pack16 r.loopDup r.late), (0x044, r.lastLoss)]

/-! ### JXT (R328) -/

def jxtValid (m : Mach) (k : Nat) : Bool :=
  decide (k < m.jxtCfgs.length) && !((m.lane m.viewLane).comm.jxt.getD k {}).timedOut

def validMask (m : Mach) (from0 : Nat) : W32 := fields ((List.range 32).map (fun k => (k, bitOf (jxtValid m (from0 + k)))))

def jxtBody (m : Mach) : Body :=
  let j := m.jxt
  let set := m.sd.map (fun sd => sd.settings)
  [(0x020, fields [(0, bitOf j.redUp), (1, bitOf j.blueUp), (2, bitOf (set.any (fun x => x.redOpen))),
     (3, bitOf (set.any (fun x => x.blueOpen))), (8, m.jxtCfgs.length)]),
   (0x024, (m.face .red).ip), (0x028, (m.face .blue).ip),
   (0x02C, validMask m 0), (0x030, validMask m 32), (0x034, j.redRx), (0x038, j.blueRx), (0x03C, pack16 j.redBad j.blueBad),
   (0x040, j.dup), (0x044, pack16 j.netDis j.pairDis), (0x048, pack16 j.late j.tmo), (0x04C, pack16 j.rej j.macFail),
   (0x050, pack16 j.restarts j.skewMax),
   (0x054, fields [(0, j.lastConn.toNat), (16, j.lastCause.toNat), (20, j.lastLocal.toNat)]), (0x058, j.lastCycle),
   (0x05C, word j.agePeak)]

/-! ### CAN FD ports (R365 to R367) -/

/-- Identifiers now blocked, the reference's included. -/
def canBlocked (x : CanPort) : Nat := ((x.refBuf :: x.bufs).filter (fun b => b.block != 0)).length

def canCtlBody (m : Mach) (p : CanId) : Body :=
  let x := m.can p
  let cfg := match m.canCfg p with
    | some c => if c.nbr = 0 then 0 else fields [(0, c.nbr), (4, c.dbr), (7, bitOf c.tt), (8, bitOf c.listen), (16, c.nsp.getD 80),
        (24, c.dsp.getD 80)]
    | none => 0
  [(0x020, cfg), (0x024, fields [(0, x.mode.toNat), (2, bitOf x.recov)]), (0x028, fields [(0, x.tec.toNat), (16, x.recv.toNat)]),
   (0x02C, x.rxOk), (0x030, x.txOk), (0x034, pack16 x.errBit x.errStuff), (0x038, pack16 x.errForm x.errCrc),
   (0x03C, pack16 x.errAck x.busoff), (0x040, pack16 x.rtrRx x.ownBit),
   (0x044, fields [(0, x.conflicts.toNat), (16, canBlocked x)]), (0x048, fields [(0, x.lastId.toNat), (29, bitOf x.lastIde)])]

def dirCode : BufDir → Nat
  | .unused => 0 | .transmit => 1 | .receive => 2

def txKindCode : TxKind → Nat
  | .event => 0 | .exclusive => 1 | .arbitrating => 2 | .atTime => 3

/-- The transmit words of a buffer. (DEDUCED log 31) -/
def txBody (m : Mach) (c : BufCfg) (x : CanBuf) : Body :=
  let excl := c.kind == .exclusive
  let late := if c.kind = .event ∨ c.kind = .atTime then canLateNs m c / 1000 else 0
  [(0x030, fields [(0, x.last.toNat), (4, x.block.toNat), (6, x.series.toNat), (16, late)]),
   (0x034, pack16 x.sent x.sentDc), (0x038, pack16 x.cancelled x.miss),
   (0x03C, fields [(0, if excl then c.ttOfs else 0)]), (0x098, if excl then c.ttMask else 0)]

/-- The receive words of a buffer. -/
def rxBody (m : Mach) (p : CanId) (b : Nat) (c : BufCfg) (x : CanBuf) : Body :=
  let shown := match x.shown with
    | some (f, partner) =>
      [(0x044, fields [(0, f.id.toNat), (29, bitOf f.ide), (30, bitOf f.fdf), (31, bitOf partner)]),
       (0x048, fields [(0, f.dlc.toNat), (4, bitOf f.brs), (5, bitOf f.esi)])] ++
      (List.range 16).map (fun k =>
        (0x04C + 4 * k, BitVec.ofNat 32 (ofBytes ((List.range 4).map (fun i => f.data.getD (4 * k + i) 0)))))
    | none => []
  let valid := !((canRecs p (m.lane m.viewLane).comm).getD b {}).timedOut
  shown ++
  [(0x08C, fields [(0, bitOf valid), (4, x.cause.toNat), (16, canTmo c)]), (0x090, pack16 x.rej x.tmo),
   (0x094, pack16 x.dup x.pairDis)]

def canBufsBody (m : Mach) (p : CanId) (b : Nat) : Body :=
  match (m.canCfg p).bind (fun c => canBuf c b) with
  | none => []
  | some c =>
    if c.dir = .unused then []
    else
      let x := (m.can p).bufs.getD b {}
      let tx := c.dir == .transmit
      [(0x020, fields [(0, dirCode c.dir), (2, if tx then txKindCode c.kind else 0), (4, bitOf c.fdf), (5, bitOf c.brs),
         (6, bitOf c.ide), (7, bitOf (!tx && c.pair)), (8, c.dlc.toNat), (12, c.ctx), (16, if tx then c.msg else 0)]),
       (0x024, word c.id), (0x028, if tx then 0 else word c.mask), (0x02C, if (if tx then m.paired else c.pair) then word c.id2 else 0)] ++
      (if tx then txBody m c x else rxBody m p b c x)

def arbBody (k : Nat) (w : ArbWindow) : Body :=
  [(0x040 + 8 * k, fields [(0, w.ofs), (16, w.len)]), (0x044 + 8 * k, w.mask)]

def canMatrixBody (m : Mach) (p : CanId) : Body :=
  match m.canCfg p with
  | none => []
  | some c =>
    if c.tt then
      let x := m.can p
      [(0x020, fields [(0, c.cbc), (16, c.txen.getD 4)]), (0x024, fields [(0, c.refId.toNat), (29, bitOf c.refIde)]),
       (0x028, fields [(0, x.role.toNat), (8, x.cyc.toNat)]), (0x02C, x.refSent), (0x030, pack16 x.refLost x.winMiss)] ++
      (c.arbs.zipIdx).flatMap (fun q => arbBody q.2 q.1)
    else []

/-! ### The pair link (R389) -/

def linkCode (x : PairLink) : Nat := if x.service then 2 else if x.up then 1 else 0

/-- `MIRROR_BYTES` (R374). -/
def mirrorBytes (p : PairCfg) : Nat := 8 * p.segWords.foldl (· + ·) 0 + 64 * p.segWords.length

def pairBody (m : Mach) : Body :=
  let p := m.pair
  let cfg := m.sd.bind (fun sd => if sd.pair.paired then some sd.pair else none)
  let f := p.partner
  [(0x020, match cfg with
     | some c => fields [(0, 1), (1, m.ident.copy.toNat), (4, c.joinCyc.getD 2), (16, c.segWords.length)]
     | none => fields [(1, m.ident.copy.toNat)]),
   (0x024, match cfg with
     | some c => fields [(0, c.segWords.foldl (· + ·) 0), (16, mirrorBytes c)]
     | none => 0),
   (0x028, fields [(0, roleCode p.role), (2, linkCode p.l1), (4, linkCode p.l2), (6, bitOf p.present),
     (7, bitOf (m.inLastCycle p.sightIn)), (8, min 3 p.mismRun), (10, bitOf p.ovf)]),
   (0x02C, match f with
     | some f => fields [(0, f.mode.toNat), (4, f.role.toNat), (6, f.lanes.toNat), (9, bitOf m.partnerSame)]
     | none => 0),
   (0x030, p.swap), (0x034, p.sent), (0x038, p.adopted), (0x03C, pack16 p.rxBad p.rxLate), (0x040, pack16 p.mism p.joins),
   (0x044, pack16 p.roleChg p.yields), (0x048, pack16 p.l1.errs p.l2.errs), (0x04C, pack16 p.tmrPeak p.ovfs),
   (0x050, p.lastAdopt)]

/-! ### Check-value units (R341) -/

/-- The use of a context: 0 unused, then the codes of `CV.CFG.USE`. -/
def cvUse (m : Mach) (k : Nat) : Nat :=
  if m.configured = false then 0
  else match k with
    | 0 => 1
    | 1 => 2
    | _ => match m.profile k with
      | some q => if q.send then 3 else 4
      | none => 0

/-- The polynomial code of a context. -/
def cvPoly (m : Mach) (k : Nat) : Nat := if k < 2 then 1 else (m.profile k).elim 0 (fun q => q.poly)

def cvBody (m : Mach) (k : Nat) : Body :=
  let l := m.viewLane
  let x := (m.lane l).cv.getD k {}
  let cfg := match m.ctxParams k with
    | some q => if cvUse m k = 0 then [(0x020, fields [(18, laneCode l)])] else
      [(0x020, fields [(0, cvUse m k), (4, cvPoly m k), (8, q.width), (16, bitOf q.refIn), (17, bitOf q.refOut), (18, laneCode l)]),
       (0x024, loWord (BitVec.ofNat 64 q.poly)), (0x028, hiWord (BitVec.ofNat 64 q.poly)),
       (0x02C, loWord (BitVec.ofNat 64 q.init)), (0x030, hiWord (BitVec.ofNat 64 q.init)),
       (0x034, loWord (BitVec.ofNat 64 q.xorOut)), (0x038, hiWord (BitVec.ofNat 64 q.xorOut))]
    | none => [(0x020, fields [(18, laneCode l)])]
  let alv := match m.profile k with
    | some q => fields [(0, q.alvBits), (8, min 255 q.alvMaxd), (16, x.jumps.toNat)]
    | none => fields [(16, x.jumps.toNat)]
  cfg ++
  [(0x03C, loWord x.run), (0x040, hiWord x.run), (0x048, loWord x.result), (0x04C, hiWord x.result),
   (0x050, pack16 x.bytes x.faults), (0x054, x.done), (0x058, alv), (0x05C, pack16 x.repeats x.lost)]

end Sys2Proof.Machine
end

