-- ==== Sys2Proof/Machine/PageBench.lean ====
section
/-! DEFINITION. The page bodies of the module descriptor and the Bench (R41, R63, R69, R411, R431, R454 to R456, R476), and every
page's body by its type. -/

namespace Sys2Proof.Machine

/-! ### The module descriptor (R411) -/

def moduleBody (m : Mach) : Body :=
  let x := m.mod
  let id := m.sd.elim 0 (fun sd => sd.id)
  [(0x024, fields [(0, modeCode x.mode), (4, roleCode m.pair.role), (6, m.votingMask.toNat), (12, modeCode x.prev),
     (16, x.bootKind.toNat)]),
   (0x028, x.modeCycle), (0x034, fields [(0, x.resCode.toNat), (8, x.resOutcome.toNat)]), (0x038, x.resTarget),
   (0x03C, fields [(0, bitOf x.rstLevel), (1, bitOf x.rstStuck), (2, bitOf x.rstHeld), (16, x.rstCount.toNat)]),
   (0x040, x.rstLastMs), (0x044, fields [(0, x.haltCause.toNat), (8, x.haltSrc.toNat)]), (0x048, x.haltCycle),
   (0x04C, fields [(0, x.cfgCause.toNat), (8, x.cfgUnit.toNat), (16, x.cfgLanes.toNat)]),
   (0x050, loWord m.ident.serial), (0x054, hiWord m.ident.serial), (0x058, (m.bench.upd.runSlot .firmware).version),
   (0x05C, loWord id), (0x060, hiWord id),
   (0x064, fields [(0, m.ident.order.toNat), (8, m.ident.copy.toNat), (16, m.ident.hwRev.toNat)]),
   (0x068, fields [(0, x.sweepState.toNat), (2, x.sweepStep.toNat), (16, x.sweepDone.toNat)]), (0x06C, word x.sweepPass),
   (0x070, x.sweepIn.setWidth 32),
   (0x074, fields [(0, x.sweepIn.toNat / 2 ^ 32), (16, x.sweepAi.toNat)])]

/-! ### Sensors and counters (R454, R455) -/

/-- Pairs of 16-bit values from an offset on. -/
def pairsFrom (from0 : Nat) (xs : List W16) : Body :=
  (List.range ((xs.length + 1) / 2)).map (fun k => (from0 + 4 * k, pack16 (xs.getD (2 * k) 0) (xs.getD (2 * k + 1) 0)))

def sensorsBody (s : Sensors) : Body :=
  pairsFrom 0x020 s.temps ++ pairsFrom 0x030 s.rails ++
  [(0x048, word s.fs), (0x04C, fields [(0, s.rh.toNat), (16, s.air.toNat)]), (0x050, word s.dew),
   (0x054, pack16 s.shockX s.shockY), (0x058, pack16 s.shockZ s.shocks), (0x05C, word s.warn), (0x060, word s.warns)]

def countersBody (b : Bench) (k : Nat) : Body :=
  let x := b.ec.getD k {}
  [(0x020, fields [(0, x.src.toNat), (8, x.qual.toNat), (16, bitOf x.sat)]), (0x024, x.count), (0x02C, x.snap), (0x030, x.delta),
   (0x034, x.secs)]

/-! ### The recorder (R456) -/

/-- The records of the flash ring, oldest first. -/
def Recorder.flashRecs (r : Recorder) : List Rec := r.flash.flatMap (fun s => s.recs)

/-- Records not yet committed: those of the RAM that follow the last record in the flash. -/
def Recorder.uncommitted (r : Recorder) : List Rec :=
  match r.flashRecs.getLast? with
  | some z => r.ram.filter (fun x => decide (z.seq < x.seq))
  | none => r.ram

/-- This module is time master of the lead ring of its domain (R446). -/
def Mach.timeSetter (m : Mach) : Bool :=
  [RingId.r1, RingId.r2].any (fun i => (m.ring i).role == 1 && (m.ringUsed i).any (fun c => c.lead))

def seqWords (at0 n : Nat) : Body := [(at0, BitVec.ofNat 32 n), (at0 + 4, BitVec.ofNat 32 (n / 2 ^ 32 % 2 ^ 16))]

def recorderBody (m : Mach) : Body :=
  let r := m.bench.recd
  let set := m.benchSet
  [(0x024, fields [(0, bitOf r.frozen.isSome), (1, bitOf (set.any (fun x => x.recMode))), (2, bitOf r.stimeOk),
     (3, bitOf m.timeSetter), (4, r.queue.length)])] ++
  seqWords 0x028 r.next ++ seqWords 0x030 (r.flashRecs.head?.elim 0 (fun x => x.seq)) ++
  seqWords 0x038 (r.ram.head?.elim 0 (fun x => x.seq)) ++
  [(0x040, BitVec.ofNat 32 r.uncommitted.length), (0x044, pack16 r.lostFrozen r.lostFull), (0x048, r.suppressed),
   (0x04C, pack16 r.laneq r.stepback), (0x050, fields [(0, r.bad.length), (16, r.fails.toNat)])] ++
  seqWords 0x054 (m.stimeAt m.now)

/-! ### Host port and maintenance port (R63, R69) -/

def secondsSince (now t : Nat) : Nat := (now - t) / 1000000000

def hostBody (m : Mach) : Body :=
  let h := m.bench.host
  [(0x020, h.h2b), (0x024, h.b2h), (0x028, word h.collide), (0x02C, fields [(2, h.collideAt.toNat)]), (0x030, word h.crcErrs),
   (0x034, word h.timeouts), (0x038, fields [(0, h.lastFrame.elim 0 (fun t => min 30 (secondsSince m.now t)))])]

/-- Summaries and conditions where no rule states one. (DEDUCED log 63) -/
def mntBody (p : MntPort) : Body :=
  [(0x020, fields [(0, bitOf p.link)]), (0x024, p.ip), (0x028, fields [(0, bitOf p.dhcp)]),
   (0x02C, fields [(0, p.sessions.length), (3, bitOf (p.sessions.any (fun x => x.level == .write)))]),
   (0x030, word p.authFails), (0x034, word p.bad)]

/-! ### Updates (R476) -/

def updateBody (m : Mach) : Body :=
  let u := m.bench.upd
  let open0 := decide (1 ≤ u.state.toNat) && decide (u.state.toNat ≤ 3)
  let commit := if u.trial.isNone then 0 else match u.serviceFrom with
    | some t => 600 - secondsSince m.now t
    | none => 600
  let serve := if u.trial.isNone then 0 else match u.trialFrom with
    | some t => 60 - secondsSince m.now t
    | none => 0
  [(0x020, fields [(0, u.state.toNat), (4, u.kind.elim 0 kindCode), (6, bitOf u.maint), (7, bitOf (u.slot == .b)),
     (8, u.result.toNat), (16, if open0 then min 600 (secondsSince m.now u.reqAt) else 0)]),
   (0x024, BitVec.ofNat 32 u.bytes), (0x028, BitVec.ofNat 32 u.len),
   (0x02C, fields [(0, slotCode u.fwA.state), (4, slotCode u.fwB.state), (8, slotCode u.sdA.state), (12, slotCode u.sdB.state)]),
   (0x030, u.fwA.version), (0x034, u.fwB.version), (0x038, loWord u.sdA.sdId), (0x03C, hiWord u.sdA.sdId),
   (0x040, loWord u.sdB.sdId), (0x044, hiWord u.sdB.sdId),
   (0x048, fields [(0, u.trial.elim 0 kindCode), (2, u.trialBoots.toNat), (4, u.phase.toNat), (16, commit)]),
   (0x04C, fields [(0, serve)]),
   (0x050, fields [(0, u.lastCause.toNat), (8, u.lastKind.toNat), (16, u.fallbacks.toNat)]),
   (0x054, pack16 (m.lane .a).fwVer (m.lane .b).fwVer), (0x058, pack16 (m.lane .c).fwVer u.benchFw),
   (0x05C, fields [(0, u.vfmt.toNat), (16, u.sfmt.toNat)]),
   (0x060, fields [(0, u.keysFilled.toNat), (4, u.keysRetired.toNat), (8, u.fwGen.toNat)]), (0x06C, word u.attLen)]

/-! ### Self-test (R431) -/

/-- The lane due next, in the order A, B, C. -/
def SelfTest.nextDue (t : SelfTest) : Option LaneId := laneIds.find? (fun l => inMask t.due l && !inMask t.unusLanes l)

/-- Seconds until a lane falls due where no valid token exists (R423). -/
def SelfTest.dueIn (secs : Nat) (t : SelfTest) (l : LaneId) : Nat :=
  match t.passedAt.get l with
  | none => 0
  | some p => if t.expiredAt.any (fun e => decide (p < e)) then 0 else p + 86400 - secs

def sliceMinutes (m : Mach) : Nat :=
  let t := m.bench.test
  if m.token.isSome ∨ t.nextDue.isSome then 0
  else
    match ((laneIds.filter (fun l => !inMask t.unusLanes l)).map (fun l => t.dueIn m.benchSecs l)).min? with
    | some w => min 0xFFFF ((w + 59) / 60)
    | none => 0

/-- Hours since the field blocks last passed, all ones where they never did or the clock has stopped since.
(DEDUCED log 63) -/
def fieldAge (m : Mach) : Nat :=
  match m.bench.test.fieldPass with
  | some (s, e) => if e = m.bench.epoch then min 0xFFFF ((m.benchSecs - s) / 3600) else 0xFFFF
  | none => 0xFFFF

/-- Minutes since a stored token was written, saturating; one of an earlier clock epoch is older than the count can say.
(DEDUCED log 63) -/
def Mach.tokenMinutes (m : Mach) (x : Token) : Nat :=
  if x.epoch = m.bench.epoch then min 0xFFFF ((m.benchSecs - x.written) / 60) else 0xFFFF

/-- Summaries and conditions where no rule states one. (DEDUCED log 63) -/
def selfTestBody (m : Mach) : Body :=
  let t := m.bench.test
  let tok := t.token0.or t.token1
  [(0x020, fields [(0, bitOf m.token.isSome), (1, bitOf (tok.any (fun x => x.field))), (2, bitOf m.bench.clkLost),
     (8, tok.elim 0 m.tokenMinutes)]),
   (0x024, fields [(0, t.lastKind.toNat), (2, t.lastResult.toNat), (4, t.lastLane.toNat), (8, t.lastBlock.toNat),
     (16, t.lastItem.toNat)]),
   (0x028, t.lastSecs), (0x02C, fields [(0, t.unusLanes.toNat), (4, t.unusPorts.toNat), (14, bitOf t.unusWdog)]),
   (0x030, t.unusDi.setWidth 32), (0x034, fields [(0, t.unusDi.toNat / 2 ^ 32), (16, t.unusAi.toNat)]), (0x038, word t.unusDo),
   (0x03C, fields [(0, t.nextDue.elim 0 laneCode), (2, bitOf t.run.isSome), (3, bitOf (t.overdue != 0)), (16, t.done.toNat)]),
   (0x040, fields [(0, sliceMinutes m), (16, t.fails.toNat)]), (0x044, fields [(0, fieldAge m)]),
   (0x048, fields [(0, t.peak.toNat), (16, t.energy.toNat)])]

/-! ### Every page -/

/-- `MEMBERS` (R41): every member of a group is present, and of the pair the partner while it is reached. -/
def membersWord (m : Mach) (p : Page) : W32 :=
  fields (p.members.map (fun q => (q.1, 1)) ++ (if p = .pair ∧ m.partnerReached then [(2, 1)] else []))

/-- The body words of a page for an instance, its result status word apart. -/
def Page.body (m : Mach) (sel : Nat) : Page → Body
  | .module => moduleBody m
  | .ring i => ringGroupBody m i
  | .copier l => copierBody (m.phaseOf l) (m.lane l)
  | .memories l => memoriesBody (m.lane l)
  | .agreement l => agreementBody m l
  | .voter => voterBody m
  | .driveMon => driveMonBody m
  | .selfCheck => selfCheckBody m
  | .voteStats => voteStatsBody m
  | .di => diBody m sel
  | .out => outBody m sel
  | .ai => aiBody m sel
  | .ps => psBody m sel
  | .enc => encBody m
  | .fsm => fsmBody m
  | .pf => pfBody m sel
  | .port i d => portBody ((m.ring i).port d)
  | .rest i d => restBody ((m.ring i).rest d)
  | .schedule i => scheduleBody m i sel
  | .jxt => jxtBody m
  | .canCtl p => canCtlBody m p
  | .canBufs p => canBufsBody m p sel
  | .canMatrix p => canMatrixBody m p
  | .pairLink => pairBody m
  | .cv => cvBody m sel
  | .sensors => sensorsBody m.bench.sens
  | .counters => countersBody m.bench sel
  | .recorder => recorderBody m
  | .hostPort => hostBody m
  | .mntPort => mntBody m.bench.mnt
  | .update => updateBody m
  | .selfTest => selfTestBody m
  | _ => []

/-- The result group of a page's instance (R51): the offset of its status word, its length in words, and the group. A
group that the supply supervisor does not serve, or a buffer that receives nothing, has none. -/
def Page.group (m : Mach) (sel : Nat) : Page → Option (Nat × Nat × ResultGroup)
  | .module => some (0x030, 3, m.mod.cmdRes)
  | .copier l => some (0x060, 5, (m.lane l).cop.group)
  | .agreement l => if (m.lane l).agr.held then none else some (0x060, 7, (m.lane l).agr.group)
  | .voteStats => some (0x020, 11, m.cal.vote.group)
  | .ai => some (0x024, 2, aiGroup m (m.field.ai.getD sel {}))
  | .canBufs p => if (m.canCfg p).any (fun c => (canBuf c sel).any (fun b => b.dir == .receive))
    then some (0x040, 19, ((m.can p).bufs.getD sel {}).group) else none
  | .cv => some (0x044, 3, ((m.lane m.viewLane).cv.getD sel {}).group)
  | .counters => some (0x028, 4, (m.bench.ec.getD sel {}).group)
  | .update => some (0x068, 2, m.bench.upd.att)
  | _ => none

end Sys2Proof.Machine
end

