-- ==== Sys2Proof/Machine/PageConds.lean ====
section
/-! DEFINITION. `PAGE_STAT.COND` of every page (R32, R131, R163, R186, R212 to R217, R237, R250, R277 to R279, R306, R328, R341,
R365 to R367, R389, R411, R431, R432, R454 to R456, R476, R497). Codes: 0 normal, 1 degraded, 2 fault, 3 not in use. -/

namespace Sys2Proof.Machine

/-- The first condition that holds, else normal. -/
def firstCond : List (Bool × Nat) → Nat
  | [] => 0
  | (b, c) :: r => if b then c else firstCond r

def copierCond (m : Mach) (l : LaneId) : Nat :=
  firstCond [(!m.configured, 3), ((m.lane l).cop.faultCause != 0 && m.isOut l, 2)]

def agreementCond (m : Mach) (l : LaneId) : Nat :=
  firstCond [(!m.configured, 3), (m.isOut l, 2), (m.life l != .voting, 1), (m.votingLanes.length != 3, 1)]

def driveMonCond (m : Mach) : Nat :=
  let o := m.cal.odm
  firstCond [(!m.configured, 3), (o.lost != 0 || o.tripped, 2), (o.weak != 0 || o.stray != 0, 1)]

def diCond (m : Mach) (n : Nat) : Nat :=
  let x := m.field.di.getD n {}
  firstCond [(!(m.diCfg n).any (fun c => c.used), 3), (x.latch || x.unusable, 2), (!x.valid, 1)]

def aiCond (m : Mach) (n : Nat) : Nat :=
  let x := m.field.ai.getD n {}
  firstCond [(!(m.sd.bind (fun sd => sd.ai[n]?)).any (fun c => c.used), 3), (x.latch || x.unusable, 2), (!x.valid, 1)]

/-- Summaries and conditions where no rule states one. (DEDUCED log 63) -/
def psCond (m : Mach) (k : Nat) : Nat := firstCond [(!psUsed m k, 3), ((m.field.ps.getD k {}).fault, 1)]

/-- Summaries and conditions where no rule states one. (DEDUCED log 63) -/
def encCond (m : Mach) : Nat := firstCond [(!encUsed m, 3), (!m.field.enc.valid, 1)]

def fsmCond (m : Mach) : Nat :=
  let f := m.field.fsm
  firstCond [(f.held || fsmSilent m, 2), (f.low || f.pinned, 1)]

def outCond (m : Mach) (n : Nat) : Nat :=
  let x := m.field.out.getD n {}
  firstCond [(!outUsed m n, 3), (x.isFault || x.latch || x.unusable, 2), (!x.avail || m.field.fsm.held, 1)]

def pfCond (m : Mach) (k : Nat) : Nat :=
  match m.pfCfg k with
  | none => 3
  | some c => let s := blockState (pfBlockNow m c); firstCond [(s.latch, 2), (s.code == .invalid, 1)]

def portCond (m : Mach) (i : RingId) (d : Dir) : Nat :=
  let p := (m.ring i).port d
  firstCond [((m.ringUsed i).isNone, 3), (!p.up, 2), (p.loop, 1)]

def restCond (m : Mach) (i : RingId) (d : Dir) : Nat :=
  match ((m.ring i).rest d).state with
  | .closed => 3
  | .faulted => 2
  | .unsync => 1
  | .sync => 0

def scheduleCond (m : Mach) (i : RingId) (k : Nat) : Nat :=
  match (ringEntries m i)[k]? with
  | none => 3
  | some e => firstCond [(e.kind == .free, 3), (entryTimedOut m i e, 2), (((m.ring i).entries.getD k {}).bad, 1)]

def jxtCond (m : Mach) : Nat :=
  let n := m.jxtCfgs.length
  firstCond [(n == 0, 3), ((List.range n).any (fun k => !jxtValid m k), 2),
    (!m.jxt.redUp || !m.jxt.blueUp || m.inLastCycle m.jxt.disIn, 1)]

def canUsed (m : Mach) (p : CanId) : Bool := (m.canCfg p).any (fun c => c.nbr != 0)

def canCtlCond (m : Mach) (p : CanId) : Nat :=
  let x := m.can p
  firstCond [(!canUsed m p, 3), (x.mode == 3 || (x.refBuf :: x.bufs).any (fun b => b.block == 2), 2),
    (x.mode == 2 || canBlocked x != 0, 1)]

def canBufCond (m : Mach) (p : CanId) (b : Nat) : Nat :=
  match (m.canCfg p).bind (fun c => canBuf c b) with
  | none => 3
  | some c =>
    let x := (m.can p).bufs.getD b {}
    let out := c.dir == .receive && ((canRecs p (m.lane m.viewLane).comm).getD b {}).timedOut
    firstCond [(c.dir == .unused, 3), (out || x.block == 2, 2), (m.inLastCycle x.discIn || x.block == 1, 1)]

def canMatrixCond (m : Mach) (p : CanId) : Nat :=
  firstCond [(!(m.canCfg p).any (fun c => c.nbr != 0 && c.tt), 3), ((m.can p).role == 2, 1)]

def pairCond (m : Mach) : Nat :=
  let p := m.pair
  firstCond [(!m.paired, 3), (m.noPartner || (m.mod.mode == .join && p.mismJoin), 2),
    (!p.l1.service || !p.l2.service || p.mismRun != 0, 1)]

def cvCond (m : Mach) (k : Nat) : Nat :=
  let x := (m.lane m.viewLane).cv.getD k {}
  firstCond [(cvUse m k == 0, 3), (m.inLastCycle x.faultCycle, 2), (m.inLastCycle x.alvCycle, 1)]

def recorderCond (m : Mach) : Nat :=
  let r := m.bench.recd
  firstCond [(!r.bad.isEmpty, 2), (r.frozen.isSome || !r.stimeOk || decide (8192 < r.uncommitted.length), 1)]

def updateCond (m : Mach) : Nat :=
  let u := m.bench.upd
  firstCond [(u.fellBack, 2), (u.trial.isSome || (decide (1 ≤ u.state.toNat) && decide (u.state.toNat ≤ 3)), 1)]

def SelfTest.marked (t : SelfTest) : Bool :=
  t.unusLanes != 0 || t.unusPorts != 0 || t.unusWdog || t.unusDi != 0 || t.unusAi != 0 || t.unusDo != 0

def selfTestCond (m : Mach) : Nat :=
  firstCond [(m.bench.test.marked, 2), (m.token.isNone || m.bench.test.overdue != 0, 1)]

/-- The module descriptor's own condition (R411). -/
def moduleCond (m : Mach) : Nat :=
  firstCond [(m.mod.mode == .halt || (m.mod.mode == .config && m.mod.configHeld), 2), (m.evaluates && m.votingLanes.length != 3, 1)]

/-- The condition of a page for an instance; of a group descriptor its own. -/
def Page.cond (m : Mach) (sel : Nat) : Page → Nat
  | .module => moduleCond m
  | .ring i => if (m.ringUsed i).isSome && (m.ring i).ifc != .active then 2 else 0
  | .copier l => copierCond m l
  | .memories l => firstCond [((m.lane l).snd.found, 2), ((m.lane l).snd.late, 1)]
  | .agreement l => agreementCond m l
  | .driveMon => driveMonCond m
  | .di => diCond m sel
  | .out => outCond m sel
  | .ai => aiCond m sel
  | .ps => psCond m sel
  | .enc => encCond m
  | .fsm => fsmCond m
  | .pf => pfCond m sel
  | .port i d => portCond m i d
  | .rest i d => restCond m i d
  | .schedule i => scheduleCond m i sel
  | .jxt => jxtCond m
  | .canCtl p => canCtlCond m p
  | .canBufs p => canBufCond m p sel
  | .canMatrix p => canMatrixCond m p
  | .pairLink => pairCond m
  | .cv => cvCond m sel
  | .sensors => if m.bench.sens.warn = 0 then 0 else 1
  | .counters => if (m.bench.ec.getD sel {}).src = 0 then 3 else 0
  | .recorder => recorderCond m
  | .update => updateCond m
  | .selfTest => selfTestCond m
  | _ => 0

/-- The most severe of conditions in use; none in use reads 3. -/
def worstCond (cs : List Nat) : Nat :=
  match cs.filter (· < 3) with
  | [] => 3
  | c :: r => r.foldl max c

/-- A leaf counts with the most severe condition over its instances. (DEDUCED log 63) -/
def Page.leafCond (m : Mach) (p : Page) : Nat :=
  if p.count m = 0 then p.cond m 0 else worstCond ((List.range (p.count m)).map (fun k => p.cond m k))

/-- The condition of a page as its group counts it, and of a group descriptor (R32): members and its own. -/
def Page.summary (m : Mach) : Nat → Page → Nat
  | 0, p => p.leafCond m
  | fuel + 1, p =>
    if p.isGroup then
      let ms := p.members.map (fun q => q.2.summary m fuel)
      let ms := if p = .pair ∧ m.partnerReached then ms ++ [(Config.partnerCond m.now).toNat] else ms
      let c := worstCond ms
      if c = 3 then (if p.cond m 0 = 0 then 3 else p.cond m 0) else max c (p.cond m 0)
    else p.leafCond m

/-- No path of R70 is longer. -/
def pageDepth : Nat := 5

/-- `PAGE_STAT` of a page (R32, R38) for an instance: `COND`, and in a descriptor `FIRST`. -/
def Page.stat (m : Mach) (sel : Nat) (p : Page) : W32 :=
  if p.isGroup then
    let c := p.summary m pageDepth
    let first := (p.members.find? (fun q => q.2.summary m pageDepth == c)).elim
      (if p = .pair ∧ m.partnerReached ∧ (Config.partnerCond m.now).toNat = c then 2 else 0) Prod.fst
    fields [(0, c), (4, if c = 3 then 0 else first)]
  else fields [(0, p.cond m sel)]

end Sys2Proof.Machine
end

