-- ==== Sys2Proof/Machine/PageRead.lean ====
section
/-! DEFINITION. Reading the register space under a session (R10, R31, R36 to R42, R51 to R55, R63): headers, interrupt summaries,
result status words, and what a read changes. -/

namespace Sys2Proof.Machine

/-! ### A session's private state (R42) -/

def Session.chanOf (x : Session) (page : Nat) : Nat := ((assocGet page x.chan).getD 0).toNat
def Session.maskOf (x : Session) (page : Nat) : W32 := memRead 0 x.mask page

def Page.no (p : Page) : Nat := pageNo p.path

/-- The instance that a session has selected. -/
def Session.sel (x : Session) (p : Page) : Nat := x.chanOf p.no

/-! ### Interrupts (R55) -/

/-- `IRQ_STAT` of a page for a session: of a group descriptor, its members' summary and its own causes. -/
def Page.irq (m : Mach) (x : Session) : Nat → Page → W32
  | 0, p => memRead 0 m.irq p.no
  | fuel + 1, p =>
    let own := memRead 0 m.irq p.no
    if p.isGroup then
      p.members.foldl (fun w q => setBit w q.1 ((q.2.irq m x fuel &&& x.maskOf q.2.no) != 0)) (own &&& 0xFFFFFF00)
    else own

/-- The pair descriptor's `IRQ_STAT` for a session. -/
def Mach.pairIrq (m : Mach) (x : Session) : W32 := Page.pair.irq m x pageDepth

/-! ### Result status words (R51) -/

/-- The key of a page's result group for an instance. -/
def groupKey (p : Page) (sel : Nat) : Nat := p.no * 65536 + sel

def statusWord (x : Session) (key : Nat) (g : ResultGroup) : W32 :=
  let last := assocGet key x.seen
  fields [(31, bitOf g.ready), (30, bitOf (last == some g.serial)),
    (29, bitOf (last.any (fun n => decide (0 < n) && decide (n + 2 ≤ g.serial)))), (0, tagOf g.serial)]

/-! ### Words (R38, R41) -/

/-- A word of a page by byte offset. -/
def Page.readWord (m : Mach) (x : Session) (p : Page) (off : Nat) : W32 :=
  let sel := x.sel p
  match off with
  | 0x000 => fields [(16, 0x7340), (8, p.typ), (7, bitOf p.isGroup), (4, p.path.length)]
  | 0x004 => 0x01000100
  | 0x008 => 0
  | 0x00C => p.stat m sel
  | 0x010 => p.irq m x pageDepth
  | 0x014 => x.maskOf p.no
  | 0x018 => fields [(0, sel), (16, p.count m)]
  | 0x01C => 0
  | _ =>
    if p.isGroup ∧ off = 0x020 then membersWord m p
    else match p.group m sel with
      | some (o, _, g) => if off = o then statusWord x (groupKey p sel) g else (assocGet off (p.body m sel)).getD 0
      | none => (assocGet off (p.body m sel)).getD 0

/-- A word of an absent unit's page. (DEDUCED log 62) -/
def absentWord (off : Nat) : W32 := if off = 0x00C then 3 else 0

/-- The words of a burst in register space. -/
def Mach.readWords (m : Mach) (x : Session) (a : W32) (count : Nat) : List W32 :=
  (List.range count).map (fun k => match m.place a with
    | .own p => p.readWord m x (addrOffset a + 4 * k)
    | _ => absentWord (addrOffset a + 4 * k))

/-! ### What a read changes (R10, R53) -/

/-- The clearing registers: their page, offset and what reading them leaves. -/
def Page.clearWord (p : Page) (sel off : Nat) (m : Mach) : Mach :=
  match p, off with
  | .fsm, 0x020 => m.updFsm (fun f => { f with vmin := 0x7FFF })
  | .out, 0x03C => m.updOut sel (fun x => { x with ipeak := 0 })
  | .hostPort, 0x028 => m.updHost (fun h => { h with collide := 0 })
  | .hostPort, 0x030 => m.updHost (fun h => { h with crcErrs := 0 })
  | .hostPort, 0x034 => m.updHost (fun h => { h with timeouts := 0 })
  | .mntPort, 0x030 => m.updMnt (fun q => { q with authFails := 0 })
  | .mntPort, 0x034 => m.updMnt (fun q => { q with bad := 0 })
  | .sensors, 0x054 => m.updBench (fun b => { b with sens := { b.sens with shockX := 0, shockY := 0 } })
  | .sensors, 0x058 => m.updBench (fun b => { b with sens := { b.sens with shockZ := 0 } })
  | _, _ => m

/-- A burst that starts at a group's status word and covers it marks the group's result seen for the session.
(DEDUCED log 63) -/
def Mach.markSeen (s : Sess) (p : Page) (sel off count : Nat) (m : Mach) : Mach :=
  match p.group m sel with
  | some (o, n, g) =>
    if off = o ∧ n ≤ count then
      m.updSession s (fun x => { x with seen := assocSet (groupKey p sel) g.serial x.seen })
    else m
  | none => m

/-- The clearing registers that a burst covers, cleared. -/
def Mach.clearRead (x : Session) (a : W32) (count : Nat) (m : Mach) : Mach :=
  match m.place a with
  | .own p => (List.range count).foldl (fun m k => p.clearWord (x.sel p) (addrOffset a + 4 * k) m) m
  | _ => m

/-- What a session's burst changes once its words are taken. -/
def Mach.readEffects (s : Sess) (x : Session) (a : W32) (count : Nat) (m : Mach) : Mach :=
  match m.place a with
  | .own p => (m.markSeen s p (x.sel p) (addrOffset a) count).clearRead x a count
  | _ => m

/-! ### The bridge (R49) -/

/-- A lane is outside the phases of R33: asleep, in sleep entry, or held awake after its last phase; one that runs no cycles is asleep
here. -/
def Mach.outsidePhases (m : Mach) (l : LaneId) : Bool := m.phaseOf l == .asleep || m.phaseOf l == .sleepEntry

/-- A lane whose bridge grants now: not held in reset, and outside the phases. -/
def Mach.grants (m : Mach) (l : LaneId) : Bool := !(m.lane l).agr.held && m.outsidePhases l

/-- A read of an own page can be served now: descriptors above the lanes and Callipers' pages need no bridge, and the
supply supervisor serves the agreement page of a lane that it holds (R163). -/
def Mach.serves (m : Mach) (p : Page) : Bool :=
  match p.servingLane m with
  | none => true
  | some l => m.grants l || ((m.lane l).agr.held && (match p with | .agreement _ => true | _ => false))

/-- How a read that waits stands: its words, still waiting, or ended without them. -/
inductive ReadEnd where
  | words (ws : List W32)
  | waits
  | timedOut
  deriving DecidableEq, Repr

/-- A pending read of this module's own pages: served when its lane grants, ended one logic cycle after it was asked.
(DEDUCED log 64) -/
def Mach.pollRead (m : Mach) (x : Session) (r : PendingRead) : ReadEnd :=
  match m.place r.addr with
  | .own p =>
    if m.serves p then .words (m.readWords x r.addr r.count)
    else if r.at0 + m.cycleNs ≤ m.now then .timedOut else .waits
  | .absent => .words (m.readWords x r.addr r.count)
  | .partner => .timedOut

/-- An answer to the partner goes out on a link (R37). -/
def Mach.sendAnswer (k : LinkId) (r : Reply) (m : Mach) : Mach :=
  let f := sealAnswer { fcrc := 0, link := k, copy := m.ident.copy, cycle := m.cycleNo, reply := r }
  m.updPair (fun p => { p.send m.now [(m.now, .answer f)] with lastReply := some f })

/-- The partner's oldest read that waits here: answered once its lane grants, or one logic cycle after it came (R37).
(DEDUCED log 64) -/
def Mach.serveAsked (m : Mach) : Mach :=
  match m.pair.asked with
  | [] => m
  | q :: rest =>
    match m.pollRead {} { addr := q.1, count := q.2.1, at0 := q.2.2.1 } with
    | .waits => m
    | .timedOut => (m.updPair (fun p => { p with asked := rest })).sendAnswer q.2.2.2 { status := .waitTimeout, data := [] }
    | .words ws =>
      ((m.clearRead {} q.1 q.2.1).updPair (fun p => { p with asked := rest })).sendAnswer q.2.2.2 { status := .ok, data := ws }

end Sys2Proof.Machine
end

