-- ==== Sys2Proof/Machine/Recorder.lean ====
section
/-! DEFINITION. The event recorder (R434, R435, R439, R442 to R452): merging, rate limit, forming, appending, anchors, the flash
ring and the freeze. -/

namespace Sys2Proof.Machine

/-! ### The Bench's own clock (R419, R440) -/

/-- The matrix cycle of the `TIME_IF` interface at an instant. -/
def Mach.matrixNow (m : Mach) : W32 := BitVec.ofNat 32 (((m.ring m.timeIf).at0 m.now).basic / 32)

/-- Whole Bench seconds and ring matrix cycles that have passed reach the counters that count them, and a read of the
partner that waits is served. (DESIGN CHOICE log 78, DEDUCED log 121) -/
def Mach.benchTick (m : Mach) : Mach :=
  if m.bench.up = false then m
  else
    let r := m.bench.recd
    let secs := m.benchSecs
    let m := m.ecAdd 0xC2 255 (secs - r.secSeen)
    let m := (m.updRec (fun r => { r with secSeen := secs })).serveAsked
    if (m.ring m.timeIf).sync then
      let now := m.matrixNow
      let m := match r.matSeen with
        | some old => if newer now old then m.ecAdd 0xC1 255 (now - old).toNat else m
        | none => m
      m.updRec (fun r => { r with matSeen := some now })
    else m.updRec (fun r => { r with matSeen := none })

/-- A meaning of the Bench: the clock, what passed on it, and the effect. (DESIGN CHOICE log 3) -/
def benchRun (t : Nat) (f : Mach → Mach) (s : State) : Host.Outcome State Fault Refusal :=
  s.run (fun m => f ((m.tick t).benchTick))

/-! ### Records in words (R442) -/

def recFlags (r : Rec) : Nat := r.flags.toNat

/-- The bytes 0 to 61 of a record. -/
def recBody (r : Rec) : List Byte :=
  beBytes 6 r.seq ++ bytes16 r.code ++ bytes32 r.unit ++ bytes16 r.inst ++ [r.flags, r.snapv] ++ bytes32 r.p0 ++ bytes32 r.p1 ++
    (List.range 8).flatMap (fun k => bytes32 (r.snaps.getD k 0)) ++ bytes32 r.repCount ++ [0, 0]

def recBytes (r : Rec) : List Byte := recBody r ++ bytes16 (crc16 (recBody r))

/-- Bytes as 32-bit words, most significant byte first. -/
def wordsOfBytes32 (bs : List Byte) : List W32 :=
  (List.range ((bs.length + 3) / 4)).map (fun k =>
    BitVec.ofNat 32 (ofBytes ((List.range 4).map (fun i => bs.getD (4 * k + i) 0))))

def recWords (r : Rec) : List W32 := wordsOfBytes32 (recBytes r)

/-! ### Forming (R442) -/

/-- A register snapshot of a notice, where the Bench is served it at once. (DEDUCED log 68) -/
def Mach.snapshot (m : Mach) (inst : W16) (a : W32) : Option W32 :=
  match m.place a with
  | .own p =>
    let x : Session := { chan := if inst = 0xFFFF then [] else [(p.no, inst)] }
    if m.serves p then some (p.readWord m x (addrOffset a)) else none
  | _ => none

/-- The record of a notice, before it has a number. -/
def Mach.formRec (m : Mach) (n : Notice) : Rec :=
  let snaps := (((Config.snapshotAddrs n.code).map (m.snapshot n.inst)) ++ List.replicate 8 none).take 8
  { seq := 0, code := n.code, unit := n.unit, inst := n.inst, flags := BitVec.ofNat 8 (16 * bitOf m.bench.recd.stimeOk)
    snapv := BitVec.ofNat 8 ((snaps.zipIdx).foldl (fun a q => a + (if q.1.isSome then 2 ^ q.2 else 0)) 0)
    p0 := n.p0, p1 := n.p1, snaps := snaps.map (fun q => q.getD 0), repCount := 0 }

/-! ### Appending (R445, R448 to R451) -/

/-- Changes the last of a list. -/
def modLast {α : Type} (f : α → α) (xs : List α) : List α :=
  match xs.reverse with
  | [] => []
  | x :: r => (f x :: r).reverse

/-- The open record closes. -/
def Recorder.close (r : Recorder) : Recorder :=
  if r.openRec then { r with openRec := false, ram := modLast (fun x => { x with flags := setBit x.flags 2 false }) r.ram } else r

/-- A record takes the next number; the record RAM keeps 16,384. -/
def Recorder.append (x : Rec) (stay : Bool) (r : Recorder) : Recorder :=
  let r := r.close
  let kept := if 16384 ≤ r.ram.length then r.ram.drop 1 else r.ram
  { r with
    ram := kept ++ [{ x with seq := r.next, flags := setBit x.flags 2 stay }], next := (r.next + 1) % 2 ^ 48, openRec := stay }

def recorderPath : List Nat := benchPath 3

/-- A record that cannot be kept raises its cause. -/
def Mach.recLost (src : Byte) (f : Recorder → Recorder) (m : Mach) : Mach :=
  ((m.updRec f).raise recorderPath 1).ecCount src 255

/-- A formed record is appended, held in the queue while frozen, or lost with the record RAM full. -/
def Mach.keepRec (x : Rec) (stay : Bool) (m : Mach) : Mach :=
  let r := m.bench.recd
  if r.frozen.isSome then
    if r.queue.length < 256 then m.updRec (fun r => { r with queue := r.queue ++ [x] })
    else m.recLost 0xB2 (fun r => { r with lostFrozen := satInc r.lostFrozen, lostNow := r.lostNow + 1 })
  else if 16384 ≤ r.uncommitted.length then
    m.recLost 0xB3 (fun r => { r with lostFull := satInc r.lostFull, fullOwed := r.fullOwed + 1 })
  else (m.updRec (Recorder.append x stay)).ecCount 0xB0 255

/-- A record of the recorder's own (group 0x0), which no bucket limits. -/
def Mach.ownRec (code : W16) (p0 p1 : W32) (m : Mach) : Mach :=
  m.keepRec (m.formRec (mkNotice code recorderPath p0 p1 none [])) false

/-! ### The rate limit and repeats (R444, R445) -/

/-- `BURST` and `RATE` of a code. -/
def Mach.bucketSize (m : Mach) (code : W16) : Nat × Nat :=
  match m.benchSet.bind (fun x => x.buckets.find? (fun q => q.1 == code)) with
  | some q => q.2
  | none => (32, 10)

/-- Codes that take no token. -/
def unlimited (code : W16) : Bool :=
  let g := code.toNat / 4096
  g == 0 || g == 12 || code == 0x1001 || code == 0x1004 || code == 0x1005

/-- A bucket refilled up to an instant. -/
def Bucket.refill (burst rate now : Nat) (b : Bucket) : Bucket :=
  let k := (now - b.from0) * rate / 1000000000
  if burst ≤ b.tokens + k then { b with tokens := burst, from0 := now }
  else { b with tokens := b.tokens + k, from0 := b.from0 + k * 1000000000 / max rate 1 }

/-- A notice of a code finds a token, with the buckets after it. -/
def Mach.takeToken (m : Mach) (code : W16) : Bool × List Bucket :=
  let (burst, rate) := m.bucketSize code
  let bs := m.bench.recd.buckets
  let b := ((bs.find? (fun b => b.code == code)).getD { code := code, tokens := burst, from0 := m.now }).refill burst rate m.now
  let rest := bs.filter (fun b => b.code != code)
  if 0 < b.tokens then (true, { b with tokens := b.tokens - 1 } :: rest) else (false, b :: rest)

/-- A suppressed notice counted against its code, with the unit of the last one. -/
def addSupp (n : Notice) (xs : List Suppressed) : List Suppressed :=
  match xs.find? (fun x => x.code == n.code) with
  | some x => { x with count := x.count + 1, unit := n.unit } :: xs.filter (fun y => y.code != n.code)
  | none => xs ++ [{ code := n.code, count := 1, unit := n.unit }]

/-- A repeat of the open record in the forerunner-compatibility mode. -/
def Mach.folds (m : Mach) (n : Notice) : Bool :=
  let r := m.bench.recd
  r.openRec && r.frozen.isNone && (match r.ram.getLast? with
    | some x => x.code == n.code && x.unit == n.unit && x.inst == n.inst && x.p0 == n.p0 && x.p1 == n.p1
    | none => false)

/-- A counted notice goes under the limit and is recorded. (DEDUCED log 68) -/
def Mach.limitRec (n : Notice) (m : Mach) : Mach :=
  if m.benchSet.any (fun x => x.recMode) then
    if m.folds n then m.updRec (fun r => { r with ram := modLast (fun x => { x with repCount := satInc x.repCount }) r.ram })
    else m.keepRec (m.formRec n) true
  else if unlimited n.code then m.keepRec (m.formRec n) false
  else
    let (found, bs) := m.takeToken n.code
    let m := m.updRec (fun r => { r with buckets := bs })
    if found then m.keepRec (m.formRec n) false
    else (m.updRec (fun r => { r with suppressed := satInc r.suppressed, pendSupp := addSupp n r.pendSupp })).ecCount 0xB1 255

/-! ### Notices at the Bench (R434, R435, R439) -/

/-- Two notices that R435 takes for copies of one. (DEDUCED log 68) -/
def sameNotice (a b : Notice) : Bool :=
  a.code == b.code && a.unit == b.unit && a.inst == b.inst && a.p0 == b.p0 && a.p1 == b.p1 &&
    (match a.cycle, b.cycle with
      | some x, some y => decide ((x - y).toNat ≤ 2) || decide ((y - x).toNat ≤ 2)
      | _, _ => false)

/-- A notice that the Bench records: it counts for its sources, suppressed or not. -/
def Mach.record (n : Notice) (m : Mach) : Mach :=
  let m := n.ec.foldl (fun m q => m.ecCount q.1 q.2) m
  let m := if n.code = 7 then m.updRec (fun r => { r with laneq := satInc r.laneq }) else m
  m.limitRec n

/-- Two notices lie within half the range of the logic cycle number. (DEDUCED log 68) -/
def comparable (a b : Notice) : Bool := match a.cycle, b.cycle with
  | some x, some y => decide ((x - y).toNat < 2 ^ 30) || decide ((y - x).toNat < 2 ^ 30)
  | _, _ => true

/-- A notice that a lane reports: the first copy of it is recorded, a later one discarded. (DEDUCED log 68) -/
def Mach.benchTake (n : Notice) (m : Mach) : Mach :=
  if m.bench.recd.recent.any (sameNotice n) then m
  else (m.updRec (fun r => { r with recent := if n.cycle.isSome then n :: r.recent.filter (comparable n) else r.recent })).record n

/-- A notice of the Bench's own. -/
def Mach.benchNote (code : W16) (path : List Nat) (p0 p1 : W32) (ec : List (Byte × Byte)) (m : Mach) : Mach :=
  if m.bench.up = false then m else m.record (mkNotice code path p0 p1 none ec)

/-- A notice of a Tool rest. -/
def Mach.postRest (i : RingId) (d : Dir) (n : Notice) (m : Mach) : Mach :=
  m.updRest i d (fun x => { x with fifo := x.fifo.push 64 n })

/-- Where a notice waits while the Bench restarts: its lane's queue, or its unit's FIFO. -/
def Mach.postUnit (n : Notice) (m : Mach) : Mach :=
  match addrPath n.unit with
  | [1, 1] | [1, 1, _] => m.postLane .a n
  | [1, 2] | [1, 2, _] => m.postLane .b n
  | [1, 3] | [1, 3, _] => m.postLane .c n
  | [1, 6, 1, 3] => m.postRest .r1 .east n
  | [1, 6, 1, 4] => m.postRest .r1 .west n
  | [1, 6, 2, 3] => m.postRest .r2 .east n
  | [1, 6, 2, 4] => m.postRest .r2 .west n
  | 1 :: 5 :: _ => m.postField n
  | 1 :: 4 :: _ | 1 :: 6 :: _ => m.postCal n
  | _ => m.postModule n

/-- NOTICE. -/
def execNotice (n : Notice) (t : Nat) (s : State) : Host.Outcome State Fault Refusal :=
  benchRun t (fun m => if m.bench.up then m.benchTake n else m.postUnit n) s

/-- A queue taken: its notices, and one overflow notice where some were dropped. -/
def Mach.takeQueue (take : Notice → Mach → Mach) (q : NoticeQueue) (path : List Nat) (m : Mach) : Mach :=
  let m := q.items.foldl (fun m n => take n m) m
  if q.dropped = 0 then m else take (mkNotice 0x0007 path (BitVec.ofNat 32 q.dropped) 0 none []) m

/-- A Tool rest's FIFO is read. -/
def Mach.drainRest (i : RingId) (d : Dir) (m : Mach) : Mach :=
  let q := ((m.ring i).rest d).fifo
  (m.updRest i d (fun x => { x with fifo := x.fifo.drained })).takeQueue Mach.record q (restPath i d)

/-- A lane's queue is drained through its bridge; the unit FIFOs are read through Callipers' status taps. -/
def laneQueueDrain (src : Option LaneId) (m : Mach) : Mach :=
  if m.bench.up = false then m
  else match src with
    | some l =>
      if m.grants l then
        let q := (m.lane l).queue
        (m.updLane l (fun x => { x with queue := x.queue.drained })).takeQueue Mach.benchTake q [1, laneCode l]
      else m
    | none =>
      let (c, f, p) := (m.cal.fifo, m.field.fifo, m.power.fifo)
      let m : Mach := { m with
        cal := { m.cal with fifo := {} }, field := { m.field with fifo := {} }, power := { m.power with fifo := {} } }
      let m := ((m.takeQueue Mach.record c [1, 4]).takeQueue Mach.record f [1, 5]).takeQueue Mach.record p modPath
      (((m.drainRest .r1 .east).drainRest .r1 .west).drainRest .r2 .east).drainRest .r2 .west

/-- LANE_QUEUE_DRAIN. -/
def execLaneQueueDrain (src : Option LaneId) (t : Nat) (s : State) : Host.Outcome State Fault Refusal :=
  benchRun t (laneQueueDrain src) s

/-! ### Summaries and anchors (R444, R446, R447) -/

/-- At a whole Bench second, a summary for each code with suppressed notices. -/
def suppressedSummary (m : Mach) : Mach :=
  if m.bench.up = false ∨ m.benchSecs ≤ m.bench.recd.sumSec then m
  else
    let xs := m.bench.recd.pendSupp
    let m := m.updRec (fun r => { r with pendSupp := [], sumSec := m.benchSecs })
    xs.foldl (fun m x =>
      let n : Notice := { code := 0x0002, unit := x.unit, inst := 0xFFFF, p0 := x.code.setWidth 32, p1 := BitVec.ofNat 32 x.count
                          cycle := none, ec := [] }
      let r := m.formRec n
      m.keepRec { r with flags := setBit r.flags 5 true, repCount := BitVec.ofNat 32 x.count } false) m

/-- SUPPRESSED_SUMMARY. -/
def execSuppressedSummary (t : Nat) (s : State) : Host.Outcome State Fault Refusal := benchRun t suppressedSummary s

/-- The second an anchor is written for: of station time, or of the Bench seconds count while `STIME_OK` is 0.
(DEDUCED log 69) -/
def Mach.anchorSecond (m : Mach) : Bool × Nat :=
  if m.bench.recd.stimeOk then (true, m.stimeAt m.now / 1000) else (false, m.benchSecs)

/-- The time an anchor holds, in ms of station time. -/
def Mach.anchorMs (m : Mach) : Nat :=
  if m.bench.recd.stimeOk then m.stimeAt m.now / 1000 * 1000 else m.stimeAt m.now

def timeSnaps (t : Nat) : List W32 := [BitVec.ofNat 32 (t / 2 ^ 32 % 2 ^ 16), BitVec.ofNat 32 t]

/-- A new anchor, written where the record RAM has room. (DEDUCED log 69) -/
def Mach.newAnchor (t : Nat) (m : Mach) : Mach :=
  let r := m.bench.recd
  let room := decide (r.uncommitted.length < 16384)
  let back := r.stimeOk && r.anchored.any (fun a => decide (t < a))
  let id := m.sd.elim 0 (fun sd => sd.id)
  let x : Rec :=
    { seq := 0, code := 0x0001, unit := pathAddr recorderPath, inst := 0xFFFF
      flags := BitVec.ofNat 8 (128 + 16 * bitOf r.stimeOk + 8 * bitOf back), snapv := 0xFF
      p0 := BitVec.ofNat 32 m.benchSecs, p1 := m.matrixNow
      snaps := timeSnaps t ++ [BitVec.ofNat 32 m.benchSecs, (m.bench.upd.runSlot .firmware).version, hiWord id, loWord id, 0, 0]
      repCount := 0 }
  let m := m.keepRec x true
  let m := if room then m.updRec (fun y => { y with anchorTime := t, anchored := if r.stimeOk then some t else r.anchored }) else m
  if back && room then ((m.updRec (fun r => { r with stepback := satInc r.stepback })).raise recorderPath 2).ecCount 0xC3 255 else m

/-- The open anchor takes a new time; it closes after 60 updates. -/
def Recorder.updateAnchor (t : Nat) (r : Recorder) : Recorder :=
  let f (x : Rec) : Rec := { x with snaps := timeSnaps t ++ x.snaps.drop 2, repCount := satInc x.repCount }
  let own := r.ram.getLast?.any (fun x => x.flags.getLsbD 4)
  let r := { r with ram := modLast f r.ram, anchorTime := t, anchored := if own then some t else r.anchored }
  if r.ram.getLast?.any (fun x => decide (60 ≤ x.repCount.toNat)) then r.close else r

/-- The last record is an open anchor, and the new time follows its time by 1,000 ms within 10 ms. -/
def Recorder.anchorRuns (t : Nat) (r : Recorder) : Bool :=
  r.openRec && r.ram.getLast?.any (fun x => x.flags.getLsbD 7) &&
    decide (r.anchorTime + 990 ≤ t) && decide (t ≤ r.anchorTime + 1010)

def anchor (m : Mach) : Mach :=
  let r := m.bench.recd
  if m.bench.up = false ∨ r.frozen.isSome ∨ r.anchorKey = some m.anchorSecond then m
  else
    let t := m.anchorMs
    let key := m.anchorSecond
    let m := if r.anchorRuns t then m.updRec (Recorder.updateAnchor t) else m.newAnchor t
    m.updRec (fun r => { r with anchorKey := some key })

/-- ANCHOR. -/
def execAnchor (t : Nat) (s : State) : Host.Outcome State Fault Refusal := benchRun t anchor s

/-- `STIME_OK` ends 10 s after the last reference with it or the last set, and at once while `CLK_LOST` is set. -/
def stimeOkLapse (m : Mach) : Mach :=
  let r := m.bench.recd
  if r.stimeOk ∧ (r.okAt + 10000000000 ≤ m.now ∨ m.bench.clkLost) then m.updRec (fun r => { r with stimeOk := false }) else m

/-- STIME_OK_LAPSE. -/
def execStimeOkLapse (t : Nat) (s : State) : Host.Outcome State Fault Refusal := benchRun t stimeOkLapse s

/-! ### The flash ring (R448, R449) -/

/-- The sector being written: the last begun, while it has room and is not bad. -/
def Recorder.current (r : Recorder) : Option FlashSector :=
  r.flash.getLast?.filter (fun s => decide (s.recs.length < 1023) && !r.bad.contains s.no)

/-- The sectors are used alternately on the two NOR devices, device 1 first. (DEDUCED log 69) -/
def sectorDevice (k : Nat) : Nat := k % 2 + 1

/-- A sector's header: magic, first `SEQ`, erase generation, CRC-32. -/
def sectorHeader (first generation : Nat) : List Byte :=
  let head := bytes32 0x73404C47 ++ beBytes 6 first ++ beBytes 4 generation ++ List.replicate 46 0
  head ++ bytes32 (crc32 head)

/-- A record written behind the last one: in the current sector, or in the one erased ahead. -/
def Recorder.write (x : Rec) (r : Recorder) : Recorder :=
  match r.current, r.erased with
  | some _, _ => { r with flash := modLast (fun s => { s with recs := s.recs ++ [x] }) r.flash }
  | none, some k =>
    let s : FlashSector :=
      { no := k, device := sectorDevice k, header := sectorHeader x.seq ((assocGet k r.erases).getD 0), recs := [x] }
    { r with erased := none, flash := r.flash ++ [s] }
  | none, none => r

/-- A sector that failed is marked bad and skipped. (DEDUCED log 69) -/
def Mach.flashFail (k : Nat) (m : Mach) : Mach :=
  ((m.updRec (fun r => { r with
    bad := if r.bad.contains k then r.bad else k :: r.bad, erased := if r.erased = some k then none else r.erased
    fails := satInc r.fails })).raise recorderPath 3).ecCount 0xB5 255

/-- What a commit writes: the closed records that are not committed yet. -/
def Recorder.toCommit (r : Recorder) : List Rec := if r.openRec then r.uncommitted.dropLast else r.uncommitted

/-- Room has returned after records were lost with the record RAM full. -/
def Mach.roomBack (m : Mach) : Mach :=
  let owed := m.bench.recd.fullOwed
  if owed ≠ 0 ∧ m.bench.recd.uncommitted.length < 16384 then
    (m.updRec (fun r => { r with fullOwed := 0 })).ownRec 0x0005 (BitVec.ofNat 32 owed) 0
  else m

/-- Flash: generations, failures and anchors. (DEDUCED log 69) -/
def flashCommit (ok : Bool) (m : Mach) : Mach :=
  let r := m.bench.recd
  if m.bench.up = false ∨ r.frozen.isSome ∨ r.toCommit = [] then m
  else if ok then (m.updRec (fun r => r.toCommit.foldl (fun r x => r.write x) r)).roomBack
  else match r.current, r.erased with
    | some s, _ => m.flashFail s.no
    | none, some k => m.flashFail k
    | none, none => m

/-- FLASH_COMMIT. -/
def execFlashCommit (ok : Bool) (t : Nat) (s : State) : Host.Outcome State Fault Refusal := benchRun t (flashCommit ok) s

/-- The sector that follows the last one begun, the bad ones skipped. (DEDUCED log 69) -/
def Recorder.nextSector (r : Recorder) : Option Nat :=
  let from0 := match r.flash.getLast? with
    | some s => s.no + 1
    | none => 0
  ((List.range 512).map (fun k => (from0 + k) % 512)).find? (fun k => !r.bad.contains k)

/-- A sector is erased ahead of the write point. -/
def Mach.eraseAhead (k : Nat) (m : Mach) : Mach :=
  (m.updRec (fun r => { r with
    erased := some k, flash := r.flash.filter (fun s => s.no != k)
    erases := assocSet k ((assocGet k r.erases).getD 0 + 1) r.erases })).ecCount 0xB4 255

/-- A record committed, the next sector erased first where none is left. -/
def Mach.commitRec (m : Mach) (x : Rec) : Mach :=
  let r := m.bench.recd
  let m := if r.current.isNone && r.erased.isNone then r.nextSector.elim m (fun k => m.eraseAhead k) else m
  m.updRec (Recorder.write x)

/-- Every closed record is committed, in `SEQ` order. -/
def Mach.commitClosed (m : Mach) : Mach := m.bench.recd.toCommit.foldl Mach.commitRec m

/-- Flash: generations, failures and anchors. (DEDUCED log 69) -/
def sectorErase (ok : Bool) (m : Mach) : Mach :=
  let r := m.bench.recd
  if m.bench.up = false ∨ r.frozen.isSome ∨ r.erased.isSome then m
  else match r.nextSector with
    | none => m
    | some k =>
      if ok then m.eraseAhead k else m.flashFail k

/-- SECTOR_ERASE. -/
def execSectorErase (ok : Bool) (t : Nat) (s : State) : Host.Outcome State Fault Refusal := benchRun t (sectorErase ok) s

/-! ### The freeze (R451) -/

def sessCode : Sess → Nat
  | .host => 0
  | .mnt n => n

/-- A freeze is refused while another session holds one, and within 2 s of the last release. -/
def Mach.freezeRefused (s : Sess) (m : Mach) : Bool :=
  match m.bench.recd.frozen with
  | some _ => !m.holdsFreeze s
  | none => m.bench.recd.releasedAt.any (fun t => decide (m.now < t + 2000000000))

def Mach.beginFreeze (s : Sess) (m : Mach) : Mach :=
  if m.bench.recd.frozen.isSome then m
  else m.updRec (fun r => { r.close with frozen := some (s, m.sessOpen s, m.now), lostNow := 0 })

/-- The freeze ends: the held records are appended in order, then what was lost and a timeout are recorded. -/
def Mach.endFreeze (timeout : Bool) (m : Mach) : Mach :=
  match m.bench.recd.frozen with
  | none => m
  | some (h, _, _) =>
    let q := m.bench.recd.queue
    let lost := m.bench.recd.lostNow
    let m := m.updRec (fun r => { r with frozen := none, queue := [], lostNow := 0, releasedAt := some m.now })
    let m := q.foldl (fun m x => m.keepRec { x with flags := setBit x.flags 6 true } false) m
    let m := if lost = 0 then m else m.ownRec 0x0003 (BitVec.ofNat 32 lost) 0
    if timeout then (m.ownRec 0x0004 (BitVec.ofNat 32 (sessCode h)) 0).raise recorderPath 0 else m

def freezeTimeout (m : Mach) : Mach :=
  match m.bench.recd.frozen with
  | some (_, _, t) => if t + 5000000000 ≤ m.now then m.endFreeze true else m
  | none => m

/-- FREEZE_TIMEOUT. -/
def execFreezeTimeout (t : Nat) (s : State) : Host.Outcome State Fault Refusal := benchRun t freezeTimeout s

/-! ### Read-out (R452) -/

/-- Every record that can be read, oldest first: the flash below the record RAM, then the RAM. -/
def Recorder.readable (r : Recorder) : List Rec :=
  match r.ram.head? with
  | some x => r.flashRecs.filter (fun y => decide (y.seq < x.seq)) ++ r.ram
  | none => r.flashRecs

/-- The records of a read from a number on, with the number returned first. -/
def Recorder.fetch (first count : Nat) (r : Recorder) : Nat × List Rec :=
  let xs := (r.readable.filter (fun x => decide (first ≤ x.seq))).take count
  (xs.head?.elim first (fun x => x.seq), xs)

/-- The reply words of a read: first number, count, records. -/
def recReply (q : Nat × List Rec) : List W32 :=
  wordsOfBytes32 (beBytes 6 q.1 ++ beBytes 2 q.2.length) ++ q.2.flatMap recWords

/-- The words of INFO: `REC.STATE` to `REC.SUPPRESSED`. -/
def Mach.infoWords (m : Mach) : List W32 := m.readWords {} (pathAddr recorderPath ||| 0x024) 10

end Sys2Proof.Machine
end

