-- ==== Sys2Proof/Machine/Access.lean ====
section
/-! DEFINITION. What the ports share (R43 to R54, R62, R66, R67): replies, the end of a session, snapshots, the judgement of a
write burst, and reads under a session. -/

namespace Sys2Proof.Machine

/-! ### Replies -/

def statusCode : Status → Nat
  | .ok => 0x00 | .pending => 0x01 | .refused => 0x02 | .addrErr => 0x03 | .waitTimeout => 0x04 | .crcErr => 0x05 | .busy => 0x06
  | .none => 0x07 | .seqErr => 0x08 | .authErr => 0x09 | .sessionErr => 0x0A | .lenErr => 0x0B | .notReady => 0xFF

def mntPath : List Nat := benchPath 5
def hostPath : List Nat := benchPath 4

/-- An `AUTH_ERR` reply to a source: the third within 60 s has the port ignore the source for 60 s (R66). -/
def Mach.authFail (ip : W32) (m : Mach) : Mach :=
  let fresh := (ip, m.now) :: m.bench.mnt.failures.filter (fun q => decide (m.now < q.2 + 60000000000))
  let m := (m.updMnt (fun p => { p with authFails := satInc p.authFails, failures := fresh })).ecCount 0xB7 255
  if 3 ≤ (fresh.filter (fun q => q.1 == ip)).length then
    (m.updMnt (fun p => { p with
      failures := fresh.filter (fun q => q.1 != ip), lockouts := (ip, m.now + 60000000000) :: p.lockouts })).benchNote
      (evCode 0xB 0xB7) mntPath ip 0 []
  else m

/-- The reply that an access ends with, an `AUTH_ERR` counted against its source. -/
def Mach.reply (s : Sess) (r : Reply) (m : Mach) : Mach :=
  let m := m.answer s r
  match s with
  | .mnt n => if r.status = .authErr then (match m.mntSess n with | some x => m.authFail x.ip | none => m) else m
  | .host => m

def Mach.status (s : Sess) (c : Status) (m : Mach) : Mach := m.reply s { status := c, data := [] }

/-- The bytes of a datagram that the module sends, its CRC-32 last (R65). -/
def datagramBytes (typ : Byte) (r : MntReply) : List Byte :=
  let bs := bytes16 0x5750 ++ [0x01, typ] ++ beBytes 2 r.session ++ [BitVec.ofNat 8 (statusCode r.status), 0x00] ++
    bytes32 r.seq ++ beBytes 2 r.data.length ++ [0x00, 0x00] ++ r.data
  bs ++ bytes32 (crc32 bs)

/-- A reply, whose type has bit [7] set. -/
def replyBytes (r : MntReply) : List Byte := datagramBytes (r.typ ||| 0x80) r

/-- A NOTIFY, which is no reply. -/
def notifyBytes (r : MntReply) : List Byte := datagramBytes r.typ r

/-! ### The mailbox (R34, R60 to R62) -/

/-- What the words written in a Bench clock held before it. -/
def HostPort.kept (clk : Nat) (h : HostPort) : List (Nat × W32) :=
  match h.before with
  | some (c, kvs) => if c = clk then kvs else []
  | none => []

/-- Words written in a Bench clock. (DEDUCED log 64) -/
def HostPort.store (clk : Nat) (kvs : List (Nat × W32)) (h : HostPort) : HostPort :=
  { h with
    before := some (clk, h.kept clk ++ kvs.map (fun q => (q.1, memRead 0 h.mailbox q.1)))
    mailbox := memWrites 0 kvs h.mailbox }

/-- A word as a read in a Bench clock returns it: one written in the same clock as it was before the write (R61).
(DEDUCED log 64) -/
def HostPort.readAt (clk k : Nat) (h : HostPort) : W32 := (assocGet k (h.kept clk)).getD (memRead 0 h.mailbox k)

/-! ### The end of a session (R47) -/

/-- A session closes: what it held privately is forgotten, and its reads are discarded. -/
def Mach.closeSession (s : Sess) (m : Mach) : Mach :=
  let m := m.updPair (fun p => { p with accesses := p.accesses.filter (fun a => a.sess != s) })
  match s with
  | .host => m.updHost (fun h => { h with host := none, read := none, done := none })
  | .mnt n => m.updMnt (fun p => { p with sessions := p.sessions.filter (fun x => x.id != n) })

/-- The last accepted frame or datagram of a session that is open. -/
def Mach.sessionLast (m : Mach) : Sess → Option Nat
  | .host => m.bench.host.host.map (fun x => x.lastAt)
  | .mnt n => (m.mntSess n).map (fun x => x.sess.lastAt)

/-! ### Why an access is turned away (R44, R50, R66) -/

/-- A session that may not act at all, or not at write level. -/
def Mach.gate (s : Sess) (needsWrite : Bool) (m : Mach) : Option Status :=
  match s with
  | .host => none
  | .mnt n => match m.mntSess n with
    | none => some .sessionErr
    | some x => if x.authed = false ∨ (needsWrite = true ∧ x.level = .read) then some .authErr else none

/-- A burst's length and address, for the session's port. (DEDUCED log 62) -/
def spanRefusal (s : Sess) (a : W32) (count : Nat) : Option Status :=
  if count = 0 ∨ (if inMailbox a then 4096 else 256) < count then some .lenErr
  else if addrOk s a count then none else some .addrErr

/-! ### Snapshots (R54, R131, R163, R188, R441) -/

/-- The counters page completes its snapshot at once, every counter in it. -/
def Mach.snapCounters (m : Mach) : Mach :=
  let secs := BitVec.ofNat 32 m.benchSecs
  (m.updBench (fun b => { b with ec := b.ec.map (fun x => { x with
    group := x.group.complete, delta := x.count - x.snap, snap := x.count, secs := secs }) })).raise (benchPath 2) 0

/-- `SNAP` on a page: started, ignored while one runs, or without effect where the page has no counters. -/
def Page.snap (p : Page) (m : Mach) : Mach :=
  match p with
  | .counters => m.snapCounters
  | .copier l => m.updLane l (fun x =>
      if x.cop.snapFrom.isSome then x
      else { x with cop := { x.cop with group := x.cop.group.start, snapFrom := some m.now } })
  | .agreement l => m.updLane l (fun x =>
      if x.agr.snapFrom.isSome then x
      else { x with agr := { x.agr with group := x.agr.group.start, snapFrom := some m.now } })
  | .voteStats => { m with cal := { m.cal with vote :=
      let v := m.cal.vote
      if v.snapFrom.isSome then v else { v with group := v.group.start, snapFrom := some m.now } } }
  | _ => m

/-- A lane's cycle boundary has come since an instant. -/
def Mach.boundarySince (m : Mach) (l : LaneId) (from0 : Option Nat) : Bool := from0.any (fun t => decide (t < (m.lane l).t0))

/-- A snapshot completes at the next cycle boundary of its unit's lanes. -/
def Page.snapDone (p : Page) (m : Mach) : Mach :=
  match p with
  | .copier l =>
    if m.boundarySince l (m.lane l).cop.snapFrom then
      (m.updLane l (fun x => { x with cop := { x.cop with
        group := x.cop.group.complete, snap := x.cop.live, live := {}, snapFrom := none } })).raise (lanePath l 3) 2
    else m
  | .agreement l =>
    if m.boundarySince l (m.lane l).agr.snapFrom then
      (m.updLane l (fun x => { x with agr := { x.agr with
        group := x.agr.group.complete, snap := x.agr.live, live := {}, snapFrom := none } })).raise (lanePath l 6) 5
    else m
  | .voteStats =>
    let v := m.cal.vote
    if laneIds.any (fun l => m.boundarySince l v.snapFrom) then
      ({ m with cal := { m.cal with vote := { v with
        group := v.group.complete, snap := v.live, live := {}, snapFrom := none } } } : Mach).raise (calPath 4) 0
    else m
  | _ => m

/-! ### Reads under a session (R49, R59, R68) -/

/-- The words of a burst served now, with what reading them changes. -/
def Mach.takeWords (s : Sess) (a : W32) (count : Nat) (m : Mach) : List W32 × Mach :=
  let x := (m.session s).getD {}
  (m.readWords x a count, m.readEffects s x a count)

def Mach.mailboxWords (m : Mach) (a : W32) (count : Nat) : List W32 :=
  (List.range count).map (fun k => m.bench.host.readAt (m.now / 10) (addrOffset a / 4 + k))

/-- The frame that asks the partner for a read (R37), on link 1 while it is in service. (DEDUCED log 120) -/
def Mach.sendRequest (a : W32) (count : Nat) (m : Mach) : Mach :=
  let f := sealRequest { fcrc := 0, link := if m.pair.l1.service then .l1 else .l2, copy := m.ident.copy, cycle := m.cycleNo
                         write := false, addr := a, count := count }
  m.updPair (PairState.send m.now [(m.now, .request f)])

/-- A read that may have to wait joins the reads of its session; one for the partner goes out over the pair link.
(DEDUCED log 64) -/
def Mach.queueRead (s : Sess) (a : W32) (count : Nat) (m : Mach) : Mach :=
  let num := match s with
    | .host => 0
    | .mnt n => (m.mntSess n).elim 0 (fun x => x.seq)
  let r : PendingRead := { addr := a, count := count, at0 := m.now, num := num }
  let m := match m.place a with
    | .partner =>
      let q : PartnerAccess := { sess := s, addr := a, count := count, at0 := m.now, num := num }
      (m.updPair (fun p => { p with accesses := p.accesses ++ [q] })).sendRequest a count
    | _ => m
  match s with
  | .host => (m.updHost (fun h => { h with read := some r, done := none })).status .host .pending
  | .mnt n => m.updMntSess n (fun x => { x with reads := x.reads ++ [r] })

/-- A session's read: turned away, answered at once for the mailbox and the Bench's pages, or queued. -/
def Mach.sessionRead (s : Sess) (a : W32) (count : Nat) (m : Mach) : Mach :=
  match m.gate s false with
  | some c => m.status s c
  | none => match spanRefusal s a count with
    | some c => m.status s c
    | none =>
      if inMailbox a then m.reply s { status := .ok, data := m.mailboxWords a count }
      else match m.place a with
        | .own p =>
          if p.isBench then
            let (ws, m) := m.takeWords s a count
            m.reply s { status := .ok, data := ws }
          else if s = .host ∧ m.bench.host.read.isSome then m.status s .busy else m.queueRead s a count
        | _ => if s = .host ∧ m.bench.host.read.isSome then m.status s .busy else m.queueRead s a count

/-- A read is on its way to the partner. -/
def Mach.onItsWay (m : Mach) (s : Sess) (r : PendingRead) : Bool :=
  m.pair.accesses.any (fun q => q.sess == s && q.addr == r.addr && q.count == r.count && q.at0 == r.at0 && q.num == r.num)

/-- A waiting read ends: the host collects its end with FETCH, a maintenance session has it as the reply. -/
def Mach.endRead (s : Sess) (r : PendingRead) (e : Reply) (m : Mach) : Mach :=
  match s with
  | .host =>
    m.updHost (fun h => { h with
      read := none, done := some e, timeouts := if e.status = .waitTimeout then satInc h.timeouts else h.timeouts })
  | .mnt n => (m.updMntSess n (fun x => { x with reads := x.reads.erase r })).mntAnswer n r.num 0x03 e.status (e.data.flatMap bytes32)

/-- A waiting read polled: it ends with its words or with `WAIT_TIMEOUT`, or waits on. (DEDUCED log 64) -/
def Mach.tryRead (s : Sess) (r : PendingRead) (m : Mach) : Mach :=
  if m.onItsWay s r then m
  else
    let x := (m.session s).getD {}
    match m.pollRead x r with
    | .waits => m
    | .timedOut => m.endRead s r { status := .waitTimeout, data := [] }
    | .words ws => (m.readEffects s x r.addr r.count).endRead s r { status := .ok, data := ws }

end Sys2Proof.Machine
end

