-- ==== Sys2Proof/Machine/Commands.lean ====
section
/-! DEFINITION. Mode commands (R393 to R395, R469): their acceptance by the Bench, their application by the lanes at the
target T0, and their results. -/

namespace Sys2Proof.Machine

/-! ### Results (R394) -/

/-- The pending command completes its result group. (DESIGN CHOICE log 50) -/
def Mach.completeCmd (outcome : Byte) (m : Mach) : Mach :=
  match m.mod.cmd with
  | none => m
  | some c =>
    let m := m.updMod (fun x => { x with
      cmd := none, cmdRes := x.cmdRes.complete, resCode := c.code, resOutcome := outcome, resTarget := c.target })
    (m.raise modPath 9).postModule (mkNotice (evCode 1 (if outcome = 1 then 0x04 else 0x05)) modPath (c.code.setWidth 32)
      (outcome.setWidth 32) (some m.cycleNo) [ecSrc (if outcome = 1 then 0x04 else 0x05)])

/-! ### Acceptance (R393) -/

/-- The lane whose cycle number the Bench reads: A, or B or C, the first that is VOTING. (DEDUCED log 52) -/
def Mach.numberLane (m : Mach) : LaneId := (m.votingLanes.head?).getD .c

/-- `MOD.CMD` takes a command. Where no lane evaluates, it completes at once with outcome 0x02, and its target cycle,
which nothing gives, is a free value. (DESIGN CHOICE log 50) -/
def Mach.issueCommand (code : Byte) (m : Mach) : Mach :=
  let target : W32 := if m.evaluates then (m.lane m.numberLane).cop.cycleNo + 2 else Config.freeWord m.freeCtr
  let m := if m.evaluates then m else m.bumpFree
  let c : PendingCmd := { code := code, target := target, at0 := m.now, applied := false, outcome := 0 }
  let m := m.updMod (fun x => { x with cmd := some c, cmdRes := x.cmdRes.start })
  if m.evaluates then m else m.completeCmd 0x02

/-! ### Application (R394, R395, R469) -/

/-- The permit of a command: none needed, or an output variable that may be unassigned. -/
def permitOf (p : Permits) (trial : Option SetKind) (code : Nat) : Option (Option Nat) :=
  match code with
  | 0x01 => some p.maintain
  | 0x02 => some p.leaveMaintain
  | 0x03 => some p.commission
  | 0x04 => some p.endCommission
  | 0x06 => some p.swap
  | 0x07 => some p.quiesce
  | 0x10 => some p.actFw
  | 0x11 => some p.actFw
  | 0x12 => some p.actSd
  | 0x14 => match trial with
    | some .firmware => some p.actFw
    | _ => some p.actSd
  | 0x15 => some p.enrol
  | _ => none

/-- The permit is granted in the committed output region. -/
def Mach.permitted (m : Mach) (code : Nat) : Bool :=
  match m.sd with
  | none => false
  | some sd => match permitOf sd.permits m.bench.upd.trial code with
    | none => true
    | some none => false
    | some (some a) => m.committed m.numberLane a

/-- A code is allowed in the present mode. -/
def Mach.codeAllowed (m : Mach) (code : Nat) : Bool :=
  let serve := m.mod.mode == .service || m.mod.mode == .degraded
  match code with
  | 0x01 | 0x03 | 0x06 => serve
  | 0x02 => m.mod.mode == .maintain
  | 0x04 | 0x05 => m.mod.mode == .commission
  | 0x07 | 0x11 | 0x15 => m.evaluates
  | 0x10 => m.mod.mode == .service || m.mod.mode == .shadow
  | 0x12 => serve || m.mod.mode == .shadow
  | 0x13 | 0x14 => m.evaluates && m.bench.upd.trial.isSome
  | _ => false

/-- A verified firmware set may vote beside the running one (R468): the vote format and the major version are equal, and
each of lane and Bench firmware lies in the range that the other's manifest states. (DEDUCED log 49) -/
def rollCompatible (u : Update) : Bool :=
  match u.verified .firmware with
  | none => false
  | some i =>
    let new := u.slotOf .firmware i
    let old := u.runSlot .firmware
    let majorMinor (v : W32) : Nat := (v >>> 16).toNat
    match new.manifest with
    | none => false
    | some n =>
      n.voteFmt == u.vfmt && (new.version >>> 24) == (old.version >>> 24) &&
        decide (n.laneLow.toNat ≤ majorMinor old.version) && decide (majorMinor old.version ≤ n.laneHigh.toNat) &&
        (match old.manifest with
          | some o => decide (o.benchLow.toNat ≤ majorMinor new.version) && decide (majorMinor new.version ≤ o.benchHigh.toNat)
          | none => true)

/-- The partner that a swap needs (R383, R385): a shadow with three VOTING lanes and eight equal digests, or a joiner
that is ready under the set that the own inactive slot holds. -/
def Mach.swapReady (m : Mach) : Bool :=
  m.pair.role == .lead && m.pair.present && m.pair.swap == 0xFFFFFFFF && (match m.pair.partner with
    | some f =>
      f.ready && ((f.mode == 7 && f.lanes == 7 && m.partnerSame) ||
        (f.mode == 3 && !m.partnerSame && (match m.bench.upd.verified .stationData with
          | some i => (m.bench.upd.slotOf .stationData i).sdId == f.sdId
          | none => false)))
    | none => false)

/-- The role, pair and slot conditions of a command. -/
def Mach.conditionMet (m : Mach) (code : Nat) : Bool :=
  let u := m.bench.upd
  match code with
  | 0x01 | 0x03 => !m.paired || (m.pair.role == .lead && !(m.pair.present && (match m.pair.partner with
      | some f => f.role == 1 | none => false)))
  | 0x06 => m.paired && m.swapReady
  | 0x10 => decide (m.votingLanes.length = 3) && !u.onTrial .firmware && rollCompatible u
  | 0x11 => !u.onTrial .firmware && (u.verified .firmware).isSome
  | 0x12 => !u.onTrial .stationData && (u.verified .stationData).isSome && !(m.pair.role == .lead && m.pair.present)
  | 0x15 => u.enrol.isSome
  | _ => true

/-- An enrolment operation applied (R461). -/
def enrolOp (op : EnrolOp) (m : Mach) : Mach :=
  match op with
  | .addKey k => m.updUpd (fun u => { u with keysFilled := setBit u.keysFilled k true })
  | .retireKey k => m.updUpd (fun u => { u with keysRetired := setBit u.keysRetired k true })
  | .retireGeneration0 => m.updUpd (fun u => { u with fwGen := setBit u.fwGen 0 false })
  | .setPairIndex i => { m with ident := { m.ident with copy := i } }
  | .setRailwayKey => { m with ident := { m.ident with railwayKey := true } }

/-- The verified enrolment record is applied. -/
def Mach.applyEnrol (m : Mach) : Mach :=
  match m.bench.upd.enrol with
  | some ops => ((ops.foldl (fun m o => enrolOp o m) m).updUpd (fun u => { u with enrol := none })).writeArea
  | none => m

/-- COMMISSION entry starts a sweep, and clears what was seen (R405, R406). -/
def Mach.enterCommissionMode (n : W32) (m : Mach) : Mach :=
  ((m.enterModeAt n .commission).updMod (fun x => { x with
    sweepIn := 0, sweepAi := 0, commissionAt := m.now })).updField (fun f => { f with
      di := f.di.map (fun d => { d with seenHi := false, seenLo := false }), ai := f.ai.map (fun a => { a with seen := false }) })
    |>.startSweep n

/-- An accepted command takes effect at the T0 of cycle `n`. -/
def Mach.effect (n : W32) (code : Nat) (m : Mach) : Mach :=
  match code with
  | 0x01 => m.enterModeAt n .maintain
  | 0x02 | 0x04 => m.enterModeAt n m.serveMode
  | 0x03 => m.enterCommissionMode n
  | 0x05 => m.startSweep n
  | 0x06 => m.updPair (fun p => { p with swap := n + 4 })
  | 0x07 => m.enterQuiesce true
  | 0x10 => m.enterModeAt n .update
  | 0x11 => m.updUpd (fun u => { u with armed := true })
  | 0x12 => (m.beginTrial .stationData).enterOutage
  | 0x13 => m.commitTrial
  | 0x14 => match m.bench.upd.trial with
    | some k => m.fallBack k 5
    | none => m
  | 0x15 => m.applyEnrol
  | _ => m

/-- The lanes apply the pending command at the T0 of cycle `n`. What leaves the module handing over nothing completes its
result at once. -/
def Mach.applyCommand (n : W32) (m : Mach) : Mach :=
  match m.mod.cmd with
  | none => m
  | some c =>
    if c.applied then (if c.target = n then m else m.completeCmd c.outcome)
    else if c.target ≠ n then (if newer n c.target then m.completeCmd 0x05 else m)
    else
      let code := c.code.toNat
      let out : Byte :=
        if m.codeAllowed code = false then 0x02
        else if m.permitted code = false then 0x03
        else if m.conditionMet code = false then 0x04
        else 0x01
      let m := m.updMod (fun x => { x with cmd := some { c with applied := true, outcome := out } })
      if out = 0x01 then
        let m := m.effect n code
        if m.evaluates then m else m.completeCmd 0x01
      else m

/-- At the end of the target cycle's hand-over the result completes; a firmware roll has its slot set active on trial
there, its 60 s counted from the target T0. (DESIGN CHOICE log 50) -/
def Mach.commandDone (l : LaneId) (m : Mach) : Mach :=
  match m.mod.cmd with
  | some c =>
    if c.applied ∧ c.target = (m.lane l).cop.cycleNo then
      let m := if c.code = 0x10 ∧ c.outcome = 1 then
          let t0 := (m.lane l).t0
          ((m.beginTrial .firmware).updUpd (fun u => { u with trialFrom := some t0 })).startRoll false (c.target + 1)
        else m
      m.completeCmd c.outcome
    else m
  | none => m

end Sys2Proof.Machine
end

