-- ==== Sys2Proof/Machine/Transfer.lean ====
section
/-! DEFINITION. The recorder and update transfers (R451 to R453, R457 to R467, R475): requests, update sessions, the checks of
a set, attestation, and the mailbox that carries requests and replies for the host. -/

namespace Sys2Proof.Machine

def transferTyp : Transfer → Nat
  | .info => 0x20 | .recRead _ _ => 0x21 | .recFreeze _ => 0x22 | .updOpen _ _ => 0x10 | .block _ _ _ _ _ => 0x11
  | .verify => 0x12 | .abort => 0x13 | .updStatus => 0x14 | .attest _ => 0x15 | .attRead _ _ => 0x16

/-- INFO and READ need a read-level session, the others a write-level one. -/
def transferWrites : Transfer → Bool
  | .info | .recRead _ _ => false
  | _ => true

/-- How a request ends: its status, and the reply's payload; of a recorder READ also the number and the count returned. -/
structure Ending where
  status : Status := .ok
  first  : Nat := 0
  count  : Nat := 0
  bytes  : List Byte := []
  deriving DecidableEq, Repr

/-! ### Manifests (R459, R465) -/

def natAt (bs : List Byte) (off n : Nat) : Nat := ofBytes ((bs.drop off).take n)

def bitsAt (w : Nat) (bs : List Byte) (off : Nat) : BitVec w := BitVec.ofNat w (natAt bs off (w / 8))

def componentAt (bs : List Byte) (off : Nat) : Component :=
  { kind := bitsAt 16 bs off, offset := natAt bs (off + 4) 4, length := natAt bs (off + 8) 4, digest := bitsAt 384 bs (off + 16) }

def decodeManifest (bs : List Byte) : Manifest :=
  { magic := bitsAt 32 bs 0, kind := bitsAt 8 bs 4, format := bitsAt 8 bs 5, key := bitsAt 8 bs 6, bodyLen := natAt bs 8 4
    imageLen := natAt bs 12 4, version := bitsAt 32 bs 16, voteFmt := bitsAt 16 bs 20, setLow := bitsAt 8 bs 22
    setHigh := bitsAt 8 bs 23, benchLow := bitsAt 16 bs 24, benchHigh := bitsAt 16 bs 26, laneLow := bitsAt 16 bs 28
    laneHigh := bitsAt 16 bs 30, sdId := bitsAt 64 bs 32, orders := BitVec.ofNat 2 (natAt bs 40 1), hwLow := bitsAt 8 bs 42
    hwHigh := bitsAt 8 bs 43, serial0 := bitsAt 64 bs 44, serial1 := bitsAt 64 bs 52
    comps := (List.range (natAt bs 60 2)).map (fun k => componentAt bs (64 + 64 * k)) }

def slotSize : SetKind → Nat
  | .firmware => 0x800000
  | .stationData => 0x2000000
  | .enrolment => 0x100000

/-- The component kinds of a set. -/
def compKinds : SetKind → List W16
  | .firmware => [0x01, 0x02, 0x03]
  | .stationData => [0x11, 0x12, 0x13, 0x14, 0x15, 0x16]
  | .enrolment => [0x21]

/-- Components in order behind the manifest, at multiples of 4,096, apart from each other and within the image. -/
def compsOk (kinds : List W16) (imageLen : Nat) : Nat → List Component → Bool
  | _, [] => true
  | from0, c :: cs =>
    kinds.contains c.kind && decide (c.offset % 4096 = 0) && decide (from0 ≤ c.offset) &&
      decide (c.offset + c.length ≤ imageLen) && compsOk kinds imageLen (c.offset + c.length) cs

/-- The zero bytes of each row of the component table (R459). -/
def compPadsOk (bs : List Byte) : Bool :=
  (List.range (natAt bs 60 2)).all (fun k => natAt bs (66 + 64 * k) 2 == 0 && natAt bs (76 + 64 * k) 4 == 0)

/-- Step 1 of R465. -/
def shapeOk (k : SetKind) (mlen : Nat) (x : Manifest) : Bool :=
  x.magic == 0x73404D46 && x.format == 1 && x.kind.toNat == kindCode k && decide (1 ≤ x.comps.length) &&
    decide (x.comps.length ≤ 16) && x.bodyLen == 64 + 64 * x.comps.length && mlen == x.bodyLen + 16608 &&
    decide (mlen ≤ x.imageLen) && decide (x.imageLen ≤ slotSize k) && compsOk (compKinds k) x.imageLen mlen x.comps

/-- The key that a manifest names is held and not retired (R460, R461). -/
def keyHeld (u : Update) (k : SetKind) (key : Byte) : Bool :=
  match k with
  | .stationData => decide (key.toNat < 4) && u.keysFilled.getLsbD key.toNat && !u.keysRetired.getLsbD key.toNat
  | _ => decide (key.toNat < 2) && u.fwGen.getLsbD key.toNat

/-- Step 4: order code, hardware revision and serial binding; an enrolment record is bound to one serial. Station data of one order code are
valid on the other (R6). (DESIGN CHOICE log 80) -/
def bindingOk (id : Identity) (k : SetKind) (x : Manifest) : Bool :=
  (if k = .stationData then x.orders.getLsbD 0 || x.orders.getLsbD 1
    else if id.order = 0x45 then x.orders.getLsbD 0 else x.orders.getLsbD 1) &&
    decide (x.hwLow.toNat ≤ id.hwRev.toNat) && decide (id.hwRev.toNat ≤ x.hwHigh.toNat) &&
    (match k with
      | .enrolment => (x.serial0 == id.serial && x.serial1 == 0) || (x.serial1 == id.serial && x.serial0 == 0)
      | _ => (x.serial0 == 0 && x.serial1 == 0) || x.serial0 == id.serial || x.serial1 == id.serial)

def inRange16 (lo hi x : W16) : Bool := decide (lo.toNat ≤ x.toNat) && decide (x.toNat ≤ hi.toNat)

/-- Step 5: the Bench and the lane firmware of the set accept each other (R468). -/
def acceptOk (k : SetKind) (x : Manifest) : Bool :=
  let v : W16 := (x.version >>> 16).setWidth 16
  k != .firmware || (inRange16 x.benchLow x.benchHigh v && inRange16 x.laneLow x.laneHigh v)

/-! ### The update session (R462 to R465) -/

/-- A session is open: manifest, blocks or verifying. -/
def Update.opened (u : Update) : Bool := decide (1 ≤ u.state.toNat) && decide (u.state.toNat ≤ 3)

def sessMaint : Sess → Bool
  | .host => false
  | .mnt _ => true

/-- The open session belongs to the port of a request. -/
def Update.owned (s : Sess) (u : Update) : Bool := u.opened && u.maint == sessMaint s

/-- A slot, or the place of an enrolment record, left empty. -/
def Update.emptyTarget (u : Update) : Update :=
  match u.kind with
  | some .enrolment => { u with enrol := none }
  | some k => u.updSlot k u.slot (fun _ => {})
  | none => u

/-- The session ends unverified. -/
def Mach.endUpdate (state : BitVec 3) (result : Byte) (m : Mach) : Mach :=
  (m.updUpd (fun u => { u.emptyTarget with
    state := state, result := result, blocks := [], parts := [], manifestOk := false, verifyFor := none })).raise (benchPath 6) 0

/-- What a request answers with in one byte, kept as the last result. -/
def Mach.updResult (r : Byte) (m : Mach) : Option Ending × Mach :=
  (some { bytes := [r] }, m.updUpd (fun u => { u with result := r }))

def kindOf (k : Byte) : Option SetKind :=
  match k.toNat with
  | 1 => some .firmware
  | 2 => some .stationData
  | 3 => some .enrolment
  | _ => none

/-- The slot that an update may write: beside the running one. -/
def Update.target (k : SetKind) (u : Update) : SlotId :=
  match u.running k with
  | some i => otherSlot i
  | none => .a

/-- OPEN. (DEDUCED log 71) -/
def Mach.updOpen (s : Sess) (kind : Byte) (mlen : Nat) (m : Mach) : Option Ending × Mach :=
  let u := m.bench.upd
  let refuse (r : Byte) : Option Ending × Mach := (some { bytes := [0, r] }, m.updUpd (fun u => { u with result := r }))
  if u.opened then refuse 0x0C
  else match kindOf kind with
    | none => refuse 0x0C
    | some k =>
      let i := u.target k
      if mlen < 16736 ∨ 17696 < mlen then refuse 0x06
      else if k ≠ .enrolment ∧ (u.slotOf k i).state = .previous ∧ u.onTrial k then refuse 0x0A
      else
        let u := { u with
          state := 1, kind := some k, maint := sessMaint s, slot := if k = .enrolment then .a else i, result := 0, reqAt := m.now
          bytes := 0, len := 0, mlen := mlen, manifestOk := false, blocks := [], parts := []
          armed := u.armed && k != .firmware, enrol := if k = .enrolment then none else u.enrol }
        let u := if k = .enrolment then u else u.updSlot k i (fun _ => { state := .loading })
        (some { bytes := [if u.slot = .b then 1 else 0, 0] }, m.updUpd (fun _ => u))

/-- The blocks' bytes in order, up to a length. -/
def Update.image (u : Update) (len : Nat) : List Byte :=
  ((List.range ((len + 4095) / 4096)).flatMap (fun k => (assocGet (4096 * k) u.blocks).getD [])).take len

/-- The first block offset below a length that has not been written. -/
def Update.missing (u : Update) (len : Nat) : Option Nat :=
  ((List.range ((len + 4095) / 4096)).map (fun k => 4096 * k)).find? (fun o => (assocGet o u.blocks).isNone)

/-- Steps 1 to 5 of R465 on a manifest's bytes. -/
def Mach.manifestFault (m : Mach) (k : SetKind) (mlen : Nat) (bs : List Byte) : Option Byte :=
  let x := decodeManifest bs
  let u := m.bench.upd
  if shapeOk k mlen x = false ∨ compPadsOk bs = false ∨ u.blocks.any (fun q => q.2.length != min 4096 (x.imageLen - q.1)) then some 0x01
  else if keyHeld u k x.key = false ∨ Config.rsaOk bs = false then some 0x02
  else if Config.slhOk bs = false then some 0x03
  else if bindingOk m.ident k x = false then some 0x04
  else if acceptOk k x = false then some 0x05
  else none

/-- Every block of the manifest is written: it is verified. -/
def Mach.checkManifest (k : SetKind) (m : Mach) : Option Ending × Mach :=
  let u := m.bench.upd
  let bs := u.image u.mlen
  let x := decodeManifest bs
  match m.manifestFault k u.mlen bs with
  | some r =>
    let m := m.endUpdate 5 r
    let m := if r = 0x02 ∨ r = 0x03 then
        m.benchNote 0xC001 (benchPath 6) (BitVec.ofNat 32 (kindCode k)) (r.setWidth 32) [] else m
    (some { bytes := [r] }, m)
  | none =>
    let put (v : Slot) : Slot := { v with version := x.version, sdId := x.sdId, manifest := some x, mbytes := bs }
    m.updUpd (fun u => { u with state := 2, manifestOk := true, len := x.imageLen })
      |>.updUpd (fun u => if k = .enrolment then u else u.updSlot k u.slot put)
      |>.updResult 0

/-- The parts of a block that have arrived, in order, once all of them have. -/
def Update.gathered (off len : Nat) (u : Update) : Option (List Byte) :=
  let n := (len + 1023) / 1024
  let got (k : Nat) : Option (List Byte) := (u.parts.find? (fun q => q.1 == off && q.2.1 == ⟨k, len⟩)).map (fun q => q.2.2)
  if (List.range n).all (fun k => (got k).isSome) then some ((List.range n).flatMap (fun k => (got k).getD [])) else none

/-- A part of a block: its length fits its place, and it is kept until the block is whole. -/
def Mach.takePart (off : Nat) (p : BlockPart) (data : List Byte) (m : Mach) : Option (List Byte) × Mach :=
  let m := m.updUpd (fun u => { u with
    parts := (off, p, data) :: u.parts.filter (fun q => !(q.1 == off && q.2.1.part == p.part)) })
  match m.bench.upd.gathered off p.len with
  | some bs => (some bs, m.updUpd (fun u => { u with parts := u.parts.filter (fun q => q.1 != off) }))
  | none => (none, m)

/-- A whole block. (DEDUCED log 71) -/
def Mach.updBlock (s : Sess) (off : Nat) (data : List Byte) (crc : W32) (writeOk : Bool) (m : Mach) : Option Ending × Mach :=
  let u := m.bench.upd
  if u.owned s = false ∨ u.state = 3 then m.updResult 0x0C
  else match u.kind with
    | none => m.updResult 0x0C
    | some k =>
      if off % 4096 ≠ 0 ∨ data = [] ∨ 4096 < data.length then m.updResult 0x06
      else if u.manifestOk = false ∧ u.mlen ≤ off then m.updResult 0x0C
      else if u.manifestOk ∧ (u.len ≤ off ∨ data.length ≠ min 4096 (u.len - off)) then m.updResult 0x06
      else if crc32 data ≠ crc then m.updResult 0x07
      else match assocGet off u.blocks with
        | some old => m.updResult (if old = data then 0x00 else 0x08)
        | none =>
          if writeOk = false then m.updResult 0x0B
          else
            let m := m.updUpd (fun u => { u with blocks := assocSet off data u.blocks, bytes := u.bytes + data.length })
            if u.manifestOk = false ∧ (m.bench.upd.missing u.mlen).isNone then m.checkManifest k else m.updResult 0x00

/-- BLOCK: a whole block through the mailbox, or one part of it, of which the last brings the whole (R464). -/
def Mach.blockRequest (s : Sess) (off : Nat) (part : Option BlockPart) (data : List Byte) (crc : W32) (writeOk : Bool) (m : Mach) :
    Option Ending × Mach :=
  match part with
  | none => m.updBlock s off data crc writeOk
  | some p =>
    if m.bench.upd.owned s = false then m.updResult 0x0C
    else if 4 ≤ p.part ∨ 4096 < p.len ∨ data = [] ∨ data.length ≠ min 1024 (p.len - 1024 * p.part) then m.updResult 0x06
    else
      let (whole, m) := m.takePart off p data
      match whole with
      | some bs => m.updBlock s off bs crc writeOk
      | none => m.updResult 0x00

/-! ### Verification (R465, R461, R467) -/

/-- A component fails: a block of it is missing, or its digest differs. The number counts from 1. -/
def Update.badComponent (u : Update) (x : Manifest) : Option Nat :=
  let img := u.image u.len
  ((x.comps.zipIdx).find? (fun q =>
    (u.missing u.len).any (fun o => decide (o < q.1.offset + q.1.length) && decide (q.1.offset < o + 4096)) ||
      sha384 ((img.drop q.1.offset).take q.1.length) != q.1.digest)).map (fun q => q.2 + 1)

/-- An enrolment operation on the key stores as they stand: refused, or its effect on them (R461). (DEDUCED log 71) -/
def enrolStep (u : Update) (op : EnrolOp) : Option Update :=
  match op with
  | .addKey k =>
    if 4 ≤ k ∨ u.keysFilled.getLsbD k ∨ u.keysRetired.getLsbD k then none else some { u with keysFilled := setBit u.keysFilled k true }
  | .retireKey k =>
    if 4 ≤ k ∨ u.keysRetired.getLsbD k then none else some { u with keysRetired := setBit u.keysRetired k true }
  | _ => some u

/-- Update sessions: order of the refusals and what each request answers. (DEDUCED log 71) -/
def enrolAllowed (u : Update) (ops : List EnrolOp) : Bool :=
  decide (ops.length ≤ 8) && (ops.foldl (fun v op => v.bind (fun v => enrolStep v op)) (some u)).isSome

/-- Held in CONFIG without a verified station data set (R402). -/
def Mach.configIdle (m : Mach) : Bool := m.mod.mode == .config && (m.bench.upd.running .stationData).isNone

/-- A verified set is acted on at once while the module is held in CONFIG without station data (R467). -/
def Mach.autoActivate (k : SetKind) (m : Mach) : Mach :=
  if m.configIdle = false then m
  else match k with
    | .stationData => (m.beginTrial .stationData).updMod (fun x => { x with configAt := m.now, configHeld := false })
    | .enrolment => m.applyEnrol
    | .firmware => m.updUpd (fun u => { u with armed := true })

/-- VERIFY ends. `ops` are what the operations component holds. -/
def Mach.verifyEnds (k : SetKind) (ops : List EnrolOp) (m : Mach) : Ending × Mach :=
  let u := m.bench.upd
  let x := decodeManifest (u.image u.mlen)
  match u.badComponent x with
  | some n => ({ bytes := [0x09, BitVec.ofNat 8 n] }, m.endUpdate 5 0x09)
  | none =>
    if (u.missing u.len).isSome then ({ bytes := [0x09, 0] }, m.endUpdate 5 0x09)
    else if k = .enrolment ∧ enrolAllowed u ops = false then ({ bytes := [0x0D, 0] }, m.endUpdate 5 0x0D)
    else
      let m := m.updUpd (fun u => { u with state := 4, result := 0, blocks := [], parts := [], verifyFor := none })
      let m := m.updUpd (fun u => if k = .enrolment then { u with enrol := some ops }
        else u.updSlot k u.slot (fun v => { v with state := .verified }))
      (({ bytes := [0, 0] } : Ending), ((m.raise (benchPath 6) 0).raise (benchPath 6) 1).autoActivate k)

/-! ### Attestation (R475) -/

def digestBytes (s : Slot) : List Byte :=
  if s.state = .empty then List.replicate 48 0 else beBytes 48 (sha384 s.mbytes).toNat

def Mach.laneSdId (m : Mach) (l : LaneId) : W64 := (m.lane l).mem.header.elim 0 (fun h => h.sdId)

/-- The digest of the firmware that a lane runs, as the manifest of its slot states it. -/
def Mach.laneFwDigest (m : Mach) (l : LaneId) : BitVec 384 :=
  let x := (m.bench.upd.slotOf .firmware (m.lane l).fwSlot).manifest
  match x.bind (fun x => x.comps.find? (fun c => c.kind == 0x01)) with
  | some c => c.digest
  | none => Config.laneDigest (m.lane l).fwVer

/-- What bytes 400 to 423 of a report code: the slot record (R458), the token state, `ST.FIELD_AGE_H`, `MOD.HALT.CAUSE` and the
`AGR.ATT.LOCK` of each lane. (DESIGN CHOICE log 79) -/
def Mach.reportStateOf (m : Mach) : List Nat :=
  let u := m.bench.upd
  [u.fwA, u.fwB, u.sdA, u.sdB].map (fun s => slotCode s.state) ++ [u.trialBoots.toNat, u.slotSeq, bitOf m.token.isSome, fieldAge m,
    m.mod.haltCause.toNat] ++ laneIds.map (fun l => bitOf (m.lane l).agr.locked)

/-- Bytes 0 to 831 of the report. -/
def Mach.reportFields (nonce : BitVec 256) (m : Mach) : List Byte :=
  let u := m.bench.upd
  beBytes 32 nonce.toNat ++ bytes64 m.ident.serial ++ [m.ident.order] ++ bytes16 m.ident.hwRev ++ [m.ident.copy.setWidth 8] ++
    digestBytes u.fwA ++ digestBytes u.fwB ++ digestBytes u.sdA ++ digestBytes u.sdB ++
    laneIds.flatMap (fun l => beBytes 48 (m.laneFwDigest l).toNat) ++
    laneIds.flatMap (fun l => bytes32 (loWord (m.laneSdId l))) ++ bytes64 (u.runSlot .stationData).sdId ++
    beBytes 24 (Config.reportState m.reportStateOf).toNat ++ beBytes 6 m.bench.recd.next ++ beBytes 4 m.benchSecs ++
    [BitVec.ofNat 8 (u.keysFilled.toNat + 16 * u.keysRetired.toNat), u.fwGen.setWidth 8] ++ List.replicate 12 0 ++
    (if m.ident.railwayKey then beBytes 384 Config.reportKey.toNat else List.replicate 384 0)

def Mach.attestReport (nonce : BitVec 256) (m : Mach) : List Byte :=
  let body := m.reportFields nonce ++ bytes32 (crc32 (m.reportFields nonce))
  body ++ Config.reportSigned body

/-! ### The requests carried out -/

/-- The reply of STATUS: the words of `UPD.SESS` and `UPD.SLOT`, and the offset of the first missing block.
(DEDUCED log 71) -/
def Mach.updStatusBytes (m : Mach) : List Byte :=
  let u := m.bench.upd
  let len := if u.manifestOk then u.len else u.mlen
  (m.readWords {} (pathAddr (benchPath 6) ||| 0x020) 4).flatMap bytes32 ++
    beBytes 4 (if u.opened then (u.missing len).getD len else 0)

/-- The most records that one READ returns: 16 over the maintenance port, 127 through the mailbox. -/
def readLimit : Sess → Nat
  | .host => 127
  | .mnt _ => 16

def Mach.recFreeze (s : Sess) (op : Byte) (m : Mach) : Option Ending × Mach :=
  if op = 1 then
    if m.freezeRefused s then (some { status := .refused }, m) else (some {}, m.beginFreeze s)
  else if op = 2 then
    if m.bench.recd.frozen.isNone then (some {}, m)
    else if m.holdsFreeze s then (some {}, m.endFreeze false) else (some { status := .refused }, m)
  else (some { status := .refused }, m)

/-- A request: how it ends, or that its reply comes later. `num` is its request number. -/
def Mach.carryOut (s : Sess) (num : W32) (x : Transfer) (m : Mach) : Option Ending × Mach :=
  match x with
  | .info => (some { bytes := m.infoWords.flatMap bytes32 }, m)
  | .recRead first count =>
    if count = 0 ∨ readLimit s < count then (some { status := .lenErr }, m)
    else
      let (n, xs) := m.bench.recd.fetch first count
      (some { first := n, count := xs.length, bytes := xs.flatMap recBytes }, m)
  | .recFreeze op => m.recFreeze s op
  | .updOpen kind mlen => m.updOpen s kind mlen
  | .block off part data crc ok => m.blockRequest s off part data crc ok
  | .verify =>
    if m.bench.upd.owned s = false ∨ m.bench.upd.state ≠ 2 then
      (some { bytes := [0x0C, 0] }, m.updUpd (fun u => { u with result := 0x0C }))
    else (none, m.updUpd (fun u => { u with state := 3, verifyFor := some (s, num) }))
  | .abort => (some {}, if m.bench.upd.owned s then m.endUpdate 0 0 else m)
  | .updStatus => (some { bytes := m.updStatusBytes }, m)
  | .attest nonce =>
    (none, m.updUpd (fun u => { u with attNonce := some nonce, attFor := some (s, num), att := u.att.start }))
  | .attRead off len =>
    if len = 0 ∨ 1024 < len then (some { status := .lenErr }, m)
    else if m.bench.upd.report.length < off + len then (some { status := .addrErr }, m)
    else (some { count := len, bytes := (m.bench.upd.report.drop off).take len }, m)

/-! ### The mailbox (R60, R62, R453) -/

/-- A word that both sides write in one clock: the Bench's write is dropped, the collision counted, and the word rewritten after the
host's next doorbell. -/
def Mach.collision (m : Mach) (q : Nat × W32) : Mach :=
  (m.updHost (fun h => { h with
    collide := satInc h.collide, collideAt := BitVec.ofNat 12 q.1, rewrite := h.rewrite ++ [q] })).ecCount 0xB8 255

/-- The Bench writes mailbox words. A word that the host port wrote in the same 10 ns clock keeps the host's value.
(DEDUCED log 64) -/
def Mach.benchMail (from0 : Nat) (ws : List W32) (m : Mach) : Mach :=
  (ws.zipIdx).foldl (fun m q =>
    let k := from0 + q.2
    let clk := m.now / 10
    if m.bench.host.lastWrite.any (fun h => h.1 == clk && decide (h.2.1 ≤ k) && decide (k < h.2.1 + h.2.2)) then m.collision (k, q.1)
    else m.updHost (fun h =>
      let past := match h.benchWrite with
        | some (c, kvs) => if c = clk then kvs else []
        | none => []
      { h.store clk [(k, q.1)] with benchWrite := some (clk, past ++ [(k, q.1)]) })) m

/-- A reply in the mailbox, and the doorbell after it. -/
def Mach.mailReply (num : W32) (typ : Nat) (e : Ending) (m : Mach) : Mach :=
  let head : List W32 :=
    [BitVec.ofNat 32 ((typ + 0x80) * 2 ^ 24 + num.toNat % 2 ^ 24),
     fields [(0, statusCode e.status), (16, if typ = 0x21 then e.count else e.bytes.length)],
     BitVec.ofNat 32 (e.first / 2 ^ 32 % 2 ^ 16), BitVec.ofNat 32 e.first]
  let m := m.benchMail 0x800 (head ++ wordsOfBytes32 e.bytes)
  (m.updHost (fun h => { h with b2h := BitVec.ofNat 32 (num.toNat % 2 ^ 24) })).raise hostPath 0

/-- A request's reply on its port. -/
def Mach.finish (s : Sess) (num : W32) (typ : Nat) (e : Ending) (m : Mach) : Mach :=
  match s with
  | .host => m.mailReply num typ e
  | .mnt n =>
    let bs := if typ = 0x21 ∧ e.status = .ok then beBytes 6 e.first ++ beBytes 2 e.count ++ e.bytes else e.bytes
    let m := m.mntAnswer n num (BitVec.ofNat 8 typ) e.status bs
    if e.status = .authErr then (match m.mntSess n with | some x => m.authFail x.ip | none => m) else m

/-- A request under a session, from its arrival to its reply where that comes at once. A request on an open update session
starts its 10 min anew (R462). -/
def Mach.serveTransfer (s : Sess) (num : W32) (x : Transfer) (m : Mach) : Mach :=
  match m.gate s (transferWrites x) with
  | some c => m.finish s num (transferTyp x) { status := c }
  | none =>
    let m := if (transferTyp x) < 0x20 ∧ m.bench.upd.owned s then m.updUpd (fun u => { u with reqAt := m.now }) else m
    let (e, m) := m.carryOut s num x
    match e with
    | some e => m.finish s num (transferTyp x) e
    | none => m

/-- A mailbox word that no one has written reads 0, and lane memories start at their default. (DESIGN CHOICE log 65) -/
def Mach.mailWord (m : Mach) (k : Nat) : W32 := memRead 0 m.bench.host.mailbox k

/-- A word as the Bench reads it now. -/
def Mach.mailSeen (m : Mach) (k : Nat) : W32 := m.bench.host.readAt (m.now / 10) k

def Mach.mailBytes (m : Mach) (from0 n : Nat) : List Byte :=
  ((List.range ((n + 3) / 4)).flatMap (fun k => bytes32 (m.mailSeen (from0 + k)))).take n

/-- The request that stands in the mailbox, with the words it covers. -/
def Mach.mailRequest (m : Mach) : Option (Transfer × Nat) :=
  let w (k : Nat) : Nat := (m.mailSeen k).toNat
  match w 0 / 2 ^ 24 with
  | 0x20 => some (.info, 1)
  | 0x21 => some (.recRead (w 1 % 2 ^ 16 * 2 ^ 32 + w 2) (w 3), 4)
  | 0x22 => some (.recFreeze (BitVec.ofNat 8 (w 3)), 4)
  | 0x10 => some (.updOpen (BitVec.ofNat 8 (w 1)) (w 2), 4)
  | 0x11 =>
    let n := w 2 % 2 ^ 16
    some (.block (w 1) none (m.mailBytes 4 (min n 4097)) (m.mailSeen 3) true, 4 + (n + 3) / 4)
  | 0x12 => some (.verify, 1)
  | 0x13 => some (.abort, 1)
  | 0x14 => some (.updStatus, 1)
  | 0x15 => some (.attest (BitVec.ofNat 256 (ofBytes (m.mailBytes 4 32))), 12)
  | 0x16 => some (.attRead (w 1) (w 2), 4)
  | _ => none

/-- The doorbell: the request whose number it carries is served; one over a marked word is answered `CRC_ERR`, under the number of the
doorbell where the marked word is the first. -/
def Mach.doorbell (v : W32) (m : Mach) : Mach :=
  let m := m.updHost (fun h => { h.store (m.now / 10) h.rewrite with h2b := v, rewrite := [] })
  let num := (m.mailSeen 0).toNat % 2 ^ 24
  if m.bench.host.marked.contains 0 then m.mailReply v ((m.mailSeen 0).toNat / 2 ^ 24) { status := .crcErr }
  else match m.mailRequest with
  | none => m
  | some (x, n) =>
    if v.toNat ≠ num then m
    else if m.bench.host.marked.any (fun k => decide (k < n)) then m.mailReply v (transferTyp x) { status := .crcErr }
    else m.serveTransfer .host v x

end Sys2Proof.Machine
end

