-- ==== Sys2Proof/Machine/RegWrite.lean ====
section
/-! DEFINITION. Writes into the register space (R42 to R46, R54, R393, R431, R439, R446, R451, R476): which words a burst may
write, what each word does, and the commands that write one register. -/

namespace Sys2Proof.Machine

/-! ### What may be written (R43 to R45) -/

/-- The offsets that a read-level session may write (R44). -/
def headOffset (off : Nat) : Bool := [0x008, 0x010, 0x014, 0x018].contains off

/-- The codes of R395 and R469. -/
def listedCode (code : Nat) : Bool :=
  (decide (1 ≤ code) && decide (code ≤ 7)) || (decide (0x10 ≤ code) && decide (code ≤ 0x15))

def opFreeze : Nat := 1
def opRelease : Nat := 2

/-- A release is refused while another session holds the freeze. (DEDUCED log 62) -/
def Mach.releaseRefused (s : Sess) (m : Mach) : Bool := m.bench.recd.frozen.isSome && !m.holdsFreeze s

/-- Why a word of a page may not take a value, by the register's own rule. `span` lists the offsets of the burst.
(DEDUCED log 62) -/
def Page.writeRefusal (m : Mach) (s : Sess) (span : List Nat) (off : Nat) (v : W32) (p : Page) : Option Status :=
  if off = 0x018 then (if v.toNat % 2 ^ 16 < p.count m then none else some .addrErr)
  else if headOffset off then none
  else
    let refuse (b : Bool) : Option Status := if b then some .refused else none
    match p, off with
    | .module, 0x02C =>
      refuse (v.toNat / 2 ^ 8 % 2 ^ 8 != 0xA5 || !listedCode (v.toNat % 2 ^ 8) || m.mod.cmd.isSome)
    | .recorder, 0x020 =>
      if v.toNat % 2 ^ 8 = opFreeze then refuse (m.freezeRefused s)
      else if v.toNat % 2 ^ 8 = opRelease then refuse (m.releaseRefused s) else none
    | .recorder, 0x05C | .recorder, 0x060 => refuse (!m.timeSetter || !span.contains 0x05C || !span.contains 0x060)
    | .counters, 0x020 | .hostPort, 0x020 | .selfTest, 0x04C | .update, 0x064 => none
    | _, _ => some .refused

/-! ### What a word does -/

/-- `IRQ_STAT` bits cleared for every session; of a group descriptor only its own causes (R46, R55). -/
def Page.clearIrq (p : Page) (v : W32) (m : Mach) : Mach :=
  let v := if p.isGroup then v &&& 0xFFFFFF00 else v
  { m with irq := memWrite 0 p.no (memRead 0 m.irq p.no &&& ~~~v) m.irq }

/-- `EC.CFG` changes a counter for every session, and clears its count; `seen` are the sources of the same Bench clock, which count
under the new configuration (R439). (DEDUCED log 121) -/
def configCounter (seen : List (Byte × Byte)) (v : W32) (x : EventCounter) : EventCounter :=
  seen.foldl (fun x q => if x.admits q.1 q.2 then x.stepBy 1 else x)
    { x with src := v.setWidth 8, qual := (v >>> 8).setWidth 8, sat := v.getLsbD 16, count := 0 }

def Mach.recOp (s : Sess) (v : W32) (m : Mach) : Mach :=
  if v.toNat % 2 ^ 8 = opFreeze then m.beginFreeze s
  else if v.toNat % 2 ^ 8 = opRelease then m.endFreeze false else m

/-- Station time set: it goes out in the first reference sent at least 2 ms later (R446). -/
def Mach.setTime (lo hi : W32) (m : Mach) : Mach :=
  m.updRec (fun r => { r with setPending := some (hi.toNat % 2 ^ 16 * 2 ^ 32 + lo.toNat, m.now) })

/-- A word written. `lo` is the burst's word at `REC.TIME_SET_LO`. -/
def Page.writeWord (s : Sess) (lo : W32) (off : Nat) (v : W32) (p : Page) (m : Mach) : Mach :=
  match off with
  | 0x008 => if v.getLsbD 0 then p.snap m else m
  | 0x010 => p.clearIrq v m
  | 0x014 => m.updSession s (fun x => { x with mask := memWrite 0 p.no v x.mask })
  | 0x018 => m.updSession s (fun x => { x with chan := assocSet p.no (v.setWidth 16) x.chan })
  | _ =>
    match p, off with
    | .module, 0x02C => m.issueCommand (v.setWidth 8)
    | .recorder, 0x020 => m.recOp s v
    | .recorder, 0x060 => m.setTime lo v
    | .counters, 0x020 =>
      let k := ((m.session s).getD {}).sel .counters
      m.updBench (fun b => { b with ec := modAt (configCounter m.ecNow v) k b.ec })
    | .hostPort, 0x020 => m.doorbell v
    | .selfTest, 0x04C => if v.toNat % 2 ^ 8 = 0xD5 then m.eraseToken else m
    | .update, 0x064 => if v.toNat % 2 ^ 8 = 0xAB ∧ m.bench.upd.opened then m.endUpdate 0 0 else m
    | _, _ => m

/-! ### Bursts -/

/-- The offsets of a burst, with its words. -/
def burstWords (a : W32) (data : List W32) : List (Nat × W32) :=
  (data.zipIdx).map (fun q => (addrOffset a + 4 * q.2, q.1))

/-- Why a register burst is refused whole. The partner is never written; of an absent unit only the header takes words.
(DEDUCED log 62) -/
def Mach.burstRefusal (m : Mach) (s : Sess) (a : W32) (data : List W32) : Option Status :=
  let ws := burstWords a data
  match m.gate s (ws.any (fun q => !headOffset q.1)) with
  | some c => some c
  | none => match m.place a with
    | .partner => some .refused
    | .own p => ws.findSome? (fun q => p.writeRefusal m s (ws.map Prod.fst) q.1 q.2)
    | .absent => ws.findSome? (fun q =>
        if q.1 = 0x018 then some .addrErr else if headOffset q.1 then none else some .refused)

/-- The words of an accepted burst, in order. -/
def Mach.burstEffect (s : Sess) (a : W32) (data : List W32) (m : Mach) : Mach :=
  let ws := burstWords a data
  let lo := (assocGet 0x05C ws).getD 0
  match m.place a with
  | .own p => ws.foldl (fun m q => p.writeWord s lo q.1 q.2 m) m
  | _ => m

/-- A session whose summary of the pair descriptor reads 0 again may be notified of the next cause (R68). -/
def Mach.settleSummaries (m : Mach) : Mach :=
  m.updMnt (fun p => { p with sessions := p.sessions.map (fun x =>
    if m.pairIrq x.sess = 0 then { x with summary := 0 } else x) })

/-- The host port stores mailbox words; one that the Bench wrote in the same clock keeps the host's value (R60). -/
def Mach.hostWords (k0 : Nat) (ws : List W32) (m : Mach) : Mach :=
  let clk := m.now / 10
  let m := m.updHost (fun h => { h.store clk ((ws.zipIdx).map (fun q => (k0 + q.2, q.1))) with
    lastWrite := some (clk, k0, ws.length) })
  match m.bench.host.benchWrite with
  | some (c, kvs) =>
    if c = clk then (kvs.filter (fun q => decide (k0 ≤ q.1) && decide (q.1 < k0 + ws.length))).foldl Mach.collision m else m
  | none => m

/-- Mailbox words that no longer count as covered by a bad CRC (R62, R453). -/
def HostPort.unmark (k0 n : Nat) (h : HostPort) : HostPort :=
  { h with marked := h.marked.filter (fun k => decide (k < k0) || decide (k0 + n ≤ k)) }

/-- The host port writes mailbox words, which are marked no longer. (DEDUCED log 64) -/
def Mach.hostMail (a : W32) (data : List W32) (m : Mach) : Mach :=
  let k0 := addrOffset a / 4
  (m.hostWords k0 data).updHost (HostPort.unmark k0 data.length)

/-- A burst under a session: into the mailbox, refused whole, or written. -/
def Mach.writeBurst (s : Sess) (a : W32) (data : List W32) (m : Mach) : Mach :=
  match spanRefusal s a data.length with
  | some c => m.status s c
  | none =>
    if inMailbox a then (m.hostMail a data).status s .ok
    else match m.burstRefusal s a data with
      | some c => m.status s c
      | none => ((m.burstEffect s a data).settleSummaries).status s .ok

/-- The Bench answers no access while it restarts or has no power: the host reads `NOT_READY`, the maintenance port is
silent (R22, R57, R498). -/
def Mach.served (s : Sess) (f : Mach → Mach) (m : Mach) : Mach :=
  if m.benchServes then f m
  else match s with
    | .host => m.updHost (fun h => { h with reply := some { status := .notReady, data := [] }, crc := none })
    | .mnt _ => m

/-- A burst of the host port that counts as an accepted frame. -/
def hostRegs (a : W32) (data : List W32) (m : Mach) : Mach :=
  m.served .host (fun m => (m.touch .host).writeBurst .host a data)

/-! ### Snapshots -/

/-- A snapshot's completion, for the page that an address lies in. -/
def snapshotComplete (page : W32) (m : Mach) : Mach :=
  match m.place page with
  | .own p => p.snapDone m
  | _ => m

/-- SNAPSHOT_COMPLETE. -/
def execSnapshotComplete (page : W32) (t : Nat) (s : State) : Host.Outcome State Fault Refusal :=
  benchRun t (snapshotComplete page) s

/-! ### Mode commands (R394) -/

/-- A VOTING lane answers the read of its cycle number: its bridge grants, or granted before the cycle that it is in.
(DESIGN CHOICE log 100) -/
def Mach.cycleRead (c : PendingCmd) (m : Mach) : Bool :=
  m.evaluates && m.votingLanes.any (fun l => m.grants l || decide (c.at0 < (m.lane l).t0))

/-- No lane answered the read of the cycle number within one logic cycle. (DESIGN CHOICE log 100) -/
def commandUnserved (m : Mach) : Mach :=
  match m.mod.cmd with
  | some c => if c.applied = false ∧ c.at0 + m.cycleNs ≤ m.now ∧ m.cycleRead c = false then m.completeCmd 0x05 else m
  | none => m

/-- COMMAND_UNSERVED. -/
def execCommandUnserved (t : Nat) (s : State) : Host.Outcome State Fault Refusal := benchRun t commandUnserved s

end Sys2Proof.Machine
end

