-- ==== Sys2Proof/Machine/HostPort.lean ====
section
/-! DEFINITION. The quad-SPI host port (R47, R55 to R63, R453, R498), and the reads that any session makes of result groups and
clearing registers. -/

namespace Sys2Proof.Machine

/-! ### Reads and FETCH (R59) -/

/-- The module closes a frame with the CRC over every byte before it: `pre` as the host sent it, the status byte where the frame has
one, and the data (R57, R58). (DEDUCED log 66) -/
def Mach.sealFrame (pre : List Byte) (withStatus : Bool) (m : Mach) : Mach :=
  m.updHost (fun h => { h with crc := h.reply.map (fun r =>
    crc16 (pre ++ (if withStatus then [BitVec.ofNat 8 (statusCode r.status)] else []) ++ r.data.flatMap bytes32)) })

/-- An accepted frame of the host, answered with a CRC. (DEDUCED log 66) -/
def hostFrame (pre : List Byte) (withStatus : Bool) (f : Mach → Mach) (m : Mach) : Mach :=
  m.served .host (fun m => (f (m.touch .host)).sealFrame pre withStatus)

/-- The opcode, address and count of a READ frame. (DEDUCED log 66) -/
def readFrameBytes (a : W32) (count : Nat) : List Byte := 0xEB :: bytes32 a ++ beBytes 2 count

/-- A READ frame. -/
def hostRead (addr : W32) (count : Nat) (m : Mach) : Mach :=
  hostFrame (readFrameBytes addr count) true (fun m => m.sessionRead .host addr count) m

/-- The pending read of the host, polled. -/
def hostReadComplete (m : Mach) : Mach :=
  match m.bench.host.read with
  | some r => if m.benchServes then m.tryRead .host r else m
  | none => m

/-- HOST_READ_COMPLETE. -/
def execHostReadComplete (t : Nat) (s : State) : Host.Outcome State Fault Refusal := benchRun t hostReadComplete s

/-- The queued read collected. -/
def fetchRead (m : Mach) : Mach :=
  match m.bench.host.done with
  | some r => (m.updHost (fun h => { h with done := none })).reply .host r
  | none => m.status .host (if m.bench.host.read.isSome then .pending else .none)

/-- `HSPI_IRQN` is asserted: the pair descriptor's `IRQ_STAT`, seen by the host session, is not 0 (R55). -/
def Mach.irqAsserted (m : Mach) : Bool := m.benchServes && m.bench.host.host.any (fun x => m.pairIrq x != 0)

/-- The port status word (R57). (DEDUCED log 66) -/
def Mach.portStatus (m : Mach) : W32 :=
  let h := m.bench.host
  fields [(0, statusCode h.last), (8, bitOf h.read.isSome), (9, bitOf h.host.isSome), (10, bitOf m.irqAsserted)]

/-- The frame returns the port status word; it is no access, and the code of the last one stands. -/
def portStatus (m : Mach) : Mach := m.updHost (fun h => { h with reply := some { status := h.last, data := [m.portStatus] } })

/-! ### WRITE and CLOSE (R57, R58, R62) -/

/-- The bytes that the CRC of a WRITE frame covers. -/
def writeFrameBytes (a : W32) (count : Nat) (data : List W32) : List Byte :=
  0x38 :: bytes32 a ++ beBytes 2 count ++ data.flatMap bytes32

/-- The host port counts READ, FETCH and STATUS as accepted frames. (DEDUCED log 66) -/
def Mach.crcError (m : Mach) : Mach := m.updHost (fun h => { h with crcErrs := satInc h.crcErrs })

/-- Mailbox words that a WRITE with a bad CRC covers: stored as they arrive, each then holds a free value and is marked.
(DESIGN CHOICE log 65) -/
def Mach.spoilMail (a : W32) (n : Nat) (m : Mach) : Mach :=
  let k0 := addrOffset a / 4
  let m := { m.hostWords k0 ((List.range n).map (fun i => Config.freeWord (m.freeCtr + i))) with freeCtr := m.freeCtr + n }
  m.updHost (fun h => { h.unmark k0 n with marked := (List.range n).map (k0 + ·) ++ (h.unmark k0 n).marked })

/-- A WRITE frame: held until its CRC checks. One that ends before its data is complete is discarded; one with more data than its
count says is inconsistent with it (R50, R57). (DEDUCED log 62) -/
def hostWrite (addr : W32) (count : Nat) (data : List W32) (crc : W16) (m : Mach) : Mach :=
  if data.length < count then m
  else if crc16 (writeFrameBytes addr count data) ≠ crc then
    let m := m.crcError
    let m := if inMailbox addr ∧ (spanRefusal .host addr data.length).isNone then m.spoilMail addr data.length else m
    m.status .host .crcErr
  else if count < data.length then (m.touch .host).status .host .lenErr
  else (m.touch .host).writeBurst .host addr data

def hostClose (crc : W16) (m : Mach) : Mach :=
  if crc16 [0x66] ≠ crc then m.crcError else (m.touch .host).closeSession .host

/-! ### Sessions (R47) -/

/-- A session closes 30 s after its last accepted frame or datagram; the host's end is told at its next frame. -/
def sessionTimeout (s : Sess) (m : Mach) : Mach :=
  match m.sessionLast s with
  | some t =>
    if t + 30000000000 ≤ m.now then
      let m := m.closeSession s
      if s = .host then m.updHost (fun h => { h with closedByTimeout := true }) else m
    else m
  | none => m

/-- SESSION_TIMEOUT. -/
def execSessionTimeout (sess : Sess) (t : Nat) (s : State) : Host.Outcome State Fault Refusal :=
  benchRun t (sessionTimeout sess) s

/-! ### Result groups (R51) -/

/-- The length of the result group whose status word an address names; 1 elsewhere. -/
def Mach.groupSpan (m : Mach) (s : Sess) (a : W32) : Nat :=
  match m.place a with
  | .own p => match p.group m (((m.session s).getD {}).sel p) with
    | some (o, n, _) => if addrOffset a = o then n else 1
    | none => 1
  | _ => 1

/-! ### The partner (R37) -/

/-- The oldest read on its way to the partner ends. (DESIGN CHOICE log 48) -/
def Mach.endPartnerRead (e : Reply) (m : Mach) : Mach :=
  match m.pair.accesses with
  | [] => m
  | q :: rest =>
    (m.updPair (fun p => { p with accesses := rest })).endRead q.sess
      { addr := q.addr, count := q.count, at0 := q.at0, num := q.num } e

/-- A partner read that was not served within 2 logic cycles ends with `WAIT_TIMEOUT`. (DESIGN CHOICE log 48) -/
def partnerReadTimeout (m : Mach) : Mach :=
  match m.pair.accesses.head? with
  | some q => if q.at0 + 2 * m.cycleNs ≤ m.now then m.endPartnerRead { status := .waitTimeout, data := [] } else m
  | none => m

/-- PARTNER_READ_TIMEOUT. -/
def execPartnerReadTimeout (t : Nat) (s : State) : Host.Outcome State Fault Refusal := benchRun t partnerReadTimeout s

def Mach.linkInService (m : Mach) : LinkId → Bool
  | .l1 => m.pair.l1.service
  | .l2 => m.pair.l2.service

/-- The partner's address of a page in its own tree: level 1 value 1. -/
def ownAddr (a : W32) : W32 := (a &&& 0x8FFFFFFF) ||| 0x10000000

/-- An access of the partner: a write is refused, a read waits for its lane where it has one. -/
def Mach.partnerAsks (k : LinkId) (f : AccessFrame) (m : Mach) : Mach :=
  if f.write then m.sendAnswer k { status := .refused, data := [] }
  else match spanRefusal (.mnt 0) (ownAddr f.addr) f.count with
    | some c => m.sendAnswer k { status := c, data := [] }
    | none => (m.updPair (fun p => { p with asked := p.asked ++ [(ownAddr f.addr, f.count, m.now, k)] })).serveAsked

/-- A Bench access frame that its link accepts, while that link and the Bench serve. -/
def Mach.benchTakes (k : LinkId) (x : PairFrame) (f : Mach → Mach) (m : Mach) : Mach :=
  m.linkTakes k x (fun m => if m.benchServes ∧ m.linkInService k then f m else m)

/-- The partner's condition and reads of its registers. (DESIGN CHOICE log 48) -/
def benchAccessRequest (k : LinkId) (f : AccessFrame) (m : Mach) : Mach := m.benchTakes k (.request f) (Mach.partnerAsks k f)

/-- BENCH_ACCESS_REQUEST. -/
def execBenchAccessRequest (k : LinkId) (f : AccessFrame) (t : Nat) (s : State) : Host.Outcome State Fault Refusal :=
  benchRun t (benchAccessRequest k f) s

def benchAccessReply (k : LinkId) (f : AnswerFrame) (m : Mach) : Mach := m.benchTakes k (.answer f) (Mach.endPartnerRead f.reply)

/-- BENCH_ACCESS_REPLY. -/
def execBenchAccessReply (k : LinkId) (f : AnswerFrame) (t : Nat) (s : State) : Host.Outcome State Fault Refusal :=
  benchRun t (benchAccessReply k f) s

end Sys2Proof.Machine
end

