-- ==== Sys2Proof/Machine/MntPort.lean ====
section
/-! DEFINITION. The maintenance port (R47, R64 to R69, R451, R452, R463): datagrams, sessions, sequence numbers, NOTIFY and the
address; the order of accesses of both ports, and the update requests that are answered late. -/

namespace Sys2Proof.Machine

/-! ### Datagrams (R65 to R67) -/

/-- A source that the port ignores (R66). -/
def Mach.lockedOut (m : Mach) (ip : W32) : Bool := m.bench.mnt.lockouts.any (fun q => q.1 == ip && decide (m.now < q.2))

/-- A request's header and payload, as its CRC-32 covers them (R65). -/
def requestBytes (h : MntHead) (typ : Byte) (n : Nat) (seq : W32) (payload : List Byte) : List Byte :=
  bytes16 h.magic ++ [h.version, typ] ++ beBytes 2 n ++ [0x00, 0x00] ++ bytes32 seq ++ bytes16 h.length ++ [0x00, 0x00] ++ payload

/-- The checks of R65: magic, version, length and CRC-32. -/
def headPasses (typ : Byte) (n : Nat) (seq : W32) (payload : List Byte) (h : MntHead) : Bool :=
  h.magic == 0x5750 && h.version == 0x01 && h.length.toNat == payload.length && decide (payload.length ≤ 1060) &&
    h.crc == crc32 (requestBytes h typ n seq payload)

/-- A datagram that arrives: one that is fragmented or to another port is discarded, one that fails a check is discarded and counted,
and one from a source locked out is ignored. -/
def Mach.datagram (h : MntHead) (typ : Byte) (n : Nat) (seq : W32) (payload : List Byte) (f : Mach → Mach) (m : Mach) : Mach :=
  m.served (.mnt 0) (fun m =>
    let m := m.updMnt (fun p => { p with link := true })
    if h.whole = false ∨ h.port ≠ 27340 then m
    else if headPasses typ n seq payload h = false then m.updMnt (fun p => { p with bad := satInc p.bad })
    else if m.lockedOut h.ip then m else f m)

/-- A reply to a request that no session takes up. -/
def Mach.turnAway (ip : W32) (typ : Byte) (n : Nat) (seq : W32) (c : Status) (m : Mach) : Mach :=
  m.updMnt (fun p => { p with reply := some { ip := ip, typ := typ, session := n, status := c, seq := seq, data := [] } })

/-- A request of a session under R67: the next number is carried out, the last one again is answered with the stored reply,
or ignored while it is in progress. (DEDUCED log 67) -/
def Mach.sequenced (ip : W32) (typ : Byte) (n : Nat) (seq : W32) (f : Mach → Mach) (m : Mach) : Mach :=
  match m.mntSess n with
  | none => m.turnAway ip typ n seq .sessionErr
  | some x =>
    if seq = x.seq + 1 then
      f (((m.updMntSess n (fun x => { x with ip := ip, seq := seq, typ := typ, reply := none }))).touch (.mnt n))
    else if seq = x.seq then
      match x.reply with
      | some r => (m.touch (.mnt n)).updMnt (fun p => { p with reply := some { r with ip := ip } })
      | none => m.touch (.mnt n)
    else m.turnAway ip typ n seq .seqErr

/-- `MNT_OPEN_READ` of the station data. -/
def Mach.openRead (m : Mach) : Bool := m.benchSet.any (fun x => x.mntOpenRead == some true)

def levelOf (b : Byte) : Option Level :=
  match b.toNat with
  | 1 => some .read
  | 2 => some .write
  | _ => none

/-- OPEN: within the limits a session is numbered and its challenge returned.
(DEDUCED log 67, DESIGN CHOICE log 81, DESIGN CHOICE log 104) -/
def mntOpen (ip : W32) (level : Byte) (seq : W32) (m : Mach) : Mach :=
  let p := m.bench.mnt
  let refuse : Mach := m.turnAway ip 0x01 0 seq .sessionErr
  match levelOf level with
  | none => refuse
  | some lv =>
    if 4 ≤ p.sessions.length ∨ (lv = .write ∧ p.sessions.any (fun x => x.level == .write)) then refuse
    else
      let n := p.nextId
      let c := Config.challenge m.freeCtr
      let r : MntReply := { ip := ip, typ := 0x01, session := n, status := .ok, seq := seq, data := beBytes 16 c.toNat }
      let x : MntSession :=
        { id := n, ip := ip, level := lv, challenge := c, authed := lv == .read && m.openRead, seq := seq, reply := some r
          sess := { lastAt := m.now } }
      (m.bumpFree.updMnt (fun p => { p with
        sessions := p.sessions ++ [x], nextId := n % 65535 + 1, reply := some r })).ecCount 0xB6 255

/-- The maintenance key in force: that of the station data settings, or the factory key with no verified set. -/
def Mach.maintKey (m : Mach) : List Byte := m.bench.mnt.key.getD Config.factoryKey

/-- AUTH: the credential is compared with the HMAC of the challenge and the session number. -/
def mntAuth (n : Nat) (credential : BitVec 384) (m : Mach) : Mach :=
  match m.mntSess n with
  | none => m
  | some x =>
    if credential = hmac384 m.maintKey (beBytes 16 x.challenge.toNat ++ beBytes 2 n) then
      (m.updMntSess n (fun x => { x with authed := true })).status (.mnt n) .ok
    else m.status (.mnt n) .authErr

/-- The end of a lockout. -/
def authLockoutEnd (ip : W32) (m : Mach) : Mach :=
  m.updMnt (fun p => { p with lockouts := p.lockouts.filter (fun q => !(q.1 == ip && decide (q.2 ≤ m.now))) })

/-- AUTH_LOCKOUT_END. -/
def execAuthLockoutEnd (ip : W32) (t : Nat) (s : State) : Host.Outcome State Fault Refusal :=
  benchRun t (authLockoutEnd ip) s

/-- The address, count and reserved bytes of a READ or WRITE payload. -/
def spanBytes (a : W32) (count : Nat) : List Byte := bytes32 a ++ beBytes 2 count ++ [0x00, 0x00]

/-- The oldest waiting read of a session that is not on its way to the partner, polled. -/
def mntAccessComplete (n : Nat) (m : Mach) : Mach :=
  match m.mntSess n with
  | none => m
  | some x => match x.reads.find? (fun r => !m.onItsWay (.mnt n) r) with
    | some r => if m.benchServes then m.tryRead (.mnt n) r else m
    | none => m

/-- MNT_ACCESS_COMPLETE. -/
def execMntAccessComplete (sess : Nat) (t : Nat) (s : State) : Host.Outcome State Fault Refusal :=
  benchRun t (mntAccessComplete sess) s

/-! ### Requests (R65, R452, R463) -/

/-- The type byte of a request. -/
def reqTyp : MntReq → Byte
  | .openSess _ => 0x01
  | .auth _ => 0x02
  | .access _ _ none => 0x03
  | .access _ _ (some _) => 0x04
  | .keep => 0x05
  | .close => 0x06
  | .transfer x => BitVec.ofNat 8 (transferTyp x)

/-- The payload of a transfer (R452, R463). -/
def transferPayload : Transfer → List Byte
  | .recRead first count => beBytes 6 first ++ beBytes 2 count
  | .recFreeze op => [op]
  | .updOpen kind mlen => [kind, 0x00, 0x00, 0x00] ++ beBytes 4 mlen
  | .block off part data crc _ =>
    let p := part.getD ⟨0, data.length⟩
    beBytes 4 off ++ [BitVec.ofNat 8 p.part, 0x00] ++ beBytes 2 p.len ++ bytes32 crc ++ data
  | .attest nonce => beBytes 32 nonce.toNat
  | .attRead off len => beBytes 4 off ++ beBytes 2 len
  | .info | .verify | .abort | .updStatus => []

/-- The payload of a request. -/
def reqPayload : MntReq → List Byte
  | .openSess level => [level]
  | .auth c => beBytes 48 c.toNat
  | .access a count data => bytes32 a ++ beBytes 2 count ++ [0x00, 0x00] ++ (data.getD []).flatMap bytes32
  | .keep | .close => []
  | .transfer x => transferPayload x

/-- WRITE: a payload whose length disagrees with its count is not carried out (R50). (DEDUCED log 62) -/
def mntWrite (n : Nat) (addr : W32) (count : Nat) (data : List W32) (m : Mach) : Mach :=
  if count ≠ data.length then m.status (.mnt n) .lenErr else m.writeBurst (.mnt n) addr data

/-- A session's request carried out. An OPEN belongs to no session. -/
def Mach.carryReq (n : Nat) (seq : W32) (q : MntReq) (m : Mach) : Mach :=
  match q with
  | .openSess _ => m
  | .auth c => mntAuth n c m
  | .access a count none => m.sessionRead (.mnt n) a count
  | .access a count (some data) => mntWrite n a count data m
  | .keep => m.status (.mnt n) .ok
  | .close => (m.status (.mnt n) .ok).closeSession (.mnt n)
  | .transfer x => m.serveTransfer (.mnt n) seq x

/-- A datagram that arrives, from its checks to its effect. -/
def Mach.takeDatagram (d : MntDatagram) (m : Mach) : Mach :=
  m.datagram d.head (reqTyp d.req) d.sess d.seq (reqPayload d.req) (fun m => match d.req with
    | .openSess level => mntOpen d.head.ip level d.seq m
    | q => m.sequenced d.head.ip (reqTyp q) d.sess d.seq (Mach.carryReq d.sess d.seq q))

/-! ### Accesses of both ports in one Bench clock (R48) -/

/-- The instant at which a command brings a frame of the host port. (DESIGN CHOICE log 91) -/
def hostFrameAt : Instr → Option Nat
  | .hostRead _ _ t | .hostWrite _ _ _ _ t | .fetch t | .status t | .hostClose _ t | .h2bDoorbell _ t => some t
  | .partnerRead .host _ _ _ t | .enterMaintain .host _ t | .leaveMaintain .host _ t | .enterCommission .host _ t
  | .endCommission .host _ t | .sweep .host _ t | .swap .host _ t | .quiesce .host _ t | .activateFw .host _ t
  | .armFwBoot .host _ t | .activateSd .host _ t | .commit .host _ t | .revert .host _ t | .enrol .host _ t => some t
  | .ecCfgWrite .host _ t | .freeze .host t | .freezeRelease .host t | .timeSet .host _ _ t | .chanSelWrite .host _ _ t
  | .irqMaskWrite .host _ _ t | .irqStatClear .host _ _ t | .pageSnap .host _ t | .resultGroupRead .host _ t | .rcRead .host _ t
  | .registerWrite .host _ _ t | .bistDiscard .host _ t | .updCtrlAbort .host _ t => some t
  | .updOpen (.mailbox _) _ _ t | .updBlock (.mailbox _) _ _ _ _ _ t | .updVerify (.mailbox _) t | .updAbort (.mailbox _) t
  | .updStatus (.mailbox _) t | .attest (.mailbox _) _ t | .attRead (.mailbox _) _ _ t => some t
  | _ => none

/-- A host-port access that arrives in a Bench clock of 10 ns. -/
def hostAccessAt (clk : Nat) (i : Instr) : Bool := (hostFrameAt i).any (fun t => t / 10 == clk)

/-- A datagram; one that arrives in the clock of a host-port access still to be served waits until that has been served.
(DESIGN CHOICE log 91) -/
def mntRun (d : MntDatagram) (t : Nat) (s : State) : Host.Outcome State Fault Refusal :=
  benchRun t (fun m => if s.pending.any (hostAccessAt (t / 10)) then m.updMnt (fun p => { p with waiting := p.waiting ++ [d] })
    else m.takeDatagram d) s

/-- The datagrams that let a host-port access go first, in order of arrival. (DESIGN CHOICE log 91) -/
def Mach.serveWaiting (m : Mach) : Mach :=
  m.bench.mnt.waiting.foldl (fun m d => m.takeDatagram d) (m.updMnt (fun p => { p with waiting := [] }))

/-- A host-port access, and after it the datagrams that arrived in its clock. (DESIGN CHOICE log 91) -/
def hostRun (f : Mach → Mach) (t : Nat) (s : State) : Host.Outcome State Fault Refusal :=
  benchRun t (fun m => (f m).serveWaiting) s

/-! ### NOTIFY and the address (R64, R68) -/

/-- NOTIFY is sent when a session's summary of the pair descriptor turns from 0, at most once per second. It answers no request:
its sequence number is a free value. (DEDUCED log 67, DESIGN CHOICE log 98) -/
def notifySession (n : Nat) (m : Mach) : Mach :=
  match m.mntSess n with
  | none => m
  | some x =>
    let w := m.pairIrq x.sess
    if m.benchServes = false ∨ x.authed = false then m
    else if w = 0 then m.updMntSess n (fun x => { x with summary := 0 })
    else if x.summary ≠ 0 ∨ x.notified.any (fun t => decide (m.now < t + 1000000000)) then m
    else
      let r : MntReply :=
        { ip := x.ip, typ := 0x08, session := n, status := .ok, seq := Config.freeWord m.freeCtr, data := bytes32 w }
      ((m.updMntSess n (fun x => { x with summary := w, notified := some m.now })).updMnt (fun p => { p with notify := some r })).bumpFree

/-- NOTIFY. -/
def execNotify (sess : Nat) (t : Nat) (s : State) : Host.Outcome State Fault Refusal := benchRun t (notifySession sess) s

/-- The link as it stands, and a lease won or lost on it; a static address does not change (R64, R69).
(DEDUCED log 63) -/
def dhcpLease (up : Bool) (lease : Option IpFace) (m : Mach) : Mach :=
  if m.benchServes = false then m
  else
    let m := m.updMnt (fun p => { p with link := up })
    if m.bench.mnt.dhcp = false then m
    else
      let x := lease.getD {}
      m.updMnt (fun p => { p with ip := x.ip, mask := x.mask, gateway := x.gateway })

/-- DHCP_LEASE. -/
def execDhcpLease (up : Bool) (lease : Option IpFace) (t : Nat) (s : State) : Host.Outcome State Fault Refusal :=
  benchRun t (dhcpLease up lease) s

/-! ### Replies that come later (R465, R475) -/

/-- The reply of a request that was answered late, if one waits for it. -/
def Mach.lateReply (who : Option (Sess × W32)) (typ : Nat) (e : Ending) (m : Mach) : Mach :=
  match who with
  | some (s, num) => m.finish s num typ e
  | none => m

/-- The digest check ends. (DEDUCED log 71) -/
def verifyComplete (ops : List EnrolOp) (m : Mach) : Mach :=
  let u := m.bench.upd
  if u.state ≠ 3 ∨ m.benchServes = false then m
  else match u.kind with
    | none => m
    | some k =>
      let (e, m) := m.verifyEnds k ops
      m.lateReply u.verifyFor 0x12 e

/-- VERIFY_COMPLETE. -/
def execVerifyComplete (ops : List EnrolOp) (t : Nat) (s : State) : Host.Outcome State Fault Refusal :=
  benchRun t (verifyComplete ops) s

/-- An update session ends 10 min after its last request (R462). -/
def updateSessionIdle (m : Mach) : Mach :=
  let u := m.bench.upd
  if u.opened ∧ u.reqAt + 600000000000 ≤ m.now then m.endUpdate 0 u.result else m

/-- UPDATE_SESSION_IDLE. -/
def execUpdateSessionIdle (t : Nat) (s : State) : Host.Outcome State Fault Refusal := benchRun t updateSessionIdle s

/-- The signed report is ready: `UPD.ATT` takes a new `TAG`. (DEDUCED log 71) -/
def attestReady (m : Mach) : Mach :=
  let u := m.bench.upd
  match u.attNonce with
  | none => m
  | some nonce =>
    let bs := m.attestReport nonce
    let m := m.updUpd (fun u => { u with
      att := u.att.complete, attLen := satOf 16 bs.length, attNonce := none, attFor := none, report := bs })
    m.lateReply u.attFor 0x15 { bytes := beBytes 2 bs.length }

/-- ATTEST_READY. -/
def execAttestReady (t : Nat) (s : State) : Host.Outcome State Fault Refusal := benchRun t attestReady s

end Sys2Proof.Machine
end

