-- ==== Sys2Proof/Machine/SelfTests.lean ====
section
/-! DEFINITION. Self-test and memory care (R412 to R432): the verdict of a test, the marks, the token, lane slices and Sander. -/

namespace Sys2Proof.Machine

/-! ### Blocks (R413, R414) -/

def blocks : List Block :=
  [.bistA, .bistB, .bistC, .marchA, .marchB, .marchC, .callipers1, .callipers2, .ports, .analogue, .couplers, .outputs, .supervisor]

def blockCode : Block → Nat
  | .bistA => 1 | .bistB => 2 | .bistC => 3 | .marchA => 4 | .marchB => 5 | .marchC => 6 | .callipers1 => 7 | .callipers2 => 8
  | .ports => 9 | .analogue => 10 | .couplers => 11 | .outputs => 12 | .supervisor => 13

def expectedCount : Block → Nat
  | .bistA | .bistB | .bistC => 344064
  | .marchA | .marchB | .marchC => 15769600
  | .callipers1 | .callipers2 => 262144
  | .ports => 10240
  | .analogue => 384
  | .couplers => 576
  | .outputs => 49
  | .supervisor => 40

def completionWord (b : Block) : W32 := BitVec.ofNat 32 (0x73400000 + blockCode b)

/-- The logic BIST blocks, whose result items are signatures; the others count mismatches. -/
def bistBlock : Block → Bool
  | .bistA | .bistB | .bistC | .callipers1 | .callipers2 => true
  | _ => false

/-- When a block starts and must have ended, in ms from the start of the test (R415). -/
def interval : Block → Nat × Nat
  | .bistA | .bistB => (0, 320) | .bistC => (320, 640) | .marchA => (320, 400) | .marchB => (400, 480) | .marchC => (0, 80)
  | .callipers1 => (320, 620) | .callipers2 => (640, 940) | .ports => (640, 840) | .analogue => (940, 1140)
  | .couplers => (1140, 1540) | .outputs => (1540, 1940) | .supervisor => (1940, 2040)

/-- The field blocks, which a test may leave out (R416). (DESIGN CHOICE log 101) -/
def fieldBlock : Block → Bool
  | .analogue | .couplers | .outputs => true
  | _ => false

/-! ### Module power (R415) -/

/-- Module power in 0.1 W at an instant of a test, in ms from its start, with the blocks that run in it: base load, Callipers, Tool rests
and ports, field section, and each lane in logic BIST, in march, awake or asleep. (DESIGN CHOICE log 101) -/
def testPower (runs : Block → Bool) (ms : Nat) : Nat :=
  let on (b : Block) : Bool := runs b && decide ((interval b).1 ≤ ms) && decide (ms < (interval b).2)
  let lane (bist march : Block) : Nat := if on bist then 70 else if on march then 45 else if 940 ≤ ms ∧ ms < 2040 then 26 else 4
  30 + (if on .callipers1 || on .callipers2 then 30 else 15) + (if on .ports then 10 else 5) +
    (if on .analogue || on .couplers || on .outputs then 10 else 5) + lane .bistA .marchA + lane .bistB .marchB + lane .bistC .marchC

/-- The intervals of a test: start and length in ms. -/
def testIntervals : List (Nat × Nat) :=
  [(0, 80), (80, 240), (320, 80), (400, 80), (480, 140), (620, 20), (640, 200), (840, 100), (940, 200), (1140, 400), (1540, 400),
    (1940, 100), (2040, 160)]

/-- The peak in 0.1 W, and the energy in 0.1 J. -/
def testPeak (runs : Block → Bool) : Nat := testIntervals.foldl (fun p q => max p (testPower runs q.1)) 0
def testEnergy (runs : Block → Bool) : Nat := (testIntervals.map (fun q => testPower runs q.1 * q.2)).sum / 1000

/-! ### Judging a block (R414, R416) -/

/-- The result item holds: every signature equals its expected value, or the mismatch count is 0.
(DESIGN CHOICE log 101) -/
def Mach.itemHolds (m : Mach) (r : BlockResult) : Bool :=
  if bistBlock r.block then r.sigs == Config.bistExpect (m.bench.upd.runSlot .firmware).mbytes m.ident.hwRev (blockCode r.block)
  else r.mismatches == 0

/-- The failed item of a block that had to end by an instant: 1 result, 2 count, 3 completion word, or 0 where it passed.
(DESIGN CHOICE log 101) -/
def Mach.failedItem (m : Mach) (by0 : Nat) (r : BlockResult) : Nat :=
  if m.itemHolds r = false then 1
  else if r.count ≠ expectedCount r.block then 2
  else if r.word ≠ completionWord r.block ∨ r.ended.any (fun t => decide (t ≤ by0)) = false then 3
  else 0

/-- A block of a test of the whole module ran: a field block only with the field supply as R416 asks, and block 0x0C only where no
closure was withheld under R387. (DESIGN CHOICE log 101) -/
def Mach.blockRuns (m : Mach) (b : Block) : Bool :=
  match b with
  | .analogue | .couplers => m.bench.test.fit
  | .outputs => m.bench.test.fit && (List.range 24).all m.oredLightOk
  | _ => true

/-- What a test controller holds from the start of its block (R414). -/
def clearResult (b : Block) (l : LaneId) : BlockResult :=
  { block := b, judge := l, count := 0, word := 0, ended := none, failed := [], watchdog := false }

/-- What the controllers of a block hold: one result, or for block 0x0D one for each judging lane; none where the block did not
run. -/
def Mach.resultsOf (m : Mach) (b : Block) : List BlockResult :=
  let held (l : LaneId) : BlockResult := (m.bench.test.results.find? (fun r => r.block == b && r.judge == l)).getD (clearResult b l)
  if m.blockRuns b = false then []
  else if b = .supervisor then (laneIds.filter (fun l => !inMask m.bench.test.unusLanes l)).map held
  else [held .a]

/-- Self-tests: marks, slices and the shutdown token. (DEDUCED log 72) -/
def Mach.blockFailed (m : Mach) (b : Block) : Bool := (m.resultsOf b).any (fun r => m.failedItem (interval b).2 r != 0)
def Mach.blockPassed (m : Mach) (b : Block) : Bool := m.blockRuns b && !m.blockFailed b

/-- Self-tests: marks, slices and the shutdown token. (DEDUCED log 72) -/
def laneBlocks : LaneId → Block × Block
  | .a => (.bistA, .marchA)
  | .b => (.bistB, .marchB)
  | .c => (.bistC, .marchC)

/-! ### Marks (R421, R422) -/

/-- The marks of a block's instances after a test: those that failed, none where it passed, all where it failed and named
none, and as before where it did not run. (DEDUCED log 72) -/
def Mach.marksAfter {w : Nat} (m : Mach) (b : Block) (old : BitVec w) : BitVec w :=
  match m.resultsOf b with
  | [] => old
  | r :: _ =>
    if m.blockFailed b = false then 0
    else if r.failed = [] ∧ r.watchdog = false then BitVec.allOnes w
    else r.failed.foldl (fun x k => setBit x k true) 0

/-- The marks of a test taken over into the self-test page. -/
def Mach.markTest (m : Mach) (t : SelfTest) : SelfTest :=
  let lane (l : LaneId) : Bool :=
    let (b, c) := laneBlocks l
    m.blockFailed b || m.blockFailed c
  { t with
    unusLanes := maskOf lane, unusPorts := m.marksAfter .ports t.unusPorts
    unusAi := m.marksAfter .analogue t.unusAi, unusDi := m.marksAfter .couplers t.unusDi
    unusDo := m.marksAfter .outputs t.unusDo
    unusWdog := match m.resultsOf .outputs with
      | [] => t.unusWdog
      | r :: _ => m.blockFailed .outputs && r.watchdog }

/-- An OUT entry with cause 0x41: the supply supervisor holds the lane in reset. -/
def Mach.markLane (l : LaneId) (m : Mach) : Mach :=
  let cyc := m.cycleNo
  ((m.updAgr l (fun a => { a with
    life := .out, unusable := true, held := true, inReset := false, outCause := 0x41, outCycle := cyc, outAt := m.now
    outs := satInc a.outs })).raise (lanePath l 6) 0).postModule
    (mkNotice 0x2001 (lanePath l 6) 0x41 cyc (some cyc) [ecSrc 0x10 (laneCode l)])

/-- The marks as the units hold them. An unusable channel is invalid, and an encoder track among them the encoder too; an unusable output
is unavailable; a marked port's transmitter stays off; a lane whose mark ends is held by it no more.
(DESIGN CHOICE log 113) -/
def Mach.applyMarks (m : Mach) : Mach :=
  let t := m.bench.test
  let port (k : Nat) : Bool := t.unusPorts.getLsbD k
  let m := laneIds.foldl (fun m l =>
    if inMask t.unusLanes l then m.markLane l
    else m.updAgr l (fun a => if a.unusable then { a with unusable := false, held := a.locked || a.railBad } else a)) m
  let gone {α : Type} (valid : α → Bool) (mark : Nat → Bool) (xs : List α) : List Nat :=
    (xs.zipIdx.filter (fun q => valid q.1 && mark q.2)).map Prod.snd
  let di := gone DiCh.valid (fun n => t.unusDi.getLsbD n) m.field.di
  let ai := gone AiCh.valid (fun n => t.unusAi.getLsbD n) m.field.ai
  let m := di.foldl (fun m ch => (m.raise (fieldPath 1) 0).noteIn 1 ch [0x31]) m
  let m := ai.foldl (fun m ch => (m.raise (fieldPath 3) 0).noteIn 3 ch [0x39]) m
  let outs := gone OutCh.avail (fun n => t.unusDo.getLsbD n || t.unusWdog) m.field.out
  let m := outs.foldl (fun m n => (m.raise (fieldPath 2) 0).noteOut n [0x40]) m
  let track := t.unusDi.getLsbD 46 || t.unusDi.getLsbD 47
  let m := if track && m.field.enc.valid then (m.raise (fieldPath 5) 0).updEnc (fun e => { e with valid := false }) else m
  let m := m.updField (fun f => { f with
    di := (f.di.zipIdx).map (fun q => { q.1 with unusable := t.unusDi.getLsbD q.2, valid := q.1.valid && !t.unusDi.getLsbD q.2 })
    ai := (f.ai.zipIdx).map (fun q => { q.1 with unusable := t.unusAi.getLsbD q.2, valid := q.1.valid && !t.unusAi.getLsbD q.2 })
    out := (f.out.zipIdx).map (fun q =>
      let u := t.unusDo.getLsbD q.2 || t.unusWdog
      { q.1 with unusable := u, avail := q.1.avail && !u, armed := q.1.armed && !u, inhibit := q.1.inhibit || u }) })
  let ring (r : RingIfc) (e w : Bool) : RingIfc := { r with
    east := { r.east with unusable := e, driving := r.east.driving && !e, service := r.east.service && !e }
    west := { r.west with unusable := w, driving := r.west.driving && !w, service := r.west.service && !w } }
  { m with
    ring1 := ring m.ring1 (port 0) (port 1), ring2 := ring m.ring2 (port 2) (port 3)
    jxt := { m.jxt with redUnus := port 4, blueUnus := port 5, redUp := m.jxt.redUp && !port 4, blueUp := m.jxt.blueUp && !port 5 }
    can1 := { m.can1 with unusable := port 6 }, can2 := { m.can2 with unusable := port 7 }
    pair := { m.pair with l1 := { m.pair.l1 with unusable := port 8 }, l2 := { m.pair.l2 with unusable := port 9 } } }

def SelfTest.anyMark (t : SelfTest) : Bool :=
  t.unusLanes != 0 || t.unusPorts != 0 || t.unusWdog || t.unusDi != 0 || t.unusAi != 0 || t.unusDo != 0

/-! ### The token (R417 to R419) -/

/-- The field blocks passed in a test that ended less than 168 h earlier. -/
def Mach.fieldRecent (m : Mach) : Bool :=
  m.bench.test.fieldPass.any (fun q => q.2 == m.bench.epoch && decide (m.benchSecs < q.1 + 604800))

/-- A token formed now. (DEDUCED log 72) -/
def Mach.newToken (field : Bool) (m : Mach) : Token :=
  let fw := m.fwField
  let at0 := m.bench.test.fieldPass.elim 0 (fun q => q.1)
  { serial := m.ident.serial, fw := fw, written := m.benchSecs, fieldAt := at0, field := field, epoch := m.bench.epoch
    check := Config.tokenCheck m.ident.serial fw m.benchSecs at0 field m.bench.epoch }

/-- A token is written to both devices; nothing is due while it is valid. -/
def Mach.writeToken (field : Bool) (m : Mach) : Mach :=
  let x := m.newToken field
  ((m.updBench (fun b => { b with
    clkLost := false, test := { b.test with token0 := some x, token1 := some x, due := 0, overdue := 0 } })).raise
    (benchPath 7) 4)

/-! ### The verdict (R414, R417, R421) -/

/-- The first failed block and its failed item. -/
def Mach.firstFailed (m : Mach) : Nat × Nat :=
  let fails (b : Block) : List (Nat × Nat) :=
    ((m.resultsOf b).map (m.failedItem (interval b).2)).filterMap (fun k => if k = 0 then none else some (blockCode b, k))
  (blocks.flatMap fails).headD (0, 0)

/-- What a test leaves on the self-test page, with its causes. -/
def Mach.testEnds (kind lane : Nat) (fail : Nat × Nat) (m : Mach) : Mach :=
  let secs := BitVec.ofNat 32 m.benchSecs
  let m := (m.updTest (fun t => { t with
    lastKind := BitVec.ofNat 2 kind, lastResult := if fail.1 = 0 then 1 else 2, lastLane := BitVec.ofNat 2 lane
    lastBlock := BitVec.ofNat 8 fail.1, lastItem := BitVec.ofNat 2 fail.2, lastSecs := secs })).raise (benchPath 7) 0
  if fail.1 = 0 then m
  else (m.raise (benchPath 7) 1).benchNote (evCode 1 (0x200 + fail.1)) (benchPath 7) (BitVec.ofNat 32 fail.1) (BitVec.ofNat 32 fail.2) []

/-- The record RAM committed whole, its open record closed (R417); nothing during a freeze (R449). (DEDUCED log 70) -/
def Mach.commitAll (m : Mach) : Mach :=
  if m.bench.recd.frozen.isSome then m else (m.updRec Recorder.close).commitClosed.roomBack.commitClosed

/-- The verdict on what the controllers hold, of a shutdown test (kind 1) or a full boot test (kind 2), with the token and the commit of
the record RAM. -/
def Mach.judgeTest (kind : Nat) (m : Mach) : Mach :=
  let fieldOk := [Block.analogue, .couplers, .outputs].all m.blockPassed
  let now := (m.benchSecs, m.bench.epoch)
  let marked := { m.markTest m.bench.test with
    judged := true, peak := satOf 10 (testPeak m.blockRuns), energy := satOf 10 (testEnergy m.blockRuns)
    fieldPass := if fieldOk then some now else m.bench.test.fieldPass }
  let fail := m.firstFailed
  let callipers := m.blockFailed .callipers1 || m.blockFailed .callipers2
  let supervisor := m.blockFailed .supervisor
  let m := ((m.updTest (fun _ => marked)).testEnds kind 0 fail).applyMarks
  let m := if fail.1 = 0 ∧ m.fieldRecent ∧ m.bench.test.anyMark = false then m.writeToken fieldOk else m
  let m := m.commitAll
  if callipers then m.enterHalt 0x08 5 else if supervisor then m.enterHalt 0x08 6 else m

/-- What the test controllers hold at the end, and the verdict on it. -/
def Mach.verdict (kind : Nat) (rs : List BlockResult) (m : Mach) : Mach :=
  (m.updTest (fun t => { t with results := rs })).judgeTest kind

/-- The verdict at 2,040 ms of the shutdown test; at its end at 2,200 ms QUIESCE ends in DORMANT (R407, R415).
(DEDUCED log 72) -/
def shutdownTestVerdict (rs : List BlockResult) (m : Mach) : Mach :=
  if m.mod.mode ≠ .quiesce ∨ m.now < m.power.quiesceAt + 2040000000 then m
  else
    let m := if m.bench.test.judged then m else m.verdict 1 rs
    if m.mod.mode = .halt ∨ m.now < m.power.quiesceAt + 2200000000 then m else m.enterDormant.tryBoot

/-- SHUTDOWN_TEST_VERDICT, and after the test's 2,200 ms its end. -/
def execShutdownTestVerdict (results : List BlockResult) (t : Nat) (s : State) : Host.Outcome State Fault Refusal :=
  benchRun t (shutdownTestVerdict results) s

/-! ### Lane slices (R423 to R425) -/

/-- A stored token of this clock epoch has reached 72 h. -/
def tokenExpiry (m : Mach) : Mach :=
  match m.bench.test.token0 with
  | some x =>
    if x.epoch = m.bench.epoch ∧ x.written + 259200 ≤ m.benchSecs then
      m.updTest (fun t => { t with expiredAt := some (x.written + 259200) })
    else m
  | none => m

/-- TOKEN_EXPIRY. -/
def execTokenExpiry (t : Nat) (s : State) : Host.Outcome State Fault Refusal := benchRun t tokenExpiry s

/-- A lane falls due. -/
def sliceDue (l : LaneId) (m : Mach) : Mach :=
  let t := m.bench.test
  if m.token.isSome ∨ inMask t.due l ∨ inMask t.unusLanes l ∨ t.dueIn m.benchSecs l ≠ 0 then m
  else m.updTest (fun t => { t with due := setBit t.due (laneBit l) true, dueAt := t.dueAt.upd l (fun _ => m.benchSecs) })

/-- SLICE_DUE. -/
def execSliceDue (l : LaneId) (t : Nat) (s : State) : Host.Outcome State Fault Refusal := benchRun t (sliceDue l) s

/-- The station time lies in the slice window, or is not known. -/
def Mach.sliceWindow (m : Mach) : Bool :=
  let from0 := (m.benchSet.bind (fun x => x.sliceFrom)).getD 120
  let len := (m.benchSet.bind (fun x => x.sliceLen)).getD 240
  let minute := m.stimeAt m.now / 60000 % 1440
  !m.bench.recd.stimeOk || decide ((minute + 1440 - from0 % 1440) % 1440 < len)

/-- The conditions under which the Bench sends a slice request. -/
def Mach.sliceMayAsk (m : Mach) : Bool :=
  let t := m.bench.test
  m.benchServes && m.evaluates && m.token.isNone && t.request.isNone && t.run.isNone && decide (t.askAfter ≤ m.now) &&
    t.returnAt.all (fun r => decide (r + 600000000000 ≤ m.now)) && m.sliceWindow && !m.bench.upd.opened &&
    (!m.paired || m.pair.partner.any (fun f => f.lanes == 7 && f.mode != 6))

def sliceRequest (m : Mach) : Mach :=
  match m.bench.test.nextDue with
  | some l => if m.sliceMayAsk then m.updTest (fun t => { t with
      request := some (l, (m.lane m.numberLane).cop.cycleNo + 2) }) else m
  | none => m

/-- SLICE_REQUEST. -/
def execSliceRequest (t : Nat) (s : State) : Host.Outcome State Fault Refusal := benchRun t sliceRequest s

/-- A slice has ended: its lane is due no more. -/
def SelfTest.sliced (l : LaneId) (t : SelfTest) : SelfTest :=
  { t with run := none, due := setBit t.due (laneBit l) false, overdue := setBit t.overdue (laneBit l) false }

/-- The verdict at 400 ms, logic BIST to have ended by 320 ms and the march by 400 ms: the supervisor's reset and RESTART follow a pass, a failure marks the lane.
(DEDUCED log 72) -/
def sliceVerdict (l : LaneId) (bist march : BlockResult) (m : Mach) : Mach :=
  let a := (m.lane l).agr
  if m.bench.test.run ≠ some l ∨ a.life ≠ .out ∨ m.now < a.outAt + 400000000 then m
  else
    let (b, c) := laneBlocks l
    let held := [({ bist with block := b }, 320), ({ march with block := c }, 400)]
    let fail := ((held.map (fun q => (blockCode q.1.block, m.failedItem q.2 q.1))).find? (fun q => q.2 != 0)).getD (0, 0)
    let secs := m.benchSecs
    let m := (m.updTest (fun t => { t.sliced l with results := held.map Prod.fst })).testEnds 3 (laneCode l) fail
    if fail.1 = 0 then
      (m.updTest (fun t => { t with done := satInc t.done, passedAt := t.passedAt.upd l (fun _ => some secs) })).updAgr l
        (fun a => { a with inReset := true, resetAt := m.now })
    else
      (m.updTest (fun t => { t with
        fails := satInc t.fails, unusLanes := setBit t.unusLanes (laneBit l) true })).markLane l

/-- SLICE_VERDICT. -/
def execSliceVerdict (l : LaneId) (bist march : BlockResult) (t : Nat) (s : State) : Host.Outcome State Fault Refusal :=
  benchRun t (sliceVerdict l bist march) s

/-- A lane due for 48 h is overdue, once. (DEDUCED log 72) -/
def sliceOverdue (l : LaneId) (m : Mach) : Mach :=
  let t := m.bench.test
  if inMask t.overdue l ∨ m.token.isSome ∨ inMask t.due l = false ∨ m.benchSecs < t.dueAt.get l + 172800 then m
  else ((m.updTest (fun t => { t with overdue := setBit t.overdue (laneBit l) true })).raise (benchPath 7) 3).benchNote (evCode 1 0x20E) (benchPath 7)
    (BitVec.ofNat 32 (laneCode l)) 0 []

/-- SLICE_OVERDUE. -/
def execSliceOverdue (l : LaneId) (t : Nat) (s : State) : Host.Outcome State Fault Refusal := benchRun t (sliceOverdue l) s

/-! ### Sander (R427 to R429) -/

def findingCode : SanderFinding → Nat
  | .pattern => 1
  | .restore => 2
  | .uncorrectable => 3

/-- A tested region: the place moves on, and a pass that ends is counted with the minutes it took, a begun one whole. -/
def SanderState.advance (now : Nat) (x : SanderState) : SanderState :=
  let x := { x with nextDue := x.nextDue + 125000000 }
  if x.pos.toNat + 1 < 155648 then { x with pos := x.pos + 1 }
  else { x with
    pos := 0, passes := satInc x.passes, passMin := satOf 16 ((now - x.passFrom + 59999999999) / 60000000000), passFrom := now, late := false }

/-- A word of the region corrected at saving: its table-store word, eight to a region. -/
def Mach.sanderCorrect (l : LaneId) (k : Nat) (m : Mach) : Mach :=
  let n := 8 * (m.lane l).snd.pos.toNat + k
  (m.updLane l (fun x => { x with snd := { x.snd with corr := satInc x.snd.corr, lastCorr := BitVec.ofNat 20 n } })).postLane l
    (mkNotice (evCode 2 0x18) (lanePath l 4) (BitVec.ofNat 32 n) m.cycleNo (some m.cycleNo) [ecSrc 0x18 (laneCode l)])

/-- A finding, which with three VOTING lanes brings the lane's slice forward. -/
def Mach.sanderFinding (l : LaneId) (f : SanderFinding) (m : Mach) : Mach :=
  let pos := (m.lane l).snd.pos
  let forward := m.evaluates && m.mod.mode != .update && decide (m.votingLanes.length = 3)
  ((m.updLane l (fun x => { x with snd := { x.snd with
    findings := satInc x.snd.findings, lastRegion := pos, lastKind := BitVec.ofNat 2 (findingCode f), found := true
    bringForward := x.snd.bringForward || forward } })).raise (lanePath l 4) 0).postLane l
    (mkNotice (evCode 2 0x1A) (lanePath l 4) (pos.setWidth 32) m.cycleNo (some m.cycleNo) [ecSrc 0x1A (laneCode l)])

/-- A test begun now ends, after at most 8 µs, at least 10 µs before the lane's next T0 (R428). -/
def Mach.sanderFits (m : Mach) (l : LaneId) : Bool :=
  !(m.evaluates && runsCycles (m.lane l)) || decide (m.now + 18000 ≤ (m.lane l).t0 + m.cycleNs)

/-- A region is tested while its lane is asleep and not held in reset, once it is due. Only words of the table store are corrected. -/
def sanderRegion (l : LaneId) (finding : Option SanderFinding) (corrected : List Nat) (m : Mach) : Mach :=
  let x := m.lane l
  if x.agr.life = .out ∨ m.phaseOf l ≠ .asleep ∨ x.awake = true ∨ m.now < x.snd.nextDue ∨ m.sanderFits l = false then m
  else
    let m := (corrected.filter (fun k => decide (k < 8) && decide (x.snd.pos.toNat < 131072))).foldl (fun m k => m.sanderCorrect l k) m
    let m := match finding with
      | some f => m.sanderFinding l f
      | none => m
    m.updLane l (fun x => { x with snd := x.snd.advance m.now })

/-- SANDER_REGION. -/
def execSanderRegion (l : LaneId) (finding : Option SanderFinding) (corrected : List Nat) (t : Nat) (s : State) :
    Host.Outcome State Fault Refusal :=
  s.run (fun m => sanderRegion l finding corrected (m.tick t))

/-- A pass that takes longer than 6 h. -/
def sanderPassLate (l : LaneId) (m : Mach) : Mach :=
  let x := m.lane l
  if x.agr.life = .out ∨ x.snd.late ∨ m.now ≤ x.snd.passFrom + 21600000000000 then m
  else ((m.updLane l (fun x => { x with snd := { x.snd with late := true } })).raise (lanePath l 4) 2).postLane l
    (mkNotice (evCode 2 0x201) (lanePath l 4) (x.snd.pos.setWidth 32) m.cycleNo (some m.cycleNo) [])

/-- SANDER_PASS_LATE. -/
def execSanderPassLate (l : LaneId) (t : Nat) (s : State) : Host.Outcome State Fault Refusal :=
  s.run (fun m => sanderPassLate l (m.tick t))

end Sys2Proof.Machine
end

