-- ==== Sys2Proof/Machine/BenchCmds.lean ====
section
/-! DEFINITION. The Bench itself (R22, R26, R433, R436 to R438, R450, R472, R473): its starts, its sensors, and the timed ends of
a trial. -/

namespace Sys2Proof.Machine

/-! ### Bench start (R433, R439, R450, R455, R462) -/

def benchCauseCode : BenchCause → Nat
  | .powerUp => 0
  | .watchdog => 1
  | .firmwareRoll => 2

/-- The event counters as the active station data set configures them, at 0. (DEDUCED log 70) -/
def Mach.freshCounters (m : Mach) : List EventCounter :=
  (List.range 32).map (fun k => match m.benchSet.bind (fun x => x.ec[k]?) with
    | some c => { src := c.src, qual := c.qual, sat := c.sat }
    | none => {})

/-- A record read from its 64 bytes, where `RCRC` fits them (R442). -/
def recOfBytes (bs : List Byte) : Option Rec :=
  let w (i n : Nat) : Nat := ofBytes ((bs.drop i).take n)
  if crc16 (bs.take 62) = BitVec.ofNat 16 (w 62 2) then
    some { seq := w 0 6, code := BitVec.ofNat 16 (w 6 2), unit := BitVec.ofNat 32 (w 8 4), inst := BitVec.ofNat 16 (w 12 2)
           flags := BitVec.ofNat 8 (w 14 1), snapv := BitVec.ofNat 8 (w 15 1), p0 := BitVec.ofNat 32 (w 16 4)
           p1 := BitVec.ofNat 32 (w 20 4), snaps := (List.range 8).map (fun k => BitVec.ofNat 32 (w (24 + 4 * k) 4))
           repCount := BitVec.ofNat 32 (w 56 4) }
  else none

/-- The record RAM as a Bench start finds it: `damage` lists the bytes that have changed, by their place in it.
(DEDUCED log 70) -/
def Recorder.ramFound (damage : List (Nat × Byte)) (r : Recorder) : List (Option Rec) :=
  (r.ram.zipIdx).map (fun (x, k) =>
    let hits := damage.filter (fun q => q.1 / 64 == k)
    if hits.isEmpty then some x else recOfBytes (hits.foldl (fun bs q => modAt (fun _ => q.2) (q.1 % 64) bs) (recBytes x)))

/-- The valid records that continue the flash without a gap, from a number on; those below it are in the flash.
(DEDUCED log 70) -/
def recsFrom (want : Nat) : List (Option Rec) → List Rec
  | [] => []
  | none :: xs => recsFrom want xs
  | some x :: xs => if x.seq < want then recsFrom want xs else if x.seq = want then x :: recsFrom (want + 1) xs else []

/-- The last records of a list whose numbers follow one another. (DEDUCED log 70) -/
def lastRun (xs : List Rec) : List Rec :=
  xs.foldr (fun x acc => match acc with
    | [] => [x]
    | y :: _ => if x.seq + 1 = y.seq then x :: acc else acc) []

/-- The records that a RAM which survived adds to the flash, closed. -/
def Recorder.recovered (ram : Option (List (Nat × Byte))) (r : Recorder) : List Rec :=
  match ram with
  | some damage =>
    (recsFrom (r.flashRecs.getLast?.elim 0 (fun x => x.seq + 1)) (r.ramFound damage)).map (fun x =>
      { x with flags := setBit x.flags 2 false })
  | none => []

/-- The recorder as a Bench start finds it: of a RAM that survived, the committed records at its end and those to commit. What was
lost leaves a gap, since numbering goes on where it stood. -/
def Recorder.restart (ram : Option (List (Nat × Byte))) (secs : Nat) (r : Recorder) : Recorder :=
  let below (x : Rec) : Bool := r.flashRecs.getLast?.any (fun z => decide (x.seq ≤ z.seq))
  let old := ram.elim [] (fun damage => ((r.ramFound damage).filterMap id).filter below)
  { flash := r.flash, erased := r.erased, erases := r.erases, bad := r.bad, ram := lastRun (old ++ r.recovered ram), next := r.next
    stime := r.stime, stimeAt := r.stimeAt, stimeOk := r.stimeOk && ram.isSome, okAt := r.okAt, anchored := r.anchored
    secSeen := secs, sumSec := secs }

/-- The causes raised on the Bench's own pages are cleared. (DEDUCED log 70) -/
def Mach.clearBenchIrq (m : Mach) : Mach := { m with irq := m.irq.filter (fun q => q.1 / 2 ^ 15 != 15) }

/-- The update path after a Bench start: a session that was open has ended, and the slot it wrote is empty.
(DEDUCED log 70) -/
def Update.restart (u : Update) : Update :=
  let run := u.runSlot .firmware
  let u := if u.opened then u.emptyTarget else u
  { u with
    state := 0, kind := none, result := 0, bytes := 0, len := 0, blocks := [], parts := [], manifestOk := false, verifyFor := none
    attFor := none, attNonce := none, att := {}, attLen := 0, report := []
    benchFw := (run.version >>> 16).setWidth 16, phase := if u.phase = 4 then (if u.trial.isSome then 5 else 0) else u.phase }

/-- Host port and maintenance port after a Bench start: every session is closed, the mailbox keeps its words.
(DEDUCED log 70) -/
def HostPort.restart (h : HostPort) : HostPort := { mailbox := h.mailbox, marked := h.marked }

/-- A restart of the Bench keeps the mailbox and the station time, counts itself, and takes over what the record RAM still proves. (DEDUCED log 70) -/
def MntPort.restart (set : Option Settings) : MntPort :=
  match set with
  | some x => ({} : MntPort).takeSet x
  | none => {}

/-- The Bench starts, if it is powered and not running; `ram` is what changed in a record RAM that survived.
(DEDUCED log 57, DEDUCED log 70) -/
def Mach.benchBegin (cause : BenchCause) (ram : Option (List (Nat × Byte))) (m : Mach) : Mach :=
  if m.power.powered = false ∨ m.bench.up = true then m
  else
    let n := (m.bench.recd.recovered ram).length
    let m := m.clearBenchIrq.updPair (fun p => { p with accesses := [], asked := [] })
    let secs := m.benchSecs
    let m := m.updBench (fun b => { b with
      up := true, host := b.host.restart, mnt := MntPort.restart m.benchSet, sens := {}, ec := m.freshCounters
      recd := b.recd.restart ram secs, test := { b.test with request := none }, upd := b.upd.restart })
    let m := m.updMod (fun x => { x with rstCount := 0, sweepDone := 0 })
    m.commitClosed.ownRec 0x0006 (BitVec.ofNat 32 (benchCauseCode cause)) (BitVec.ofNat 32 n)

/-- BENCH_START. -/
def execBenchStart (cause : BenchCause) (ram : Option (List (Nat × Byte))) (t : Nat) (s : State) : Host.Outcome State Fault Refusal :=
  s.run (fun m => (m.tick t).benchBegin cause ram)

/-- The Bench stops, and nothing else with it (R22). -/
def Mach.benchStop (m : Mach) : Mach := m.updBench (fun b => { b with up := false })

/-- BENCH_WATCHDOG. -/
def execBenchWatchdog (t : Nat) (s : State) : Host.Outcome State Fault Refusal :=
  benchRun t (fun m => m.benchStop) s

/-- BENCH_RAIL_FAULT. -/
def execBenchRailFault (t : Nat) (s : State) : Host.Outcome State Fault Refusal :=
  benchRun t (fun m => m.benchStop) s

/-! ### Sensors (R436 to R438, R454) -/

/-- The default thresholds: temperatures in 0.1 °C; rails 0 to 2 in 10 mV, rails 3 to 11 in 1 mV. Rail 1 warns below 85.91 V,
where the store holds 72 J of the 80 J between 90 V and 30 V (R479). (DEDUCED log 59) -/
def defaultTempHigh : List Int := [1100, 1100, 1100, 1100, 1000, 1050, 1100, 800]
/-- Rails and temperatures: defaults of thresholds and their hysteresis. (DEDUCED log 59) -/
def defaultRailLow : List Nat := [1920, 8591, 1140, 776, 776, 776, 1710, 1710, 1710, 776, 1140, 3135]
/-- Rails and temperatures: defaults of thresholds and their hysteresis. (DEDUCED log 59) -/
def defaultRailHigh : List (Option Nat) :=
  [some 13000, none, some 1260, some 824, some 824, some 824, some 1890, some 1890, some 1890, some 824, some 1260, some 3465]

/-- 1 % of nominal. (DEDUCED log 59) -/
def railMargin : List Nat := [24, 90, 12, 8, 8, 8, 18, 18, 18, 8, 12, 33]

/-- Rails and temperatures: defaults of thresholds and their hysteresis. (DEDUCED log 59) -/
def Mach.tempBand (m : Mach) (k : Nat) : Int × Int :=
  (((m.benchSet.bind (fun x => x.tempLow)).bind (fun xs => xs[k]?)).getD (-450),
   ((m.benchSet.bind (fun x => x.tempHigh)).bind (fun xs => xs[k]?)).getD (defaultTempHigh.getD k 1100))

/-- Rails and temperatures: defaults of thresholds and their hysteresis. (DEDUCED log 59) -/
def Mach.railBand (m : Mach) (k : Nat) : Int × Option Int :=
  let low := ((m.benchSet.bind (fun x => x.railLow)).bind (fun xs => xs[k]?)).getD (defaultRailLow.getD k 0)
  let high := match (m.benchSet.bind (fun x => x.railHigh)).bind (fun xs => xs[k]?) with
    | some h => some h
    | none => defaultRailHigh.getD k none
  (low, high.map (fun h => (h : Int)))

/-- A sample against its band: beyond it, or inside it by the margin. -/
def bandOf (v low : Int) (high : Option Int) (margin : Int) : Bool × Bool :=
  (decide (v < low) || high.any (fun h => decide (h < v)), decide (low + margin ≤ v) && high.all (fun h => decide (v ≤ h - margin)))

/-- A warning's sample: it is set by the third in a row beyond the threshold. (DEDUCED log 59) -/
def Mach.senseWarn (idx : Nat) (value : W32) (b : Bool × Bool) (m : Mach) : Mach :=
  let s := m.bench.sens
  let run := if b.1 then s.runs.getD idx 0 + 1 else 0
  let m := m.updBench (fun x => { x with sens := { x.sens with
    runs := modAt (fun _ => run) idx x.sens.runs
    inside := modAt (fun (o : Option Nat) => if b.2 then (match o with | some t => some t | none => some m.now) else none) idx
      x.sens.inside } })
  if run < 3 ∨ s.warn.getLsbD idx = true then m
  else
    ((m.updBench (fun x => { x with sens := { x.sens with
      warn := setBit x.sens.warn idx true, warns := satInc x.sens.warns } })).raise (benchPath 1) 0).benchNote 0xB001 (benchPath 1)
      (BitVec.ofNat 32 idx) value [ecSrc 0xB9]

def sensorSample (temps : List Int) (rails : List Nat) (m : Mach) : Mach :=
  if m.bench.up = false then m
  else
    let m := m.updBench (fun b => { b with sens := { b.sens with
      temps := (List.range 8).map (fun k => satInt 16 (temps.getD k 0)), rails := (List.range 12).map (fun k => satOf 16 (rails.getD k 0))
      fs := m.field.fsm.volt } })
    let m := (List.range 8).foldl (fun m k =>
      let v := temps.getD k 0
      let (low, high) := m.tempBand k
      m.senseWarn k ((satInt 16 v).setWidth 32) (bandOf v low (some high) 20)) m
    (List.range 12).foldl (fun m k =>
      let v := rails.getD k 0
      let (low, high) := m.railBand k
      m.senseWarn (8 + k) (BitVec.ofNat 32 v) (bandOf v low high (railMargin.getD k 0))) m

/-- SENSOR_SAMPLE. -/
def execSensorSample (temps : List Int) (rails : List Nat) (t : Nat) (s : State) : Host.Outcome State Fault Refusal :=
  benchRun t (sensorSample temps rails) s

/-- The inverse hyperbolic tangent of `num`/`den`, at most 1/3 in size, in units of 10⁻¹⁵. (DEDUCED log 60) -/
def artanh15 (num den : Int) : Int :=
  ((List.range 20).map (fun (j : Nat) => 10 ^ 15 * num ^ (2 * j + 1) / (den ^ (2 * j + 1) * ((2 * j + 1 : Nat) : Int)))).sum

/-- The natural logarithm of a positive number, in units of 10⁻¹⁵. (DEDUCED log 60) -/
def ln15 (n : Nat) : Int :=
  let k := n.log2
  2 * artanh15 ((n : Int) - 2 ^ k) (n + 2 ^ k) + k * (2 * artanh15 1 3)

/-- Dew point in 0.1 °C, to the nearest, by the Magnus formula with a = 17.62 and b = 243.12 °C (R438), from the humidity in
0.1 % RH and the air temperature in 0.1 °C. (DEDUCED log 60) -/
def dewPoint (rh : Nat) (air : Int) : Int :=
  if rh = 0 ∨ 24312 + 10 * air ≤ 0 then Config.dewFree rh air
  else
    let g := ln15 rh - ln15 1000 + 10 ^ 15 * (1762 * air) / (10 * (24312 + 10 * air))
    let den := 10 * (1762 * 10 ^ 13 - g)
    (2 * 24312 * g + den) / (2 * den)

/-- Humidity in 0.1 % RH and its air temperature in 0.1 °C. (DEDUCED log 59) -/
def humiditySample (rh : Nat) (air : Int) (m : Mach) : Mach :=
  if m.bench.up = false then m
  else
    let dew := dewPoint rh air
    let m := m.updBench (fun b => { b with sens := { b.sens with rh := satOf 10 rh, air := satInt 16 air, dew := satInt 16 dew } })
    let limit := (m.benchSet.bind (fun x => x.humHigh)).getD 850
    let m := m.senseWarn 20 (BitVec.ofNat 32 rh) (decide (limit ≤ rh), decide (rh + 30 ≤ limit))
    m.senseWarn 21 ((satInt 16 dew).setWidth 32) (decide (air < dew + 30), decide (dew + 40 ≤ air))

/-- HUMIDITY_SAMPLE. -/
def execHumiditySample (rh : Nat) (air : Int) (t : Nat) (s : State) : Host.Outcome State Fault Refusal :=
  benchRun t (humiditySample rh air) s

/-- The value of a sensor as its page holds it. -/
def Sensors.value (x : Sensors) (idx : Nat) : W32 :=
  if idx < 8 then (x.temps.getD idx 0).setWidth 32
  else if idx < 20 then (x.rails.getD (idx - 8) 0).setWidth 32
  else if idx = 20 then x.rh.setWidth 32
  else x.dew.setWidth 32

/-- A warning clears after 10 s inside the threshold by the margin. -/
def sensorWarningClear (idx : Nat) (m : Mach) : Mach :=
  let s := m.bench.sens
  if m.bench.up = false ∨ s.warn.getLsbD idx = false then m
  else if (s.inside.getD idx none).any (fun t => decide (t + 10000000000 ≤ m.now)) then
    ((m.updBench (fun x => { x with sens := { x.sens with warn := setBit x.sens.warn idx false } })).raise (benchPath 1) 1).benchNote
      0xB002 (benchPath 1) (BitVec.ofNat 32 idx) (s.value idx) []
  else m

/-- SENSOR_WARNING_CLEAR. -/
def execSensorWarningClear (idx : Nat) (t : Nat) (s : State) : Host.Outcome State Fault Refusal :=
  benchRun t (sensorWarningClear idx) s

/-- The peaks of the axes over 100 ms, in 0.01 g; one above `SHOCK_THR` is a shock event. -/
def shockEvent (x y z : Nat) (m : Mach) : Mach :=
  let thr := (m.benchSet.bind (fun x => x.shockThr)).getD 15 * 100
  if m.bench.up = false then m
  else
    let (px, py, pz) : W16 × W16 × W16 := (satOf 16 x, satOf 16 y, satOf 16 z)
    let m := m.updBench (fun b => { b with sens := { b.sens with
      shockX := bvMax b.sens.shockX px, shockY := bvMax b.sens.shockY py, shockZ := bvMax b.sens.shockZ pz } })
    if x ≤ thr ∧ y ≤ thr ∧ z ≤ thr then m
    else
      ((m.updBench (fun b => { b with sens := { b.sens with shocks := satInc b.sens.shocks } })).raise (benchPath 1) 2).benchNote 0xB003
        (benchPath 1) (px ++ py) (pz.setWidth 32) [ecSrc 0xBA]

/-- SHOCK_EVENT. -/
def execShockEvent (x y z : Nat) (t : Nat) (s : State) : Host.Outcome State Fault Refusal := benchRun t (shockEvent x y z) s

/-! ### The timed ends of a trial (R472, R473) -/

/-- Trials: two may stand by slot, and the boots of a trial are counted in a row. (DEDUCED log 51) -/
def trialCommit (m : Mach) : Mach :=
  let u := m.bench.upd
  if u.trial.isSome && u.serviceFrom.any (fun t => decide (t + 600000000000 ≤ m.now)) then m.commitTrial else m

/-- TRIAL_COMMIT. -/
def execTrialCommit (t : Nat) (s : State) : Host.Outcome State Fault Refusal := benchRun t trialCommit s

/-- Trials: two may stand by slot, and the boots of a trial are counted in a row. (DEDUCED log 51) -/
def trialServiceTimeout (m : Mach) : Mach :=
  let u := m.bench.upd
  match u.trial with
  | some k =>
    if u.phase != 6 && u.trialFrom.any (fun t => decide (t + 60000000000 ≤ m.now)) then m.fallBack k 2 else m
  | none => m

/-- TRIAL_SERVICE_TIMEOUT. -/
def execTrialServiceTimeout (t : Nat) (s : State) : Host.Outcome State Fault Refusal := benchRun t trialServiceTimeout s

end Sys2Proof.Machine
end

