-- ==== Sys2Proof/Machine/RingLinks.lean ====
section
/-! DEFINITION. The links of a ring (R281, R282, R299, R300, R303, R305): link checks, reports, link loss and loop-back. -/

namespace Sys2Proof.Machine

/-! ### Link checks (R280 to R282) -/

/-- The module's time in the 10 ns units of a link check. -/
def linkTime (now : Nat) : W32 := BitVec.ofNat 32 (now / 10)

def checkCode : LinkCheck → Nat
  | .request => 1 | .echo => 2 | .result => 3 | .report => 4 | .close => 5

def linkKind (f : RingFrame) : Option LinkCheck :=
  [LinkCheck.request, .echo, .result, .report, .close].find? (fun k => decide ((f.payload.headD 0).toNat / 2 ^ 56 = checkCode k))

/-- A link-check frame (R255, R280): the sender's node, its basic-cycle count or 0 while it has none, and two words.
(DESIGN CHOICE log 33) -/
def checkFrame (m : Mach) (i : RingId) (k : LinkCheck) (w0 : W32) (w1 : W64) : RingFrame :=
  let r := m.ring i
  let node := (m.ringUsed i).elim 0 (fun c => c.node)
  let f : RingFrame :=
    { hop := 0, loop := false, dly := 0, typ := 0xB, ver := 1, prio := 0, src := node
      copy := (m.ringUsed i).elim 0 (fun c => ringCopy m c)
      slot := 0, seq := if r.sync then BitVec.ofNat 32 (r.at0 m.now).basic else 0, msg := 0, len := 16, hcrc := 0
      payload := [BitVec.ofNat 64 (checkCode k * 2 ^ 56 + w0.toNat), w1], fcrc := 0, symErr := none, endOk := true, aborted := false }
  let f := { f with hcrc := crc16 (headerBytes f) }
  { f with fcrc := frameCrc f }

/-- A link-check frame leaves a port whose Tool rest is not closed (R296); what has gone out before is forgotten.
(DEDUCED log 41) -/
def Mach.sendCheck (i : RingId) (d : Dir) (k : LinkCheck) (w0 : W32) (w1 : W64) (m : Mach) : Mach :=
  if ((m.ring i).rest d).state = .closed ∨ ((m.ring i).port d).driving = false then m
  else m.updPort i d (fun p => { p with
    checks := p.checks.filter (fun q => decide (m.now ≤ q.1)) ++ [(m.now, checkFrame m i k w0 w1)] })

/-- The requests of an exchange, one in each 20 µs from its start. -/
def requestTime (start j : Nat) : W32 := linkTime (start + 20000 * j)

/-- The module at a link's west end, whose east port it is, begins the sixteen requests, each of which goes out at its time. -/
def Mach.startCheck (i : RingId) (m : Mach) : Mach :=
  let r := m.ring i
  if r.restE.state = .closed then m
  else m.updPort i .east (fun p => { p with
    checkFrom := some m.now, measures := []
    checks := if p.driving then (List.range 16).map (fun j =>
        (m.now + 20000 * j, checkFrame { m with now := m.now + 20000 * j } i .request (requestTime m.now j) 0)) else p.checks })

/-- The exchange of an east port is due: none has begun, or the last brought no sixteen echoes in the time they can take, a round trip of
the longest link in service after the last request. (DEDUCED log 41) -/
def checkDue (p : RingPort) (now : Nat) : Bool :=
  p.up && !p.service && (match p.checkFrom with | none => true | some t => decide (t + 16 * 20000 + 42000 < now))

def Mach.renewCheck (i : RingId) (m : Mach) : Mach := if checkDue (m.ring i).east m.now then m.startCheck i else m

/-- A link comes up, and its exchange begins; while it is up without service, an exchange that stayed incomplete is repeated. An optical
port needs the carrier's supply (R485). -/
def ringLinkUp (i : RingId) (d : Dir) (m : Mach) : Mach :=
  let p := (m.ring i).port d
  if m.cal.txOn = false ∨ p.unusable = true ∨ (p.fx = true ∧ m.power.carrierOn = false) then m
  else
    let m := if p.up then m else
      (m.updPort i d (fun p => { p with up := true, driving := true, checkFrom := none, measures := [] })).raise (portPath i d) 1
    if d = .east then m.renewCheck i else m

/-- RING_LINK_UP. -/
def execRingLinkUp (i : RingId) (d : Dir) (t : Nat) (s : State) : Host.Outcome State Fault Refusal :=
  s.run (fun m => ringLinkUp i d (m.tick t))

/-! ### Loop-back (R300, R305) -/

/-- The turning point that the lost links make: the side whose link is lost while the other is in ring service.
(DEDUCED log 41) -/
def turnOf (r : RingIfc) : BitVec 2 :=
  if r.east.lost && r.west.service then 1 else if r.west.lost && r.east.service then 2 else 0

/-- The module turns, or ends to turn, as its links now stand. (DEDUCED log 41) -/
def Mach.setTurn (i : RingId) (m : Mach) : Mach :=
  let r := m.ring i
  let turn := turnOf r
  let m := m.updRing i (fun r => { r with
    turn := turn, heals := if turn = 0 ∨ turn = r.turn then r.heals else satInc r.heals
    closeAt := if turn = r.turn then r.closeAt else none
    east := { r.east with loop := decide (turn = 1) }, west := { r.west with loop := decide (turn = 2) } })
  if turn = r.turn then m
  else if turn = 0 then m.raise (ringPath i) 11
  else (m.raise (ringPath i) 10).noteRing i 0x66 (turn.setWidth 32) 0

/-- The loss of a link is closed: it carries the ring again. -/
def Mach.closeLoss (i : RingId) (d : Dir) (m : Mach) : Mach := (m.updPort i d (fun p => { p with lost := false })).setTurn i

/-- A measured link enters ring service, unless its delay is above 20 µs. An interface in use that was down listens.
(DEDUCED log 41) -/
def Mach.linkMeasured (i : RingId) (d : Dir) (delay : Nat) (m : Mach) : Mach :=
  let ok := decide (delay ≤ 2000)
  let m := m.updPort i d (fun p => { p with linkDly := BitVec.ofNat 16 delay, service := ok, measures := [] })
  if ok = false then m.postCal (mkNotice (evCode 7 0x13) (portPath i d) (BitVec.ofNat 32 delay) 0 (some m.cycleNo) [])
  else
    let m := if (m.ring i).ifc = .down ∧ (m.ringUsed i).isSome then
      m.updRing i (fun r => { r with ifc := .listen, lastValid := m.now }) else m
    m.setTurn i

/-- The sixteen round trips, less the turnaround, halved: their mean, rounded to 10 ns, or none where they spread by more than
40 ns. -/
def linkDelay (ms : List Nat) : Option Nat :=
  let hi := ms.foldl max 0
  let lo := ms.foldl min hi
  if 80 < hi - lo then none else some ((ms.sum + 160) / 320)

/-- The first matrix cycle that begins at least 1 ms later. -/
def closeMatrix (r : RingIfc) (now : Nat) : W32 :=
  let p := r.at0 (now + 1000000)
  BitVec.ofNat 32 ((p.basic + 31 + (if p.off = 0 then 0 else 1)) / 32)

/-- A repaired link at a turning point: its two ends name the matrix cycle at which they end loop-back. An end without ring time has none
to name and ends at once, and so does one that does not turn there. (DEDUCED log 41) -/
def Mach.proposeClose (i : RingId) (d : Dir) (m : Mach) : Mach :=
  let r := m.ring i
  if (r.port d).service = false ∨ (r.port d).lost = false then m
  else if (r.port d).loop && r.sync then
    let k := closeMatrix r m.now
    (m.updRing i (fun r => { r with closeAt := some k })).sendCheck i d .close k 0
  else m.closeLoss i d

/-- A close that the other end sends: the later of the two names stands. (DEDUCED log 41) -/
def Mach.takeClose (i : RingId) (d : Dir) (k : W32) (m : Mach) : Mach :=
  let r := m.ring i
  if (r.port d).lost = false then m
  else if (r.port d).loop = false ∨ r.sync = false then m.closeLoss i d
  else m.updRing i (fun r => { r with closeAt := match r.closeAt with
    | some h => if newer k h then some k else some h
    | none => some k })

/-- The request that an echo answers in the exchange that runs, and its round trip. -/
def echoOf (p : RingPort) (now : Nat) (w0 : W32) : Option (Nat × Nat) :=
  p.checkFrom.bind (fun t =>
    ((List.range 16).find? (fun j => requestTime t j == w0)).map (fun j => (j, (linkTime now - w0).toNat * 10 - 2000)))

def linkEcho (i : RingId) (w0 : W32) (m : Mach) : Mach :=
  let p := (m.ring i).east
  if p.service then m
  else match echoOf p m.now w0 with
    | none => m.renewCheck i
    | some (j, rt) =>
      let ms := (j, rt) :: p.measures.filter (fun q => q.1 != j)
      let m := m.updPort i .east (fun p => { p with measures := ms })
      if ms.length < 16 then m
      else match linkDelay (ms.map Prod.snd) with
        | none => m.startCheck i
        | some n => ((m.linkMeasured i .east n).sendCheck i .east .result (BitVec.ofNat 32 n) 0).proposeClose i .east

/-- LINK_CHECK_FRAME's effect: a link-check frame that arrived whole is consumed here; its start delimiter is seen at the west port too
(R291). -/
def linkCheckFrame (i : RingId) (d : Dir) (f : RingFrame) (m : Mach) : Mach :=
  let m := if d = .west then m.updRing i (fun r => { r with lastStart := m.now }) else m
  let p := (m.ring i).port d
  if p.up = false ∨ m.cal.txOn = false ∨ f.typ ≠ 0xB ∨ intactFrame f = false then m
  else
    let w0 : W32 := (f.payload.headD 0).setWidth 32
    match linkKind f with
    | some .request => if d = .west then m.sendCheck i d .echo w0 200 else m
    | some .echo => if d = .east then linkEcho i w0 m else m
    | some .result => if d = .west then (m.linkMeasured i d w0.toNat).proposeClose i d else m
    | some .report => if d = .east then m.updPort i d (fun p => { p with farErrors := satAdd p.farErrors w0.toNat }) else m
    | some .close => m.takeClose i d w0
    | none => m

/-- LINK_CHECK_FRAME. -/
def execLinkCheckFrame (i : RingId) (d : Dir) (f : RingFrame) (t : Nat) (s : State) : Host.Outcome State Fault Refusal :=
  s.run (fun m => linkCheckFrame i d f (m.tick t))

/-- The westward direction of the link carries turned traffic: the west port sent a ring frame in this basic cycle or the last. -/
def turnedWest (r : RingIfc) (now : Nat) : Bool :=
  r.turn == 1 || r.west.sentAt.any (fun x => decide (now < x + 2000000))

/-- At 500 µs of a basic cycle the east-end module reports on its west port the errors of the last one, once, while that carries no
turned traffic. (DEDUCED log 41) -/
def linkReport (i : RingId) (m : Mach) : Mach :=
  let r := m.ring i
  let p := r.at0 m.now
  if r.sync = false ∨ r.west.service = false ∨ turnedWest r m.now = true ∨ p.off < 500000 ∨ r.reported = some p.basic then m
  else
    let start := m.now - p.off
    let n := (r.west.errors.filter (fun x => decide (x < start) && decide (start ≤ x + basicLen r.tb.rate))).length
    (m.updRing i (fun r => { r with reported := some p.basic })).sendCheck i .west .report (BitVec.ofNat 32 n) 0

/-- LINK_REPORT. -/
def execLinkReport (i : RingId) (t : Nat) (s : State) : Host.Outcome State Fault Refusal :=
  s.run (fun m => linkReport i (m.tick t))

/-! ### Breaks (R299, R300) -/

/-- A link is lost: the port stops driving, and a module with its other link in service becomes a turning point.
(DEDUCED log 41) -/
def ringLinkLoss (i : RingId) (d : Dir) (m : Mach) : Mach :=
  let p := (m.ring i).port d
  if p.up = false ∧ p.lost = true then m
  else
    let m := m.updPort i d (fun p => { p with
      up := false, driving := false, service := false, checkFrom := none, measures := []
      checks := p.checks.filter (fun q => decide (q.1 ≤ m.now)), lost := true })
    let m := if p.up then m.raise (portPath i d) 0 else m
    (m.updRing i (fun r => { r with closeAt := none })).setTurn i

/-- RING_LINK_LOSS. -/
def execRingLinkLoss (i : RingId) (d : Dir) (t : Nat) (s : State) : Host.Outcome State Fault Refusal :=
  s.run (fun m => ringLinkLoss i d (m.tick t))

/-- At 995 µs of basic cycle 31 before the named matrix cycle, loop-back ends. (DEDUCED log 41) -/
def loopbackClose (i : RingId) (m : Mach) : Mach :=
  let r := m.ring i
  match r.closeAt with
  | none => m
  | some k =>
    let p := r.at0 m.now
    let last := (k.toNat * 32 + basicMod - 1) % basicMod
    let past := (p.basic + basicMod - last) % basicMod
    if r.sync = true ∧ past < basicMod / 2 ∧ (past ≠ 0 ∨ 995000 ≤ p.off) then
      (m.updRing i (fun r => { r with
        closeAt := none, east := { r.east with lost := r.east.lost && !r.east.service }
        west := { r.west with lost := r.west.lost && !r.west.service } })).setTurn i
    else m

/-- LOOPBACK_CLOSE. -/
def execLoopbackClose (i : RingId) (t : Nat) (s : State) : Host.Outcome State Fault Refusal :=
  s.run (fun m => loopbackClose i (m.tick t))

end Sys2Proof.Machine
end

