-- ==== Sys2Proof/Machine/Power.lean ====
section
/-! DEFINITION. Supplies and the reset input (R25, R26, R391, R396 to R399, R407, R409, R419, R477 to R479, R485). -/

namespace Sys2Proof.Machine

def Mach.updPower (f : Power → Power) (m : Mach) : Mach := { m with power := f m.power }

/-! ### Without power -/

/-- A ring interface keeps the straps of its ports. -/
def RingIfc.straps (r : RingIfc) : RingIfc := { east := { fx := r.east.fx }, west := { fx := r.west.fx } }

/-- What the non-volatile store and the supervisor's area keep of the self-tests. -/
def SelfTest.kept (t : SelfTest) : SelfTest := { t with request := none, run := none, askAfter := 0, returnAt := none }

/-- What the slots keep: a trial goes on at the next boot. -/
def Update.kept (u : Update) : Update :=
  { u.restart with
    phase := if u.trial.isSome then 5 else 0, rollAt := none, rollBack := false, serviceFrom := none, trialFrom := none
    benchFw := 0, vfmt := 0, sfmt := 0 }

/-- The Bench without power: its clock, the slots, the flash and the token are left. (DEDUCED log 27) -/
def Bench.kept (b : Bench) : Bench :=
  { secs := b.secs, secsAt := b.secsAt, epoch := b.epoch, clkLost := b.clkLost, clkStopped := b.clkStopped
    recd := b.recd.restart none 0, test := b.test.kept, upd := b.upd.kept }

/-- The module without power: identity, straps, the Bench's non-volatile content and each lane's spares are left.
(DEDUCED log 27) -/
def Mach.dark (m : Mach) : Mach :=
  { now := m.now, ident := m.ident, freeCtr := m.freeCtr, power := { lossAt := some m.now }
    ring1 := m.ring1.straps, ring2 := m.ring2.straps, bench := m.bench.kept
    lanes := m.lanes.all (fun _ x => { strap := x.strap, kek := x.kek, snd := { spares := x.snd.spares } }) }

/-- The always-on clock runs again once power is back. -/
def Bench.startClock (now : Nat) (b : Bench) : Bench := if b.clkStopped then { b with clkStopped := false, secsAt := now } else b

/-- Power comes: DORMANT, the drive watchdog tripped, the threshold at 11.0 V (R190), and the Bench starts.
(DEDUCED log 8) -/
def powerUp (m : Mach) : Mach :=
  if m.power.powered then m
  else
    let m := m.updPower (fun p => { p with powered := true, supplyOk := true, lossAt := none, qualAt := m.now, carrierOn := true })
    let m := (m.updFsm (fun x => { x with thrOn := 110, thrWas := 110, thrAt := m.now, pubAt := some m.now })).updBench (Bench.startClock m.now)
    m.readArea.benchBegin .powerUp none

/-- POWER_UP. -/
def execPowerUp (t : Nat) (s : State) : Host.Outcome State Fault Refusal := s.run (fun m => powerUp (m.tick t))

/-- A seconds count that starts again (R419, R423): the token of the old count has expired as the new one begins, no slice has passed
since, and a lane that is due counts its 48 h from there. (DEDUCED log 72) -/
def SelfTest.newEpoch (t : SelfTest) : SelfTest :=
  { t with passedAt := ⟨none, none, none⟩, expiredAt := some 0, dueAt := ⟨0, 0, 0⟩ }

/-- The always-on clock stops after at least 100 h without power. -/
def benchClockLost (m : Mach) : Mach :=
  if m.power.powered ∨ m.power.lossAt.any (fun t => decide (m.now < t + 360000000000000)) then m
  else m.updBench (fun b => { b with
    secs := 0, secsAt := m.now, epoch := b.epoch + 1, clkLost := true, clkStopped := true
    test := b.test.newEpoch })

/-- BENCH_CLOCK_LOST. -/
def execBenchClockLost (t : Nat) (s : State) : Host.Outcome State Fault Refusal := s.run (fun m => benchClockLost (m.tick t))

/-! ### The module supply (R407, R409, R477 to R479) -/

def supplyInterruption (m : Mach) : Mach :=
  if m.power.powered && m.power.supplyOk then m.updPower (fun p => { p with supplyOk := false, lossAt := some m.now }) else m

/-- SUPPLY_INTERRUPTION. -/
def execSupplyInterruption (t : Nat) (s : State) : Host.Outcome State Fault Refusal :=
  s.run (fun m => supplyInterruption (m.tick t))

/-- The supply has been absent for a time. (DEDUCED log 27) -/
def Mach.lostFor (ns : Nat) (m : Mach) : Bool :=
  m.power.powered && !m.power.supplyOk && m.power.lossAt.any (fun t => decide (t + ns ≤ m.now))

def supplyLossQuiesce (m : Mach) : Mach :=
  if m.lostFor 20000000 ∧ m.mod.mode ≠ .dormant ∧ m.mod.mode ≠ .halt ∧ m.mod.mode ≠ .quiesce then m.enterQuiesce false else m

/-- SUPPLY_LOSS_QUIESCE. -/
def execSupplyLossQuiesce (t : Nat) (s : State) : Host.Outcome State Fault Refusal :=
  s.run (fun m => supplyLossQuiesce (m.tick t))

/-- The supply qualifies from now on, and the release of `RESET_N` counts from here (R399). -/
def Mach.requalify (m : Mach) : Mach :=
  (m.updPower (fun p => { p with qualAt := m.now })).updMod (fun x => { x with released := false, highRun := 0 })

/-- The supply is back. In DORMANT and QUIESCE it qualifies afresh, and the release of `RESET_N` counts from here. A gap in
which 24 W would have drawn the store from 80 J below 72 J takes its reserve away. -/
def supplyReturn (m : Mach) : Mach :=
  if m.power.powered = false ∨ m.power.supplyOk = true then m
  else
    let long := m.lostFor 333333334
    let m := m.updPower (fun p => { p with supplyOk := true, lossAt := none, reserve := p.reserve && !long })
    if m.mod.mode = .dormant ∨ m.mod.mode = .quiesce then m.requalify else m

/-- SUPPLY_RETURN. -/
def execSupplyReturn (t : Nat) (s : State) : Host.Outcome State Fault Refusal := s.run (fun m => supplyReturn (m.tick t))

/-- HOLD_UP_EXHAUSTED: while the supply is absent, the module is then unpowered. `cut` is the CRC-32 left of a write of the identity area
that was running (R458). -/
def execHoldUpExhausted (cut : Option W32) (t : Nat) (s : State) : Host.Outcome State Fault Refusal :=
  s.run (fun m =>
    let m := m.tick t
    if m.power.powered && !m.power.supplyOk then (cut.elim m (fun c => m.cutArea c)).abandonTest.dark else m)

/-- HOLD_UP_RESERVE_REACHED. -/
def execHoldUpReserveReached (t : Nat) (s : State) : Host.Outcome State Fault Refusal :=
  s.run (fun m => let m := m.tick t; if m.power.powered then m.updPower (fun p => { p with reserve := true }) else m)

/-- HALT_SUPPLY_REMOVED: the supply below 8 V for 1 s. -/
def execHaltSupplyRemoved (t : Nat) (s : State) : Host.Outcome State Fault Refusal :=
  s.run (fun m => let m := m.tick t; if m.mod.mode = .halt ∧ m.lostFor 1000000000 then m.dark else m)

/-! ### Rails (R25, R26) -/

/-- A lane rail outside its window: the lane is held in reset and OUT. -/
def laneRailOutOfWindow (l : LaneId) (m : Mach) : Mach :=
  if m.power.powered = false ∨ (m.lane l).agr.railBad = true then m
  else
    let m :=
      if m.isOut l = false then m.laneOut l 0x29
      else if (m.mod.mode = .boot ∨ m.mod.mode = .config) ∧ (m.lane l).agr.held = false then m.bootLaneOut l 0x29
      else m
    m.updAgr l (fun a => { a with railBad := true, held := true, waiting := false })

/-- LANE_RAIL_OUT_OF_WINDOW. -/
def execLaneRailOutOfWindow (l : LaneId) (t : Nat) (s : State) : Host.Outcome State Fault Refusal :=
  s.run (fun m => laneRailOutOfWindow l (m.tick t))

/-- The rail is back: the supervisor's 1.0 ms reset of the lane is what is left of its hold. In DORMANT the supply qualifies afresh.
(DEDUCED log 57) -/
def laneRailReturn (l : LaneId) (m : Mach) : Mach :=
  if (m.lane l).agr.railBad = false then m
  else
    let m := m.updAgr l (fun a => { a with
      railBad := false, inReset := a.life == .out && m.mod.mode != .dormant && m.mod.mode != .halt, resetAt := m.now })
    if m.mod.mode = .dormant then m.requalify else m

/-- LANE_RAIL_RETURN. -/
def execLaneRailReturn (l : LaneId) (t : Nat) (s : State) : Host.Outcome State Fault Refusal :=
  s.run (fun m => laneRailReturn l (m.tick t))

/-- CALLIPERS_RAIL_FAULT: either cause sends the module to HALT. -/
def execCallipersRailFault (_cause : RailFault) (t : Nat) (s : State) : Host.Outcome State Fault Refusal :=
  s.run (fun m => let m := m.tick t; if m.power.powered then m.enterHalt 0x07 5 else m)

/-! ### `RESET_N` (R396 to R399) -/

/-- A sample of the line, every 0.5 ms. A low pulse that ends before it was asserted is a glitch. (DEDUCED log 58) -/
def resetNSample (low : Bool) (m : Mach) : Mach :=
  if m.power.powered = false then m
  else
    let x := m.mod
    if low then
      m.updMod (fun x => { x with
        rstLevel := true, highRun := 0, lowRun := x.lowRun + 1, lowFrom := if x.lowRun = 0 then m.now else x.lowFrom })
    else
      let glitch := decide (1 ≤ x.lowRun) && decide (x.lowRun < 40)
      let m := m.updMod (fun x => { x with
        rstLevel := false, lowRun := 0, highRun := x.highRun + 1, highFrom := if x.highRun = 0 then m.now else x.highFrom })
      if glitch then m.postPower (mkNotice 0x1003 modPath (BitVec.ofNat 32 ((m.now - x.lowFrom) / 1000000)) 0 none [ecSrc 0x07])
      else m

/-- RESET_N_SAMPLE. -/
def execResetNSample (low : Bool) (t : Nat) (s : State) : Host.Outcome State Fault Refusal :=
  s.run (fun m => resetNSample low (m.tick t))

/-- The line has read low for 20 ms: DORMANT at once, but for HALT. (DEDUCED log 58) -/
def resetNAsserted (m : Mach) : Mach :=
  let x := m.mod
  if m.power.powered = false ∨ x.asserted = true ∨ x.lowRun < 40 ∨ m.now < x.lowFrom + 20000000 then m
  else
    let halt := decide (x.mode = .halt)
    let m := m.updMod (fun x => { x with asserted := true, assertAt := x.lowFrom, released := false, rstHeld := !halt })
    if halt then m else (m.abandonTest.updPower (fun p => { p with commanded := false })).enterDormant

/-- RESET_N_ASSERTED. -/
def execResetNAsserted (t : Nat) (s : State) : Host.Outcome State Fault Refusal := s.run (fun m => resetNAsserted (m.tick t))

/-- The line has read high for 100 ms of qualified supply: an assertion is recorded, and DORMANT is left.
(DEDUCED log 58) -/
def resetNReleased (m : Mach) : Mach :=
  let x := m.mod
  if m.power.powered = false ∨ x.released = true ∨ x.highRun < 200 ∨ m.now < x.highFrom + 100000000
      ∨ m.now < m.power.qualAt + 100000000 then m
  else
    let ms : Nat := (x.highFrom - x.assertAt) / 1000000
    let m := if x.asserted then
        (m.updMod (fun x => { x with
          asserted := false, rstStuck := false, rstHeld := false, rstCount := satInc x.rstCount
          rstLastMs := BitVec.ofNat 32 ms })).postPower
          (mkNotice 0x1002 modPath (BitVec.ofNat 32 ms) 0 none [ecSrc 0x06])
      else m
    (m.updMod (fun x => { x with released := true })).tryBoot

/-- RESET_N_RELEASED. -/
def execResetNReleased (t : Nat) (s : State) : Host.Outcome State Fault Refusal := s.run (fun m => resetNReleased (m.tick t))

/-- Reset input: 20 ms and 100 ms are 40 and 200 samples of 0.5 ms and as much time. (DEDUCED log 58) -/
def resetStuck (m : Mach) : Mach :=
  let x := m.mod
  if x.asserted = true ∧ x.rstLevel = true ∧ x.rstStuck = false ∧ x.assertAt + 30000000000 ≤ m.now then
    ((m.updMod (fun x => { x with rstStuck := true })).raise modPath 10).postPower (mkNotice 0x1004 modPath 0 0 none [])
  else m

/-- RESET_STUCK. -/
def execResetStuck (t : Nat) (s : State) : Host.Outcome State Fault Refusal := s.run (fun m => resetStuck (m.tick t))

/-! ### The carrier's 3.3 V output (R485) -/

/-- The optical ring ports lose their links. (DEDUCED log 61) -/
def Mach.opticalLoss (m : Mach) : Mach :=
  [RingId.r1, RingId.r2].foldl (fun m i => [Dir.east, Dir.west].foldl (fun m d =>
    if ((m.ring i).port d).fx then ringLinkLoss i d m else m) m) m

/-- Optical supply: a short is retried by its command, and the pair links are not taken as optical. (DEDUCED log 61) -/
def carrierSupplyShort (m : Mach) : Mach :=
  if m.power.carrierOn then
    (m.updPower (fun p => { p with carrierOn := false, carrierShort := true, carrierAt := m.now })).opticalLoss
  else m

/-- CARRIER_SUPPLY_SHORT. -/
def execCarrierSupplyShort (t : Nat) (s : State) : Host.Outcome State Fault Refusal :=
  s.run (fun m => carrierSupplyShort (m.tick t))

/-- Every 1 s the output is tried again. (DEDUCED log 61) -/
def carrierSupplyRetry (gone : Bool) (m : Mach) : Mach :=
  if m.power.carrierShort = false ∨ m.now < m.power.carrierAt + 1000000000 then m
  else m.updPower (fun p => { p with carrierOn := gone, carrierShort := !gone, carrierAt := m.now })

/-- CARRIER_SUPPLY_RETRY. -/
def execCarrierSupplyRetry (shortGone : Bool) (t : Nat) (s : State) : Host.Outcome State Fault Refusal :=
  s.run (fun m => carrierSupplyRetry shortGone (m.tick t))

end Sys2Proof.Machine
end

