-- ==== Sys2Proof/Machine/Boot.lean ====
section
/-! DEFINITION. BOOT (R400, R401, R473, R496). -/

namespace Sys2Proof.Machine

/-- A boot fails: BOOT starts again, from the previous slot after three failures on trial, or the third in a row ends in
HALT. -/
def Mach.failBoot (cause : Nat) (m : Mach) : Mach :=
  let m := m.updMod (fun x => { x with failedBoots := x.failedBoots + 1 })
  let m := m.postPower (mkNotice (evCode 1 0x20) modPath (BitVec.ofNat 32 cause) (BitVec.ofNat 32 m.mod.failedBoots) none [])
  if m.bench.upd.trial.isSome then
    let m := (m.updUpd (fun u => { u with trialBoots := satInc u.trialBoots })).writeArea
    (if m.bench.upd.trialBoots = 3 then m.updMod (fun x => { x with failedBoots := 0 }) else m).enterBoot
  else if 3 ≤ m.mod.failedBoots then m.enterHalt 0x09 5
  else m.enterBoot

/-- BOOT and the quick test. (DEDUCED log 57) -/
def bootFailCode : BootFail → Nat
  | .lanesFirmware _ => 1
  | .quickInjection => 2
  | .usableLanes => 3

/-- BOOT runs past 1.0 s, or past 3.5 s where it is full. (DEDUCED log 54) -/
def bootTimeout (m : Mach) : Mach :=
  let bound := if m.mod.bootKind = 1 then 1000000000 else 3500000000
  if m.mod.mode = .boot ∧ m.mod.bootAt + bound < m.now then m.abandonTest.failBoot 4 else m

/-- BOOT_TIMEOUT. -/
def execBootTimeout (t : Nat) (s : State) : Host.Outcome State Fault Refusal := s.run (fun m => bootTimeout (m.tick t))

def bootReportOf (r : BootReport) : LaneId → LaneBoot
  | .a => r.laneA
  | .b => r.laneB
  | .c => r.laneC

def bootFirmwareOk (x : LaneBoot) : Bool := x.firmwareOk && x.rsaOk && x.slhOk

/-- Each refused signature is recorded (R1): of a firmware image, RSA-3072 or SLH-DSA. -/
def Mach.signatureNotes (r : BootReport) (m : Mach) : Mach :=
  laneIds.foldl (fun m l =>
    let x := bootReportOf r l
    let m := if x.rsaOk then m else m.noteUpd 0xC001 1 2
    if x.slhOk then m else m.noteUpd 0xC001 1 3) m

/-- A boot that fails for its lanes' firmware records the signatures that it refused. -/
def bootFailed (cause : BootFail) (m : Mach) : Mach :=
  if m.mod.mode ≠ .boot then m
  else
    let m := match cause with
      | .lanesFirmware r => m.signatureNotes r
      | .quickInjection => m.eraseToken
      | .usableLanes => m
    m.failBoot (bootFailCode cause)

/-- BOOT_FAILED. -/
def execBootFailed (cause : BootFail) (t : Nat) (s : State) : Host.Outcome State Fault Refusal :=
  s.run (fun m => bootFailed cause (m.tick t))

/-- BOOT ends in CONFIG. (DEDUCED log 57) -/
def Mach.bootEnds (m : Mach) : Mach := m.enterConfig.updMod (fun x => { x with failedBoots := 0 })

/-- The lanes that take part in BOOT. -/
def Mach.bootLanes (m : Mach) : List LaneId := laneIds.filter m.startsUp

/-- The quick test: a lane whose injection alone failed is held OUT, and the next boot is full; two usable lanes must be left.
(DEDUCED log 57) -/
def Mach.quickTest (r : BootReport) (lanes : List LaneId) (m : Mach) : Mach :=
  let bad := lanes.filter (fun l => !(bootReportOf r l).injectionOk)
  if r.callipersOk = false ∨ r.supervisorOk = false then m.enterHalt 0x08 5
  else match bad with
    | [] => m.bootEnds
    | [l] =>
      let m := (m.bootLaneOut l 0x21).eraseToken
      if m.bootLanes.length < 2 then m.failBoot 3 else m.bootEnds
    | _ => m.eraseToken.failBoot 2

/-- The full test has run to the end of its 2,200 ms: two usable lanes must be left. -/
def Mach.fullTestEnds (m : Mach) : Mach :=
  if m.mod.mode ≠ .boot ∨ m.now < m.fullTestAt + 2200000000 then m
  else if m.bootLanes.length < 2 then m.failBoot 3
  else m.bootEnds

/-- The verdict of the full test marks what failed. A lane whose mark has ended starts with the others, once its firmware checks
(R400, R422). -/
def Mach.fullTest (r : BootReport) (lanes : List LaneId) (m : Mach) : Mach :=
  let m := m.verdict 2 r.blocks
  let back := m.bootLanes.filter (fun l => !lanes.contains l && !bootFirmwareOk (bootReportOf r l))
  (back.foldl (fun m l => m.bootLaneOut l 0x30) m).fullTestEnds

/-- The full test is still on its way to its verdict at 2,040 ms, or was judged before. -/
def Mach.fullTestOpen (m : Mach) : Bool := m.mod.bootKind == 2 && decide (m.now < m.fullTestAt + 2040000000)
def Mach.fullTestJudged (m : Mach) : Bool := m.mod.bootKind == 2 && m.bench.test.judged

/-- The steps of BOOT have run. Two lanes that fail their firmware check fail the boot; one alone is held OUT. A full boot has its
verdict at 2,040 ms of its test, and ends with the test's 2,200 ms. (DEDUCED log 57) -/
def bootComplete (r : BootReport) (m : Mach) : Mach :=
  if m.mod.mode ≠ .boot ∨ m.fullTestOpen = true then m
  else if m.fullTestJudged then m.fullTestEnds
  else
    let lanes := m.bootLanes
    let m := m.signatureNotes r
    match lanes.filter (fun l => !bootFirmwareOk (bootReportOf r l)) with
    | _ :: _ :: _ => m.failBoot 1
    | bad =>
      let m := bad.foldl (fun m l => m.bootLaneOut l 0x30) m
      if m.mod.bootKind = 1 then m.quickTest r (lanes.filter (fun l => !bad.contains l)) else m.fullTest r lanes

/-- BOOT_COMPLETE. -/
def execBootComplete (report : BootReport) (t : Nat) (s : State) : Host.Outcome State Fault Refusal :=
  s.run (fun m => bootComplete report (m.tick t))

end Sys2Proof.Machine
end

