-- ==== Sys2Proof/Machine/CheckImage.lean ====
section
/-! DEFINITION. What a lane checks of a station data set at CONFIG (R12, R88, R92, R94, R98, R104, R105, R113, R119, R120, R195,
R236, R240, R326, R374, R376, R395, R424, R469, R494). A finding is a code of R494. -/

namespace Sys2Proof.Machine

/-- A check that names its code where it fails. -/
def failCode (ok : Bool) (code : Byte) : List Byte := if ok then [] else [code]

/-- The first of a list of values that stands twice is missing. -/
def allDistinct (xs : List Nat) : Bool := xs.eraseDups.length == xs.length

/-- An optional setting lies in a range. -/
def within (lo hi : Nat) (x : Option Nat) : Bool := x.all (fun v => decide (lo ≤ v) && decide (v ≤ hi))

/-! ### Headers and rows (R92, R98, R104, R105) -/

/-- Bytes `lo` to `hi` of a header as a number, most significant byte first. -/
def imageField (i : TableImage) (lo hi : Nat) : Nat :=
  ((i.head.drop lo).take (hi + 1 - lo)).foldl (fun a b => a * 256 + b.toNat) 0

/-- The header's fields as its bytes hold them (R105): `PI` packs π[17] to π[0] in 5 bits each above 6 pad bits, `SIGMA` σ[13] to
σ[0] in 4 bits each. (DESIGN CHOICE log 53) -/
def imageHeader (i : TableImage) : ImageHeader :=
  { magic := BitVec.ofNat 32 (imageField i 0 3), grain := BitVec.ofNat 8 (imageField i 4 4), format := BitVec.ofNat 8 (imageField i 5 5)
    sdId := BitVec.ofNat 64 (imageField i 8 15), rows := imageField i 16 19, timers := imageField i 20 21
    pi := (List.range 18).map (fun j => imageField i 24 35 / 2 ^ (6 + 5 * j) % 32), key := BitVec.ofNat 18 (imageField i 36 38)
    sigma := (List.range 14).map (fun j => imageField i 39 45 / 2 ^ (4 * j) % 16), keyT := BitVec.ofNat 14 (imageField i 46 47) }

/-- The header's reserved bytes and pad bits are 0 (R105). -/
def reservedZero (i : TableImage) : Bool :=
  i.head.length == 64 && imageField i 6 7 == 0 && imageField i 22 23 == 0 && imageField i 48 59 == 0 && imageField i 24 35 % 64 == 0 &&
    imageField i 36 38 / 2 ^ 18 == 0 && imageField i 46 47 / 2 ^ 14 == 0

/-- A table is a permutation of its indexes. -/
def isPerm (n : Nat) (tbl : List Nat) : Bool := tbl.length == n && (List.range n).all (fun k => tbl.contains k)

/-- Whether the cycle of a permutation through `j` holds an odd number of positions where the key is 1. -/
def cycleOdd (tbl : List Nat) (key : Nat) (j : Nat) : Bool :=
  let walk := (List.range tbl.length).foldl (fun (a : List Nat) _ =>
    let next := tbl.getD (a.headD j) 0
    if a.contains next then a else next :: a) [j]
  (walk.filter (fun k => key.testBit k)).length % 2 == 1

/-- No address is stored at itself. -/
def noFixedPoint (tbl : List Nat) (key : Nat) : Bool := (List.range tbl.length).any (fun j => cycleOdd tbl key j)

/-- R98: what lane B needs of the cross-grain keys. -/
def crossKeysOk (h : ImageHeader) : Bool :=
  isPerm 18 h.pi && isPerm 14 h.sigma && (h.pi.take 5).all (fun k => decide (5 ≤ k)) && h.key != 0 && h.keyT != 0 &&
    noFixedPoint h.pi h.key.toNat && noFixedPoint h.sigma h.keyT.toNat

/-- The header's last four bytes are the CRC-32 over the 60 before them (R105). (DESIGN CHOICE log 53) -/
def headerCrcOk (i : TableImage) : Bool := (crc32 (i.head.take 60)).toNat == imageField i 60 63

/-- R105 for a lane's grain: the header's own fields, its reserved bytes, its CRC; only the cross-grain image has keys. -/
def headerOk (g : Grain) (id : W64) (i : TableImage) : Bool :=
  let h := imageHeader i
  h.magic == 0x73407AB1 && h.format == 1 && h.grain.toNat == grainCode g && h.sdId == id && reservedZero i && headerCrcOk i &&
    decide (1 ≤ h.rows) && decide (h.rows < tableWords) && decide (h.timers ≤ timerCells) &&
    (match g with
      | .cross => crossKeysOk h
      | _ => h.pi.all (· == 0) && h.sigma.all (· == 0) && h.key == 0 && h.keyT == 0)

/-- A row before the end marker, its destination translated back to true grain. -/
def rowOk (g : Grain) (h : ImageHeader) (w : W64) : Bool :=
  reservedOk w && (match rowClass w with
    | 0x1 => true
    | 0x2 => let d := trueAddr g h (rowField w 29 12); inOutput d || inInternal d
    | 0x3 => trueAddr g h (rowField w 25 8) == 0x20000 + trueCell g h (rowField w 39 26)
    | _ => false)

/-- R92: each cell below `TIMERS` is named by one TIMER row, and no other cell. -/
def timersNamed (g : Grain) (i : TableImage) : Bool :=
  let h := imageHeader i
  let named := ((List.range h.rows).filter (fun k => rowClass (memRead 0 i.rows k) == 0x3)).map (fun k =>
    trueCell g h (rowField (memRead 0 i.rows k) 39 26))
  allDistinct named && named.length == h.timers && named.all (fun k => decide (k < h.timers))

def imageOk (g : Grain) (id : W64) (i : TableImage) : Bool :=
  let h := imageHeader i
  let last := memRead 0 i.rows h.rows
  headerOk g id i && (List.range h.rows).all (fun k => rowOk g h (memRead 0 i.rows k)) && rowClass last == 0xE &&
    reservedOk last && rowField last 59 40 == h.rows && rowField last 39 38 == grainCode g && timersNamed g i

/-- The three headers carry equal ID, `ROWS` and `TIMERS`. -/
def headersEqual (sd : StationData) : Bool :=
  let f (i : TableImage) := ((imageHeader i).sdId, (imageHeader i).rows, (imageHeader i).timers)
  f sd.imageA == f sd.imageB && f sd.imageA == f sd.imageC

/-! ### The timetable (R113, R119, R120, R374) -/

def cycleOk (c : Nat) : Bool := [8, 16, 32, 64].contains c

def mirrorWords (p : PairCfg) : Nat := p.segWords.sum
/-- `MIRROR_BYTES`. -/
def mirrorLine (p : PairCfg) : Nat := 8 * mirrorWords p + 64 * p.segWords.length

/-- The close fits the evaluation deadline and, with the hand-over and the mirror packet, 90 % of C. Times in half-ns. -/
def sizeOk (sd : StationData) : Bool :=
  let h := imageHeader sd.imageA
  let c := sd.settings.cycleMs
  let close := predClose h.rows h.timers
  let bits := if sd.pair.paired then 8 * mirrorLine sd.pair else 0
  cycleOk c && decide (close ≤ 2 * (c * 10000 * sd.settings.evalDlPct.getD 60)) &&
    decide (close + 480000 + 10 * bits + 8000 ≤ 2 * (c * 900000)) &&
    (!sd.pair.paired || decide (close + 480000 + 20 * bits + 8000 ≤ 2 * (c * 900000)))

/-- The table image that a lane loads, by the grain of its straps (R12). -/
def imageOf (sd : StationData) : Grain → TableImage
  | .true => sd.imageA
  | .cross => sd.imageB
  | .counter => sd.imageC

/-- The image that a lane loads names another grain than its straps give (R12). -/
def grainMismatch (sd : StationData) (strap : Grain) : Bool := (imageHeader (imageOf sd strap)).grain.toNat != grainCode strap

/-- R104 for a lane's image: its own checks, and the equality of the three headers. -/
def laneImageOk (sd : StationData) (strap : Grain) : Bool := headersEqual sd && imageOk strap sd.id (imageOf sd strap)

/-- Codes of a lane's image checks. -/
def imageCodes (sd : StationData) (strap : Grain) : List Byte := failCode (laneImageOk sd strap) 0x06 ++ failCode (sizeOk sd) 0x07

/-! ### Translation: I/O map, restrictive values, pair lists, keys (R88, R94, R240, R376, R395, R424) -/

/-- The variables of the protection blocks as the map must give them. -/
def blockInputs (sd : StationData) : List (Nat × InputSrc) :=
  (sd.pf.zipIdx).flatMap (fun q => (List.range 32).map (fun b => (q.1.base + b, InputSrc.protection q.2 b)))

def ioMapOk (sd : StationData) : Bool :=
  allDistinct (sd.inputs.map Prod.fst) && sd.inputs.all (fun p => inInput p.1) &&
    sd.outputs.all (fun p => inOutput p.1) && allDistinct (sd.outputs.map Prod.fst) && allDistinct (sd.outputs.map Prod.snd) &&
    sd.msgBits.all (fun b => inOutput b.addr) && sd.pf.all (fun c => c.base % 32 == 0) &&
    (blockInputs sd).all (fun p => sd.inputs.contains p)

/-- A validity flag of a field channel. -/
def validityFlag : InputSrc → Bool
  | .diValid _ | .aiValid _ | .encValid | .outValid _ => true
  | _ => false

/-- A variable that must have restrictive value 0. -/
def mustRestrict (p : Nat × InputSrc) : Bool := validityFlag p.2 || (match p.2 with | .protection _ _ => true | _ => false)

def permitList (p : Permits) : List Nat :=
  [p.maintain, p.leaveMaintain, p.commission, p.endCommission, p.swap, p.quiesce, p.actFw, p.actSd, p.enrol, p.slice].filterMap id

def restrictOk (sd : StationData) : Bool :=
  sd.outputs.all (fun p => !sd.restrictOut.contains p.1) &&
    sd.inputs.all (fun p => !(mustRestrict p && sd.restrictIn.contains p.1)) &&
    (permitList sd.permits).all (fun a => inOutput a && !sd.restrictOut.contains a) && sd.permits.slice.isSome &&
    sd.pair.requests.all (fun n => !sd.restrictIn.contains n) && sd.restrictIn.all inInput && sd.restrictOut.all inOutput &&
    sd.initial.all inInternal

/-- The words of a mirror packet's data. -/
def mirrorData (sd : StationData) : Nat :=
  let p := sd.pair
  2 + (p.requests.length + 63) / 64 + (p.memories.length + 63) / 64 + p.capacity + 3 * sd.jxt.length + p.canAlive.length

def segsOk (p : PairCfg) : Bool :=
  decide (p.segWords.length ≤ 8) && p.segWords.all (fun n => decide (n ≤ 256) && n % 2 == 0) && decide (mirrorWords p ≤ 1984) &&
    decide (mirrorLine p ≤ 16384)

def mirrorOk (sd : StationData) : Bool :=
  !sd.pair.paired || (segsOk sd.pair && mirrorWords sd.pair == 3 * sd.pair.segWords.length + mirrorData sd)

def thresholdOk (t : Threshold) : Bool := decide (t.reset < t.set)

/-- The settings that the lanes take. -/
def laneSettingsOk (sd : StationData) : Bool :=
  within 25 75 sd.settings.evalDlPct && sd.ai.all (fun c => !c.used || (decide (c.thrs.length ≤ 4) && c.thrs.all thresholdOk)) &&
    decide (sd.settings.encThrs.length ≤ 4) && sd.settings.encThrs.all thresholdOk &&
    (!sd.pair.paired || within 1 16 sd.pair.joinCyc)

/-- Codes of a lane's translation, by its key-encryption key. -/
def translationCodes (kek : BitVec 128) (sd : StationData) : List Byte :=
  failCode (laneSettingsOk sd) 0x08 ++ failCode (ioMapOk sd) 0x09 ++ failCode (restrictOk sd) 0x0A ++ failCode (mirrorOk sd) 0x0F ++
    failCode (sd.jxt.all (fun c => c.wraps.all (fun w => w.all (fun v => (keyUnwrap kek v).isSome)))) 0x10

end Sys2Proof.Machine
end

