-- ==== Sys2Proof/Machine/CheckUnits.lean ====
section
/-! DEFINITION. What Callipers, the field section and the communications units check of a station data set at CONFIG (R165, R190,
R192, R194, R199, R222, R238, R243 to R247, R252, R256, R263 to R269, R273, R276, R283, R294, R311, R314, R318, R323 to R325, R332,
R339, R343, R345, R348, R349, R353, R356, R359, R374, R444, R495), and the Bench of its own settings. -/

namespace Sys2Proof.Machine

def msgOf (sd : StationData) (n : Nat) : Option MsgCfg := sd.msgs.find? (fun c => c.msg == n)

/-! ### Callipers (R165, R374) -/

def callipersCodes (sd : StationData) : List Byte :=
  let own := sd.msgs.all (fun c => decide (4088 ≤ c.msg) == (c.port == .mirror) &&
    (c.port != .mirror || decide (c.msg < 4088 + sd.pair.segWords.length)))
  let lens := (List.range sd.pair.segWords.length).all (fun k =>
    (msgOf sd (4088 + k)).any (fun c => c.words == sd.pair.segWords.getD k 0 && c.port == .mirror))
  failCode (!sd.pair.paired || (own && lens)) 0x0F ++
    failCode (allDistinct (sd.msgs.map MsgCfg.msg) && sd.msgs.all (fun c => decide (c.msg < 4096) && decide (1 ≤ c.words) &&
      decide (c.words ≤ 1024)) && decide ((sd.msgs.map MsgCfg.words).sum ≤ bufferWords)) 0xFF

/-! ### Field section -/

/-- The digital input channels of an instance. A safe stop has the encoder pairing of inputs 46 and 47. -/
def pfChannels (c : PfCfg) : List Nat :=
  [c.chA, c.chB, c.chC, c.chD, c.reset, c.lock].filterMap id ++ (if c.kind = .safeStop then [46, 47] else [])

/-- At most 8 slots, each with an output of the module, and none for a two-button instance (R241). -/
def guardsOk (c : PfCfg) : Bool :=
  decide (c.guard.length ≤ 8) && c.guard.all (fun g => g.all (fun n => decide (n < 24))) &&
    (c.kind != .twoButton || c.guard.all (fun g => g.isNone))

/-- The channels that a kind needs are given, and only those, with slots that it may have. (DESIGN CHOICE log 26) -/
def pfShapeOk (c : PfCfg) : Bool :=
  let two := c.chA.isSome && c.chB.isSome && c.chC.isNone && c.chD.isNone
  guardsOk c && match c.kind with
  | .estop | .curtain => two && c.lock.isNone
  | .gate => two
  | .twoButton => c.chA.isSome && c.chB.isSome && c.chC.isSome && c.chD.isSome && c.lock.isNone && c.reset.isNone
  | .safeStop => c.chA.isNone && c.chB.isNone && c.chC.isNone && c.chD.isNone && c.lock.isNone &&
      (c.guard.getD 0 none).isSome && (c.guard.getD 1 none).isSome

/-- R243: the settings of a channel. -/
def chanCfgIs (sd : StationData) (ch : Option Nat) (mons : List Nat) (capt : Nat) : Bool :=
  ch.all (fun k => (sd.di[k]?).any (fun d => d.used && mons.contains d.mon && d.capt == capt))

def chanSrc (sd : StationData) (ch : Option Nat) : Option Nat := (ch.bind (fun k => sd.di[k]?)).bind (fun d => d.src)

def pfChannelsOk (sd : StationData) (c : PfCfg) : Bool :=
  chanCfgIs sd c.reset [1, 2] 0 && chanCfgIs sd c.lock [2] 2 &&
    (match c.kind with
      | .estop | .gate => chanCfgIs sd c.chA [2] 2 && chanCfgIs sd c.chB [2] (if c.anti then 1 else 2) &&
          chanSrc sd c.chA != chanSrc sd c.chB
      | .twoButton => [c.chA, c.chB, c.chC, c.chD].all (fun ch => chanCfgIs sd ch [2] 0) &&
          allDistinct ([c.chA, c.chB, c.chC, c.chD].filterMap (chanSrc sd))
      | .curtain => chanCfgIs sd c.chA [0] 2 && chanCfgIs sd c.chB [0] 2
      | .safeStop => true)

def encPaired (sd : StationData) : Bool := (sd.di[46]?).any (fun d => d.enc) && (sd.di[47]?).any (fun d => d.enc)

/-- R247, R495: a safe stop's parameters are given, and in their ranges. -/
def stopRangesOk (sd : StationData) (c : PfCfg) : Bool :=
  [c.vmaxGiven, c.vlim0Given, c.tdelayGiven, c.decelGiven, c.vssGiven, c.tssGiven, c.tmaxGiven].all Option.isSome &&
  decide (100 ≤ c.vmax) && decide (c.vmax ≤ 400000) && decide (c.vmax ≤ c.vlim0) && decide (c.vlim0 ≤ 400000) &&
    decide (c.tdelay ≤ 10000) && decide (100 ≤ c.decel) && decide (c.decel ≤ 10000000) && decide (100 ≤ c.vss) &&
    decide (c.vss ≤ c.vmax) && decide (sd.settings.cycleMs ≤ c.tss) && decide (c.tss ≤ 10000) && decide (c.tmax ≤ 60000)

/-- `TMAX` covers the curve. (DESIGN CHOICE log 26) -/
def stopFits (c : PfCfg) : Bool := decide (c.tdelay * c.decel + 1000 * (c.vlim0 - c.vss) ≤ c.tmax * c.decel)

/-- Two-button blocks take their four contacts from four different sources, and the registered ranges of R402 that the spec states nowhere are taken from the field widths. (DESIGN CHOICE log 26) -/
def pfRangesOk (sd : StationData) (c : PfCfg) : Bool :=
  within 10 2000 c.tdisc && within 100 60000 c.ackmax && (c.kind != .safeStop || stopRangesOk sd c)

/-- Two-button blocks take their four contacts from four different sources, and the registered ranges of R402 that the spec states nowhere are taken from the field widths. (DESIGN CHOICE log 26) -/
def pfOk (sd : StationData) : Bool :=
  decide (sd.pf.length ≤ 16) &&
    decide ((sd.pf.filter (fun c => c.kind == .safeStop)).length ≤ 1) && allDistinct (sd.pf.flatMap pfChannels) &&
    sd.pf.all (fun c => pfChannelsOk sd c && (c.kind != .safeStop || (encPaired sd && stopFits c)))

def diRangesOk (d : DiCfg) : Bool := !d.used || (within 1 1000 d.filtN && decide (d.capt ≤ 2) && decide (d.mon ≤ 2))

/-- R199, R202: a pulse-monitored channel has a source, an encoder track no monitoring, and both tracks are paired.
(DESIGN CHOICE log 110) -/
def diFits (sd : StationData) : Bool :=
  (sd.di.zipIdx).all (fun q =>
    (!q.1.used || q.1.mon != 2 || q.1.src.any (fun s => decide (s < 4))) &&
      (!q.1.enc || (q.1.mon == 0 && (q.2 == 46 || q.2 == 47)))) &&
  ((sd.di[46]?).any (fun d => d.enc) == (sd.di[47]?).any (fun d => d.enc))

/-- R190, R195, R199, R222, R238 to R247; a protection instance in the central role is refused too (R5). -/
def fieldCodes (sd : StationData) : List Byte :=
  let lo := sd.settings.thrMin.getD 80
  let hi := sd.settings.thrMax.getD 110
  failCode (within 60 110 sd.settings.thrMin && within 60 110 sd.settings.thrMax && sd.di.all diRangesOk &&
    sd.out.all (fun c => !c.used || within 5 500 c.imin) && sd.pf.all (fun c => pfShapeOk c && pfRangesOk sd c)) 0x08 ++
  failCode (decide (lo ≤ hi) && diFits sd && pfOk sd) 0x0B ++
  failCode (sd.role == .objectController || sd.pf.isEmpty) 0xFF

/-! ### Rings (R252, R256, R263 to R269, R273, R283, R294) -/

/-- The windows that a module of this node and copy sends in. -/
def sendsIn (copy : BitVec 1) (c : RingCfg) (e : RingEntry) : Bool :=
  match e.kind with
  | .exclusive => e.tx && e.owner == c.node && e.copy == copy
  | .arbitrating => e.members.contains c.node
  | .join => true
  | .reference => c.coldstarts.any (fun k => k.node == c.node && k.copy == copy)
  | .free => false

/-- Two entries may fall in one basic cycle of one matrix cycle. -/
def sameCycle (a b : RingEntry) : Bool :=
  a.bc == b.bc && !((a.parity == .even && b.parity == .odd) || (a.parity == .odd && b.parity == .even))

def apart (a b : RingEntry) : Bool := !sameCycle a b || decide (closesNs a ≤ opensNs b) || decide (closesNs b ≤ opensNs a)

/-- No two of a list overlap. -/
def allApart {α : Type} (f : α → α → Bool) : List α → Bool
  | [] => true
  | x :: xs => xs.all (f x) && allApart f xs

/-- A window closes by 995 µs − `RT_MAX`, an arbitrating one 125 µs earlier. -/
def closesInTime (c : RingCfg) (e : RingEntry) : Bool :=
  decide (closesNs e + c.rtMax * 10 + (if e.kind = .arbitrating then 125000 else 0) ≤ 995000)

/-- R265 for a message and a copy: one window in each logic cycle, at least 250 µs after the predicted close. -/
def boundOnce (sd : StationData) (c : RingCfg) (copy : BitVec 1) (msg : Nat) : Bool :=
  let cms := max sd.settings.cycleMs 1
  let close := (predClose (imageHeader sd.imageA).rows (imageHeader sd.imageA).timers + 1) / 2
  let es := c.entries.filter (fun e => e.kind == .exclusive && e.tx && e.owner == c.node && e.copy == copy && e.msg == msg)
  (List.range (64 / cms)).all (fun j =>
    let hits := (List.range cms).flatMap (fun b => (es.filter (fun e => inBasic e (j * cms + b))).map (fun e => (b, e)))
    hits.length == 1 && hits.all (fun q => decide (close + 250000 ≤ q.1 * 1000000 + instantNs q.2) &&
      decide (instantNs q.2 < 1000000)))

/-- R266: each window of copy 0 of the node is followed by one of copy 1. -/
def doubled (c : RingCfg) : Bool :=
  !c.pair || (c.entries.filter (fun e => e.kind == .exclusive && e.tx && e.owner == c.node && e.copy == 0)).all (fun e =>
    c.entries.any (fun f => f.kind == .exclusive && f.tx && f.owner == c.node && f.copy == 1 && f.bc == e.bc && f.parity == e.parity &&
      f.msg == e.msg && f.len == e.len && decide (closesNs e < instantNs f)))

def coldstartsOk (c : RingCfg) : Bool :=
  decide (c.coldstarts.length ≤ 4) && c.coldstarts.all (fun k => decide (1 ≤ k.rank) && decide (k.rank ≤ 4)) &&
    allDistinct (c.coldstarts.map Coldstart.rank) && allDistinct (c.coldstarts.map (fun k => k.node.toNat * 2 + k.copy.toNat))

/-- A join window in every matrix cycle. -/
def hasJoin (c : RingCfg) : Bool :=
  let js := c.entries.filter (fun e => e.kind == .join)
  js.any (fun e => e.parity == .every) || (js.any (fun e => e.parity == .even) && js.any (fun e => e.parity == .odd))

def ringMsgs (sd : StationData) (i : RingId) : List MsgCfg :=
  sd.msgs.filter (fun c => c.port == .ring i || c.port == .ringSporadic i)

/-- An exclusive entry that the node sends in carries a bound message of its length. -/
def entryBound (sd : StationData) (i : RingId) (c : RingCfg) (e : RingEntry) : Bool :=
  !(e.kind == .exclusive && e.tx && e.owner == c.node) ||
    (msgOf sd e.msg).any (fun x => x.port == .ring i && 8 * x.words == e.len)

/-- A message of a window that the node sends in or receives from is 2 to 187 words long (R256). -/
def entryLenOk (e : RingEntry) : Bool :=
  !(e.kind == .exclusive || (e.kind == .arbitrating && e.rx)) || (e.len % 8 == 0 && decide (16 ≤ e.len) && decide (e.len ≤ 1496))

def ringOk (sd : StationData) (copy : BitVec 1) (i : RingId) (c : RingCfg) : Bool :=
  let copy : BitVec 1 := if c.pair then copy else 0
  let copies : List (BitVec 1) := if c.pair then [0, 1] else [0]
  decide (1 ≤ c.node.toNat % 256) && decide (c.node.toNat % 256 ≤ 254) && decide (c.nmod ≤ 254) && decide (c.entries.length ≤ 2048) &&
    c.entries.all (fun e => decide (e.bc < 32) && closesInTime c e && entryBound sd i c e && entryLenOk e) &&
    allApart apart (c.entries.filter (sendsIn copy c)) && c.schedId == c.cfgSchedId && c.schedCrc == c.loadedCrc &&
    !c.declaredOpen && doubled c && coldstartsOk c && hasJoin c &&
    (ringMsgs sd i).all (fun x => decide (2 ≤ x.words) && decide (x.words ≤ 187)) &&
    (sd.msgs.filter (fun x => x.port == .ring i)).all (fun x => copies.all (fun k => boundOnce sd c k x.msg)) &&
    (sd.msgs.filter (fun x => x.port == .ringSporadic i)).all (fun x => c.sporadic.any (fun s => s.msg == x.msg))

/-- The ranges of a ring's settings, those without a default given (R495). A receive timeout must lie in its range by its default too.
(DEDUCED log 54, DEDUCED log 55) -/
def ringRangesOk (c : RingCfg) : Bool :=
  c.rtMaxGiven.isSome && decide (2000 ≤ c.rtMax) && decide (c.rtMax ≤ 40000) &&
    c.entries.all (fun e => (!e.rx || (decide (2 * e.senderC ≤ rxTmoOf c e) && decide (rxTmoOf c e ≤ 10000))) &&
      (!(e.kind == .arbitrating && e.members.contains c.node) || (e.arbBytesGiven.isSome && decide (42 ≤ e.arbBytes) && decide (e.arbBytes ≤ 12000)))) &&
    c.sporadic.all (fun s => s.refreshGiven.isSome && decide (1 ≤ s.refresh) && decide (s.refresh ≤ 1024) && within 1 8 s.ageMax)

/-- Two buffers for each receive connection, at most 96 KiB. (DEDUCED log 55) -/
def ringBytes (c : RingCfg) : Nat :=
  if c.used then (((c.entries.filter (fun e => e.rx)).map RingEntry.conn).eraseDups.map (fun k =>
    2 * ((c.entries.filter (fun e => e.rx && e.conn == k)).map RingEntry.len).foldl max 0)).sum else 0

/-- Ring budgets of CONFIG: units, and what a connection's buffers count. (DEDUCED log 55) -/
def ringCodes (sd : StationData) (copy : BitVec 1) : List Byte :=
  let used (c : RingCfg) (f : RingCfg → Bool) : Bool := !c.used || f c
  failCode (used sd.ring1 ringRangesOk && used sd.ring2 ringRangesOk && within 10 200 sd.settings.rateLim) 0x08 ++
  failCode (used sd.ring1 (ringOk sd copy .r1) && used sd.ring2 (ringOk sd copy .r2) &&
    !(sd.ring1.used && sd.ring2.used && sd.ring1.node.toNat / 256 == sd.ring2.node.toNat / 256) &&
    decide (ringBytes sd.ring1 + ringBytes sd.ring2 ≤ 98304)) 0x0C

/-! ### JXT (R311, R314, R318, R323 to R325) -/

def jxtOk (sd : StationData) (k : Nat) (c : JxtCfg) : Bool :=
  let least := if c.cmac then 4 else 3
  let cms := sd.settings.cycleMs
  c.cmac == (sd.settings.redOpen || sd.settings.blueOpen) && decide (least ≤ c.txWords) && decide (c.txWords ≤ 182) &&
    decide (least ≤ c.rxWords) && decide (c.rxWords ≤ 182) && decide (c.rxMsg < 4096) &&
    decide (1 ≤ c.redIp.length) && decide (c.redIp.length ≤ 2) && c.blueIp.length == c.redIp.length &&
    (msgOf sd c.txMsg).any (fun x => x.port == .jxt k && x.words == c.txWords) &&
    (!c.cmac || (c.wraps.getD c.keyTx.toNat none).isSome) && c.ageMs.all (fun a => decide (c.peerC + 2 * cms ≤ a)) &&
    c.tmo.all (fun n => decide (2 * c.peerC ≤ n * cms))

def jxtRangesOk (sd : StationData) (c : JxtCfg) : Bool :=
  let cms := sd.settings.cycleMs
  c.peerCGiven.isSome && within 500 (min 10000 (cms * 500)) c.winUs && within (2 * cms) 10000 c.ageMs && within 2 1250 c.tmo

def jxtCodes (sd : StationData) : List Byte :=
  failCode (sd.jxt.all (jxtRangesOk sd) && within 0 63 sd.settings.jxDscp) 0x08 ++
  failCode (decide (sd.jxt.length ≤ 64) && allDistinct (sd.jxt.map (fun c => c.number.toNat)) &&
    decide ((sd.jxt.map (fun c => 16 * c.rxWords)).sum ≤ 49152) && (sd.jxt.zipIdx).all (fun q => jxtOk sd q.2 q.1) &&
    sd.msgs.all (fun x => match x.port with | .jxt k => (sd.jxt[k]?).any (fun c => c.txMsg == x.msg) | _ => true)) 0x0D

/-! ### CAN FD (R332, R339, R342 to R359, R363) -/

def profileOk (q : Profile) : Bool :=
  decide (2 ≤ q.ctx) && decide (q.ctx ≤ 7) && decide (2 ≤ q.poly) && decide (q.poly ≤ 5) &&
    (q.poly != 5 || (decide (8 ≤ q.width) && decide (q.width ≤ 64) && q.polyv.getLsbD 0 && decide (q.polyv.toNat < 2 ^ q.width) &&
      decide (q.init.toNat < 2 ^ q.width) && decide (q.xorOut.toNat < 2 ^ q.width)))

def profileRangesOk (q : Profile) : Bool :=
  q.alvBits == 0 || (decide (4 ≤ q.alvBits) && decide (q.alvBits ≤ 16) && decide (1 ≤ q.alvMaxd) && decide (q.alvMaxd < 2 ^ q.alvBits))

def bufUsed (b : BufCfg) : Bool := b.dir != .unused

def bufKindOk (c : CanCfg) (b : BufCfg) : Bool :=
  b.dir != .transmit || (!c.listen && (if c.tt then b.kind == .exclusive || b.kind == .arbitrating
    else b.kind == .event || b.kind == .atTime))

/-- A receive buffer would take a frame with this identifier and format. -/
def wouldTake (b : BufCfg) (id : BitVec 29) (ide : Bool) : Bool :=
  b.ide == ide && ((b.id &&& b.mask) == (id &&& b.mask) || (b.pair && b.id2 == id))

/-- The identifiers that the module owns on a port (R347). -/
def ownIds (c : CanCfg) : List (BitVec 29 × Bool) :=
  ((c.bufs.filter (fun b => b.dir == .transmit)).map (fun b => (b.id, b.ide))) ++
    (if c.tt then [(c.refId, c.refIde)] else [])

/-- A window of a time-triggered port in ns, with its cycle mask. -/
def ttWindows (c : CanCfg) : List (Nat × Nat × W32) :=
  (0, canWorstNs c false false c.refIde 1, BitVec.allOnes 32) ::
    ((c.arbs.filter (fun a => a.len != 0)).map (fun a => (a.ofs * 1000, (a.ofs + a.len) * 1000, a.mask))) ++
    ((c.bufs.filter (fun b => b.dir == .transmit && b.kind == .exclusive)).map (fun b =>
      (b.ttOfs * 1000, (b.ttOfs + b.ttLen) * 1000, b.ttMask)))

def ttOk (c : CanCfg) : Bool :=
  let cycles := 32 / max c.cbc 1
  !c.tt || (decide (c.arbs.length ≤ 8) && (ttWindows c).all (fun w => decide (w.2.1 ≤ c.cbc * 1000000)) &&
    allApart (fun (a b : Nat × Nat × W32) => (a.2.2 &&& b.2.2).toNat % 2 ^ cycles == 0 || decide (a.2.1 ≤ b.1) || decide (b.2.1 ≤ a.1)) (ttWindows c) &&
    c.bufs.all (fun b => !(b.dir == .transmit && b.kind == .exclusive) ||
      decide (c.txen.getD 4 * nominalBitNs c.nbr + bufWorstNs c b ≤ b.ttLen * 1000)))

/-- A transmit buffer's message has the length that its DLC gives. -/
def bufMsgOk (sd : StationData) (p : CanId) (b : Nat) (c : BufCfg) : Bool :=
  c.dir != .transmit || (msgOf sd c.msg).any (fun x => x.port == .can p b && x.words == 1 + (dlcBytes c.fdf c.dlc + 7) / 8)

def canOk (sd : StationData) (copy : BitVec 1) (p : CanId) (c : CanCfg) : Bool :=
  let second := sd.pair.paired && copy == 1
  let other := ownIds (canForCopy (!second) c)
  let c := canForCopy second c
  let own := ownIds c
  decide (c.bufs.length ≤ 64) && !(c.listen && c.tt) && c.bufs.all (bufKindOk c) &&
    allDistinct ((c.bufs.filter (fun b => b.dir == .transmit)).map (fun b => b.id.toNat * 2 + bitOf b.ide)) &&
    (c.bufs.filter (fun b => b.dir == .receive)).all (fun b => own.all (fun o => !wouldTake b o.1 o.2)) &&
    (c.bufs.zipIdx).all (fun q => bufMsgOk sd p q.2 q.1) && (!sd.pair.paired || own.all (fun o => !other.contains o)) &&
    sd.msgs.all (fun x => match x.port with
      | .can q b => q != p || (c.bufs[b]?).any (fun y => y.dir == .transmit && y.msg == x.msg)
      | .canCommand q => q != p || x.words == 1
      | _ => true) &&
    c.bufs.all (fun b => !bufUsed b || b.ctx == 0 || sd.profiles.any (fun q => q.ctx == b.ctx)) && ttOk c

def bufRangesOk (b : BufCfg) : Bool :=
  match b.dir with
  | .unused => true
  | .transmit => if b.kind = .atTime then within 50 10000 b.late else if b.kind = .event then within 100 64000 b.late else true
  | .receive => within 2 1250 b.tmo && (!b.pair || within 200 4000 b.pairWin)

def canRangesOk (c : CanCfg) : Bool :=
  decide (1 ≤ c.nbr) && decide (c.nbr ≤ 4) && decide (c.dbr ≤ 4) && (c.dbr == 0 || decide (dataBitNs c.dbr ≤ nominalBitNs c.nbr)) &&
    within 70 90 c.nsp && within 70 90 c.dsp && c.bufs.all bufRangesOk &&
    (!c.tt || (c.cbcGiven.any (fun n => [1, 2, 4, 8].contains n) && within 1 16 c.txen))

def canCodes (sd : StationData) (copy : BitVec 1) : List Byte :=
  let used (c : CanCfg) (f : CanCfg → Bool) : Bool := c.nbr == 0 || f c
  failCode (used sd.can1 canRangesOk && used sd.can2 canRangesOk && sd.profiles.all profileRangesOk) 0x08 ++
  failCode (used sd.can1 (canOk sd copy .p1) && used sd.can2 (canOk sd copy .p2) && sd.profiles.all profileOk &&
    allDistinct (sd.profiles.map Profile.ctx) && decide ((sd.profiles.filter (fun q => q.poly == 5)).length ≤ 2)) 0x0E

/-! ### The Bench's own settings (R424, R436, R444) -/

/-- CONFIG: which lanes take part and what is named of a refusal. (DEDUCED log 54) -/
def benchCodes (sd : StationData) : List Byte :=
  let s := sd.settings
  failCode (within 0 1439 s.sliceFrom && within 30 1440 s.sliceLen && within 2 50 s.shockThr &&
    s.buckets.all (fun q => decide (1 ≤ q.2.1) && decide (q.2.1 ≤ 255) && decide (1 ≤ q.2.2) && decide (q.2.2 ≤ 100)) &&
    decide (s.ec.length ≤ 32)) 0x08

/-! ### Every unit but the lanes, in ascending level-2 path value (R402) -/

/-- The codes that a unit's own checks find, with those that only its inputs can tell. (DEDUCED log 54) -/
def unitCodes (sd : StationData) (copy : BitVec 1) (v : ConfigVerdict) (u : Nat) : List Byte :=
  (match u with
    | 4 => callipersCodes sd
    | 5 => fieldCodes sd
    | 6 => ringCodes sd copy ++ jxtCodes sd ++ canCodes sd copy
    | 7 => benchCodes sd
    | _ => []) ++ (v.others.filter (fun q => q.1 == u)).map Prod.snd

end Sys2Proof.Machine
end

