-- ==== Sys2Proof/Machine/ConfigCmds.lean ====
section
/-! DEFINITION. CONFIG and what follows it (R12, R104, R151, R190, R391, R402, R403, R405, R410, R471, R473, R494): the verdict on a
station data set, taking it into force, its refusal, the watch over JOIN, the end of RESTART, and the field sweep. -/

namespace Sys2Proof.Machine

/-! ### The verdict on a set (R402, R468, R494) -/

/-- The settings format lies in the range that the active firmware's manifest states. -/
def formatOk (m : Mach) (sd : StationData) : Bool :=
  match (m.bench.upd.runSlot .firmware).manifest with
  | some x => decide (x.setLow.toNat ≤ sd.settingsFmt.toNat) && decide (sd.settingsFmt.toNat ≤ x.setHigh.toNat)
  | none => true

def manifestFinding (v : ConfigVerdict) : LaneId → Option Byte
  | .a => v.manifestA
  | .b => v.manifestB
  | .c => v.manifestC

def manifestCodes (m : Mach) (sd : StationData) (v : ConfigVerdict) (l : LaneId) : List Byte :=
  (manifestFinding v l).toList ++ failCode (formatOk m sd) 0x05

/-- A lane that takes part in CONFIG: one that votes or is to vote again, or one that is released and has failed no step since BOOT
began (R150, R400). (DEDUCED log 54) -/
def Mach.configures (m : Mach) (l : LaneId) : Bool :=
  let a := (m.lane l).agr
  a.life == .voting || a.life == .sync || (a.life == .out && !a.held && !a.inReset && !a.failedStart)

/-- Where a lane's checks stop, by the step of CONFIG, with their codes. (DESIGN CHOICE log 53) -/
def laneFinding (m : Mach) (sd : StationData) (v : ConfigVerdict) (l : LaneId) : Option (Nat × List Byte) :=
  match manifestCodes m sd v l, imageCodes sd (m.grain l), translationCodes (m.lane l).kek sd with
  | c :: cs, _, _ => some (1, c :: cs)
  | [], c :: cs, _ => some (2, c :: cs)
  | [], [], c :: cs => some (3, c :: cs)
  | [], [], [] => none

def lowestCode (cs : List Byte) : Byte := cs.foldl (fun a b => if b.toNat < a.toNat then b else a) 0xFF

/-- A refusal of a whole set: the first unit, its lowest code, and whether it is a lane's translation. -/
structure SetRefusal where
  unit : Nat
  cause : Byte
  translation : Bool
  deriving DecidableEq, Repr

/-- The lanes that refuse, each with its finding. (DEDUCED log 54) -/
def refusingLanes (m : Mach) (sd : StationData) (v : ConfigVerdict) : List (LaneId × Nat × List Byte) :=
  (laneIds.filter m.configures).filterMap (fun l => (laneFinding m sd v l).map (fun f => (l, f)))

/-- The lanes that accept. (DEDUCED log 54) -/
def acceptingLanes (m : Mach) (sd : StationData) (v : ConfigVerdict) : List LaneId :=
  laneIds.filter (fun l => m.configures l && (laneFinding m sd v l).isNone)

/-- The first refusing unit: the lanes step by step, then the other units. -/
def firstRefusal (m : Mach) (sd : StationData) (v : ConfigVerdict) : SetRefusal :=
  let lanes := refusingLanes m sd v
  match [1, 2, 3].findSome? (fun k => lanes.find? (fun f => f.2.1 == k)) with
  | some f => { unit := laneCode f.1, cause := lowestCode f.2.2, translation := f.2.1 == 3 }
  | none =>
    match [4, 5, 6, 7].find? (fun u => !(unitCodes sd m.ident.copy v u).isEmpty) with
    | some u => { unit := u, cause := lowestCode (unitCodes sd m.ident.copy v u), translation := false }
    | none => { unit := 0, cause := 0xFF, translation := false }

/-- A set is accepted by every other unit and at least two lanes, or refused whole. (DESIGN CHOICE log 53) -/
def setRefusal (m : Mach) (sd : StationData) (v : ConfigVerdict) : Option SetRefusal :=
  if 2 ≤ (acceptingLanes m sd v).length ∧ [4, 5, 6, 7].all (fun u => (unitCodes sd m.ident.copy v u).isEmpty) = true then none
  else some (firstRefusal m sd v)

/-- CONFIG checks this set now. (DESIGN CHOICE log 53) -/
def Mach.configOn (m : Mach) (id : W64) : Bool :=
  ((m.mod.mode == .config && !m.mod.configHeld) || (m.mod.mode == .update && m.mod.activating)) &&
    (m.bench.upd.running .stationData).isSome && (m.bench.upd.runSlot .stationData).sdId == id

/-- A grain mismatch that a lane finds is recorded (R12). (DEDUCED log 55) -/
def Mach.noteGrain (l : LaneId) (sd : StationData) (m : Mach) : Mach :=
  let g := m.grain l
  m.postModule (mkNotice (evCode 2 0x12) (lanePath l 6) ((imageHeader (imageOf sd g)).grain.setWidth 32) (BitVec.ofNat 32 (grainCode g))
    (some m.cycleNo) [])

/-- What every verdict records: the lanes that refused, each refused signature, and each grain mismatch. -/
def Mach.verdictNotes (sd : StationData) (v : ConfigVerdict) (m : Mach) : Mach :=
  let lanes := refusingLanes m sd v
  let m := m.updMod (fun x => { x with cfgLanes := maskOf (fun l => lanes.any (fun f => f.1 == l)) })
  lanes.foldl (fun m f =>
    let sig := (manifestFinding v f.1).getD 0
    let m := if sig = 2 ∨ sig = 3 then m.noteUpd 0xC001 2 (sig.setWidth 32) else m
    if f.2.1 = 2 ∧ grainMismatch sd (m.grain f.1) = true then m.noteGrain f.1 sd else m) m

/-! ### A set taken into force, lane by lane (R100, R103, R104, R131, R151, R326, R403) -/

/-- A check-value context at rest, its counters kept. -/
def CvCtx.rest (x : CvCtx) : CvCtx := { x with run := 0, runC := BitVec.allOnes 64, running := false }

def freshCv (xs : List CvCtx) : List CvCtx := (List.range 8).map (fun k => (xs.getD k {}).rest)

/-- Every receive connection timed out, none taken yet. (DESIGN CHOICE log 73) -/
def freshComm (sd : StationData) : CommState :=
  { ring1 := List.replicate (ringConns sd.ring1.entries).length {}
    ring2 := List.replicate (ringConns sd.ring2.entries).length {}
    jxt := List.replicate sd.jxt.length {}
    can1 := List.replicate 64 {}, can2 := List.replicate 64 {} }

/-- A list of a given length: as it is, or made anew. (DESIGN CHOICE log 73) -/
def ofLength {α : Type} (n : Nat) (d : α) (xs : List α) : List α := if xs.length = n then xs else List.replicate n d

/-- A lane loads its image and settings; its vector is initialised at its next run unless a transfer comes first. -/
def Lane.configure (sd : StationData) (x : Lane) : Lane :=
  let i := imageOf sd x.strap
  let h := imageHeader i
  let s := sd.settings
  { x with
    mem :=
      { header := some h, table := memBuild 0 (List.range (h.rows + 1)) (memRead 0 i.rows)
        check := (List.range (h.rows + 1)).map (fun k => (k, Config.secded (memRead 0 i.rows k))), needsInit := true }
    comm := freshComm sd, cv := freshCv x.cv
    di := ofLength 48 {} x.di, outs := ofLength 24 {} x.outs, ai := ofLength 8 {} x.ai
    capHi := List.replicate 48 false, capLo := List.replicate 48 false
    xch := { restrict := memOfBits sd.restrictIn }
    cop := { x.cop with
      grain := BitVec.ofNat 2 (grainCode x.strap), cycleMs := BitVec.ofNat 7 s.cycleMs
      dlPct := BitVec.ofNat 7 (s.evalDlPct.getD 60), rows := BitVec.ofNat 20 h.rows, timers := BitVec.ofNat 15 h.timers
      dl := satOf 23 (s.cycleMs * 1000 * s.evalDlPct.getD 60), predClose := satOf 23 (units10 (predClose h.rows h.timers)) }
    keys := sd.jxt.map (fun c => c.wraps.map (fun w => w.bind (keyUnwrap x.kek))) }

/-- A lane enters JOIN: VOTING, on its own cycle timer, its first T0 due now. (DEDUCED log 52, DEDUCED log 56) -/
def Lane.joinStart (cycle : W32) (t0 : Nat) (x : Lane) : Lane :=
  { x.standDown with
    t0 := t0, aligned := false, msgBuf := [], hoImage := 0, rampWas := false, pfAux := []
    cop := { x.standDown.cop with cycleNo := cycle }
    agr := { x.agr with
      life := .voting, held := false, inReset := false, waiting := false, failedStart := false
      since := if x.agr.life = .voting then x.agr.since else t0, free := false, noSlice := false
      probe := false, sync := .awaitFrames } }

/-! ### A set taken into force, unit by unit (R171, R188, R190, R253, R294, R296, R328, R344, R366, R389, R471) -/

/-- The interface goes on where node, schedule and window CRC are unchanged. (DEDUCED log 44) -/
def ringKept (old new : RingCfg) (r : RingIfc) : Bool :=
  r.ifc == .active && old.used && new.used && old.node == new.node && old.schedId == new.schedId && old.schedCrc == new.schedCrc

def ToolRest.configure (crc : W32) (x : ToolRest) : ToolRest :=
  { x with
    state := if x.state = .faulted then .faulted else .unsync, tb := x.tb.clear, joined := false, schedCrc := crc, openSlot := none
    sending := none }

/-- The records of the entries of a new schedule: nothing received, the counters held from power-up (R277). -/
def refitEntries (n : Nat) (xs : List EntryRec) : List EntryRec :=
  xs.map (fun x => { x with cause := 0, bad := false, got0 := none, got1 := none, windowAt := none }) ++
    List.replicate (n - xs.length) ({} : EntryRec)

/-- An interface on a new schedule listens where a link is in service; an unused one drives nothing. A link that came up before CONFIG is
measured from then on, once its Tool rest is no longer closed (R296). (DEDUCED log 44) -/
def RingIfc.configure (rank now : Nat) (c : RingCfg) (r : RingIfc) : RingIfc :=
  if c.used = false then { r.off now with entries := refitEntries 0 r.entries }
  else
    let x := r.toListen rank now
    { x with
      ifc := if r.east.service || r.west.service then .listen else .down
      entries := refitEntries c.entries.length r.entries, queue := [], sporadic := [], settled := [], arbIn := none, arbUsed := 0
      restE := x.restE.configure c.schedCrc, restW := x.restW.configure c.schedCrc }

/-- An interface that goes on has the role that the new set's coldstart entries leave it (R283). -/
def RingIfc.keepOn (rank : Nat) (r : RingIfc) : RingIfc :=
  { r with role := if rank = 0 then 0 else if r.role = 1 then 1 else 2, queue := [], sporadic := [] }

def Mach.configureRing (old : Option StationData) (sd : StationData) (i : RingId) (m : Mach) : Mach :=
  let pick (s : StationData) : RingCfg := match i with | .r1 => s.ring1 | .r2 => s.ring2
  let c := pick sd
  let m := m.updRing i (fun r =>
    if old.any (fun o => ringKept (pick o) c r) then r.keepOn (ownRank m c) else r.configure (ownRank m c) m.now c)
  if c.used then m.renewCheck i else m

/-- A buffer's ownership block is that of the identifier that it has now: a block lasts until it is commanded, or until power-up (R360). -/
def CanBuf.takeBlock (owner : Option (BitVec 29 × Bool)) (pool : List CanBuf) (b : CanBuf) : CanBuf :=
  let y := (pool.find? (fun y => y.owner == owner)).getD {}
  { b with
    owner := owner, block := y.block, series := y.series, conflictRun := y.conflictRun, blockedAt := y.blockedAt, retryAt := y.retryAt }

/-- A message buffer without a frame or a version, its counters kept. (DEDUCED log 44) -/
def CanBuf.configure (owner : Option (BitVec 29 × Bool)) (pool : List CanBuf) (b : CanBuf) : CanBuf :=
  { b.takeBlock owner pool with
    version := none, next := none, winAt := none, slot0 := none, slot1 := none
    slot := false, count := 0, shown := none, pairGroup := [], valid := false, cause := 0, discIn := none }

/-- The identifier that a buffer owns (R347). -/
def ownedId (c : CanCfg) (k : Nat) : Option (BitVec 29 × Bool) :=
  (c.bufs[k]?).bind (fun b => if b.dir == .transmit then some (b.id, b.ide) else none)

/-- A port takes part in the bus from now on. -/
def CanPort.configure (c : CanCfg) (x : CanPort) : CanPort :=
  let pool := (x.refBuf :: x.bufs ++ x.parked).filter (fun y => y.owner.isSome && (y.block != 0 || y.retryAt.isSome))
  let ref : Option (BitVec 29 × Bool) := if c.tt then some (c.refId, c.refIde) else none
  let owned := ref :: (List.range 64).map (ownedId c)
  { x with
    mode := if c.nbr = 0 ∨ x.unusable = true then 0 else if x.mode = 0 then 1 else x.mode
    tec := if x.mode = 0 then 0 else x.tec, recv := if x.mode = 0 then 0 else x.recv
    role := 0, bus := none, windowEnd := none, cycAt := none, refDue := false
    bufs := (x.bufs.zipIdx).map (fun q => q.1.configure (ownedId c q.2) pool), refBuf := x.refBuf.configure ref pool
    parked := (pool.filter (fun y => !owned.contains y.owner)).map (fun y => ({} : CanBuf).takeBlock y.owner [y]) }

/-- The ON threshold moves to the nearest edge of the set's band. -/
def thrInto (s : Settings) (thr : BitVec 7) : BitVec 7 :=
  BitVec.ofNat 7 (max (s.thrMin.getD 80) (min (s.thrMax.getD 110) thr.toNat))

def Mach.configureUnits (sd : StationData) (m : Mach) : Mach :=
  let old := m.sd
  let m := { m with sd := some sd }
  let m := (m.configureRing old sd .r1).configureRing old sd .r2
  let second := sd.pair.paired && m.ident.copy == 1
  let m := { m with can1 := m.can1.configure (canForCopy second sd.can1), can2 := m.can2.configure (canForCopy second sd.can2) }
  let m := { m with jxt := { m.jxt with conns := List.replicate sd.jxt.length {} } }
  let m := { m with cal := { m.cal with
    vote := { m.cal.vote with
      cfgMsgs := BitVec.ofNat 13 sd.msgs.length, cfgWords := BitVec.ofNat 14 ((sd.msgs.map MsgCfg.words).sum)
      slots := [], held := [], released := [], cycle := m.cycleNo }
    odm := { m.cal.odm with pos := List.replicate 24 {}, neg := List.replicate 24 {} } } }
  let m := m.updFsm (fun x => x.moveThr m.now (thrInto sd.settings x.thrOn))
  let m := (List.range 48).foldl (fun m ch => m.refitDi old ch) m
  (List.range 24).foldl (fun m n => m.refitOut n) m

/-- The Bench takes its settings from the slot. (DEDUCED log 44) -/
def Mach.configureBench (sd : StationData) (m : Mach) : Mach :=
  let m := m.updUpd (fun u => match u.running .stationData with
    | some i => { u.updSlot .stationData i (fun s => { s with station := some sd }) with sfmt := sd.settingsFmt }
    | none => u)
  let s := sd.settings
  m.updBench (fun b => { b with
    ec := (m.freshCounters.zip b.ec).map (fun q => { q.2 with src := q.1.src, qual := q.1.qual, sat := q.1.sat, count := 0 })
    mnt := b.mnt.takeSet s })

/-! ### CONFIG_ACCEPT -/

/-- Every lane that accepts enters JOIN; one that refuses alone stays OUT. -/
def Mach.takeSet (sd : StationData) (v : ConfigVerdict) (m : Mach) : Mach :=
  let ok := acceptingLanes m sd v
  let bad := refusingLanes m sd v
  let cyc := m.cycleNo
  let m := m.verdictNotes sd v
  let m := bad.foldl (fun m f =>
    let cause : Byte := if f.2.1 = 2 ∧ grainMismatch sd (m.grain f.1) = true then 0x2A else 0x2B
    if m.isOut f.1 then m.bootLaneOut f.1 cause else m.laneOut f.1 cause) m
  let m := (m.configureUnits sd).configureBench sd
  let t0 := m.now - sd.settings.cycleMs * 1000000
  let m := m.enterMode .join
  let m := m.updLanes (fun l x => if ok.contains l then (x.configure sd).joinStart cyc t0 else x)
  let m := m.updMod (fun x => { x with
    joinAt := m.now, joinEvents := 0, aligned := false, alignedRuns := 0, activating := false, configHeld := false })
  let m := m.updPair (fun p => { p with
    goneAt := some m.now, takenRun := 0, mismRun := 0, noPacket := 0, equalRun := 0, alone := false, packet := none, halves := [] })
  m.setRole (if sd.pair.paired then .joining else .none)

/-- CONFIG: the verdict of the checks is computed from the set that the command carries. (DESIGN CHOICE log 53) -/
def configAccept (sd : StationData) (v : ConfigVerdict) (m : Mach) : Mach :=
  if m.configOn sd.id = true ∧ setRefusal m sd v = none then m.takeSet sd v else m

/-- CONFIG_ACCEPT. -/
def execConfigAccept (sd : StationData) (verdict : ConfigVerdict) (t : Nat) (s : State) : Host.Outcome State Fault Refusal :=
  s.run (fun m => configAccept sd verdict (m.tick t))

/-! ### CONFIG_REFUSE and CONFIG_TIMEOUT (R402, R410, R473) -/

/-- A set is refused whole. Firmware on trial that cannot read the settings at boot makes way for the previous slot, and so does
station data on trial; otherwise CONFIG is held. (DEDUCED log 54) -/
def Mach.refuseSet (r : SetRefusal) (m : Mach) : Mach :=
  let m := m.updMod (fun x => { x with cfgCause := r.cause, cfgUnit := BitVec.ofNat 8 r.unit })
  let m := m.postModule (mkNotice (evCode 1 0x0A) modPath (r.cause.setWidth 32) (BitVec.ofNat 32 r.unit) (some m.cycleNo) [ecSrc 0x0A])
  let u := m.bench.upd
  if u.onTrial .firmware = true ∧ m.mod.mode = .config ∧ (r.cause = 0x05 ∨ r.translation = true) then (m.endTrial .firmware 1).enterBoot
  else if u.onTrial .stationData = true then (m.endTrial .stationData 4).reconfigure
  else m.enterConfig.updMod (fun x => { x with configHeld := true })

/-- CONFIG: the verdict of the checks is computed from the set that the command carries. (DESIGN CHOICE log 53) -/
def configRefuse (sd : StationData) (v : ConfigVerdict) (m : Mach) : Mach :=
  if m.configOn sd.id then
    match setRefusal m sd v with
    | some r => (m.verdictNotes sd v).refuseSet r
    | none => m
  else m

/-- CONFIG_REFUSE. -/
def execConfigRefuse (sd : StationData) (verdict : ConfigVerdict) (t : Nat) (s : State) : Host.Outcome State Fault Refusal :=
  s.run (fun m => configRefuse sd verdict (m.tick t))

/-- CONFIG runs past 1.0 s. (DEDUCED log 54) -/
def configTimeout (m : Mach) : Mach :=
  if ((m.mod.mode = .config ∧ m.mod.configHeld = false) ∨ (m.mod.mode = .update ∧ m.mod.activating = true))
      ∧ m.mod.configAt + 1000000000 ≤ m.now then
    (m.updMod (fun x => { x with cfgLanes := 0 })).refuseSet { unit := 0, cause := 0x11, translation := false }
  else m

/-- CONFIG_TIMEOUT. -/
def execConfigTimeout (t : Nat) (s : State) : Host.Outcome State Fault Refusal := s.run (fun m => configTimeout (m.tick t))

/-! ### JOIN_STALL_EVENT (R391, R410) -/

/-- An event at 10 s in JOIN, and at every further 60 s. (DEDUCED log 56) -/
def joinStallEvent (m : Mach) : Mach :=
  if m.mod.mode = .join ∧ m.mod.joinAt + 10000000000 + m.mod.joinEvents * 60000000000 ≤ m.now then
    let m := m.updMod (fun x => { x with joinEvents := x.joinEvents + 1 })
    m.postModule (mkNotice (evCode 1 0x11) modPath (BitVec.ofNat 32 ((m.now - m.mod.joinAt) / 1000000000)) 0 (some m.cycleNo) [])
  else m

/-- JOIN_STALL_EVENT. -/
def execJoinStallEvent (t : Nat) (s : State) : Host.Outcome State Fault Refusal := s.run (fun m => joinStallEvent (m.tick t))

/-! ### RESTART_COMPLETE (R151, R152, R470, R473) -/

/-- The first steps of RESTART: firmware start with the check of its manifest, and the test slice where it runs. -/
def restartTests (noSlice : Bool) (r : RestartReport) : Bool := r.firmwareOk && r.rsaOk && r.slhOk && (noSlice || r.sliceOk)

/-- The table image reload: the station data manifest, R104 and R12 for the image, and its digest. -/
def restartImage (sd : StationData) (strap : Grain) (r : RestartReport) : Bool :=
  r.sdRsaOk && r.sdSlhOk && r.digestOk && laneImageOk sd strap

/-- Every step of RESTART that the lane runs has passed. (DEDUCED log 49) -/
def restartPassed (sd : StationData) (strap : Grain) (noSlice : Bool) (r : RestartReport) : Bool :=
  restartTests noSlice r && restartImage sd strap r && r.translationOk && r.migrationOk

/-- What RESTART records beside its outcome: each refused signature of a step that ran (R1, R466), and a grain mismatch. -/
def Mach.restartNotes (l : LaneId) (sd : StationData) (r : RestartReport) (m : Mach) : Mach :=
  let refused (ok : Bool) (kind cause : W32) (m : Mach) : Mach := if ok then m else m.noteUpd 0xC001 kind cause
  let noSlice := (m.lane l).agr.noSlice
  let m := refused r.slhOk 1 3 (refused r.rsaOk 1 2 m)
  if restartTests noSlice r then
    let m := refused r.sdSlhOk 2 3 (refused r.sdRsaOk 2 2 m)
    if grainMismatch sd (m.grain l) then m.noteGrain l sd else m
  else m

/-- The lane runs the firmware of the active slot, on its image and settings, and listens for frames. -/
def Mach.enterSync (l : LaneId) (sd : StationData) (m : Mach) : Mach :=
  let slot := m.fwTarget
  let v : W16 := ((m.bench.upd.runSlot .firmware : Slot).version >>> 16).setWidth 16
  m.updLane l (fun x =>
    let x := x.configure sd
    { x with
      fwSlot := slot, fwVer := v, aligned := false, phase := .asleep, awake := true, sleepEnd := 0
      agr := { x.agr with life := .sync, sync := .awaitFrames, syncAt := m.now } })

/-- A lane that cannot take the settings under firmware on trial sends the rolled lanes back. -/
def restartComplete (l : LaneId) (r : RestartReport) (m : Mach) : Mach :=
  match m.sd with
  | none => m
  | some sd =>
    let a := (m.lane l).agr
    if a.life ≠ .restart then m
    else
      let m := m.restartNotes l sd r
      if restartPassed sd (m.grain l) a.noSlice r then m.enterSync l sd
      else
        let migration := restartTests a.noSlice r && restartImage sd (m.grain l) r && m.bench.upd.onTrial .firmware
        let m := m.laneOut l 0x30
        if migration then m.fallBack .firmware 1 else m

/-- RESTART_COMPLETE. -/
def execRestartComplete (l : LaneId) (report : RestartReport) (t : Nat) (s : State) : Host.Outcome State Fault Refusal :=
  s.run (fun m => restartComplete l report (m.tick t))

/-! ### SWEEP_STEP (R405) -/

/-- At 120 ms of its step an output's result is recorded, once. (DEDUCED log 56) -/
def Mach.sweepRecord (m : Mach) : Mach :=
  let x := m.mod
  let n := x.sweepStep.toNat
  if x.sweepState = 1 ∧ x.sweepStarted = true ∧ x.sweepBad = false ∧ x.sweepStepAt + 120000000 ≤ m.now then
    let pass := outUsed m n && (m.field.out[n]?).any (fun o => o.swOff && o.swPos && o.swNeg && o.fault == 0)
    m.updMod (fun y => { y with sweepPass := setBit y.sweepPass n pass, sweepBad := true })
  else m

/-- The step that comes next, 24 standing for the end of the sweep. -/
def ModState.nextStep (x : ModState) : Nat := if x.sweepStarted then x.sweepStep.toNat + 1 else 0

/-- The step's T0 has come. (DEDUCED log 56) -/
def Mach.sweepDue (m : Mach) (n : Nat) : Bool :=
  m.mod.sweepFrom.any (fun s => let d := (m.cycleNo - s).toNat; decide (1 + n * sweepK m.cycleMs ≤ d) && decide (d < 2 ^ 31))

/-- The step of output `n` begins, once the one before it has ended. (DEDUCED log 56) -/
def sweepStep (n : Nat) (m : Mach) : Mach :=
  let m := m.sweepRecord
  if m.mod.sweepState ≠ 1 ∨ m.mod.nextStep ≠ n ∨ m.sweepDue n = false then m
  else if n < 24 then
    let t0 := (m.lane m.countLane).t0
    (m.updMod (fun x => { x with
      sweepStep := BitVec.ofNat 5 n, sweepStarted := true, sweepStepAt := t0, sweepBad := false })).updOut n
      (fun o => { o with
        swPos := false, swNeg := false, swOff := false, startPos := false, startNeg := false
        repeatsPos := 0, repeatsNeg := 0, repeatDue := none, repeatNow := none })
  else
    m.updMod (fun x => { x with sweepState := 2, sweepDone := satInc x.sweepDone, sweepFrom := none, sweepStarted := false })

/-- SWEEP_STEP. -/
def execSweepStep (n : Nat) (t : Nat) (s : State) : Host.Outcome State Fault Refusal := s.run (fun m => sweepStep n (m.tick t))

end Sys2Proof.Machine
end

