-- ==== Sys2Proof/Machine/Cycle.lean ====
section
/-! DEFINITION. The two ends of a logic cycle: T0 (R113 to R115, R125, R128, R150, R157, R183, R381 to R385, R394, R403, R404,
R424, R425, R440, R470) and the end of the hand-over (R122, R123). -/

namespace Sys2Proof.Machine

/-! ### When a lane's T0 falls -/

/-- What the cycle timer reaches: nothing yet, the regular T0, or one placed on a ring boundary. -/
inductive T0Kind where
  | none
  | regular (number : W32)
  | aligned (number : W32)
  deriving DecidableEq, Repr

/-- The logic cycle number at a boundary of R113 (R115), where one falls now. (DEDUCED log 52) -/
def Mach.boundaryNumber (m : Mach) : Option W32 :=
  match ringBoundary m.timeRing m.now with
  | some b => if m.cycleMs ≠ 0 ∧ b % m.cycleMs = 0 then some (BitVec.ofNat 32 (b / m.cycleMs)) else none
  | none => none

/-- How far a lane's T0 may stand from the regular one on the module's time: the correction of at most 200 ppm (R23), and two crystals
of ±50 ppm (R22). (DEDUCED log 37) -/
def Mach.t0Slack (m : Mach) : Nat := m.cycleNs * 3 / 10000

/-- The instant at which the cycle timer brings T0: nothing delays it past its latest (R114). (DEDUCED log 37) -/
def Mach.t0At (m : Mach) (x : Lane) : Nat := min m.now (x.t0 + m.cycleNs + m.t0Slack)

/-- Cycle instants: module-level work is done at the first VOTING lane's T0, and tolerances. (DEDUCED log 37) -/
def Mach.t0Kind (m : Mach) (l : LaneId) : T0Kind :=
  let x := m.lane l
  if m.evaluates = false ∨ runsCycles x = false then .none
  else
    let due := decide (x.t0 + m.cycleNs ≤ m.now + m.t0Slack)
    match m.boundaryNumber with
    | some n =>
      if x.aligned = false ∧ x.phase = .asleep then .aligned n
      else if due then (if x.aligned then .regular n else .regular (x.cop.cycleNo + 1)) else .none
    | none => if due then .regular (x.cop.cycleNo + 1) else .none

/-! ### In the lane -/

/-- A hold that is active at T0 ends, and is counted (R125). (DESIGN CHOICE log 105) -/
def Mach.endHold (l : LaneId) (m : Mach) : Mach :=
  if (m.lane l).cop.holdSrc = 0 then m
  else
    let c : BitVec 23 := satOf 23 (m.cycleNs / 10)
    let m := m.updLane l (fun x => { x with cop := { x.cop with
      holdSrc := 0, holdOverride := satInc x.cop.holdOverride, lastSleep := 0x7FFFFF
      live := { x.cop.live with awakeMax := bvMax x.cop.live.awakeMax c } } })
    (m.raise (lanePath l 3) 1).postLane l (mkNotice (evCode 2 0x17) (lanePath l 3) 0 m.cycleNo (some m.cycleNo)
      [ecSrc 0x17 (laneCode l)])

/-- The lane begins a cycle: wake, with an empty exchange buffer but for its restrictive map; a transfer is not carried over
(R155). A lane that stands on ring boundaries has its timebase there too, `basic` being the one that begins. -/
def Lane.startCycle (n : W32) (aligned : Bool) (basic : Option Nat) (t0 : Nat) (x : Lane) : Lane :=
  { x with
    t0 := t0, phase := .wake, awake := true, sampled := false, aligned := x.aligned || aligned
    msgBuf := [], hoImage := 0, queue := { x.queue with arrived := 0 }
    tb := match basic with
      | some b => if x.tb.live && (x.aligned || aligned) then { x.tb.onTo b with start := t0 } else x.tb
      | none => x.tb
    cop := { x.cop with cycleNo := n, active := false, rate := satInt 16 x.tb.rate }
    xch := { ({} : Exchange) with restrict := x.xch.restrict, orBits := x.xch.orBits } }

/-- The lane's step in its life cycle at T0: VOTING after a passed probe, a probe cycle after a transfer. From the T0 after its first
voting cycle a lane's last cycle is no probe cycle (R163). -/
def Mach.lifeT0 (l : LaneId) (m : Mach) : Mach :=
  let a := (m.lane l).agr
  if a.life ≠ .sync then m.updAgr l (fun a => { a with probe := false })
  else match a.sync with
    | .passed =>
      let m := m.enterVoting l
      if m.bench.upd.rollAt.isSome || m.bench.upd.phase == 0 || m.bench.upd.phase == 5 then m
      else m.updUpd (fun u => { u with rollAt := some ((m.lane l).cop.cycleNo + 2) })
    | .probeDue => m.updAgr l (fun a => { a with sync := .probing, probe := true })
    | _ => m

/-- The lane's measurement of Callipers' clock in 0.01 % (R183): beyond ±0.5 % it is reported, and two VOTING lanes that
report in one cycle send the module to HALT. (DESIGN CHOICE log 87) -/
def Mach.clockReport (l : LaneId) (dev : Int) (m : Mach) : Mach :=
  let n := (m.lane l).cop.cycleNo
  let m := m.updCsc (fun x => { x with
    clk := x.clk.upd l (fun _ => satInt 8 dev)
    report := if x.reportIn = n then x.report else 0, reportIn := n })
  if dev < -50 ∨ 50 < dev then
    let m := m.updCsc (fun x => { x with report := x.report ||| maskOf (· == l) })
    let m := (m.raise (calPath 3) 0).postCal (srcNotice 3 0x27 (calPath 3) (laneCode l) (BitVec.ofNat 32 (laneCode l)) n m)
    if 2 ≤ (m.votingLanes.filter (fun o => inMask m.cal.csc.report o)).length then m.haltCallipers 0x03 else m
  else m

/-- A Sander finding brings the lane's slice forward to its next T0 (R429). -/
def Mach.startSlice (l : LaneId) (m : Mach) : Mach :=
  let m := (m.updLane l (fun x => { x with snd := { x.snd with bringForward := false } })).laneOut l 0x40
  (m.updTest (fun t => { t with run := some l, request := none, results := [] })).raise (benchPath 7) 2

/-- At the lane's next T0 the slice starts, or where it may not, the finding is recorded only. -/
def Mach.sanderSlice (l : LaneId) (m : Mach) : Mach :=
  if (m.lane l).snd.bringForward = false then m
  else if m.isVoting l && decide (m.votingLanes.length = 3) && m.mod.mode != .update && m.bench.test.run.isNone then m.startSlice l
  else m.updLane l (fun x => { x with snd := { x.snd with bringForward := false } })

/-! ### In the module, at the first T0 of a cycle -/

/-- A requested slice starts, or is asked for again after 10 min (R424, R425). -/
def Mach.requestedSlice (n : W32) (m : Mach) : Mach :=
  match m.bench.test.request with
  | none => m
  | some (l, target) =>
    if newer target n then m
    else
      let granted := match m.sd.bind (fun sd => sd.permits.slice) with
        | some a => m.committed m.numberLane a
        | none => false
      if target = n ∧ (m.mod.mode = .service ∨ m.mod.mode = .shadow) ∧ m.votingLanes.length = 3 ∧ granted = true then m.startSlice l
      else m.updTest (fun t => { t with request := none, askAfter := m.now + 600000000000 })

/-- A roll back begins in UPDATE, at the first T0 after the fall back, unless nothing was served yet (R391, R473).
(DEDUCED log 51) -/
def Mach.rollMode (n : W32) (m : Mach) : Mach :=
  if m.bench.upd.phase = 6 ∧ m.evaluates ∧ m.mod.mode ≠ .join then m.enterModeAt n .update else m

/-- The roll goes on at its cycle: the next lane goes OUT, with no attempt counted, while all three vote; or it is done, and
the Bench restarts. (DEDUCED log 49) -/
def Mach.rollT0 (n : W32) (m : Mach) : Mach :=
  let u := m.bench.upd
  let rolling := u.phase == 1 || u.phase == 2 || u.phase == 3 || u.phase == 6
  if rolling = false ∨ m.evaluates = false ∨ m.votingLanes.length < 3 then m
  else match m.rollNext with
    | some l =>
      if u.rollAt = some n then
        (m.updUpd (fun u => { u with
          rollAt := none, phase := if u.rollBack then 6 else BitVec.ofNat 3 (laneCode l) })).laneOutFor true l Config.rollCause
      else if (match u.rollAt with | some k => newer n k | none => true) then
        m.updUpd (fun u => { u with rollAt := some (n + 1) })
      else m
    | none =>
      let m := m.updUpd (fun u => { u with rollAt := none, rollBack := false, phase := 4 })
      let m := if m.mod.mode = .update then m.enterModeAt n (if m.pair.role = .shadow then .shadow else m.serveMode) else m
      m.updBench (fun b => { b with up := false })

/-- What a new cycle clears in Callipers (R167, R171, R188). -/
def Voter.newCycle (n : W32) (v : Voter) : Voter :=
  { v with
    slots := [], released := [], outvoted := 0, absent := 0, absentMsgs := [], ended := 0, firstEnd := none, lastEnd := none
    began := 0, reported := false, skewNow := 0, cycle := n, held := v.held.filter (fun h => decide (h.msg < 4088))
    live := { v.live with cycles := satInc v.live.cycles } }

/-- Everything that the first T0 of a cycle brings beside its own lane. (DEDUCED log 37) -/
def Mach.moduleT0 (n : W32) (m : Mach) : Mach :=
  let m := ((m.updVote (Voter.newCycle n)).updPair (fun p => { p with mirrorEnd := none })).dropAllAged n
  let m := m.pairT0 n
  let m := if m.evaluates then m.joinExit n else m
  let m := m.applyCommand n
  if m.evaluates then ((m.requestedSlice n).rollMode n).rollT0 n |>.wakeWaiting else m

/-! ### CYCLE_T0 -/

/-- Cycle instants: module-level work is done at the first VOTING lane's T0, and tolerances. (DEDUCED log 37) -/
def startT0 (l : LaneId) (dev : Int) (n : W32) (aligned : Bool) (m : Mach) : Mach :=
  let x := m.lane l
  let running := m.phaseOf l
  let m := m.endHold l
  if running ≠ .asleep ∧ ¬(running = .sleepEntry ∧ x.cop.holdSrc ≠ 0) then
    let stopped : BitVec 23 := if x.phase = .asleep then satOf 23 ((m.now - x.t0 + 5) / 10) else x.cop.lastSleep
    (m.updLane l (fun x => { x with cop := { x.cop with cycleNo := n, lastSleep := stopped } })).copierFault l 0x0D
  else
    let first := m.cal.vote.cycle != n || (aligned && !m.mod.aligned)
    let m := m.updLane l (Lane.startCycle n aligned (ringBoundary m.timeRing m.now) (if aligned then m.now else m.t0At x))
    let m := if aligned then m.updMod (fun y => { y with aligned := true }) else m
    let m := (if l = .a then m.ecCount 0xC0 255 else m).freezeFsm n
    let m := (m.lifeT0 l).clockReport l dev
    if m.mod.mode = .halt then m
    else
      let m := if first && m.isVoting l then m.moduleT0 n else m
      if m.evaluates then m.sanderSlice l else m

def cycleT0 (l : LaneId) (dev : Int) (m : Mach) : Mach :=
  match m.t0Kind l with
  | .none => m
  | .regular n => startT0 l dev n false m
  | .aligned n => startT0 l dev n true m

/-- CYCLE_T0. -/
def execCycleT0 (l : LaneId) (dev : Int) (t : Nat) (s : State) : Host.Outcome State Fault Refusal :=
  s.run (fun m => cycleT0 l dev (m.tick t))

/-! ### HANDOVER_END -/

/-- A VOTING lane latches its drive image, and the voted record becomes the monitor's reference at the first latch.
(DEDUCED log 37) -/
def Mach.latchDrive (l : LaneId) (m : Mach) : Mach :=
  let x := m.lane l
  let img : BitVec 24 := if m.handsOver then x.hoImage else 0
  let old := x.drive.latched
  let m := m.updLane l (fun x => { x with drive := { x.drive with latched := img, latchAt := m.now } })
  let m := m.demands l old img
  match m.cal.odm.pendingRec with
  | some r => m.updOdm (fun o => { o with reference := r, pendingRec := none })
  | none => m

/-- Where nothing is handed over, Callipers has nothing to compare: a probe cycle whose run committed has passed (R157, R173).
(DESIGN CHOICE log 84) -/
def Mach.silentProbe (l : LaneId) (m : Mach) : Mach :=
  let a := (m.lane l).agr
  if a.life = .sync ∧ a.sync = .probing ∧ m.handsOver = false then m.updAgr l (fun a => { a with sync := .passed }) else m

/-- A packet of this cycle is still to come: in a shadow, or in a joiner whose partner leads (R379, R384).
(DEDUCED log 47) -/
def Mach.packetDue (m : Mach) : Bool :=
  m.pair.packet.isNone && (m.pair.role == .shadow ||
    (m.pair.role == .joining && m.pair.present && m.pair.partner.any (fun f => f.role == 1)))

/-- The hand-over phase ends. A lane that waits for the mirror packet stays awake under hold reason [1] (R379).
(DEDUCED log 47) -/
def handoverEnd (l : LaneId) (m : Mach) : Mach :=
  let x := m.lane l
  if x.phase ≠ .handover ∨ m.isOut l ∨ m.now < x.closeAt + 240000 then m
  else
    let u : BitVec 23 := satOf 23 ((m.now - x.t0 + 5) / 10)
    let mirror := m.paired && m.pair.role == .lead && m.handsOver
    let m := if m.isVoting l then m.latchDrive l else m
    let waits := m.paired && m.packetDue
    let m := m.updLane l (fun x => { x with
      phase := if mirror then .mirror else .sleepEntry
      cop := { x.cop with lastHo := u, holdSrc := if waits then setBit x.cop.holdSrc 1 true else x.cop.holdSrc } })
    if m.isVoting l then m.commandDone l else m.silentProbe l

/-- HANDOVER_END. -/
def execHandoverEnd (l : LaneId) (t : Nat) (s : State) : Host.Outcome State Fault Refusal :=
  s.run (fun m => handoverEnd l (m.tick t))

end Sys2Proof.Machine
end

