-- ==== Sys2Proof/Machine/SessCmds.lean ====
section
/-! DEFINITION. The commands that a session sends (R36, R37, R42 to R48, R56 to R59, R65 to R67, R393 to R395, R452, R463): each a
frame of the host port, or a datagram of a maintenance session with the checks, the numbering and the order of accesses that every
datagram has. -/

namespace Sys2Proof.Machine

/-! ### The host port's frames (R56 to R59) -/

/-- HOST_READ. -/
def execHostRead (addr : W32) (count : Nat) (t : Nat) (s : State) : Host.Outcome State Fault Refusal :=
  hostRun (hostRead addr count) t s

/-- HOST_WRITE. -/
def execHostWrite (addr : W32) (count : Nat) (data : List W32) (crc : W16) (t : Nat) (s : State) :
    Host.Outcome State Fault Refusal :=
  hostRun (fun m => m.served .host (hostWrite addr count data crc)) t s

/-- FETCH. -/
def execFetch (t : Nat) (s : State) : Host.Outcome State Fault Refusal := hostRun (hostFrame [0x0C] true fetchRead) t s

/-- STATUS. -/
def execStatus (t : Nat) (s : State) : Host.Outcome State Fault Refusal := hostRun (hostFrame [0x05] false portStatus) t s

/-- HOST_CLOSE. -/
def execHostClose (crc : W16) (t : Nat) (s : State) : Host.Outcome State Fault Refusal :=
  hostRun (fun m => if m.benchServes then hostClose crc m else m) t s

/-- A register's address in the page that an address lies in. -/
def inPage (page : W32) (off : Nat) : W32 := (page &&& 0xFFFFFC00) ||| BitVec.ofNat 32 off

def regOf (path : List Nat) (off : Nat) : W32 := pathAddr path ||| BitVec.ofNat 32 off

/-- H2B_DOORBELL. -/
def execH2bDoorbell (v : W32) (t : Nat) (s : State) : Host.Outcome State Fault Refusal :=
  hostRun (hostRegs (regOf hostPath 0x020) [v]) t s

/-! ### The maintenance port's datagrams (R65) -/

/-- MNT_OPEN. -/
def execMntOpen (h : MntHead) (level : Byte) (seq : W32) (t : Nat) (s : State) :
    Host.Outcome State Fault Refusal :=
  mntRun { head := h, sess := 0, seq := seq, req := .openSess level } t s

/-- MNT_AUTH. -/
def execMntAuth (h : MntHead) (sess : Nat) (seq : W32) (credential : BitVec 384) (t : Nat) (s : State) :
    Host.Outcome State Fault Refusal :=
  mntRun { head := h, sess := sess, seq := seq, req := .auth credential } t s

/-- MNT_READ. -/
def execMntRead (h : MntHead) (sess : Nat) (seq : W32) (addr : W32) (count : Nat) (t : Nat) (s : State) :
    Host.Outcome State Fault Refusal :=
  mntRun { head := h, sess := sess, seq := seq, req := .access addr count none } t s

/-- MNT_WRITE. -/
def execMntWrite (h : MntHead) (sess : Nat) (seq : W32) (addr : W32) (count : Nat) (data : List W32) (t : Nat) (s : State) :
    Host.Outcome State Fault Refusal :=
  mntRun { head := h, sess := sess, seq := seq, req := .access addr count (some data) } t s

/-- MNT_KEEP. -/
def execMntKeep (h : MntHead) (sess : Nat) (seq : W32) (t : Nat) (s : State) :
    Host.Outcome State Fault Refusal :=
  mntRun { head := h, sess := sess, seq := seq, req := .keep } t s

/-- MNT_CLOSE. -/
def execMntClose (h : MntHead) (sess : Nat) (seq : W32) (t : Nat) (s : State) :
    Host.Outcome State Fault Refusal :=
  mntRun { head := h, sess := sess, seq := seq, req := .close } t s

/-- REC_INFO. -/
def execRecInfo (h : MntHead) (sess : Nat) (seq : W32) (t : Nat) (s : State) :
    Host.Outcome State Fault Refusal :=
  mntRun { head := h, sess := sess, seq := seq, req := .transfer .info } t s

/-- REC_READ. -/
def execRecRead (h : MntHead) (sess : Nat) (seq : W32) (first count : Nat) (t : Nat) (s : State) :
    Host.Outcome State Fault Refusal :=
  mntRun { head := h, sess := sess, seq := seq, req := .transfer (.recRead first count) } t s

/-- REC_FREEZE. -/
def execRecFreeze (h : MntHead) (sess : Nat) (seq : W32) (op : Byte) (t : Nat) (s : State) :
    Host.Outcome State Fault Refusal :=
  mntRun { head := h, sess := sess, seq := seq, req := .transfer (.recFreeze op) } t s

/-! ### Update requests of either port (R463) -/

/-- An update request: through the mailbox, or in a datagram. -/
def updRun (via : UpdVia) (x : Transfer) (t : Nat) (s : State) : Host.Outcome State Fault Refusal :=
  match via with
  | .mailbox num => hostRun (fun m => m.served .host (fun m => (m.touch .host).serveTransfer .host num x)) t s
  | .mnt h n seq => mntRun { head := h, sess := n, seq := seq, req := .transfer x } t s

/-- UPD_OPEN. -/
def execUpdOpen (via : UpdVia) (kind : Byte) (mlen : Nat) (t : Nat) (s : State) : Host.Outcome State Fault Refusal :=
  updRun via (.updOpen kind mlen) t s

/-- UPD_BLOCK. -/
def execUpdBlock (via : UpdVia) (off : Nat) (part : Option BlockPart) (data : List Byte) (crc : W32) (writeOk : Bool) (t : Nat) (s : State) :
    Host.Outcome State Fault Refusal :=
  updRun via (.block off part data crc writeOk) t s

/-- UPD_VERIFY. -/
def execUpdVerify (via : UpdVia) (t : Nat) (s : State) : Host.Outcome State Fault Refusal :=
  updRun via .verify t s

/-- UPD_ABORT. -/
def execUpdAbort (via : UpdVia) (t : Nat) (s : State) : Host.Outcome State Fault Refusal :=
  updRun via .abort t s

/-- UPD_STATUS. -/
def execUpdStatus (via : UpdVia) (t : Nat) (s : State) : Host.Outcome State Fault Refusal :=
  updRun via .updStatus t s

/-- ATTEST. -/
def execAttest (via : UpdVia) (nonce : BitVec 256) (t : Nat) (s : State) : Host.Outcome State Fault Refusal :=
  updRun via (.attest nonce) t s

/-- ATT_READ. -/
def execAttRead (via : UpdVia) (off len : Nat) (t : Nat) (s : State) : Host.Outcome State Fault Refusal :=
  updRun via (.attRead off len) t s

/-! ### Register accesses of either port (R36, R37, R43) -/

/-- A read of registers. -/
def readRun (via : Via) (a : W32) (count : Nat) (t : Nat) (s : State) : Host.Outcome State Fault Refusal :=
  match via with
  | .host => hostRun (hostRead a count) t s
  | .mnt h n seq => mntRun { head := h, sess := n, seq := seq, req := .access a count none } t s

/-- A write of registers. -/
def writeRun (via : Via) (a : W32) (data : List W32) (t : Nat) (s : State) : Host.Outcome State Fault Refusal :=
  match via with
  | .host => hostRun (hostRegs a data) t s
  | .mnt h n seq => mntRun { head := h, sess := n, seq := seq, req := .access a data.length (some data) } t s

/-- The session that an access belongs to. -/
def viaSess : Via → Sess
  | .host => .host
  | .mnt _ n _ => .mnt n

/-- RC_READ. -/
def execRcRead (via : Via) (addr : W32) (t : Nat) (s : State) : Host.Outcome State Fault Refusal := readRun via addr 1 t s

/-- RESULT_GROUP_READ: a burst over the whole group. -/
def execResultGroupRead (via : Via) (addr : W32) (t : Nat) (s : State) : Host.Outcome State Fault Refusal :=
  readRun via addr (s.m.groupSpan (viaSess via) addr) t s

/-- PARTNER_READ: an access to the partner subtree. -/
def execPartnerRead (via : Via) (write : Bool) (addr : W32) (count : Nat) (t : Nat) (s : State) :
    Host.Outcome State Fault Refusal :=
  if write then writeRun via addr (List.replicate count 0) t s else readRun via addr count t s

/-- REGISTER_WRITE. -/
def execRegisterWrite (via : Via) (addr : W32) (data : List W32) (t : Nat) (s : State) : Host.Outcome State Fault Refusal :=
  writeRun via addr data t s

/-- CHAN_SEL_WRITE. -/
def execChanSelWrite (via : Via) (page : W32) (index : W16) (t : Nat) (s : State) : Host.Outcome State Fault Refusal :=
  writeRun via (inPage page 0x018) [index.setWidth 32] t s

/-- IRQ_MASK_WRITE. -/
def execIrqMaskWrite (via : Via) (page mask : W32) (t : Nat) (s : State) : Host.Outcome State Fault Refusal :=
  writeRun via (inPage page 0x014) [mask] t s

/-- IRQ_STAT_CLEAR. -/
def execIrqStatClear (via : Via) (page bits : W32) (t : Nat) (s : State) : Host.Outcome State Fault Refusal :=
  writeRun via (inPage page 0x010) [bits] t s

/-- PAGE_SNAP. -/
def execPageSnap (via : Via) (page : W32) (t : Nat) (s : State) : Host.Outcome State Fault Refusal :=
  writeRun via (inPage page 0x008) [1] t s

/-- EC_CFG_WRITE. -/
def execEcCfgWrite (via : Via) (val : W32) (t : Nat) (s : State) : Host.Outcome State Fault Refusal :=
  writeRun via (regOf (benchPath 2) 0x020) [val] t s

/-- FREEZE. -/
def execFreeze (via : Via) (t : Nat) (s : State) : Host.Outcome State Fault Refusal :=
  writeRun via (regOf (benchPath 3) 0x020) [1] t s

/-- FREEZE_RELEASE. -/
def execFreezeRelease (via : Via) (t : Nat) (s : State) : Host.Outcome State Fault Refusal :=
  writeRun via (regOf (benchPath 3) 0x020) [2] t s

/-- TIME_SET: a burst of both words, or of the first alone. -/
def execTimeSet (via : Via) (lo : W32) (hi : Option W32) (t : Nat) (s : State) : Host.Outcome State Fault Refusal :=
  writeRun via (regOf (benchPath 3) 0x05C) (lo :: hi.toList) t s

/-- BIST_DISCARD. -/
def execBistDiscard (via : Via) (v : Byte) (t : Nat) (s : State) : Host.Outcome State Fault Refusal :=
  writeRun via (regOf (benchPath 7) 0x04C) [v.setWidth 32] t s

/-- UPD_CTRL_ABORT. -/
def execUpdCtrlAbort (via : Via) (v : Byte) (t : Nat) (s : State) : Host.Outcome State Fault Refusal :=
  writeRun via (regOf (benchPath 6) 0x064) [v.setWidth 32] t s

/-! ### Mode commands (R393) -/

/-- `MOD.CMD` written with a code and a key. -/
def commandRun (via : Via) (code key : Byte) (t : Nat) (s : State) : Host.Outcome State Fault Refusal :=
  writeRun via (regOf modPath 0x02C) [BitVec.ofNat 32 (code.toNat + 256 * key.toNat)] t s

/-- ENTER_MAINTAIN. -/
def execEnterMaintain (via : Via) (key : Byte) (t : Nat) (s : State) : Host.Outcome State Fault Refusal :=
  commandRun via 0x01 key t s

/-- LEAVE_MAINTAIN. -/
def execLeaveMaintain (via : Via) (key : Byte) (t : Nat) (s : State) : Host.Outcome State Fault Refusal :=
  commandRun via 0x02 key t s

/-- ENTER_COMMISSION. -/
def execEnterCommission (via : Via) (key : Byte) (t : Nat) (s : State) : Host.Outcome State Fault Refusal :=
  commandRun via 0x03 key t s

/-- END_COMMISSION. -/
def execEndCommission (via : Via) (key : Byte) (t : Nat) (s : State) : Host.Outcome State Fault Refusal :=
  commandRun via 0x04 key t s

/-- SWEEP. -/
def execSweep (via : Via) (key : Byte) (t : Nat) (s : State) : Host.Outcome State Fault Refusal :=
  commandRun via 0x05 key t s

/-- SWAP. -/
def execSwap (via : Via) (key : Byte) (t : Nat) (s : State) : Host.Outcome State Fault Refusal :=
  commandRun via 0x06 key t s

/-- QUIESCE. -/
def execQuiesce (via : Via) (key : Byte) (t : Nat) (s : State) : Host.Outcome State Fault Refusal :=
  commandRun via 0x07 key t s

/-- ACTIVATE_FW. -/
def execActivateFw (via : Via) (key : Byte) (t : Nat) (s : State) : Host.Outcome State Fault Refusal :=
  commandRun via 0x10 key t s

/-- ARM_FW_BOOT. -/
def execArmFwBoot (via : Via) (key : Byte) (t : Nat) (s : State) : Host.Outcome State Fault Refusal :=
  commandRun via 0x11 key t s

/-- ACTIVATE_SD. -/
def execActivateSd (via : Via) (key : Byte) (t : Nat) (s : State) : Host.Outcome State Fault Refusal :=
  commandRun via 0x12 key t s

/-- COMMIT. -/
def execCommit (via : Via) (key : Byte) (t : Nat) (s : State) : Host.Outcome State Fault Refusal :=
  commandRun via 0x13 key t s

/-- REVERT. -/
def execRevert (via : Via) (key : Byte) (t : Nat) (s : State) : Host.Outcome State Fault Refusal :=
  commandRun via 0x14 key t s

/-- ENROL. -/
def execEnrol (via : Via) (key : Byte) (t : Nat) (s : State) : Host.Outcome State Fault Refusal :=
  commandRun via 0x15 key t s

end Sys2Proof.Machine
end

