-- ==== Sys2Proof/Machine/Dispatch.lean ====
section
/-! DEFINITION. Every command with its meaning, one arm each. -/

namespace Sys2Proof.Machine

def exec (i : Instr) (s : State) : Host.Outcome State Fault Refusal :=
  match i with
  | .powerUp t => Sys2Proof.Machine.execPowerUp t s
  | .supplyInterruption t => Sys2Proof.Machine.execSupplyInterruption t s
  | .supplyLossQuiesce t => Sys2Proof.Machine.execSupplyLossQuiesce t s
  | .supplyReturn t => Sys2Proof.Machine.execSupplyReturn t s
  | .holdUpExhausted cut t => Sys2Proof.Machine.execHoldUpExhausted cut t s
  | .holdUpReserveReached t => Sys2Proof.Machine.execHoldUpReserveReached t s
  | .haltSupplyRemoved t => Sys2Proof.Machine.execHaltSupplyRemoved t s
  | .laneRailOutOfWindow l t => Sys2Proof.Machine.execLaneRailOutOfWindow l t s
  | .callipersRailFault cause t => Sys2Proof.Machine.execCallipersRailFault cause t s
  | .benchRailFault t => Sys2Proof.Machine.execBenchRailFault t s
  | .resetNSample low t => Sys2Proof.Machine.execResetNSample low t s
  | .resetNAsserted t => Sys2Proof.Machine.execResetNAsserted t s
  | .resetNReleased t => Sys2Proof.Machine.execResetNReleased t s
  | .resetStuck t => Sys2Proof.Machine.execResetStuck t s
  | .benchClockLost t => Sys2Proof.Machine.execBenchClockLost t s
  | .bootComplete report t => Sys2Proof.Machine.execBootComplete report t s
  | .bootFailed cause t => Sys2Proof.Machine.execBootFailed cause t s
  | .bootTimeout t => Sys2Proof.Machine.execBootTimeout t s
  | .configAccept sd verdict t => Sys2Proof.Machine.execConfigAccept sd verdict t s
  | .configRefuse sd verdict t => Sys2Proof.Machine.execConfigRefuse sd verdict t s
  | .configTimeout t => Sys2Proof.Machine.execConfigTimeout t s
  | .joinStallEvent t => Sys2Proof.Machine.execJoinStallEvent t s
  | .cycleT0 l clkDev t => Sys2Proof.Machine.execCycleT0 l clkDev t s
  | .pllLockTimeout l t => Sys2Proof.Machine.execPllLockTimeout l t s
  | .inputSample l t => Sys2Proof.Machine.execInputSample l t s
  | .samplingDeadline l t => Sys2Proof.Machine.execSamplingDeadline l t s
  | .imageFrameSend l t => Sys2Proof.Machine.execImageFrameSend l t s
  | .exchangeFrameReceive l frame t => Sys2Proof.Machine.execExchangeFrameReceive l frame t s
  | .intactJudgement l t => Sys2Proof.Machine.execIntactJudgement l t s
  | .acceptedSet l t => Sys2Proof.Machine.execAcceptedSet l t s
  | .exchangeDeadline l t => Sys2Proof.Machine.execExchangeDeadline l t s
  | .runStart l t => Sys2Proof.Machine.execRunStart l t s
  | .gate l fetch checkerDiffers t => Sys2Proof.Machine.execGate l fetch checkerDiffers t s
  | .storeRow l fetch checkerDiffers t => Sys2Proof.Machine.execStoreRow l fetch checkerDiffers t s
  | .timerRow l fetch checkerDiffers t => Sys2Proof.Machine.execTimerRow l fetch checkerDiffers t s
  | .endRow l fetch checkerDiffers t => Sys2Proof.Machine.execEndRow l fetch checkerDiffers t s
  | .runClose l t => Sys2Proof.Machine.execRunClose l t s
  | .progressCheckpoint l m t => Sys2Proof.Machine.execProgressCheckpoint l m t s
  | .evaluationDeadline l t => Sys2Proof.Machine.execEvaluationDeadline l t s
  | .handoverEnd l t => Sys2Proof.Machine.execHandoverEnd l t s
  | .handoverDeadline l t => Sys2Proof.Machine.execHandoverDeadline l t s
  | .drivePeriodBoundary l t => Sys2Proof.Machine.execDrivePeriodBoundary l t s
  | .mirrorDeadline l t => Sys2Proof.Machine.execMirrorDeadline l t s
  | .sleepEntry l t => Sys2Proof.Machine.execSleepEntry l t s
  | .keepAwakeHoldSet l reason t => Sys2Proof.Machine.execKeepAwakeHoldSet l reason t s
  | .keepAwakeHoldRelease l reason t => Sys2Proof.Machine.execKeepAwakeHoldRelease l reason t s
  | .comparatorMismatch l unit t => Sys2Proof.Machine.execComparatorMismatch l unit t s
  | .comparatorInjection l unit captured t => Sys2Proof.Machine.execComparatorInjection l unit captured t s
  | .missedInjection l unit t => Sys2Proof.Machine.execMissedInjection l unit t s
  | .exclusionLineExpire l target t => Sys2Proof.Machine.execExclusionLineExpire l target t s
  | .supervisorResetEnd l t => Sys2Proof.Machine.execSupervisorResetEnd l t s
  | .restartComplete l report t => Sys2Proof.Machine.execRestartComplete l report t s
  | .transferServe l dest t => Sys2Proof.Machine.execTransferServe l dest t s
  | .transferReceive l t => Sys2Proof.Machine.execTransferReceive l t s
  | .rejoinTimeout l t => Sys2Proof.Machine.execRejoinTimeout l t s
  | .voteWordArrive w t => Sys2Proof.Machine.execVoteWordArrive w t s
  | .skewWindowClose msg word t => Sys2Proof.Machine.execSkewWindowClose msg word t s
  | .cycleReport t => Sys2Proof.Machine.execCycleReport t s
  | .driveMonitorSample pos neg t => Sys2Proof.Machine.execDriveMonitorSample pos neg t s
  | .driveRefreshMark l t => Sys2Proof.Machine.execDriveRefreshMark l t s
  | .driveWatchdogTrip t => Sys2Proof.Machine.execDriveWatchdogTrip t s
  | .callipersHalvesMismatch t => Sys2Proof.Machine.execCallipersHalvesMismatch t s
  | .callipersInjection captured t => Sys2Proof.Machine.execCallipersInjection captured t s
  | .inputRawSample ch mV t => Sys2Proof.Machine.execInputRawSample ch mV t s
  | .thresholdUpdate t => Sys2Proof.Machine.execThresholdUpdate t s
  | .couplerFrame ch okA okB okC t => Sys2Proof.Machine.execCouplerFrame ch okA okB okC t s
  | .lineConductanceMeasure ch nS10 t => Sys2Proof.Machine.execLineConductanceMeasure ch nS10 t s
  | .darkWindow k readsHigh ma t => Sys2Proof.Machine.execDarkWindow k readsHigh ma t s
  | .pulseSourceFault k cause t => Sys2Proof.Machine.execPulseSourceFault k cause t s
  | .pulseSourceRetry k shortGone t => Sys2Proof.Machine.execPulseSourceRetry k shortGone t s
  | .comparatorTest ch first second t => Sys2Proof.Machine.execComparatorTest ch first second t s
  | .encoderEdge a b t => Sys2Proof.Machine.execEncoderEdge a b t s
  | .encoderSpeedUpdate t => Sys2Proof.Machine.execEncoderSpeedUpdate t s
  | .encoderRevalid t => Sys2Proof.Machine.execEncoderRevalid t s
  | .analogueConversion ch code t => Sys2Proof.Machine.execAnalogueConversion ch code t s
  | .analogueReferenceCheck ch high reading t => Sys2Proof.Machine.execAnalogueReferenceCheck ch high reading t s
  | .inputFaultClear kind ch t => Sys2Proof.Machine.execInputFaultClear kind ch t s
  | .fieldSupplySample v10 t => Sys2Proof.Machine.execFieldSupplySample v10 t s
  | .fsLow t => Sys2Proof.Machine.execFsLow t s
  | .fsLowClear t => Sys2Proof.Machine.execFsLowClear t s
  | .fsSag t => Sys2Proof.Machine.execFsSag t s
  | .fsRev t => Sys2Proof.Machine.execFsRev t s
  | .fsHigh t => Sys2Proof.Machine.execFsHigh t s
  | .fsRelease t => Sys2Proof.Machine.execFsRelease t s
  | .fsmFreezeEnd t => Sys2Proof.Machine.execFsmFreezeEnd t s
  | .offStateJudgement n vpos vneg t => Sys2Proof.Machine.execOffStateJudgement n vpos vneg t s
  | .openLoadOn n mA vpos vneg t => Sys2Proof.Machine.execOpenLoadOn n mA vpos vneg t s
  | .testPeriodStart t => Sys2Proof.Machine.execTestPeriodStart t s
  | .darkPulse n pole opened matched t => Sys2Proof.Machine.execDarkPulse n pole opened matched t s
  | .darkPulseRedrive n pole seen t => Sys2Proof.Machine.execDarkPulseRedrive n pole seen t s
  | .darkPulseRecloseCheck n pole ok seen t => Sys2Proof.Machine.execDarkPulseRecloseCheck n pole ok seen t s
  | .lightPulse n pole closed follow matched t => Sys2Proof.Machine.execLightPulse n pole closed follow matched t s
  | .lightPulseEnd n pole seen t => Sys2Proof.Machine.execLightPulseEnd n pole seen t s
  | .lightPulseVerify n pole gateBelow seen t => Sys2Proof.Machine.execLightPulseVerify n pole gateBelow seen t s
  | .pulseRepeat n pole t => Sys2Proof.Machine.execPulseRepeat n pole t s
  | .overload n t => Sys2Proof.Machine.execOverload n t s
  | .thermalFoldback n temp t => Sys2Proof.Machine.execThermalFoldback n temp t s
  | .overtemperature n temp t => Sys2Proof.Machine.execOvertemperature n temp t s
  | .outputFaultClear n temp t => Sys2Proof.Machine.execOutputFaultClear n temp t s
  | .outputCouplerFrame n okA okB okC t => Sys2Proof.Machine.execOutputCouplerFrame n okA okB okC t s
  | .ringFrameArrive r d frame t => Sys2Proof.Machine.execRingFrameArrive r d frame t s
  | .insertionBufferDrain r t => Sys2Proof.Machine.execInsertionBufferDrain r t s
  | .toolRestWindowOpen r d slot t => Sys2Proof.Machine.execToolRestWindowOpen r d slot t s
  | .exclusiveWindowSend r slot t => Sys2Proof.Machine.execExclusiveWindowSend r slot t s
  | .arbitratingWindow r slot t => Sys2Proof.Machine.execArbitratingWindow r slot t s
  | .toolRestWindowClose r d slot t => Sys2Proof.Machine.execToolRestWindowClose r d slot t s
  | .toolRestReopen r d t => Sys2Proof.Machine.execToolRestReopen r d t s
  | .ringEntrySettle r slot t => Sys2Proof.Machine.execRingEntrySettle r slot t s
  | .ringLinkUp r d t => Sys2Proof.Machine.execRingLinkUp r d t s
  | .linkCheckFrame r d frame t => Sys2Proof.Machine.execLinkCheckFrame r d frame t s
  | .linkReport r t => Sys2Proof.Machine.execLinkReport r t s
  | .referenceSend r t => Sys2Proof.Machine.execReferenceSend r t s
  | .referenceAccept r d frame t => Sys2Proof.Machine.execReferenceAccept r d frame t s
  | .referenceMissed r t => Sys2Proof.Machine.execReferenceMissed r t s
  | .successionReference r t => Sys2Proof.Machine.execSuccessionReference r t s
  | .coldstartListenEnd r t => Sys2Proof.Machine.execColdstartListenEnd r t s
  | .coldstartCollision r t => Sys2Proof.Machine.execColdstartCollision r t s
  | .coldstartBackoffEnd r t => Sys2Proof.Machine.execColdstartBackoffEnd r t s
  | .joinFrameSend r slot returned t => Sys2Proof.Machine.execJoinFrameSend r slot returned t s
  | .interfaceActive r t => Sys2Proof.Machine.execInterfaceActive r t s
  | .ringLinkLoss r d t => Sys2Proof.Machine.execRingLinkLoss r d t s
  | .loopbackClose r t => Sys2Proof.Machine.execLoopbackClose r t s
  | .netArpIcmp port req t => Sys2Proof.Machine.execNetArpIcmp port req t s
  | .jxtDatagramReceive net dgram t => Sys2Proof.Machine.execJxtDatagramReceive net dgram t s
  | .jxtGroupSettle conn t => Sys2Proof.Machine.execJxtGroupSettle conn t s
  | .cvStart l ctx => Sys2Proof.Machine.execCvStart l ctx s
  | .cvFeed l ctx bytes data upset => Sys2Proof.Machine.execCvFeed l ctx bytes data upset s
  | .cvFinalise l ctx upset => Sys2Proof.Machine.execCvFinalise l ctx upset s
  | .tatPending p b t => Sys2Proof.Machine.execTatPending p b t s
  | .txLateDeadline p b begun t => Sys2Proof.Machine.execTxLateDeadline p b begun t s
  | .tatLateDeadline p b begun t => Sys2Proof.Machine.execTatLateDeadline p b begun t s
  | .canFrameTxEnd p b outcome t => Sys2Proof.Machine.execCanFrameTxEnd p b outcome t s
  | .canReferenceMessage p e t => Sys2Proof.Machine.execCanReferenceMessage p e t s
  | .canExclusiveWindow p b began t => Sys2Proof.Machine.execCanExclusiveWindow p b began t s
  | .canFrameReceive p frame t => Sys2Proof.Machine.execCanFrameReceive p frame t s
  | .canPairSettle p b t => Sys2Proof.Machine.execCanPairSettle p b t s
  | .ownershipBlockExpire p b t => Sys2Proof.Machine.execOwnershipBlockExpire p b t s
  | .canOwnBitError p b t => Sys2Proof.Machine.execCanOwnBitError p b t s
  | .canBusOff p t => Sys2Proof.Machine.execCanBusOff p t s
  | .canBusOffRecovery p t => Sys2Proof.Machine.execCanBusOffRecovery p t s
  | .canBusOffRecovered p t => Sys2Proof.Machine.execCanBusOffRecovered p t s
  | .pairStatusSend t => Sys2Proof.Machine.execPairStatusSend t s
  | .pairStatusReceive on frame t => Sys2Proof.Machine.execPairStatusReceive on frame t s
  | .pairLinkTimeout link t => Sys2Proof.Machine.execPairLinkTimeout link t s
  | .mirrorFrameReceive on frame t => Sys2Proof.Machine.execMirrorFrameReceive on frame t s
  | .mirrorTake l t => Sys2Proof.Machine.execMirrorTake l t s
  | .joinAloneLead t => Sys2Proof.Machine.execJoinAloneLead t s
  | .partnerRead via write addr count t => Sys2Proof.Machine.execPartnerRead via write addr count t s
  | .partnerReadTimeout t => Sys2Proof.Machine.execPartnerReadTimeout t s
  | .enterMaintain via key t => Sys2Proof.Machine.execEnterMaintain via key t s
  | .leaveMaintain via key t => Sys2Proof.Machine.execLeaveMaintain via key t s
  | .enterCommission via key t => Sys2Proof.Machine.execEnterCommission via key t s
  | .endCommission via key t => Sys2Proof.Machine.execEndCommission via key t s
  | .sweep via key t => Sys2Proof.Machine.execSweep via key t s
  | .swap via key t => Sys2Proof.Machine.execSwap via key t s
  | .quiesce via key t => Sys2Proof.Machine.execQuiesce via key t s
  | .activateFw via key t => Sys2Proof.Machine.execActivateFw via key t s
  | .armFwBoot via key t => Sys2Proof.Machine.execArmFwBoot via key t s
  | .activateSd via key t => Sys2Proof.Machine.execActivateSd via key t s
  | .commit via key t => Sys2Proof.Machine.execCommit via key t s
  | .revert via key t => Sys2Proof.Machine.execRevert via key t s
  | .enrol via key t => Sys2Proof.Machine.execEnrol via key t s
  | .commandUnserved t => Sys2Proof.Machine.execCommandUnserved t s
  | .sweepStep n t => Sys2Proof.Machine.execSweepStep n t s
  | .shutdownTestVerdict results t => Sys2Proof.Machine.execShutdownTestVerdict results t s
  | .tokenExpiry t => Sys2Proof.Machine.execTokenExpiry t s
  | .sliceDue l t => Sys2Proof.Machine.execSliceDue l t s
  | .sliceRequest t => Sys2Proof.Machine.execSliceRequest t s
  | .sliceVerdict l bist march t => Sys2Proof.Machine.execSliceVerdict l bist march t s
  | .sliceOverdue l t => Sys2Proof.Machine.execSliceOverdue l t s
  | .sanderRegion l finding corrected t => Sys2Proof.Machine.execSanderRegion l finding corrected t s
  | .sanderPassLate l t => Sys2Proof.Machine.execSanderPassLate l t s
  | .benchWatchdog t => Sys2Proof.Machine.execBenchWatchdog t s
  | .benchStart cause ram t => Sys2Proof.Machine.execBenchStart cause ram t s
  | .notice n t => Sys2Proof.Machine.execNotice n t s
  | .laneQueueDrain src t => Sys2Proof.Machine.execLaneQueueDrain src t s
  | .sensorSample temps rails t => Sys2Proof.Machine.execSensorSample temps rails t s
  | .humiditySample rh air t => Sys2Proof.Machine.execHumiditySample rh air t s
  | .shockEvent x y z t => Sys2Proof.Machine.execShockEvent x y z t s
  | .sensorWarningClear idx t => Sys2Proof.Machine.execSensorWarningClear idx t s
  | .ecCfgWrite via val t => Sys2Proof.Machine.execEcCfgWrite via val t s
  | .suppressedSummary t => Sys2Proof.Machine.execSuppressedSummary t s
  | .anchor t => Sys2Proof.Machine.execAnchor t s
  | .flashCommit ok t => Sys2Proof.Machine.execFlashCommit ok t s
  | .sectorErase ok t => Sys2Proof.Machine.execSectorErase ok t s
  | .freeze via t => Sys2Proof.Machine.execFreeze via t s
  | .freezeRelease via t => Sys2Proof.Machine.execFreezeRelease via t s
  | .freezeTimeout t => Sys2Proof.Machine.execFreezeTimeout t s
  | .timeSet via lo hi t => Sys2Proof.Machine.execTimeSet via lo hi t s
  | .recInfo h sess seq t => Sys2Proof.Machine.execRecInfo h sess seq t s
  | .recRead h sess seq first count t => Sys2Proof.Machine.execRecRead h sess seq first count t s
  | .recFreeze h sess seq op t => Sys2Proof.Machine.execRecFreeze h sess seq op t s
  | .h2bDoorbell v t => Sys2Proof.Machine.execH2bDoorbell v t s
  | .hostRead addr count t => Sys2Proof.Machine.execHostRead addr count t s
  | .hostReadComplete t => Sys2Proof.Machine.execHostReadComplete t s
  | .hostWrite addr count data crc t => Sys2Proof.Machine.execHostWrite addr count data crc t s
  | .fetch t => Sys2Proof.Machine.execFetch t s
  | .status t => Sys2Proof.Machine.execStatus t s
  | .hostClose crc t => Sys2Proof.Machine.execHostClose crc t s
  | .sessionTimeout sess t => Sys2Proof.Machine.execSessionTimeout sess t s
  | .mntOpen h level seq t => Sys2Proof.Machine.execMntOpen h level seq t s
  | .mntAuth h sess seq credential t => Sys2Proof.Machine.execMntAuth h sess seq credential t s
  | .authLockoutEnd ip t => Sys2Proof.Machine.execAuthLockoutEnd ip t s
  | .mntRead h sess seq addr count t => Sys2Proof.Machine.execMntRead h sess seq addr count t s
  | .mntWrite h sess seq addr count data t => Sys2Proof.Machine.execMntWrite h sess seq addr count data t s
  | .mntKeep h sess seq t => Sys2Proof.Machine.execMntKeep h sess seq t s
  | .mntClose h sess seq t => Sys2Proof.Machine.execMntClose h sess seq t s
  | .notify sess t => Sys2Proof.Machine.execNotify sess t s
  | .dhcpLease up lease t => Sys2Proof.Machine.execDhcpLease up lease t s
  | .chanSelWrite via page index t => Sys2Proof.Machine.execChanSelWrite via page index t s
  | .irqMaskWrite via page mask t => Sys2Proof.Machine.execIrqMaskWrite via page mask t s
  | .irqStatClear via page bits t => Sys2Proof.Machine.execIrqStatClear via page bits t s
  | .pageSnap via page t => Sys2Proof.Machine.execPageSnap via page t s
  | .snapshotComplete page t => Sys2Proof.Machine.execSnapshotComplete page t s
  | .resultGroupRead via addr t => Sys2Proof.Machine.execResultGroupRead via addr t s
  | .rcRead via addr t => Sys2Proof.Machine.execRcRead via addr t s
  | .registerWrite via addr data t => Sys2Proof.Machine.execRegisterWrite via addr data t s
  | .bistDiscard via v t => Sys2Proof.Machine.execBistDiscard via v t s
  | .updCtrlAbort via v t => Sys2Proof.Machine.execUpdCtrlAbort via v t s
  | .updOpen via kind mlen t => Sys2Proof.Machine.execUpdOpen via kind mlen t s
  | .updBlock via off part data crc writeOk t => Sys2Proof.Machine.execUpdBlock via off part data crc writeOk t s
  | .updVerify via t => Sys2Proof.Machine.execUpdVerify via t s
  | .verifyComplete ops t => Sys2Proof.Machine.execVerifyComplete ops t s
  | .updAbort via t => Sys2Proof.Machine.execUpdAbort via t s
  | .updStatus via t => Sys2Proof.Machine.execUpdStatus via t s
  | .updateSessionIdle t => Sys2Proof.Machine.execUpdateSessionIdle t s
  | .attest via nonce t => Sys2Proof.Machine.execAttest via nonce t s
  | .attestReady t => Sys2Proof.Machine.execAttestReady t s
  | .attRead via off len t => Sys2Proof.Machine.execAttRead via off len t s
  | .trialCommit t => Sys2Proof.Machine.execTrialCommit t s
  | .trialServiceTimeout t => Sys2Proof.Machine.execTrialServiceTimeout t s
  | .carrierSupplyShort t => Sys2Proof.Machine.execCarrierSupplyShort t s
  | .carrierSupplyRetry shortGone t => Sys2Proof.Machine.execCarrierSupplyRetry shortGone t s
  | .laneRailReturn l t => Sys2Proof.Machine.execLaneRailReturn l t s
  | .redBlueLinkChange net up t => Sys2Proof.Machine.execRedBlueLinkChange net up t s
  | .canArbitratingWindow p k t => Sys2Proof.Machine.execCanArbitratingWindow p k t s
  | .canBusError p kind heavy t => Sys2Proof.Machine.execCanBusError p kind heavy t s
  | .benchAccessRequest k f t => Sys2Proof.Machine.execBenchAccessRequest k f t s
  | .benchAccessReply k f t => Sys2Proof.Machine.execBenchAccessReply k f t s
  | .mntAccessComplete sess t => Sys2Proof.Machine.execMntAccessComplete sess t s
  | .stimeOkLapse t => Sys2Proof.Machine.execStimeOkLapse t s

end Sys2Proof.Machine
end

