-- ==== Sys2Proof/Machine/Step.lean ====
section
/-! DEFINITION. The step: the command that waits longest takes effect; with none waiting the block idles. -/

namespace Sys2Proof.Machine

/-- A state with one more command in front of those that wait. -/
def State.push (i : Instr) (s : State) : State := { s with pending := i :: s.pending }

/-- The command that a word spells put in front; the state itself where it spells none. (DESIGN CHOICE log 1) -/
def State.withFetchWord (s : State) (nbits w : Nat) : State :=
  match decodeTableWord nbits w with
  | some i => s.push i
  | none => s

/-- A step with no command waiting changes nothing; time passes only through the commands' own instants. (DESIGN CHOICE log 2) -/
def step (s : State) : Host.Outcome State Fault Refusal :=
  match s.pending with
  | [] => .next s
  | i :: rest => exec i { s with pending := rest }

end Sys2Proof.Machine
end

