-- ==== Sys2Proof/WellFormed.lean ====
section
/-! DEFINITION. When a command is well formed: its instance numbers lie in the ranges that the hardware has, and its samples hold one
value for each sensor or pole. The meanings are total
all the same. -/

namespace Sys2Proof

/-- What is wrong with a command's operands: a channel (R189, R204), a pulse source (R198), an output (R218), a message (4,096 the drive record) or word
number (R164, R165), a list of samples (R177, R436), a ring window or arbitrating window (R263, R353), a JXT connection (R311), a
check-value context (R330), the size of a feed (R334), a message buffer (R345), a checkpoint (R128). -/
inductive Malformed where
  | channel | source | output | message | sample | window | connection | context | feed | buffer | checkpoint
  deriving DecidableEq, Repr

/-- A requirement, and its name where it fails. -/
def need (what : Malformed) (ok : Bool) : Option Malformed := if ok then none else some what

/-- How many channels a kind of field channel has. -/
def kindSize : FieldKind → Nat
  | .digital => 48
  | .analogue => 8

def malformed (i : Instr) : Option Malformed :=
  match i with
  | .powerUp _ => none
  | .supplyInterruption _ => none
  | .supplyLossQuiesce _ => none
  | .supplyReturn _ => none
  | .holdUpExhausted _ _ => none
  | .holdUpReserveReached _ => none
  | .haltSupplyRemoved _ => none
  | .laneRailOutOfWindow _ _ => none
  | .callipersRailFault _ _ => none
  | .benchRailFault _ => none
  | .resetNSample _ _ => none
  | .resetNAsserted _ => none
  | .resetNReleased _ => none
  | .resetStuck _ => none
  | .benchClockLost _ => none
  | .bootComplete _ _ => none
  | .bootFailed _ _ => none
  | .bootTimeout _ => none
  | .configAccept _ _ _ => none
  | .configRefuse _ _ _ => none
  | .configTimeout _ => none
  | .joinStallEvent _ => none
  | .cycleT0 _ _ _ => none
  | .pllLockTimeout _ _ => none
  | .inputSample _ _ => none
  | .samplingDeadline _ _ => none
  | .imageFrameSend _ _ => none
  | .exchangeFrameReceive _ _ _ => none
  | .intactJudgement _ _ => none
  | .acceptedSet _ _ => none
  | .exchangeDeadline _ _ => none
  | .runStart _ _ => none
  | .gate _ _ _ _ => none
  | .storeRow _ _ _ _ => none
  | .timerRow _ _ _ _ => none
  | .endRow _ _ _ _ => none
  | .runClose _ _ => none
  | .progressCheckpoint _ m _ => need .checkpoint (decide (1 ≤ m) && decide (m ≤ 3))
  | .evaluationDeadline _ _ => none
  | .handoverEnd _ _ => none
  | .handoverDeadline _ _ => none
  | .drivePeriodBoundary _ _ => none
  | .mirrorDeadline _ _ => none
  | .sleepEntry _ _ => none
  | .keepAwakeHoldSet _ _ _ => none
  | .keepAwakeHoldRelease _ _ _ => none
  | .comparatorMismatch _ _ _ => none
  | .comparatorInjection _ _ _ _ => none
  | .missedInjection _ _ _ => none
  | .exclusionLineExpire _ _ _ => none
  | .supervisorResetEnd _ _ => none
  | .restartComplete _ _ _ => none
  | .transferServe _ _ _ => none
  | .transferReceive _ _ => none
  | .rejoinTimeout _ _ => none
  | .voteWordArrive _ _ => none
  | .skewWindowClose msg word _ => need .message (decide (msg ≤ 4096) && decide (word < 1024))
  | .cycleReport _ => none
  | .driveMonitorSample pos neg _ => need .sample (pos.length == 24 && neg.length == 24 && (pos ++ neg).all (fun k => decide (k ≤ 3)))
  | .driveRefreshMark _ _ => none
  | .driveWatchdogTrip _ => none
  | .callipersHalvesMismatch _ => none
  | .callipersInjection _ _ => none
  | .inputRawSample ch _ _ => need .channel (decide (ch < 48))
  | .thresholdUpdate _ => none
  | .couplerFrame ch _ _ _ _ => need .channel (decide (ch < 48))
  | .lineConductanceMeasure ch _ _ => need .channel (decide (ch < 48))
  | .darkWindow k _ _ _ => need .source (decide (k < 4))
  | .pulseSourceFault k _ _ => need .source (decide (k < 4))
  | .pulseSourceRetry k _ _ => need .source (decide (k < 4))
  | .comparatorTest ch _ _ _ => need .channel (decide (ch < 48))
  | .encoderEdge _ _ _ => none
  | .encoderSpeedUpdate _ => none
  | .encoderRevalid _ => none
  | .analogueConversion ch _ _ => need .channel (decide (ch < 8))
  | .analogueReferenceCheck ch _ _ _ => need .channel (decide (ch < 8))
  | .inputFaultClear kind ch _ => need .channel (decide (ch < kindSize kind))
  | .fieldSupplySample _ _ => none
  | .fsLow _ => none
  | .fsLowClear _ => none
  | .fsSag _ => none
  | .fsRev _ => none
  | .fsHigh _ => none
  | .fsRelease _ => none
  | .fsmFreezeEnd _ => none
  | .offStateJudgement n _ _ _ => need .output (decide (n < 24))
  | .openLoadOn n _ _ _ _ => need .output (decide (n < 24))
  | .testPeriodStart _ => none
  | .darkPulse n _ _ _ _ => need .output (decide (n < 24))
  | .darkPulseRedrive n _ _ _ => need .output (decide (n < 24))
  | .darkPulseRecloseCheck n _ _ _ _ => need .output (decide (n < 24))
  | .lightPulse n _ _ _ _ _ => need .output (decide (n < 24))
  | .lightPulseEnd n _ _ _ => need .output (decide (n < 24))
  | .lightPulseVerify n _ _ _ _ => need .output (decide (n < 24))
  | .pulseRepeat n _ _ => need .output (decide (n < 24))
  | .overload n _ => need .output (decide (n < 24))
  | .thermalFoldback n _ _ => need .output (decide (n < 24))
  | .overtemperature n _ _ => need .output (decide (n < 24))
  | .outputFaultClear n _ _ => need .output (decide (n < 24))
  | .outputCouplerFrame n _ _ _ _ => need .output (decide (n < 24))
  | .ringFrameArrive _ _ _ _ => none
  | .insertionBufferDrain _ _ => none
  | .toolRestWindowOpen _ _ slot _ => need .window (decide (slot < 2048))
  | .exclusiveWindowSend _ slot _ => need .window (decide (slot < 2048))
  | .arbitratingWindow _ slot _ => need .window (decide (slot < 2048))
  | .toolRestWindowClose _ _ slot _ => need .window (decide (slot < 2048))
  | .toolRestReopen _ _ _ => none
  | .ringEntrySettle _ slot _ => need .window (decide (slot < 2048))
  | .ringLinkUp _ _ _ => none
  | .linkCheckFrame _ _ _ _ => none
  | .linkReport _ _ => none
  | .referenceSend _ _ => none
  | .referenceAccept _ _ _ _ => none
  | .referenceMissed _ _ => none
  | .successionReference _ _ => none
  | .coldstartListenEnd _ _ => none
  | .coldstartCollision _ _ => none
  | .coldstartBackoffEnd _ _ => none
  | .joinFrameSend _ slot _ _ => need .window (decide (slot < 2048))
  | .interfaceActive _ _ => none
  | .ringLinkLoss _ _ _ => none
  | .loopbackClose _ _ => none
  | .netArpIcmp _ _ _ => none
  | .jxtDatagramReceive _ _ _ => none
  | .jxtGroupSettle conn _ => need .connection (decide (conn < 64))
  | .cvStart _ ctx => need .context (decide (ctx < 8))
  | .cvFeed _ ctx bytes _ _ => need .context (decide (ctx < 8)) <|> need .feed ([1, 2, 4].contains bytes)
  | .cvFinalise _ ctx _ => need .context (decide (ctx < 8))
  | .tatPending _ b _ => need .buffer (decide (b < 64))
  | .txLateDeadline _ b _ _ => need .buffer (decide (b < 64))
  | .tatLateDeadline _ b _ _ => need .buffer (decide (b < 64))
  | .canFrameTxEnd _ b _ _ => need .buffer (decide (b < 64))
  | .canReferenceMessage _ _ _ => none
  | .canExclusiveWindow _ b _ _ => need .buffer (decide (b < 64))
  | .canFrameReceive _ _ _ => none
  | .canPairSettle _ b _ => need .buffer (decide (b < 64))
  | .ownershipBlockExpire _ b _ => need .buffer (decide (b ≤ 64))
  | .canOwnBitError _ b _ => need .buffer (decide (b ≤ 64))
  | .canBusOff _ _ => none
  | .canBusOffRecovery _ _ => none
  | .canBusOffRecovered _ _ => none
  | .pairStatusSend _ => none
  | .pairStatusReceive _ _ _ => none
  | .pairLinkTimeout _ _ => none
  | .mirrorFrameReceive _ _ _ => none
  | .mirrorTake _ _ => none
  | .joinAloneLead _ => none
  | .partnerRead _ _ _ _ _ => none
  | .partnerReadTimeout _ => none
  | .enterMaintain _ _ _ => none
  | .leaveMaintain _ _ _ => none
  | .enterCommission _ _ _ => none
  | .endCommission _ _ _ => none
  | .sweep _ _ _ => none
  | .swap _ _ _ => none
  | .quiesce _ _ _ => none
  | .activateFw _ _ _ => none
  | .armFwBoot _ _ _ => none
  | .activateSd _ _ _ => none
  | .commit _ _ _ => none
  | .revert _ _ _ => none
  | .enrol _ _ _ => none
  | .commandUnserved _ => none
  | .sweepStep n _ => need .output (decide (n ≤ 24))
  | .shutdownTestVerdict _ _ => none
  | .tokenExpiry _ => none
  | .sliceDue _ _ => none
  | .sliceRequest _ => none
  | .sliceVerdict _ _ _ _ => none
  | .sliceOverdue _ _ => none
  | .sanderRegion _ _ _ _ => none
  | .sanderPassLate _ _ => none
  | .benchWatchdog _ => none
  | .benchStart _ _ _ => none
  | .notice _ _ => none
  | .laneQueueDrain _ _ => none
  | .sensorSample temps rails _ => need .sample (temps.length == 8 && rails.length == 12)
  | .humiditySample _ _ _ => none
  | .shockEvent _ _ _ _ => none
  | .sensorWarningClear idx _ => need .sample (decide (idx < 22))
  | .ecCfgWrite _ _ _ => none
  | .suppressedSummary _ => none
  | .anchor _ => none
  | .flashCommit _ _ => none
  | .sectorErase _ _ => none
  | .freeze _ _ => none
  | .freezeRelease _ _ => none
  | .freezeTimeout _ => none
  | .timeSet _ _ _ _ => none
  | .recInfo _ _ _ _ => none
  | .recRead _ _ _ _ _ _ => none
  | .recFreeze _ _ _ _ _ => none
  | .h2bDoorbell _ _ => none
  | .hostRead _ _ _ => none
  | .hostReadComplete _ => none
  | .hostWrite _ _ _ _ _ => none
  | .fetch _ => none
  | .status _ => none
  | .hostClose _ _ => none
  | .sessionTimeout _ _ => none
  | .mntOpen _ _ _ _ => none
  | .mntAuth _ _ _ _ _ => none
  | .authLockoutEnd _ _ => none
  | .mntRead _ _ _ _ _ _ => none
  | .mntWrite _ _ _ _ _ _ _ => none
  | .mntKeep _ _ _ _ => none
  | .mntClose _ _ _ _ => none
  | .notify _ _ => none
  | .dhcpLease _ _ _ => none
  | .chanSelWrite _ _ _ _ => none
  | .irqMaskWrite _ _ _ _ => none
  | .irqStatClear _ _ _ _ => none
  | .pageSnap _ _ _ => none
  | .snapshotComplete _ _ => none
  | .resultGroupRead _ _ _ => none
  | .rcRead _ _ _ => none
  | .registerWrite _ _ _ _ => none
  | .bistDiscard _ _ _ => none
  | .updCtrlAbort _ _ _ => none
  | .updOpen _ _ _ _ => none
  | .updBlock _ _ _ _ _ _ _ => none
  | .updVerify _ _ => none
  | .verifyComplete _ _ => none
  | .updAbort _ _ => none
  | .updStatus _ _ => none
  | .updateSessionIdle _ => none
  | .attest _ _ _ => none
  | .attestReady _ => none
  | .attRead _ _ _ _ => none
  | .trialCommit _ => none
  | .trialServiceTimeout _ => none
  | .carrierSupplyShort _ => none
  | .carrierSupplyRetry _ _ => none
  | .laneRailReturn _ _ => none
  | .redBlueLinkChange _ _ _ => none
  | .canArbitratingWindow _ k _ => need .window (decide (k < 8))
  | .canBusError _ _ _ _ => none
  | .benchAccessRequest _ _ _ => none
  | .benchAccessReply _ _ _ => none
  | .mntAccessComplete _ _ => none
  | .stimeOkLapse _ => none

/-- A well-formed command. -/
def wellFormed (i : Instr) : Bool := (malformed i).isNone

end Sys2Proof
end

