-- ==== Sys2Proof/Safety.lean ====
section
/-! DEFINITION. What the claims are stated in: that a command completes, what it leaves alone, and when the module drives and sends
nothing. -/

namespace Sys2Proof.Machine

/-- The command answers a next state, with the waiting commands as they were and a module of which `P` holds. -/
def Completes (i : Instr) (s : State) (P : Mach → Prop) : Prop :=
  ∃ t : State, exec i s = .next t ∧ t.pending = s.pending ∧ P t.m

/-- The command's whole effect on the module: the next state is the present one with this module. -/
def Becomes (i : Instr) (s : State) (m : Mach) : Prop := exec i s = .next { s with m := m }

/-- No winding follows a drive image, and none is latched (R176, R241). -/
def Undriven (m : Mach) : Prop := ∀ l ∈ laneIds, (m.lane l).drive.latched = 0 ∧ (m.lane l).drive.windings = 0

/-- Every transmit driver is disabled and every port is off (R184). -/
def Unsent (m : Mach) : Prop :=
  m.cal.txOn = false ∧ m.ring1.ifc = .down ∧ m.ring2.ifc = .down ∧ m.can1.mode = 0 ∧ m.can2.mode = 0 ∧ m.jxt.redUp = false ∧
    m.jxt.blueUp = false ∧ m.pair.l1.up = false ∧ m.pair.l2.up = false

/-- Every lane is held in reset and OUT (R397, R409). -/
def LanesHeld (m : Mach) : Prop := ∀ l ∈ laneIds, (m.lane l).agr.life = .out ∧ (m.lane l).agr.held = true

/-- What a module without power is: DORMANT, its lanes held, no data set, nothing driven or sent (R399, R407). -/
def Unpowered (m : Mach) : Prop :=
  m.power.powered = false ∧ m.mod.mode = .dormant ∧ m.sd = none ∧ m.bench.up = false ∧ LanesHeld m ∧ Undriven m ∧ Unsent m

/-- A lane fault raised by the Copier or the cycle timer (R128): recorded on the Copier page, and the lane OUT with the same cause,
held, its windings stopped and its run ended without a commit. -/
def LaneFault (l : LaneId) (cause : Byte) (old new : Mach) : Prop :=
  (new.lane l).cop.faultCause = cause ∧ (new.lane l).cop.faults = satInc (old.lane l).cop.faults ∧
    (new.lane l).cop.active = false ∧ new.life l = .out ∧ (new.lane l).agr.outCause = cause ∧ (new.lane l).agr.held = true ∧
    (new.lane l).drive.windings = 0 ∧ (new.lane l).mem.selDone = (old.lane l).mem.selDone

/-- HALT, once entered, is left only without power (R409): the invariant that every step keeps. -/
def HaltHeld (old new : Mach) : Prop := old.mod.mode = .halt → new.power.powered = true → new.mod.mode = .halt

/-- The causes on the pages and the words of the mailbox stand in the one canonical form of a sparse memory. -/
def canonical (m : Mach) : Bool := memWf 0 m.irq && memWf 0 m.bench.host.mailbox

/-- The command changes nothing outside the field section but the clock and the causes on the pages. -/
def OnlyField (old new : Mach) : Prop := { new with now := old.now, field := old.field, irq := old.irq } = old

/-- The command changes nothing outside one ring interface but the clock, the causes on the pages, the notices of the port
section and the number of the next free value. -/
def OnlyRing (i : RingId) (old new : Mach) : Prop :=
  new.ring (otherRing i) = old.ring (otherRing i) ∧
    { new with
      now := old.now, ring1 := old.ring1, ring2 := old.ring2, irq := old.irq, freeCtr := old.freeCtr
      cal := { new.cal with fifo := old.cal.fifo } } = old

/-- As `OnlyRing`, but the lanes' cycle timers and station time may follow the ring, with the loss of the clock ended. -/
def OnlyRingTime (i : RingId) (old new : Mach) : Prop :=
  new.ring (otherRing i) = old.ring (otherRing i) ∧
    (∀ l, { new.lane l with tb := (old.lane l).tb } = old.lane l) ∧
    { new.bench with
      clkLost := old.bench.clkLost
      recd := { new.bench.recd with
        stime := old.bench.recd.stime, stimeAt := old.bench.recd.stimeAt, stimeOk := old.bench.recd.stimeOk
        okAt := old.bench.recd.okAt, setPending := old.bench.recd.setPending } } = old.bench ∧
    { new with
      now := old.now, ring1 := old.ring1, ring2 := old.ring2, irq := old.irq, freeCtr := old.freeCtr, lanes := old.lanes
      bench := old.bench, cal := { new.cal with fifo := old.cal.fifo } } = old

/-- The command changes nothing outside one CAN FD port but the clock, the causes on the pages and the notices of the port
section. -/
def OnlyCan (p : CanId) (old new : Mach) : Prop :=
  (∀ q, q ≠ p → new.can q = old.can q) ∧
    { new with now := old.now, can1 := old.can1, can2 := old.can2, irq := old.irq, cal := { new.cal with fifo := old.cal.fifo } } = old

/-- The Bench's part changes, with the causes on the pages, and nothing else. -/
def OnlyBench (old new : Mach) : Prop := { new with bench := old.bench, irq := old.irq } = old

/-- The status that a session's port last answered. -/
def Answered (s : Sess) (c : Status) (m : Mach) : Prop :=
  (match s with
    | .host => m.bench.host.reply.map (fun r => r.status)
    | .mnt _ => m.bench.mnt.reply.map (fun r => r.status)) = some c

/-- No mailbox word was written by the host in this clock. -/
def mailFree (m : Mach) : Bool := m.bench.host.lastWrite.all (fun w => w.1 != m.now / 10)

/-- A datagram of a type, session, number and payload that the maintenance port takes up at an instant: no host-port access of the
same clock waits before it. -/
def mntTakes (s : State) (t : Nat) (h : MntHead) (typ : Byte) (n : Nat) (seq : W32) (payload : List Byte) (m : Mach) : Bool :=
  m.benchServes && !s.pending.any (hostAccessAt (t / 10)) && h.whole && h.port == 27340 && headPasses typ n seq payload h &&
    !m.lockedOut h.ip

/-- A register access of a session that its port carries out now: in a frame of the host port, or in the next datagram of a session
whose level suffices. -/
def mayAccess (s : State) (t : Nat) (via : Via) (write : Bool) (typ : Byte) (payload : List Byte) (m : Mach) : Bool :=
  match via with
  | .host => m.benchServes && m.bench.mnt.waiting.isEmpty
  | .mnt h n seq =>
    mntTakes s t h typ n seq payload m && (m.gate (.mnt n) write).isNone && (m.mntSess n).any (fun y => seq == y.seq + 1)

/-- A write of registers that its port carries out now; `level` says whether it needs the write level. -/
def mayWrite (s : State) (t : Nat) (via : Via) (a : W32) (data : List W32) (level : Bool) (m : Mach) : Bool :=
  mayAccess s t via level 0x04 (spanBytes a data.length ++ data.flatMap bytes32) m

/-- A read of registers that its port carries out now. -/
def mayRead (s : State) (t : Nat) (via : Via) (a : W32) (count : Nat) (m : Mach) : Bool :=
  mayAccess s t via false 0x03 (spanBytes a count) m

/-- The session and the number that an update request carries. -/
def updFrom : UpdVia → Sess × W32
  | .mailbox num => (.host, num)
  | .mnt _ n seq => (.mnt n, seq)

/-- An update request that its port carries out now: through the mailbox, or as the next of a session of write level. -/
def mayAsk (s : State) (t : Nat) (via : UpdVia) (x : Transfer) (m : Mach) : Bool :=
  match via with
  | .mailbox _ => m.benchServes && mailFree m && m.bench.mnt.waiting.isEmpty
  | .mnt h n seq =>
    mntTakes s t h (BitVec.ofNat 8 (transferTyp x)) n seq (transferPayload x) m && (m.gate (.mnt n) true).isNone &&
      (m.mntSess n).any (fun y => seq == y.seq + 1)

/-- The reply that a request of a number and type ended with: in the mailbox for the host, else a datagram's. -/
def Replied (s : Sess) (num : W32) (typ : Nat) (c : Status) (bytes : List Byte) (m : Mach) : Prop :=
  match s with
  | .host =>
    m.mailWord 0x800 = BitVec.ofNat 32 ((typ + 0x80) * 2 ^ 24 + num.toNat % 2 ^ 24) ∧
      m.mailWord 0x801 = BitVec.ofNat 32 (statusCode c + 2 ^ 16 * bytes.length) ∧
      ∀ i, i < (bytes.length + 3) / 4 → some (m.mailWord (0x804 + i)) = (wordsOfBytes32 bytes)[i]?
  | .mnt n =>
    m.bench.mnt.reply.map (fun r => (r.session, r.seq, r.typ, r.status, r.data)) = some (n, num, BitVec.ofNat 8 typ, c, bytes)

/-- The mode commands by their codes (R395, R469). -/
def modeCommands : List (Byte × (Via → Byte → Nat → Instr)) :=
  [(0x01, .enterMaintain), (0x02, .leaveMaintain), (0x03, .enterCommission), (0x04, .endCommission), (0x05, .sweep), (0x06, .swap),
   (0x07, .quiesce), (0x10, .activateFw), (0x11, .armFwBoot), (0x12, .activateSd), (0x13, .commit), (0x14, .revert), (0x15, .enrol)]

/-- The command changes nothing outside one lane but the clock. -/
def OnlyLane (l : LaneId) (old new : Mach) : Prop :=
  { new with now := old.now, lanes := old.lanes } = old ∧ ∀ k ∈ laneIds, k ≠ l → new.lane k = old.lane k

end Sys2Proof.Machine
end

