-- ==== Sys2Proof/Certificates/Slice0/Obligations.lean ====
section
/-! DEFINITION. The statements. Each says what the spec's rules named in its docstring have a command do, over every
state and operands that meet its hypotheses; the vocabulary is that of Safety.lean. -/

open Sys2Proof Sys2Proof.Machine

/-- R334 to R336, R340: the operations of a check-value context, and a damaged copy. -/
def Obligations.CheckValueOperations : Prop :=
  (∀ (s : State) (l : LaneId) (ctx : Nat) (p : CrcParams) (x : CvCtx),
    s.m.ctxParams ctx = some p → (s.m.lane l).cv[ctx]? = some x →
    Completes (.cvStart l ctx) s (fun m => OnlyLane l s.m m ∧ { m.lane l with cv := [] } = { s.m.lane l with cv := [] } ∧
      (∀ k, k ≠ ctx → (m.lane l).cv[k]? = (s.m.lane l).cv[k]?) ∧
      (m.lane l).cv[ctx]? = some { x with
        run := BitVec.ofNat 64 p.init, runC := ~~~(BitVec.ofNat 64 p.init), running := true, bytes := 0
        group := { x.group with ready := false } })) ∧
  (∀ (s : State) (l : LaneId) (ctx bytes : Nat) (data : W32) (p : CrcParams) (x : CvCtx),
    s.m.ctxParams ctx = some p → (s.m.lane l).cv[ctx]? = some x → x.running = true → x.runC = ~~~x.run →
    Completes (.cvFeed l ctx bytes data false) s (fun m => OnlyLane l s.m m ∧
      (∀ k, k ≠ ctx → (m.lane l).cv[k]? = (s.m.lane l).cv[k]?) ∧
      (m.lane l).cv[ctx]? = some { x with
        run := BitVec.ofNat 64 (crcFeed p x.run.toNat (beBytes bytes data.toNat))
        runC := ~~~(BitVec.ofNat 64 (crcFeed p x.run.toNat (beBytes bytes data.toNat)))
        bytes := satAdd x.bytes bytes })) ∧
  (∀ (s : State) (l : LaneId) (ctx : Nat) (p : CrcParams) (x : CvCtx),
    s.m.ctxParams ctx = some p → (s.m.lane l).cv[ctx]? = some x → x.running = true → x.runC = ~~~x.run →
    Completes (.cvFinalise l ctx false) s (fun m => OnlyLane l s.m m ∧
      (∀ k, k ≠ ctx → (m.lane l).cv[k]? = (s.m.lane l).cv[k]?) ∧
      (m.lane l).cv[ctx]? = some { x with
        result := BitVec.ofNat 64 (crcOut p x.run.toNat), running := false, done := satInc x.done
        group := { serial := x.group.serial + 1, ready := true } })) ∧
  (∀ (s : State) (l : LaneId) (ctx : Nat) (p : CrcParams) (x : CvCtx),
    s.m.ctxParams ctx = some p → (s.m.lane l).cv[ctx]? = some x → x.running = true → x.runC = ~~~x.run →
    Completes (.cvFinalise l ctx true) s (fun m =>
      { m with lanes := s.m.lanes, irq := s.m.irq } = s.m ∧
      (m.lane l).cv[ctx]? = some { x with
        runC := x.runC ^^^ 1, running := false, faults := satInc x.faults
        faultCycle := some (s.m.lane l).cop.cycleNo }))

/-- R190, R399, R407, R409: the commands of the module supply. The model's choices that it names stand in log 102. -/
def Obligations.SupplyCommands : Prop :=
  (∀ (s : State) (t : Nat), s.m.power.powered = false → s.m.bench.up = false →
    Completes (.powerUp t) s (fun m => m.power.powered = true ∧ m.power.supplyOk = true ∧ m.power.qualAt = max s.m.now t ∧
      m.field.fsm.thrOn = 110 ∧ m.bench.up = true ∧ m.mod.mode = s.m.mod.mode ∧
      m.ident = (s.m.bench.upd.inForce.map AreaRecord.ident).getD s.m.ident)) ∧
  (∀ (s : State) (t : Nat), s.m.power.powered = true → s.m.power.supplyOk = true →
    Becomes (.supplyInterruption t) s { s.m.tick t with
      power := { s.m.power with supplyOk := false, lossAt := some (max s.m.now t) } }) ∧
  (∀ (s : State) (t t0 : Nat), s.m.power.powered = true → s.m.power.supplyOk = false → s.m.power.lossAt = some t0 →
    t0 + 20000000 ≤ max s.m.now t → s.m.mod.mode ∉ [.dormant, .halt, .quiesce] →
    Completes (.supplyLossQuiesce t) s (fun m => m.mod.mode = .quiesce ∧ m.mod.prev = s.m.mod.mode ∧ Undriven m ∧
      m.bench.test.token0 = none ∧ m.bench.test.token1 = none ∧ m.power.commanded = false ∧ m.pair.role = .none)) ∧
  (∀ (s : State) (t t0 : Nat), s.m.power.powered = true → s.m.power.supplyOk = false → s.m.power.lossAt = some t0 →
    s.m.mod.mode ∉ [.dormant, .quiesce] →
    Becomes (.supplyReturn t) s { s.m.tick t with
      power := { s.m.power with
        supplyOk := true, lossAt := none, reserve := s.m.power.reserve && decide (max s.m.now t < t0 + 333333334) } }) ∧
  (∀ (s : State) (t t0 : Nat), s.m.power.powered = true → s.m.power.supplyOk = false → s.m.power.lossAt = some t0 →
    s.m.mod.mode ∈ [.dormant, .quiesce] →
    Becomes (.supplyReturn t) s { s.m.tick t with
      power := { s.m.power with
        supplyOk := true, lossAt := none, qualAt := max s.m.now t
        reserve := s.m.power.reserve && decide (max s.m.now t < t0 + 333333334) }
      mod := { s.m.mod with released := false, highRun := 0 } }) ∧
  (∀ (s : State) (cut : Option W32) (t : Nat), s.m.power.powered = true → s.m.power.supplyOk = false →
    Completes (.holdUpExhausted cut t) s (fun m => Unpowered m ∧ m.ident = s.m.ident ∧ m.now = max s.m.now t ∧
      (cut = none → m.bench.upd.area1 = s.m.bench.upd.area1 ∧ m.bench.upd.area2 = s.m.bench.upd.area2))) ∧
  (∀ (s : State) (t t0 : Nat), s.m.mod.mode = .halt → s.m.power.powered = true → s.m.power.supplyOk = false →
    s.m.power.lossAt = some t0 → t0 + 1000000000 ≤ max s.m.now t →
    Completes (.haltSupplyRemoved t) s (fun m => Unpowered m ∧ m.ident = s.m.ident)) ∧
  (∀ (s : State) (t : Nat), s.m.power.powered = true →
    Becomes (.holdUpReserveReached t) s { s.m.tick t with power := { s.m.power with reserve := true } })

/-- R396 to R399: the reset input. The sample counts of 40 and 200 are the model's reading of 20 ms and 100 ms at 0.5 ms (log entry 58). -/
def Obligations.ResetLine : Prop :=
  (∀ (s : State) (t : Nat), s.m.power.powered = true →
    Becomes (.resetNSample true t) s { s.m.tick t with mod := { s.m.mod with
      rstLevel := true, highRun := 0, lowRun := s.m.mod.lowRun + 1
      lowFrom := if s.m.mod.lowRun = 0 then max s.m.now t else s.m.mod.lowFrom } }) ∧
  (∀ (s : State) (t : Nat), s.m.power.powered = true → (s.m.mod.lowRun = 0 ∨ 40 ≤ s.m.mod.lowRun) →
    Becomes (.resetNSample false t) s { s.m.tick t with mod := { s.m.mod with
      rstLevel := false, lowRun := 0, highRun := s.m.mod.highRun + 1
      highFrom := if s.m.mod.highRun = 0 then max s.m.now t else s.m.mod.highFrom } }) ∧
  (∀ (s : State) (t : Nat), s.m.power.powered = true → 1 ≤ s.m.mod.lowRun → s.m.mod.lowRun < 40 →
    Completes (.resetNSample false t) s (fun m =>
      m.mod.rstLevel = false ∧ m.mod.lowRun = 0 ∧ m.mod.highRun = s.m.mod.highRun + 1 ∧
      m.power.fifo = s.m.power.fifo.push 64 (mkNotice 0x1003 modPath
        (BitVec.ofNat 32 ((max s.m.now t - s.m.mod.lowFrom) / 1000000)) 0 none [ecSrc 0x07]) ∧
      { m with mod := s.m.mod, power := { m.power with fifo := s.m.power.fifo } } = s.m.tick t)) ∧
  (∀ (s : State) (t : Nat), s.m.power.powered = true → s.m.mod.asserted = false → 40 ≤ s.m.mod.lowRun →
    s.m.mod.lowFrom + 20000000 ≤ max s.m.now t → s.m.mod.mode ≠ .halt →
    Completes (.resetNAsserted t) s (fun m => m.mod.mode = .dormant ∧ m.mod.asserted = true ∧ m.mod.rstHeld = true ∧
      m.mod.assertAt = s.m.mod.lowFrom ∧ LanesHeld m ∧ Undriven m ∧ Unsent m ∧ m.sd = s.m.sd)) ∧
  (∀ (s : State) (t : Nat), s.m.power.powered = true → s.m.mod.asserted = false → 40 ≤ s.m.mod.lowRun →
    s.m.mod.lowFrom + 20000000 ≤ max s.m.now t → s.m.mod.mode = .halt →
    Becomes (.resetNAsserted t) s { s.m.tick t with mod := { s.m.mod with
      asserted := true, assertAt := s.m.mod.lowFrom, released := false, rstHeld := false } }) ∧
  (∀ (s : State) (t : Nat), s.m.power.powered = true → s.m.power.supplyOk = true → s.m.power.commanded = false →
    s.m.mod.mode = .dormant → s.m.mod.released = false → s.m.mod.asserted = true → 200 ≤ s.m.mod.highRun →
    s.m.mod.highFrom + 100000000 ≤ max s.m.now t → s.m.power.qualAt + 100000000 ≤ max s.m.now t →
    s.m.bench.upd.trial = none → s.m.bench.upd.armed = false → s.m.railsOk = true →
    Completes (.resetNReleased t) s (fun m => m.mod.mode = .boot ∧ m.mod.released = true ∧ m.mod.asserted = false ∧
      m.mod.rstCount = satInc s.m.mod.rstCount ∧
      m.mod.rstLastMs = BitVec.ofNat 32 ((s.m.mod.highFrom - s.m.mod.assertAt) / 1000000) ∧
      m.mod.bootAt = max s.m.now t ∧ m.sd = none ∧
      (s.m.bench.test.token0 = none → s.m.bench.test.token1 = none → m.mod.bootKind = 2))) ∧
  (∀ (s : State) (t : Nat), s.m.power.powered = true → s.m.mod.mode = .dormant → s.m.mod.released = false →
    s.m.mod.asserted = false → 200 ≤ s.m.mod.highRun → s.m.mod.highFrom + 100000000 ≤ max s.m.now t →
    s.m.power.qualAt + 100000000 ≤ max s.m.now t → s.m.railsOk = false →
    Becomes (.resetNReleased t) s { s.m.tick t with mod := { s.m.mod with released := true } }) ∧
  (∀ (s : State) (t : Nat), s.m.power.powered = true → s.m.mod.mode ≠ .dormant → s.m.mod.released = false →
    s.m.mod.asserted = false → 200 ≤ s.m.mod.highRun → s.m.mod.highFrom + 100000000 ≤ max s.m.now t →
    s.m.power.qualAt + 100000000 ≤ max s.m.now t →
    Becomes (.resetNReleased t) s { s.m.tick t with mod := { s.m.mod with released := true } }) ∧
  (∀ (s : State) (t : Nat), s.m.mod.asserted = true → s.m.mod.rstLevel = true → s.m.mod.rstStuck = false →
    s.m.mod.assertAt + 30000000000 ≤ max s.m.now t →
    Completes (.resetStuck t) s (fun m => m.mod = { s.m.mod with rstStuck := true } ∧
      (memRead 0 m.irq (pageNo modPath)).getLsbD 10 = true ∧
      { m with mod := s.m.mod, irq := s.m.irq, power := s.m.power } = s.m.tick t))

/-- R22, R25, R26, R419: rails, the Bench's stops and starts, and its clock. The supervisor's 1.0 ms after a rail's
return and the start instant of the count are readings of the model (log entry 57 and 70). The model's choices that it
names stand in log 121. -/
def Obligations.RailCommands : Prop :=
  (∀ (s : State) (l : LaneId) (t : Nat), s.m.power.powered = true → (s.m.lane l).agr.railBad = false → s.m.life l ≠ .out →
    s.m.mod.mode ≠ .halt →
    Completes (.laneRailOutOfWindow l t) s (fun m => m.life l = .out ∧ (m.lane l).agr.held = true ∧
      (m.lane l).agr.railBad = true ∧ (m.lane l).agr.outCause = 0x29 ∧ (m.lane l).drive.windings = 0 ∧
      (m.mod.mode ≠ .halt → ∀ k, k ≠ l → m.life k = s.m.life k))) ∧
  (∀ (s : State) (l : LaneId) (t : Nat), s.m.power.powered = true → (s.m.lane l).agr.railBad = false → s.m.life l = .out →
    s.m.mod.mode ∈ [.boot, .config] → (s.m.lane l).agr.held = false →
    Completes (.laneRailOutOfWindow l t) s (fun m => m.life l = .out ∧ (m.lane l).agr.held = true ∧
      (m.lane l).agr.railBad = true ∧ (m.lane l).agr.outCause = 0x29 ∧
      (m.lane l).agr.outs = satInc (s.m.lane l).agr.outs ∧ ∀ k, k ≠ l → (m.lane k).agr = (s.m.lane k).agr)) ∧
  (∀ (s : State) (l : LaneId) (t : Nat), s.m.power.powered = true → (s.m.lane l).agr.railBad = false → s.m.life l = .out →
    (s.m.lane l).agr.held = true →
    Completes (.laneRailOutOfWindow l t) s (fun m => OnlyLane l s.m m ∧
      m.lane l = { s.m.lane l with agr := { (s.m.lane l).agr with railBad := true, held := true, waiting := false } })) ∧
  (∀ (s : State) (l : LaneId) (t : Nat), (s.m.lane l).agr.railBad = true → s.m.mod.mode ≠ .dormant →
    Completes (.laneRailReturn l t) s (fun m => OnlyLane l s.m m ∧
      m.lane l = { s.m.lane l with agr := { (s.m.lane l).agr with
        railBad := false, resetAt := max s.m.now t
        inReset := s.m.life l == .out && s.m.mod.mode != .halt } })) ∧
  (∀ (s : State) (l : LaneId) (t : Nat), (s.m.lane l).agr.railBad = true → s.m.mod.mode = .dormant →
    Completes (.laneRailReturn l t) s (fun m => (m.lane l).agr = { (s.m.lane l).agr with
        railBad := false, resetAt := max s.m.now t, inReset := false } ∧
      m.power = { s.m.power with qualAt := max s.m.now t } ∧ m.mod = { s.m.mod with released := false, highRun := 0 } ∧
      ∀ k, k ≠ l → m.lane k = s.m.lane k)) ∧
  (∀ (s : State) (c : RailFault) (t : Nat), s.m.power.powered = true → s.m.mod.mode ≠ .halt →
    Completes (.callipersRailFault c t) s (fun m => m.mod.mode = .halt ∧ m.mod.haltCause = 0x07 ∧ m.mod.haltSrc = 5 ∧
      LanesHeld m ∧ Undriven m ∧ Unsent m ∧ m.bench.test.token0 = none ∧ m.bench.test.token1 = none)) ∧
  (∀ (s : State) (t : Nat), Completes (.benchRailFault t) s (fun m => m.bench.up = false ∧
      { m with bench := (s.m.tick t).benchTick.bench } = (s.m.tick t).benchTick)) ∧
  (∀ (s : State) (t : Nat), Completes (.benchWatchdog t) s (fun m => m.bench.up = false ∧
      { m with bench := (s.m.tick t).benchTick.bench } = (s.m.tick t).benchTick)) ∧
  (∀ (s : State) (c : BenchCause) (ram : Option (List (Nat × Byte))) (t : Nat), s.m.power.powered = true → s.m.bench.up = false →
    Completes (.benchStart c ram t) s (fun m => m.bench.up = true ∧ m.bench.host.host = none ∧ m.bench.mnt.sessions = [] ∧
      m.bench.host.mailbox = s.m.bench.host.mailbox ∧ m.bench.upd.state = 0 ∧
      m.lanes = s.m.lanes ∧ m.cal = s.m.cal ∧ m.field = s.m.field ∧ m.mod.mode = s.m.mod.mode ∧ m.sd = s.m.sd)) ∧
  (∀ (s : State) (t t0 : Nat), s.m.power.powered = false → s.m.power.lossAt = some t0 → t0 + 360000000000000 ≤ max s.m.now t →
    Becomes (.benchClockLost t) s { s.m.tick t with bench := { s.m.bench with
      secs := 0, secsAt := max s.m.now t, epoch := s.m.bench.epoch + 1, clkLost := true, clkStopped := true
      test := { s.m.bench.test with passedAt := ⟨none, none, none⟩, expiredAt := some 0, dueAt := ⟨0, 0, 0⟩ } } }) ∧
  (∀ (s : State) (t : Nat), s.m.power.carrierOn = true →
    Completes (.carrierSupplyShort t) s (fun m =>
      m.power = { s.m.power with carrierOn := false, carrierShort := true, carrierAt := max s.m.now t } ∧
      (∀ i ∈ [RingId.r1, RingId.r2], ∀ d ∈ [Dir.east, Dir.west], ((s.m.ring i).port d).fx = true →
        ((m.ring i).port d).up = false) ∧
      (∀ i ∈ [RingId.r1, RingId.r2], ∀ d ∈ [Dir.east, Dir.west], ((s.m.ring i).port d).fx = false →
        (m.ring i).port d = (s.m.ring i).port d) ∧ m.mod = s.m.mod ∧ m.bench = s.m.bench)) ∧
  (∀ (s : State) (gone : Bool) (t : Nat), s.m.power.carrierShort = true → s.m.power.carrierAt + 1000000000 ≤ max s.m.now t →
    Becomes (.carrierSupplyRetry gone t) s { s.m.tick t with power := { s.m.power with
      carrierOn := gone, carrierShort := !gone, carrierAt := max s.m.now t } }) ∧
  (∀ (s : State) (gone : Bool) (t : Nat), (s.m.power.carrierShort = false ∨ max s.m.now t < s.m.power.carrierAt + 1000000000) →
    Becomes (.carrierSupplyRetry gone t) s (s.m.tick t))

/-- R400, R401, R496: BOOT's ends. The counter position of a failed quick injection follows R496 (log entry 57). -/
def Obligations.BootCommands : Prop :=
  (∀ (s : State) (r : BootReport) (t : Nat), s.m.mod.mode = .boot → s.m.mod.bootKind = 1 →
    (∀ l ∈ laneIds, bootFirmwareOk (bootReportOf r l) = true ∧ (bootReportOf r l).injectionOk = true) →
    r.callipersOk = true → r.supervisorOk = true →
    Completes (.bootComplete r t) s (fun m => m.mod.mode = .config ∧ m.mod.configAt = max s.m.now t ∧
      m.mod.failedBoots = 0 ∧ m.mod.configHeld = (s.m.bench.upd.running .stationData).isNone ∧ Undriven m ∧
      ∀ l, m.life l = s.m.life l)) ∧
  (∀ (s : State) (r : BootReport) (l : LaneId) (t : Nat), s.m.mod.mode = .boot → s.m.mod.bootKind = 1 →
    (∀ k ∈ laneIds, s.m.startsUp k = true ∧ bootFirmwareOk (bootReportOf r k) = true ∧
      ((bootReportOf r k).injectionOk = true ↔ k ≠ l)) → r.callipersOk = true → r.supervisorOk = true →
    Completes (.bootComplete r t) s (fun m => m.mod.mode = .config ∧ m.life l = .out ∧ (m.lane l).agr.held = true ∧
      (m.lane l).agr.outCause = 0x21 ∧ m.bench.test.token0 = none ∧ m.bench.test.token1 = none)) ∧
  (∀ (s : State) (r : BootReport) (t : Nat), s.m.mod.mode = .boot → s.m.mod.bootKind = 1 →
    (∀ l ∈ laneIds, bootFirmwareOk (bootReportOf r l) = true) → (r.callipersOk = false ∨ r.supervisorOk = false) →
    Completes (.bootComplete r t) s (fun m => m.mod.mode = .halt ∧ m.mod.haltCause = 0x08 ∧ LanesHeld m ∧ Undriven m ∧
      Unsent m)) ∧
  (∀ (s : State) (r : BootReport) (t : Nat), s.m.mod.mode = .boot →
    (s.m.mod.bootKind ≠ 2 ∨ (s.m.bench.test.judged = false ∧ s.m.mod.bootAt + 2220000000 ≤ max s.m.now t)) →
    (∀ l ∈ laneIds, bootFirmwareOk (bootReportOf r l) = false ∧ s.m.startsUp l = true) →
    s.m.bench.upd.trial = none → s.m.bench.upd.armed = false → s.m.mod.failedBoots < 2 →
    Completes (.bootComplete r t) s (fun m => m.mod.mode = .boot ∧ m.mod.failedBoots = s.m.mod.failedBoots + 1 ∧
      m.mod.bootAt = max s.m.now t)) ∧
  (∀ (s : State) (r : BootReport) (t : Nat), s.m.mod.mode = .boot → s.m.mod.bootKind = 2 → max s.m.now t < s.m.mod.bootAt + 2220000000 →
    Becomes (.bootComplete r t) s (s.m.tick t)) ∧
  (∀ (s : State) (r : BootReport) (t : Nat), s.m.mod.mode = .boot → s.m.mod.bootKind = 2 → s.m.bench.test.judged = false →
    s.m.mod.bootAt + 2220000000 ≤ max s.m.now t →
    (∀ l ∈ laneIds, bootFirmwareOk (bootReportOf r l) = true ∧ s.m.startsUp l = true ∧ s.m.life l = .out) →
    (∀ b ∈ blocks, (s.m.updTest (fun x => { x with results := r.blocks })).blockPassed b = true) →
    Completes (.bootComplete r t) s (fun m =>
      m.mod.mode = (if s.m.mod.bootAt + 2380000000 ≤ max s.m.now t then Mode.config else .boot) ∧ m.bench.test.judged = true ∧
      m.bench.test.lastKind = 2 ∧ m.bench.test.lastResult = 1 ∧ m.bench.test.lastBlock = 0 ∧ m.bench.test.anyMark = false ∧
      m.bench.test.token0.isSome = true ∧ m.bench.test.token1 = m.bench.test.token0)) ∧
  (∀ (s : State) (r : BootReport) (t : Nat), s.m.mod.mode = .boot → s.m.mod.bootKind = 2 → s.m.bench.test.judged = true →
    s.m.mod.bootAt + 2380000000 ≤ max s.m.now t → 2 ≤ s.m.bootLanes.length →
    Completes (.bootComplete r t) s (fun m => m.mod.mode = .config ∧ m.mod.failedBoots = 0 ∧ m.bench.test = s.m.bench.test)) ∧
  (∀ (s : State) (c : BootFail) (t : Nat), s.m.mod.mode = .boot → s.m.bench.upd.trial = none →
    s.m.bench.upd.armed = false → s.m.mod.failedBoots < 2 →
    Completes (.bootFailed c t) s (fun m => m.mod.mode = .boot ∧ m.mod.failedBoots = s.m.mod.failedBoots + 1 ∧
      m.mod.bootAt = max s.m.now t)) ∧
  (∀ (s : State) (c : BootFail) (t : Nat), s.m.mod.mode = .boot → s.m.bench.upd.trial = none →
    2 ≤ s.m.mod.failedBoots →
    Completes (.bootFailed c t) s (fun m => m.mod.mode = .halt ∧ m.mod.haltCause = 0x09 ∧ LanesHeld m ∧ Undriven m ∧
      Unsent m)) ∧
  (∀ (s : State) (t : Nat), s.m.mod.mode = .boot → s.m.bench.upd.trial = none → s.m.bench.upd.armed = false →
    s.m.mod.failedBoots < 2 →
    s.m.mod.bootAt + (if s.m.mod.bootKind = 1 then 1000000000 else 3500000000) < max s.m.now t →
    Completes (.bootTimeout t) s (fun m => m.mod.mode = .boot ∧ m.mod.failedBoots = s.m.mod.failedBoots + 1 ∧
      m.mod.bootAt = max s.m.now t))

/-- R402, R403, R410, R494: CONFIG and the watch over JOIN. The model's choices that it names stand in logs 53, 54. -/
def Obligations.ConfigCommands : Prop :=
  (∀ (s : State) (sd : StationData) (v : ConfigVerdict) (t : Nat), s.m.mod.mode = .config →
    (s.m.tick t).configOn sd.id = true → setRefusal (s.m.tick t) sd v = none →
    (∀ l ∈ laneIds, s.m.configures l = true ∧ laneFinding (s.m.tick t) sd v l = none) →
    Completes (.configAccept sd v t) s (fun m => m.mod.mode = .join ∧ m.mod.joinAt = max s.m.now t ∧ m.sd = some sd ∧
      m.mod.cfgLanes = 0 ∧ m.pair.role = (if sd.pair.paired then .joining else .none) ∧
      ∀ l, m.life l = .voting ∧ (m.lane l).mem.header = some (imageHeader (imageOf sd (s.m.grain l))) ∧
        (m.lane l).mem.needsInit = true ∧ (m.lane l).cop.cycleMs = BitVec.ofNat 7 sd.settings.cycleMs ∧
        (m.lane l).cop.rows = BitVec.ofNat 20 (imageHeader (imageOf sd (s.m.grain l))).rows ∧
        (m.lane l).t0 = max s.m.now t - sd.settings.cycleMs * 1000000 ∧ (m.lane l).phase = .asleep)) ∧
  (∀ (s : State) (sd : StationData) (v : ConfigVerdict) (t : Nat) (r : SetRefusal), s.m.mod.mode = .config →
    (s.m.tick t).configOn sd.id = true → setRefusal (s.m.tick t) sd v = some r → s.m.bench.upd.trial = none →
    s.m.bench.upd.onTrial .firmware = false → s.m.bench.upd.onTrial .stationData = false →
    Completes (.configRefuse sd v t) s (fun m => m.mod.mode = .config ∧ m.mod.configHeld = true ∧ m.mod.cfgCause = r.cause ∧
      m.mod.cfgUnit = BitVec.ofNat 8 r.unit ∧ m.sd = s.m.sd ∧ Undriven m)) ∧
  (∀ (s : State) (t : Nat), s.m.mod.mode = .config → s.m.mod.configHeld = false →
    s.m.mod.configAt + 1000000000 ≤ max s.m.now t → s.m.bench.upd.onTrial .firmware = false →
    s.m.bench.upd.onTrial .stationData = false →
    Completes (.configTimeout t) s (fun m => m.mod.mode = .config ∧ m.mod.configHeld = true ∧ m.mod.cfgCause = 0x11 ∧
      m.mod.cfgUnit = 0 ∧ m.mod.cfgLanes = 0 ∧ m.sd = s.m.sd)) ∧
  (∀ (s : State) (t : Nat), s.m.mod.mode = .join →
    s.m.mod.joinAt + 10000000000 + s.m.mod.joinEvents * 60000000000 ≤ max s.m.now t →
    Completes (.joinStallEvent t) s (fun m => m.mod = { s.m.mod with joinEvents := s.m.mod.joinEvents + 1 } ∧
      (∀ l, { m.lane l with queue := (s.m.lane l).queue } = s.m.lane l) ∧
      { m with mod := s.m.mod, lanes := s.m.lanes, power := s.m.power } = s.m.tick t))

/-- R119, R126, R128: the marks of the timetable. The model's choices that it names stand in log 45. -/
def Obligations.TimetableFaults : Prop :=
  (∀ (s : State) (l : LaneId) (t : Nat), s.m.mod.mode ≠ .halt → s.m.life l ≠ .out → (s.m.lane l).awake = true →
    (s.m.lane l).phase = .wake → (s.m.lane l).t0 + 20000 ≤ max s.m.now t →
    Completes (.pllLockTimeout l t) s (LaneFault l 0x01 s.m)) ∧
  (∀ (s : State) (l : LaneId) (t : Nat), s.m.mod.mode ≠ .halt → s.m.life l ≠ .out → (s.m.lane l).awake = true →
    (s.m.lane l).sampled = false → (s.m.lane l).phase ∈ [.wake, .sampling] → (s.m.lane l).t0 + 45000 ≤ max s.m.now t →
    Completes (.samplingDeadline l t) s (LaneFault l 0x02 s.m)) ∧
  (∀ (s : State) (l : LaneId) (t : Nat), s.m.mod.mode ≠ .halt → s.m.life l ≠ .out → (s.m.lane l).awake = true →
    ((s.m.lane l).xch.ownSent = false ∨ (s.m.lane l).xch.mapped = false) →
    (s.m.lane l).phase ∈ [.wake, .sampling, .exchange] → (s.m.lane l).t0 + 108000 ≤ max s.m.now t →
    Completes (.exchangeDeadline l t) s (LaneFault l 0x03 s.m)) ∧
  (∀ (s : State) (l : LaneId) (k t : Nat), s.m.mod.mode ≠ .halt → s.m.life l ≠ .out → (s.m.lane l).awake = true →
    (s.m.lane l).mayRun = true → (s.m.lane l).phase ∈ [.wake, .sampling, .exchange, .run] → k ∈ [1, 2, 3] → 2 * ((s.m.lane l).t0 + 110000) + checkRow (s.m.lane l).cop.rows.toNat k * 5 ≤ 2 * max s.m.now t →
    ((s.m.lane l).cop.rowPtr.toNat + 4 < checkRow (s.m.lane l).cop.rows.toNat k ∨
      checkRow (s.m.lane l).cop.rows.toNat k + 4 < (s.m.lane l).cop.rowPtr.toNat) →
    Completes (.progressCheckpoint l k t) s (LaneFault l 0x07 s.m)) ∧
  (∀ (s : State) (l : LaneId) (k t : Nat), (s.m.lane l).cop.rowPtr.toNat ≤ checkRow (s.m.lane l).cop.rows.toNat k + 4 →
    checkRow (s.m.lane l).cop.rows.toNat k ≤ (s.m.lane l).cop.rowPtr.toNat + 4 →
    Becomes (.progressCheckpoint l k t) s (s.m.tick t)) ∧
  (∀ (s : State) (l : LaneId) (t : Nat), s.m.mod.mode ≠ .halt → s.m.life l ≠ .out → (s.m.lane l).awake = true →
    (s.m.lane l).phase ∈ [.wake, .sampling, .exchange, .run] → (s.m.lane l).t0 + s.m.evalDl ≤ max s.m.now t →
    Completes (.evaluationDeadline l t) s (LaneFault l 0x08 s.m)) ∧
  (∀ (s : State) (l : LaneId) (t : Nat), (s.m.lane l).phase ∈ [.handover, .mirror, .sleepEntry, .asleep] →
    Becomes (.evaluationDeadline l t) s (s.m.tick t)) ∧
  (∀ (s : State) (l : LaneId) (t : Nat), s.m.mod.mode ≠ .halt → s.m.life l ≠ .out → (s.m.lane l).awake = true →
    (s.m.lane l).phase ∈ [.wake, .sampling, .exchange, .run, .handover] →
    (s.m.lane l).t0 + s.m.evalDl + 400000 ≤ max s.m.now t →
    Completes (.handoverDeadline l t) s (LaneFault l 0x0A s.m)) ∧
  (∀ (s : State) (l : LaneId) (t : Nat), s.m.mod.mode ≠ .halt → s.m.life l ≠ .out → (s.m.lane l).awake = true →
    (s.m.lane l).phase = .mirror → (s.m.lane l).t0 + s.m.cycleNs * 9 / 10 ≤ max s.m.now t →
    Completes (.mirrorDeadline l t) s (LaneFault l 0x0C s.m))

/-- R74: GATE and STORE rows (R72, R75, R79). -/
def Obligations.GateAndStoreRows : Prop :=
  (∀ (s : State) (l : LaneId) (f : Fetch) (t : Nat) (w : W64), (s.m.lane l).cop.active = true →
    (s.m.lane l).cop.ended = false → s.m.life l ≠ .out →
    fetched f (memRead 0 (s.m.lane l).mem.table (s.m.lane l).cop.next) = some w → rowClass w = 1 → reservedOk w = true →
    Completes (.gate l f false t) s (fun m => OnlyLane l s.m m ∧ (m.lane l).mem = (s.m.lane l).mem ∧
      (m.lane l).cop = { (s.m.lane l).cop with
        next := (s.m.lane l).cop.next + 1, rowPtr := BitVec.ofNat 20 (s.m.lane l).cop.next
        acc := (rowField w 59 52).testBit (4 * bitOf (s.m.lane l).cop.acc +
          2 * bitOf ((s.m.lane l).mem.workBit (s.m.grain l) (rowField w 49 32)) +
          bitOf ((s.m.lane l).mem.workBit (s.m.grain l) (rowField w 29 12))) })) ∧
  (∀ (s : State) (l : LaneId) (f : Fetch) (t : Nat) (w : W64), (s.m.lane l).cop.active = true →
    (s.m.lane l).cop.ended = false → s.m.life l ≠ .out →
    fetched f (memRead 0 (s.m.lane l).mem.table (s.m.lane l).cop.next) = some w → rowClass w = 2 → reservedOk w = true →
    Completes (.storeRow l f false t) s (fun m => OnlyLane l s.m m ∧
      (m.lane l).mem.workBit (s.m.grain l) (rowField w 29 12) = (rowField w 59 52).testBit (4 * bitOf (s.m.lane l).cop.acc +
        2 * bitOf ((s.m.lane l).mem.workBit (s.m.grain l) (rowField w 49 32)) +
        bitOf ((s.m.lane l).mem.workBit (s.m.grain l) (rowField w 29 12))) ∧
      (∀ a, a ≠ rowField w 29 12 →
        (m.lane l).mem.workBit (s.m.grain l) a = (s.m.lane l).mem.workBit (s.m.grain l) a) ∧
      (∀ k, (m.lane l).mem.doneWord (s.m.grain l) k = (s.m.lane l).mem.doneWord (s.m.grain l) k) ∧
      (m.lane l).mem.timers = (s.m.lane l).mem.timers ∧
      (m.lane l).cop = { (s.m.lane l).cop with
        next := (s.m.lane l).cop.next + 1, rowPtr := BitVec.ofNat 20 (s.m.lane l).cop.next }))

/-- R90, R91, R102, R111: TIMER and END rows. -/
def Obligations.TimerAndEndRows : Prop :=
  (∀ (s : State) (l : LaneId) (f : Fetch) (t : Nat) (w : W64), s.m.grain l ≠ .counter → (s.m.lane l).cop.active = true →
    (s.m.lane l).cop.ended = false → s.m.life l ≠ .out →
    fetched f (memRead 0 (s.m.lane l).mem.table (s.m.lane l).cop.next) = some w → rowClass w = 3 → reservedOk w = true →
    Completes (.timerRow l f false t) s (fun m => OnlyLane l s.m m ∧
      (m.lane l).mem.cell (s.m.grain l) (rowField w 39 26) = (if (s.m.lane l).cop.acc then
        setBit ((s.m.lane l).mem.cell (s.m.grain l) (rowField w 39 26)) 31 true else 0) ∧
      (m.lane l).mem.workBit (s.m.grain l) (rowField w 25 8) = ((s.m.lane l).cop.acc &&
        decide (10 * rowField w 59 40 ≤ ((s.m.lane l).mem.cell (s.m.grain l) (rowField w 39 26)).toNat % 2 ^ 24)) ∧
      (∀ k, k ≠ rowField w 39 26 → (m.lane l).mem.cell (s.m.grain l) k = (s.m.lane l).mem.cell (s.m.grain l) k) ∧
      (∀ a, a ≠ rowField w 25 8 →
        (m.lane l).mem.workBit (s.m.grain l) a = (s.m.lane l).mem.workBit (s.m.grain l) a) ∧
      (m.lane l).cop = { (s.m.lane l).cop with
        next := (s.m.lane l).cop.next + 1, rowPtr := BitVec.ofNat 20 (s.m.lane l).cop.next })) ∧
  (∀ (s : State) (l : LaneId) (f : Fetch) (t : Nat) (w : W64), s.m.grain l = .counter → (s.m.lane l).cop.active = true →
    (s.m.lane l).cop.ended = false → s.m.life l ≠ .out →
    fetched f (memRead 0 (s.m.lane l).mem.table (s.m.lane l).cop.next) = some w → rowClass w = 3 → reservedOk w = true →
    Completes (.timerRow l f false t) s (fun m => OnlyLane l s.m m ∧
      (m.lane l).mem.cell .counter (rowField w 39 26) = (if (s.m.lane l).cop.acc then BitVec.allOnes 32 else
        setBit ((s.m.lane l).mem.cell .counter (rowField w 39 26)) 31 false) ∧
      (m.lane l).mem.workBit .counter (rowField w 25 8) = ((s.m.lane l).cop.acc ||
        decide ((~~~((s.m.lane l).mem.cell .counter (rowField w 39 26))).toNat % 2 ^ 24 <
          10 * (0xFFFFF - rowField w 59 40))))) ∧
  (∀ (s : State) (l : LaneId) (f : Fetch) (t : Nat) (w : W64) (h : ImageHeader), (s.m.lane l).cop.active = true →
    (s.m.lane l).cop.ended = false → s.m.life l ≠ .out → (s.m.lane l).mem.header = some h →
    fetched f (memRead 0 (s.m.lane l).mem.table (s.m.lane l).cop.next) = some w → rowClass w = 14 → reservedOk w = true →
    rowField w 59 40 = (s.m.lane l).cop.next → rowField w 39 38 = grainCode (s.m.grain l) →
    (∀ k, k < 16384 → trueCell (s.m.grain l) h (cellAddr (s.m.grain l) h k) = k) →
    Completes (.endRow l f false t) s (fun m => OnlyLane l s.m m ∧
      (m.lane l).cop = { (s.m.lane l).cop with
        ended := true, next := (s.m.lane l).cop.next + 1, rowPtr := BitVec.ofNat 20 (s.m.lane l).cop.next } ∧
      (∀ k, k < 16384 → (m.lane l).trueCellWord (s.m.grain l) k =
        if k < (s.m.lane l).cop.timers.toNat ∧ ((s.m.lane l).trueCellWord (s.m.grain l) k).getLsbD 31 = true then
          BitVec.ofNat 32 (((s.m.lane l).trueCellWord (s.m.grain l) k).toNat / 2 ^ 24 * 2 ^ 24 +
            min 0xFFFFFF (((s.m.lane l).trueCellWord (s.m.grain l) k).toNat % 2 ^ 24 + s.m.cycleMs))
        else (s.m.lane l).trueCellWord (s.m.grain l) k) ∧
      (∀ k, (m.lane l).mem.workWord (s.m.grain l) k = (s.m.lane l).mem.workWord (s.m.grain l) k)))
/-- R78, R79, R110, R128: a row that cannot be executed is a lane fault. -/
def Obligations.RowFaults : Prop :=
  (∀ (s : State) (l : LaneId) (d : Bool) (t : Nat), s.m.mod.mode ≠ .halt → (s.m.lane l).cop.active = true →
    (s.m.lane l).cop.ended = false → s.m.life l ≠ .out →
    Completes (.gate l .uncorrectable d t) s (LaneFault l 0x06 s.m) ∧
    Completes (.storeRow l .uncorrectable d t) s (LaneFault l 0x06 s.m) ∧
    Completes (.timerRow l .uncorrectable d t) s (LaneFault l 0x06 s.m) ∧
    Completes (.endRow l .uncorrectable d t) s (LaneFault l 0x06 s.m)) ∧
  (∀ (s : State) (l : LaneId) (f : Fetch) (d : Bool) (t : Nat) (w : W64), s.m.mod.mode ≠ .halt →
    (s.m.lane l).cop.active = true → (s.m.lane l).cop.ended = false → s.m.life l ≠ .out →
    fetched f (memRead 0 (s.m.lane l).mem.table (s.m.lane l).cop.next) = some w →
    (rowClass w ∉ [1, 2, 3, 14] ∨ reservedOk w = false) →
    Completes (.gate l f d t) s (LaneFault l 0x04 s.m) ∧ Completes (.storeRow l f d t) s (LaneFault l 0x04 s.m) ∧
    Completes (.timerRow l f d t) s (LaneFault l 0x04 s.m) ∧ Completes (.endRow l f d t) s (LaneFault l 0x04 s.m)) ∧
  (∀ (s : State) (l : LaneId) (f : Fetch) (d : Bool) (t : Nat) (w : W64), s.m.mod.mode ≠ .halt →
    (s.m.lane l).cop.active = true → (s.m.lane l).cop.ended = false → s.m.life l ≠ .out →
    fetched f (memRead 0 (s.m.lane l).mem.table (s.m.lane l).cop.next) = some w → rowClass w = 14 → reservedOk w = true →
    (rowField w 59 40 ≠ (s.m.lane l).cop.next ∨ rowField w 39 38 ≠ grainCode (s.m.grain l)) →
    Completes (.endRow l f d t) s (LaneFault l 0x05 s.m)) ∧
  (∀ (s : State) (l : LaneId) (f : Fetch) (t : Nat) (w : W64), s.m.mod.mode ≠ .halt →
    (s.m.lane l).cop.active = true → (s.m.lane l).cop.ended = false → s.m.life l ≠ .out →
    fetched f (memRead 0 (s.m.lane l).mem.table (s.m.lane l).cop.next) = some w → rowClass w = 1 → reservedOk w = true →
    Completes (.gate l f true t) s (LaneFault l 0x0B s.m))

/-- R113, R115, R125, R128, R183: T0. The order in which lanes reach one cycle's T0 is the senders'; the instant
tolerance is the model's reading (log 37). The model's choices that it names stand in log 52. -/
def Obligations.CycleStart : Prop :=
  (∀ (s : State) (l : LaneId) (dev : Int) (t : Nat), s.m.evaluates = true → s.m.life l = .voting →
    (s.m.tick t).phaseOf l = .asleep → (s.m.lane l).cop.holdSrc = 0 → (s.m.tick t).boundaryNumber = none →
    (s.m.lane l).t0 + s.m.cycleNs ≤ max s.m.now t + s.m.cycleNs * 3 / 10000 →
    max s.m.now t ≤ (s.m.lane l).t0 + s.m.cycleNs + s.m.cycleNs * 3 / 10000 →
    s.m.cal.vote.cycle = (s.m.lane l).cop.cycleNo + 1 → (s.m.lane l).snd.bringForward = false → -50 ≤ dev → dev ≤ 50 →
    Completes (.cycleT0 l dev t) s (fun m => (m.lane l).cop.cycleNo = (s.m.lane l).cop.cycleNo + 1 ∧
      (m.lane l).t0 = max s.m.now t ∧ (m.lane l).phase = .wake ∧ (m.lane l).awake = true ∧ (m.lane l).sampled = false ∧
      (m.lane l).xch.images = ⟨none, none, none⟩ ∧ m.life l = .voting ∧ m.mod = s.m.mod ∧
      (∀ k, k ≠ l → m.lane k = s.m.lane k) ∧
      { m with now := s.m.now, lanes := s.m.lanes, bench := s.m.bench, cal := s.m.cal, irq := s.m.irq, field := s.m.field } = s.m ∧
      { m.field with fsm := s.m.field.fsm } = s.m.field ∧
      m.cal.vote = s.m.cal.vote)) ∧
  (∀ (s : State) (l : LaneId) (dev : Int) (t : Nat) (n : W32), s.m.evaluates = true → s.m.life l = .voting →
    (s.m.tick t).phaseOf l = .asleep → (s.m.lane l).aligned = false → (s.m.lane l).cop.holdSrc = 0 →
    (s.m.tick t).boundaryNumber = some n → s.m.cal.vote.cycle = n → s.m.mod.aligned = true →
    (s.m.lane l).snd.bringForward = false → -50 ≤ dev → dev ≤ 50 →
    Completes (.cycleT0 l dev t) s (fun m => (m.lane l).cop.cycleNo = n ∧ (m.lane l).aligned = true ∧
      (m.lane l).t0 = max s.m.now t ∧ (m.lane l).phase = .wake ∧ ∀ k, k ≠ l → m.lane k = s.m.lane k)) ∧
  (∀ (s : State) (l : LaneId) (dev : Int) (t : Nat), s.m.mod.mode = .service → s.m.paired = false →
    (∀ k, s.m.life k = .voting ∧ (s.m.lane k).snd.bringForward = false) → s.m.mod.cmd = none →
    s.m.bench.test.request = none → s.m.bench.upd.phase = 0 →
    (s.m.tick t).phaseOf l = .asleep → (s.m.lane l).cop.holdSrc = 0 → (s.m.tick t).boundaryNumber = none →
    (s.m.lane l).t0 + s.m.cycleNs ≤ max s.m.now t + s.m.cycleNs * 3 / 10000 →
    max s.m.now t ≤ (s.m.lane l).t0 + s.m.cycleNs + s.m.cycleNs * 3 / 10000 →
    s.m.cal.vote.cycle ≠ (s.m.lane l).cop.cycleNo + 1 → -50 ≤ dev → dev ≤ 50 →
    Completes (.cycleT0 l dev t) s (fun m => (m.lane l).cop.cycleNo = (s.m.lane l).cop.cycleNo + 1 ∧
      (m.lane l).phase = .wake ∧ (m.lane l).t0 = max s.m.now t ∧ m.cal.vote.cycle = (s.m.lane l).cop.cycleNo + 1 ∧
      m.cal.vote.slots = [] ∧ m.cal.vote.released = [] ∧ m.cal.vote.ended = 0 ∧ m.cal.vote.reported = false ∧
      m.mod = s.m.mod ∧ ∀ k, k ≠ l → m.lane k = s.m.lane k)) ∧
  (∀ (s : State) (l : LaneId) (dev : Int) (t : Nat), s.m.evaluates = true → s.m.life l = .voting →
    ((s.m.tick t).phaseOf l ∈ [.wake, .sampling, .exchange, .run, .handover, .mirror] ∨
      ((s.m.tick t).phaseOf l = .sleepEntry ∧ (s.m.lane l).cop.holdSrc = 0)) → (s.m.tick t).boundaryNumber = none →
    (s.m.lane l).t0 + s.m.cycleNs ≤ max s.m.now t + s.m.cycleNs * 3 / 10000 →
    Completes (.cycleT0 l dev t) s (fun m => LaneFault l 0x0D s.m m))
/-- R87, R93, R95, R193, R194: sampling. -/
def Obligations.SampledInputs : Prop :=
  (∀ (s : State) (l : LaneId) (t : Nat) (sd : StationData), s.m.sd = some sd → s.m.life l ≠ .out → (s.m.lane l).awake = true →
    (s.m.lane l).phase = .wake → (s.m.lane l).t0 + 20000 ≤ max s.m.now t →
    Completes (.inputSample l t) s (fun m => (m.lane l).phase = .sampling ∧ (m.lane l).sampled = true ∧
      (∀ k, (m.lane l).capHi.getD k false = false ∧ (m.lane l).capLo.getD k false = false) ∧
      (m.lane l).xch.orBits = [] ∧
      (s.m.mod.mode = .join → (m.lane l).xch.sampled = memOfBits sd.restrictIn) ∧ (m.lane l).xch.sysBits.getLsbD 1 = true ∧
      (m.lane l).xch.sysBits.getLsbD 2 = (s.m.lane l).mem.needsInit ∧
      (m.lane l).xch.sysBits.getLsbD 4 = (s.m.mod.mode == .commission) ∧
      (m.lane l).xch.sysBits.getLsbD 5 = (s.m.mod.mode == .maintain) ∧
      (m.lane l).mem = (s.m.lane l).mem ∧ m.mod = s.m.mod ∧ ∀ k, k ≠ l → (m.lane k).xch = (s.m.lane k).xch)) ∧
  (∀ (s : State) (l : LaneId) (t a ch : Nat) (sd : StationData) (f : DiFrame) (tf tm : Nat), s.m.sd = some sd →
    s.m.mod.mode ≠ .join → s.m.life l ≠ .out → (s.m.lane l).awake = true → (s.m.lane l).phase = .wake →
    (s.m.lane l).t0 + 20000 ≤ max s.m.now t → (a, InputSrc.di ch) ∈ sd.inputs →
    (∀ p ∈ sd.inputs, p.1 = a → p = (a, InputSrc.di ch)) → a ∉ (s.m.lane l).xch.orBits →
    (sd.di[ch]?).any (fun c => c.capt == 0 && !c.enc) = true → (s.m.lane l).di[ch]? = some f → f.valid = true →
    f.checkOk = true → f.at0 = some tf → max s.m.now t ≤ tf + 100000 → max s.m.now t < f.seqAt + 2500000000 →
    (s.m.lane l).fsmAt = some tm → max s.m.now t ≤ tm + 200000 →
    Completes (.inputSample l t) s (fun m => memBit 0 (m.lane l).xch.sampled a = f.level)) ∧
  (∀ (s : State) (l : LaneId) (t a ch : Nat) (sd : StationData) (f : DiFrame), s.m.sd = some sd →
    s.m.mod.mode ≠ .join → s.m.life l ≠ .out → (s.m.lane l).awake = true → (s.m.lane l).phase = .wake →
    (s.m.lane l).t0 + 20000 ≤ max s.m.now t → (a, InputSrc.di ch) ∈ sd.inputs →
    (∀ p ∈ sd.inputs, p.1 = a → p = (a, InputSrc.di ch)) → a ∉ (s.m.lane l).xch.orBits →
    (s.m.lane l).di[ch]? = some f →
    (f.valid = false ∨ f.checkOk = false ∨ f.at0.all (fun x => decide (x + 100000 < max s.m.now t)) = true ∨
      (s.m.lane l).fsmAt.all (fun x => decide (x + 200000 < max s.m.now t)) = true) →
    Completes (.inputSample l t) s (fun m => memBit 0 (m.lane l).xch.sampled a = sd.restrictIn.contains a))

/-- R132 to R134, R152: frames of the exchange. The model's choices that it names stand in log 45. -/
def Obligations.ExchangeFrames : Prop :=
  (∀ (s : State) (l : LaneId) (t : Nat), (s.m.lane l).phase = .sampling → (s.m.lane l).sampled = true →
    (s.m.lane l).t0 + 45000 ≤ max s.m.now t →
    Completes (.imageFrameSend l t) s (fun m => OnlyLane l s.m m ∧ (m.lane l).phase = .exchange ∧
      (m.lane l).xch.ownSent = true ∧ (m.lane l).xch.images.get l = (m.lane l).xch.sent ∧
      (m.lane l).xch.sent.any (fun f => f.sender == l && f.cycle == (s.m.lane l).cop.cycleNo &&
        f.voting == (s.m.life l == .voting) && f.image == (s.m.lane l).xch.sampled && imageCrcOk f &&
        f.at0 == max s.m.now t) = true ∧
      { m.lane l with phase := .sampling, xch := (s.m.lane l).xch } = s.m.lane l)) ∧
  (∀ (s : State) (l : LaneId) (f : ImageFrame) (t : Nat), s.m.life l = .voting → f.sender ≠ l →
    Completes (.exchangeFrameReceive l (.image f) t) s (fun m => OnlyLane l s.m m ∧
      m.lane l = { s.m.lane l with xch := { (s.m.lane l).xch with
        images := (s.m.lane l).xch.images.upd f.sender (fun _ => some f) } })) ∧
  (∀ (s : State) (l : LaneId) (f : ImageFrame) (t : Nat), s.m.life l = .sync → (s.m.lane l).agr.sync = .awaitFrames →
    f.sender ≠ l → f.voting = true → imageCrcOk f = true → (s.m.lane l).agr.syncAt ≤ f.at0 →
    Completes (.exchangeFrameReceive l (.image f) t) s (fun m => OnlyLane l s.m m ∧
      (m.lane l).t0 = f.at0 - 45000 ∧ (m.lane l).cop.cycleNo = f.cycle ∧ (m.lane l).agr.sync = .request ∧
      (m.lane l).xch.images.get f.sender = some f)) ∧
  (∀ (s : State) (l : LaneId) (f : PresenceFrame) (t : Nat), s.m.life l ∈ [.voting, .sync] → f.sender ≠ l →
    Completes (.exchangeFrameReceive l (.presence f) t) s (fun m => OnlyLane l s.m m ∧
      m.lane l = { s.m.lane l with xch := { (s.m.lane l).xch with
        presence := (s.m.lane l).xch.presence.upd f.sender (fun _ => some f) } })) ∧
  (∀ (s : State) (l : LaneId) (f : TransferCopy) (t : Nat), s.m.life l = .sync → f.sender ≠ l →
    Completes (.exchangeFrameReceive l (.transfer f) t) s (fun m => OnlyLane l s.m m ∧
      (m.lane l).xch.staging = (s.m.lane l).xch.staging.filter (fun g => g.sender != f.sender) ++ [f] ∧
      (m.lane l).mem = (s.m.lane l).mem)) ∧
  (∀ (s : State) (l : LaneId) (e : ExchangeFrame) (t : Nat), s.m.life l ∈ [.out, .restart] →
    Becomes (.exchangeFrameReceive l e t) s (s.m.tick t)) ∧
  (∀ (s : State) (l : LaneId) (t : Nat), (s.m.lane l).phase = .exchange → s.m.life l ≠ .out →
    (s.m.lane l).t0 + 62000 ≤ max s.m.now t →
    Completes (.intactJudgement l t) s (fun m => OnlyLane l s.m m ∧
      (∀ o, inMask (m.lane l).agr.intact o = ((s.m.lane l).xch.images.get o).any (fun f =>
        decide (f.done ≤ (s.m.lane l).t0 + 62000) && imageCrcOk f && f.cycle == (s.m.lane l).cop.cycleNo && f.voting)) ∧
      (m.lane l).xch.sentPresence = some (sealPresence { sender := l, intact := (m.lane l).agr.intact
                                                         request := s.m.life l == .sync && (s.m.lane l).agr.sync == .request
                                                         cycle := (s.m.lane l).cop.cycleNo, crc := 0, done := max s.m.now t }) ∧
      (m.lane l).xch.presence.get l = (m.lane l).xch.sentPresence ∧ (m.lane l).xch.images = (s.m.lane l).xch.images))
/-- R135 to R140: the accepted set and the consensus image. -/
def Obligations.AcceptedImages : Prop :=
  (∀ (s : State) (l : LaneId) (t : Nat) (a b c : ImageFrame), s.m.life l = .voting → (s.m.lane l).phase = .exchange →
    (s.m.lane l).xch.formed = false → (s.m.lane l).t0 + 63000 ≤ max s.m.now t →
    acceptedMask s.m (s.m.lane l) = 7 → digestVerdict (digestsOf s.m (s.m.lane l)) = .agree →
    (s.m.lane l).xch.images = ⟨some a, some b, some c⟩ → (s.m.lane l).agr.div = [] →
    (s.m.lane l).agr.bigRun = ⟨0, 0, 0⟩ → (s.m.lane l).agr.missRun = ⟨0, 0, 0⟩ →
    Completes (.acceptedSet l t) s (fun m => OnlyLane l s.m { m with irq := s.m.irq } ∧ (m.lane l).xch.formed = true ∧
      (m.lane l).xch.mapped = true ∧ (m.lane l).agr.accept = 7 ∧
      ∀ w, w < 2048 → memRead 0 (m.lane l).xch.majority w =
        (memRead 0 a.image w &&& memRead 0 b.image w) ||| (memRead 0 a.image w &&& memRead 0 c.image w) |||
          (memRead 0 b.image w &&& memRead 0 c.image w))) ∧
  (∀ (s : State) (l : LaneId) (t : Nat) (a b : ImageFrame), s.m.life l = .voting → (s.m.lane l).phase = .exchange →
    (s.m.lane l).xch.formed = false → (s.m.lane l).t0 + 63000 ≤ max s.m.now t →
    acceptedMask s.m (s.m.lane l) = 3 → digestVerdict (digestsOf s.m (s.m.lane l)) = .agree →
    (s.m.lane l).xch.images.a = some a → (s.m.lane l).xch.images.b = some b → (s.m.lane l).agr.div = [] →
    (s.m.lane l).agr.bigRun = ⟨0, 0, 0⟩ → (s.m.lane l).agr.missRun = ⟨0, 0, 0⟩ →
    Completes (.acceptedSet l t) s (fun m => OnlyLane l s.m { m with irq := s.m.irq } ∧ (m.lane l).xch.formed = true ∧
      (m.lane l).agr.accept = 3 ∧ (m.lane l).agr.live.twoImg = satInc (s.m.lane l).agr.live.twoImg ∧
      ∀ w, w < 2048 → memRead 0 (m.lane l).xch.majority w =
        (memRead 0 a.image w &&& memRead 0 b.image w) |||
          ((memRead 0 a.image w ^^^ memRead 0 b.image w) &&& memRead 0 (s.m.lane l).xch.restrict w))) ∧
  (∀ (s : State) (l : LaneId) (t : Nat), s.m.life l = .voting → (s.m.lane l).phase = .exchange →
    (s.m.lane l).xch.formed = false → (s.m.lane l).t0 + 63000 ≤ max s.m.now t → s.m.mod.mode ≠ .halt →
    acceptedMask s.m (s.m.lane l) ∈ [0, 1, 2, 4] →
    Completes (.acceptedSet l t) s (fun m => m.mod.mode = .halt ∧ m.mod.haltCause = 0x03 ∧ m.mod.haltSrc = 6 ∧
      LanesHeld m ∧ Undriven m ∧ Unsent m)) ∧
  (∀ (s : State) (l : LaneId) (t : Nat), s.m.life l = .voting → (s.m.lane l).phase = .exchange →
    (s.m.lane l).xch.formed = false → (s.m.lane l).t0 + 63000 ≤ max s.m.now t → s.m.mod.mode ≠ .halt →
    acceptedMask s.m (s.m.lane l) = 7 → (∀ o, ((s.m.lane l).xch.images.get o).isSome = true) →
    digestVerdict (digestsOf s.m (s.m.lane l)) = .halt →
    Completes (.acceptedSet l t) s (fun m => m.mod.mode = .halt ∧ m.mod.haltCause = 0x04 ∧ LanesHeld m ∧ Undriven m ∧
      Unsent m))

/-- R84, R111, R121 to R125, R241: the rest of a cycle. The model's choices that it names stand in log 45. -/
def Obligations.RunAndHandover : Prop :=
  (∀ (s : State) (l : LaneId) (t : Nat) (sd : StationData) (h : ImageHeader), s.m.sd = some sd →
    (s.m.lane l).mem.header = some h → (s.m.lane l).phase = .exchange → (s.m.lane l).xch.mapped = true →
    (s.m.lane l).t0 + 108000 ≤ max s.m.now t → (s.m.lane l).mayRun = true →
    Completes (.runStart l t) s (fun m => OnlyLane l s.m m ∧ (m.lane l).phase = .run ∧ (m.lane l).cop.active = true ∧
      (m.lane l).cop.acc = (s.m.grain l == .counter) ∧ (m.lane l).cop.next = 0 ∧ (m.lane l).cop.ended = false ∧
      (m.lane l).mem.needsInit = false ∧
      { m.lane l with phase := .exchange, cop := (s.m.lane l).cop, mem := (s.m.lane l).mem } = s.m.lane l)) ∧
  (∀ (s : State) (l : LaneId) (t : Nat) (sd : StationData) (h : ImageHeader), s.m.sd = some sd →
    (s.m.lane l).mem.header = some h → (s.m.lane l).phase = .exchange → (s.m.lane l).xch.mapped = true →
    (s.m.lane l).t0 + 108000 ≤ max s.m.now t → (s.m.lane l).mayRun = false →
    Completes (.runStart l t) s (fun m => OnlyLane l s.m m ∧ m.lane l = { s.m.lane l with phase := .sleepEntry })) ∧
  (∀ (s : State) (l : LaneId) (t : Nat) (sd : StationData), s.m.sd = some sd → s.m.life l ≠ .out →
    (s.m.lane l).phase = .run → (s.m.lane l).cop.active = true → (s.m.lane l).cop.ended = true →
    predClose (s.m.lane l).cop.rows.toNat (s.m.lane l).cop.timers.toNat ≤
      2 * (max s.m.now t - (s.m.lane l).t0) + 400 → max s.m.now t ≤ (s.m.lane l).t0 + s.m.evalDl →
    Completes (.runClose l t) s (fun m => (m.lane l).phase = .handover ∧ (m.lane l).closeAt = max s.m.now t ∧
      (m.lane l).cop.active = false ∧ (m.lane l).cop.lastOk = true ∧
      (m.lane l).mem.selDone = (s.m.lane l).mem.selWork ∧ (m.lane l).mem.half0 = (s.m.lane l).mem.half0 ∧
      (m.lane l).mem.half1 = (s.m.lane l).mem.half1 ∧
      (s.m.mod.mode = .join → (m.lane l).hoImage = 0 ∧ (m.lane l).msgBuf = []) ∧ m.mod.mode = s.m.mod.mode ∧
      ∀ k, k ≠ l → m.lane k = s.m.lane k)) ∧
  (∀ (s : State) (l : LaneId) (t : Nat) (sd : StationData), s.m.sd = some sd → s.m.life l = .voting →
    s.m.handsOver = true → (s.m.lane l).phase = .run → (s.m.lane l).cop.active = true → (s.m.lane l).cop.ended = true →
    predClose (s.m.lane l).cop.rows.toNat (s.m.lane l).cop.timers.toNat ≤
      2 * (max s.m.now t - (s.m.lane l).t0) + 400 → max s.m.now t ≤ (s.m.lane l).t0 + s.m.evalDl →
    Completes (.runClose l t) s (fun m => (∀ n, n < 24 → (m.lane l).hoImage.getLsbD n = sd.outputs.any (fun p =>
      p.2 == n && (m.lane l).trueBit (s.m.grain l) p.1 && !guardHeld sd (s.m.grain l) (m.lane l) n &&
        s.m.sweepHeld (s.m.lane l).cop.cycleNo != some n)) ∧
      ((m.lane l).msgBuf.drop ((m.lane l).msgBuf.length - 2)).map (fun w => (w.kind, w.data)) =
        [(.drive, hiLo (s.m.lane l).cop.cycleNo ((m.lane l).hoImage.setWidth 32)), (.endHandover, 0)])) ∧
  (∀ (s : State) (l : LaneId) (t : Nat), s.m.life l = .voting → s.m.paired = false → s.m.mod.cmd = none →
    (s.m.lane l).phase = .handover → (s.m.lane l).closeAt + 240000 ≤ max s.m.now t →
    Completes (.handoverEnd l t) s (fun m => (m.lane l).phase = .sleepEntry ∧
      (m.lane l).drive.latched = (if s.m.handsOver then (s.m.lane l).hoImage else 0) ∧
      (m.lane l).drive.latchAt = max s.m.now t ∧ (m.lane l).drive.windings = (s.m.lane l).drive.windings ∧
      (m.lane l).cop.lastHo = satOf 23 ((max s.m.now t - (s.m.lane l).t0 + 5) / 10) ∧
      (s.m.cal.odm.pendingRec.all (fun r => m.cal.odm.reference == r) = true) ∧ m.cal.odm.pendingRec = none ∧
      m.mod.mode = s.m.mod.mode ∧ ∀ k, k ≠ l → m.lane k = s.m.lane k)) ∧
  (∀ (s : State) (l : LaneId) (t : Nat), s.m.life l = .voting → s.m.handsOver = true →
    (s.m.lane l).drive.latchAt < (s.m.lane l).t0 + (max s.m.now t - (s.m.lane l).t0) / 40000 * 40000 →
    (∀ o ∈ s.m.field.out, o.hold.get l ≤ (s.m.lane l).t0 + (max s.m.now t - (s.m.lane l).t0) / 40000 * 40000) →
    Completes (.drivePeriodBoundary l t) s (fun m => (m.lane l).drive.windings = (s.m.lane l).drive.latched ∧
      (m.lane l).drive.latched = (s.m.lane l).drive.latched ∧ m.mod = s.m.mod ∧
      (∀ k, k ≠ l → m.lane k = s.m.lane k) ∧ { m.lane l with drive := (s.m.lane l).drive } = s.m.lane l)) ∧
  (∀ (s : State) (l : LaneId) (t : Nat), (s.m.lane l).phase = .sleepEntry → (s.m.lane l).cop.holdSrc = 0 →
    Completes (.sleepEntry l t) s (fun m => OnlyLane l s.m m ∧ (m.lane l).phase = .asleep ∧ (m.lane l).awake = false ∧
      (m.lane l).cop.lastSleep = satOf 23 ((max s.m.now t + 4000 - (s.m.lane l).t0 + 5) / 10))) ∧
  (∀ (s : State) (l : LaneId) (t : Nat), (s.m.lane l).cop.holdSrc ≠ 0 →
    Becomes (.sleepEntry l t) s (s.m.tick t)) ∧
  (∀ (s : State) (l : LaneId) (r : HoldReason) (t : Nat), (s.m.lane l).awake = true →
    (r = .queueDrain → 64 < (s.m.lane l).queue.arrived) →
    Completes (.keepAwakeHoldSet l r t) s (fun m => OnlyLane l s.m m ∧ m.lane l = { s.m.lane l with
      cop := { (s.m.lane l).cop with holdSrc := setBit (s.m.lane l).cop.holdSrc (holdBit r) true } })) ∧
  (∀ (s : State) (l : LaneId) (r : HoldReason) (t : Nat), (s.m.lane l).awake = true →
    Completes (.keepAwakeHoldRelease l r t) s (fun m => OnlyLane l s.m m ∧ m.lane l = { s.m.lane l with
      cop := { (s.m.lane l).cop with holdSrc := setBit (s.m.lane l).cop.holdSrc (holdBit r) false } })) ∧
  (∀ (s : State) (l : LaneId) (t : Nat), (s.m.lane l).queue.arrived ≤ 64 →
    Becomes (.keepAwakeHoldSet l .queueDrain t) s (s.m.tick t)) ∧
  (∀ (s : State) (l : LaneId) (r : HoldReason) (t : Nat), (s.m.lane l).awake = false →
    Becomes (.keepAwakeHoldSet l r t) s (s.m.tick t) ∧ Becomes (.keepAwakeHoldRelease l r t) s (s.m.tick t))

/-- R141 to R147: a lane's comparators and its lines against other lanes. The model's choices that it names stand in
logs 49, 52, 53. -/
def Obligations.LaneFaultCommands : Prop :=
  (∀ (s : State) (l : LaneId) (t : Nat), s.m.mod.mode ≠ .halt → s.m.life l ≠ .out → s.m.unitRuns l .core = true →
    Completes (.comparatorMismatch l .core t) s (fun m => m.life l = .out ∧ (m.lane l).agr.outCause = 0x20 ∧
      (m.lane l).agr.held = true ∧ (m.lane l).cop.active = false ∧ (m.lane l).drive.windings = 0)) ∧
  (∀ (s : State) (l : LaneId) (t : Nat), s.m.mod.mode ≠ .halt → s.m.life l ≠ .out → s.m.unitRuns l .copier = true →
    Completes (.comparatorMismatch l .copier t) s (LaneFault l 0x0B s.m)) ∧
  (∀ (s : State) (l : LaneId) (u : Comparator) (t : Nat), s.m.mod.mode ≠ .halt → s.m.life l = .out → s.m.startsUp l = true →
    Completes (.comparatorMismatch l u t) s (fun m => m.life l = .out ∧ (m.lane l).agr.outCause = comparatorCause u ∧
      (m.lane l).agr.held = true ∧ m.startsUp l = false ∧ (m.lane l).agr.outs = satInc (s.m.lane l).agr.outs ∧
      (∀ k, k ≠ l → (m.lane k).agr = (s.m.lane k).agr) ∧ m.mod = s.m.mod)) ∧
  (∀ (s : State) (l : LaneId) (t : Nat), s.m.unitRuns l .core = true → (s.m.tick t).enteringSleep l = false →
    Completes (.comparatorInjection l .core .expected t) s (fun m => OnlyLane l s.m m ∧
      m.lane l = { s.m.lane l with agr := { (s.m.lane l).agr with
        injCore := if (s.m.lane l).agr.injCore.toNat < 139 then (s.m.lane l).agr.injCore + 1 else 0
        live := { (s.m.lane l).agr.live with injOk := satInc (s.m.lane l).agr.live.injOk } } })) ∧
  (∀ (s : State) (l : LaneId) (t : Nat), s.m.unitRuns l .copier = true → (s.m.tick t).enteringSleep l = false →
    Completes (.comparatorInjection l .copier .expected t) s (fun m => OnlyLane l s.m m ∧
      m.lane l = { s.m.lane l with agr := { (s.m.lane l).agr with
        injEng := if (s.m.lane l).agr.injEng.toNat < 88 then (s.m.lane l).agr.injEng + 1 else 0
        live := { (s.m.lane l).agr.live with injOk := satInc (s.m.lane l).agr.live.injOk } } })) ∧
  (∀ (s : State) (l : LaneId) (u : Comparator) (t : Nat), s.m.mod.mode ≠ .halt → s.m.unitRuns l u = true →
    (s.m.tick t).enteringSleep l = false →
    Completes (.comparatorInjection l u .otherPos t) s (fun m => m.life l = .out ∧
      (m.lane l).agr.outCause = comparatorCause u ∧ (m.lane l).agr.held = true)) ∧
  (∀ (s : State) (l : LaneId) (u : Comparator) (t : Nat), s.m.mod.mode ≠ .halt → s.m.unitRuns l u = true →
    (s.m.tick t).enteringSleep l = false →
    Completes (.missedInjection l u t) s (fun m => m.life l = .out ∧ (m.lane l).agr.outCause = 0x21 ∧
      (m.lane l).agr.held = true)) ∧
  (∀ (s : State) (l : LaneId) (u : Comparator) (c : Capture) (t : Nat), s.m.unitRuns l u = false →
    Becomes (.comparatorMismatch l u t) s (s.m.tick t) ∧ Becomes (.comparatorInjection l u c t) s (s.m.tick t) ∧
    Becomes (.missedInjection l u t) s (s.m.tick t)) ∧
  (∀ (s : State) (l : LaneId) (u : Comparator) (c : Capture) (t : Nat), (s.m.tick t).enteringSleep l = true →
    Becomes (.comparatorInjection l u c t) s (s.m.tick t) ∧ Becomes (.missedInjection l u t) s (s.m.tick t)) ∧
  (∀ (s : State) (l target : LaneId) (t t0 : Nat), (s.m.lane l).agr.exclUntil.get target = some t0 →
    t0 ≤ max s.m.now t →
    Completes (.exclusionLineExpire l target t) s (fun m => OnlyLane l s.m m ∧
      m.lane l = { s.m.lane l with agr := { (s.m.lane l).agr with
        exclUntil := (s.m.lane l).agr.exclUntil.upd target (fun _ => none) } }))
/-- R150 to R157, R160, R162: the way back of an OUT lane. -/
def Obligations.RejoinCommands : Prop :=
  (∀ (s : State) (l : LaneId) (t : Nat), s.m.life l = .out → (s.m.lane l).agr.inReset = true →
    (s.m.lane l).agr.resetAt + 1000000 ≤ max s.m.now t → (s.m.lane l).agr.locked = false →
    (s.m.lane l).agr.railBad = false → (s.m.lane l).agr.unusable = false → s.m.evaluates = true →
    (s.m.lane l).agr.attemptFree (max s.m.now t) = true → (∀ k, k ≠ l → (s.m.lane k).agr.exclUntil.get l = none) → 2 ≤ s.m.votingLanes.length →
    Completes (.supervisorResetEnd l t) s (fun m => OnlyLane l s.m m ∧ m.life l = .restart ∧ (m.lane l).agr.held = false ∧
      (m.lane l).agr.inReset = false ∧ (m.lane l).agr.attempts = (if (s.m.lane l).agr.free then (s.m.lane l).agr.attempts
        else (max s.m.now t :: (s.m.lane l).agr.attempts).take 3))) ∧
  (∀ (s : State) (l : LaneId) (t : Nat), s.m.life l = .out → (s.m.lane l).agr.inReset = true →
    (s.m.lane l).agr.resetAt + 1000000 ≤ max s.m.now t → (s.m.lane l).agr.locked = false →
    (s.m.lane l).agr.railBad = false → (s.m.lane l).agr.unusable = false → s.m.evaluates = true →
    (s.m.lane l).agr.attemptFree (max s.m.now t) = true → (∀ k, k ≠ l → (s.m.lane k).agr.exclUntil.get l = none) → s.m.votingLanes.length < 2 →
    Completes (.supervisorResetEnd l t) s (fun m => OnlyLane l s.m m ∧ m.life l = .out ∧ (m.lane l).agr.held = false ∧
      (m.lane l).agr.waiting = true)) ∧
  (∀ (s : State) (l : LaneId) (t : Nat), s.m.life l = .out → (s.m.lane l).agr.inReset = true →
    (s.m.lane l).agr.resetAt + 1000000 ≤ max s.m.now t → (s.m.lane l).agr.locked = false →
    (s.m.lane l).agr.railBad = false → (s.m.lane l).agr.unusable = false → s.m.evaluates = true →
    (s.m.lane l).agr.attemptFree (max s.m.now t) = false → (∀ k, k ≠ l → (s.m.lane k).agr.exclUntil.get l = none) →
    Completes (.supervisorResetEnd l t) s (fun m => OnlyLane l s.m { m with irq := s.m.irq } ∧
      m.lane l = { s.m.lane l with agr := { (s.m.lane l).agr with locked := true } })) ∧
  (∀ (s : State) (l : LaneId) (t : Nat), (s.m.lane l).agr.locked = true →
    Becomes (.supervisorResetEnd l t) s (s.m.tick t)) ∧
  (∀ (s : State) (l : LaneId) (r : RestartReport) (t : Nat) (sd : StationData), s.m.sd = some sd → s.m.life l = .restart →
    restartPassed sd (s.m.grain l) (s.m.lane l).agr.noSlice r = true →
    Completes (.restartComplete l r t) s (fun m => OnlyLane l s.m m ∧ m.life l = .sync ∧
      (m.lane l).agr.sync = .awaitFrames ∧ (m.lane l).agr.syncAt = max s.m.now t ∧
      (m.lane l).mem.header = some (imageHeader (imageOf sd (s.m.grain l))) ∧ (m.lane l).mem.needsInit = true)) ∧
  (∀ (s : State) (l : LaneId) (r : RestartReport) (t : Nat) (sd : StationData), s.m.sd = some sd → s.m.life l = .restart →
    restartPassed sd (s.m.grain l) (s.m.lane l).agr.noSlice r = false → s.m.mod.mode ≠ .halt → s.m.bench.upd.onTrial .firmware = false →
    Completes (.restartComplete l r t) s (fun m => m.life l = .out ∧ (m.lane l).agr.outCause = 0x30 ∧
      (m.lane l).agr.held = true ∧ m.mod.mode = s.m.mod.mode ∧ ∀ k, k ≠ l → m.life k = s.m.life k)) ∧
  (∀ (s : State) (l dest : LaneId) (t : Nat) (sd : StationData), s.m.sd = some sd → s.m.life l = .voting →
    (s.m.tick t).phaseOf l = .sleepEntry → (s.m.lane l).cop.holdSrc.getLsbD 0 = true →
    (presenceOf (s.m.lane l) dest).any (fun f => f.request) = true →
    s.m.pair.mirrorEnd.all (fun e => decide (e ≤ (s.m.lane l).t0 + s.m.cycleNs * 9 / 10)) = true →
    (s.m.lane l).xch.sentCopy = none →
    Completes (.transferServe l dest t) s (fun m => OnlyLane l s.m m ∧ (m.lane l).xch.sentCopy.any (fun c =>
      c.sender == l && c.cycle == (s.m.lane l).cop.cycleNo && c.sdId == sd.id && c.comm == (s.m.lane l).comm &&
        copyIntact c) = true)) ∧
  (∀ (s : State) (l : LaneId) (t : Nat) (sd : StationData) (h : ImageHeader) (a b : TransferCopy), s.m.sd = some sd →
    (s.m.lane l).mem.header = some h → s.m.life l = .sync → (s.m.lane l).agr.sync = .request →
    (s.m.lane l).xch.staging = [a, b] → s.m.life a.sender = .voting → s.m.life b.sender = .voting → copyIntact a = true →
    copyIntact b = true → a.sdId = sd.id → { b with sender := a.sender, crc := a.crc } = a →
    (∀ n, n < 262144 → stateAddr (s.m.grain l) h n < 262144 ∧ trueAddr (s.m.grain l) h (stateAddr (s.m.grain l) h n) = n) →
    Completes (.transferReceive l t) s (fun m => OnlyLane l s.m m ∧ (m.lane l).agr.sync = .probeDue ∧
      (m.lane l).comm = a.comm ∧ (m.lane l).mem.needsInit = false ∧ (m.lane l).xch.staging = [] ∧
      ∀ n, n < 262144 → (m.lane l).trueBit (s.m.grain l) n = memBit 0 a.vector n)) ∧
  (∀ (s : State) (l : LaneId) (t : Nat) (sd : StationData) (h : ImageHeader) (a b : TransferCopy), s.m.sd = some sd →
    s.m.mod.mode ≠ .halt → (s.m.lane l).mem.header = some h → s.m.life l = .sync → (s.m.lane l).agr.sync = .request →
    (s.m.lane l).xch.staging = [a, b] → s.m.life a.sender = .voting → s.m.life b.sender = .voting → copyIntact a = true →
    copyIntact b = true → a.sdId = sd.id → b.sdId = sd.id → { b with sender := a.sender, crc := a.crc } ≠ a →
    Completes (.transferReceive l t) s (fun m => m.mod.mode = .halt ∧ m.mod.haltCause = 0x06 ∧ LanesHeld m ∧
      Undriven m ∧ (m.lane l).agr.outCause = 0x31)) ∧
  (∀ (s : State) (l : LaneId) (t : Nat), s.m.life l ∈ [.restart, .sync] → s.m.mod.mode ≠ .halt →
    (s.m.lane l).agr.limitFrom + 1500000000 ≤ max s.m.now t →
    Completes (.rejoinTimeout l t) s (fun m => m.life l = .out ∧ (m.lane l).agr.outCause = 0x34 ∧
      m.mod.mode = s.m.mod.mode ∧ ∀ k, k ≠ l → m.life k = s.m.life k)) ∧
  (∀ (s : State) (l : LaneId) (dev : Int) (t : Nat), s.m.mod.mode = .degraded → (∀ k, k ≠ l → s.m.life k = .voting) →
    s.m.life l = .sync → (s.m.lane l).agr.sync = .passed → (s.m.tick t).phaseOf l = .asleep →
    (s.m.lane l).cop.holdSrc = 0 → (s.m.tick t).boundaryNumber = none →
    (s.m.lane l).t0 + s.m.cycleNs ≤ max s.m.now t + s.m.cycleNs * 3 / 10000 →
    s.m.cal.vote.cycle = (s.m.lane l).cop.cycleNo + 1 → (s.m.lane l).snd.bringForward = false → -50 ≤ dev → dev ≤ 50 →
    Completes (.cycleT0 l dev t) s (fun m => m.life l = .voting ∧ m.mod.mode = .service ∧
      (m.lane l).agr.rejoins = satInc (s.m.lane l).agr.rejoins ∧ ∀ k, k ≠ l → m.life k = .voting))

/-- R164 to R169, R173: words, slots and releases. The model's choices that it names stand in logs 4, 18, 94. -/
def Obligations.VoteWords : Prop :=
  (∀ (s : State) (w : VoteWord) (t : Nat) (c : MsgCfg), (s.m.tick t).voteOpen = true → s.m.life w.lane = .voting →
    w.kind = .message → s.m.msgCfg w.msg = some c → w.word < c.words → s.m.slot (w.msg, w.word) = none →
    s.m.cal.vote.absentMsgs = [] → 2 ≤ s.m.votingLanes.length →
    Completes (.voteWordArrive w t) s (fun m => (m.slot (w.msg, w.word)).map (fun x =>
        ((x.copies.get w.lane).map (fun y => (y.data, y.at0)), x.voted, x.closed, x.openAt)) =
        some (some (w.data, max s.m.now t), none, false, max s.m.now t) ∧
      m.lanes = s.m.lanes ∧ m.mod = s.m.mod ∧ m.cal.vote.released = s.m.cal.vote.released ∧
      m.cal.vote.held = s.m.cal.vote.held)) ∧
  (∀ (s : State) (w : VoteWord) (t : Nat) (c : MsgCfg) (i : RingId) (x : VoteSlot) (y : Copy) (k : LaneId),
    (s.m.tick t).voteOpen = true → s.m.life w.lane = .voting → s.m.life k = .voting → k ≠ w.lane → w.kind = .message →
    s.m.msgCfg w.msg = some c → c.msg = w.msg → c.words = 1 → c.port = .ring i → w.word = 0 → w.last = true →
    w.chk = voteChk w.data (sideband w) → s.m.cal.vote.slots = [x] → x.drive = false → x.msg = w.msg → x.word = 0 →
    x.voted = none → x.closed = false → max s.m.now t ≤ x.openAt + 4000 → x.copies.get k = some y →
    (∀ j, j ≠ k → x.copies.get j = none) → y.good = true → y.data = w.data → s.m.cal.vote.absentMsgs = [] →
    s.m.cal.vote.released = [] →
    Completes (.voteWordArrive w t) s (fun m => (m.slot (w.msg, 0)).bind (fun z => z.voted) = some w.data ∧
      m.cal.vote.released = [w.msg] ∧ m.cal.vote.outvoted = s.m.cal.vote.outvoted ∧
      (m.cal.vote.held.filter (fun h => h.msg == w.msg)).map (fun h => (h.cycle, h.words)) =
        [(s.m.cal.vote.cycle, [w.data])] ∧ m.lanes = s.m.lanes ∧ m.mod = s.m.mod)) ∧
  (∀ (s : State) (w : VoteWord) (t : Nat) (c : MsgCfg) (x : VoteSlot) (v : W64), (s.m.tick t).voteOpen = true →
    s.m.life w.lane = .voting → w.kind = .message → s.m.msgCfg w.msg = some c → w.word < c.words →
    s.m.cal.vote.slots = [x] → x.drive = false → x.msg = w.msg → x.word = w.word → x.voted = some v → x.closed = false →
    x.copies.get w.lane = none → x.copies ≠ ⟨none, none, none⟩ → max s.m.now t ≤ x.openAt + 4000 → w.data ≠ v →
    s.m.cal.vote.absentMsgs = [] →
    Completes (.voteWordArrive w t) s (fun m => inMask m.cal.vote.outvoted w.lane = true ∧
      m.cal.vote.live.outv.get w.lane = satInc (s.m.cal.vote.live.outv.get w.lane) ∧
      (m.slot (w.msg, w.word)).bind (fun z => z.voted) = some v ∧ m.lanes = s.m.lanes ∧ m.mod = s.m.mod)) ∧
  (∀ (s : State) (w : VoteWord) (t : Nat), (s.m.tick t).voteOpen = true → s.m.life w.lane = .voting →
    w.kind = .endHandover →
    Completes (.voteWordArrive w t) s (fun m => inMask m.cal.vote.ended w.lane = true ∧
      m.cal.vote.firstEnd = some (s.m.cal.vote.firstEnd.getD (max s.m.now t)) ∧ m.cal.vote.lastEnd = some (max s.m.now t) ∧
      m.cal.vote.slots = s.m.cal.vote.slots ∧ m.lanes = s.m.lanes ∧ m.mod = s.m.mod)) ∧
  (∀ (s : State) (w : VoteWord) (t : Nat), ((s.m.tick t).voteOpen = false ∨ s.m.life w.lane ∈ [.out, .restart]) →
    Becomes (.voteWordArrive w t) s (s.m.tick t)) ∧
  (∀ (s : State) (msg word t : Nat) (x : VoteSlot), s.m.slot (msg, word) = some x → x.key = (msg, word) → x.closed = false →
    x.voted = none → x.openAt + 4000 ≤ max s.m.now t → s.m.mod.mode ≠ .halt →
    2 ≤ (x.present s.m.votingLanes).length →
    Completes (.skewWindowClose msg word t) s (fun m => m.mod.mode = .halt ∧ m.mod.haltCause = 0x01 ∧ m.mod.haltSrc = 4 ∧
      LanesHeld m ∧ Undriven m ∧ Unsent m ∧
      m.cal.csc.haltCause = (if s.m.votingLanes.length = 3 then 0x04 else 0x05))) ∧
  (∀ (s : State) (msg word t : Nat) (x : VoteSlot) (l : LaneId), s.m.slot (msg, word) = some x → x.key = (msg, word) →
    x.closed = false → x.voted.isSome = true → x.bare = false → x.openAt + 4000 ≤ max s.m.now t →
    s.m.life l = .voting → x.copies.get l = none → s.m.cal.vote.absentMsgs = [] →
    Completes (.skewWindowClose msg word t) s (fun m => inMask m.cal.vote.absent l = true ∧
      m.cal.vote.live.absent.get l = satInc (s.m.cal.vote.live.absent.get l) ∧
      (m.slot (msg, word)).any (fun z => z.closed) = true ∧ m.lanes = s.m.lanes ∧ m.mod = s.m.mod))
/-- R148, R171, R173: the cycle report. -/
def Obligations.CycleReport : Prop :=
  (∀ (s : State) (t e : Nat), s.m.cal.vote.firstEnd = some e → s.m.cal.vote.reported = false → e + 4000 ≤ max s.m.now t →
    (∀ x ∈ s.m.cal.vote.slots, x.closed = true) → (∀ c ∈ s.m.msgs, c.msg ∈ s.m.cal.vote.released) →
    (∀ l ∈ s.m.votingLanes, inMask s.m.cal.vote.ended l = true) → (∀ l, s.m.life l ≠ .sync) → s.m.mod.mode ≠ .halt →
    s.m.cal.vote.outvoted = 0 → s.m.cal.vote.absent = 0 →
    Completes (.cycleReport t) s (fun m => m.cal.vote.reported = true ∧ m.cal.vote.reportOutv = 0 ∧
      m.cal.vote.reportAbs = 0 ∧ m.cal.vote.skew = s.m.cal.vote.skewNow ∧ m.cal.vote.absRun = ⟨0, 0, 0⟩ ∧
      m.mod = s.m.mod ∧ ∀ l, (m.lane l).agr = (s.m.lane l).agr)) ∧
  (∀ (s : State) (l : LaneId) (t e : Nat), s.m.cal.vote.firstEnd = some e → s.m.cal.vote.reported = false →
    e + 4000 ≤ max s.m.now t → (∀ x ∈ s.m.cal.vote.slots, x.closed = true) →
    (∀ c ∈ s.m.msgs, c.msg ∈ s.m.cal.vote.released) → (∀ k, inMask s.m.cal.vote.ended k = true ∧ s.m.life k = .voting) →
    s.m.mod.mode = .service → s.m.cal.vote.outvoted = maskOf (· == l) → s.m.cal.vote.absent = 0 →
    Completes (.cycleReport t) s (fun m => m.cal.vote.reported = true ∧ m.cal.vote.reportOutv = maskOf (· == l) ∧
      m.life l = .out ∧ (m.lane l).agr.outCause = 0x26 ∧ m.mod.mode = .degraded ∧ ∀ k, k ≠ l → m.life k = .voting))
/-- R177 to R184, R233: the drive monitor, the watchdog and the self-check. -/
def Obligations.DriveWatch : Prop :=
  (∀ (s : State) (pos neg : List Nat) (n t : Nat) (o : OutCh), s.m.cal.csc.running = true → (s.m.tick t).fieldRuns = true →
    s.m.sd.isSome = true → n < 24 → s.m.field.out[n]? = some o → o.armed = false → o.isFault = false → o.latch = false →
    o.unusable = false → s.m.field.fsm.held = false → pos.getD n 0 < 2 → neg.getD n 0 < 2 →
    Completes (.driveMonitorSample pos neg t) s (fun m =>
      (m.field.out[n]?).map (fun x => (x.armed, x.inhibit, x.cmd)) = some (true, false, false))) ∧
  (∀ (s : State) (pos neg : List Nat) (n t : Nat) (o : OutCh), s.m.cal.csc.running = true → (s.m.tick t).fieldRuns = true →
    s.m.sd.isSome = true → (s.m.tick t).driveSettled = true → s.m.handsOver = true → n < 24 →
    s.m.field.out[n]? = some o → o.test = none → s.m.cal.odm.reference.getLsbD n = true → pos.getD n 0 < 2 →
    (s.m.cal.odm.pos.getD n {}).sight = .lost → 1 ≤ (s.m.cal.odm.pos.getD n {}).run →
    Completes (.driveMonitorSample pos neg t) s (fun m => m.cal.odm.lost.getLsbD n = true)) ∧
  (∀ (s : State) (pos neg : List Nat) (n t : Nat) (o : OutCh), s.m.cal.csc.running = true → (s.m.tick t).fieldRuns = true →
    s.m.sd.isSome = true → (s.m.tick t).driveSettled = true → s.m.mod.mode ≠ .halt → n < 24 →
    s.m.field.out[n]? = some o → o.test = none → s.m.cal.odm.reference.getLsbD n = false → 2 ≤ pos.getD n 0 →
    (s.m.cal.odm.pos.getD n {}).sight = .against → 1 ≤ (s.m.cal.odm.pos.getD n {}).run →
    Completes (.driveMonitorSample pos neg t) s (fun m => m.mod.mode = .halt ∧ m.cal.csc.haltCause = 0x06 ∧
      LanesHeld m ∧ Undriven m ∧ Unsent m)) ∧
  (∀ (s : State) (l : LaneId) (t : Nat), s.m.sd.isSome = true → s.m.life l = .voting → s.m.power.powered = true →
    (∀ k, k ≠ l → s.m.cal.odm.marks.get k = none) →
    Completes (.driveRefreshMark l t) s (fun m => m.cal.odm =
        { s.m.cal.odm with marks := s.m.cal.odm.marks.upd l (fun _ => some (max s.m.now t)) } ∧
      { m with cal := s.m.cal } = s.m.tick t)) ∧
  (∀ (s : State) (l k : LaneId) (t u v : Nat), s.m.sd.isSome = true → s.m.life l = .voting → s.m.power.powered = true →
    k ≠ l → s.m.cal.odm.marks.get k = some u → max s.m.now t ≤ u + 100000 → s.m.cal.odm.tripped = true →
    s.m.cal.odm.lastQual = some v → v + 200000 < max s.m.now t → 3 * s.m.cycleNs ≤ 4 * (max s.m.now t - v) →
    4 * (max s.m.now t - v) ≤ 5 * s.m.cycleNs → s.m.bench.test.unusWdog = false →
    Completes (.driveRefreshMark l t) s (fun m => m.cal.odm.tripped = false ∧
      m.cal.odm.lastQual = some (max s.m.now t) ∧ m.lanes = s.m.lanes ∧ m.mod = s.m.mod)) ∧
  (∀ (s : State) (t v : Nat), s.m.sd.isSome = true → s.m.cal.odm.tripped = false → s.m.cal.odm.lastQual = some v →
    v + 2 * s.m.cycleNs ≤ max s.m.now t → s.m.field.out.length = 24 →
    Completes (.driveWatchdogTrip t) s (fun m => m.cal.odm.tripped = true ∧
      m.cal.odm.trips = satInc s.m.cal.odm.trips ∧ m.cal.odm.lastQual = none ∧
      (∀ o ∈ m.field.out, o.drvPos = false ∧ o.drvNeg = false) ∧ m.lanes = s.m.lanes ∧
      m.mod.mode = s.m.mod.mode)) ∧
  (∀ (s : State) (t : Nat), s.m.cal.csc.running = true → s.m.mod.mode ≠ .halt →
    Completes (.callipersHalvesMismatch t) s (fun m => m.mod.mode = .halt ∧ m.mod.haltCause = 0x01 ∧
      m.cal.csc.haltCause = 0x01 ∧ LanesHeld m ∧ Undriven m ∧ Unsent m)) ∧
  (∀ (s : State) (t : Nat), s.m.cal.csc.running = true → (s.m.tick t).calBist = false → s.m.mod.mode ≠ .halt →
    Completes (.callipersInjection none t) s (fun m => m.mod.mode = .halt ∧ m.mod.haltCause = 0x01 ∧
      m.cal.csc.haltCause = 0x02 ∧ LanesHeld m ∧ Undriven m ∧ Unsent m)) ∧
  (∀ (s : State) (t : Nat), s.m.cal.csc.running = true → (s.m.tick t).calBist = false →
    Becomes (.callipersInjection (some .expected) t) s { s.m.tick t with cal := { s.m.cal with csc := { s.m.cal.csc with
      injPos := s.m.cal.csc.injPos + 1, injOk := satInc s.m.cal.csc.injOk } } }) ∧
  (∀ (s : State) (c : Option Capture) (t : Nat), (s.m.tick t).calBist = true →
    Becomes (.callipersInjection c t) s (s.m.tick t))

/-- R192 to R201, R211, R212: the digital inputs and their pulse sources. The model's choices that it names stand in
logs 18, 19. -/
def Obligations.DigitalInputs : Prop :=
  (∀ (s : State) (ch t : Nat) (mV : Int) (c : DiCfg) (x : DiCh), (s.m.tick t).fieldRuns = true → s.m.field.di[ch]? = some x →
    s.m.diCfg ch = some c → c.enc = false → c.mon ≠ 2 → x.testAt = none → s.m.mod.mode ≠ .commission → 1 ≤ filtN c →
    100 * (s.m.field.fsm.thrOn.toNat : Int) < mV →
    Completes (.inputRawSample ch mV t) s (fun m => (m.field.di[ch]?).map (fun y => (y.raw, y.fcnt, y.level)) =
        some (true, BitVec.ofNat 10 (min (filtN c) (x.fcnt.toNat + 1)),
          if filtN c ≤ x.fcnt.toNat + 1 then true else x.level) ∧
      OnlyField s.m m ∧ ∀ k, k ≠ ch → m.field.di[k]? = s.m.field.di[k]?)) ∧
  (∀ (s : State) (ch t : Nat) (mV : Int) (c : DiCfg) (x : DiCh), (s.m.tick t).fieldRuns = true → s.m.field.di[ch]? = some x →
    s.m.diCfg ch = some c → c.enc = false → c.mon ≠ 2 → x.testAt = none → s.m.mod.mode ≠ .commission →
    x.fcnt.toNat ≤ filtN c → 1 ≤ filtN c → mV ≤ 100 * (s.m.field.fsm.thrOn.toNat : Int) - 1000 →
    Completes (.inputRawSample ch mV t) s (fun m => (m.field.di[ch]?).map (fun y => (y.raw, y.fcnt, y.level)) =
        some (false, BitVec.ofNat 10 (x.fcnt.toNat - 1), if x.fcnt.toNat ≤ 1 then false else x.level) ∧
      OnlyField s.m m ∧ ∀ k, k ≠ ch → m.field.di[k]? = s.m.field.di[k]?)) ∧
  (∀ (s : State) (ch t : Nat) (a b c : Bool) (x : DiCh), (s.m.tick t).fieldRuns = true → s.m.field.di[ch]? = some x →
    diEnc s.m ch = false →
    Completes (.couplerFrame ch a b c t) s (fun m =>
      (∀ l, ch < (s.m.lane l).di.length → ((m.lane l).di[ch]?).map (fun f =>
        (f.level, f.valid, f.code, f.tseq, f.toggle, f.checkOk, f.at0)) =
        some (x.level, x.valid, x.fault, x.tseq, !x.toggle, byLane a b c l, some (max s.m.now t))) ∧
      m.mod = s.m.mod ∧ ∀ k, k ≠ ch → m.field.di[k]? = s.m.field.di[k]?)) ∧
  (∀ (s : State) (ch c t : Nat) (x : DiCh), (s.m.tick t).fieldRuns = true → s.m.field.di[ch]? = some x → diMon s.m ch = 1 →
    diEnc s.m ch = false → x.level = false → (c < 1000 ∨ 1600 < c) →
    x.judge = (if c < 300 then 1 else 2) → 9 ≤ x.judgeRun → x.latch = false → standsNow (condCode c) x.found = false →
    Completes (.lineConductanceMeasure ch c t) s (fun m => (m.field.di[ch]?).map (fun y =>
        (y.cond, y.fault, y.valid, standsNow (condCode c) y.found)) = some (satOf 12 c, if c < 300 then 1 else 2, false, true) ∧
      OnlyField s.m m)) ∧
  (∀ (s : State) (ch c t : Nat) (x : DiCh), (s.m.tick t).fieldRuns = true → s.m.field.di[ch]? = some x → diMon s.m ch = 1 →
    diEnc s.m ch = false → x.level = false → x.judgeRun < 9 →
    Completes (.lineConductanceMeasure ch c t) s (fun m => (m.field.di[ch]?).map (fun y =>
        (y.cond, y.fault, y.valid)) = some (satOf 12 c, x.fault, x.valid) ∧ OnlyField s.m m ∧ m.irq = s.m.irq)) ∧
  (∀ (s : State) (k t : Nat) (high : Bool) (ma : Nat) (x : PsCh), (s.m.tick t).fieldRuns = true → s.m.field.ps[k]? = some x →
    x.on = true →
    Completes (.darkWindow k high ma t) s (fun m => m.field.ps[k]? = some { x with
        dark := true, darkAt := some (max s.m.now t), highRun := if high then x.highRun + 1 else 0
        ma := satOf 8 ma } ∧
      { m with now := s.m.now, field := { m.field with ps := s.m.field.ps } } = s.m ∧
      ∀ j, j ≠ k → m.field.ps[j]? = s.m.field.ps[j]?)) ∧
  (∀ (s : State) (k t : Nat) (c : SourceCause) (x : PsCh), (s.m.tick t).fieldRuns = true → s.m.field.ps[k]? = some x →
    x.fault = false → (c = .overload ∨ 2 ≤ x.highRun) →
    (∀ y ∈ s.m.field.di, y.latch = false ∧ standsNow 5 y.found = false) →
    Completes (.pulseSourceFault k c t) s (fun m => (m.field.ps[k]?).map (fun y => (y.fault, y.cause, y.on, y.ma)) =
        some (true, (match c with | .overload => 1 | .cannotGoDark => 2), false, 0) ∧
      (∀ ch, ch < 48 → diSource s.m ch = some k → ch < s.m.field.di.length →
        (m.field.di[ch]?).map (fun y => (y.fault, y.valid)) = some (5, false)) ∧
      (∀ ch, diSource s.m ch ≠ some k → m.field.di[ch]? = s.m.field.di[ch]?) ∧ OnlyField s.m m)) ∧
  (∀ (s : State) (k t : Nat) (gone : Bool) (x : PsCh), (s.m.tick t).fieldRuns = true → s.m.field.ps[k]? = some x →
    x.fault = true → x.faultAt + 1000000000 ≤ max s.m.now t →
    Completes (.pulseSourceRetry k gone t) s (fun m => (m.field.ps[k]?).map (fun y => (y.fault, y.on)) =
        some (!gone, gone || x.on) ∧ OnlyField s.m m ∧ m.irq = s.m.irq)) ∧
  (∀ (s : State) (ch t : Nat) (x : DiCh), (s.m.tick t).fieldRuns = true → s.m.field.di[ch]? = some x →
    diEnc s.m ch = false →
    Completes (.comparatorTest ch true true t) s (fun m => m.field.di[ch]? = some { x with
        testAt := some (max s.m.now t), testFail0 := 0, testFail1 := 0, tseq := x.tseq + 1 } ∧ OnlyField s.m m)) ∧
  (∀ (s : State) (ch t : Nat) (second : Bool) (x : DiCh), (s.m.tick t).fieldRuns = true → s.m.field.di[ch]? = some x →
    diEnc s.m ch = false → 1 ≤ x.testFail0 → x.latch = false → standsNow 6 x.found = false →
    Completes (.comparatorTest ch false second t) s (fun m => (m.field.di[ch]?).map (fun y =>
        (y.fault, y.latch, y.valid, y.tseq)) = some (6, true, false, x.tseq) ∧ OnlyField s.m m)) ∧
  (∀ (s : State) (ch t : Nat) (x : DiCh), s.m.field.di[ch]? = some x → x.found ≠ [] → x.latch = false →
    stillFound (max s.m.now t) x.found = [] →
    Completes (.inputFaultClear .digital ch t) s (fun m => (m.field.di[ch]?).map (fun y =>
        (y.fault, y.fcnt, y.level, y.valid, y.revalidate)) = some (0, 0, false, x.valid, true) ∧ OnlyField s.m m)) ∧
  (∀ (s : State) (ch t : Nat) (x : AiCh), s.m.field.ai[ch]? = some x → x.found ≠ [] → x.latch = false →
    stillFound (max s.m.now t) x.found = [] →
    Completes (.inputFaultClear .analogue ch t) s (fun m => m.field.ai[ch]? = some { x with found := [], okRun := 0 } ∧
      OnlyField s.m m ∧ m.irq = s.m.irq))

/-- R202 to R207, R212: the encoder and the analogue inputs. The model's choices that it names stand in logs 18, 21. -/
def Obligations.EncoderAndAnalogue : Prop :=
  (∀ (s : State) (a b : Bool) (t : Nat), (s.m.tick t).fieldRuns = true → diEnc s.m 46 = true →
    s.m.field.enc.illegal = false → s.m.field.enc.overfreq = false → s.m.field.enc.edgeA = none →
    s.m.field.enc.edgeB = none → s.m.field.enc.illAt = [] →
    (quadPhase a b + 4 - quadPhase s.m.field.enc.lastA s.m.field.enc.lastB) % 4 = 1 →
    Completes (.encoderEdge a b t) s (fun m => m.field.enc.count = s.m.field.enc.count + 1 ∧
      m.field.enc.lastA = a ∧ m.field.enc.lastB = b ∧ m.field.enc.valid = s.m.field.enc.valid ∧
      { m with now := s.m.now, field := { m.field with enc := s.m.field.enc } } = s.m)) ∧
  (∀ (s : State) (a b : Bool) (t : Nat), (s.m.tick t).fieldRuns = true → diEnc s.m 46 = true →
    s.m.field.enc.illegal = false → s.m.field.enc.overfreq = false → s.m.field.enc.edgeA = none →
    s.m.field.enc.edgeB = none → s.m.field.enc.illAt = [] →
    (quadPhase a b + 4 - quadPhase s.m.field.enc.lastA s.m.field.enc.lastB) % 4 = 3 →
    Completes (.encoderEdge a b t) s (fun m => m.field.enc.count = s.m.field.enc.count - 1 ∧
      m.field.enc.lastA = a ∧ m.field.enc.lastB = b ∧ m.field.enc.valid = s.m.field.enc.valid)) ∧
  (∀ (s : State) (a b : Bool) (t u : Nat), (s.m.tick t).fieldRuns = true → diEnc s.m 46 = true →
    s.m.field.enc.illAt = [u] → max s.m.now t < u + 10000000 → a ≠ s.m.field.enc.lastA → b ≠ s.m.field.enc.lastB →
    (∀ x ∈ s.m.field.di, x.latch = false ∧ standsNow 8 x.found = false) → 48 ≤ s.m.field.di.length →
    Completes (.encoderEdge a b t) s (fun m => m.field.enc.count = s.m.field.enc.count ∧
      m.field.enc.illCnt = satInc s.m.field.enc.illCnt ∧ m.field.enc.valid = false ∧
      (m.field.di[46]?).map (fun x => (x.valid, x.fault)) = some (false, 8) ∧
      (m.field.di[47]?).map (fun x => (x.valid, x.fault)) = some (false, 8) ∧ OnlyField s.m m)) ∧
  (∀ (s : State) (t : Nat), (s.m.tick t).fieldRuns = true → diEnc s.m 46 = true →
    Completes (.encoderSpeedUpdate t) s (fun m =>
      m.field.enc.speed = BitVec.ofInt 24 ((s.m.field.enc.count - s.m.field.enc.speedBase).toInt * 100) ∧
      m.field.enc.speedBase = s.m.field.enc.count ∧ m.field.enc.count = s.m.field.enc.count ∧
      m.field.enc.valid = s.m.field.enc.valid ∧
      { m with now := s.m.now, field := { m.field with enc := s.m.field.enc } } = s.m)) ∧
  (∀ (s : State) (t : Nat), (s.m.tick t).fieldRuns = true → diEnc s.m 46 = true → s.m.field.enc.valid = false →
    s.m.field.enc.illegal = false → s.m.field.enc.overfreq = false → s.m.field.fsm.held = false →
    s.m.field.enc.condAt + 1000000000 ≤ max s.m.now t → (s.m.field.di[46]?).any trackFree = true →
    (s.m.field.di[47]?).any trackFree = true →
    Completes (.encoderRevalid t) s (fun m => m.field.enc.valid = true ∧
      (m.field.di[46]?).map (fun x => (x.valid, x.fault)) = some (true, 0) ∧
      (m.field.di[47]?).map (fun x => (x.valid, x.fault)) = some (true, 0) ∧ OnlyField s.m m)) ∧
  (∀ (s : State) (ch code t : Nat) (x : AiCh), (s.m.tick t).fieldRuns = true → s.m.field.ai[ch]? = some x → code < 7200 →
    2 ≤ x.lowRun → x.latch = false → standsNow 1 x.found = false → s.m.mod.mode ≠ .commission →
    Completes (.analogueConversion ch code t) s (fun m => (m.field.ai[ch]?).map (fun y => (y.code, y.fault, y.valid)) =
        some (BitVec.ofNat 16 code, 1, false) ∧ OnlyField s.m m ∧ ∀ k, k ≠ ch → m.field.ai[k]? = s.m.field.ai[k]?)) ∧
  (∀ (s : State) (ch code t : Nat) (x : AiCh), (s.m.tick t).fieldRuns = true → s.m.field.ai[ch]? = some x → 42000 < code →
    code < 65536 → 2 ≤ x.highRun → x.latch = false → standsNow 2 x.found = false → s.m.mod.mode ≠ .commission →
    Completes (.analogueConversion ch code t) s (fun m => (m.field.ai[ch]?).map (fun y => (y.code, y.fault, y.valid)) =
        some (BitVec.ofNat 16 code, 2, false) ∧ OnlyField s.m m)) ∧
  (∀ (s : State) (ch code t : Nat) (x : AiCh), (s.m.tick t).fieldRuns = true → s.m.field.ai[ch]? = some x → 7200 ≤ code →
    code ≤ 42000 → 2 ≤ x.okRun → x.found = [] → x.latch = false → x.unusable = false → s.m.field.fsm.held = false →
    s.m.mod.mode ≠ .commission →
    Completes (.analogueConversion ch code t) s (fun m => (m.field.ai[ch]?).map (fun y =>
        (y.code, y.fault, y.valid, y.group.ready)) = some (BitVec.ofNat 16 code, 0, true, true) ∧ OnlyField s.m m)) ∧
  (∀ (s : State) (ch r t : Nat) (high : Bool) (x : AiCh), (s.m.tick t).fieldRuns = true → s.m.field.ai[ch]? = some x →
    (if high then 40000 else 8000) ≤ r + 80 → r ≤ (if high then 40000 else 8000) + 80 →
    Completes (.analogueReferenceCheck ch high r t) s (fun m => m.field.ai[ch]? = some (if high then
        { x with refHi := satOf 16 r, failHi := 0, convAt := some (max s.m.now t) }
        else { x with refLo := satOf 16 r, failLo := 0, convAt := some (max s.m.now t) }) ∧
      OnlyField s.m m ∧ m.irq = s.m.irq)) ∧
  (∀ (s : State) (ch r t : Nat) (high : Bool) (x : AiCh), (s.m.tick t).fieldRuns = true → s.m.field.ai[ch]? = some x →
    (r + 80 < (if high then 40000 else 8000) ∨ (if high then 40000 else 8000) + 80 < r) →
    1 ≤ (if high then x.failHi else x.failLo) → x.latch = false → standsNow 3 x.found = false →
    Completes (.analogueReferenceCheck ch high r t) s (fun m => (m.field.ai[ch]?).map (fun y =>
        (y.fault, y.latch, y.valid)) = some (3, true, false) ∧ OnlyField s.m m))

/-- R190, R191, R208 to R210, R217, R234: the field supply monitor. The model's choices that it names stand in log 18.
-/
def Obligations.FieldSupply : Prop :=
  (∀ (s : State) (v : Int) (t : Nat), s.m.power.powered = true → s.m.field.fsm.frozen = false → 800 ≤ v →
    Completes (.fieldSupplySample v t) s (fun m => m.field.fsm.volt = satInt 16 v ∧
      m.field.fsm.samples = (v :: s.m.field.fsm.samples).take 100 ∧ m.field.fsm.lastAt = some (max s.m.now t) ∧
      (∀ l, (m.lane l).fsmHeld = s.m.field.fsm.held ∧ (m.lane l).fsmAt = some (max s.m.now t)) ∧
      m.field.di = s.m.field.di ∧ m.field.out = s.m.field.out ∧ m.mod = s.m.mod ∧
      ∀ l, (m.lane l).agr = (s.m.lane l).agr)) ∧
  (∀ (s : State) (t u : Nat), s.m.field.fsm.low = false → s.m.field.fsm.lowFrom = some u → u + 900000 ≤ max s.m.now t →
    Completes (.fsLow t) s (fun m => m.field.fsm = { s.m.field.fsm with low := true } ∧ OnlyField s.m m ∧
      m.field.di = s.m.field.di ∧ m.field.out = s.m.field.out)) ∧
  (∀ (s : State) (t u : Nat), s.m.field.fsm.okFrom = some u → u + 900000 ≤ max s.m.now t →
    Becomes (.fsLowClear t) s { s.m.tick t with field := { s.m.field with fsm := { s.m.field.fsm with low := false } } }) ∧
  (∀ (s : State) (t : Nat), s.m.field.fsm.sag = false → 2 ≤ s.m.field.fsm.sagRun → s.m.field.fsm.frozen = false →
    (∀ x ∈ s.m.field.di, x.latch = true ∨ standsNow 7 x.found = true → x.valid = false) →
    (∀ x ∈ s.m.field.ai, x.latch = true ∨ standsNow 7 x.found = true → x.valid = false) → s.m.field.di.length = 48 →
    s.m.field.ai.length = 8 → s.m.field.out.length = 24 →
    Completes (.fsSag t) s (fun m => m.field.fsm.sag = true ∧ (∀ x ∈ m.field.di, x.valid = false) ∧
      (∀ x ∈ m.field.ai, x.valid = false) ∧ m.field.enc.valid = false ∧
      (∀ x ∈ m.field.out, x.avail = false ∧ x.armed = false ∧ x.inhibit = true) ∧
      (∀ l, (m.lane l).fsmHeld = true ∧ (m.lane l).fsmAt = some (max s.m.now t)) ∧
      m.field.fsm.sags = satInc s.m.field.fsm.sags ∧ m.mod.mode = s.m.mod.mode)) ∧
  (∀ (s : State) (t : Nat), s.m.field.fsm.rev = false → 2 ≤ s.m.field.fsm.revRun → s.m.field.fsm.frozen = false →
    (∀ x ∈ s.m.field.di, x.latch = true ∨ standsNow 7 x.found = true → x.valid = false) → s.m.field.di.length = 48 →
    s.m.field.out.length = 24 →
    Completes (.fsRev t) s (fun m => m.field.fsm.rev = true ∧ (∀ x ∈ m.field.di, x.valid = false) ∧
      (∀ x ∈ m.field.out, x.avail = false ∧ x.armed = false ∧ x.inhibit = true) ∧
      (∀ l, (m.lane l).fsmHeld = true))) ∧
  (∀ (s : State) (t u : Nat), s.m.field.fsm.high = false → s.m.field.fsm.highFrom = some u →
    u + 900000 ≤ max s.m.now t → s.m.field.fsm.frozen = false →
    (∀ x ∈ s.m.field.di, x.latch = true ∨ standsNow 7 x.found = true → x.valid = false) → s.m.field.di.length = 48 →
    s.m.field.out.length = 24 →
    Completes (.fsHigh t) s (fun m => m.field.fsm.high = true ∧ (∀ x ∈ m.field.di, x.valid = false) ∧
      (∀ x ∈ m.field.out, x.avail = false ∧ x.armed = false ∧ x.inhibit = true) ∧
      (∀ l, (m.lane l).fsmHeld = true))) ∧
  (∀ (s : State) (t u : Nat), s.m.field.fsm.held = true → s.m.field.fsm.rangeFrom = some u →
    u + 200000000 ≤ max s.m.now t → s.m.field.fsm.frozen = false → s.m.field.di.length = 48 → s.m.field.ai.length = 8 →
    Completes (.fsRelease t) s (fun m => m.field.fsm.sag = false ∧ m.field.fsm.rev = false ∧ m.field.fsm.high = false ∧
      (∀ l, (m.lane l).fsmHeld = false ∧ (m.lane l).fsmAt = some (max s.m.now t)) ∧
      (∀ x ∈ m.field.di, ∀ f ∈ x.found, f.code ≠ 7) ∧
      (∀ x ∈ m.field.ai, ∀ f ∈ x.found, f.code ≠ 7) ∧ m.mod.mode = s.m.mod.mode)) ∧
  (∀ (s : State) (t : Nat), s.m.field.fsm.frozen = true → s.m.field.fsm.freezeAt + 100000 ≤ max s.m.now t →
    Completes (.fsmFreezeEnd t) s (fun m => m.field.fsm.frozen = false ∧
      (∀ l, (m.lane l).fsmHeld = s.m.field.fsm.held ∧ (m.lane l).fsmAt = some (max s.m.now t)) ∧
      { m with now := s.m.now, lanes := s.m.lanes, field := s.m.field } = s.m ∧ m.field.di = s.m.field.di)) ∧
  (∀ (s : State) (t : Nat) (sd : StationData) (lo hi : Nat), (s.m.tick t).fieldRuns = true → s.m.field.fsm.held = false →
    s.m.field.fsm.samples.length = 100 → 100 ≤ s.m.field.fsm.sinceRelease → s.m.sd = some sd →
    sd.settings.thrMin = some lo → sd.settings.thrMax = some hi → lo ≤ s.m.field.fsm.thrOn.toNat →
    s.m.field.fsm.thrOn.toNat ≤ hi → hi < 128 → (lo : Int) ≤ thrTarget s.m.field.fsm.samples →
    thrTarget s.m.field.fsm.samples ≤ (hi : Int) →
    Completes (.thresholdUpdate t) s (fun m =>
      (m.field.fsm.thrOn.toNat : Int) = (if (s.m.field.fsm.thrOn.toNat : Int) < thrTarget s.m.field.fsm.samples then
        min (thrTarget s.m.field.fsm.samples) (s.m.field.fsm.thrOn.toNat + 2)
        else max (thrTarget s.m.field.fsm.samples) ((s.m.field.fsm.thrOn.toNat : Int) - 2)) ∧
      m.field.fsm.pinned = false ∧ OnlyField s.m m))

/-- R221, R222, R230, R232, R233, R235, R236: what readback finds at a safety output, and what its coupler frame shows.
The model's choices that it names stand in log 18. -/
def Obligations.OutputReadback : Prop :=
  (∀ (s : State) (n : Nat) (vp vn v : Int) (t code : Nat) (x : OutCh) (c : OutCfg), s.m.power.powered = true →
    s.m.field.fsm.samples.head? = some v → 800 ≤ v → s.m.field.out[n]? = some x → s.m.outCfg n = some c → c.used = true →
    s.m.field.fsm.held = false → x.drvPos = false → x.drvNeg = false → x.test = none →
    x.settleAt + 20000000 ≤ max s.m.now t → x.fault = 0 → x.latch = false → x.unusable = false →
    code = (if 70 * v ≤ 100 * vp ∧ 70 * v ≤ 100 * vn then 1 else if 100 * vp ≤ 30 * v ∧ 100 * vn ≤ 30 * v then 2 else 11) →
    ((70 * v ≤ 100 * vp ∨ 100 * vp ≤ 30 * v) ∨ (70 * v ≤ 100 * vn ∨ 100 * vn ≤ 30 * v)) →
    ¬(100 * vp ≤ 30 * v ∧ 70 * v ≤ 100 * vn) → x.judge = code → x.judgeRun = 9 →
    Completes (.offStateJudgement n vp vn t) s (fun m =>
      (m.field.out[n]?).map (fun y => (y.fault.toNat, y.isFault, y.avail, y.armed, y.inhibit)) = some (code, true, false, false, true) ∧
      (m.field.out[n]?).map (fun y => (y.vpos, y.vneg, y.pos, y.neg)) = some (satInt 16 vp, satInt 16 vn, false, false) ∧
      (∀ k, k ≠ n → m.field.out[k]? = s.m.field.out[k]?) ∧ m.lanes = s.m.lanes ∧ m.cal = s.m.cal ∧ m.mod.mode = s.m.mod.mode)) ∧
  (∀ (s : State) (n mA : Nat) (vp vn : Int) (t u : Nat) (x : OutCh) (c : OutCfg), s.m.fieldRuns = true → s.m.field.out[n]? = some x →
    s.m.outCfg n = some c → c.used = true → c.old = true → c.ored = false → s.m.field.fsm.held = false →
    x.drvPos = true → x.drvNeg = true → x.test = none → x.driveAt + 1000000 ≤ max s.m.now t → mA < c.imin.getD 5 →
    x.lowCurAt = some u → u + 100000000 ≤ max s.m.now t → x.isFault = false → x.latch = false → x.unusable = false →
    mA < 4096 →
    Completes (.openLoadOn n mA vp vn t) s (fun m =>
      (m.field.out[n]?).map (fun y => (y.fault, y.isFault, y.cur.toNat, y.drvPos, y.drvNeg)) = some (6, false, mA, true, true) ∧
      (m.field.out[n]?).map (fun y => (y.armed, y.inhibit, y.vpos, y.vneg)) = some (x.armed, x.inhibit, satInt 16 vp, satInt 16 vn) ∧
      (x.fault ≠ 6 → (m.field.out[n]?).map (fun y => y.avail) = some false) ∧
      (∀ k, k ≠ n → m.field.out[k]? = s.m.field.out[k]?) ∧ m.lanes = s.m.lanes ∧ m.mod.mode = s.m.mod.mode)) ∧
  (∀ (s : State) (n : Nat) (temp : Int) (t u : Nat) (x : OutCh), s.m.field.out[n]? = some x → x.healthyAt = some u →
    u + 1000000000 ≤ max s.m.now t → x.latch = false → s.m.field.fsm.held = false → x.isFault = true → x.unusable = false →
    (x.fault = 9 → temp < 120) → x.noPos < 8 → x.noNeg < 8 →
    Completes (.outputFaultClear n temp t) s (fun m =>
      (m.field.out[n]?).map (fun y => (y.fault, y.isFault, y.avail, y.armed)) = some (0, false, true, x.armed) ∧
      (∀ k, k ≠ n → m.field.out[k]? = s.m.field.out[k]?) ∧ OnlyField s.m m)) ∧
  (∀ (s : State) (n : Nat) (temp : Int) (t : Nat) (x : OutCh), s.m.field.out[n]? = some x → x.latch = true →
    Becomes (.outputFaultClear n temp t) s (s.m.tick t)) ∧
  (∀ (s : State) (n : Nat) (okA okB okC : Bool) (t : Nat) (x : OutCh), s.m.fieldRuns = true → s.m.field.out[n]? = some x →
    (∀ l, n < (s.m.lane l).outs.length) →
    Completes (.outputCouplerFrame n okA okB okC t) s (fun m =>
      m.field = (s.m.updOut n (fun y => { y with toggle := !x.toggle })).field ∧
      (∀ l, ((m.lane l).outs[n]?).map (fun f => (f.avail, f.code, f.armed, f.toggle)) = some (x.avail, x.fault, x.armed, !x.toggle)) ∧
      (∀ l, ((m.lane l).outs[n]?).map (fun f => (f.checkOk, f.at0)) =
        some ((match l with | .a => okA | .b => okB | .c => okC), some (max s.m.now t))) ∧
      (∀ l k, k ≠ n → (m.lane l).outs[k]? = (s.m.lane l).outs[k]?) ∧
      (∀ l, (m.lane l).agr = (s.m.lane l).agr ∧ (m.lane l).mem = (s.m.lane l).mem ∧ (m.lane l).drive = (s.m.lane l).drive) ∧
      m.cal = s.m.cal ∧ m.mod = s.m.mod)) ∧
  (∀ (s : State) (n t : Nat) (x : OutCh), s.m.fieldRuns = true → s.m.field.out[n]? = some x →
    (x.drvPos = true ∨ x.drvNeg = true) → outUsed s.m n = true → x.test = none → x.fault = 0 → x.latch = false → x.unusable = false →
    Completes (.overload n t) s (fun m =>
      (m.field.out[n]?).map (fun y => (y.fault, y.isFault, y.latch, y.avail)) = some (3, true, false, false) ∧
      (m.field.out[n]?).map (fun y => (y.armed, y.inhibit, y.drvPos, y.drvNeg)) = some (false, true, false, false) ∧
      (m.field.out[n]?).map (fun y => y.faults) = some (satInc x.faults) ∧
      (∀ k, k ≠ n → m.field.out[k]? = s.m.field.out[k]?) ∧ m.lanes = s.m.lanes ∧ m.cal = s.m.cal ∧ m.mod.mode = s.m.mod.mode)) ∧
  (∀ (s : State) (n : Nat) (temp : Int) (t : Nat) (x : OutCh), s.m.fieldRuns = true → s.m.field.out[n]? = some x →
    Completes (.thermalFoldback n temp t) s (fun m =>
      (m.field.out[n]?).map (fun y => (y.fold, y.temp)) = some (decide (150 < temp), satInt 8 temp) ∧
      (m.field.out[n]?).map (fun y => (y.fault, y.avail, y.armed, y.inhibit)) = some (x.fault, x.avail, x.armed, x.inhibit) ∧
      (∀ k, k ≠ n → m.field.out[k]? = s.m.field.out[k]?) ∧ OnlyField s.m m)) ∧
  (∀ (s : State) (n : Nat) (temp : Int) (t : Nat) (x : OutCh), s.m.fieldRuns = true → s.m.field.out[n]? = some x →
    outUsed s.m n = true → x.test = none → 175 ≤ temp → x.fault = 0 → x.latch = false → x.unusable = false →
    Completes (.overtemperature n temp t) s (fun m =>
      (m.field.out[n]?).map (fun y => (y.fault, y.isFault, y.latch, y.avail)) = some (9, true, false, false) ∧
      (m.field.out[n]?).map (fun y => (y.armed, y.inhibit, y.drvPos, y.drvNeg)) = some (false, true, false, false) ∧
      (m.field.out[n]?).map (fun y => y.temp) = some (satInt 8 temp) ∧
      (∀ k, k ≠ n → m.field.out[k]? = s.m.field.out[k]?) ∧ m.lanes = s.m.lanes))

/-- R223 to R228: a test pulse from the start of its period to its judgement. The model's choices that it names stand in
log 24. -/
def Obligations.TestPulses : Prop :=
  (∀ (s : State) (t n : Nat) (x : OutCh), s.m.evaluates = true → s.m.cycleMs ≠ 0 → s.m.cycleNo.toNat * s.m.cycleMs % 1024 = 0 →
    s.m.field.periodOn = true → s.m.field.periodAt ≠ (s.m.lane s.m.viewLane).t0 → n < 24 → s.m.field.out[n]? = some x →
    outUsed s.m n = true → x.isFault = false → x.latch = false → x.unusable = false → s.m.field.fsm.held = false →
    Completes (.testPeriodStart t) s (fun m =>
      m.field.periodOn = true ∧ m.field.periodAt = (s.m.lane s.m.viewLane).t0 ∧
      (m.field.out[n]?).map (fun y => (y.posAge, y.negAge, y.judgedPos, y.judgedNeg)) =
        some (satInc x.posAge, satInc x.negAge, false, false) ∧
      (m.field.out[n]?).map (fun y => (y.noPos, y.noNeg)) =
        some (if x.judgedPos then x.noPos else x.noPos + 1, if x.judgedNeg then x.noNeg else x.noNeg + 1) ∧
      (7 ≤ x.noPos → x.judgedPos = false → x.fault ≠ 10 →
        (m.field.out[n]?).map (fun y => (y.overdue, y.avail, y.fault)) = some (true, false, 10)) ∧
      m.lanes = s.m.lanes ∧ m.mod.mode = s.m.mod.mode)) ∧
  (∀ (s : State) (n : Nat) (p : Pole) (opened matched : Bool) (t : Nat) (x : OutCh), s.m.field.out[n]? = some x →
    (s.m.tick t).pulseMay n x = true → (s.m.tick t).pulseCalled n x p = true → s.m.latchedBit n = true →
    x.changedBefore (max s.m.now t) = false → (∀ l, s.m.life l ≠ .voting → (s.m.lane l).drive.windings = 0) →
    Completes (.darkPulse n p opened matched t) s (fun m =>
      (m.field.out[n]?).map (fun y => (y.test, y.tpole, y.tphase, y.pulseAt)) = some (some .dark, p, 1, max s.m.now t) ∧
      (m.field.out[n]?).map (fun y => (y.pendOk, y.pendMatch)) = some (opened, matched) ∧
      (m.field.out[n]?).map (fun y => (match p with | .pos => y.drvPos | .neg => y.drvNeg)) = some false ∧
      (m.field.out[n]?).map (fun y => (match p with | .pos => y.drvNeg | .neg => y.drvPos)) =
        some (match p with | .pos => x.drvNeg | .neg => x.drvPos) ∧
      (∀ k, k ≠ n → m.field.out[k]? = s.m.field.out[k]?) ∧ OnlyField s.m m)) ∧
  (∀ (s : State) (n : Nat) (p : Pole) (opened matched : Bool) (t : Nat) (x : OutCh), s.m.field.out[n]? = some x →
    (s.m.tick t).pulseMay n x = true → (s.m.tick t).pulseCalled n x p = true → s.m.latchedBit n = true →
    x.changedBefore (max s.m.now t) = true → x.repeatsPos < 2 → x.repeatsNeg < 2 →
    Completes (.darkPulse n p opened matched t) s (fun m =>
      (m.field.out[n]?).map (fun y => (y.test, y.disc, y.repeatDue)) =
        some (none, satInc x.disc, some (p, max s.m.now t + 5000000)) ∧
      (m.field.out[n]?).map (fun y => (y.drvPos, y.drvNeg, y.fault)) = some (x.drvPos, x.drvNeg, x.fault) ∧
      (∀ k, k ≠ n → m.field.out[k]? = s.m.field.out[k]?) ∧ OnlyField s.m m)) ∧
  (∀ (s : State) (n : Nat) (p : Pole) (seen : List CrossChange) (t : Nat) (x : OutCh), s.m.field.out[n]? = some x →
    (∀ d ∈ seen, (s.m.tick t).crossFound n d = s.m.tick t) →
    x.runs .dark p 1 200000 (max s.m.now t) = true → x.pendMatch = true → x.pendOk = true →
    Completes (.darkPulseRedrive n p seen t) s (fun m =>
      (m.field.out[n]?).map (fun y => (y.test, y.tphase, y.fault)) = some (some .dark, 2, x.fault) ∧
      (∀ k, k ≠ n → m.field.out[k]? = s.m.field.out[k]?) ∧ m.lanes = s.m.lanes ∧ m.mod = s.m.mod ∧ m.cal = s.m.cal)) ∧
  (∀ (s : State) (n : Nat) (p : Pole) (seen : List CrossChange) (t : Nat) (x : OutCh), s.m.field.out[n]? = some x →
    (∀ d ∈ seen, (s.m.tick t).crossFound n d = s.m.tick t) →
    x.runs .dark p 1 200000 (max s.m.now t) = true → x.pendMatch = true → x.pendOk = false → x.fault = 0 → x.latch = false →
    x.unusable = false →
    Completes (.darkPulseRedrive n p seen t) s (fun m =>
      (m.field.out[n]?).map (fun y => (y.fault, y.isFault, y.latch, y.avail)) = some (4, true, true, false) ∧
      (m.field.out[n]?).map (fun y => (y.armed, y.inhibit, y.drvPos, y.drvNeg)) = some (false, true, false, false) ∧
      (m.field.out[n]?).map (fun y => (y.test, y.fromDark)) = some (none, some p) ∧
      (∀ k, k ≠ n → m.field.out[k]? = s.m.field.out[k]?) ∧ m.lanes = s.m.lanes ∧ m.mod.mode = s.m.mod.mode)) ∧
  (∀ (s : State) (n : Nat) (p : Pole) (seen : List CrossChange) (t : Nat) (x : OutCh), s.m.field.out[n]? = some x →
    (∀ d ∈ seen, (s.m.tick t).crossFound n d = s.m.tick t) →
    x.runs .dark p 2 320000 (max s.m.now t) = true → x.fault = 0 →
    Completes (.darkPulseRecloseCheck n p true seen t) s (fun m =>
      (m.field.out[n]?).map (fun y => (y.test, y.tphase, y.done, y.fault)) = some (none, 0, satInc x.done, 0) ∧
      (m.field.out[n]?).map (fun y => (match p with | .pos => (y.posOk, y.posAge, y.noPos, y.judgedPos) | .neg => (y.negOk, y.negAge, y.noNeg, y.judgedNeg))) = some (true, 0, 0, true) ∧
      (∀ k, k ≠ n → m.field.out[k]? = s.m.field.out[k]?) ∧ OnlyField s.m m)) ∧
  (∀ (s : State) (n : Nat) (p : Pole) (seen : List CrossChange) (t : Nat) (x : OutCh), s.m.field.out[n]? = some x →
    (∀ d ∈ seen, (s.m.tick t).crossFound n d = s.m.tick t) →
    x.runs .dark p 2 320000 (max s.m.now t) = true → x.fault = 0 → x.latch = false → x.unusable = false →
    Completes (.darkPulseRecloseCheck n p false seen t) s (fun m =>
      (m.field.out[n]?).map (fun y => (y.fault, y.isFault, y.latch, y.avail)) = some (5, true, true, false) ∧
      (m.field.out[n]?).map (fun y => (match p with | .pos => y.posOk | .neg => y.negOk)) = some false ∧
      (∀ k, k ≠ n → m.field.out[k]? = s.m.field.out[k]?) ∧ m.lanes = s.m.lanes)) ∧
  (∀ (s : State) (n : Nat) (p : Pole) (closed follow matched : Bool) (t : Nat) (x : OutCh), s.m.field.out[n]? = some x →
    (s.m.tick t).pulseMay n x = true → (s.m.tick t).pulseCalled n x p = true → s.m.latchedBit n = false →
    s.m.oredLightOk n = true → x.changedBefore (max s.m.now t) = false →
    Completes (.lightPulse n p closed follow matched t) s (fun m =>
      (m.field.out[n]?).map (fun y => (y.test, y.tpole, y.tphase, y.pulseAt)) = some (some .light, p, 1, max s.m.now t) ∧
      (m.field.out[n]?).map (fun y => (y.pendOk, y.pendFollow)) = some (closed, follow) ∧
      (matched = false → (m.field.out[n]?).map (fun y => y.pendMatch) = some false) ∧
      (m.field.out[n]?).map (fun y => (match p with | .pos => y.drvNeg | .neg => y.drvPos)) =
        some (match p with | .pos => x.drvNeg | .neg => x.drvPos) ∧
      (∀ k, k ≠ n → m.field.out[k]? = s.m.field.out[k]?) ∧ m.lanes = s.m.lanes ∧ m.mod = s.m.mod)) ∧
  (∀ (s : State) (n : Nat) (p : Pole) (seen : List CrossChange) (t : Nat) (x : OutCh), s.m.field.out[n]? = some x →
    (∀ d ∈ seen, (s.m.tick t).crossFound n d = s.m.tick t) →
    x.runs .light p 1 200000 (max s.m.now t) = true → x.pendMatch = true → x.pendOk = true →
    Completes (.lightPulseEnd n p seen t) s (fun m =>
      (m.field.out[n]?).map (fun y => (y.test, y.tphase, y.fault)) = some (some .light, 2, x.fault) ∧
      (∀ k, k ≠ n → m.field.out[k]? = s.m.field.out[k]?) ∧ m.lanes = s.m.lanes ∧ m.mod = s.m.mod)) ∧
  (∀ (s : State) (n : Nat) (p : Pole) (seen : List CrossChange) (t : Nat) (x : OutCh), s.m.field.out[n]? = some x →
    (∀ d ∈ seen, (s.m.tick t).crossFound n d = s.m.tick t) →
    x.runs .light p 1 200000 (max s.m.now t) = true → x.pendMatch = true → x.pendOk = false → x.fault = 0 → x.latch = false →
    x.unusable = false →
    Completes (.lightPulseEnd n p seen t) s (fun m =>
      (m.field.out[n]?).map (fun y => (y.test, y.fault, y.isFault, y.latch)) = some (none, 5, true, true) ∧
      (m.field.out[n]?).map (fun y => (y.avail, y.armed, y.inhibit)) = some (false, false, true) ∧
      (∀ k, k ≠ n → m.field.out[k]? = s.m.field.out[k]?) ∧ m.lanes = s.m.lanes)) ∧
  (∀ (s : State) (n : Nat) (p : Pole) (seen : List CrossChange) (t : Nat) (x : OutCh) (c : OutCfg), s.m.field.out[n]? = some x →
    (∀ d ∈ seen, (s.m.tick t).crossFound n d = s.m.tick t) → s.m.outCfg n = some c →
    x.runs .light p 2 300000 (max s.m.now t) = true → (x.pendFollow = true ∨ c.ored = true) → x.fault = 0 →
    Completes (.lightPulseVerify n p true seen t) s (fun m =>
      (m.field.out[n]?).map (fun y => (y.test, y.done, y.fault)) = some (none, satInc x.done, 0) ∧
      (m.field.out[n]?).map (fun y => (match p with | .pos => (y.posOk, y.posAge, y.noPos) | .neg => (y.negOk, y.negAge, y.noNeg))) = some (true, 0, 0) ∧
      (∀ k, k ≠ n → m.field.out[k]? = s.m.field.out[k]?) ∧ OnlyField s.m m)) ∧
  (∀ (s : State) (n : Nat) (p : Pole) (seen : List CrossChange) (t : Nat) (x : OutCh), s.m.field.out[n]? = some x →
    (∀ d ∈ seen, (s.m.tick t).crossFound n d = s.m.tick t) →
    x.runs .light p 2 300000 (max s.m.now t) = true → x.fault = 0 → x.latch = false → x.unusable = false →
    Completes (.lightPulseVerify n p false seen t) s (fun m =>
      (m.field.out[n]?).map (fun y => (y.test, y.fault, y.isFault, y.latch)) = some (none, 4, true, true) ∧
      (∀ k, k ≠ n → m.field.out[k]? = s.m.field.out[k]?) ∧ m.lanes = s.m.lanes)) ∧
  (∀ (s : State) (n : Nat) (p : Pole) (seen : List CrossChange) (t : Nat) (x : OutCh) (c : OutCfg), s.m.field.out[n]? = some x →
    (∀ d ∈ seen, (s.m.tick t).crossFound n d = s.m.tick t) → s.m.outCfg n = some c →
    x.runs .light p 2 300000 (max s.m.now t) = true → x.pendFollow = false → c.old = true → c.ored = false → x.fault = 0 →
    x.isFault = false → x.latch = false → x.unusable = false → s.m.field.fsm.held = false →
    Completes (.lightPulseVerify n p true seen t) s (fun m =>
      (m.field.out[n]?).map (fun y => (y.test, y.fault, y.isFault, y.avail)) = some (none, 6, false, false) ∧
      (m.field.out[n]?).map (fun y => y.armed) = some x.armed ∧
      (∀ k, k ≠ n → m.field.out[k]? = s.m.field.out[k]?) ∧ m.lanes = s.m.lanes)) ∧
  (∀ (s : State) (n : Nat) (p : Pole) (ok : Bool) (c : CrossChange) (t q : Nat) (x y : OutCh) (g : OutCfg) (i : Instr),
    s.m.field.out[n]? = some x → s.m.field.out[c.out]? = some y → s.m.outCfg c.out = some g → c.out ≠ n → g.used = true →
    (c.current && g.ored) = false → x.test.isSome = true → y.test = none → x.unusable = false → y.unusable = false →
    x.fault ≠ 8 → y.fault ≠ 8 → x.pulseAt + c.after ≤ max s.m.now t → x.pulseEnd = some q →
    x.pulseAt + c.after ≤ q + 100000 → y.changedBefore (x.pulseAt + c.after) = false →
    i ∈ [.darkPulseRedrive n p [c] t, .darkPulseRecloseCheck n p ok [c] t, .lightPulseEnd n p [c] t,
      .lightPulseVerify n p ok [c] t] →
    Completes i s (fun m =>
      (m.field.out[n]?).map (fun z => (z.fault, z.isFault, z.latch, z.avail, z.xconn)) =
        some (8, true, true, false, BitVec.ofNat 5 c.out) ∧
      (m.field.out[c.out]?).map (fun z => (z.fault, z.isFault, z.latch, z.avail, z.xconn)) =
        some (8, true, true, false, BitVec.ofNat 5 n) ∧
      (m.field.out[n]?).map (fun z => z.test) = some none ∧
      (∀ k, k ≠ n → k ≠ c.out → m.field.out[k]? = s.m.field.out[k]?) ∧ m.lanes = s.m.lanes ∧ m.mod.mode = s.m.mod.mode)) ∧
  (∀ (s : State) (n : Nat) (p : Pole) (t due : Nat) (x : OutCh), s.m.field.out[n]? = some x → x.repeatDue = some (p, due) →
    due ≤ max s.m.now t →
    Completes (.pulseRepeat n p t) s (fun m =>
      (m.field.out[n]?).map (fun y => (y.repeatDue, y.repeatNow)) = some (none, some p) ∧
      (m.field.out[n]?).map (fun y => (y.repeatsPos, y.repeatsNeg)) =
        some (match p with | .pos => (x.repeatsPos + 1, x.repeatsNeg) | .neg => (x.repeatsPos, x.repeatsNeg + 1)) ∧
      (∀ k, k ≠ n → m.field.out[k]? = s.m.field.out[k]?) ∧ OnlyField s.m m))

/-- R258 to R261, R271, R301: frames that pass a module. The model's choices that it names stand in log 38. -/
def Obligations.RingForwarding : Prop :=
  (∀ (s : State) (i : RingId) (d : Dir) (f : RingFrame) (c : RingCfg) (t : Nat), s.m.ringUsed i = some c →
    ((s.m.ring i).port d).service = true → ((s.m.ring i).port (otherDir d)).service = true → (s.m.ring i).turn = 0 →
    f.src ≠ c.node → f.hop.toNat < 253 → f.hop.toNat + 1 ≠ pathModules c f → cutCause f = none → f.aborted = false →
    (s.m.ring i).ibuf = [] → ((s.m.ring i).port (otherDir d)).busyUntil ≤ max s.m.now t →
    Completes (.ringFrameArrive i d f t) s (fun m =>
      (∃ k, (k = 99 ∨ k = 100) ∧ ((m.ring i).port (otherDir d)).lastTx = some { f with
        hop := f.hop + 1, dly := satAdd f.dly (((s.m.ring i).port d).linkDly.toNat + k) }) ∧
      ((m.ring i).port d).fwd = satInc ((s.m.ring i).port d).fwd ∧ (m.ring i).ifc = (s.m.ring i).ifc ∧
      OnlyRing i s.m m)) ∧
  (∀ (s : State) (i : RingId) (d : Dir) (f : RingFrame) (c : RingCfg) (t k : Nat), s.m.ringUsed i = some c →
    ((s.m.ring i).port d).service = true → ((s.m.ring i).port (otherDir d)).service = true → (s.m.ring i).turn = 0 →
    f.src ≠ c.node → f.hop.toNat < 253 → f.hop.toNat + 1 ≠ pathModules c f → cutCause f = some k → f.aborted = false →
    f.typ ≠ 11 → (s.m.ring i).ibuf = [] → ((s.m.ring i).port (otherDir d)).busyUntil ≤ max s.m.now t →
    Completes (.ringFrameArrive i d f t) s (fun m =>
      (((m.ring i).port (otherDir d)).lastTx.map (fun g => (g.aborted, g.payload, g.hop))) = some (true, f.payload, f.hop + 1) ∧
      ((m.ring i).port d).abortHere = satInc ((s.m.ring i).port d).abortHere ∧
      ((m.ring i).port d).lastCause = BitVec.ofNat 4 k ∧ ((m.ring i).port d).lastSrc = (if srcRead f then f.src else 0) ∧ ((m.ring i).port d).fwd = ((s.m.ring i).port d).fwd ∧
      OnlyRing i s.m m)) ∧
  (∀ (f : RingFrame), f.aborted = false → f.symErr = none → f.ver = 1 → f.typ = 1 → hcrcOk f = true → f.len = 16 →
    f.endOk = true → (cutCause f = none ↔ fcrcOk f = true)) ∧
  (∀ (s : State) (i : RingId) (d : Dir) (f : RingFrame) (c : RingCfg) (t : Nat), s.m.ringUsed i = some c →
    ((s.m.ring i).port d).service = true → (s.m.ring i).turn = 0 → f.src ≠ c.node → f.typ ≠ 11 → f.hop.toNat < 253 →
    f.hop.toNat + 1 = pathModules c f →
    Completes (.ringFrameArrive i d f t) s (fun m =>
      (∀ e, ((m.ring i).port e).lastTx = ((s.m.ring i).port e).lastTx) ∧ (m.ring i).ibuf = (s.m.ring i).ibuf ∧
      OnlyRing i s.m m)) ∧
  (∀ (s : State) (i : RingId) (f : RingFrame) (c : RingCfg) (t : Nat), s.m.ringUsed i = some c →
    (s.m.ring i).west.service = true → f.src = c.node → f.copy = ringCopy s.m c → f.typ = 1 → f.aborted = false →
    Completes (.ringFrameArrive i .west f t) s (fun m =>
      (∀ e, ((m.ring i).port e).lastTx = ((s.m.ring i).port e).lastTx) ∧
      (m.ring i).west.stripBad = (if (s.m.ring i).sentFrames.any (fun g => sameFrame f g) then
        (s.m.ring i).west.stripBad else satInc (s.m.ring i).west.stripBad) ∧
      ((m.ring i).sentFrames.any (fun g => sameFrame f g) && intactFrame f) = false ∧ (m.ring i).entries = (s.m.ring i).entries ∧
      OnlyRing i s.m m)) ∧
  (∀ (s : State) (i : RingId) (d : Dir) (f : RingFrame) (c : RingCfg) (t j e : Nat), s.m.ringUsed i = some c →
    ((s.m.ring i).port d).service = true → (s.m.ring i).turn = 0 → f.src ≠ c.node → f.hop.toNat < 253 →
    f.hop.toNat + 1 ≠ pathModules c f → f.typ ≠ 11 → f.len.toNat ≤ 1512 → (s.m.ring i).ibuf = [] →
    max s.m.now t < ((s.m.ring i).port (otherDir d)).busyUntil →
    ((s.m.ring i).rest (otherDir d)).sending = some (j, e) → max s.m.now t < e →
    Completes (.ringFrameArrive i d f t) s (fun m => (m.ring i).ibuf = [{ frame := f, dir := d, at0 := max s.m.now t, cut := cutCause f }] ∧
      (∀ k, ((m.ring i).port k).lastTx = ((s.m.ring i).port k).lastTx) ∧ OnlyRing i s.m m)) ∧
  (∀ (s : State) (i : RingId) (x : HeldFrame) (t : Nat) (xs : List HeldFrame),
    (s.m.ring i).ibuf = x :: xs → (s.m.ring i).turn = 0 → ((s.m.ring i).port (otherDir x.dir)).service = true →
    ((s.m.ring i).port (otherDir x.dir)).busyUntil + 640 ≤ max s.m.now t → x.frame.aborted = false →
    Completes (.insertionBufferDrain i t) s (fun m => (m.ring i).ibuf = xs ∧
      ((m.ring i).port (otherDir x.dir)).lastTx = some { x.frame with
        hop := x.frame.hop + 1
        dly := satAdd x.frame.dly (((s.m.ring i).port x.dir).linkDly.toNat + (max s.m.now t - x.at0) / 10)
        aborted := x.cut.isSome || decide (x.at0 + 125000 < max s.m.now t) } ∧
      ((m.ring i).rest (otherDir x.dir)).fwdCut = (if x.at0 + 125000 < max s.m.now t then
        satInc ((s.m.ring i).rest (otherDir x.dir)).fwdCut else ((s.m.ring i).rest (otherDir x.dir)).fwdCut) ∧ OnlyRing i s.m m))

/-- R272, R273: what a ring entry receives. `k` is the entry's number and the frame's slot. The model's choices that it
names stand in log 39. -/
def Obligations.RingReceipt : Prop :=
  (∀ (s : State) (i : RingId) (d : Dir) (f : RingFrame) (c : RingCfg) (t k : Nat) (e : RingEntry) (p : RingPoint), s.m.ringUsed i = some c →
    ((s.m.ring i).port d).service = true → (s.m.ring i).sync = true → f.typ = 1 → intactFrame f = true → f.loop = false →
    f.slot.toNat = k → c.entries[k]? = some e → k < (s.m.ring i).entries.length → e.rx = true → e.kind = .exclusive →
    f.src = e.owner → f.copy = e.copy → f.src ≠ c.node → linkedDly (s.m.tick t) i d f ≠ 0xFFFF → f.len = BitVec.ofNat 16 e.len →
    p = (s.m.ring i).at0 (sendInstant (s.m.tick t) i d f) → (inBasic e p.basic = true ∧ p.off ≤ instantNs e + 2000 ∧ instantNs e ≤ p.off + 2000 ∧ f.seq = BitVec.ofNat 32 p.basic) →
    ((s.m.ring i).entries[k]?).map (fun x => x.windowAt) = some none →
    Completes (.ringFrameArrive i d f t) s (fun m =>
      ((m.ring i).entries[k]?).map (fun x => if f.copy = 0 then x.got0 else x.got1) =
        some (some { frame := f, sentAt := sendInstant (s.m.tick t) i d f, at0 := max s.m.now t }) ∧
      (∀ j, j ≠ k → (m.ring i).entries[j]? = (s.m.ring i).entries[j]?) ∧ (m.ring i).settled = (s.m.ring i).settled ∧
      OnlyRing i s.m m)) ∧
  (∀ (s : State) (i : RingId) (d : Dir) (f : RingFrame) (c : RingCfg) (t k : Nat) (e : RingEntry), s.m.ringUsed i = some c →
    ((s.m.ring i).port d).service = true → (s.m.ring i).sync = true → f.typ = 1 → intactFrame f = true → f.loop = false →
    f.slot.toNat = k → c.entries[k]? = some e → k < (s.m.ring i).entries.length → e.rx = true → e.kind = .exclusive →
    ¬(f.src = e.owner ∧ f.copy = e.copy) → f.src ≠ c.node →
    Completes (.ringFrameArrive i d f t) s (fun m =>
      ((m.ring i).entries[k]?).map (fun x => (x.cause, x.rej)) = ((s.m.ring i).entries[k]?).map (fun x => (3, satInc x.rej)) ∧
      ((m.ring i).entries[k]?).map (fun x => (x.got0, x.got1)) = ((s.m.ring i).entries[k]?).map (fun x => (x.got0, x.got1)) ∧
      OnlyRing i s.m m)) ∧
  (∀ (s : State) (i : RingId) (d : Dir) (f : RingFrame) (c : RingCfg) (t k : Nat) (e : RingEntry) (p : RingPoint), s.m.ringUsed i = some c →
    ((s.m.ring i).port d).service = true → (s.m.ring i).sync = true → f.typ = 1 → intactFrame f = true → f.loop = false →
    f.slot.toNat = k → c.entries[k]? = some e → k < (s.m.ring i).entries.length → e.rx = true → e.kind = .exclusive →
    f.src = e.owner → f.copy = e.copy → f.src ≠ c.node → linkedDly (s.m.tick t) i d f ≠ 0xFFFF →
    p = (s.m.ring i).at0 (sendInstant (s.m.tick t) i d f) → (inBasic e p.basic = true ∧ p.off ≤ instantNs e + 2000 ∧ instantNs e ≤ p.off + 2000 ∧ f.seq ≠ BitVec.ofNat 32 p.basic) →
    Completes (.ringFrameArrive i d f t) s (fun m =>
      ((m.ring i).entries[k]?).map (fun x => (x.cause, x.rej)) = ((s.m.ring i).entries[k]?).map (fun x => (2, satInc x.rej)) ∧
      ((m.ring i).entries[k]?).map (fun x => (x.got0, x.got1)) = ((s.m.ring i).entries[k]?).map (fun x => (x.got0, x.got1)) ∧
      OnlyRing i s.m m)) ∧
  (∀ (s : State) (i : RingId) (t k : Nat) (c : RingCfg) (e : RingEntry) (x : EntryRec) (y : RingCopy),
    s.m.ringUsed i = some c → c.entries[k]? = some e → connGroup c e = [(k, e)] → (s.m.ring i).sync = true → e.rx = true →
    inBasic e ((s.m.ring i).at0 (max s.m.now t)).basic = true →
    closesNs e + c.rtMax * 10 ≤ ((s.m.ring i).at0 (max s.m.now t)).off → (s.m.ring i).entries[k]? = some x →
    x.windowAt = none → x.got0 = some y → x.got1 = none →
    Completes (.ringEntrySettle i k t) s (fun m =>
      ((m.ring i).entries[k]?).map (fun z => (z.ok, z.bad, z.got0, z.windowAt)) =
        some (satInc x.ok, false, none, some ((s.m.ring i).at0 (max s.m.now t)).basic) ∧
      ((m.ring i).settled.getLast?).map (fun z => (z.1, z.2.payload, z.2.sentAt, z.2.at0)) =
        some (e.conn, y.frame.payload, y.sentAt, max s.m.now t) ∧ OnlyRing i s.m m)) ∧
  (∀ (s : State) (i : RingId) (t k : Nat) (c : RingCfg) (e : RingEntry) (x : EntryRec),
    s.m.ringUsed i = some c → c.entries[k]? = some e → connGroup c e = [(k, e)] → (s.m.ring i).sync = true → e.rx = true →
    inBasic e ((s.m.ring i).at0 (max s.m.now t)).basic = true →
    closesNs e + c.rtMax * 10 ≤ ((s.m.ring i).at0 (max s.m.now t)).off → (s.m.ring i).entries[k]? = some x →
    x.windowAt = none → x.got0 = none → x.got1 = none →
    Completes (.ringEntrySettle i k t) s (fun m =>
      ((m.ring i).entries[k]?).map (fun y => (y.ok, y.miss, y.bad)) = some (x.ok, satInc x.miss, true) ∧
      (m.ring i).settled = (s.m.ring i).settled ∧ OnlyRing i s.m m)) ∧
  (∀ (s : State) (i : RingId) (t k : Nat) (c : RingCfg) (e : RingEntry) (x : EntryRec) (a b : RingCopy),
    s.m.ringUsed i = some c → c.entries[k]? = some e → connGroup c e = [(k, e)] → (s.m.ring i).sync = true → e.rx = true →
    inBasic e ((s.m.ring i).at0 (max s.m.now t)).basic = true →
    closesNs e + c.rtMax * 10 ≤ ((s.m.ring i).at0 (max s.m.now t)).off → (s.m.ring i).entries[k]? = some x →
    x.windowAt = none → x.got0 = some a → x.got1 = some b → b.frame.payload ≠ a.frame.payload →
    Completes (.ringEntrySettle i k t) s (fun m =>
      ((m.ring i).entries[k]?).map (fun y => (y.ok, y.pairDis, y.cause, y.bad)) = some (x.ok, satInc x.pairDis, 6, true) ∧
      (m.ring i).settled = (s.m.ring i).settled ∧ OnlyRing i s.m m))

/-- R269 to R271, R296, R297: the windows of a Tool rest. -/
def Obligations.ToolRestWindows : Prop :=
  (∀ (s : State) (i : RingId) (d : Dir) (k t : Nat) (c : RingCfg) (e : RingEntry) (p : RingPoint), s.m.entryOf i k = some (c, e) →
    ((s.m.ring i).rest d).state = .sync → ((s.m.ring i).rest d).openSlot ≠ some k →
    restHolds s.m c e = true → p = ((s.m.ring i).rest d).tb.at0 (max s.m.now t) → (e.kind = .reference ∨ inBasic e p.basic = true) →
    restOpens e ≤ p.off → p.off ≤ restCloses e →
    (e.kind = .join ∨ e.kind = .reference ∨ ((s.m.ring i).rest d).joined = true) →
    Becomes (.toolRestWindowOpen i d k t) s ((s.m.tick t).updRest i d (fun x =>
      { x with openSlot := some k, opens := satInc x.opens }))) ∧
  (∀ (s : State) (i : RingId) (d : Dir) (k t : Nat) (c : RingCfg) (e : RingEntry), s.m.entryOf i k = some (c, e) →
    (restHolds s.m c e = false ∨ ((s.m.ring i).rest d).state ≠ .sync ∨
      (e.kind ≠ .join ∧ e.kind ≠ .reference ∧ ((s.m.ring i).rest d).joined = false)) →
    Becomes (.toolRestWindowOpen i d k t) s (s.m.tick t)) ∧
  (∀ (s : State) (i : RingId) (d : Dir) (k t : Nat) (c : RingCfg) (e : RingEntry) (p : RingPoint), s.m.entryOf i k = some (c, e) →
    ((s.m.ring i).rest d).openSlot = some k → p = ((s.m.ring i).rest d).tb.at0 (max s.m.now t) → e.kind ≠ .reference →
    (inBasic e p.basic = false ∨ restCloses e ≤ p.off) →
    (∀ q, ((s.m.ring i).rest d).sending = some q → q.2 ≤ max s.m.now t) →
    Becomes (.toolRestWindowClose i d k t) s ((s.m.tick t).updRest i d (fun x =>
      { x with openSlot := none, sending := none }))) ∧
  (∀ (s : State) (i : RingId) (d : Dir) (k t e1 : Nat) (c : RingCfg) (e : RingEntry) (p : RingPoint) (f : RingFrame),
    s.m.entryOf i k = some (c, e) → ((s.m.ring i).rest d).openSlot = some k → p = ((s.m.ring i).rest d).tb.at0 (max s.m.now t) →
    e.kind ≠ .reference → (inBasic e p.basic = false ∨ restCloses e ≤ p.off) →
    ((s.m.ring i).rest d).sending = some (k, e1) → max s.m.now t < e1 → ((s.m.ring i).port d).lastTx = some f →
    ((s.m.ring i).rest d).recent = [] →
    Completes (.toolRestWindowClose i d k t) s (fun m =>
      ((m.ring i).rest d).openSlot = none ∧ ((m.ring i).rest d).sending = none ∧
      ((m.ring i).port d).lastTx = some { f with aborted := true } ∧
      ((m.ring i).rest d).cuts = satInc ((s.m.ring i).rest d).cuts ∧ (m.ring i).ifc = (s.m.ring i).ifc ∧
      ((m.ring i).rest d).state = ((s.m.ring i).rest d).state ∧ OnlyRing i s.m m)) ∧
  (∀ (s : State) (i : RingId) (d : Dir) (k t e1 a b : Nat) (c : RingCfg) (e : RingEntry) (p : RingPoint) (f : RingFrame),
    s.m.entryOf i k = some (c, e) → ((s.m.ring i).rest d).openSlot = some k → p = ((s.m.ring i).rest d).tb.at0 (max s.m.now t) →
    e.kind ≠ .reference → (inBasic e p.basic = false ∨ restCloses e ≤ p.off) →
    ((s.m.ring i).rest d).sending = some (k, e1) → max s.m.now t < e1 → ((s.m.ring i).port d).lastTx = some f →
    ((s.m.ring i).rest d).recent = [a, b] → max s.m.now t < a + 64000000 → max s.m.now t < b + 64000000 →
    Completes (.toolRestWindowClose i d k t) s (fun m =>
      ((m.ring i).rest d).state = .faulted ∧ (m.ring i).ifc = .listen ∧ (m.ring i).mustJoin = true ∧
      (m.ring i).sync = false ∧ (m.ring i).leaves = satInc (s.m.ring i).leaves ∧ OnlyRing i s.m m)) ∧
  (∀ (s : State) (i : RingId) (d : Dir) (t : Nat), ((s.m.ring i).rest d).state = .faulted →
    ((s.m.ring i).rest d).faultAt + 64000000 ≤ max s.m.now t →
    Becomes (.toolRestReopen i d t) s ((s.m.tick t).updRest i d (fun x =>
      { x with state := .unsync, recent := [], joined := false, tb := x.tb.clear })))

/-- R265, R267, R268, R274, R294, R295: what an interface sends in its windows. -/
def Obligations.RingSending : Prop :=
  (∀ (s : State) (i : RingId) (k t : Nat) (c : RingCfg) (e : RingEntry) (p : RingPoint) (h : HeldMsg) (x : EntryRec),
    s.m.entryOf i k = some (c, e) → e.kind = .exclusive → e.tx = true → e.owner = c.node → e.copy = ringCopy s.m c →
    (s.m.ring i).ifc = .active → p = (s.m.ring i).at0 (max s.m.now t) → inBasic e p.basic = true → instantNs e ≤ p.off →
    p.off ≤ instantNs e + 2000 → (s.m.ring i).entries[k]? = some x → x.windowAt = none → (s.m.tick t).mayInsert i = true →
    s.m.handsOver = true → s.m.cal.vote.held = [h] → h.msg = e.msg → h.cycle = s.m.cycleOf p.basic →
    ((s.m.ring i).rest (s.m.ring i).outDir).openSlot = some k → ((s.m.ring i).port (s.m.ring i).outDir).service = true →
    (((s.m.ring i).rest (s.m.ring i).outDir).tb.at0 (max s.m.now t)).off ≤ restCloses e → e.len = 8 * h.words.length → e.len < 65536 →
    Completes (.exclusiveWindowSend i k t) s (fun m =>
      ((m.ring i).port (s.m.ring i).outDir).lastTx = some { mkFrame s.m c 1 0 k p.basic e.msg h.words with
        loop := (s.m.ring i).turn == 1 } ∧
      m.cal.vote.held = [] ∧ ((m.ring i).entries[k]?).map (fun y => (y.ok, y.windowAt)) = some (satInc x.ok, some p.basic) ∧
      m.lanes = s.m.lanes ∧ m.mod = s.m.mod ∧ m.field = s.m.field ∧ m.ring (otherRing i) = s.m.ring (otherRing i))) ∧
  (∀ (s : State) (i : RingId) (k t : Nat) (c : RingCfg) (e : RingEntry) (p : RingPoint) (x : EntryRec),
    s.m.entryOf i k = some (c, e) → e.kind = .exclusive → e.tx = true → e.owner = c.node → e.copy = ringCopy s.m c →
    (s.m.ring i).ifc = .active → p = (s.m.ring i).at0 (max s.m.now t) → inBasic e p.basic = true → instantNs e ≤ p.off →
    p.off ≤ instantNs e + 2000 → (s.m.ring i).entries[k]? = some x → x.windowAt = none → (s.m.tick t).mayInsert i = true →
    (∀ h ∈ s.m.cal.vote.held, h.msg ≠ e.msg ∨ h.cycle ≠ s.m.cycleOf p.basic) →
    Completes (.exclusiveWindowSend i k t) s (fun m =>
      (∀ d, ((m.ring i).port d).lastTx = ((s.m.ring i).port d).lastTx) ∧
      ((m.ring i).entries[k]?).map (fun y => (y.ok, y.miss)) = some (x.ok, satInc x.miss) ∧ OnlyRing i s.m m)) ∧
  (∀ (s : State) (i : RingId) (k t : Nat) (c : RingCfg) (e : RingEntry) (p : RingPoint) (h : HeldMsg) (x : EntryRec),
    s.m.entryOf i k = some (c, e) → e.kind = .exclusive → e.tx = true → e.owner = c.node → e.copy = ringCopy s.m c →
    (s.m.ring i).ifc = .active → p = (s.m.ring i).at0 (max s.m.now t) → inBasic e p.basic = true → instantNs e ≤ p.off →
    p.off ≤ instantNs e + 2000 → (s.m.ring i).entries[k]? = some x → x.windowAt = none → (s.m.tick t).mayInsert i = true →
    s.m.handsOver = true → s.m.cal.vote.held = [h] → h.msg = e.msg → h.cycle = s.m.cycleOf p.basic →
    ((s.m.ring i).rest (s.m.ring i).outDir).openSlot = none → ((s.m.ring i).rest (s.m.ring i).outDir).recent = [] →
    Completes (.exclusiveWindowSend i k t) s (fun m =>
      (∀ d, ((m.ring i).port d).lastTx = ((s.m.ring i).port d).lastTx) ∧
      ((m.ring i).rest (s.m.ring i).outDir).cuts = satInc ((s.m.ring i).rest (s.m.ring i).outDir).cuts ∧
      ((m.ring i).entries[k]?).map (fun y => y.ok) = some x.ok)) ∧
  (∀ (s : State) (i : RingId) (k t : Nat) (c : RingCfg) (e : RingEntry) (p : RingPoint) (q : ArbItem) (sp : Sporadic) (x : EntryRec),
    s.m.entryOf i k = some (c, e) → e.kind = .arbitrating → e.members.contains c.node = true → (s.m.ring i).ifc = .active →
    p = (s.m.ring i).at0 (max s.m.now t) → openAt e p = true → (s.m.tick t).mayInsert i = true → s.m.handsOver = true →
    (s.m.ring i).queue = [q] → (s.m.ring i).arbIn ≠ some (k, p.basic) → c.sporadic.find? (fun y => y.msg == q.msg) = some sp →
    (s.m.cycleOf p.basic - q.cycle).toNat ≤ sp.ageMax.getD 2 →
    ((s.m.ring i).rest (s.m.ring i).outDir).openSlot = some k → ((s.m.ring i).port (s.m.ring i).outDir).service = true →
    (((s.m.ring i).rest (s.m.ring i).outDir).tb.at0 (max s.m.now t)).off ≤ restCloses e → 8 * q.words.length ≤ 1496 →
    p.off + (26 + 8 * q.words.length) * 80 + 4000 ≤ closesNs e → (26 + 8 * q.words.length) ≤ e.arbBytes →
    (s.m.ring i).entries[k]? = some x →
    Completes (.arbitratingWindow i k t) s (fun m => (m.ring i).queue = [] ∧
      ((m.ring i).port (s.m.ring i).outDir).lastTx = some { mkFrame s.m c 2 q.prio k p.basic q.msg q.words with
        loop := (s.m.ring i).turn == 1 } ∧
      (m.ring i).arbUsed = (26 + 8 * q.words.length) * 80 ∧
      ((m.ring i).entries[k]?).map (fun y => y.ok) = some (satInc x.ok) ∧ OnlyRing i s.m m)) ∧
  (∀ (s : State) (i : RingId) (k t : Nat) (c : RingCfg) (e : RingEntry) (p : RingPoint) (q : ArbItem) (sp : Sporadic),
    s.m.entryOf i k = some (c, e) → e.kind = .arbitrating → e.members.contains c.node = true → (s.m.ring i).ifc = .active →
    p = (s.m.ring i).at0 (max s.m.now t) → openAt e p = true → (s.m.ring i).queue = [q] →
    c.sporadic.find? (fun y => y.msg == q.msg) = some sp → sp.ageMax.getD 2 < (s.m.cycleOf p.basic - q.cycle).toNat →
    Completes (.arbitratingWindow i k t) s (fun m => (m.ring i).queue = [] ∧
      (∀ d, ((m.ring i).port d).lastTx = ((s.m.ring i).port d).lastTx) ∧
      (m.ring i).arbDrop = satAdd (s.m.ring i).arbDrop 1 ∧ OnlyRing i s.m m)) ∧
  (∀ (s : State) (i : RingId) (k t : Nat) (returned : Bool) (c : RingCfg) (e : RingEntry) (p : RingPoint),
    s.m.entryOf i k = some (c, e) → e.kind = .join → (s.m.ring i).ifc = .joining → (s.m.ring i).joinOk = false →
    p = (s.m.ring i).at0 (max s.m.now t) → openAt e p = true → instantNs e ≤ p.off → (s.m.tick t).mayInsert i = true →
    ((s.m.ring i).rest (s.m.ring i).outDir).openSlot = some k → ((s.m.ring i).port (s.m.ring i).outDir).service = true →
    (((s.m.ring i).rest (s.m.ring i).outDir).tb.at0 (max s.m.now t)).off ≤ restCloses e →
    ((s.m.ring i).entries.getD k {}).windowAt ≠ some p.basic →
    Completes (.joinFrameSend i k returned t) s (fun m => (m.ring i).joinOk = returned ∧
      ((m.ring i).port (s.m.ring i).outDir).lastTx.map (fun f => (f.typ, f.src, f.copy, f.seq)) =
        some (10, c.node, ringCopy s.m c, BitVec.ofNat 32 p.basic) ∧
      (m.ring i).joinFail = (if returned then (s.m.ring i).joinFail else satInc (s.m.ring i).joinFail) ∧
      (returned = true → (m.ring i).restE.joined = true ∧ (m.ring i).restW.joined = true) ∧
      (m.ring i).ifc = .joining ∧ OnlyRing i s.m m)) ∧
  (∀ (s : State) (i : RingId) (k t : Nat) (returned : Bool) (c : RingCfg) (e : RingEntry), s.m.entryOf i k = some (c, e) →
    ((s.m.ring i).entries.getD k {}).windowAt = some ((s.m.ring i).at0 (max s.m.now t)).basic →
    Becomes (.joinFrameSend i k returned t) s (s.m.tick t)) ∧
  (∀ (s : State) (i : RingId) (t : Nat) (c : RingCfg) (p : RingPoint), s.m.ringUsed i = some c →
    ((s.m.ring i).ifc = .joining ∨ (s.m.ring i).ifc = .coldstart) → (s.m.ring i).joinOk = true →
    p = (s.m.ring i).at0 (max s.m.now t) → p.basic % 32 = 0 → newer (BitVec.ofNat 32 p.basic) (BitVec.ofNat 32 (s.m.ring i).joinB) = true →
    Completes (.interfaceActive i t) s (fun m => (m.ring i).ifc = .active ∧
      ((s.m.ring i).ifc = .coldstart → (m.ring i).role = 1 ∧ (m.ring i).masterNode = c.node ∧
        (m.ring i).masterCopy = ringCopy s.m c) ∧
      ((s.m.ring i).ifc = .joining → (m.ring i).role = (s.m.ring i).role ∧ (m.ring i).masterNode = (s.m.ring i).masterNode) ∧
      (m.ring i).mustJoin = false ∧ OnlyRing i s.m m))

/-- R283 to R288: the references of a ring. The model's choices that it names stand in log 39. -/
def Obligations.RingTime : Prop :=
  (∀ (s : State) (i : RingId) (t : Nat) (c : RingCfg) (p : RingPoint), s.m.ringUsed i = some c → c.lead = true →
    (s.m.ring i).ifc = .active → (s.m.ring i).role = 1 → p = (s.m.ring i).at0 (max s.m.now t) →
    p.basic ≠ (s.m.ring i).count → 4000 ≤ p.off → p.off ≤ 10000 → ((s.m.ring i).rest (s.m.ring i).outDir).state = .sync → (((s.m.ring i).rest (s.m.ring i).outDir).tb.at0 (max s.m.now t)).off ≤ 6000 →
    ((s.m.ring i).port (s.m.ring i).outDir).service = true → (s.m.tick t).mayInsert i = true → p.basic < 2 ^ 32 →
    Completes (.referenceSend i t) s (fun m =>
      ((m.ring i).port (s.m.ring i).outDir).lastTx.map (fun f => (f.typ, f.src, f.copy, f.seq)) =
        some (8, c.node, ringCopy s.m c, BitVec.ofNat 32 p.basic) ∧
      ((m.ring i).port (s.m.ring i).outDir).lastTx.map (fun f => (refMatrix f, refBc f, refRank f, refSched f, refLooped f)) =
        some (BitVec.ofNat 32 (p.basic / 32), p.basic % 32, ownRank s.m c % 8, c.schedId, (s.m.ring i).ownLooped) ∧
      (m.ring i).ownLooped = false ∧
      (m.ring i).matrix = BitVec.ofNat 32 (p.basic / 32) ∧ (m.ring i).bc = p.basic % 32 ∧
      (m.ring i).tb.start = max s.m.now t - p.off ∧ (m.ring i).tb.missRun = 0 ∧ OnlyRingTime i s.m m)) ∧
  (∀ (s : State) (i : RingId) (d : Dir) (f : RingFrame) (t : Nat) (c : RingCfg), s.m.ringUsed i = some c → refValid s.m c f = true → linkedDly (s.m.tick t) i d f ≠ 0xFFFF →
    (s.m.ring i).ifc = .listen → 4000 ≤ sendInstant (s.m.tick t) i d f →
    Completes (.referenceAccept i d f t) s (fun m => (m.ring i).ifc = .integrate ∧ (m.ring i).sync = true ∧
      (m.ring i).matrix = refMatrix f ∧ (m.ring i).bc = refBc f ∧
      (m.ring i).tb.start = sendInstant (s.m.tick t) i d f - 4000 ∧
      (m.ring i).masterNode = f.src ∧ (m.ring i).masterCopy = f.copy ∧
      (∀ l, ∀ r ∈ commRing i (m.lane l).comm, r.stamp = none) ∧
      (∀ e, ((s.m.ring i).rest e).state = .unsync → ((m.ring i).rest e).state = .sync ∧
        ((m.ring i).rest e).tb.start = (m.ring i).tb.start) ∧
      m.ring (otherRing i) = s.m.ring (otherRing i) ∧ m.field = s.m.field ∧ m.mod = s.m.mod ∧
      ∀ l, (m.lane l).agr = (s.m.lane l).agr ∧ (m.lane l).mem = (s.m.lane l).mem)) ∧
  (∀ (s : State) (i : RingId) (d : Dir) (f : RingFrame) (t : Nat) (c : RingCfg) (b : Nat) (e lim : Int), s.m.ringUsed i = some c →
    refValid s.m c f = true → linkedDly (s.m.tick t) i d f ≠ 0xFFFF → (s.m.ring i).ifc = .active → (s.m.ring i).role ≠ 1 →
    b = sendInstant (s.m.tick t) i d f - 4000 →
    refBasic f = ((s.m.ring i).count + 1) % basicMod →
    (s.m.ring i).masterNode = f.src → (s.m.ring i).masterCopy = f.copy →
    e = ((s.m.ring i).nextStart : Int) - (b : Int) → -1000 ≤ e → e ≤ 1000 → lim = rateLim s.m →
    Completes (.referenceAccept i d f t) s (fun m => (m.ring i).ifc = .active ∧
      (m.ring i).matrix = refMatrix f ∧ (m.ring i).bc = refBc f ∧
      (m.ring i).tb.start = (s.m.ring i).nextStart ∧ (m.ring i).tb.missRun = 0 ∧ (m.ring i).tb.errRun = 0 ∧
      (m.ring i).tb.rate = max (-lim) (min lim ((s.m.ring i).tb.rate - 10 * e / 16)) ∧
      (m.ring i).tb.next = max (-lim) (min lim ((m.ring i).tb.rate - 10 * e / 4)) ∧
      (m.ring i).tb.corr = (s.m.ring i).tb.next ∧
      (m.ring i).tb.offset = e ∧ (m.ring i).entries = (s.m.ring i).entries ∧ OnlyRingTime i s.m m)) ∧
  (∀ (s : State) (i : RingId) (d : Dir) (f : RingFrame) (t : Nat) (c : RingCfg), s.m.ringUsed i = some c →
    (refValid s.m c f = false ∨ linkedDly (s.m.tick t) i d f = 0xFFFF) →
    Becomes (.referenceAccept i d f t) s (s.m.tick t)) ∧
  (∀ (s : State) (i : RingId) (t : Nat) (c : RingCfg), s.m.ringUsed i = some c → (s.m.ring i).sync = true →
    (s.m.ring i).role ≠ 1 → (s.m.ring i).ifc ≠ .coldstart → (s.m.ring i).nextStart + 10000 + c.rtMax * 10 ≤ max s.m.now t → (s.m.ring i).tb.missRun < 2 →
    Completes (.referenceMissed i t) s (fun m => (m.ring i).sync = true ∧ (m.ring i).ifc = (s.m.ring i).ifc ∧
      (m.ring i).tb.start = (s.m.ring i).nextStart ∧ (m.ring i).bc = ((s.m.ring i).count + 1) % 32 ∧
      (m.ring i).missed = satInc (s.m.ring i).missed ∧ (m.ring i).tb.missRun = (s.m.ring i).tb.missRun + 1 ∧
      (m.ring i).tb.rate = (s.m.ring i).tb.rate ∧ (m.ring i).tb.corr = (s.m.ring i).tb.next ∧
      (m.ring i).tb.next = (s.m.ring i).tb.rate ∧ OnlyRing i s.m m)) ∧
  (∀ (s : State) (i : RingId) (t : Nat) (c : RingCfg), s.m.ringUsed i = some c → (s.m.ring i).sync = true →
    (s.m.ring i).role ≠ 1 → (s.m.ring i).ifc ≠ .coldstart → (s.m.ring i).nextStart + 10000 + c.rtMax * 10 ≤ max s.m.now t → 2 ≤ (s.m.ring i).tb.missRun →
    Completes (.referenceMissed i t) s (fun m => (m.ring i).sync = false ∧ (m.ring i).ifc = .listen ∧
      (m.ring i).syncLoss = satInc (s.m.ring i).syncLoss ∧ (m.ring i).matrix = 0 ∧ (m.ring i).bc = 0 ∧
      (m.ring i).lastLoss = BitVec.ofNat 32 (((s.m.ring i).count + 1) % basicMod / 32) ∧ OnlyRing i s.m m)) ∧
  (∀ (s : State) (i : RingId) (d : Dir) (t : Nat) (c : RingCfg), s.m.ringUsed i = some c →
    ((s.m.ring i).rest d).state = .sync → 2 ≤ ((s.m.ring i).rest d).tb.missRun →
    ((s.m.ring i).rest d).tb.nextStart + 10000 + c.rtMax * 10 ≤ max s.m.now t →
    Completes (.referenceMissed i t) s (fun m => ((m.ring i).rest d).state = .unsync ∧ ((m.ring i).rest d).openSlot = none ∧
      ((m.ring i).rest d).joined = false ∧ OnlyRing i s.m m)) ∧
  (∀ (s : State) (i : RingId) (t : Nat) (c : RingCfg), s.m.ringUsed i = some c → (s.m.ring i).ifc = .active →
    (s.m.ring i).role ≠ 1 → (ownRank s.m c = 2 ∨ ownRank s.m c = 3) → ownRank s.m c ≤ (s.m.ring i).tb.missRun + 1 →
    (s.m.ring i).nextStart + 4000 ≤ max s.m.now t → max s.m.now t ≤ (s.m.ring i).nextStart + 10000 →
    ((s.m.ring i).rest (s.m.ring i).outDir).state = .sync → (((s.m.ring i).rest (s.m.ring i).outDir).tb.at0 (max s.m.now t)).off ≤ 6000 →
    ((s.m.ring i).port (s.m.ring i).outDir).service = true → (s.m.tick t).mayInsert i = true →
    Completes (.successionReference i t) s (fun m => (m.ring i).role = 1 ∧ (m.ring i).masterNode = c.node ∧
      (m.ring i).masterCopy = ringCopy s.m c ∧
      ((m.ring i).port (s.m.ring i).outDir).lastTx.map (fun f => (f.typ, f.src, f.copy, f.seq)) =
        some (8, c.node, ringCopy s.m c, BitVec.ofNat 32 ((s.m.ring i).count + 1)) ∧
      (m.ring i).tb.start = (s.m.ring i).nextStart ∧ (m.ring i).bc = ((s.m.ring i).count + 1) % 32 ∧ OnlyRingTime i s.m m)) ∧
  (∀ (s : State) (i : RingId) (t : Nat) (c : RingCfg), s.m.ringUsed i = some c → (ownRank s.m c = 0 ∨ ownRank s.m c = 1 ∨
    (s.m.ring i).ifc ≠ .active) → Becomes (.successionReference i t) s (s.m.tick t))

/-- R283, R289 to R293: the cold start of a ring. -/
def Obligations.ColdStart : Prop :=
  (∀ (s : State) (i : RingId) (t : Nat) (c : RingCfg), s.m.ringUsed i = some c → c.lead = true → (s.m.ring i).ifc = .listen →
    ownRank s.m c ≠ 0 → (s.m.ring i).mustJoin = false → (s.m.ring i).east.service = true → (s.m.ring i).west.service = true →
    (s.m.ring i).lastValid + 64000000 ≤ max s.m.now t → (s.m.ring i).lastStart + c.rtMax * 10 ≤ max s.m.now t →
    (s.m.ring i).turn = 0 → (s.m.tick t).mayInsert i = true →
    (((s.m.ring i).restE.state = .sync ∧ ((s.m.ring i).restE.tb.at0 (max s.m.now t)).off ≤ 6000) ∨
      ((s.m.ring i).restE.state = .unsync ∧ (s.m.ring i).restE.coldAt = none)) →
    Completes (.coldstartListenEnd i t) s (fun m => (m.ring i).ifc = .coldstart ∧
      (m.ring i).coldstarts = satInc (s.m.ring i).coldstarts ∧
      (m.ring i).east.lastTx.map (fun f => (f.typ, f.src, f.copy)) = some (9, c.node, ringCopy s.m c) ∧
      (m.ring i).csOut = some (max s.m.now t) ∧ (m.ring i).startedAt = max s.m.now t ∧
      OnlyRingTime i s.m m)) ∧
  (∀ (s : State) (i : RingId) (t : Nat) (c : RingCfg), s.m.ringUsed i = some c →
    (ownRank s.m c = 0 ∨ (s.m.ring i).mustJoin = true ∨ max s.m.now t < (s.m.ring i).lastValid + 64000000) →
    Becomes (.coldstartListenEnd i t) s (s.m.tick t)) ∧
  (∀ (s : State) (i : RingId) (t : Nat) (c : RingCfg), s.m.ringUsed i = some c → (s.m.ring i).ifc = .coldstart →
    ((s.m.ring i).startedAt < (s.m.ring i).lastRef ∨
      ∃ x ∈ (s.m.ring i).csOut, x + c.rtMax * 10 ≤ max s.m.now t) →
    Completes (.coldstartCollision i t) s (fun m => (m.ring i).ifc = .backoff ∧
      (m.ring i).collisions = satInc (s.m.ring i).collisions ∧ (m.ring i).matrix = 0 ∧ (m.ring i).bc = 0 ∧
      (m.ring i).masterNode = 0 ∧ (m.ring i).csOut = none ∧ (m.ring i).startedAt = max s.m.now t ∧
      (m.ring i).role = 2 ∧ OnlyRing i s.m m)) ∧
  (∀ (s : State) (i : RingId) (t : Nat) (c : RingCfg), s.m.ringUsed i = some c → (s.m.ring i).ifc = .backoff →
    (s.m.ring i).startedAt + c.node.toNat % 256 * 3900 + (if ringCopy s.m c = 1 then 1950 else 0) ≤ max s.m.now t →
    Becomes (.coldstartBackoffEnd i t) s ((s.m.tick t).updRing i (fun r =>
      { r with ifc := .listen, lastValid := max s.m.now t }))) ∧
  (∀ (s : State) (i : RingId) (t : Nat) (c : RingCfg), s.m.ringUsed i = some c →
    max s.m.now t < (s.m.ring i).startedAt + c.node.toNat % 256 * 3900 + (if ringCopy s.m c = 1 then 1950 else 0) →
    Becomes (.coldstartBackoffEnd i t) s (s.m.tick t))

/-- R280 to R282, R299, R300, R303, R305: the links of a ring. The model's choices that it names stand in log 33. -/
def Obligations.RingLinks : Prop :=
  (∀ (s : State) (i : RingId) (d : Dir) (t : Nat), s.m.cal.txOn = true → ((s.m.ring i).port d).unusable = false →
    ((s.m.ring i).port d).up = false → (((s.m.ring i).port d).fx = true → s.m.power.carrierOn = true) →
    Completes (.ringLinkUp i d t) s (fun m => ((m.ring i).port d).up = true ∧ ((m.ring i).port d).driving = true ∧
      ((m.ring i).port d).service = ((s.m.ring i).port d).service ∧
      (d = .east → (s.m.ring i).restE.state ≠ .closed → ((s.m.ring i).port d).service = false →
        ((m.ring i).port d).checkFrom = some (max s.m.now t) ∧ ((m.ring i).port d).checks.length = 16 ∧
        ∀ j, j < 16 → ((m.ring i).port d).checks[j]? = some (max s.m.now t + 20000 * j,
          checkFrame { s.m with now := max s.m.now t + 20000 * j } i .request (requestTime (max s.m.now t) j) 0)) ∧
      (m.ring i).port (otherDir d) = (s.m.ring i).port (otherDir d) ∧ (m.ring i).ifc = (s.m.ring i).ifc ∧ OnlyRing i s.m m)) ∧
  (∀ (s : State) (i : RingId) (d : Dir) (t : Nat), (s.m.cal.txOn = false ∨ ((s.m.ring i).port d).unusable = true ∨
      (((s.m.ring i).port d).fx = true ∧ s.m.power.carrierOn = false)) →
    Becomes (.ringLinkUp i d t) s (s.m.tick t)) ∧
  (∀ (s : State) (i : RingId) (f : RingFrame) (t : Nat), (s.m.ring i).west.up = true → s.m.cal.txOn = true →
    f.typ = 11 → intactFrame f = true → linkKind f = some .request → (s.m.ring i).restW.state ≠ .closed →
    (s.m.ring i).west.driving = true →
    Becomes (.linkCheckFrame i .west f t) s (((s.m.tick t).updRing i (fun r => { r with lastStart := max s.m.now t })).updPort i .west
      (fun p => { p with checks := p.checks.filter (fun q => decide (max s.m.now t ≤ q.1)) ++
        [(max s.m.now t, checkFrame (s.m.tick t) i .echo ((f.payload.headD 0).setWidth 32) 200)] }))) ∧
  (∀ (s : State) (i : RingId) (d : Dir) (f : RingFrame) (t : Nat), (((s.m.ring i).port d).up = false ∨ s.m.cal.txOn = false ∨
      f.typ ≠ 11 ∨ intactFrame f = false ∨ linkKind f = none ∨
      (linkKind f = some .request ∧ ((s.m.ring i).rest d).state = .closed)) →
    Becomes (.linkCheckFrame i d f t) s ((s.m.tick t).updRing i (fun r =>
      { r with lastStart := if d = .west then max s.m.now t else r.lastStart }))) ∧
  (∀ (s : State) (i : RingId) (f : RingFrame) (t u j : Nat), (s.m.ring i).east.up = true → s.m.cal.txOn = true →
    f.typ = 11 → intactFrame f = true → linkKind f = some .echo → (s.m.ring i).east.service = false →
    (s.m.ring i).east.checkFrom = some u → j < 16 → (f.payload.headD 0).setWidth 32 = requestTime u j →
    ((s.m.ring i).east.measures.filter (fun q => q.1 != j)).length < 15 →
    Becomes (.linkCheckFrame i .east f t) s ((s.m.tick t).updPort i .east (fun p => { p with
      measures := (j, (linkTime (max s.m.now t) - requestTime u j).toNat * 10 - 2000) ::
        p.measures.filter (fun q => q.1 != j) }))) ∧
  (∀ (s : State) (i : RingId) (f : RingFrame) (t u j n : Nat), (s.m.ring i).east.up = true → s.m.cal.txOn = true →
    f.typ = 11 → intactFrame f = true → linkKind f = some .echo → (s.m.ring i).east.service = false →
    (s.m.ring i).east.checkFrom = some u → j < 16 → (f.payload.headD 0).setWidth 32 = requestTime u j →
    ((s.m.ring i).east.measures.filter (fun q => q.1 != j)).length = 15 → (s.m.ring i).ifc = .down →
    (s.m.ringUsed i).isSome = true → (s.m.ring i).east.lost = false → (s.m.ring i).west.lost = false →
    (s.m.ring i).turn = 0 → (s.m.ring i).restE.state ≠ .closed → (s.m.ring i).east.driving = true → n ≤ 2000 →
    linkDelay (((linkTime (max s.m.now t) - requestTime u j).toNat * 10 - 2000) ::
      ((s.m.ring i).east.measures.filter (fun q => q.1 != j)).map Prod.snd) = some n →
    Completes (.linkCheckFrame i .east f t) s (fun m => (m.ring i).east.linkDly = BitVec.ofNat 16 n ∧
      (m.ring i).east.service = true ∧
      (max s.m.now t, checkFrame (s.m.tick t) i .result (BitVec.ofNat 32 n) 0) ∈ (m.ring i).east.checks ∧
      (m.ring i).ifc = .listen ∧ (m.ring i).lastValid = max s.m.now t ∧ (m.ring i).turn = 0 ∧
      (m.ring i).west = { (s.m.ring i).west with loop := false } ∧ OnlyRing i s.m m)) ∧
  (∀ (s : State) (i : RingId) (f : RingFrame) (t : Nat) (w0 : W32), (s.m.ring i).west.up = true → s.m.cal.txOn = true →
    f.typ = 11 → intactFrame f = true → linkKind f = some .result → w0 = (f.payload.headD 0).setWidth 32 →
    (s.m.ring i).west.lost = false → (s.m.ring i).east.lost = false → (s.m.ring i).turn = 0 → w0.toNat ≤ 2000 →
    (s.m.ring i).ifc = .down → (s.m.ringUsed i).isSome = true →
    Completes (.linkCheckFrame i .west f t) s (fun m => (m.ring i).west.service = true ∧
      (m.ring i).west.linkDly = w0.setWidth 16 ∧ (m.ring i).ifc = .listen ∧ (m.ring i).turn = 0 ∧ OnlyRing i s.m m)) ∧
  (∀ (s : State) (i : RingId) (f : RingFrame) (t : Nat) (w0 : W32), (s.m.ring i).west.up = true → s.m.cal.txOn = true →
    f.typ = 11 → intactFrame f = true → linkKind f = some .result → w0 = (f.payload.headD 0).setWidth 32 → 2000 < w0.toNat →
    Completes (.linkCheckFrame i .west f t) s (fun m => (m.ring i).west.service = false ∧
      (m.ring i).west.linkDly = w0.setWidth 16 ∧ (m.ring i).ifc = (s.m.ring i).ifc ∧ OnlyRing i s.m m)) ∧
  (∀ (s : State) (i : RingId) (f : RingFrame) (t : Nat) (w0 : W32), (s.m.ring i).east.up = true → s.m.cal.txOn = true →
    f.typ = 11 → intactFrame f = true → linkKind f = some .report → w0 = (f.payload.headD 0).setWidth 32 →
    Becomes (.linkCheckFrame i .east f t) s ((s.m.tick t).updPort i .east (fun p =>
      { p with farErrors := satAdd p.farErrors w0.toNat }))) ∧
  (∀ (s : State) (i : RingId) (d : Dir) (f : RingFrame) (t : Nat) (w0 : W32), ((s.m.ring i).port d).up = true →
    s.m.cal.txOn = true → f.typ = 11 → intactFrame f = true → linkKind f = some .close →
    w0 = (f.payload.headD 0).setWidth 32 → ((s.m.ring i).port d).lost = true → ((s.m.ring i).port d).loop = true →
    (s.m.ring i).sync = true →
    Becomes (.linkCheckFrame i d f t) s ((s.m.tick t).updRing i (fun r => { r with
      lastStart := if d = .west then max s.m.now t else r.lastStart
      closeAt := match r.closeAt with
        | some h => if newer w0 h then some w0 else some h
        | none => some w0 }))) ∧
  (∀ (s : State) (i : RingId) (d : Dir) (f : RingFrame) (t : Nat), ((s.m.ring i).port d).up = true →
    s.m.cal.txOn = true → f.typ = 11 → intactFrame f = true → linkKind f = some .close →
    ((s.m.ring i).port d).lost = true → (((s.m.ring i).port d).loop = false ∨ (s.m.ring i).sync = false) →
    ((s.m.ring i).port (otherDir d)).lost = false →
    Completes (.linkCheckFrame i d f t) s (fun m => ((m.ring i).port d).lost = false ∧ ((m.ring i).port d).loop = false ∧
      (m.ring i).turn = 0 ∧ (m.ring i).ifc = (s.m.ring i).ifc ∧ OnlyRing i s.m m)) ∧
  (∀ (s : State) (i : RingId) (t n : Nat) (p : RingPoint), (s.m.ring i).sync = true → (s.m.ring i).west.service = true →
    turnedWest (s.m.ring i) (max s.m.now t) = false → p = (s.m.ring i).at0 (max s.m.now t) → 500000 ≤ p.off →
    (s.m.ring i).reported ≠ some p.basic → (s.m.ring i).restW.state ≠ .closed → (s.m.ring i).west.driving = true →
    n = ((s.m.ring i).west.errors.filter (fun x => decide (x < max s.m.now t - p.off) &&
      decide (max s.m.now t - p.off ≤ x + basicLen (s.m.ring i).tb.rate))).length →
    Becomes (.linkReport i t) s (((s.m.tick t).updRing i (fun r => { r with reported := some p.basic })).updPort i .west (fun q =>
      { q with checks := q.checks.filter (fun y => decide (max s.m.now t ≤ y.1)) ++
        [(max s.m.now t, checkFrame (s.m.tick t) i .report (BitVec.ofNat 32 n) 0)] }))) ∧
  (∀ (s : State) (i : RingId) (t : Nat), ((s.m.ring i).sync = false ∨
      (s.m.ring i).reported = some ((s.m.ring i).at0 (max s.m.now t)).basic ∨
      turnedWest (s.m.ring i) (max s.m.now t) = true) → Becomes (.linkReport i t) s (s.m.tick t)) ∧
  (∀ (s : State) (i : RingId) (d : Dir) (t : Nat), ((s.m.ring i).port d).up = true →
    ((s.m.ring i).port (otherDir d)).service = true → ((s.m.ring i).port (otherDir d)).lost = false → (s.m.ring i).turn = 0 →
    Completes (.ringLinkLoss i d t) s (fun m => ((m.ring i).port d).up = false ∧ ((m.ring i).port d).service = false ∧
      ((m.ring i).port d).driving = false ∧ ((m.ring i).port d).loop = true ∧ ((m.ring i).port d).lost = true ∧
      (m.ring i).turn = (match d with | .east => 1 | .west => 2) ∧ (m.ring i).heals = satInc (s.m.ring i).heals ∧
      (m.ring i).port (otherDir d) = { (s.m.ring i).port (otherDir d) with loop := false } ∧ (m.ring i).closeAt = none ∧
      (m.ring i).sync = (s.m.ring i).sync ∧ (m.ring i).ifc = (s.m.ring i).ifc ∧ OnlyRing i s.m m)) ∧
  (∀ (s : State) (i : RingId) (d : Dir) (t : Nat), ((s.m.ring i).port d).up = true →
    ((s.m.ring i).port (otherDir d)).service = false →
    Completes (.ringLinkLoss i d t) s (fun m => ((m.ring i).port d).up = false ∧ ((m.ring i).port d).driving = false ∧
      (m.ring i).turn = 0 ∧ (m.ring i).closeAt = none ∧ OnlyRing i s.m m)) ∧
  (∀ (s : State) (i : RingId) (t : Nat) (k : W32), (s.m.ring i).closeAt = some k → (s.m.ring i).sync = true →
    (s.m.ring i).east.service = true → (s.m.ring i).west.service = true →
    ((s.m.ring i).at0 (max s.m.now t)).basic = (k.toNat * 32 + basicMod - 1) % basicMod →
    995000 ≤ ((s.m.ring i).at0 (max s.m.now t)).off →
    Completes (.loopbackClose i t) s (fun m => (m.ring i).turn = 0 ∧ (m.ring i).closeAt = none ∧
      (m.ring i).east = { (s.m.ring i).east with loop := false, lost := false } ∧
      (m.ring i).west = { (s.m.ring i).west with loop := false, lost := false } ∧
      (m.ring i).ifc = (s.m.ring i).ifc ∧ OnlyRing i s.m m)) ∧
  (∀ (s : State) (i : RingId) (t : Nat) (k : W32), (s.m.ring i).closeAt = some k →
    (((s.m.ring i).at0 (max s.m.now t)).basic < basicMod ∧
      (((s.m.ring i).at0 (max s.m.now t)).basic + basicMod - (k.toNat * 32 + basicMod - 1) % basicMod) % basicMod = 0 ∧
      ((s.m.ring i).at0 (max s.m.now t)).off < 995000 ∨
      basicMod / 2 ≤ (((s.m.ring i).at0 (max s.m.now t)).basic + basicMod - (k.toNat * 32 + basicMod - 1) % basicMod) % basicMod) →
    Becomes (.loopbackClose i t) s (s.m.tick t))

/-- R307, R317 to R319, R328: the ports red and blue. The model's choices that it names stand in log 33. -/
def Obligations.RedAndBlue : Prop :=
  (∀ (s : State) (n : Net) (d : JxtDatagram) (t : Nat),
    (d.ip.fragmented = true ∨ d.ip.options = true ∨ d.ip.dst ≠ (s.m.face n).ip ∨ d.ip.proto ≠ 17 ∨ d.ip.srcPort ≠ 27341 ∨
      d.ip.dstPort ≠ 27341 ∨ (d.ip.sum ≠ 0 ∧ d.ip.sum ≠ udpSum d) ∨ d.magic ≠ 0x4A58 ∨ d.version ≠ 1 ∨ d.crc ≠ crc32 (dgramBytes d) ∨
      d.net.toNat ≠ (match n with | .red => 1 | .blue => 2) ∨ (∀ c ∈ s.m.jxtCfgs, c.number ≠ d.conn)) →
    Completes (.jxtDatagramReceive n d t) s (fun m =>
      (m.jxt.redBad, m.jxt.blueBad) = (match n with
        | .red => (satInc s.m.jxt.redBad, s.m.jxt.blueBad) | .blue => (s.m.jxt.redBad, satInc s.m.jxt.blueBad)) ∧
      m.jxt.conns = s.m.jxt.conns ∧ m.jxt.redRx = s.m.jxt.redRx ∧ m.jxt.blueRx = s.m.jxt.blueRx ∧ m.lanes = s.m.lanes ∧
      m.field = s.m.field ∧ m.ring1 = s.m.ring1 ∧ m.ring2 = s.m.ring2 ∧ m.mod = s.m.mod)) ∧
  (∀ (s : State) (n : Net) (d : JxtDatagram) (t k : Nat) (c : JxtCfg) (x : JxtConn), s.m.jxtPasses n d = some (k, c) →
    s.m.jxt.conns[k]? = some x → x.settled.contains (jxtSeq d.body) = false → x.groups = [] →
    Completes (.jxtDatagramReceive n d t) s (fun m =>
      (m.jxt.conns[k]?).map (fun y => y.groups) = some [{
        seq := jxtSeq d.body, openAt := max s.m.now t
        copies := [{ net := n, copy := d.copy, words := d.body, at0 := max s.m.now t }] }] ∧
      (m.jxt.redRx, m.jxt.blueRx) = (match n with
        | .red => (satInc s.m.jxt.redRx, s.m.jxt.blueRx) | .blue => (s.m.jxt.redRx, satInc s.m.jxt.blueRx)) ∧
      (∀ j, j ≠ k → m.jxt.conns[j]? = s.m.jxt.conns[j]?) ∧
      { m with now := s.m.now, jxt := s.m.jxt } = s.m)) ∧
  (∀ (s : State) (n : Net) (d : JxtDatagram) (t k : Nat) (c : JxtCfg) (x : JxtConn) (g : JxtGroup),
    s.m.jxtPasses n d = some (k, c) → s.m.jxt.conns[k]? = some x → x.settled.contains (jxtSeq d.body) = false →
    x.groups = [g] → g.seq = jxtSeq d.body → (∀ y ∈ g.copies, y.net ≠ n ∨ y.copy ≠ d.copy) →
    Completes (.jxtDatagramReceive n d t) s (fun m =>
      (m.jxt.conns[k]?).map (fun y => y.groups) = some [{ g with
        copies := g.copies ++ [{ net := n, copy := d.copy, words := d.body, at0 := max s.m.now t }] }] ∧
      (∀ j, j ≠ k → m.jxt.conns[j]? = s.m.jxt.conns[j]?) ∧ { m with now := s.m.now, jxt := s.m.jxt } = s.m)) ∧
  (∀ (s : State) (n : Net) (d : JxtDatagram) (t k : Nat) (c : JxtCfg) (x : JxtConn), s.m.jxtPasses n d = some (k, c) →
    s.m.jxt.conns[k]? = some x → x.settled.contains (jxtSeq d.body) = true →
    Completes (.jxtDatagramReceive n d t) s (fun m => m.jxt.late = satInc s.m.jxt.late ∧ m.jxt.conns = s.m.jxt.conns ∧
      m.jxt.lastCause = 10 ∧ { m with now := s.m.now, jxt := s.m.jxt } = s.m)) ∧
  (∀ (s : State) (k t : Nat) (c : JxtCfg) (x : JxtConn) (g : JxtGroup) (gs : List JxtGroup) (a : JxtCopy) (r : List JxtCopy),
    s.m.jxtCfgs[k]? = some c → s.m.jxt.conns[k]? = some x → x.groups = g :: gs → (∀ h ∈ gs, h.seq ≠ g.seq) →
    g.openAt + c.winUs.getD 2000 * 1000 ≤ max s.m.now t → g.copies = a :: r → (∀ b ∈ r, b.words = a.words) →
    Completes (.jxtGroupSettle k t) s (fun m =>
      (m.jxt.conns[k]?).map (fun y => (y.newest, y.previous, y.groups)) = some (some (a.words, max s.m.now t), x.newest, gs) ∧
      (m.jxt.conns[k]?).map (fun y => y.settled) = some ((g.seq :: x.settled).take 2) ∧
      m.jxt.dup = satAdd s.m.jxt.dup r.length ∧ m.jxt.netDis = s.m.jxt.netDis ∧ m.jxt.pairDis = s.m.jxt.pairDis ∧
      { m with now := s.m.now, jxt := s.m.jxt } = s.m)) ∧
  (∀ (s : State) (k t : Nat) (c : JxtCfg) (x : JxtConn) (g : JxtGroup) (a b : JxtCopy), s.m.jxtCfgs[k]? = some c →
    s.m.jxt.conns[k]? = some x → x.groups = [g] → g.openAt + c.winUs.getD 2000 * 1000 ≤ max s.m.now t →
    g.copies = [a, b] → b.words ≠ a.words →
    Completes (.jxtGroupSettle k t) s (fun m =>
      (m.jxt.conns[k]?).map (fun y => (y.newest, y.groups)) = some (x.newest, []) ∧
      (m.jxt.pairDis, m.jxt.netDis) = (if a.copy = b.copy then (s.m.jxt.pairDis, satInc s.m.jxt.netDis)
        else (satInc s.m.jxt.pairDis, s.m.jxt.netDis)) ∧
      m.jxt.lastCause = (if a.copy = b.copy then 2 else 3) ∧ m.lanes = s.m.lanes ∧ m.field = s.m.field ∧ m.mod = s.m.mod)) ∧
  (∀ (s : State) (n : Net) (req : NetRequest) (ip : W32) (t : Nat) (sd : StationData), s.m.sd = some sd → s.m.cal.txOn = true →
    ip = (s.m.face n).ip → (req = .arpRequest ip ∨ (req = .icmpEcho ip false false ∧ sd.settings.jxIcmp = some true)) →
    Becomes (.netArpIcmp (match n with | .red => .red | .blue => .blue) req t) s
      { s.m.tick t with jxt := { s.m.jxt with lastAnswer := some (n, req) } }) ∧
  (∀ (s : State) (n : Net) (req : NetRequest) (ip a : W32) (fr op : Bool) (t : Nat) (sd : StationData), s.m.sd = some sd →
    ip = (s.m.face n).ip → req = .icmpEcho a fr op → (a ≠ ip ∨ fr = true ∨ op = true ∨ sd.settings.jxIcmp.getD false = false) →
    Completes (.netArpIcmp (match n with | .red => .red | .blue => .blue) req t) s (fun m =>
      (m.jxt.redBad, m.jxt.blueBad) = (match n with
        | .red => (satInc s.m.jxt.redBad, s.m.jxt.blueBad) | .blue => (s.m.jxt.redBad, satInc s.m.jxt.blueBad)) ∧
      m.jxt.lastAnswer = s.m.jxt.lastAnswer ∧ m.jxt.conns = s.m.jxt.conns ∧ m.lanes = s.m.lanes ∧ m.field = s.m.field ∧
      m.mod = s.m.mod)) ∧
  (∀ (s : State) (n : Net) (a : W32) (t : Nat) (sd : StationData), s.m.sd = some sd → a ≠ (s.m.face n).ip →
    Becomes (.netArpIcmp (match n with | .red => .red | .blue => .blue) (.arpRequest a) t) s (s.m.tick t)) ∧
  (∀ (s : State) (n : Net) (ip : W32) (hw : BitVec 48) (t : Nat), s.m.sd.isSome = true →
    s.m.jxt.asked.contains (n, ip) = true → s.m.staticHw n ip = none →
    Becomes (.netArpIcmp (match n with | .red => .red | .blue => .blue) (.arpReply ip hw) t) s
      { s.m.tick t with jxt := { s.m.jxt with
        arp := (n, ip, hw) :: s.m.jxt.arp.filter (fun q => !(q.1 == n && q.2.1 == ip))
        asked := s.m.jxt.asked.filter (· != (n, ip)) } }) ∧
  (∀ (s : State) (n : Net) (ip : W32) (hw : BitVec 48) (t : Nat),
    (s.m.jxt.asked.contains (n, ip) = false ∨ (s.m.staticHw n ip).isSome = true) →
    Becomes (.netArpIcmp (match n with | .red => .red | .blue => .blue) (.arpReply ip hw) t) s (s.m.tick t)) ∧
  (∀ (s : State) (req : NetRequest) (t : Nat), (s.m.tick t).benchServes = true → s.m.bench.mnt.ip ≠ 0 →
    (req = .arpRequest s.m.bench.mnt.ip ∨ ∃ op, req = .icmpEcho s.m.bench.mnt.ip false op) →
    Completes (.netArpIcmp .maintenance req t) s (fun m => m.bench.mnt.lastAnswer = some req ∧ m.bench.mnt.link = true ∧
      OnlyBench (s.m.tick t) m)) ∧
  (∀ (s : State) (n : Net) (t : Nat), (match n with | .red => s.m.jxt.redUnus | .blue => s.m.jxt.blueUnus) = false →
    Becomes (.redBlueLinkChange n true t) s { s.m.tick t with jxt := match n with
      | .red => { s.m.jxt with redUp := true } | .blue => { s.m.jxt with blueUp := true } }) ∧
  (∀ (s : State) (n : Net) (t : Nat), Completes (.redBlueLinkChange n false t) s (fun m =>
    m.jxt = (match n with | .red => { s.m.jxt with redUp := false } | .blue => { s.m.jxt with blueUp := false }) ∧
    { m with now := s.m.now, jxt := s.m.jxt, irq := s.m.irq } = s.m))

/-- R348 to R354, R362: what a CAN FD port sends. The model's choices that it names stand in logs 29, 30, 43. -/
def Obligations.CanTransmission : Prop :=
  (∀ (s : State) (p : CanId) (b t : Nat) (c : CanCfg) (y : CanBuf) (v : Version), s.m.canCfg p = some c →
    (s.m.can p).bufs[b]? = some y → y.version = some v → v.pending = none →
    v.t0 + ((v.words.headD 0) >>> 48).toNat * 1000 ≤ max s.m.now t →
    Completes (.tatPending p b t) s (fun m =>
      ((m.can p).bufs[b]?).map (fun z => z.version) = some (some { v with pending := some (max s.m.now t) }) ∧
      (∀ j, j ≠ b → (m.can p).bufs[j]? = (s.m.can p).bufs[j]?) ∧ OnlyCan p s.m m)) ∧
  (∀ (s : State) (p : CanId) (b t r : Nat) (c : CanCfg) (k : BufCfg) (y : CanBuf) (v : Version), s.m.canCfg p = some c →
    c.bufs[b]? = some k → k.kind = .event → (s.m.can p).bufs[b]? = some y → y.version = some v →
    v.pending = some r → r + (k.late.getD (s.m.cycleMs * 1000)) * 1000 ≤ max s.m.now t → v.replaced = false → v.cancel = false →
    (y.next.bind (versionDue s.m k)).all (fun d => decide (max s.m.now t < d)) = true →
    Completes (.txLateDeadline p b false t) s (fun m =>
      ((m.can p).bufs[b]?).map (fun z => (z.version, z.last, z.cancelled)) = some (y.next, 3, satInc y.cancelled) ∧
      (∀ j, j ≠ b → (m.can p).bufs[j]? = (s.m.can p).bufs[j]?) ∧ OnlyCan p s.m m)) ∧
  (∀ (s : State) (p : CanId) (b t r : Nat) (c : CanCfg) (k : BufCfg) (y : CanBuf) (v : Version), s.m.canCfg p = some c →
    c.bufs[b]? = some k → k.kind = .event → (s.m.can p).bufs[b]? = some y → y.version = some v →
    v.pending = some r → r + (k.late.getD (s.m.cycleMs * 1000)) * 1000 ≤ max s.m.now t → v.cancel = false →
    (y.next.bind (versionDue s.m k)).all (fun d => decide (max s.m.now t < d)) = true →
    Completes (.txLateDeadline p b true t) s (fun m =>
      ((m.can p).bufs[b]?).map (fun z => (z.version, z.last, z.cancelled)) = some (some { v with cancel := true }, y.last, y.cancelled) ∧
      (m.can p).bus = some b ∧ OnlyCan p s.m m)) ∧
  (∀ (s : State) (p : CanId) (b t : Nat) (c : CanCfg) (k : BufCfg) (y : CanBuf) (v : Version), s.m.canCfg p = some c →
    c.bufs[b]? = some k → k.kind = .atTime → (s.m.can p).bufs[b]? = some y → y.version = some v →
    ((v.words.headD 0) >>> 48).toNat ≠ 0xFFFF → v.t0 + ((v.words.headD 0) >>> 48).toNat * 1000 + (k.late.getD 1000) * 1000 ≤ max s.m.now t →
    v.replaced = false → v.cancel = false →
    (y.next.bind (versionDue s.m k)).all (fun d => decide (max s.m.now t < d)) = true →
    Completes (.tatLateDeadline p b false t) s (fun m =>
      ((m.can p).bufs[b]?).map (fun z => (z.version, z.last, z.cancelled)) = some (y.next, 3, satInc y.cancelled) ∧
      (∀ j, j ≠ b → (m.can p).bufs[j]? = (s.m.can p).bufs[j]?) ∧ OnlyCan p s.m m)) ∧
  (∀ (s : State) (p : CanId) (b t : Nat) (c : CanCfg) (k : BufCfg) (y : CanBuf) (v : Version), s.m.canCfg p = some c →
    c.bufs[b]? = some k → (s.m.can p).bufs[b]? = some y → y.version = some v → v.pending.isSome = true →
    c.listen = false → ((s.m.can p).mode = 1 ∨ (s.m.can p).mode = 2) → (s.m.can p).tec.toNat ≤ 256 →
    Completes (.canFrameTxEnd p b .completed t) s (fun m =>
      (m.can p).lastTx = some (canFrameOf (s.m.can p) k v.words) ∧ (m.can p).txOk = satInc (s.m.can p).txOk ∧
      ((m.can p).bufs[b]?).map (fun z => (z.version, z.last)) = some (y.next, if v.cancel then 2 else 1) ∧
      ((m.can p).bufs[b]?).map (fun z => (z.sent, z.sentDc)) =
        some (if v.cancel then (y.sent, satInc y.sentDc) else (satInc y.sent, y.sentDc)) ∧
      (∀ j, j ≠ b → (m.can p).bufs[j]? = (s.m.can p).bufs[j]?) ∧ OnlyCan p s.m m)) ∧
  (∀ (s : State) (p : CanId) (b t : Nat) (e : TxEnd) (c : CanCfg) (k : BufCfg) (y : CanBuf) (v : Version), s.m.canCfg p = some c →
    c.bufs[b]? = some k → (s.m.can p).bufs[b]? = some y → y.version = some v → v.pending.isSome = true → v.cancel = false →
    c.listen = false → ((s.m.can p).mode = 1 ∨ (s.m.can p).mode = 2) → e ≠ .completed → k.kind ≠ .exclusive →
    (s.m.can p).tec.toNat ≤ 247 →
    Completes (.canFrameTxEnd p b e t) s (fun m => (m.can p).bufs = (s.m.can p).bufs ∧ (m.can p).lastTx = (s.m.can p).lastTx ∧
      (m.can p).tec = (match e with
        | .error won x => if (x = .ack ∧ (s.m.can p).mode = 2) ∨ (x = .stuff ∧ won = false) then (s.m.can p).tec else satAdd (s.m.can p).tec 8
        | _ => (s.m.can p).tec) ∧
      (m.can p).ownBit = (if e = .error true .bit then satInc (s.m.can p).ownBit else (s.m.can p).ownBit) ∧ OnlyCan p s.m m)) ∧
  (∀ (s : State) (p : CanId) (b t : Nat) (won : Bool) (x : CanErr) (c : CanCfg) (k : BufCfg) (y : CanBuf) (v : Version),
    s.m.canCfg p = some c → c.bufs[b]? = some k → (s.m.can p).bufs[b]? = some y → y.version = some v →
    v.pending.isSome = true → c.listen = false → ((s.m.can p).mode = 1 ∨ (s.m.can p).mode = 2) →
    ¬(x = .ack ∧ (s.m.can p).mode = 2) → ¬(x = .stuff ∧ won = false) → 248 ≤ (s.m.can p).tec.toNat →
    Completes (.canFrameTxEnd p b (.error won x) t) s (fun m => (m.can p).mode = 3 ∧
      (m.can p).busoff = satInc (s.m.can p).busoff ∧ (m.can p).busoffAt = max s.m.now t ∧
      (∀ z ∈ (m.can p).bufs, z.version = none) ∧ (m.can p).bus = none ∧ OnlyCan p s.m m)) ∧
  (∀ (s : State) (p : CanId) (b t : Nat) (e : TxEnd) (c : CanCfg) (k : BufCfg) (y : CanBuf) (v : Version), s.m.canCfg p = some c →
    c.bufs[b]? = some k → (s.m.can p).bufs[b]? = some y → y.version = some v → v.pending.isSome = true → v.cancel = false →
    c.listen = false → ((s.m.can p).mode = 1 ∨ (s.m.can p).mode = 2) → e ≠ .completed → k.kind = .exclusive →
    (s.m.can p).tec.toNat ≤ 247 →
    Completes (.canFrameTxEnd p b e t) s (fun m =>
      ((m.can p).bufs[b]?).map (fun z => (z.version, z.last, z.miss)) = some (y.next, 5, satInc y.miss) ∧
      (m.can p).winMiss = satInc (s.m.can p).winMiss ∧ (m.can p).lastTx = (s.m.can p).lastTx ∧ OnlyCan p s.m m)) ∧
  (∀ (s : State) (p : CanId) (b t z o : Nat) (c : CanCfg) (k : BufCfg) (y : CanBuf) (v : Version), s.m.canCfg p = some c →
    c.bufs[b]? = some k → k.kind = .exclusive → c.tt = true → s.m.canSends p = true → (s.m.can p).bufs[b]? = some y →
    y.version = some v → v.released + 20000 ≤ o → v.cancel = false → k.ttMask.getLsbD (s.m.can p).cyc.toNat = true →
    (s.m.can p).cycAt = some z → o = z + ringSpan s.m.timeRing (k.ttOfs * 1000) → o ≤ max s.m.now t →
    max s.m.now t < o + ringSpan s.m.timeRing (k.ttLen * 1000) → y.winAt ≠ some o →
    max s.m.now t ≤ o + c.txen.getD 4 * nominalBitNs c.nbr →
    Becomes (.canExclusiveWindow p b true t) s ((s.m.tick t).updCan p (fun x => { x.updBuf b (fun w => { w with winAt := some o }) with
      bus := some b }))) ∧
  (∀ (s : State) (p : CanId) (b t z o : Nat) (began : Bool) (c : CanCfg) (k : BufCfg) (y : CanBuf) (v : Version), s.m.canCfg p = some c →
    c.bufs[b]? = some k → k.kind = .exclusive → c.tt = true → (s.m.can p).mode ≠ 0 → (s.m.can p).bufs[b]? = some y →
    y.version = some v → v.released + 20000 ≤ o → v.cancel = false → k.ttMask.getLsbD (s.m.can p).cyc.toNat = true →
    (s.m.can p).cycAt = some z → o = z + ringSpan s.m.timeRing (k.ttOfs * 1000) → o ≤ max s.m.now t →
    max s.m.now t < o + ringSpan s.m.timeRing (k.ttLen * 1000) → y.winAt ≠ some o →
    (began = false ∨ s.m.canSends p = false ∨ o + c.txen.getD 4 * nominalBitNs c.nbr < max s.m.now t) →
    Completes (.canExclusiveWindow p b began t) s (fun m =>
      ((m.can p).bufs[b]?).map (fun z => (z.version, z.last, z.miss)) = some (y.next, 5, satInc y.miss) ∧
      (m.can p).winMiss = satInc (s.m.can p).winMiss ∧ OnlyCan p s.m m)) ∧
  (∀ (s : State) (p : CanId) (b t : Nat), ((s.m.can p).bufs[b]?).map (fun y => y.version) = some none →
    Becomes (.canExclusiveWindow p b true t) s (s.m.tick t)) ∧
  (∀ (s : State) (p : CanId) (b t : Nat) (began : Bool) (c : CanCfg) (k : BufCfg), s.m.canCfg p = some c →
    c.bufs[b]? = some k → (k.ttMask.getLsbD (s.m.can p).cyc.toNat = false ∨ (s.m.can p).cycAt = none ∨
      (∃ z, (s.m.can p).cycAt = some z ∧ max s.m.now t < z + ringSpan s.m.timeRing (k.ttOfs * 1000))) →
    Becomes (.canExclusiveWindow p b began t) s (s.m.tick t)) ∧
  (∀ (s : State) (p : CanId) (k t z o e : Nat) (c : CanCfg) (a : ArbWindow), s.m.canCfg p = some c → c.arbs[k]? = some a →
    c.tt = true → s.m.canSends p = true → (s.m.can p).bus = none → a.mask.getLsbD (s.m.can p).cyc.toNat = true →
    (s.m.can p).cycAt = some z → o = z + ringSpan s.m.timeRing (a.ofs * 1000) → o ≤ max s.m.now t →
    e = o + ringSpan s.m.timeRing (a.len * 1000) → max s.m.now t < e →
    Becomes (.canArbitratingWindow p k t) s ((s.m.tick t).updCan p (fun x => { x with
      windowEnd := some e
      bus := if Config.busIdle (canNo p) (max s.m.now t) then
        x.winner c [.arbitrating] (fun d => decide (max s.m.now t + bufWorstNs c d ≤ e)) else none }))) ∧
  (∀ (s : State) (p : CanId) (k t : Nat) (c : CanCfg) (a : ArbWindow), s.m.canCfg p = some c → c.arbs[k]? = some a →
    (c.tt = false ∨ a.mask.getLsbD (s.m.can p).cyc.toNat = false ∨ (s.m.can p).cycAt = none ∨
      (∃ z, (s.m.can p).cycAt = some z ∧ max s.m.now t < z + ringSpan s.m.timeRing (a.ofs * 1000))) →
    Becomes (.canArbitratingWindow p k t) s (s.m.tick t)) ∧
  (∀ (s : State) (p : CanId) (t n : Nat) (c : CanCfg) (q : RingPoint) (e : TxEnd) (gone : Bool), s.m.canCfg p = some c → c.tt = true →
    s.m.canSends p = true → (s.m.can p).refBuf.block = 0 → s.m.timeRing.sync = true → c.cbc ≠ 0 →
    s.m.timeRing.tb.at0 (max s.m.now t + 50000) = q → q.off ≤ 100000 → q.basic % 32 % c.cbc = 0 → n = q.basic % 32 / c.cbc →
    (s.m.can p).cycAt = none → (e = .completed ∨ (e = .lostArbitration ∧ gone = true)) →
    gone = (e == .lostArbitration && s.m.ident.copy == 1 && s.m.sd.any (fun sd => sd.pair.paired)) →
    Completes (.canReferenceMessage p e t) s (fun m => (m.can p).cyc = BitVec.ofNat 6 n ∧ (m.can p).role = (if gone then 2 else 1) ∧
      (m.can p).cycAt = some (max s.m.now t + 50000 - q.off) ∧ (m.can p).refDue = false ∧
      (m.can p).refLost = (if gone then satInc (s.m.can p).refLost else (s.m.can p).refLost) ∧
      (m.can p).refSent = (if gone then (s.m.can p).refSent else satInc (s.m.can p).refSent) ∧
      (gone = false → (m.can p).lastTx = some {
        id := c.refId, ide := c.refIde, fdf := false, brs := false, esi := false, rtr := false, dlc := 1
        data := [(BitVec.ofNat 6 n).setWidth 8] }) ∧
      (m.can p).bufs = (s.m.can p).bufs ∧ OnlyCan p s.m m)) ∧
  (∀ (s : State) (p : CanId) (t : Nat) (c : CanCfg) (q : RingPoint) (e : TxEnd), s.m.canCfg p = some c → c.tt = true →
    s.m.timeRing.sync = true → c.cbc ≠ 0 → s.m.timeRing.tb.at0 (max s.m.now t + 50000) = q →
    (100000 < q.off ∨ q.basic % 32 % c.cbc ≠ 0) → (s.m.can p).refDue = false →
    Becomes (.canReferenceMessage p e t) s (s.m.tick t)) ∧
  (∀ (s : State) (p : CanId) (b t z : Nat) (c : CanCfg), s.m.canCfg p = some c → c.tt = true → s.m.canSends p = true →
    64 ≤ b → (s.m.can p).refBuf.block = 0 → s.m.timeRing.sync = true → (s.m.can p).refDue = true →
    (s.m.can p).cycAt = some z → max s.m.now t < z + 450000 → (s.m.can p).tec.toNat ≤ 247 →
    Completes (.canOwnBitError p b t) s (fun m => (m.can p).ownBit = satInc (s.m.can p).ownBit ∧
      (m.can p).errBit = satInc (s.m.can p).errBit ∧ (m.can p).tec = satAdd (s.m.can p).tec 8 ∧ (m.can p).refDue = true ∧
      (m.can p).refSent = (s.m.can p).refSent ∧ (m.can p).bufs = (s.m.can p).bufs ∧ OnlyCan p s.m m)) ∧
  (∀ (s : State) (p : CanId) (b t : Nat) (c : CanCfg) (k : BufCfg) (y : CanBuf) (v : Version), s.m.canCfg p = some c → b < 64 →
    c.bufs[b]? = some k → (s.m.can p).bufs[b]? = some y → y.version = some v → v.pending.isSome = true → v.cancel = false →
    c.listen = false → ((s.m.can p).mode = 1 ∨ (s.m.can p).mode = 2) → k.kind ≠ .exclusive →
    (s.m.can p).tec.toNat ≤ 247 →
    Completes (.canOwnBitError p b t) s (fun m => (m.can p).ownBit = satInc (s.m.can p).ownBit ∧
      (m.can p).errBit = satInc (s.m.can p).errBit ∧ (m.can p).bufs = (s.m.can p).bufs ∧
      (m.can p).tec = satAdd (s.m.can p).tec 8 ∧ OnlyCan p s.m m))

/-- R355 to R360: what a CAN FD port receives. -/
def Obligations.CanReceipt : Prop :=
  (∀ (s : State) (p : CanId) (f : CanFrame) (t b : Nat) (c : CanCfg) (k : BufCfg) (y : CanBuf), s.m.canCfg p = some c →
    ((s.m.can p).mode = 1 ∨ (s.m.can p).mode = 2) → f.rtr = false → canOwner c f = none →
    c.bufs.zipIdx.find? (fun q => bufTakes q.1 f) = some (k, b) → k.fdf = f.fdf → k.brs = f.brs → k.dlc = f.dlc →
    k.pair = false → (s.m.can p).bufs[b]? = some y →
    Completes (.canFrameReceive p f t) s (fun m => (m.can p).rxOk = satInc (s.m.can p).rxOk ∧
      ((m.can p).bufs[b]?).map (fun z => (if y.slot then z.slot0 else z.slot1)) = some (some (f, false, max s.m.now t)) ∧
      ((m.can p).bufs[b]?).map (fun z => (if y.slot then z.slot1 else z.slot0)) = some (if y.slot then y.slot1 else y.slot0) ∧
      ((m.can p).bufs[b]?).map (fun z => (z.slot, z.count)) = some (!y.slot, y.count + 1) ∧
      (∀ j, j ≠ b → (m.can p).bufs[j]? = (s.m.can p).bufs[j]?) ∧ (m.can p).lastTx = (s.m.can p).lastTx ∧
      (∀ l, s.m.life l = .out → m.lane l = s.m.lane l) ∧
      (∀ l, (m.lane l).mem = (s.m.lane l).mem ∧ (m.lane l).agr = (s.m.lane l).agr) ∧ m.field = s.m.field ∧ m.mod = s.m.mod)) ∧
  (∀ (s : State) (p : CanId) (f : CanFrame) (t b : Nat) (c : CanCfg) (k : BufCfg) (y : CanBuf), s.m.canCfg p = some c →
    ((s.m.can p).mode = 1 ∨ (s.m.can p).mode = 2) → f.rtr = false → canOwner c f = none →
    c.bufs.zipIdx.find? (fun q => bufTakes q.1 f) = some (k, b) → (k.fdf ≠ f.fdf ∨ k.brs ≠ f.brs ∨ k.dlc ≠ f.dlc) →
    (s.m.can p).bufs[b]? = some y →
    Completes (.canFrameReceive p f t) s (fun m =>
      ((m.can p).bufs[b]?).map (fun z => (z.cause, z.rej)) = some (2, satInc y.rej) ∧
      ((m.can p).bufs[b]?).map (fun z => (z.slot, z.count)) = some (y.slot, y.count) ∧
      ((m.can p).bufs[b]?).map (fun z => (z.slot0, z.slot1)) = some (y.slot0, y.slot1) ∧ OnlyCan p s.m m)) ∧
  (∀ (s : State) (p : CanId) (f : CanFrame) (t : Nat) (c : CanCfg), s.m.canCfg p = some c →
    ((s.m.can p).mode = 1 ∨ (s.m.can p).mode = 2) → f.rtr = true → canOwner c f = none →
    Completes (.canFrameReceive p f t) s (fun m => (m.can p).rtrRx = satInc (s.m.can p).rtrRx ∧
      (m.can p).bufs = (s.m.can p).bufs ∧ (m.can p).conflicts = (s.m.can p).conflicts ∧ OnlyCan p s.m m)) ∧
  (∀ (s : State) (p : CanId) (f : CanFrame) (t : Nat), ((s.m.can p).mode = 0 ∨ (s.m.can p).mode = 3) →
    Becomes (.canFrameReceive p f t) s (s.m.tick t)) ∧
  (∀ (s : State) (p : CanId) (f : CanFrame) (t b : Nat) (c : CanCfg) (y : CanBuf) (v : Version), s.m.canCfg p = some c →
    ((s.m.can p).mode = 1 ∨ (s.m.can p).mode = 2) → canOwner c f = some (some b) →
    (s.m.can p).bufs[b]? = some y → y.version = some v → v.cancel = false → y.next = none → y.block = 0 →
    y.retryAt = none →
    Completes (.canFrameReceive p f t) s (fun m => (m.can p).conflicts = satInc (s.m.can p).conflicts ∧
      ((m.can p).bufs[b]?).map (fun z => (z.version, z.last, z.miss)) = some (none, 6, satInc y.miss) ∧
      ((m.can p).bufs[b]?).map (fun z => (z.block, z.blockedAt, z.series)) = some (1, max s.m.now t, 1) ∧
      ((m.can p).lastId, (m.can p).lastIde) = (f.id, f.ide) ∧
      (∀ j, j ≠ b → (m.can p).bufs[j]? = (s.m.can p).bufs[j]?) ∧ OnlyCan p s.m m)) ∧
  (∀ (s : State) (p : CanId) (f : CanFrame) (t b r : Nat) (c : CanCfg) (y : CanBuf), s.m.canCfg p = some c →
    ((s.m.can p).mode = 1 ∨ (s.m.can p).mode = 2) → canOwner c f = some (some b) →
    (s.m.can p).bufs[b]? = some y → y.block = 0 → y.retryAt = some r → max s.m.now t ≤ r + 10000000000 → 3 ≤ y.conflictRun →
    Completes (.canFrameReceive p f t) s (fun m =>
      ((m.can p).bufs[b]?).map (fun z => (z.block, z.series)) = some (2, 3) ∧ OnlyCan p s.m m)) ∧
  (∀ (s : State) (p : CanId) (b t : Nat) (y : CanBuf), b < 64 → (s.m.can p).bufs[b]? = some y → y.block = 1 →
    y.blockedAt + 1000000000 ≤ max s.m.now t →
    Completes (.ownershipBlockExpire p b t) s (fun m =>
      (m.can p).bufs[b]? = some { y with block := 0, retryAt := some (max s.m.now t) } ∧
      (∀ j, j ≠ b → (m.can p).bufs[j]? = (s.m.can p).bufs[j]?) ∧ OnlyCan p s.m m)) ∧
  (∀ (s : State) (p : CanId) (b t : Nat) (y : CanBuf), b < 64 → (s.m.can p).bufs[b]? = some y → y.block = 2 →
    Becomes (.ownershipBlockExpire p b t) s (s.m.tick t)) ∧
  (∀ (s : State) (p : CanId) (t : Nat), (s.m.can p).refBuf.block = 1 → (s.m.can p).refBuf.blockedAt + 1000000000 ≤ max s.m.now t →
    Completes (.ownershipBlockExpire p 64 t) s (fun m =>
      (m.can p).refBuf = { (s.m.can p).refBuf with block := 0, retryAt := some (max s.m.now t) } ∧
      (m.can p).bufs = (s.m.can p).bufs ∧ OnlyCan p s.m m)) ∧
  (∀ (s : State) (p : CanId) (b t : Nat) (c : CanCfg) (k : BufCfg) (y : CanBuf) (f : CanFrame) (q : Bool) (r : List (CanFrame × Bool)),
    s.m.canCfg p = some c → c.bufs[b]? = some k → (s.m.can p).bufs[b]? = some y → y.pairGroup = (f, q) :: r →
    y.pairAt + k.pairWin.getD 1000 * 1000 ≤ max s.m.now t → (∀ g ∈ r, g.1.data = f.data) →
    Completes (.canPairSettle p b t) s (fun m =>
      ((m.can p).bufs[b]?).map (fun z => (z.pairGroup, z.dup, z.count)) = some ([], satAdd y.dup r.length, y.count + 1) ∧
      ((m.can p).bufs[b]?).map (fun z => (if y.slot then z.slot0 else z.slot1)) = some (some (f, q, max s.m.now t)) ∧
      (∀ j, j ≠ b → (m.can p).bufs[j]? = (s.m.can p).bufs[j]?) ∧ m.field = s.m.field ∧ m.mod = s.m.mod)) ∧
  (∀ (s : State) (p : CanId) (b t : Nat) (c : CanCfg) (k : BufCfg) (y : CanBuf) (f : CanFrame) (q : Bool) (r : List (CanFrame × Bool)),
    s.m.canCfg p = some c → c.bufs[b]? = some k → (s.m.can p).bufs[b]? = some y → y.pairGroup = (f, q) :: r →
    y.pairAt + k.pairWin.getD 1000 * 1000 ≤ max s.m.now t → (∃ g ∈ r, g.1.data ≠ f.data) →
    Completes (.canPairSettle p b t) s (fun m =>
      ((m.can p).bufs[b]?).map (fun z => (z.pairGroup, z.pairDis, z.count)) = some ([], satInc y.pairDis, y.count) ∧
      ((m.can p).bufs[b]?).map (fun z => (z.cause, z.slot0, z.slot1)) = some (1, y.slot0, y.slot1) ∧ OnlyCan p s.m m))

/-- R364: the error states of a CAN FD port. -/
def Obligations.CanErrors : Prop :=
  (∀ (s : State) (p : CanId) (e : CanErr) (heavy : Bool) (t n : Nat) (c : CanCfg), s.m.canCfg p = some c →
    ((s.m.can p).mode = 1 ∨ (s.m.can p).mode = 2) → c.listen = false → (s.m.can p).tec.toNat ≤ 127 →
    n = (if e = .ack then 0 else if heavy then 8 else 1) →
    Completes (.canBusError p e heavy t) s (fun m => (m.can p).recv = satAdd (s.m.can p).recv n ∧
      (m.can p).mode = (if 127 < (satAdd (s.m.can p).recv n).toNat then 2 else 1) ∧
      ((m.can p).errBit, (m.can p).errStuff, (m.can p).errForm) = (match e with
        | .bit => (satInc (s.m.can p).errBit, (s.m.can p).errStuff, (s.m.can p).errForm)
        | .stuff => ((s.m.can p).errBit, satInc (s.m.can p).errStuff, (s.m.can p).errForm)
        | .form => ((s.m.can p).errBit, (s.m.can p).errStuff, satInc (s.m.can p).errForm)
        | _ => ((s.m.can p).errBit, (s.m.can p).errStuff, (s.m.can p).errForm)) ∧
      ((m.can p).errCrc, (m.can p).errAck) = (match e with
        | .crc => (satInc (s.m.can p).errCrc, (s.m.can p).errAck) | .ack => ((s.m.can p).errCrc, satInc (s.m.can p).errAck)
        | _ => ((s.m.can p).errCrc, (s.m.can p).errAck)) ∧
      (m.can p).bufs = (s.m.can p).bufs ∧ OnlyCan p s.m m)) ∧
  (∀ (s : State) (p : CanId) (e : CanErr) (heavy : Bool) (t : Nat) (c : CanCfg), s.m.canCfg p = some c →
    ((s.m.can p).mode = 1 ∨ (s.m.can p).mode = 2) → c.listen = true →
    Completes (.canBusError p e heavy t) s (fun m => (m.can p).recv = (s.m.can p).recv ∧ (m.can p).tec = (s.m.can p).tec ∧
      OnlyCan p s.m m)) ∧
  (∀ (s : State) (p : CanId) (t : Nat) (c : CanCfg), s.m.canCfg p = some c → ((s.m.can p).mode = 1 ∨ (s.m.can p).mode = 2) →
    c.listen = false →
    Completes (.canBusOff p t) s (fun m => (m.can p).mode = 3 ∧ (m.can p).busoff = satInc (s.m.can p).busoff ∧
      (m.can p).busoffAt = max s.m.now t ∧ (∀ y ∈ (m.can p).bufs, y.version = none) ∧ (m.can p).bus = none ∧
      (m.can p).recov = false ∧ OnlyCan p s.m m)) ∧
  (∀ (s : State) (p : CanId) (t : Nat), (s.m.can p).mode = 3 → (s.m.can p).busoffAt + 1000000000 ≤ max s.m.now t →
    Becomes (.canBusOffRecovery p t) s ((s.m.tick t).updCan p (fun x => { x with recov := true }))) ∧
  (∀ (s : State) (p : CanId) (t : Nat), max s.m.now t < (s.m.can p).busoffAt + 1000000000 →
    Becomes (.canBusOffRecovery p t) s (s.m.tick t)) ∧
  (∀ (s : State) (p : CanId) (t : Nat), (s.m.can p).mode = 3 → (s.m.can p).recov = true →
    Completes (.canBusOffRecovered p t) s (fun m =>
      m.can p = { s.m.can p with mode := 1, recov := false, tec := 0, recv := 0 } ∧ OnlyCan p s.m m))

/-- R370 to R373, R381, R382: the links of a pair. The model's choices that it names stand in log 46. -/
def Obligations.PairLinks : Prop :=
  (∀ (s : State) (t : Nat), s.m.cal.txOn = true → s.m.paired = true →
    Completes (.pairStatusSend t) s (fun m =>
      (∀ k ∈ [LinkId.l1, .l2], (s.m.pair.link k).unusable = true → (m.pair.link k).lastStatus = (s.m.pair.link k).lastStatus) ∧
      (∀ k ∈ [LinkId.l1, .l2], (s.m.pair.link k).unusable = false →
        (m.pair.link k).lastStatus.map (fun f => (pairIntact (.status f), f.link, f.copy, f.cycle)) =
          some (true, k, s.m.ident.copy, s.m.cycleNo) ∧
        (m.pair.link k).lastStatus.map (fun f => (f.mode.toNat, f.role.toNat, f.lanes, f.swap)) =
          some (modeCode s.m.mod.mode, roleCode s.m.pair.role, s.m.votingMask, s.m.pair.swap) ∧
        (m.pair.link k).lastStatus.map (fun f => (some f.sdId, f.faults)) =
          some (s.m.sd.map (fun d => d.id), s.m.field.out.map (fun x => x.fault)) ∧
        (s.m.pair.l1.line = [] → s.m.pair.l2.line = [] → some (m.pair.link k).line = (m.pair.link k).lastStatus.map (fun f =>
          [{ ready := max s.m.now t, start := max s.m.now t, frame := .status f }])) ∧
        { m.pair.link k with lastStatus := none, line := [] } = { s.m.pair.link k with lastStatus := none, line := [] }) ∧
      { m with now := s.m.now, pair := { m.pair with l1 := s.m.pair.l1, l2 := s.m.pair.l2, mirrorEnd := s.m.pair.mirrorEnd } } =
        s.m)) ∧
  (∀ (s : State) (k : LinkId) (f : StatusFrame) (t : Nat), s.m.linkHears k = true → pairIntact (.status f) = true → f.link = k →
    s.m.pair.role ≠ .shadow →
    Completes (.pairStatusReceive k f t) s (fun m => (m.pair.link k).up = true ∧ (m.pair.link k).lastAt = max s.m.now t ∧
      (m.pair.link k).run = (s.m.pair.link k).run + 1 ∧
      (m.pair.link k).service = ((s.m.pair.link k).service || decide (20 ≤ (s.m.pair.link k).run + 1)) ∧
      m.pair.partner = some f ∧ m.pair.present = (m.pair.l1.service || m.pair.l2.service) ∧
      m.pair.swap = (if s.m.pair.role = .joining then f.swap else s.m.pair.swap) ∧ m.pair.role = s.m.pair.role ∧
      m.mod = s.m.mod ∧ m.lanes = s.m.lanes ∧ m.cal = s.m.cal ∧ m.field = s.m.field ∧ m.bench = s.m.bench)) ∧
  (∀ (s : State) (k : LinkId) (f : StatusFrame) (t : Nat), s.m.linkHears k = true → pairIntact (.status f) = true → f.link = k →
    s.m.pair.role = .shadow → s.m.mod.mode = .shadow → f.role = 1 → (f.mode = 4 ∨ f.mode = 8) →
    Completes (.pairStatusReceive k f t) s (fun m => m.mod.mode = .join ∧ m.pair.role = .joining ∧ Undriven m ∧
      m.pair.joins = satInc s.m.pair.joins ∧ m.cal.vote.held = [] ∧ m.pair.partner = some f)) ∧
  (∀ (s : State) (k : LinkId) (f : StatusFrame) (t : Nat), s.m.linkHears k = true → pairIntact (.status f) = false →
    Completes (.pairStatusReceive k f t) s (fun m => (m.pair.link k).errs = satInc (s.m.pair.link k).errs ∧
      (m.pair.link k).run = 0 ∧ (m.pair.link k).service = (s.m.pair.link k).service ∧ m.pair.partner = s.m.pair.partner ∧
      (∀ j, j ≠ k → m.pair.link j = s.m.pair.link j) ∧ m.mod = s.m.mod ∧ m.lanes = s.m.lanes ∧ m.field = s.m.field)) ∧
  (∀ (s : State) (k : LinkId) (f : StatusFrame) (t : Nat), s.m.linkHears k = true → pairIntact (.status f) = true → f.link ≠ k →
    Completes (.pairStatusReceive k f t) s (fun m => (m.pair.link k).errs = satInc (s.m.pair.link k).errs ∧
      (m.pair.link k).service = false ∧ m.pair.partner = s.m.pair.partner ∧ m.mod = s.m.mod ∧ m.lanes = s.m.lanes)) ∧
  (∀ (s : State) (k : LinkId) (f : StatusFrame) (t : Nat), s.m.linkHears k = false →
    Becomes (.pairStatusReceive k f t) s (s.m.tick t)) ∧
  (∀ (s : State) (k : LinkId) (t : Nat), (s.m.pair.link k).up = true → (s.m.pair.link k).service = true →
    (s.m.pair.link k).lastAt + 3000000 ≤ max s.m.now t →
    Completes (.pairLinkTimeout k t) s (fun m => (m.pair.link k).service = false ∧ (m.pair.link k).up = false ∧
      (m.pair.link k).run = 0 ∧ (∀ j, j ≠ k → m.pair.link j = s.m.pair.link j) ∧
      m.pair.present = (m.pair.l1.service || m.pair.l2.service) ∧ m.mod = s.m.mod ∧ m.lanes = s.m.lanes ∧ m.field = s.m.field)) ∧
  (∀ (s : State) (k : LinkId) (t : Nat), max s.m.now t < (s.m.pair.link k).lastAt + 3000000 →
    Becomes (.pairLinkTimeout k t) s (s.m.tick t)) ∧
  (∀ (s : State) (t g : Nat), s.m.mod.mode = .join → s.m.paired = true → s.m.pair.goneAt = some g →
    g + 2000000000 ≤ max s.m.now t → s.m.pair.yielded = false → s.m.pair.l1.service = false → s.m.pair.l2.service = false →
    s.m.inLastCycle s.m.pair.sightIn = false →
    Becomes (.joinAloneLead t) s { s.m.tick t with pair := { s.m.pair with alone := true, present := false } }) ∧
  (∀ (s : State) (t : Nat), s.m.paired = true → (s.m.pair.l1.service = true ∨ s.m.pair.l2.service = true) →
    Completes (.joinAloneLead t) s (fun m => m.pair.alone = false ∧ m.pair.present = true ∧ m.pair.goneAt = none ∧
      { m with now := s.m.now, pair := s.m.pair } = s.m))

/-- R375 to R380: the mirror packet. `data` is the packet's data words, `p` where they hold what the receiver takes. The
model's choices that it names stand in logs 36, 46, 47, 120. -/
def Obligations.MirrorPackets : Prop :=
  (∀ (s : State) (k : LinkId) (f : MirrorFrame) (t : Nat), s.m.linkHears k = true → pairIntact (.mirror f) = true → f.link = k →
    f.copy ≠ s.m.ident.copy → f.cycle = s.m.cycleNo → s.m.pair.packet = none → (s.m.pair.role = .shadow ∨ s.m.pair.role = .joining) →
    findHalf s.m.pair.halves f.seg f.odd = none →
    Completes (.mirrorFrameReceive k f t) s (fun m => m.pair.halves = s.m.pair.halves ++ [f] ∧
      m.pair.packet = (wholePacket (s.m.pair.halves ++ [f])).map (fun x => (f.cycle, x)) ∧ (m.pair.link k).up = true ∧
      (∀ l ∈ laneIds, inMask m.pair.packetTo l = !s.m.isOut l) ∧
      (m.pair.link k).lastAt = max s.m.now t ∧ { m with now := s.m.now, pair := s.m.pair } = s.m)) ∧
  (∀ (s : State) (k : LinkId) (f : MirrorFrame) (t : Nat), s.m.linkHears k = true → pairIntact (.mirror f) = true → f.link = k →
    (f.copy = s.m.ident.copy ∨ f.cycle ≠ s.m.cycleNo ∨ s.m.pair.role = .lead ∨ s.m.pair.role = .none) →
    Completes (.mirrorFrameReceive k f t) s (fun m => m.pair.halves = s.m.pair.halves ∧ m.pair.packet = s.m.pair.packet ∧
      { m with now := s.m.now, pair := s.m.pair } = s.m)) ∧
  (∀ (s : State) (k : LinkId) (f : MirrorFrame) (t : Nat), s.m.linkHears k = true → pairIntact (.mirror f) = false →
    Completes (.mirrorFrameReceive k f t) s (fun m => (m.pair.link k).errs = satInc (s.m.pair.link k).errs ∧
      m.pair.halves = s.m.pair.halves ∧ m.pair.packet = s.m.pair.packet ∧ m.lanes = s.m.lanes ∧ m.mod = s.m.mod)) ∧
  (∀ (s : State) (l : LaneId) (t : Nat) (segs : List (List W64)) (sd : StationData) (p : PacketMap) (h : ImageHeader) (data : List W64),
    s.m.pair.packet = some ((s.m.lane l).cop.cycleNo, segs) → s.m.sd = some sd → s.m.isOut l = false → inMask s.m.pair.packetTo l = true → s.m.pair.takenBy = 0 →
    (s.m.lane l).phase = .sleepEntry → (s.m.pair.role = .shadow ∨ s.m.pair.role = .joining) →
    (∀ x ∈ segs, segmentOk ((segs.headD []).getD 1 0) (s.m.lane l).cop.cycleNo x = true) →
    packetMap (s.m.pair.role == .joining) sd ((segs.headD []).getD 1 0) = some p → data = packetData segs → (s.m.lane l).mem.header = some h →
    max s.m.now t + takeNs p data + 10000 ≤ (s.m.lane l).t0 + s.m.cycleNs →
    (s.m.mod.mode ≠ .shadow ∨ data.headD 0 = outputDigest (s.m.lane l).strap (s.m.lane l)) →
    Completes (.mirrorTake l t) s (fun m =>
      (m.lane l).mem = takeStores (s.m.lane l).strap h p data
        (freshStores (s.m.lane l).strap h sd p (ctlOvf data) (s.m.lane l).mem) ∧
      (m.lane l).xch.orBits = (p.reqs.filter (fun q => packetBit data q.1)).map Prod.snd ∧
      (m.lane l).cop.holdSrc = setBit (s.m.lane l).cop.holdSrc 1 false ∧
      (m.lane l).agr = (s.m.lane l).agr ∧ (m.lane l).drive = (s.m.lane l).drive ∧
      (∀ j ∈ laneIds, j ≠ l → m.lane j = s.m.lane j) ∧ m.pair.adopted = satInc s.m.pair.adopted ∧
      m.pair.lastAdopt = (s.m.lane l).cop.cycleNo ∧ m.pair.swap = ctlSwap data ∧
      m.pair.same = (if s.m.mod.mode = .shadow then s.m.pair.same ||| maskOf (· == l) else s.m.pair.same) ∧
      m.pair.differ = s.m.pair.differ ∧ m.pair.mismRun = s.m.pair.mismRun ∧ m.pair.equalRun = s.m.pair.equalRun ∧
      m.mod = s.m.mod ∧ m.field = s.m.field ∧ m.cal = s.m.cal)) ∧
  (∀ (s : State) (l : LaneId) (t : Nat) (segs : List (List W64)) (sd : StationData) (p : PacketMap) (h : ImageHeader) (data : List W64),
    s.m.pair.packet = some ((s.m.lane l).cop.cycleNo, segs) → s.m.sd = some sd → s.m.isOut l = false → inMask s.m.pair.packetTo l = true → s.m.pair.takenBy = 0 →
    (s.m.lane l).phase = .sleepEntry → s.m.pair.role = .shadow →
    (∀ x ∈ segs, segmentOk ((segs.headD []).getD 1 0) (s.m.lane l).cop.cycleNo x = true) →
    packetMap (s.m.pair.role == .joining) sd ((segs.headD []).getD 1 0) = some p → data = packetData segs → (s.m.lane l).mem.header = some h →
    max s.m.now t + takeNs p data + 10000 ≤ (s.m.lane l).t0 + s.m.cycleNs → s.m.mod.mode = .shadow →
    data.headD 0 ≠ outputDigest (s.m.lane l).strap (s.m.lane l) →
    Completes (.mirrorTake l t) s (fun m => m.pair.differ = s.m.pair.differ ||| maskOf (· == l) ∧
      m.pair.same = s.m.pair.same ∧ m.pair.mism = s.m.pair.mism ∧ m.pair.adopted = satInc s.m.pair.adopted ∧ m.mod = s.m.mod ∧ m.field = s.m.field ∧ m.cal.vote = s.m.cal.vote ∧
      (m.lane l).mem = takeStores (s.m.lane l).strap h p data
        (freshStores (s.m.lane l).strap h sd p (ctlOvf data) (s.m.lane l).mem))) ∧
  (∀ (m : Mach) (n : W32) (e d : Nat), e = (m.votingLanes.filter (inMask m.pair.same)).length →
    d = (m.votingLanes.filter (inMask m.pair.differ)).length → 0 < e + d →
    ((m.judgeDigests n).pair.same, (m.judgeDigests n).pair.differ) = (0, 0) ∧
    ((m.judgeDigests n).pair.mismRun, (m.judgeDigests n).pair.equalRun, (m.judgeDigests n).pair.mism) =
      (if d < e then (0, m.pair.equalRun + 1, m.pair.mism) else (m.pair.mismRun + 1, 0, satInc m.pair.mism)) ∧
    (m.judgeDigests n).lanes = m.lanes ∧ (m.judgeDigests n).mod = m.mod ∧ (m.judgeDigests n).pair.role = m.pair.role) ∧
  (∀ (s : State) (l : LaneId) (t : Nat) (segs : List (List W64)) (sd : StationData) (p : PacketMap),
    s.m.pair.packet = some ((s.m.lane l).cop.cycleNo, segs) → s.m.sd = some sd → s.m.isOut l = false →
    inMask s.m.pair.packetTo l = true → s.m.pair.takenBy = 0 →
    (s.m.lane l).phase = .sleepEntry → (s.m.pair.role = .shadow ∨ s.m.pair.role = .joining) →
    (∀ x ∈ segs, segmentOk ((segs.headD []).getD 1 0) (s.m.lane l).cop.cycleNo x = true) →
    packetMap (s.m.pair.role == .joining) sd ((segs.headD []).getD 1 0) = some p →
    (s.m.lane l).t0 + s.m.cycleNs < max s.m.now t + takeNs p (packetData segs) + 10000 →
    Completes (.mirrorTake l t) s (fun m => m.pair.rxLate = satInc s.m.pair.rxLate ∧ m.pair.adopted = s.m.pair.adopted ∧
      m.pair.mism = s.m.pair.mism ∧ (m.lane l).mem = (s.m.lane l).mem ∧ (m.lane l).comm = (s.m.lane l).comm ∧
      (∀ j ∈ laneIds, j ≠ l → m.lane j = s.m.lane j) ∧ m.mod = s.m.mod ∧ m.field = s.m.field)) ∧
  (∀ (s : State) (l : LaneId) (t : Nat), (s.m.isOut l = true ∨ inMask s.m.pair.packetTo l = false) →
    Becomes (.mirrorTake l t) s (s.m.tick t)) ∧
  (∀ (s : State) (l : LaneId) (t : Nat) (c : W32) (segs : List (List W64)) (sd : StationData),
    s.m.pair.packet = some (c, segs) → s.m.sd = some sd → s.m.isOut l = false → inMask s.m.pair.packetTo l = true → s.m.pair.takenBy = 0 →
    (s.m.lane l).phase = .sleepEntry → (s.m.pair.role = .shadow ∨ s.m.pair.role = .joining) →
    (c ≠ (s.m.lane l).cop.cycleNo ∨ ∃ x ∈ segs, segmentOk ((segs.headD []).getD 1 0) (s.m.lane l).cop.cycleNo x = false) →
    Completes (.mirrorTake l t) s (fun m => m.pair.rxBad = satInc s.m.pair.rxBad ∧ m.pair.adopted = s.m.pair.adopted ∧
      (m.lane l).mem = (s.m.lane l).mem ∧ (m.lane l).comm = (s.m.lane l).comm ∧ (m.lane l).agr = (s.m.lane l).agr ∧
      (∀ j ∈ laneIds, j ≠ l → m.lane j = s.m.lane j) ∧ m.mod = s.m.mod ∧ m.field = s.m.field))

/-- R393 to R395: the mode commands at the Bench. `k` numbers a code with its command. The model's choices that it names
stand in logs 52, 67, 121. -/
def Obligations.ModeCommands : Prop :=
  (∀ (s : State) (k : Fin modeCommands.length) (via : Via) (sess : Sess) (t : Nat) (b : Mach),
    b = (s.m.tick t).benchTick → sess = viaSess via →
    mayWrite s t via (pathAddr [1] ||| 0x02C) [BitVec.ofNat 32 (modeCommands[k].1.toNat + 256 * 0xA5)] true b = true → b.mod.cmd = none → b.evaluates = true →
    Completes (modeCommands[k].2 via 0xA5 t) s (fun m =>
      m.mod.cmd = some { code := modeCommands[k].1, target := (s.m.lane s.m.numberLane).cop.cycleNo + 2, at0 := max s.m.now t
                         applied := false, outcome := 0 } ∧
      m.mod.cmdRes.ready = false ∧ Answered sess .ok m ∧ m.mod.mode = s.m.mod.mode ∧ m.lanes = b.lanes ∧ m.sd = b.sd ∧
      m.cal = b.cal ∧ m.pair = b.pair)) ∧
  (∀ (s : State) (k : Fin modeCommands.length) (via : Via) (sess : Sess) (key : Byte) (t : Nat) (b : Mach),
    b = (s.m.tick t).benchTick → sess = viaSess via →
    mayWrite s t via (pathAddr [1] ||| 0x02C) [BitVec.ofNat 32 (modeCommands[k].1.toNat + 256 * key.toNat)] true b = true → (key ≠ 0xA5 ∨ b.mod.cmd.isSome = true) →
    Completes (modeCommands[k].2 via key t) s (fun m => Answered sess .refused m ∧ m.mod = s.m.mod ∧ OnlyBench b m)) ∧
  (∀ (s : State) (k : Fin modeCommands.length) (via : Via) (sess : Sess) (t : Nat) (b : Mach),
    b = (s.m.tick t).benchTick → sess = viaSess via →
    mayWrite s t via (pathAddr [1] ||| 0x02C) [BitVec.ofNat 32 (modeCommands[k].1.toNat + 256 * 0xA5)] true b = true → b.mod.cmd = none → b.evaluates = false →
    Completes (modeCommands[k].2 via 0xA5 t) s (fun m => m.mod.cmd = none ∧ m.mod.resCode = modeCommands[k].1 ∧ m.mod.resOutcome = 2 ∧
      m.mod.cmdRes.ready = true ∧ m.mod.cmdRes.serial = s.m.mod.cmdRes.serial + 1 ∧ m.mod.mode = s.m.mod.mode ∧
      Answered sess .ok m)) ∧
  (∀ (s : State) (k : Fin modeCommands.length) (h : MntHead) (n t : Nat) (seq : W32) (key : Byte),
    exec (modeCommands[k].2 (.mnt h n seq) key t) s =
      exec (.mntWrite h n seq (pathAddr [1] ||| 0x02C) 1 [BitVec.ofNat 32 (modeCommands[k].1.toNat + 256 * key.toNat)] t) s) ∧
  (∀ (s : State) (k : Fin modeCommands.length) (h : MntHead) (n t : Nat) (seq : W32) (key : Byte) (b : Mach) (x : MntSession),
    b = (s.m.tick t).benchTick → mntTakes s t h 0x04 n seq (spanBytes (pathAddr [1] ||| 0x02C) 1 ++
      bytes32 (BitVec.ofNat 32 (modeCommands[k].1.toNat + 256 * key.toNat))) b = true → b.mntSess n = some x → seq = x.seq + 1 → (x.authed = false ∨ x.level = .read) →
    Completes (modeCommands[k].2 (.mnt h n seq) key t) s (fun m => Answered (.mnt n) .authErr m ∧ m.mod = s.m.mod ∧
      m.lanes = b.lanes)) ∧
  (∀ (s : State) (t : Nat) (c : PendingCmd), s.m.mod.cmd = some c → c.applied = false → c.at0 + s.m.cycleNs ≤ max s.m.now t →
    ((s.m.tick t).benchTick.evaluates = false ∨
      ∀ l ∈ (s.m.tick t).benchTick.votingLanes, (s.m.tick t).benchTick.grants l = false ∧ (s.m.lane l).t0 ≤ c.at0) →
    Completes (.commandUnserved t) s (fun m => m.mod.cmd = none ∧ m.mod.resCode = c.code ∧ m.mod.resOutcome = 5 ∧
      m.mod.resTarget = c.target ∧ m.mod.cmdRes.ready = true ∧ m.mod.mode = s.m.mod.mode)) ∧
  (∀ (s : State) (t : Nat) (c : PendingCmd) (l : LaneId), s.m.mod.cmd = some c → (s.m.tick t).benchTick.evaluates = true →
    l ∈ (s.m.tick t).benchTick.votingLanes →
    ((s.m.tick t).benchTick.grants l = true ∨ c.at0 < ((s.m.tick t).benchTick.lane l).t0) →
    Becomes (.commandUnserved t) s (s.m.tick t).benchTick) ∧
  (∀ (s : State) (t : Nat) (c : PendingCmd), s.m.mod.cmd = some c → max s.m.now t < c.at0 + s.m.cycleNs →
    Becomes (.commandUnserved t) s (s.m.tick t).benchTick)

/-- R391, R394, R395, R469: a pending command at a T0. -/
def Obligations.ModeCommandEffects : Prop :=
  (∀ (m : Mach) (n : W32) (c : PendingCmd), m.mod.cmd = some c → c.applied = false → c.target = n →
    (m.codeAllowed c.code.toNat = false ∨ m.permitted c.code.toNat = false ∨ m.conditionMet c.code.toNat = false) →
    m.applyCommand n = { m with mod := { m.mod with cmd := some { c with
      applied := true
      outcome := if m.codeAllowed c.code.toNat = false then 2 else if m.permitted c.code.toNat = false then 3 else 4 } } }) ∧
  (∀ (m : Mach) (n : W32) (c : PendingCmd), m.mod.cmd = some c → c.applied = false → newer n c.target = true →
    (m.applyCommand n).mod.cmd = none ∧ (m.applyCommand n).mod.resOutcome = 5 ∧ (m.applyCommand n).mod.mode = m.mod.mode) ∧
  (∀ (m : Mach) (n : W32) (c : PendingCmd), m.mod.cmd = some c → c.applied = false → c.target = n → c.code = 0x01 →
    m.codeAllowed 1 = true → m.permitted 1 = true → m.conditionMet 1 = true →
    (m.applyCommand n).mod.mode = .maintain ∧ (m.applyCommand n).mod.cmd = some { c with applied := true, outcome := 1 }) ∧
  (∀ (m : Mach) (n : W32) (c : PendingCmd), m.mod.cmd = some c → c.applied = false → c.target = n →
    (c.code = 0x02 ∨ c.code = 0x04) → m.codeAllowed c.code.toNat = true → m.permitted c.code.toNat = true →
    (m.applyCommand n).mod.mode = (if m.votingLanes.length = 3 then .service else .degraded)) ∧
  (∀ (m : Mach) (n : W32) (c : PendingCmd), m.mod.cmd = some c → c.applied = false → c.target = n → c.code = 0x03 →
    m.codeAllowed 3 = true → m.permitted 3 = true → m.conditionMet 3 = true →
    (m.applyCommand n).mod.mode = .commission ∧ (m.applyCommand n).mod.sweepState = 1 ∧ (m.applyCommand n).mod.sweepStep = 0 ∧
      (m.applyCommand n).mod.sweepFrom = some n ∧ (m.applyCommand n).mod.sweepPass = 0) ∧
  (∀ (m : Mach) (n : W32) (c : PendingCmd), m.mod.cmd = some c → c.applied = false → c.target = n → c.code = 0x05 →
    m.codeAllowed 5 = true → m.permitted 5 = true →
    (m.applyCommand n).mod.mode = .commission ∧ (m.applyCommand n).mod.sweepState = 1 ∧ (m.applyCommand n).mod.sweepFrom = some n) ∧
  (∀ (m : Mach) (n : W32) (c : PendingCmd), m.mod.cmd = some c → c.applied = false → c.target = n → c.code = 0x06 →
    m.codeAllowed 6 = true → m.permitted 6 = true → m.conditionMet 6 = true →
    (m.applyCommand n).pair.swap = n + 4 ∧ (m.applyCommand n).mod.mode = m.mod.mode ∧ (m.applyCommand n).lanes = m.lanes) ∧
  (∀ (m : Mach) (n : W32) (c : PendingCmd), m.mod.cmd = some c → c.applied = false → c.target = n → c.code = 0x07 →
    m.codeAllowed 7 = true → m.permitted 7 = true →
    (m.applyCommand n).mod.mode = .quiesce ∧ Undriven (m.applyCommand n) ∧ (m.applyCommand n).cal.vote.held = [] ∧
      (m.applyCommand n).power.commanded = true ∧ (m.applyCommand n).mod.resOutcome = 1 ∧ (m.applyCommand n).mod.cmd = none ∧
      (m.applyCommand n).bench.test.token0 = none) ∧
  (∀ (m : Mach) (n : W32) (c : PendingCmd), m.mod.cmd = some c → c.applied = false → c.target = n → c.code = 0x10 →
    m.codeAllowed 0x10 = true → m.permitted 0x10 = true → m.conditionMet 0x10 = true →
    (m.applyCommand n).mod.mode = .update ∧ (m.applyCommand n).bench.upd.trial = m.bench.upd.trial) ∧
  (∀ (m : Mach) (n : W32) (c : PendingCmd), m.mod.cmd = some c → c.applied = false → c.target = n → c.code = 0x11 →
    m.codeAllowed 0x11 = true → m.permitted 0x11 = true → m.conditionMet 0x11 = true →
    (m.applyCommand n).bench.upd = { m.bench.upd with armed := true } ∧ (m.applyCommand n).mod.mode = m.mod.mode) ∧
  (∀ (m : Mach) (n : W32) (c : PendingCmd), m.mod.cmd = some c → c.applied = false → c.target = n → c.code = 0x12 →
    m.codeAllowed 0x12 = true → m.permitted 0x12 = true → m.conditionMet 0x12 = true →
    (m.applyCommand n).mod.mode = .update ∧ (m.applyCommand n).mod.activating = true ∧
      (m.applyCommand n).bench.upd.trial = some .stationData ∧ Undriven (m.applyCommand n)) ∧
  (∀ (m : Mach) (n : W32) (c : PendingCmd), m.mod.cmd = some c → c.applied = false → c.target = n → c.code = 0x13 →
    m.codeAllowed 0x13 = true → m.permitted 0x13 = true →
    (m.applyCommand n).bench.upd.trial = none ∧ (m.applyCommand n).bench.upd.onTrial .firmware = false ∧
      (m.applyCommand n).bench.upd.onTrial .stationData = false ∧ (m.applyCommand n).mod.mode = m.mod.mode) ∧
  (∀ (m : Mach) (n : W32) (c : PendingCmd), m.mod.cmd = some c → c.applied = false → c.target = n → c.code = 0x14 →
    m.codeAllowed 0x14 = true → m.permitted 0x14 = true →
    (m.applyCommand n).bench.upd.fallbacks = satInc m.bench.upd.fallbacks ∧ (m.applyCommand n).bench.upd.lastCause = 5) ∧
  (∀ (m : Mach) (n : W32) (c : PendingCmd), m.mod.cmd = some c → c.applied = false → c.target = n → c.code = 0x15 →
    m.codeAllowed 0x15 = true → m.permitted 0x15 = true → m.conditionMet 0x15 = true →
    (m.applyCommand n).bench.upd.enrol = none ∧ (m.applyCommand n).mod.mode = m.mod.mode)

/-- R405: a field sweep. `b` is the module at the command's instant. The model's choices that it names stand in log 9.
-/
def Obligations.FieldSweep : Prop :=
  (∀ (s : State) (n t : Nat) (c : W32), n < 24 → s.m.mod.sweepState = 1 → s.m.mod.sweepStarted = false → n = 0 →
    s.m.mod.sweepFrom = some c → 1 ≤ (s.m.cycleNo - c).toNat → (s.m.cycleNo - c).toNat < 2 ^ 31 →
    Completes (.sweepStep n t) s (fun m => m.mod.sweepStep = 0 ∧ m.mod.sweepStarted = true ∧
      m.mod.sweepStepAt = (s.m.lane s.m.countLane).t0 ∧ m.mod.sweepBad = false ∧ m.mod.sweepPass = s.m.mod.sweepPass ∧
      (m.field.out[n]?).map (fun o => (o.swPos, o.swNeg, o.swOff)) = (s.m.field.out[n]?).map (fun _ => (false, false, false)) ∧
      m.mod.mode = s.m.mod.mode ∧ m.lanes = s.m.lanes)) ∧
  (∀ (s : State) (k t : Nat) (c : W32) (o : OutCh), k < 23 → s.m.mod.sweepState = 1 → s.m.mod.sweepStarted = true →
    s.m.mod.sweepStep.toNat = k → s.m.mod.sweepBad = false → s.m.mod.sweepStepAt + 120000000 ≤ max s.m.now t →
    s.m.mod.sweepFrom = some c → 1 + (k + 1) * sweepK s.m.cycleMs ≤ (s.m.cycleNo - c).toNat → (s.m.cycleNo - c).toNat < 2 ^ 31 →
    s.m.field.out[k]? = some o →
    Completes (.sweepStep (k + 1) t) s (fun m => m.mod.sweepStep.toNat = k + 1 ∧
      m.mod.sweepPass = setBit s.m.mod.sweepPass k (outUsed s.m k && o.swOff && o.swPos && o.swNeg && o.fault == 0) ∧
      m.mod.sweepStepAt = (s.m.lane s.m.countLane).t0 ∧ m.mod.sweepState = 1 ∧ m.mod.mode = s.m.mod.mode)) ∧
  (∀ (s : State) (t : Nat) (c : W32), s.m.mod.sweepState = 1 → s.m.mod.sweepStarted = true →
    s.m.mod.sweepStep = 23 → s.m.mod.sweepFrom = some c → 1 + 24 * sweepK s.m.cycleMs ≤ (s.m.cycleNo - c).toNat →
    (s.m.cycleNo - c).toNat < 2 ^ 31 →
    Completes (.sweepStep 24 t) s (fun m => m.mod.sweepState = 2 ∧ m.mod.sweepDone = satInc s.m.mod.sweepDone ∧
      m.mod.sweepFrom = none ∧ m.mod.mode = s.m.mod.mode ∧ m.field = s.m.field ∧ m.lanes = s.m.lanes)) ∧
  (∀ (s : State) (n t : Nat), s.m.mod.sweepState ≠ 1 → Becomes (.sweepStep n t) s (s.m.tick t))

/-- R407, R413 to R421: the verdict of a shutdown test. The model's choices that it names stand in logs 72, 101, 121. -/
def Obligations.ShutdownTest : Prop :=
  (∀ (m : Mach) (by0 : Nat) (r : BlockResult), m.failedItem by0 r = 0 ↔
    (m.itemHolds r = true ∧ r.count = expectedCount r.block ∧ r.word = completionWord r.block ∧
      r.ended.any (fun e => decide (e ≤ by0)) = true)) ∧
  (∀ (s : State) (rs : List BlockResult) (t : Nat), (s.m.mod.mode ≠ .quiesce ∨ max s.m.now t < s.m.power.quiesceAt + 2040000000) →
    Becomes (.shutdownTestVerdict rs t) s (s.m.tick t).benchTick) ∧
  (∀ (s : State) (rs : List BlockResult) (t : Nat) (b : Mach), b = ((s.m.tick t).benchTick).updTest (fun x => { x with results := rs }) →
    s.m.mod.mode = .quiesce → s.m.bench.test.judged = false → s.m.power.quiesceAt + 2040000000 ≤ max s.m.now t →
    max s.m.now t < s.m.power.quiesceAt + 2200000000 → (∀ c ∈ blocks, b.blockPassed c = true) →
    Completes (.shutdownTestVerdict rs t) s (fun m => m.mod.mode = .quiesce ∧ m.bench.test.judged = true ∧
      m.bench.test.results = rs ∧
      m.bench.test.lastKind = 1 ∧ m.bench.test.lastResult = 1 ∧ m.bench.test.unusLanes = 0 ∧ m.bench.test.due = 0 ∧
      m.bench.test.token0 = m.bench.test.token1 ∧
      m.bench.test.token0.map (fun x => (x.serial, x.epoch, x.field)) = some (s.m.ident.serial, s.m.bench.epoch, true) ∧
      m.bench.test.peak = 240 ∧ m.bench.test.energy = 308)) ∧
  (∀ (s : State) (rs : List BlockResult) (w t : Nat) (b : Mach), b = ((s.m.tick t).benchTick).updTest (fun x => { x with results := rs }) →
    s.m.mod.mode = .quiesce → s.m.bench.test.judged = false → s.m.power.quiesceAt + 2040000000 ≤ max s.m.now t →
    max s.m.now t < s.m.power.quiesceAt + 2200000000 → s.m.bench.test.fit = false →
    (∀ c ∈ blocks, fieldBlock c = false → b.blockPassed c = true) → s.m.bench.test.fieldPass = some (w, s.m.bench.epoch) →
    b.benchSecs < w + 604800 → s.m.bench.test.unusDi = 0 → s.m.bench.test.unusAi = 0 → s.m.bench.test.unusDo = 0 →
    s.m.bench.test.unusWdog = false →
    Completes (.shutdownTestVerdict rs t) s (fun m => m.bench.test.lastResult = 1 ∧ m.bench.test.fieldPass = some (w, s.m.bench.epoch) ∧
      m.bench.test.token0.map (fun x => (x.serial, x.fieldAt, x.field)) = some (s.m.ident.serial, w, false))) ∧
  (∀ (s : State) (rs : List BlockResult) (t : Nat), s.m.mod.mode = .quiesce → s.m.bench.test.judged = true →
    s.m.power.quiesceAt + 2200000000 ≤ max s.m.now t → (s.m.power.commanded = true ∨ s.m.power.supplyOk = false) →
    Completes (.shutdownTestVerdict rs t) s (fun m => m.mod.mode = .dormant ∧ LanesHeld m ∧ Undriven m ∧ Unsent m ∧
      m.bench.test.token0 = s.m.bench.test.token0 ∧ m.bench.test.lastResult = s.m.bench.test.lastResult)) ∧
  (∀ (s : State) (rs : List BlockResult) (t : Nat) (b : Mach), b = ((s.m.tick t).benchTick).updTest (fun x => { x with results := rs }) →
    s.m.mod.mode = .quiesce → s.m.bench.test.judged = false → s.m.bench.test.run = none → s.m.power.powered = true →
    s.m.power.quiesceAt + 2040000000 ≤ max s.m.now t →
    (b.blockFailed .callipers1 = true ∨ b.blockFailed .callipers2 = true ∨ b.blockFailed .supervisor = true) →
    Completes (.shutdownTestVerdict rs t) s (fun m => m.mod.mode = .halt ∧ m.mod.haltCause = 8 ∧ LanesHeld m ∧ Undriven m ∧
      Unsent m ∧ m.bench.test.token0 = none ∧ m.bench.test.lastResult = 2)) ∧
  (∀ (s : State) (rs : List BlockResult) (t : Nat) (l : LaneId) (b : Mach),
    b = ((s.m.tick t).benchTick).updTest (fun x => { x with results := rs }) →
    s.m.mod.mode = .quiesce → s.m.bench.test.judged = false → s.m.bench.test.token0 = none →
    s.m.power.quiesceAt + 2040000000 ≤ max s.m.now t → max s.m.now t < s.m.power.quiesceAt + 2200000000 →
    (b.blockFailed (laneBlocks l).1 = true ∨ b.blockFailed (laneBlocks l).2 = true) →
    (b.blockFailed .callipers1 = false ∧ b.blockFailed .callipers2 = false ∧ b.blockFailed .supervisor = false) →
    Completes (.shutdownTestVerdict rs t) s (fun m => m.mod.mode = .quiesce ∧ m.bench.test.token0 = none ∧
      inMask m.bench.test.unusLanes l = true ∧ (m.lane l).agr.unusable = true ∧ (m.lane l).agr.life = .out ∧
      (m.lane l).agr.held = true ∧ (m.lane l).agr.outCause = 0x41 ∧ m.bench.test.lastResult = 2))

/-- R419, R423 to R426: lane slices. `b` is the module after what passes on the Bench's clock. The model's choices that
it names stand in logs 52, 72, 101, 121. -/
def Obligations.LaneSlices : Prop :=
  (∀ (s : State) (t : Nat) (x : Token) (b : Mach), b = (s.m.tick t).benchTick → b.bench.test.token0 = some x →
    x.epoch = b.bench.epoch → x.written + 259200 ≤ b.benchSecs →
    Becomes (.tokenExpiry t) s { b with bench := { b.bench with test := { b.bench.test with expiredAt := some (x.written + 259200) } } }) ∧
  (∀ (s : State) (t : Nat) (x : Token) (b : Mach), b = (s.m.tick t).benchTick → b.bench.test.token0 = some x →
    b.benchSecs < x.written + 259200 → Becomes (.tokenExpiry t) s b) ∧
  (∀ (s : State) (l : LaneId) (t : Nat) (b : Mach), b = (s.m.tick t).benchTick → b.token = none →
    inMask b.bench.test.due l = false → inMask b.bench.test.unusLanes l = false → b.bench.test.dueIn b.benchSecs l = 0 →
    Completes (.sliceDue l t) s (fun m => inMask m.bench.test.due l = true ∧ m.bench.test.dueAt.get l = b.benchSecs ∧
      (∀ k, k ≠ l → inMask m.bench.test.due k = inMask b.bench.test.due k) ∧ OnlyBench b m)) ∧
  (∀ (s : State) (l : LaneId) (t : Nat) (b : Mach), b = (s.m.tick t).benchTick → b.token.isSome = true →
    Becomes (.sliceDue l t) s b) ∧
  (∀ (s : State) (l : LaneId) (t : Nat) (b : Mach), b = (s.m.tick t).benchTick → b.bench.test.nextDue = some l →
    b.sliceMayAsk = true →
    Becomes (.sliceRequest t) s { b with bench := { b.bench with test := { b.bench.test with
      request := some (l, (b.lane b.numberLane).cop.cycleNo + 2) } } }) ∧
  (∀ (s : State) (l : LaneId) (x y : BlockResult) (t : Nat) (b : Mach), b = (s.m.tick t).benchTick →
    b.bench.test.run = some l → (b.lane l).agr.life = .out → (b.lane l).agr.outAt + 400000000 ≤ b.now →
    b.failedItem 320 { x with block := (laneBlocks l).1 } = 0 → b.failedItem 400 { y with block := (laneBlocks l).2 } = 0 →
    Completes (.sliceVerdict l x y t) s (fun m => m.bench.test.run = none ∧ inMask m.bench.test.due l = false ∧ inMask m.bench.test.overdue l = false ∧
      m.bench.test.done = satInc b.bench.test.done ∧ m.bench.test.passedAt.get l = some b.benchSecs ∧
      m.bench.test.lastKind = 3 ∧ m.bench.test.lastResult = 1 ∧
      (m.lane l).agr.inReset = true ∧ (m.lane l).agr.resetAt = b.now ∧ (m.lane l).agr.life = .out ∧
      (∀ k ∈ laneIds, k ≠ l → m.lane k = b.lane k) ∧ m.mod = b.mod)) ∧
  (∀ (s : State) (l : LaneId) (x y : BlockResult) (t : Nat) (b : Mach), b = (s.m.tick t).benchTick →
    b.bench.test.run = some l → (b.lane l).agr.life = .out → (b.lane l).agr.outAt + 400000000 ≤ b.now →
    (b.failedItem 320 { x with block := (laneBlocks l).1 } ≠ 0 ∨ b.failedItem 400 { y with block := (laneBlocks l).2 } ≠ 0) →
    Completes (.sliceVerdict l x y t) s (fun m => m.bench.test.run = none ∧ m.bench.test.fails = satInc b.bench.test.fails ∧
      inMask m.bench.test.unusLanes l = true ∧ m.bench.test.lastResult = 2 ∧ (m.lane l).agr.unusable = true ∧
      (m.lane l).agr.held = true ∧ (m.lane l).agr.outCause = 0x41 ∧ m.mod = b.mod)) ∧
  (∀ (s : State) (l : LaneId) (t : Nat) (b : Mach), b = (s.m.tick t).benchTick → inMask b.bench.test.overdue l = false → b.token = none →
    inMask b.bench.test.due l = true → b.bench.test.dueAt.get l + 172800 ≤ b.benchSecs →
    Completes (.sliceOverdue l t) s (fun m => m.bench.test = { b.bench.test with overdue := setBit b.bench.test.overdue (laneBit l) true } ∧ OnlyBench b m)) ∧
  (∀ (s : State) (l : LaneId) (t : Nat) (b : Mach), b = (s.m.tick t).benchTick → inMask b.bench.test.overdue l = true →
    Becomes (.sliceOverdue l t) s b)

/-- R427 to R429: Sander. -/
def Obligations.SanderCare : Prop :=
  (∀ (s : State) (l : LaneId) (t : Nat), (s.m.lane l).agr.life ≠ .out → (s.m.lane l).phase = .asleep →
    (s.m.lane l).awake = false → (s.m.lane l).sleepEnd ≤ max s.m.now t → (s.m.lane l).snd.nextDue ≤ max s.m.now t →
    (s.m.evaluates = true ∧ runsCycles (s.m.lane l) = true → max s.m.now t + 18000 ≤ (s.m.lane l).t0 + s.m.cycleNs) →
    Completes (.sanderRegion l none [] t) s (fun m =>
      (m.lane l).snd.nextDue = (s.m.lane l).snd.nextDue + 125000000 ∧
      (m.lane l).snd.pos.toNat = (if (s.m.lane l).snd.pos.toNat + 1 < 155648 then (s.m.lane l).snd.pos.toNat + 1 else 0) ∧
      (m.lane l).snd.passes = (if (s.m.lane l).snd.pos.toNat + 1 < 155648 then (s.m.lane l).snd.passes else
        satInc (s.m.lane l).snd.passes) ∧
      (m.lane l).snd.findings = (s.m.lane l).snd.findings ∧ { m.lane l with snd := (s.m.lane l).snd } = s.m.lane l ∧
      OnlyLane l s.m m)) ∧
  (∀ (s : State) (l : LaneId) (f : SanderFinding) (t : Nat), (s.m.lane l).agr.life ≠ .out → (s.m.lane l).phase = .asleep →
    (s.m.lane l).awake = false → (s.m.lane l).sleepEnd ≤ max s.m.now t → (s.m.lane l).snd.nextDue ≤ max s.m.now t →
    (s.m.evaluates = true ∧ runsCycles (s.m.lane l) = true → max s.m.now t + 18000 ≤ (s.m.lane l).t0 + s.m.cycleNs) →
    Completes (.sanderRegion l (some f) [] t) s (fun m => (m.lane l).snd.findings = satInc (s.m.lane l).snd.findings ∧
      (m.lane l).snd.lastRegion = (s.m.lane l).snd.pos ∧
      (m.lane l).snd.lastKind = (match f with | .pattern => 1 | .restore => 2 | .uncorrectable => 3) ∧ (m.lane l).snd.found = true ∧
      ((s.m.mod.mode = .service ∧ s.m.votingLanes.length = 3) → (m.lane l).snd.bringForward = true) ∧
      (m.lane l).mem = (s.m.lane l).mem ∧ (m.lane l).agr = (s.m.lane l).agr ∧ m.mod = s.m.mod ∧
      ∀ k ∈ laneIds, k ≠ l → m.lane k = s.m.lane k)) ∧
  (∀ (s : State) (l : LaneId) (k t : Nat), k < 8 → (s.m.lane l).snd.pos.toNat < 131072 → (s.m.lane l).agr.life ≠ .out → (s.m.lane l).phase = .asleep →
    (s.m.lane l).awake = false → (s.m.lane l).sleepEnd ≤ max s.m.now t → (s.m.lane l).snd.nextDue ≤ max s.m.now t →
    (s.m.evaluates = true ∧ runsCycles (s.m.lane l) = true → max s.m.now t + 18000 ≤ (s.m.lane l).t0 + s.m.cycleNs) →
    Completes (.sanderRegion l none [k] t) s (fun m => (m.lane l).snd.corr = satInc (s.m.lane l).snd.corr ∧
      (m.lane l).snd.lastCorr = BitVec.ofNat 20 (8 * (s.m.lane l).snd.pos.toNat + k) ∧
      (m.lane l).snd.findings = (s.m.lane l).snd.findings ∧ (m.lane l).mem = (s.m.lane l).mem ∧ m.mod = s.m.mod)) ∧
  (∀ (s : State) (l : LaneId) (f : Option SanderFinding) (ks : List Nat) (t : Nat),
    ((s.m.lane l).agr.life = .out ∨ (s.m.lane l).phase ≠ .asleep ∨ (s.m.lane l).awake = true ∨ max s.m.now t < (s.m.lane l).sleepEnd ∨
      max s.m.now t < (s.m.lane l).snd.nextDue ∨
      (s.m.evaluates = true ∧ runsCycles (s.m.lane l) = true ∧ (s.m.lane l).t0 + s.m.cycleNs < max s.m.now t + 18000)) →
    Becomes (.sanderRegion l f ks t) s (s.m.tick t)) ∧
  (∀ (s : State) (l : LaneId) (t : Nat), (s.m.lane l).agr.life ≠ .out → (s.m.lane l).snd.late = false →
    (s.m.lane l).snd.passFrom + 21600000000000 < max s.m.now t →
    Completes (.sanderPassLate l t) s (fun m => (m.lane l).snd = { (s.m.lane l).snd with late := true } ∧
      (m.lane l).mem = (s.m.lane l).mem ∧ (m.lane l).agr = (s.m.lane l).agr ∧ m.mod = s.m.mod ∧ m.field = s.m.field)) ∧
  (∀ (s : State) (l : LaneId) (t : Nat), max s.m.now t ≤ (s.m.lane l).snd.passFrom + 21600000000000 →
    Becomes (.sanderPassLate l t) s (s.m.tick t))

/-- R436 to R438: the Bench's sensors. `b` is the module after what passes on the Bench's clock. The model's choices
that it names stand in logs 59, 60, 121. -/
def Obligations.SensorReadings : Prop :=
  (∀ (s : State) (temps : List Int) (rails : List Nat) (t : Nat) (b : Mach), b = (s.m.tick t).benchTick →
    b.bench.up = true →
    Completes (.sensorSample temps rails t) s (fun m =>
      m.bench.sens.temps = (List.range 8).map (fun k => satInt 16 (temps.getD k 0)) ∧
      m.bench.sens.rails = (List.range 12).map (fun k => satOf 16 (rails.getD k 0)) ∧ m.bench.sens.fs = s.m.field.fsm.volt ∧
      (∀ k ∈ List.range 8, m.bench.sens.warn.getLsbD k = (b.bench.sens.warn.getLsbD k ||
        ((bandOf (temps.getD k 0) (b.tempBand k).1 (some (b.tempBand k).2) 20).1 && decide (2 ≤ b.bench.sens.runs.getD k 0)))) ∧
      (∀ k ∈ List.range 12, m.bench.sens.warn.getLsbD (8 + k) = (b.bench.sens.warn.getLsbD (8 + k) ||
        ((bandOf (rails.getD k 0) (b.railBand k).1 (b.railBand k).2 (railMargin.getD k 0)).1 &&
          decide (2 ≤ b.bench.sens.runs.getD (8 + k) 0)))) ∧
      (∀ k ∈ [20, 21], m.bench.sens.warn.getLsbD k = b.bench.sens.warn.getLsbD k) ∧ OnlyBench b m)) ∧
  (∀ (s : State) (rh : Nat) (air : Int) (t : Nat) (b : Mach), b = (s.m.tick t).benchTick → b.bench.up = true →
    Completes (.humiditySample rh air t) s (fun m =>
      m.bench.sens.rh = satOf 10 rh ∧ m.bench.sens.air = satInt 16 air ∧ m.bench.sens.dew = satInt 16 (dewPoint rh air) ∧
      m.bench.sens.warn.getLsbD 20 = (b.bench.sens.warn.getLsbD 20 ||
        (decide ((b.benchSet.bind (fun x => x.humHigh)).getD 850 ≤ rh) && decide (2 ≤ b.bench.sens.runs.getD 20 0))) ∧
      m.bench.sens.warn.getLsbD 21 = (b.bench.sens.warn.getLsbD 21 ||
        (decide (air < dewPoint rh air + 30) && decide (2 ≤ b.bench.sens.runs.getD 21 0))) ∧
      (∀ k ∈ List.range 20, m.bench.sens.warn.getLsbD k = b.bench.sens.warn.getLsbD k) ∧ OnlyBench b m)) ∧
  (∀ (s : State) (x y z t : Nat) (b : Mach), b = (s.m.tick t).benchTick → b.bench.up = true →
    ((b.benchSet.bind (fun q => q.shockThr)).getD 15 * 100 < x ∨ (b.benchSet.bind (fun q => q.shockThr)).getD 15 * 100 < y ∨
      (b.benchSet.bind (fun q => q.shockThr)).getD 15 * 100 < z) →
    Completes (.shockEvent x y z t) s (fun m =>
      m.bench.sens.shockX = bvMax b.bench.sens.shockX (satOf 16 x) ∧ m.bench.sens.shockY = bvMax b.bench.sens.shockY (satOf 16 y) ∧
      m.bench.sens.shockZ = bvMax b.bench.sens.shockZ (satOf 16 z) ∧ m.bench.sens.shocks = satInc b.bench.sens.shocks ∧
      m.bench.sens.warn = b.bench.sens.warn ∧ OnlyBench b m)) ∧
  (∀ (s : State) (x y z t : Nat) (b : Mach), b = (s.m.tick t).benchTick →
    x ≤ (b.benchSet.bind (fun q => q.shockThr)).getD 15 * 100 → y ≤ (b.benchSet.bind (fun q => q.shockThr)).getD 15 * 100 →
    z ≤ (b.benchSet.bind (fun q => q.shockThr)).getD 15 * 100 → b.bench.up = true →
    Becomes (.shockEvent x y z t) s { b with bench := { b.bench with sens := { b.bench.sens with
      shockX := bvMax b.bench.sens.shockX (satOf 16 x), shockY := bvMax b.bench.sens.shockY (satOf 16 y)
      shockZ := bvMax b.bench.sens.shockZ (satOf 16 z) } } }) ∧
  (∀ (s : State) (idx t : Nat) (c : Nat) (b : Mach), b = (s.m.tick t).benchTick → b.bench.up = true →
    b.bench.sens.warn.getLsbD idx = true → b.bench.sens.inside[idx]? = some (some c) → c + 10000000000 ≤ max s.m.now t →
    Completes (.sensorWarningClear idx t) s (fun m => m.bench.sens.warn.getLsbD idx = false ∧
      (∀ k ∈ List.range 22, k ≠ idx → m.bench.sens.warn.getLsbD k = b.bench.sens.warn.getLsbD k) ∧
      m.bench.sens.warns = b.bench.sens.warns ∧ OnlyBench b m)) ∧
  (∀ (s : State) (idx t : Nat) (c : Nat) (b : Mach), b = (s.m.tick t).benchTick →
    b.bench.sens.inside[idx]? = some (some c) → max s.m.now t < c + 10000000000 → Becomes (.sensorWarningClear idx t) s b) ∧
  (∀ (s : State) (idx t : Nat) (b : Mach), b = (s.m.tick t).benchTick → b.bench.sens.inside[idx]? = some none →
    Becomes (.sensorWarningClear idx t) s b) ∧
  (∀ (m : Mach), m.pair.asked = [] → OnlyBench m m.benchTick)

/-- R434, R435, R442, R444, R445, R451: notices at the Bench. The model's choices that it names stand in logs 68, 121.
-/
def Obligations.NoticeRecording : Prop :=
  (∀ (s : State) (n : Notice) (t : Nat) (b : Mach), b = (s.m.tick t).benchTick → b.bench.up = true →
    b.bench.recd.recent.any (sameNotice n) = false → b.benchSet.any (fun z => z.recMode) = false →
    (unlimited n.code = true ∨ (b.takeToken n.code).1 = true) → b.bench.recd.frozen = none →
    b.bench.recd.uncommitted.length < 16384 →
    Completes (.notice n t) s (fun m =>
      (m.bench.recd.ram.getLast?).map (fun r => (r.seq, r.code, r.unit, r.inst, r.p0, r.p1, r.repCount)) =
        some (b.bench.recd.next, n.code, n.unit, n.inst, n.p0, n.p1, 0) ∧
      m.bench.recd.next = (b.bench.recd.next + 1) % 2 ^ 48 ∧ m.bench.recd.openRec = false ∧
      m.bench.recd.suppressed = b.bench.recd.suppressed ∧ m.bench.recd.flash = b.bench.recd.flash ∧
      m.bench.sens = b.bench.sens ∧ m.bench.upd = b.bench.upd ∧ OnlyBench b m)) ∧
  (∀ (s : State) (n : Notice) (t : Nat) (b : Mach), b = (s.m.tick t).benchTick → b.bench.up = true →
    b.bench.recd.recent.any (sameNotice n) = true → Becomes (.notice n t) s b) ∧
  (∀ (s : State) (n : Notice) (t : Nat) (b : Mach), b = (s.m.tick t).benchTick → b.bench.up = true →
    b.bench.recd.recent.any (sameNotice n) = false → b.benchSet.any (fun z => z.recMode) = false →
    unlimited n.code = false → (b.takeToken n.code).1 = false →
    Completes (.notice n t) s (fun m => m.bench.recd.suppressed = satInc b.bench.recd.suppressed ∧
      m.bench.recd.ram = b.bench.recd.ram ∧ m.bench.recd.next = b.bench.recd.next ∧
      m.bench.recd.pendSupp = addSupp n b.bench.recd.pendSupp ∧ OnlyBench b m)) ∧
  (∀ (s : State) (n : Notice) (t : Nat) (b : Mach), b = (s.m.tick t).benchTick → b.bench.up = true →
    b.bench.recd.recent.any (sameNotice n) = false → unlimited n.code = true → b.benchSet.any (fun z => z.recMode) = false →
    b.bench.recd.frozen.isSome = true → b.bench.recd.queue.length < 256 →
    Completes (.notice n t) s (fun m => m.bench.recd.queue.length = b.bench.recd.queue.length + 1 ∧
      m.bench.recd.queue.dropLast = b.bench.recd.queue ∧ (m.bench.recd.queue.getLast?).map (fun r => r.code) = some n.code ∧
      m.bench.recd.ram = b.bench.recd.ram ∧ m.bench.recd.next = b.bench.recd.next ∧ OnlyBench b m)) ∧
  (∀ (s : State) (n : Notice) (t : Nat) (b : Mach) (xs : List Rec) (x : Rec), b = (s.m.tick t).benchTick → b.bench.up = true →
    b.bench.recd.recent.any (sameNotice n) = false → b.benchSet.any (fun z => z.recMode) = true →
    b.bench.recd.openRec = true → b.bench.recd.frozen = none → b.bench.recd.ram = xs ++ [x] →
    (x.code = n.code ∧ x.unit = n.unit ∧ x.inst = n.inst ∧ x.p0 = n.p0 ∧ x.p1 = n.p1) →
    Completes (.notice n t) s (fun m => m.bench.recd.ram = xs ++ [{ x with repCount := satInc x.repCount }] ∧
      m.bench.recd.next = b.bench.recd.next ∧ m.bench.recd.openRec = true ∧ OnlyBench b m)) ∧
  (∀ (s : State) (n : Notice) (l : LaneId) (k t : Nat), s.m.bench.up = false → addrPath n.unit = [1, laneCode l, k] →
    Becomes (.notice n t) s ((s.m.tick t).updLane l (Lane.post n))) ∧
  (∀ (s : State) (l : LaneId) (n : Notice) (t : Nat) (b : Mach), b = (s.m.tick t).benchTick → b.bench.up = true →
    b.grants l = true → (b.lane l).queue.items = [n] → (b.lane l).queue.dropped = 0 →
    Completes (.laneQueueDrain (some l) t) s (fun m => ((m.lane l).queue.items, (m.lane l).queue.dropped) = ([], 0) ∧ (∀ k ∈ laneIds, k ≠ l → m.lane k = b.lane k) ∧
      OnlyBench (b.updLane l (fun x => { x with queue := x.queue.drained })) m ∧
      m = (b.updLane l (fun x => { x with queue := x.queue.drained })).benchTake n)) ∧
  (∀ (s : State) (l : LaneId) (t : Nat) (b : Mach), b = (s.m.tick t).benchTick → b.grants l = false →
    Becomes (.laneQueueDrain (some l) t) s b) ∧
  (∀ (s : State) (t : Nat) (b : Mach), b = (s.m.tick t).benchTick → b.bench.up = true →
    Completes (.laneQueueDrain none t) s (fun m => m.cal.fifo = {} ∧ m.field.fifo = {} ∧ m.power.fifo = {} ∧
      (∀ d, ((m.ring1.rest d).fifo.items, (m.ring1.rest d).fifo.dropped) = ([], 0) ∧
        ((m.ring2.rest d).fifo.items, (m.ring2.rest d).fifo.dropped) = ([], 0)) ∧ m.lanes = b.lanes ∧
      m.mod = b.mod)) ∧
  (∀ (s : State) (t : Nat) (x : Suppressed) (b : Mach), b = (s.m.tick t).benchTick → b.bench.up = true →
    b.bench.recd.sumSec < b.benchSecs → b.bench.recd.pendSupp = [x] → b.bench.recd.frozen = none →
    b.bench.recd.uncommitted.length < 16384 →
    Completes (.suppressedSummary t) s (fun m => m.bench.recd.pendSupp = [] ∧ m.bench.recd.sumSec = b.benchSecs ∧
      (m.bench.recd.ram.getLast?).map (fun r => (r.seq, r.code, r.unit, r.p0, r.p1, r.repCount)) =
        some (b.bench.recd.next, 0x0002, x.unit, x.code.setWidth 32, BitVec.ofNat 32 x.count, BitVec.ofNat 32 x.count) ∧
      (m.bench.recd.ram.getLast?).map (fun r => r.flags.getLsbD 5) = some true ∧ OnlyBench b m)) ∧
  (∀ (s : State) (t : Nat) (b : Mach), b = (s.m.tick t).benchTick → b.benchSecs ≤ b.bench.recd.sumSec →
    Becomes (.suppressedSummary t) s b)

/-- R446, R447: anchors and station time. The model's choices that it names stand in logs 69, 121. -/
def Obligations.AnchorsAndStationTime : Prop :=
  (∀ (s : State) (t : Nat) (b : Mach), b = (s.m.tick t).benchTick → b.bench.up = true → b.bench.recd.frozen = none →
    b.bench.recd.anchorKey ≠ some b.anchorSecond → b.bench.recd.anchorRuns b.anchorMs = false →
    b.bench.recd.uncommitted.length < 16384 →
    Completes (.anchor t) s (fun m =>
      (m.bench.recd.ram.getLast?).map (fun r => (r.seq, r.code, r.p0, r.snaps.take 2, r.repCount)) =
        some (b.bench.recd.next, 0x0001, BitVec.ofNat 32 b.benchSecs, timeSnaps b.anchorMs, 0) ∧
      (m.bench.recd.ram.getLast?).map (fun r => (r.flags.getLsbD 7, r.flags.getLsbD 4, r.flags.getLsbD 3)) =
        some (true, b.bench.recd.stimeOk, b.bench.recd.stimeOk && b.bench.recd.anchored.any (fun a => decide (b.anchorMs < a))) ∧
      m.bench.recd.next = (b.bench.recd.next + 1) % 2 ^ 48 ∧ m.bench.recd.openRec = true ∧ m.bench.recd.anchorTime = b.anchorMs ∧
      m.bench.recd.anchorKey = some b.anchorSecond ∧
      m.bench.recd.stepback = (if b.bench.recd.stimeOk = true ∧ b.bench.recd.anchored.any (fun a => decide (b.anchorMs < a)) = true
        then satInc b.bench.recd.stepback else b.bench.recd.stepback) ∧ OnlyBench b m)) ∧
  (∀ (s : State) (t : Nat) (xs : List Rec) (x : Rec) (b : Mach), b = (s.m.tick t).benchTick → b.bench.up = true →
    b.bench.recd.frozen = none → b.bench.recd.anchorKey ≠ some b.anchorSecond → b.bench.recd.ram = xs ++ [x] →
    x.flags.getLsbD 7 = true → b.bench.recd.openRec = true → b.bench.recd.anchorTime + 990 ≤ b.anchorMs →
    b.anchorMs ≤ b.bench.recd.anchorTime + 1010 → x.repCount.toNat < 59 →
    Completes (.anchor t) s (fun m => m.bench.recd.ram =
        xs ++ [{ x with snaps := timeSnaps b.anchorMs ++ x.snaps.drop 2, repCount := x.repCount + 1 }] ∧
      m.bench.recd.next = b.bench.recd.next ∧ m.bench.recd.openRec = true ∧ m.bench.recd.anchorTime = b.anchorMs ∧ OnlyBench b m)) ∧
  (∀ (s : State) (t : Nat) (xs : List Rec) (x : Rec) (b : Mach), b = (s.m.tick t).benchTick → b.bench.up = true →
    b.bench.recd.frozen = none → b.bench.recd.anchorKey ≠ some b.anchorSecond → b.bench.recd.ram = xs ++ [x] →
    x.flags.getLsbD 7 = true → b.bench.recd.openRec = true → b.bench.recd.anchorTime + 990 ≤ b.anchorMs →
    b.anchorMs ≤ b.bench.recd.anchorTime + 1010 → x.repCount.toNat = 59 →
    Completes (.anchor t) s (fun m => m.bench.recd.openRec = false ∧ m.bench.recd.next = b.bench.recd.next ∧
      m.bench.recd.ram.length = xs.length + 1 ∧
      (m.bench.recd.ram.getLast?).map (fun r => (r.seq, r.repCount.toNat, r.flags.getLsbD 2)) = some (x.seq, 60, false))) ∧
  (∀ (s : State) (t : Nat) (b : Mach), b = (s.m.tick t).benchTick →
    (b.bench.recd.frozen.isSome = true ∨ b.bench.recd.anchorKey = some b.anchorSecond) → Becomes (.anchor t) s b) ∧
  (∀ (s : State) (t : Nat) (b : Mach), b = (s.m.tick t).benchTick → b.bench.recd.stimeOk = true →
    (b.bench.recd.okAt + 10000000000 ≤ max s.m.now t ∨ b.bench.clkLost = true) →
    Becomes (.stimeOkLapse t) s { b with bench := { b.bench with recd := { b.bench.recd with stimeOk := false } } }) ∧
  (∀ (s : State) (t : Nat) (b : Mach), b = (s.m.tick t).benchTick → max s.m.now t < b.bench.recd.okAt + 10000000000 →
    b.bench.clkLost = false → Becomes (.stimeOkLapse t) s b) ∧
  (∀ (s : State) (via : Via) (sess : Sess) (lo hi : W32) (t : Nat) (b : Mach), b = (s.m.tick t).benchTick → sess = viaSess via →
    mayWrite s t via (regOf (benchPath 3) 0x05C) [lo, hi] true b = true → b.timeSetter = true →
    Completes (.timeSet via lo (some hi) t) s (fun m =>
      m.bench.recd = { b.bench.recd with setPending := some (hi.toNat % 2 ^ 16 * 2 ^ 32 + lo.toNat, max s.m.now t) } ∧
      Answered sess .ok m ∧ OnlyBench b m)) ∧
  (∀ (s : State) (via : Via) (sess : Sess) (lo : W32) (hi : Option W32) (t : Nat) (b : Mach), b = (s.m.tick t).benchTick →
    sess = viaSess via →
    mayWrite s t via (regOf (benchPath 3) 0x05C) (lo :: hi.toList) true b = true → (b.timeSetter = false ∨ hi = none) →
    Completes (.timeSet via lo hi t) s (fun m => m.bench.recd = b.bench.recd ∧ Answered sess .refused m ∧ OnlyBench b m)) ∧
  (∀ (s : State) (h : MntHead) (n t : Nat) (seq lo : W32) (hi : Option W32),
    exec (.timeSet (.mnt h n seq) lo hi t) s =
      exec (.mntWrite h n seq (pathAddr [1, 7, 3] ||| 0x05C) (1 + hi.toList.length) (lo :: hi.toList) t) s)

/-- R448, R449, R451: the flash ring. The model's choices that it names stand in logs 69, 121. -/
def Obligations.FlashRing : Prop :=
  (∀ (s : State) (t : Nat) (x : FlashSector) (ys : List FlashSector) (b : Mach), b = (s.m.tick t).benchTick → b.bench.up = true →
    b.bench.recd.frozen = none → b.bench.recd.flash = ys ++ [x] → b.bench.recd.bad.contains x.no = false →
    b.bench.recd.toCommit ≠ [] → x.recs.length + b.bench.recd.toCommit.length ≤ 1023 →
    Completes (.flashCommit true t) s (fun m =>
      m.bench.recd.flash = ys ++ [{ x with recs := x.recs ++ b.bench.recd.toCommit }] ∧
      (b.bench.recd.fullOwed = 0 → m.bench.recd.ram = b.bench.recd.ram ∧ m.bench.recd.next = b.bench.recd.next) ∧
      m.bench.recd.erased = b.bench.recd.erased ∧ OnlyBench b m)) ∧
  (∀ (s : State) (t : Nat) (k : Nat) (r : Rec) (b : Mach), b = (s.m.tick t).benchTick → b.bench.up = true →
    b.bench.recd.frozen = none → b.bench.recd.flash = [] → b.bench.recd.erased = some k → b.bench.recd.toCommit = [r] →
    Completes (.flashCommit true t) s (fun m =>
      m.bench.recd.flash = [
        { no := k, device := k % 2 + 1, header := sectorHeader r.seq ((assocGet k b.bench.recd.erases).getD 0), recs := [r] }] ∧
      m.bench.recd.erased = none)) ∧
  (∀ (s : State) (t : Nat) (k : Nat) (b : Mach), b = (s.m.tick t).benchTick → b.bench.up = true →
    b.bench.recd.frozen = none → b.bench.recd.toCommit ≠ [] → b.bench.recd.current = none → b.bench.recd.erased = some k →
    Completes (.flashCommit false t) s (fun m => m.bench.recd.bad.contains k = true ∧ m.bench.recd.erased = none ∧
      m.bench.recd.fails = satInc b.bench.recd.fails ∧ m.bench.recd.flash = b.bench.recd.flash ∧
      m.bench.recd.ram = b.bench.recd.ram ∧ OnlyBench b m)) ∧
  (∀ (s : State) (t : Nat) (b : Mach) (ok : Bool), b = (s.m.tick t).benchTick →
    (b.bench.recd.frozen.isSome = true ∨ b.bench.recd.toCommit = []) → Becomes (.flashCommit ok t) s b) ∧
  (∀ (s : State) (t : Nat) (k : Nat) (b : Mach), b = (s.m.tick t).benchTick → b.bench.up = true →
    b.bench.recd.frozen = none → b.bench.recd.erased = none → b.bench.recd.nextSector = some k →
    Completes (.sectorErase true t) s (fun m => m.bench.recd.erased = some k ∧
      assocGet k m.bench.recd.erases = some ((assocGet k b.bench.recd.erases).getD 0 + 1) ∧
      (∀ x ∈ m.bench.recd.flash, x.no ≠ k) ∧ m.bench.recd.ram = b.bench.recd.ram ∧ m.bench.recd.fails = b.bench.recd.fails ∧
      OnlyBench b m)) ∧
  (∀ (s : State) (t : Nat) (k : Nat) (b : Mach), b = (s.m.tick t).benchTick → b.bench.up = true →
    b.bench.recd.frozen = none → b.bench.recd.erased = none → b.bench.recd.nextSector = some k →
    Completes (.sectorErase false t) s (fun m => m.bench.recd.bad.contains k = true ∧ m.bench.recd.erased = none ∧
      m.bench.recd.fails = satInc b.bench.recd.fails ∧ m.bench.recd.flash = b.bench.recd.flash ∧ OnlyBench b m)) ∧
  (∀ (s : State) (t : Nat) (b : Mach) (ok : Bool), b = (s.m.tick t).benchTick →
    (b.bench.recd.frozen.isSome = true ∨ b.bench.recd.erased.isSome = true) → Becomes (.sectorErase ok t) s b) ∧
  (∀ (r : Recorder) (n k : Nat) (x : FlashSector), r.flash.getLast? = some x → k < 512 →
    (∀ j, j < k → r.bad.contains ((x.no + 1 + j) % 512) = true) → r.bad.contains ((x.no + 1 + k) % 512) = false →
    n = (x.no + 1 + k) % 512 → r.nextSector = some n)

/-- R451: the freeze. `b` is the module after what passes on the Bench's clock. The model's choices that it names stand
in log 121. -/
def Obligations.RecorderFreeze : Prop :=
  (∀ (s : State) (via : Via) (sess : Sess) (t : Nat) (b : Mach), b = (s.m.tick t).benchTick → sess = viaSess via →
    mayWrite s t via (regOf (benchPath 3) 0x020) [1] true b = true →
    b.bench.recd.frozen = none → b.freezeRefused sess = false →
    Completes (.freeze via t) s (fun m =>
      m.bench.recd = { b.bench.recd.close with frozen := some (sess, m.sessOpen sess, max s.m.now t), lostNow := 0 } ∧ Answered sess .ok m ∧
      OnlyBench b m)) ∧
  (∀ (s : State) (via : Via) (sess : Sess) (t : Nat) (b : Mach), b = (s.m.tick t).benchTick → sess = viaSess via →
    mayWrite s t via (regOf (benchPath 3) 0x020) [1] true b = true →
    ((b.session sess).isSome = true ∨ b.bench.recd.frozen = none) → b.freezeRefused sess = true →
    Completes (.freeze via t) s (fun m => m.bench.recd = b.bench.recd ∧ Answered sess .refused m ∧ OnlyBench b m)) ∧
  (∀ (s : State) (via : Via) (sess : Sess) (t c : Nat) (b : Mach), b = (s.m.tick t).benchTick → sess = viaSess via →
    mayWrite s t via (regOf (benchPath 3) 0x020) [1] true b = true → (b.session sess).isSome = true →
    b.bench.recd.frozen = some (sess, b.sessOpen sess, c) →
    Completes (.freeze via t) s (fun m => m.bench.recd = b.bench.recd ∧ Answered sess .ok m ∧ OnlyBench b m)) ∧
  (∀ (b : Mach) (sess : Sess), b.freezeRefused sess = true ↔
    ((∃ h k c, b.bench.recd.frozen = some (h, k, c) ∧ ¬(h = sess ∧ k = b.sessOpen sess)) ∨
      (b.bench.recd.frozen = none ∧ ∃ c, b.bench.recd.releasedAt = some c ∧ b.now < c + 2000000000))) ∧
  (∀ (s : State) (via : Via) (sess : Sess) (t c : Nat) (b : Mach), b = (s.m.tick t).benchTick → sess = viaSess via →
    mayWrite s t via (regOf (benchPath 3) 0x020) [2] true b = true → (b.session sess).isSome = true →
    b.bench.recd.frozen = some (sess, b.sessOpen sess, c) → b.bench.recd.queue = [] → b.bench.recd.lostNow = 0 →
    Completes (.freezeRelease via t) s (fun m =>
      m.bench.recd = { b.bench.recd with frozen := none, releasedAt := some (max s.m.now t) } ∧ Answered sess .ok m ∧
      OnlyBench b m)) ∧
  (∀ (s : State) (via : Via) (sess : Sess) (t c : Nat) (x y : Rec) (b : Mach), b = (s.m.tick t).benchTick → sess = viaSess via →
    mayWrite s t via (regOf (benchPath 3) 0x020) [2] true b = true → (b.session sess).isSome = true →
    b.bench.recd.frozen = some (sess, b.sessOpen sess, c) → b.bench.recd.queue = [x, y] → b.bench.recd.lostNow = 0 →
    b.bench.recd.uncommitted.length < 16000 → b.bench.recd.ram.length < 16000 → b.bench.recd.next < 2 ^ 47 →
    Completes (.freezeRelease via t) s (fun m => m.bench.recd.frozen = none ∧ m.bench.recd.queue = [] ∧
      m.bench.recd.next = b.bench.recd.next + 2 ∧ m.bench.recd.ram.length = b.bench.recd.ram.length + 2 ∧
      (m.bench.recd.ram.reverse.take 2).map (fun r => (r.seq, r.code, r.flags.getLsbD 6)) =
        [(b.bench.recd.next + 1, y.code, true), (b.bench.recd.next, x.code, true)] ∧ OnlyBench b m)) ∧
  (∀ (s : State) (via : Via) (sess : Sess) (t c n : Nat) (b : Mach), b = (s.m.tick t).benchTick → sess = viaSess via →
    mayWrite s t via (regOf (benchPath 3) 0x020) [2] true b = true → (b.session sess).isSome = true →
    b.bench.recd.frozen = some (sess, b.sessOpen sess, c) → b.bench.recd.queue = [] → b.bench.recd.lostNow = n + 1 →
    b.bench.recd.uncommitted.length < 16384 →
    Completes (.freezeRelease via t) s (fun m => m.bench.recd.frozen = none ∧ m.bench.recd.lostNow = 0 ∧
      (m.bench.recd.ram.getLast?).map (fun r => (r.seq, r.code, r.p0)) =
        some (b.bench.recd.next, 0x0003, BitVec.ofNat 32 (n + 1)))) ∧
  (∀ (s : State) (via : Via) (sess h : Sess) (t k c : Nat) (b : Mach), b = (s.m.tick t).benchTick → sess = viaSess via →
    mayWrite s t via (regOf (benchPath 3) 0x020) [2] true b = true → (b.session sess).isSome = true →
    b.bench.recd.frozen = some (h, k, c) → ¬(h = sess ∧ k = b.sessOpen sess) →
    Completes (.freezeRelease via t) s (fun m => m.bench.recd = b.bench.recd ∧ Answered sess .refused m ∧ OnlyBench b m)) ∧
  (∀ (s : State) (t k c : Nat) (b : Mach), b = (s.m.tick t).benchTick → b.benchServes = true → b.bench.mnt.waiting = [] →
    b.session .host = none → b.bench.recd.frozen = some (.host, k, c) → k ≤ b.sessOpen .host →
    Completes (.freeze .host t) s (fun m => m.bench.recd = b.bench.recd ∧ Answered .host .refused m ∧ OnlyBench b m) ∧
    Completes (.freezeRelease .host t) s (fun m => m.bench.recd = b.bench.recd ∧ Answered .host .refused m ∧ OnlyBench b m)) ∧
  (∀ (s : State) (h : Sess) (t k c : Nat) (b : Mach), b = (s.m.tick t).benchTick → b.bench.recd.frozen = some (h, k, c) →
    c + 5000000000 ≤ max s.m.now t → b.bench.recd.queue = [] → b.bench.recd.lostNow = 0 →
    b.bench.recd.uncommitted.length < 16384 →
    Completes (.freezeTimeout t) s (fun m => m.bench.recd.frozen = none ∧ m.bench.recd.releasedAt = some (max s.m.now t) ∧
      (m.bench.recd.ram.getLast?).map (fun r => (r.seq, r.code, r.p0)) =
        some (b.bench.recd.next, 0x0004, BitVec.ofNat 32 (sessCode h)) ∧
      (memRead 0 m.irq (pageNo recorderPath)).getLsbD 0 = true ∧ OnlyBench b m)) ∧
  (∀ (s : State) (h : Sess) (t k c : Nat) (b : Mach), b = (s.m.tick t).benchTick → b.bench.recd.frozen = some (h, k, c) →
    max s.m.now t < c + 5000000000 → Becomes (.freezeTimeout t) s b) ∧
  (∀ (s : State) (t : Nat) (b : Mach), b = (s.m.tick t).benchTick → b.bench.recd.frozen = none → Becomes (.freezeTimeout t) s b)

/-- R42 to R44, R50, R54: writes of a session. The model's choices that it names stand in logs 67, 121. -/
def Obligations.RegisterWrites : Prop :=
  (∀ (s : State) (via : Via) (sess : Sess) (p : Page) (index : W16) (t : Nat) (b : Mach), b = (s.m.tick t).benchTick → sess = viaSess via →
    mayWrite s t via (inPage (regOf p.path 0) 0x018) [index.setWidth 32] false b = true → index.toNat < p.count b →
    Completes (.chanSelWrite via (regOf p.path 0) index t) s (fun m =>
      (m.session sess).map (fun x => x.chan) = some (assocSet p.no index ((b.session sess).getD {}).chan) ∧
      (m.session sess).map (fun x => x.mask) = some ((b.session sess).getD {}).mask ∧
      (∀ q ∈ [Sess.host, .mnt 1, .mnt 2, .mnt 3, .mnt 4], q ≠ sess → m.session q = b.session q) ∧ Answered sess .ok m ∧
      OnlyBench b m)) ∧
  (∀ (s : State) (via : Via) (sess : Sess) (p : Page) (mask : W32) (t : Nat) (b : Mach), b = (s.m.tick t).benchTick → sess = viaSess via →
    mayWrite s t via (inPage (regOf p.path 0) 0x014) [mask] false b = true →
    Completes (.irqMaskWrite via (regOf p.path 0) mask t) s (fun m =>
      (m.session sess).map (fun x => x.mask) = some (memWrite 0 p.no mask ((b.session sess).getD {}).mask) ∧
      (m.session sess).map (fun x => x.chan) = some ((b.session sess).getD {}).chan ∧
      (∀ q ∈ [Sess.host, .mnt 1, .mnt 2, .mnt 3, .mnt 4], q ≠ sess → m.session q = b.session q) ∧ Answered sess .ok m ∧
      OnlyBench b m)) ∧
  (∀ (s : State) (via : Via) (sess : Sess) (l : LaneId) (t : Nat) (b : Mach), b = (s.m.tick t).benchTick → sess = viaSess via →
    mayWrite s t via (inPage (regOf (Page.copier l).path 0) 0x008) [1] false b = true → (b.lane l).cop.snapFrom = none →
    Completes (.pageSnap via (regOf (Page.copier l).path 0) t) s (fun m =>
      m.lane l = { b.lane l with cop := { (b.lane l).cop with
        group := { (b.lane l).cop.group with ready := false }, snapFrom := some (max s.m.now t) } } ∧
      (∀ k ∈ laneIds, k ≠ l → m.lane k = b.lane k) ∧ m.cal = b.cal ∧ m.mod = b.mod ∧ Answered sess .ok m)) ∧
  (∀ (s : State) (via : Via) (sess : Sess) (l : LaneId) (t : Nat) (b : Mach), b = (s.m.tick t).benchTick → sess = viaSess via →
    mayWrite s t via (inPage (regOf (Page.copier l).path 0) 0x008) [1] false b = true → (b.lane l).cop.snapFrom.isSome = true →
    Completes (.pageSnap via (regOf (Page.copier l).path 0) t) s (fun m => m.lanes = b.lanes ∧ Answered sess .ok m)) ∧
  (∀ (s : State) (via : Via) (sess : Sess) (l : LaneId) (t : Nat) (b : Mach), b = (s.m.tick t).benchTick → sess = viaSess via →
    mayWrite s t via (inPage (regOf (Page.agreement l).path 0) 0x008) [1] false b = true → (b.lane l).agr.snapFrom = none →
    Completes (.pageSnap via (regOf (Page.agreement l).path 0) t) s (fun m =>
      (m.lane l).agr = { (b.lane l).agr with
        group := { (b.lane l).agr.group with ready := false }, snapFrom := some (max s.m.now t) } ∧
      (∀ k ∈ laneIds, k ≠ l → m.lane k = b.lane k) ∧ m.cal = b.cal ∧ m.mod = b.mod ∧ Answered sess .ok m)) ∧
  (∀ (s : State) (via : Via) (sess : Sess) (t : Nat) (b : Mach), b = (s.m.tick t).benchTick → sess = viaSess via →
    mayWrite s t via (inPage (regOf Page.voteStats.path 0) 0x008) [1] false b = true → b.cal.vote.snapFrom = none →
    Completes (.pageSnap via (regOf Page.voteStats.path 0) t) s (fun m =>
      m.cal = { b.cal with vote := { b.cal.vote with
        group := { b.cal.vote.group with ready := false }, snapFrom := some (max s.m.now t) } } ∧
      m.lanes = b.lanes ∧ m.mod = b.mod ∧ Answered sess .ok m)) ∧
  (∀ (s : State) (via : Via) (sess : Sess) (t k : Nat) (b : Mach), b = (s.m.tick t).benchTick → sess = viaSess via →
    mayWrite s t via (inPage (regOf Page.counters.path 0) 0x008) [1] false b = true →
    Completes (.pageSnap via (regOf Page.counters.path 0) t) s (fun m =>
      (m.bench.ec[k]?).map (fun x => (x.group.ready, x.group.serial, x.delta, x.snap, x.secs, x.count)) =
        (b.bench.ec[k]?).map (fun x => (true, x.group.serial + 1, x.count - x.snap, x.count, BitVec.ofNat 32 b.benchSecs, x.count)) ∧
      Answered sess .ok m ∧ OnlyBench b m)) ∧
  (∀ (s : State) (l : LaneId) (t : Nat) (b : Mach), b = (s.m.tick t).benchTick →
    b.boundarySince l (b.lane l).cop.snapFrom = true →
    Completes (.snapshotComplete (regOf (Page.copier l).path 0) t) s (fun m =>
      (m.lane l).cop.snap = (b.lane l).cop.live ∧ (m.lane l).cop.live = {} ∧ (m.lane l).cop.snapFrom = none ∧
      (m.lane l).cop.group = { serial := (b.lane l).cop.group.serial + 1, ready := true } ∧
      (∀ k ∈ laneIds, k ≠ l → m.lane k = b.lane k) ∧ (m.lane l).agr = (b.lane l).agr ∧ m.mod = b.mod ∧ m.bench = b.bench)) ∧
  (∀ (s : State) (l : LaneId) (t : Nat) (b : Mach), b = (s.m.tick t).benchTick →
    b.boundarySince l (b.lane l).agr.snapFrom = true →
    Completes (.snapshotComplete (regOf (Page.agreement l).path 0) t) s (fun m =>
      (m.lane l).agr.snap = (b.lane l).agr.live ∧ (m.lane l).agr.live = {} ∧ (m.lane l).agr.snapFrom = none ∧
      (m.lane l).agr.group = { serial := (b.lane l).agr.group.serial + 1, ready := true } ∧ m.mod = b.mod ∧ m.bench = b.bench)) ∧
  (∀ (s : State) (l : LaneId) (t : Nat) (b : Mach), b = (s.m.tick t).benchTick → b.boundarySince l b.cal.vote.snapFrom = true →
    Completes (.snapshotComplete (regOf Page.voteStats.path 0) t) s (fun m =>
      m.cal.vote.snap = b.cal.vote.live ∧ m.cal.vote.live = {} ∧ m.cal.vote.snapFrom = none ∧
      m.cal.vote.group = { serial := b.cal.vote.group.serial + 1, ready := true } ∧ m.lanes = b.lanes ∧ m.mod = b.mod)) ∧
  (∀ (s : State) (l : LaneId) (t : Nat) (b : Mach), b = (s.m.tick t).benchTick →
    b.boundarySince l (b.lane l).cop.snapFrom = false → Becomes (.snapshotComplete (regOf (Page.copier l).path 0) t) s b) ∧
  (∀ (s : State) (via : Via) (sess : Sess) (val : W32) (t k : Nat) (b : Mach), b = (s.m.tick t).benchTick → sess = viaSess via →
    mayWrite s t via (regOf (benchPath 2) 0x020) [val] true b = true → k = ((b.session sess).getD {}).sel .counters → b.ecNow = [] →
    Completes (.ecCfgWrite via val t) s (fun m =>
      (m.bench.ec[k]?).map (fun x => (x.src, x.qual, x.sat, x.count)) =
        (b.bench.ec[k]?).map (fun _ => (val.setWidth 8, (val >>> 8).setWidth 8, val.getLsbD 16, 0)) ∧
      (∀ j, j ≠ k → m.bench.ec[j]? = b.bench.ec[j]?) ∧ Answered sess .ok m ∧ OnlyBench b m)) ∧
  (∀ (s : State) (via : Via) (sess : Sess) (val : W32) (t k : Nat) (e q : Byte) (b : Mach), b = (s.m.tick t).benchTick → sess = viaSess via →
    mayWrite s t via (regOf (benchPath 2) 0x020) [val] true b = true → k = ((b.session sess).getD {}).sel .counters → b.ecNow = [(e, q)] →
    e = val.setWidth 8 → e ≠ 0 → q = (val >>> 8).setWidth 8 →
    Completes (.ecCfgWrite via val t) s (fun m =>
      (m.bench.ec[k]?).map (fun x => (x.src, x.qual, x.sat, x.count)) =
        (b.bench.ec[k]?).map (fun _ => (val.setWidth 8, (val >>> 8).setWidth 8, val.getLsbD 16, 1)) ∧
      (∀ j, j ≠ k → m.bench.ec[j]? = b.bench.ec[j]?) ∧ Answered sess .ok m ∧ OnlyBench b m)) ∧
  (∀ (s : State) (via : Via) (sess : Sess) (v : Byte) (t : Nat) (b : Mach), b = (s.m.tick t).benchTick → sess = viaSess via →
    mayWrite s t via (regOf (benchPath 7) 0x04C) [v.setWidth 32] true b = true →
    Completes (.bistDiscard via v t) s (fun m =>
      m.bench.test = (if v = 0xD5 then { b.bench.test with token0 := none, token1 := none } else b.bench.test) ∧
      Answered sess .ok m ∧ OnlyBench b m)) ∧
  (∀ (s : State) (via : Via) (sess : Sess) (v : Byte) (t : Nat) (k : SetKind) (b : Mach), b = (s.m.tick t).benchTick → sess = viaSess via →
    mayWrite s t via (regOf (benchPath 6) 0x064) [v.setWidth 32] true b = true → v = 0xAB → b.bench.upd.opened = true → b.bench.upd.kind = some k → k ≠ .enrolment →
    Completes (.updCtrlAbort via v t) s (fun m => m.bench.upd.state = 0 ∧ m.bench.upd.slotOf k b.bench.upd.slot = {} ∧
      m.bench.upd.slotOf k (otherSlot b.bench.upd.slot) = b.bench.upd.slotOf k (otherSlot b.bench.upd.slot) ∧
      m.bench.upd.blocks = [] ∧ Answered sess .ok m ∧ OnlyBench b m)) ∧
  (∀ (s : State) (via : Via) (sess : Sess) (v : Byte) (t : Nat) (b : Mach), b = (s.m.tick t).benchTick → sess = viaSess via →
    mayWrite s t via (regOf (benchPath 6) 0x064) [v.setWidth 32] true b = true → (v ≠ 0xAB ∨ b.bench.upd.opened = false) →
    Completes (.updCtrlAbort via v t) s (fun m => m.bench.upd = b.bench.upd ∧ Answered sess .ok m ∧ OnlyBench b m)) ∧
  (∀ (s : State) (via : Via) (sess : Sess) (p : Page) (mask v : W32) (t : Nat) (b : Mach), b = (s.m.tick t).benchTick → sess = viaSess via →
    mayWrite s t via (regOf p.path 0x014) [mask, v] false b = true → v.toNat % 2 ^ 16 < p.count b →
    Completes (.registerWrite via (regOf p.path 0x014) [mask, v] t) s (fun m =>
      (m.session sess).map (fun x => (x.mask, x.chan)) = some (memWrite 0 p.no mask ((b.session sess).getD {}).mask,
        assocSet p.no (v.setWidth 16) ((b.session sess).getD {}).chan) ∧ Answered sess .ok m ∧ OnlyBench b m)) ∧
  (∀ (s : State) (via : Via) (sess : Sess) (p : Page) (mask v : W32) (t : Nat) (b : Mach), b = (s.m.tick t).benchTick → sess = viaSess via →
    mayWrite s t via (regOf p.path 0x014) [mask, v, 0] true b = true → p.count b ≤ v.toNat % 2 ^ 16 →
    Completes (.registerWrite via (regOf p.path 0x014) [mask, v, 0] t) s (fun m =>
      (m.session sess).map (fun x => (x.mask, x.chan)) =
        some (((b.session sess).getD {}).mask, ((b.session sess).getD {}).chan) ∧ Answered sess .addrErr m ∧ OnlyBench b m)) ∧
  (∀ (s : State) (via : Via) (sess : Sess) (l : LaneId) (v : W32) (t : Nat) (b : Mach), b = (s.m.tick t).benchTick → sess = viaSess via →
    mayWrite s t via (regOf (Page.copier l).path 0x020) [v] true b = true →
    Completes (.registerWrite via (regOf (Page.copier l).path 0x020) [v] t) s (fun m => m.lanes = b.lanes ∧
      Answered sess .refused m ∧ OnlyBench b m)) ∧
  (∀ (s : State) (h : MntHead) (n t : Nat) (seq v : W32) (p : Page) (x : MntSession) (b : Mach), b = (s.m.tick t).benchTick →
    mntTakes s t h 0x04 n seq (spanBytes (regOf p.path 0x020) 1 ++ bytes32 v) b = true → b.mntSess n = some x → seq = x.seq + 1 →
    (x.authed = false ∨ x.level = .read) →
    Completes (.registerWrite (.mnt h n seq) (regOf p.path 0x020) [v] t) s (fun m => Answered (.mnt n) .authErr m ∧
      m.lanes = b.lanes ∧ m.mod = b.mod ∧ m.bench.test = b.bench.test ∧ m.bench.upd = b.bench.upd)) ∧
  (∀ (s : State) (via : Via) (sess : Sess) (p : Page) (data : List W32) (t : Nat) (b : Mach), b = (s.m.tick t).benchTick → sess = viaSess via →
    mayWrite s t via (regOf p.path 0) data false b = true → (data.length = 0 ∨ 256 < data.length) →
    Completes (.registerWrite via (regOf p.path 0) data t) s (fun m => Answered sess .lenErr m ∧ OnlyBench b m ∧
      m.bench.recd = b.bench.recd ∧ m.bench.upd = b.bench.upd ∧ m.bench.test = b.bench.test))

/-- R47, R49, R57 to R63, R498: the host port. `b` is the module after what passes on the Bench's clock; the frames
named count as accepted frames, which the model takes READ, FETCH and STATUS for too (log entry 66). The model's choices
that it names stand in logs 65, 66, 121. -/
def Obligations.HostFrames : Prop :=
  (∀ (s : State) (k n t : Nat) (b : Mach), b = (s.m.tick t).benchTick → b.bench.mnt.waiting = [] → b.benchServes = true → 1 ≤ n → k + n ≤ 4096 →
    Completes (.hostRead (BitVec.ofNat 32 (2 ^ 31 + 4 * k)) n t) s (fun m =>
      m.bench.host.reply = some { status := .ok, data := (List.range n).map (fun i => memRead 0 b.bench.host.mailbox (k + i)) } ∧
      m.bench.host.crc = some (crc16 (0xEB :: bytes32 (BitVec.ofNat 32 (2 ^ 31 + 4 * k)) ++ beBytes 2 n ++ 0x00 ::
        ((List.range n).flatMap (fun i => bytes32 (memRead 0 b.bench.host.mailbox (k + i)))))) ∧
      m.bench.host.mailbox = b.bench.host.mailbox ∧ m.bench.host.read = b.bench.host.read ∧ OnlyBench b m)) ∧
  (∀ (s : State) (p : Page) (k n t : Nat) (b : Mach), b = (s.m.tick t).benchTick → b.bench.mnt.waiting = [] → b.benchServes = true → p.isBench = true →
    1 ≤ n → k + n ≤ 256 →
    Completes (.hostRead (regOf p.path (4 * k)) n t) s (fun m =>
      m.bench.host.reply = some (Reply.mk .ok
        ((b.touch .host).readWords (((b.touch .host).session .host).getD {}) (regOf p.path (4 * k)) n)) ∧
      m.bench.host.read = b.bench.host.read ∧ m.lanes = b.lanes ∧ m.mod = b.mod)) ∧
  (∀ (s : State) (p : Page) (k n t : Nat) (b : Mach), b = (s.m.tick t).benchTick → b.bench.mnt.waiting = [] → b.benchServes = true → p.isBench = false →
    1 ≤ n → k + n ≤ 256 → b.bench.host.read = none →
    Completes (.hostRead (regOf p.path (4 * k)) n t) s (fun m =>
      m.bench.host.read = some { addr := regOf p.path (4 * k), count := n, at0 := max s.m.now t } ∧ m.bench.host.done = none ∧
      Answered .host .pending m ∧ OnlyBench b m)) ∧
  (∀ (s : State) (p : Page) (k n t : Nat) (b : Mach), b = (s.m.tick t).benchTick → b.bench.mnt.waiting = [] → b.benchServes = true → p.isBench = false →
    1 ≤ n → k + n ≤ 256 → b.bench.host.read.isSome = true →
    Completes (.hostRead (regOf p.path (4 * k)) n t) s (fun m => m.bench.host.read = b.bench.host.read ∧
      m.bench.host.done = b.bench.host.done ∧ Answered .host .busy m ∧ OnlyBench b m)) ∧
  (∀ (s : State) (p : Page) (l : LaneId) (k n c t : Nat) (b : Mach), b = (s.m.tick t).benchTick → b.benchServes = true →
    p = .copier l → k + n ≤ 256 → b.bench.host.read = some { addr := regOf p.path (4 * k), count := n, at0 := c } →
    b.pair.accesses = [] → b.grants l = true →
    Completes (.hostReadComplete t) s (fun m => m.bench.host.read = none ∧
      m.bench.host.done = some { status := .ok, data := b.readWords ((b.session .host).getD {}) (regOf p.path (4 * k)) n } ∧
      m.bench.host.timeouts = b.bench.host.timeouts ∧ OnlyBench b m)) ∧
  (∀ (s : State) (p : Page) (l : LaneId) (k n c t : Nat) (b : Mach), b = (s.m.tick t).benchTick → b.benchServes = true →
    p = .copier l → b.bench.host.read = some { addr := regOf p.path (4 * k), count := n, at0 := c } → k + n ≤ 256 → 1 ≤ n →
    b.pair.accesses = [] → b.grants l = false → c + b.cycleNs ≤ max s.m.now t →
    Completes (.hostReadComplete t) s (fun m => m.bench.host.read = none ∧
      m.bench.host.done = some { status := .waitTimeout, data := [] } ∧
      m.bench.host.timeouts = satInc b.bench.host.timeouts ∧ OnlyBench b m)) ∧
  (∀ (s : State) (p : Page) (l : LaneId) (k n c t : Nat) (b : Mach), b = (s.m.tick t).benchTick →
    p = .copier l → b.bench.host.read = some { addr := regOf p.path (4 * k), count := n, at0 := c } → k + n ≤ 256 → 1 ≤ n →
    b.grants l = false → max s.m.now t < c + b.cycleNs → Becomes (.hostReadComplete t) s b) ∧
  (∀ (s : State) (t : Nat) (r : Reply) (b : Mach), b = (s.m.tick t).benchTick → b.benchServes = true → b.bench.mnt.waiting = [] → b.bench.host.done = some r →
    Completes (.fetch t) s (fun m => m.bench.host.reply = some r ∧ m.bench.host.last = r.status ∧ m.bench.host.done = none ∧
      OnlyBench b m)) ∧
  (∀ (s : State) (t : Nat) (b : Mach), b = (s.m.tick t).benchTick → b.benchServes = true → b.bench.mnt.waiting = [] → b.bench.host.done = none →
    Completes (.fetch t) s (fun m => Answered .host (if b.bench.host.read.isSome then .pending else .none) m ∧
      m.bench.host.read = b.bench.host.read ∧ OnlyBench b m)) ∧
  (∀ (s : State) (t : Nat) (b : Mach), b = (s.m.tick t).benchTick → b.benchServes = true → b.bench.mnt.waiting = [] →
    Completes (.status t) s (fun m => m.bench.host.reply = some { status := b.bench.host.last, data := [(b.touch .host).portStatus] } ∧
      m.bench.host.last = b.bench.host.last ∧ m.bench.host.read = b.bench.host.read ∧ OnlyBench b m)) ∧
  (∀ (s : State) (k t : Nat) (data : List W32) (crc : W16) (b : Mach), b = (s.m.tick t).benchTick → b.bench.mnt.waiting = [] → b.benchServes = true →
    crc = crc16 (writeFrameBytes (BitVec.ofNat 32 (2 ^ 31 + 4 * k)) data.length data) → 1 ≤ data.length → k + data.length ≤ 4096 →
    Completes (.hostWrite (BitVec.ofNat 32 (2 ^ 31 + 4 * k)) data.length data crc t) s (fun m =>
      (∀ i, i < data.length → some (memRead 0 m.bench.host.mailbox (k + i)) = data[i]?) ∧
      (∀ a, a < k ∨ k + data.length ≤ a → memRead 0 m.bench.host.mailbox a = memRead 0 b.bench.host.mailbox a) ∧
      (∀ a ∈ m.bench.host.marked, a < k ∨ k + data.length ≤ a) ∧ m.bench.host.h2b = b.bench.host.h2b ∧
      Answered .host .ok m ∧ OnlyBench b m)) ∧
  (∀ (s : State) (p : Page) (data : List W32) (crc : W16) (k t : Nat) (b : Mach), b = (s.m.tick t).benchTick → b.bench.mnt.waiting = [] → b.benchServes = true →
    k < 256 → crc ≠ crc16 (writeFrameBytes (regOf p.path (4 * k)) data.length data) →
    Completes (.hostWrite (regOf p.path (4 * k)) data.length data crc t) s (fun m =>
      m.bench = { b.bench with host := { b.bench.host with
        crcErrs := satInc b.bench.host.crcErrs, last := .crcErr, reply := some { status := .crcErr, data := [] } } } ∧
      OnlyBench b m)) ∧
  (∀ (s : State) (k t : Nat) (data : List W32) (crc : W16) (b : Mach), b = (s.m.tick t).benchTick → b.bench.mnt.waiting = [] → b.benchServes = true →
    crc ≠ crc16 (writeFrameBytes (BitVec.ofNat 32 (2 ^ 31 + 4 * k)) data.length data) → 1 ≤ data.length → k + data.length ≤ 4096 →
    Completes (.hostWrite (BitVec.ofNat 32 (2 ^ 31 + 4 * k)) data.length data crc t) s (fun m =>
      m.bench.host.crcErrs = satInc b.bench.host.crcErrs ∧ Answered .host .crcErr m ∧
      (∀ i, i < data.length → m.bench.host.marked.contains (k + i) = true) ∧
      (∀ a, a < k ∨ k + data.length ≤ a → memRead 0 m.bench.host.mailbox a = memRead 0 b.bench.host.mailbox a))) ∧
  (∀ (s : State) (a : W32) (n : Nat) (data : List W32) (crc : W16) (t : Nat) (b : Mach), b = (s.m.tick t).benchTick →
    b.bench.mnt.waiting = [] → b.benchServes = true → crc = crc16 (writeFrameBytes a n data) → n < data.length →
    Completes (.hostWrite a n data crc t) s (fun m => Answered .host .lenErr m ∧
      m.bench.host.mailbox = b.bench.host.mailbox ∧ OnlyBench b m)) ∧
  (∀ (s : State) (a : W32) (n : Nat) (data : List W32) (crc : W16) (t : Nat), s.m.bench.mnt.waiting = [] →
    (s.m.tick t).benchTick.benchServes = true → data.length < n → Becomes (.hostWrite a n data crc t) s (s.m.tick t).benchTick) ∧
  (∀ (s : State) (a : W32) (data : List W32) (crc : W16) (t : Nat), crc = crc16 (writeFrameBytes a data.length data) →
    s.m.bench.mnt.waiting = [] →
    exec (.hostWrite a data.length data crc t) s = exec (.registerWrite .host a data t) s) ∧
  (∀ (s : State) (crc : W16) (t : Nat) (b : Mach), b = (s.m.tick t).benchTick → b.benchServes = true → b.bench.mnt.waiting = [] → crc = crc16 [0x66] →
    Completes (.hostClose crc t) s (fun m => m.bench.host.host = none ∧ m.bench.host.read = none ∧ m.bench.host.done = none ∧
      (∀ a ∈ m.pair.accesses, a.sess ≠ .host) ∧ m.bench.mnt = b.bench.mnt ∧ m.lanes = b.lanes ∧ m.mod = b.mod)) ∧
  (∀ (s : State) (crc : W16) (t : Nat) (b : Mach), b = (s.m.tick t).benchTick → b.benchServes = true → b.bench.mnt.waiting = [] → crc ≠ crc16 [0x66] →
    Becomes (.hostClose crc t) s { b with bench := { b.bench with host := { b.bench.host with
      crcErrs := satInc b.bench.host.crcErrs } } }) ∧
  (∀ (s : State) (sess : Sess) (t c : Nat) (b : Mach), b = (s.m.tick t).benchTick → b.sessionLast sess = some c →
    c + 30000000000 ≤ max s.m.now t →
    Completes (.sessionTimeout sess t) s (fun m => m.sessionLast sess = none ∧ m.session sess = none ∧
      (sess = .host → m.bench.host.closedByTimeout = true ∧ m.bench.mnt = b.bench.mnt) ∧
      (sess ≠ .host → m.bench.host = b.bench.host) ∧ m.lanes = b.lanes ∧ m.mod = b.mod)) ∧
  (∀ (s : State) (sess : Sess) (t c : Nat) (b : Mach), b = (s.m.tick t).benchTick → b.sessionLast sess = some c →
    max s.m.now t < c + 30000000000 → Becomes (.sessionTimeout sess t) s b) ∧
  (∀ (s : State) (v : W32) (t : Nat) (b : Mach), b = (s.m.tick t).benchTick → b.benchServes = true → b.bench.mnt.waiting = [] →
    b.mailRequest = none → b.bench.host.rewrite = [] →
    Completes (.h2bDoorbell v t) s (fun m => m.bench.host.h2b = v ∧ m.bench.host.mailbox = b.bench.host.mailbox ∧
      m.bench.host.b2h = b.bench.host.b2h ∧ Answered .host .ok m ∧ OnlyBench b m)) ∧
  (∀ (s : State) (n t : Nat) (b : Mach), b = (s.m.tick t).benchTick → b.benchServes = true → b.bench.mnt.waiting = [] → n < 2 ^ 24 →
    b.mailWord 0 = BitVec.ofNat 32 (0x20 * 2 ^ 24 + n) → b.bench.host.marked = [] → b.bench.host.rewrite = [] →
    b.bench.host.lastWrite = none →
    Completes (.h2bDoorbell (BitVec.ofNat 32 n) t) s (fun m => m.bench.host.b2h = BitVec.ofNat 32 n ∧
      m.mailWord 0x800 = BitVec.ofNat 32 (0xA0 * 2 ^ 24 + n) ∧ m.mailWord 0x801 = 0x00280000 ∧
      m.mailWord 0 = b.mailWord 0 ∧ Answered .host .ok m)) ∧
  (∀ (s : State) (n t : Nat) (b : Mach), b = (s.m.tick t).benchTick → b.benchServes = true → b.bench.mnt.waiting = [] → n < 2 ^ 24 →
    b.mailWord 0 = BitVec.ofNat 32 (0x20 * 2 ^ 24 + n) → b.bench.host.marked = [0] → b.bench.host.rewrite = [] →
    b.bench.host.lastWrite = none →
    Completes (.h2bDoorbell (BitVec.ofNat 32 n) t) s (fun m => m.bench.host.b2h = BitVec.ofNat 32 n ∧
      m.mailWord 0x801 = 0x00000005)) ∧
  (∀ (s : State) (a : W32) (n t : Nat) (b : Mach), b = (s.m.tick t).benchTick → b.bench.mnt.waiting = [] → b.benchServes = false →
    Becomes (.hostRead a n t) s { b with bench := { b.bench with host := { b.bench.host with
      reply := some { status := .notReady, data := [] }, crc := none } } })

/-- R37, R49, R51 to R53: reads of any session, and accesses across the pair link. The model's choices that it names
stand in logs 46, 62, 67, 119, 121. -/
def Obligations.SessionReads : Prop :=
  (∀ (s : State) (via : Via) (sess : Sess) (t : Nat) (b : Mach), b = (s.m.tick t).benchTick → sess = viaSess via →
    mayRead s t via (regOf Page.hostPort.path 0x030) 1 b = true →
    Completes (.rcRead via (regOf Page.hostPort.path 0x030) t) s (fun m =>
      Answered sess .ok m ∧ m.bench.host.crcErrs = 0 ∧ m.bench.host.timeouts = b.bench.host.timeouts ∧
      (match sess with
        | .host => m.bench.host.reply.map (fun r => r.data.flatMap bytes32)
        | .mnt _ => m.bench.mnt.reply.map (fun r => r.data)) = some (bytes32 (word b.bench.host.crcErrs)) ∧ OnlyBench b m)) ∧
  (∀ (s : State) (via : Via) (sess : Sess) (t : Nat) (b : Mach), b = (s.m.tick t).benchTick → sess = viaSess via →
    mayRead s t via (regOf Page.sensors.path 0x054) 1 b = true →
    Completes (.rcRead via (regOf Page.sensors.path 0x054) t) s (fun m =>
      Answered sess .ok m ∧ m.bench.sens = { b.bench.sens with shockX := 0, shockY := 0 } ∧ OnlyBench b m)) ∧
  (∀ (s : State) (via : Via) (sess : Sess) (k n t : Nat) (b : Mach), b = (s.m.tick t).benchTick → sess = viaSess via →
    mayRead s t via (regOf Page.counters.path 0x028) (s.m.groupSpan sess (regOf Page.counters.path 0x028)) b = true → k = ((b.session sess).getD {}).sel .counters → (b.bench.ec[k]?).map (fun x => x.group.serial) = some n →
    0 < n →
    Completes (.resultGroupRead via (regOf Page.counters.path 0x028) t) s (fun m => Answered sess .ok m ∧
      (m.session sess).map (fun x => assocGet (groupKey .counters k) x.seen) = some (some n) ∧
      m.bench.ec = b.bench.ec ∧ OnlyBench b m)) ∧
  (∀ (x : Session) (key : Nat) (g : ResultGroup),
    ((statusWord x key g).getLsbD 31 = g.ready) ∧
    ((statusWord x key g).getLsbD 30 = true ↔ assocGet key x.seen = some g.serial) ∧
    ((statusWord x key g).toNat % 256 = tagOf g.serial)) ∧
  (∀ (s : State) (a : W32) (n t : Nat) (b : Mach), b = (s.m.tick t).benchTick → b.benchServes = true → b.bench.mnt.waiting = [] →
    b.place a = .partner → inMailbox a = false → spanRefusal .host a n = none → b.bench.host.read = none →
    Completes (.partnerRead .host false a n t) s (fun m =>
      m.bench.host.read = some { addr := a, count := n, at0 := max s.m.now t } ∧
      m.pair.accesses = b.pair.accesses ++ [{ sess := .host, addr := a, count := n, at0 := max s.m.now t }] ∧
      { m.pair with accesses := b.pair.accesses, l1 := b.pair.l1, l2 := b.pair.l2, mirrorEnd := b.pair.mirrorEnd } = b.pair ∧
      Answered .host .pending m ∧ m.lanes = b.lanes ∧ m.mod = b.mod)) ∧
  (∀ (s : State) (h : MntHead) (k n t : Nat) (seq a : W32) (x : MntSession) (b : Mach), b = (s.m.tick t).benchTick →
    mayRead s t (.mnt h k seq) a n b = true → b.mntSess k = some x →
    b.place a = .partner → inMailbox a = false → spanRefusal (.mnt k) a n = none →
    Completes (.partnerRead (.mnt h k seq) false a n t) s (fun m =>
      (m.mntSess k).map (fun y => (y.reads, y.reply, y.seq)) =
        some (x.reads ++ [{ addr := a, count := n, at0 := max s.m.now t, num := seq }], none, seq) ∧
      m.pair.accesses = b.pair.accesses ++ [{ sess := .mnt k, addr := a, count := n, at0 := max s.m.now t, num := seq }] ∧
      m.bench.host = b.bench.host ∧ m.lanes = b.lanes ∧ m.mod = b.mod)) ∧
  (∀ (s : State) (via : Via) (sess : Sess) (a : W32) (n t : Nat) (b : Mach), b = (s.m.tick t).benchTick → sess = viaSess via →
    mayWrite s t via a (List.replicate n 0) true b = true → b.place a = .partner → inMailbox a = false → spanRefusal sess a n = none →
    Completes (.partnerRead via true a n t) s (fun m => Answered sess .refused m ∧ m.pair = b.pair ∧ OnlyBench b m)) ∧
  (∀ (s : State) (t : Nat) (q : PartnerAccess) (b : Mach), b = (s.m.tick t).benchTick → b.pair.accesses = [q] → q.sess = .host →
    q.at0 + 2 * b.cycleNs ≤ max s.m.now t →
    Completes (.partnerReadTimeout t) s (fun m => m.pair = { b.pair with accesses := [] } ∧ m.bench.host.read = none ∧
      m.bench.host.done = some { status := .waitTimeout, data := [] } ∧ m.bench.host.timeouts = satInc b.bench.host.timeouts ∧
      m.lanes = b.lanes)) ∧
  (∀ (s : State) (t n : Nat) (q : PartnerAccess) (x : MntSession) (b : Mach), b = (s.m.tick t).benchTick → b.pair.accesses = [q] →
    q.sess = .mnt n → b.mntSess n = some x → x.reads = [{ addr := q.addr, count := q.count, at0 := q.at0, num := q.num }] →
    q.at0 + 2 * b.cycleNs ≤ max s.m.now t →
    Completes (.partnerReadTimeout t) s (fun m => m.pair = { b.pair with accesses := [] } ∧
      (m.mntSess n).map (fun y => y.reads) = some [] ∧
      m.bench.mnt.reply.map (fun r => (r.session, r.seq, r.typ, r.status)) = some (n, q.num, 0x03, .waitTimeout) ∧
      m.bench.host = b.bench.host ∧ m.lanes = b.lanes)) ∧
  (∀ (s : State) (t : Nat) (q : PartnerAccess) (rest : List PartnerAccess) (b : Mach), b = (s.m.tick t).benchTick →
    b.pair.accesses = q :: rest → max s.m.now t < q.at0 + 2 * b.cycleNs → Becomes (.partnerReadTimeout t) s b) ∧
  (∀ (s : State) (k : LinkId) (f : AnswerFrame) (t : Nat) (q : PartnerAccess) (b : Mach), b = (s.m.tick t).benchTick →
    b.benchServes = true → b.linkHears k = true → pairIntact (.answer f) = true → f.link = k → b.linkInService k = true →
    b.pair.accesses = [q] → q.sess = .host →
    Completes (.benchAccessReply k f t) s (fun m => m.pair.accesses = [] ∧ (m.pair.link k).lastAt = max s.m.now t ∧
      m.bench.host.read = none ∧ m.bench.host.done = some f.reply ∧ m.lanes = b.lanes)) ∧
  (∀ (s : State) (k : LinkId) (f : AnswerFrame) (t : Nat) (b : Mach), b = (s.m.tick t).benchTick → b.linkHears k = true →
    pairIntact (.answer f) = true → f.link = k → b.linkInService k = false →
    Completes (.benchAccessReply k f t) s (fun m => m.pair.accesses = b.pair.accesses ∧ (m.pair.link k).service = false ∧
      { m with pair := b.pair } = b)) ∧
  (∀ (s : State) (k : LinkId) (f : AnswerFrame) (t : Nat) (b : Mach), b = (s.m.tick t).benchTick → b.linkHears k = true →
    (pairIntact (.answer f) = false ∨ f.link ≠ k) →
    Completes (.benchAccessReply k f t) s (fun m => m.pair.accesses = b.pair.accesses ∧
      (m.pair.link k).errs = satInc (b.pair.link k).errs ∧ (m.pair.link k).run = 0 ∧
      (m.pair.link k).service = ((b.pair.link k).service && !pairIntact (.answer f)) ∧ m.lanes = b.lanes ∧ m.mod = b.mod)) ∧
  (∀ (s : State) (k : LinkId) (f : AnswerFrame) (g : AccessFrame) (t : Nat) (b : Mach), b = (s.m.tick t).benchTick →
    b.linkHears k = false → Becomes (.benchAccessReply k f t) s b ∧ Becomes (.benchAccessRequest k g t) s b) ∧
  (∀ (s : State) (k : LinkId) (f : AccessFrame) (t : Nat) (b : Mach), b = (s.m.tick t).benchTick → b.benchServes = true →
    b.linkHears k = true → pairIntact (.request f) = true → f.link = k → b.linkInService k = true → f.write = true →
    Completes (.benchAccessRequest k f t) s (fun m =>
      m.pair.lastReply = some (sealAnswer
        { fcrc := 0, link := k, copy := b.ident.copy, cycle := b.cycleNo, reply := { status := .refused, data := [] } }) ∧
      m.pair.asked = b.pair.asked ∧ m.lanes = b.lanes ∧ m.bench = b.bench)) ∧
  (∀ (s : State) (k : LinkId) (f : AccessFrame) (l : LaneId) (t : Nat) (b : Mach), b = (s.m.tick t).benchTick →
    b.benchServes = true → b.linkHears k = true → pairIntact (.request f) = true → f.link = k → b.linkInService k = true →
    f.write = false → f.addr = (0x20000000 ||| regOf (Page.copier l).path 0 &&& 0x0FFFFFFF) → 1 ≤ f.count → f.count ≤ 256 →
    b.pair.asked = [] → b.grants l = true →
    Completes (.benchAccessRequest k f t) s (fun m =>
      m.pair.lastReply = some (sealAnswer
        { fcrc := 0, link := k, copy := b.ident.copy, cycle := b.cycleNo
          reply := { status := .ok, data := b.readWords {} (regOf (Page.copier l).path 0) f.count } }) ∧
      m.pair.asked = [] ∧ m.lanes = b.lanes ∧ m.bench = b.bench)) ∧
  (∀ (s : State) (k : LinkId) (f : AccessFrame) (l : LaneId) (t : Nat) (b : Mach), b = (s.m.tick t).benchTick →
    b.benchServes = true → b.linkHears k = true → pairIntact (.request f) = true → f.link = k → b.linkInService k = true →
    f.write = false → f.addr = (0x20000000 ||| regOf (Page.copier l).path 0 &&& 0x0FFFFFFF) → 1 ≤ f.count → f.count ≤ 256 →
    b.pair.asked = [] → b.grants l = false → 0 < b.cycleNs →
    Completes (.benchAccessRequest k f t) s (fun m =>
      m.pair.asked = [(regOf (Page.copier l).path 0, f.count, max s.m.now t, k)] ∧ m.pair.lastReply = b.pair.lastReply ∧
      m.lanes = b.lanes ∧ m.bench = b.bench)) ∧
  (∀ (s : State) (k : LinkId) (f : AccessFrame) (t : Nat) (b : Mach), b = (s.m.tick t).benchTick → b.linkHears k = true →
    (pairIntact (.request f) = false ∨ f.link ≠ k) →
    Completes (.benchAccessRequest k f t) s (fun m => m.pair.asked = b.pair.asked ∧ m.pair.lastReply = b.pair.lastReply ∧
      (m.pair.link k).errs = satInc (b.pair.link k).errs ∧ (m.pair.link k).run = 0 ∧
      (m.pair.link k).service = ((b.pair.link k).service && !pairIntact (.request f)) ∧ m.lanes = b.lanes ∧ m.mod = b.mod))

/-- R47, R64 to R68: the maintenance port. `b` is the module after what passes on the Bench's clock. The model's choices
that it names stand in logs 5, 65, 66, 67, 115, 121. -/
def Obligations.MaintenanceSessions : Prop :=
  (∀ (s : State) (h : MntHead) (seq : W32) (lv : Byte) (t : Nat) (b : Mach), b = (s.m.tick t).benchTick → b.benchServes = true →
    s.pending.any (hostAccessAt (t / 10)) = false → h.whole = true → h.port = 27340 →
    (h.magic ≠ 0x5750 ∨ h.version ≠ 1 ∨ h.length ≠ 1 ∨ h.crc ≠ crc32 (requestBytes h 0x01 0 seq [lv])) →
    Becomes (.mntOpen h lv seq t) s { b with bench := { b.bench with mnt := { b.bench.mnt with
      link := true, bad := satInc b.bench.mnt.bad } } }) ∧
  (∀ (s : State) (h : MntHead) (seq : W32) (n t : Nat) (b : Mach), b = (s.m.tick t).benchTick → b.benchServes = true →
    s.pending.any (hostAccessAt (t / 10)) = false →
    (h.whole = false ∨ h.port ≠ 27340 ∨ (headPasses 0x05 n seq [] h = true ∧ b.lockedOut h.ip = true)) →
    Becomes (.mntKeep h n seq t) s { b with bench := { b.bench with mnt := { b.bench.mnt with link := true } } }) ∧
  (∀ (s : State) (h : MntHead) (seq : W32) (lv : Byte) (l : Level) (t : Nat) (b : Mach), b = (s.m.tick t).benchTick → mntTakes s t h 0x01 0 seq [lv] b = true → levelOf lv = some l → b.bench.mnt.sessions.length < 4 →
    (l = .read ∨ b.bench.mnt.sessions.all (fun x => x.level == .read) = true) →
    Completes (.mntOpen h lv seq t) s (fun m =>
      m.bench.mnt.sessions.dropLast = b.bench.mnt.sessions ∧
      (m.bench.mnt.sessions.getLast?).map (fun x => (x.id, x.ip, x.level, x.authed, x.seq)) =
        some (b.bench.mnt.nextId, h.ip, l, l == .read && b.openRead, seq) ∧
      m.bench.mnt.nextId = b.bench.mnt.nextId % 65535 + 1 ∧
      m.bench.mnt.reply = some { ip := h.ip, typ := 0x01, session := b.bench.mnt.nextId, status := .ok, seq := seq
                                 data := beBytes 16 (Config.challenge b.freeCtr).toNat } ∧
      m.freeCtr = b.freeCtr + 1 ∧ m.bench.host = b.bench.host ∧ m.lanes = b.lanes ∧ m.mod = b.mod)) ∧
  (∀ (s : State) (h : MntHead) (seq : W32) (lv : Byte) (t : Nat) (b : Mach), b = (s.m.tick t).benchTick → mntTakes s t h 0x01 0 seq [lv] b = true →
    (4 ≤ b.bench.mnt.sessions.length ∨ (lv = 2 ∧ b.bench.mnt.sessions.any (fun x => x.level == .write) = true)) →
    Completes (.mntOpen h lv seq t) s (fun m => m.bench.mnt.sessions = b.bench.mnt.sessions ∧
      m.bench.mnt.reply = some { ip := h.ip, typ := 0x01, session := 0, status := .sessionErr, seq := seq, data := [] } ∧
      OnlyBench b m)) ∧
  (∀ (s : State) (h : MntHead) (seq : W32) (n t : Nat) (c : BitVec 384) (x : MntSession) (b : Mach), b = (s.m.tick t).benchTick →
    mntTakes s t h 0x02 n seq (beBytes 48 c.toNat) b = true → b.mntSess n = some x → seq = x.seq + 1 →
    c = hmac384 b.maintKey (beBytes 16 x.challenge.toNat ++ beBytes 2 n) →
    Completes (.mntAuth h n seq c t) s (fun m => (m.mntSess n).map (fun y => (y.authed, y.seq)) = some (true, seq) ∧
      Answered (.mnt n) .ok m ∧ OnlyBench b m)) ∧
  (∀ (s : State) (h : MntHead) (seq : W32) (n t : Nat) (c : BitVec 384) (x : MntSession) (b : Mach), b = (s.m.tick t).benchTick →
    mntTakes s t h 0x02 n seq (beBytes 48 c.toNat) b = true → b.mntSess n = some x → seq = x.seq + 1 → b.bench.mnt.failures = [] →
    c ≠ hmac384 b.maintKey (beBytes 16 x.challenge.toNat ++ beBytes 2 n) →
    Completes (.mntAuth h n seq c t) s (fun m => (m.mntSess n).map (fun y => y.authed) = some x.authed ∧
      Answered (.mnt n) .authErr m ∧ m.bench.mnt.authFails = satInc b.bench.mnt.authFails ∧
      m.bench.mnt.failures = [(h.ip, max s.m.now t)] ∧ m.bench.mnt.lockouts = b.bench.mnt.lockouts ∧ OnlyBench b m)) ∧
  (∀ (s : State) (h : MntHead) (seq : W32) (n t a1 a2 : Nat) (c : BitVec 384) (x : MntSession) (b : Mach), b = (s.m.tick t).benchTick →
    mntTakes s t h 0x02 n seq (beBytes 48 c.toNat) b = true → b.mntSess n = some x → seq = x.seq + 1 →
    b.bench.mnt.failures = [(h.ip, a1), (h.ip, a2)] → max s.m.now t < a1 + 60000000000 → max s.m.now t < a2 + 60000000000 →
    c ≠ hmac384 b.maintKey (beBytes 16 x.challenge.toNat ++ beBytes 2 n) →
    Completes (.mntAuth h n seq c t) s (fun m => Answered (.mnt n) .authErr m ∧ m.lockedOut h.ip = true ∧
      m.bench.mnt.lockouts = (h.ip, max s.m.now t + 60000000000) :: b.bench.mnt.lockouts)) ∧
  (∀ (s : State) (ip : W32) (c t : Nat) (b : Mach), b = (s.m.tick t).benchTick → b.bench.mnt.lockouts = [(ip, c)] →
    c ≤ max s.m.now t →
    Completes (.authLockoutEnd ip t) s (fun m => m.lockedOut ip = false ∧ m.bench.mnt = { b.bench.mnt with lockouts := [] } ∧
      OnlyBench b m)) ∧
  (∀ (s : State) (ip : W32) (c t : Nat) (b : Mach), b = (s.m.tick t).benchTick → b.bench.mnt.lockouts = [(ip, c)] →
    max s.m.now t < c → Becomes (.authLockoutEnd ip t) s b) ∧
  (∀ (s : State) (h : MntHead) (seq a : W32) (n k t : Nat) (x : MntSession) (b : Mach), b = (s.m.tick t).benchTick → mntTakes s t h 0x03 n seq (spanBytes a k) b = true → b.mntSess n = some x → x.authed = true → seq = x.seq + 1 → 1 ≤ k → k ≤ 256 →
    a = regOf Page.update.path 0 →
    Completes (.mntRead h n seq a k t) s (fun m => m.bench.mnt.reply.map (fun r => (r.session, r.seq, r.typ, r.status)) = some (n, seq, 0x03, .ok) ∧
      m.bench.mnt.reply.map (fun r => r.data) = some ((m.readWords x.sess a k).flatMap bytes32) ∧
      (m.mntSess n).map (fun y => (y.seq, y.reply, y.sess.lastAt)) = some (seq, m.bench.mnt.reply, max s.m.now t))) ∧
  (∀ (s : State) (h : MntHead) (seq a : W32) (n k t : Nat) (l : LaneId) (x : MntSession) (b : Mach), b = (s.m.tick t).benchTick →
    mntTakes s t h 0x03 n seq (spanBytes a k) b = true → b.mntSess n = some x → x.authed = true → seq = x.seq + 1 → 1 ≤ k → k ≤ 256 →
    a = regOf (Page.copier l).path 0 →
    Completes (.mntRead h n seq a k t) s (fun m =>
      (m.mntSess n).map (fun y => (y.reads, y.reply)) = some (x.reads ++ [{ addr := a, count := k, at0 := max s.m.now t, num := seq }], none) ∧
      m.bench.host = b.bench.host ∧ OnlyBench b m)) ∧
  (∀ (s : State) (n k c t : Nat) (a nr : W32) (l : LaneId) (x : MntSession) (b : Mach), b = (s.m.tick t).benchTick →
    b.benchServes = true → b.mntSess n = some x → x.authed = true → x.reads = [{ addr := a, count := k, at0 := c, num := nr }] →
    b.pair.accesses = [] → a = regOf (Page.copier l).path 0 → b.grants l = true →
    Completes (.mntAccessComplete n t) s (fun m => (m.mntSess n).map (fun y => y.reads) = some [] ∧
      m.bench.mnt.reply.map (fun r => (r.session, r.seq, r.typ, r.status)) = some (n, nr, 0x03, .ok) ∧
      m.bench.mnt.reply.map (fun r => r.data) = some ((b.readWords x.sess a k).flatMap bytes32) ∧ OnlyBench b m)) ∧
  (∀ (s : State) (n k c t : Nat) (a nr : W32) (l : LaneId) (x : MntSession) (b : Mach), b = (s.m.tick t).benchTick →
    b.benchServes = true → b.mntSess n = some x → x.reads = [{ addr := a, count := k, at0 := c, num := nr }] →
    b.pair.accesses = [] → a = regOf (Page.copier l).path 0 → b.grants l = false → c + b.cycleNs ≤ max s.m.now t →
    Completes (.mntAccessComplete n t) s (fun m => (m.mntSess n).map (fun y => y.reads) = some [] ∧
      m.bench.mnt.reply.map (fun r => (r.session, r.seq, r.typ, r.status)) = some (n, nr, 0x03, .waitTimeout) ∧ OnlyBench b m)) ∧
  (∀ (s : State) (h : MntHead) (seq : W32) (n t : Nat) (p : Page) (v : W32) (x : MntSession) (b : Mach), b = (s.m.tick t).benchTick →
    mntTakes s t h 0x04 n seq (spanBytes (regOf p.path 0x014) 1 ++ bytes32 v) b = true → b.mntSess n = some x → x.authed = true → seq = x.seq + 1 →
    Completes (.mntWrite h n seq (regOf p.path 0x014) 1 [v] t) s (fun m =>
      (m.mntSess n).map (fun y => (y.sess.mask, y.sess.chan, y.seq)) = some (memWrite 0 p.no v x.sess.mask, x.sess.chan, seq) ∧
      Answered (.mnt n) .ok m ∧ OnlyBench b m)) ∧
  (∀ (s : State) (h : MntHead) (seq : W32) (n t : Nat) (x : MntSession) (b : Mach), b = (s.m.tick t).benchTick →
    mntTakes s t h 0x05 n seq [] b = true → b.mntSess n = some x → seq = x.seq + 1 →
    Completes (.mntKeep h n seq t) s (fun m => (m.mntSess n).map (fun y => (y.seq, y.sess.lastAt)) = some (seq, max s.m.now t) ∧
      Answered (.mnt n) .ok m ∧ OnlyBench b m)) ∧
  (∀ (s : State) (h : MntHead) (seq : W32) (n t : Nat) (r : MntReply) (x : MntSession) (p : Page) (v : W32) (b : Mach),
    b = (s.m.tick t).benchTick → mntTakes s t h 0x04 n seq (spanBytes (regOf p.path 0x014) 1 ++ bytes32 v) b = true → b.mntSess n = some x → seq = x.seq →
    x.reply = some r →
    Completes (.mntWrite h n seq (regOf p.path 0x014) 1 [v] t) s (fun m => m.bench.mnt.reply = some r ∧
      (m.mntSess n).map (fun y => (y.seq, y.sess.mask)) = some (seq, x.sess.mask) ∧ OnlyBench b m)) ∧
  (∀ (s : State) (h : MntHead) (seq : W32) (n t : Nat) (x : MntSession) (b : Mach), b = (s.m.tick t).benchTick → mntTakes s t h 0x05 n seq [] b = true → b.mntSess n = some x → seq ≠ x.seq → seq ≠ x.seq + 1 →
    Completes (.mntKeep h n seq t) s (fun m => m.bench.mnt.reply = some { ip := h.ip, typ := 0x05, session := n, status := .seqErr, seq := seq, data := [] } ∧
      m.bench.mnt.sessions = b.bench.mnt.sessions ∧ OnlyBench b m)) ∧
  (∀ (s : State) (h : MntHead) (seq : W32) (n t : Nat) (b : Mach), b = (s.m.tick t).benchTick → mntTakes s t h 0x06 n seq [] b = true → b.mntSess n = none →
    Completes (.mntClose h n seq t) s (fun m => m.bench.mnt.reply = some { ip := h.ip, typ := 0x06, session := n, status := .sessionErr, seq := seq, data := [] } ∧
      m.bench.mnt.sessions = b.bench.mnt.sessions ∧ OnlyBench b m)) ∧
  (∀ (s : State) (h : MntHead) (seq : W32) (n t : Nat) (x : MntSession) (b : Mach), b = (s.m.tick t).benchTick → mntTakes s t h 0x06 n seq [] b = true → b.mntSess n = some x → seq = x.seq + 1 →
    Completes (.mntClose h n seq t) s (fun m => m.mntSess n = none ∧ Answered (.mnt n) .ok m ∧
      (∀ k, k ≠ n → (m.mntSess k).map (fun y => y.seq) = (b.mntSess k).map (fun y => y.seq)) ∧
      (∀ a ∈ m.pair.accesses, a.sess ≠ .mnt n) ∧ m.bench.host = b.bench.host)) ∧
  (∀ (s : State) (n t : Nat) (x : MntSession) (b : Mach), b = (s.m.tick t).benchTick → b.benchServes = true →
    b.mntSess n = some x → x.authed = true → x.summary = 0 → b.pairIrq x.sess ≠ 0 →
    x.notified.all (fun c => decide (c + 1000000000 ≤ max s.m.now t)) = true →
    Completes (.notify n t) s (fun m =>
      m.bench.mnt.notify = some { ip := x.ip, typ := 0x08, session := n, status := .ok, seq := Config.freeWord b.freeCtr
                                  data := bytes32 (b.pairIrq x.sess) } ∧ m.freeCtr = b.freeCtr + 1 ∧
      (m.mntSess n).map (fun y => (y.notified, y.summary)) = some (some (max s.m.now t), b.pairIrq x.sess) ∧
      m.lanes = b.lanes ∧ m.mod = b.mod ∧ m.bench.host = b.bench.host)) ∧
  (∀ (s : State) (n t : Nat) (x : MntSession) (b : Mach), b = (s.m.tick t).benchTick → b.mntSess n = some x →
    b.pairIrq x.sess ≠ 0 → (x.summary ≠ 0 ∨ x.authed = false ∨ x.notified.any (fun c => decide (max s.m.now t < c + 1000000000)) = true) →
    Becomes (.notify n t) s b) ∧
  (∀ (s : State) (up : Bool) (lease : Option IpFace) (t : Nat) (b : Mach), b = (s.m.tick t).benchTick → b.benchServes = true →
    b.bench.mnt.dhcp = true →
    Becomes (.dhcpLease up lease t) s { b with bench := { b.bench with mnt := { b.bench.mnt with
      link := up, ip := (lease.getD {}).ip, mask := (lease.getD {}).mask, gateway := (lease.getD {}).gateway } } }) ∧
  (∀ (s : State) (up : Bool) (lease : Option IpFace) (t : Nat) (b : Mach), b = (s.m.tick t).benchTick → b.benchServes = true →
    b.bench.mnt.dhcp = false →
    Becomes (.dhcpLease up lease t) s { b with bench := { b.bench with mnt := { b.bench.mnt with link := up } } }) ∧
  (∀ (s : State) (h : MntHead) (seq a : W32) (n k t : Nat) (b : Mach), b = (s.m.tick t).benchTick →
    s.pending.any (hostAccessAt (t / 10)) = true →
    Becomes (.mntRead h n seq a k t) s { b with bench := { b.bench with mnt := { b.bench.mnt with
      waiting := b.bench.mnt.waiting ++ [{ head := h, sess := n, seq := seq, req := .access a k none }] } } }) ∧
  (∀ (s : State) (h : MntHead) (seq a : W32) (n k t : Nat) (ws : List W32) (b : Mach), b = (s.m.tick t).benchTick →
    s.pending.any (hostAccessAt (t / 10)) = true →
    Becomes (.mntWrite h n seq a k ws t) s { b with bench := { b.bench with mnt := { b.bench.mnt with
      waiting := b.bench.mnt.waiting ++ [{ head := h, sess := n, seq := seq, req := .access a k (some ws) }] } } }) ∧
  (∀ (s : State) (h : MntHead) (seq : W32) (n t : Nat) (b : Mach), b = (s.m.tick t).benchTick →
    s.pending.any (hostAccessAt (t / 10)) = true →
    Becomes (.mntClose h n seq t) s { b with bench := { b.bench with mnt := { b.bench.mnt with
      waiting := b.bench.mnt.waiting ++ [{ head := h, sess := n, seq := seq, req := .close }] } } }) ∧
  (∀ (s : State) (t : Nat) (d : MntDatagram) (x : MntSession) (b : Mach), b = (s.m.tick t).benchTick → b.benchServes = true →
    b.bench.mnt.waiting = [d] → d.req = .keep → d.head.whole = true → d.head.port = 27340 →
    headPasses 0x05 d.sess d.seq [] d.head = true → b.lockedOut d.head.ip = false → b.mntSess d.sess = some x → d.seq = x.seq + 1 →
    Completes (.status t) s (fun m => m.bench.mnt.waiting = [] ∧
      m.bench.host.reply = some { status := b.bench.host.last, data := [(b.touch .host).portStatus] } ∧
      (m.mntSess d.sess).map (fun y => (y.seq, y.sess.lastAt)) = some (d.seq, max s.m.now t) ∧
      Answered (.mnt d.sess) .ok m ∧ OnlyBench b m)) ∧
  (∀ (s : State) (h : MntHead) (seq a : W32) (n k t : Nat) (x : MntSession) (ws : List W32) (b : Mach), b = (s.m.tick t).benchTick →
    mntTakes s t h 0x04 n seq (spanBytes a k ++ ws.flatMap bytes32) b = true →
    b.mntSess n = some x → seq = x.seq + 1 → k ≠ ws.length →
    Completes (.mntWrite h n seq a k ws t) s (fun m => Answered (.mnt n) .lenErr m ∧ OnlyBench b m))

/-- R442, R451, R452, R475: the recorder's transfers and attestation. `b` is the module after what passes on the Bench's
clock. The model's choices that it names stand in logs 67, 121. -/
def Obligations.RecorderTransfers : Prop :=
  (∀ (s : State) (h : MntHead) (n t : Nat) (seq : W32) (x : MntSession) (b : Mach), b = (s.m.tick t).benchTick → mntTakes s t h 0x20 n seq [] b = true → b.mntSess n = some x → x.authed = true → seq = x.seq + 1 →
    Completes (.recInfo h n seq t) s (fun m => Replied (.mnt n) seq 0x20 .ok (b.infoWords.flatMap bytes32) m ∧
      m.bench.recd = b.bench.recd ∧ OnlyBench b m)) ∧
  (∀ (s : State) (h : MntHead) (n t first count : Nat) (seq : W32) (x : MntSession) (b : Mach), b = (s.m.tick t).benchTick →
    mntTakes s t h 0x21 n seq (beBytes 6 first ++ beBytes 2 count) b = true → b.mntSess n = some x → x.authed = true → seq = x.seq + 1 →
    1 ≤ count → count ≤ 16 →
    Completes (.recRead h n seq first count t) s (fun m =>
      Replied (.mnt n) seq 0x21 .ok (beBytes 6 (b.bench.recd.fetch first count).1 ++
        beBytes 2 (b.bench.recd.fetch first count).2.length ++ (b.bench.recd.fetch first count).2.flatMap recBytes) m ∧
      m.bench.recd = b.bench.recd ∧ OnlyBench b m)) ∧
  (∀ (s : State) (h : MntHead) (n t first count : Nat) (seq : W32) (x : MntSession) (b : Mach), b = (s.m.tick t).benchTick →
    mntTakes s t h 0x21 n seq (beBytes 6 first ++ beBytes 2 count) b = true → b.mntSess n = some x → x.authed = true → seq = x.seq + 1 →
    (count = 0 ∨ 16 < count) →
    Completes (.recRead h n seq first count t) s (fun m => Answered (.mnt n) .lenErr m ∧ m.bench.recd = b.bench.recd)) ∧
  (∀ (r : Recorder) (first count : Nat) (x : Rec), x ∈ (r.fetch first count).2 →
    x ∈ r.readable ∧ first ≤ x.seq ∧ (r.fetch first count).2.length ≤ count) ∧
  (∀ (s : State) (h : MntHead) (n t : Nat) (seq : W32) (x : MntSession) (b : Mach), b = (s.m.tick t).benchTick → mntTakes s t h 0x22 n seq [1] b = true → b.mntSess n = some x → x.authed = true → x.level = .write → seq = x.seq + 1 →
    b.bench.recd.frozen = none → b.freezeRefused (.mnt n) = false →
    Completes (.recFreeze h n seq 1 t) s (fun m => m.bench.recd.frozen = some (.mnt n, 0, max s.m.now t) ∧
      m.bench.recd.ram.length = b.bench.recd.ram.length ∧ Answered (.mnt n) .ok m ∧ OnlyBench b m)) ∧
  (∀ (s : State) (h : MntHead) (n t c : Nat) (seq : W32) (x : MntSession) (b : Mach), b = (s.m.tick t).benchTick → mntTakes s t h 0x22 n seq [2] b = true → b.mntSess n = some x → x.authed = true → x.level = .write → seq = x.seq + 1 →
    b.bench.recd.frozen = some (.mnt n, 0, c) →
    Completes (.recFreeze h n seq 2 t) s (fun m => m.bench.recd.frozen = none ∧ m.bench.recd.releasedAt = some (max s.m.now t) ∧
      Answered (.mnt n) .ok m ∧ OnlyBench b m)) ∧
  (∀ (s : State) (h : MntHead) (n t : Nat) (seq : W32) (op : Byte) (x : MntSession) (b : Mach), b = (s.m.tick t).benchTick →
    mntTakes s t h 0x22 n seq [op] b = true → b.mntSess n = some x → x.authed = true → x.level = .write → seq = x.seq + 1 → op ≠ 1 → op ≠ 2 →
    Completes (.recFreeze h n seq op t) s (fun m => m.bench.recd = b.bench.recd ∧ Answered (.mnt n) .refused m)) ∧
  (∀ (s : State) (h : MntHead) (n t : Nat) (seq : W32) (op : Byte) (x : MntSession) (b : Mach), b = (s.m.tick t).benchTick →
    mntTakes s t h 0x22 n seq [op] b = true → b.mntSess n = some x → x.authed = true → x.level = .read → seq = x.seq + 1 →
    Completes (.recFreeze h n seq op t) s (fun m => Answered (.mnt n) .authErr m ∧ m.bench.recd.frozen = b.bench.recd.frozen)) ∧
  (∀ (s : State) (via : UpdVia) (sess : Sess) (num : W32) (nonce : BitVec 256) (t : Nat) (b : Mach), b = (s.m.tick t).benchTick → (sess, num) = updFrom via → mayAsk s t via (.attest nonce) b = true →
    Completes (.attest via nonce t) s (fun m => m.bench.upd.attNonce = some nonce ∧ m.bench.upd.attFor = some (sess, num) ∧
      m.bench.upd.att.ready = false ∧ m.bench.upd.att.serial = b.bench.upd.att.serial ∧
      m.bench.upd.report = b.bench.upd.report ∧ m.bench.host.mailbox = b.bench.host.mailbox ∧ OnlyBench b m)) ∧
  (∀ (s : State) (sess : Sess) (num : W32) (nonce : BitVec 256) (t : Nat) (b : Mach), b = (s.m.tick t).benchTick →
    b.bench.upd.attNonce = some nonce → b.bench.upd.attFor = some (sess, num) → mailFree b = true →
    Completes (.attestReady t) s (fun m => m.bench.upd.report = b.attestReport nonce ∧ m.bench.upd.attNonce = none ∧
      m.bench.upd.att = { serial := b.bench.upd.att.serial + 1, ready := true } ∧
      m.bench.upd.attLen = satOf 16 (b.attestReport nonce).length ∧
      Replied sess num 0x15 .ok (beBytes 2 (b.attestReport nonce).length) m ∧ OnlyBench b m)) ∧
  (∀ (s : State) (t : Nat) (b : Mach), b = (s.m.tick t).benchTick → b.bench.upd.attNonce = none → Becomes (.attestReady t) s b) ∧
  (∀ (s : State) (via : UpdVia) (sess : Sess) (num : W32) (off len t : Nat) (b : Mach), b = (s.m.tick t).benchTick → (sess, num) = updFrom via → mayAsk s t via (.attRead off len) b = true →
    1 ≤ len → len ≤ 1024 → off + len ≤ b.bench.upd.report.length →
    Completes (.attRead via off len t) s (fun m => Replied sess num 0x16 .ok ((b.bench.upd.report.drop off).take len) m ∧
      m.bench.upd.report = b.bench.upd.report ∧ OnlyBench b m)) ∧
  (∀ (s : State) (via : UpdVia) (sess : Sess) (num : W32) (off len t : Nat) (b : Mach), b = (s.m.tick t).benchTick → (sess, num) = updFrom via → mayAsk s t via (.attRead off len) b = true →
    (len = 0 ∨ 1024 < len) → Completes (.attRead via off len t) s (fun m => Replied sess num 0x16 .lenErr [] m ∧ OnlyBench b m)) ∧
  (∀ (s : State) (via : UpdVia) (sess : Sess) (num : W32) (off len t : Nat) (b : Mach), b = (s.m.tick t).benchTick → (sess, num) = updFrom via → mayAsk s t via (.attRead off len) b = true →
    1 ≤ len → len ≤ 1024 → b.bench.upd.report.length < off + len →
    Completes (.attRead via off len t) s (fun m => Replied sess num 0x16 .addrErr [] m ∧ OnlyBench b m))

/-- R457 to R467, R472, R473: the update session and the ends of a trial. The model's choices that it names stand in
logs 71, 121. -/
def Obligations.UpdateSession : Prop :=
  (∀ (s : State) (via : UpdVia) (sess : Sess) (num : W32) (k : SetKind) (mlen t : Nat) (i : SlotId) (b : Mach), b = (s.m.tick t).benchTick → (sess, num) = updFrom via → mayAsk s t via (.updOpen (BitVec.ofNat 8 (kindCode k)) mlen) b = true →
    b.bench.upd.opened = false → k ≠ .enrolment → i = b.bench.upd.target k → b.bench.upd.onTrial k = false →
    16736 ≤ mlen → mlen ≤ 17696 →
    Completes (.updOpen via (BitVec.ofNat 8 (kindCode k)) mlen t) s (fun m =>
      (m.bench.upd.state, m.bench.upd.kind, m.bench.upd.slot, m.bench.upd.mlen, m.bench.upd.reqAt) =
        (1, some k, i, mlen, max s.m.now t) ∧
      m.bench.upd.slotOf k i = { state := .loading } ∧
      m.bench.upd.slotOf k (otherSlot i) = b.bench.upd.slotOf k (otherSlot i) ∧ m.bench.upd.blocks = [] ∧
      m.bench.upd.manifestOk = false ∧ m.bench.upd.enrol = b.bench.upd.enrol ∧
      Replied sess num 0x10 .ok [if i = .b then 1 else 0, 0] m ∧ OnlyBench b m)) ∧
  (∀ (s : State) (via : UpdVia) (sess : Sess) (num : W32) (mlen t : Nat) (b : Mach), b = (s.m.tick t).benchTick → (sess, num) = updFrom via → mayAsk s t via (.updOpen 3 mlen) b = true →
    b.bench.upd.opened = false → 16736 ≤ mlen → mlen ≤ 17696 →
    Completes (.updOpen via 3 mlen t) s (fun m => m.bench.upd.state = 1 ∧ m.bench.upd.kind = some .enrolment ∧
      m.bench.upd.enrol = none ∧ m.bench.upd.fwA = b.bench.upd.fwA ∧ m.bench.upd.fwB = b.bench.upd.fwB ∧
      m.bench.upd.sdA = b.bench.upd.sdA ∧ m.bench.upd.sdB = b.bench.upd.sdB ∧ Replied sess num 0x10 .ok [0, 0] m)) ∧
  (∀ (s : State) (via : UpdVia) (sess : Sess) (num : W32) (kind : Byte) (mlen t : Nat) (b : Mach), b = (s.m.tick t).benchTick → (sess, num) = updFrom via → mayAsk s t via (.updOpen kind mlen) b = true →
    (b.bench.upd.opened = true ∨ kindOf kind = none) →
    Completes (.updOpen via kind mlen t) s (fun m =>
      { m.bench.upd with reqAt := b.bench.upd.reqAt, result := b.bench.upd.result } = b.bench.upd ∧ m.bench.upd.result = 0x0C ∧
      Replied sess num 0x10 .ok [0, 0x0C] m ∧ OnlyBench b m)) ∧
  (∀ (s : State) (via : UpdVia) (sess : Sess) (num : W32) (kind : Byte) (mlen t : Nat) (b : Mach), b = (s.m.tick t).benchTick → (sess, num) = updFrom via → mayAsk s t via (.updOpen kind mlen) b = true →
    b.bench.upd.opened = false → (kindOf kind).isSome = true → (mlen < 16736 ∨ 17696 < mlen) →
    Completes (.updOpen via kind mlen t) s (fun m =>
      m.bench.upd = { b.bench.upd with result := 0x06 } ∧ Replied sess num 0x10 .ok [0, 0x06] m)) ∧
  (∀ (s : State) (via : UpdVia) (sess : Sess) (num : W32) (off t : Nat) (data : List Byte) (k : SetKind) (b : Mach), b = (s.m.tick t).benchTick →
    (sess, num) = updFrom via → mayAsk s t via (.block off none data (crc32 data) true) b = true → b.bench.upd.owned sess = true → b.bench.upd.state ≠ 3 → b.bench.upd.kind = some k →
    b.bench.upd.manifestOk = true → off % 4096 = 0 → off < b.bench.upd.len → data.length = min 4096 (b.bench.upd.len - off) →
    assocGet off b.bench.upd.blocks = none →
    Completes (.updBlock via off none data (crc32 data) true t) s (fun m => m.bench.upd = { b.bench.upd with
        blocks := assocSet off data b.bench.upd.blocks, bytes := b.bench.upd.bytes + data.length
        reqAt := max s.m.now t, result := 0 } ∧
      Replied sess num 0x11 .ok [0] m ∧ OnlyBench b m)) ∧
  (∀ (s : State) (via : UpdVia) (sess : Sess) (num : W32) (off t : Nat) (data : List Byte) (crc : W32) (ok : Bool) (k : SetKind) (b : Mach),
    b = (s.m.tick t).benchTick → (sess, num) = updFrom via → mayAsk s t via (.block off none data crc ok) b = true → b.bench.upd.owned sess = true → b.bench.upd.state ≠ 3 →
    b.bench.upd.kind = some k → b.bench.upd.manifestOk = true → off % 4096 = 0 → off < b.bench.upd.len →
    data.length = min 4096 (b.bench.upd.len - off) → crc ≠ crc32 data →
    Completes (.updBlock via off none data crc ok t) s (fun m => m.bench.upd.blocks = b.bench.upd.blocks ∧
      m.bench.upd.result = 7 ∧ m.bench.upd.state = b.bench.upd.state ∧ Replied sess num 0x11 .ok [7] m ∧ OnlyBench b m)) ∧
  (∀ (s : State) (via : UpdVia) (sess : Sess) (num : W32) (off t : Nat) (data old : List Byte) (k : SetKind) (b : Mach), b = (s.m.tick t).benchTick →
    (sess, num) = updFrom via → mayAsk s t via (.block off none data (crc32 data) true) b = true → b.bench.upd.owned sess = true → b.bench.upd.state ≠ 3 → b.bench.upd.kind = some k →
    b.bench.upd.manifestOk = true → off % 4096 = 0 → off < b.bench.upd.len → data.length = min 4096 (b.bench.upd.len - off) →
    assocGet off b.bench.upd.blocks = some old →
    Completes (.updBlock via off none data (crc32 data) true t) s (fun m => m.bench.upd.blocks = b.bench.upd.blocks ∧
      Replied sess num 0x11 .ok [if old = data then 0 else 8] m)) ∧
  (∀ (s : State) (via : UpdVia) (sess : Sess) (num : W32) (off t : Nat) (data : List Byte) (k : SetKind) (b : Mach), b = (s.m.tick t).benchTick →
    (sess, num) = updFrom via → mayAsk s t via (.block off none data (crc32 data) false) b = true → b.bench.upd.owned sess = true → b.bench.upd.state ≠ 3 → b.bench.upd.kind = some k →
    b.bench.upd.manifestOk = true → off % 4096 = 0 → off < b.bench.upd.len → data.length = min 4096 (b.bench.upd.len - off) →
    assocGet off b.bench.upd.blocks = none →
    Completes (.updBlock via off none data (crc32 data) false t) s (fun m => m.bench.upd.blocks = b.bench.upd.blocks ∧
      m.bench.upd.result = 0x0B ∧ Replied sess num 0x11 .ok [0x0B] m)) ∧
  (∀ (s : State) (via : UpdVia) (sess : Sess) (num : W32) (off t : Nat) (data : List Byte) (crc : W32) (ok : Bool) (b : Mach), b = (s.m.tick t).benchTick →
    (sess, num) = updFrom via → mayAsk s t via (.block off none data crc ok) b = true → b.bench.upd.owned sess = false →
    Completes (.updBlock via off none data crc ok t) s (fun m =>
      m.bench.upd = { b.bench.upd with result := 0x0C } ∧ Replied sess num 0x11 .ok [0x0C] m)) ∧
  (∀ (s : State) (h : MntHead) (n : Nat) (num : W32) (off t : Nat) (p : BlockPart) (data : List Byte) (crc : W32) (ok : Bool) (b : Mach),
    b = (s.m.tick t).benchTick → mayAsk s t (.mnt h n num) (.block off (some p) data crc ok) b = true → b.bench.upd.owned (.mnt n) = true → p.len ≤ 4096 → p.part < 4 →
    1 ≤ data.length → data.length = min 1024 (p.len - 1024 * p.part) → 1024 < p.len → b.bench.upd.parts = [] →
    Completes (.updBlock (.mnt h n num) off (some p) data crc ok t) s (fun m => m.bench.upd.parts = [(off, p, data)] ∧
      m.bench.upd.blocks = b.bench.upd.blocks ∧ m.bench.upd.result = 0 ∧ Replied (.mnt n) num 0x11 .ok [0] m ∧ OnlyBench b m)) ∧
  (∀ (s : State) (h : MntHead) (n : Nat) (num : W32) (off t : Nat) (data : List Byte) (crc : W32) (ok : Bool) (b : Mach),
    b = (s.m.tick t).benchTick → mayAsk s t (.mnt h n num) (.block off (some ⟨0, data.length⟩) data crc ok) b = true → b.bench.upd.owned (.mnt n) = true →
    1 ≤ data.length → data.length ≤ 1024 → b.bench.upd.parts = [] →
    exec (.updBlock (.mnt h n num) off (some ⟨0, data.length⟩) data crc ok t) s =
      exec (.updBlock (.mnt h n num) off none data crc ok t) s) ∧
  (∀ (m : Mach) (k : SetKind), (m.checkManifest k).2.bench.upd.state =
    (if (m.manifestFault k m.bench.upd.mlen (m.bench.upd.image m.bench.upd.mlen)).isSome then 5 else 2)) ∧
  (∀ (s : State) (via : UpdVia) (sess : Sess) (num : W32) (t : Nat) (b : Mach), b = (s.m.tick t).benchTick → (sess, num) = updFrom via → mayAsk s t via .verify b = true →
    b.bench.upd.owned sess = true → b.bench.upd.state = 2 →
    Completes (.updVerify via t) s (fun m => m.bench.upd.state = 3 ∧ m.bench.upd.verifyFor = some (sess, num) ∧
      m.bench.upd.blocks = b.bench.upd.blocks ∧ m.bench.host.mailbox = b.bench.host.mailbox ∧ OnlyBench b m)) ∧
  (∀ (s : State) (via : UpdVia) (sess : Sess) (num : W32) (t : Nat) (b : Mach), b = (s.m.tick t).benchTick → (sess, num) = updFrom via → mayAsk s t via .verify b = true →
    (b.bench.upd.owned sess = false ∨ b.bench.upd.state ≠ 2) →
    Completes (.updVerify via t) s (fun m => m.bench.upd.state = b.bench.upd.state ∧ m.bench.upd.result = 0x0C ∧ Replied sess num 0x12 .ok [0x0C, 0] m)) ∧
  (∀ (s : State) (sess : Sess) (num : W32) (ops : List EnrolOp) (t : Nat) (k : SetKind) (b : Mach), b = (s.m.tick t).benchTick →
    b.benchServes = true → b.bench.upd.state = 3 → b.bench.upd.kind = some k → k ≠ .enrolment → b.mod.mode ≠ .config →
    b.bench.upd.badComponent (decodeManifest (b.bench.upd.image b.bench.upd.mlen)) = none → b.bench.upd.missing b.bench.upd.len = none →
    b.bench.upd.verifyFor = some (sess, num) → mailFree b = true →
    Completes (.verifyComplete ops t) s (fun m => m.bench.upd.state = 4 ∧
      m.bench.upd.slotOf k b.bench.upd.slot = { b.bench.upd.slotOf k b.bench.upd.slot with state := .verified } ∧
      m.bench.upd.slotOf k (otherSlot b.bench.upd.slot) = b.bench.upd.slotOf k (otherSlot b.bench.upd.slot) ∧
      m.bench.upd.blocks = [] ∧ Replied sess num 0x12 .ok [0, 0] m ∧ OnlyBench b m)) ∧
  (∀ (s : State) (sess : Sess) (num : W32) (ops : List EnrolOp) (t o : Nat) (k : SetKind) (b : Mach), b = (s.m.tick t).benchTick →
    b.benchServes = true → b.bench.upd.state = 3 → b.bench.upd.kind = some k → k ≠ .enrolment →
    b.bench.upd.badComponent (decodeManifest (b.bench.upd.image b.bench.upd.mlen)) = none → b.bench.upd.missing b.bench.upd.len = some o →
    b.bench.upd.verifyFor = some (sess, num) → mailFree b = true →
    Completes (.verifyComplete ops t) s (fun m => m.bench.upd.state = 5 ∧ m.bench.upd.result = 9 ∧
      m.bench.upd.slotOf k b.bench.upd.slot = {} ∧ Replied sess num 0x12 .ok [9, 0] m ∧ OnlyBench b m)) ∧
  (∀ (s : State) (ops : List EnrolOp) (t : Nat) (b : Mach), b = (s.m.tick t).benchTick →
    b.benchServes = true → b.bench.upd.state = 3 → b.bench.upd.kind = some .enrolment → b.configIdle = false →
    b.bench.upd.badComponent (decodeManifest (b.bench.upd.image b.bench.upd.mlen)) = none → b.bench.upd.missing b.bench.upd.len = none →
    Completes (.verifyComplete ops t) s (fun m =>
      (m.bench.upd.state, m.bench.upd.enrol) = (if enrolAllowed b.bench.upd ops then (4, some ops) else (5, none)) ∧
      m.bench.upd.keysFilled = b.bench.upd.keysFilled ∧ m.bench.upd.keysRetired = b.bench.upd.keysRetired)) ∧
  (∀ (s : State) (ops : List EnrolOp) (t : Nat) (b : Mach), b = (s.m.tick t).benchTick → b.bench.upd.state ≠ 3 →
    Becomes (.verifyComplete ops t) s b) ∧
  (∀ (s : State) (via : UpdVia) (sess : Sess) (num : W32) (t : Nat) (k : SetKind) (b : Mach), b = (s.m.tick t).benchTick → (sess, num) = updFrom via → mayAsk s t via .abort b = true →
    b.bench.upd.owned sess = true → b.bench.upd.kind = some k → k ≠ .enrolment →
    Completes (.updAbort via t) s (fun m => m.bench.upd.state = 0 ∧ m.bench.upd.slotOf k b.bench.upd.slot = {} ∧
      m.bench.upd.slotOf k (otherSlot b.bench.upd.slot) = b.bench.upd.slotOf k (otherSlot b.bench.upd.slot) ∧
      m.bench.upd.blocks = [] ∧ Replied sess num 0x13 .ok [] m ∧ OnlyBench b m)) ∧
  (∀ (s : State) (via : UpdVia) (sess : Sess) (num : W32) (t : Nat) (b : Mach), b = (s.m.tick t).benchTick → (sess, num) = updFrom via → mayAsk s t via .abort b = true → b.bench.upd.owned sess = false →
    Completes (.updAbort via t) s (fun m => m.bench.upd = b.bench.upd ∧ Replied sess num 0x13 .ok [] m)) ∧
  (∀ (s : State) (via : UpdVia) (sess : Sess) (num : W32) (t : Nat) (b : Mach), b = (s.m.tick t).benchTick → (sess, num) = updFrom via → mayAsk s t via .updStatus b = true →
    Completes (.updStatus via t) s (fun m => Replied sess num 0x14 .ok
        (if b.bench.upd.owned sess then b.updUpd (fun u => { u with reqAt := max s.m.now t }) else b).updStatusBytes m ∧
      { m.bench.upd with reqAt := b.bench.upd.reqAt } = b.bench.upd ∧
      m.bench.upd.reqAt = (if b.bench.upd.owned sess then max s.m.now t else b.bench.upd.reqAt) ∧ OnlyBench b m)) ∧
  (∀ (s : State) (t : Nat) (k : SetKind) (b : Mach), b = (s.m.tick t).benchTick → b.bench.upd.opened = true →
    b.bench.upd.reqAt + 600000000000 ≤ max s.m.now t → b.bench.upd.kind = some k → k ≠ .enrolment →
    Completes (.updateSessionIdle t) s (fun m => m.bench.upd.state = 0 ∧ m.bench.upd.slotOf k b.bench.upd.slot = {} ∧
      m.bench.upd.result = b.bench.upd.result ∧ OnlyBench b m)) ∧
  (∀ (s : State) (t : Nat) (b : Mach), b = (s.m.tick t).benchTick →
    (b.bench.upd.opened = false ∨ max s.m.now t < b.bench.upd.reqAt + 600000000000) → Becomes (.updateSessionIdle t) s b) ∧
  (∀ (s : State) (t c : Nat) (b : Mach), b = (s.m.tick t).benchTick → b.bench.upd.trial.isSome = true →
    b.bench.upd.serviceFrom = some c → c + 600000000000 ≤ max s.m.now t →
    Completes (.trialCommit t) s (fun m => m.bench.upd.trial = none ∧ m.bench.upd.onTrial .firmware = false ∧
      m.bench.upd.onTrial .stationData = false ∧ m.bench.upd.running .firmware = b.bench.upd.running .firmware ∧
      m.bench.upd.fallbacks = b.bench.upd.fallbacks ∧ m.mod = b.mod)) ∧
  (∀ (s : State) (t : Nat) (b : Mach), b = (s.m.tick t).benchTick →
    (b.bench.upd.trial = none ∨ b.bench.upd.serviceFrom.all (fun c => decide (max s.m.now t < c + 600000000000)) = true) →
    Becomes (.trialCommit t) s b) ∧
  (∀ (s : State) (t c : Nat) (i : SlotId) (b : Mach), b = (s.m.tick t).benchTick → b.bench.upd.trial = some .firmware →
    b.bench.upd.find .firmware (fun q => q == .trial) = some i → b.bench.upd.phase ≠ 6 → b.bench.upd.trialFrom = some c →
    c + 60000000000 ≤ max s.m.now t → b.mod.mode = .service →
    Completes (.trialServiceTimeout t) s (fun m => m.bench.upd.lastCause = 2 ∧
      m.bench.upd.fallbacks = satInc b.bench.upd.fallbacks ∧ m.bench.upd.slotOf .firmware i = {} ∧ m.mod.mode = b.mod.mode ∧
      m.bench.upd.rollBack = true ∧ m.bench.upd.rollAt = some (b.cycleNo + 1) ∧ m.sd = b.sd)) ∧
  (∀ (s : State) (t : Nat) (b : Mach), b = (s.m.tick t).benchTick →
    (b.bench.upd.trial = none ∨ b.bench.upd.trialFrom.all (fun c => decide (max s.m.now t < c + 60000000000)) = true) →
    Becomes (.trialServiceTimeout t) s b)

/-- R45, R46: the rules of the common header that concern the sessions. The model's choices that it names stand in log
121. -/
def Obligations.RegisterSpaceRules : Prop :=
  (∀ (s : State) (via : Via) (sess : Sess) (p : Page) (index : W16) (t : Nat) (b : Mach), b = (s.m.tick t).benchTick → sess = viaSess via →
    mayWrite s t via (regOf p.path 0x018) [index.setWidth 32] false b = true → p.count b ≤ index.toNat →
    Completes (.chanSelWrite via (regOf p.path 0) index t) s (fun m => Answered sess .addrErr m ∧
      (m.session sess).map (fun x => x.sel p) = some (((b.session sess).getD {}).sel p) ∧ OnlyBench b m)) ∧
  (∀ (s : State) (via : Via) (sess : Sess) (p : Page) (mask v : W32) (t : Nat) (b : Mach), b = (s.m.tick t).benchTick → sess = viaSess via →
    mayWrite s t via (regOf p.path 0x014) [mask, v] false b = true → p.count b ≤ v.toNat % 2 ^ 16 →
    Completes (.registerWrite via (regOf p.path 0x014) [mask, v] t) s (fun m => Answered sess .addrErr m ∧
      (m.session sess).map (fun x => x.sel p) = some (((b.session sess).getD {}).sel p) ∧ OnlyBench b m)) ∧
  (∀ (s : State) (via : Via) (sess : Sess) (a v : W32) (t : Nat) (b : Mach), b = (s.m.tick t).benchTick → sess = viaSess via →
    mayWrite s t via a [v] false b = true → b.place a = .absent → inMailbox a = false → addrOk sess a 1 = true → addrOffset a = 0x018 →
    Completes (.registerWrite via a [v] t) s (fun m => Answered sess .addrErr m ∧
      (m.session sess).map (fun x => x.chan) = some ((b.session sess).getD {}).chan)) ∧
  (∀ (m : Mach) (x y : Session) (p : Page), p.isGroup = false → p.readWord m x 0x010 = p.readWord m y 0x010) ∧
  (∀ (s : State) (via : Via) (sess : Sess) (p : Page) (bits : W32) (t : Nat) (b : Mach), b = (s.m.tick t).benchTick → sess = viaSess via →
    mayWrite s t via (regOf p.path 0x010) [bits] false b = true → b.bench.host.closedByTimeout = false →
    Completes (.irqStatClear via (regOf p.path 0) bits t) s (fun m => Answered sess .ok m ∧
      (∀ (x : Session) (k : Nat), bits.getLsbD k = true → (p.isGroup = true → 8 ≤ k) →
        (p.readWord m x 0x010).getLsbD k = false) ∧
      (∀ q, q ≠ p.no → memRead 0 m.irq q = memRead 0 b.irq q) ∧
      (∀ k, k < 32 → bits.getLsbD k = false → (memRead 0 m.irq p.no).getLsbD k = (memRead 0 b.irq p.no).getLsbD k) ∧
      OnlyBench b m))

/-- The step over the queue. That the block idles with none waiting is the model's choice (log 2). -/
def Obligations.StepRunsFront : Prop :=
  (∀ (c : Instr) (s : State), step { s with pending := c :: s.pending } = exec c s) ∧
  (∀ (c : Instr) (rest : List Instr) (s : State), s.pending = c :: rest → step s = exec c { s with pending := rest }) ∧
  (∀ (s : State), s.pending = [] → step s = .next s)

/-- R390, R397, R399: the machine right after reset. -/
def Obligations.ResetState : Prop :=
  State.reset.pending = [] ∧
  Unpowered State.reset.m ∧
  (State.reset.m.irq = [] ∧ State.reset.m.bench.test.token0 = none ∧ State.reset.m.bench.test.token1 = none) ∧
  (State.reset.m.bench.host.host = none ∧ State.reset.m.bench.mnt.sessions = []) ∧
  canonical State.reset.m = true

/-- R409: every step completes, and HALT is left only without power. -/
def Obligations.EveryStep : Prop :=
  (∀ (c : Instr) (s : State), ∃ t, exec c s = .next t ∧ t.pending = s.pending ∧ HaltHeld s.m t.m) ∧
  (∀ (s : State) (c : Instr) (rest : List Instr), s.pending = c :: rest →
    ∃ t, step s = .next t ∧ t.pending = rest ∧ HaltHeld s.m t.m)

/-- Every step keeps the canonical form of the memories. -/
def Obligations.CanonicalMemories : Prop :=
  (∀ (s t : State), canonical s.m = true → step s = .next t → canonical t.m = true)
end

