-- ==== Sys2Proof/Laws/Frames.lean ====
section
/-! SUPPORT. A frame that was sealed with its CRC passes its check. -/

namespace Sys2Proof.Machine

theorem imageWords_crc (f : ImageFrame) (c : W32) : imageWords { f with crc := c } = imageWords f := by
  simp only [imageWords]

theorem imageCrcOk_iff (f : ImageFrame) : imageCrcOk f = true ↔ f.crc = exchangeCrc (imageWords f) := beq_iff_eq

theorem imageCrcOk_sealImage (f : ImageFrame) : imageCrcOk (sealImage f) = true :=
  (imageCrcOk_iff _).2 (congrArg exchangeCrc (imageWords_crc f _).symm)

theorem presenceCrcOk_sealPresence (f : PresenceFrame) : presenceCrcOk (sealPresence f) = true := beq_self_eq_true _

theorem statusIntact_sealStatus (f : StatusFrame) : pairIntact (.status (sealStatus f)) = true := beq_self_eq_true _

theorem mirrorIntact_sealMirror (f : MirrorFrame) : pairIntact (.mirror (sealMirror f)) = true := beq_self_eq_true _

end Sys2Proof.Machine
end

