-- ==== Sys2Proof/Laws/Mem.lean ====
section
/-! SUPPORT. The sparse memories: a read after a write, and the canonical form kept by every memory operation. -/

namespace Sys2Proof.Machine

variable {w : Nat}

/-- Below the first listed address every read is the default. -/
theorem memRead_below (d : BitVec w) (m : Mem w) (lo a : Nat) (h : memWfFrom d lo m = true) (ha : a < lo) :
    memRead d m a = d := by
  induction m generalizing lo with
  | nil => rfl
  | cons p r ih =>
    obtain ⟨b, x⟩ := p
    simp only [memWfFrom, Bool.and_eq_true, decide_eq_true_eq] at h
    have hb : b ≠ a := by omega
    simp only [memRead, if_neg hb]
    exact ih (b + 1) h.2 (by omega)

theorem memWfFrom_mono (d : BitVec w) (m : Mem w) (lo hi : Nat) (h : memWfFrom d hi m = true) (hl : lo ≤ hi) :
    memWfFrom d lo m = true := by
  cases m with
  | nil => rfl
  | cons p r =>
    obtain ⟨b, x⟩ := p
    simp only [memWfFrom, Bool.and_eq_true, decide_eq_true_eq] at h ⊢
    exact ⟨⟨by omega, h.1.2⟩, h.2⟩

@[simp] theorem memRead_memPut_same (d : BitVec w) (a : Nat) (v : BitVec w) (m : Mem w) : memRead d (memPut a v m) a = v := by
  induction m with
  | nil => simp [memPut, memRead]
  | cons p r ih =>
    obtain ⟨b, x⟩ := p
    unfold memPut
    split
    · rename_i hlt
      have : b ≠ a := by omega
      simp only [memRead, if_neg this, ih]
    · split <;> simp [memRead]

theorem memRead_memPut_of_ne (d : BitVec w) (a c : Nat) (v : BitVec w) (m : Mem w) (h : c ≠ a) :
    memRead d (memPut a v m) c = memRead d m c := by
  have hac : a ≠ c := fun e => h e.symm
  induction m with
  | nil => simp [memPut, memRead, hac]
  | cons p r ih =>
    obtain ⟨b, x⟩ := p
    unfold memPut
    split
    · simp only [memRead, ih]
    · split
      · rename_i he
        simp [memRead, he, hac]
      · simp only [memRead, if_neg hac]

theorem memRead_filter_same (d : BitVec w) (a : Nat) (m : Mem w) : memRead d (m.filter (fun p => p.1 != a)) a = d := by
  induction m with
  | nil => rfl
  | cons p r ih =>
    obtain ⟨b, x⟩ := p
    by_cases hb : b = a
    · simp [hb, ih]
    · simp [hb, memRead, ih]

theorem memRead_filter_of_ne (d : BitVec w) (a c : Nat) (m : Mem w) (h : c ≠ a) :
    memRead d (m.filter (fun p => p.1 != a)) c = memRead d m c := by
  induction m with
  | nil => rfl
  | cons p r ih =>
    obtain ⟨b, x⟩ := p
    by_cases hb : b = a
    · have : a ≠ c := fun e => h e.symm
      simp [hb, memRead, this, ih]
    · simp [hb, memRead, ih]

/-- A read of the word just written. -/
@[simp] theorem memRead_memWrite_same (d : BitVec w) (a : Nat) (v : BitVec w) (m : Mem w) : memRead d (memWrite d a v m) a = v := by
  unfold memWrite
  split
  · rename_i hv
    rw [memRead_filter_same, hv]
  · exact memRead_memPut_same d a v m

/-- A write leaves every other word alone. -/
theorem memRead_memWrite_of_ne (d : BitVec w) (a c : Nat) (v : BitVec w) (m : Mem w) (h : c ≠ a) :
    memRead d (memWrite d a v m) c = memRead d m c := by
  unfold memWrite
  split
  · exact memRead_filter_of_ne d a c m h
  · exact memRead_memPut_of_ne d a c v m h

theorem memWfFrom_filter (d : BitVec w) (p : Nat × BitVec w → Bool) (m : Mem w) (lo : Nat) (h : memWfFrom d lo m = true) :
    memWfFrom d lo (m.filter p) = true := by
  induction m generalizing lo with
  | nil => rfl
  | cons q r ih =>
    obtain ⟨b, x⟩ := q
    simp only [memWfFrom, Bool.and_eq_true, decide_eq_true_eq] at h
    by_cases hp : p (b, x)
    · simp only [List.filter_cons, hp, if_true, memWfFrom, Bool.and_eq_true, decide_eq_true_eq]
      exact ⟨h.1, ih (b + 1) h.2⟩
    · simp only [List.filter_cons, hp]
      exact ih lo (memWfFrom_mono d r lo (b + 1) h.2 (by omega))

theorem memWfFrom_memPut (d : BitVec w) (a : Nat) (v : BitVec w) (m : Mem w) (lo : Nat) (h : memWfFrom d lo m = true)
    (hl : lo ≤ a) (hv : v ≠ d) : memWfFrom d lo (memPut a v m) = true := by
  induction m generalizing lo with
  | nil => simp [memPut, memWfFrom, hl, hv]
  | cons p r ih =>
    obtain ⟨b, x⟩ := p
    simp only [memWfFrom, Bool.and_eq_true, decide_eq_true_eq] at h
    unfold memPut
    split
    · rename_i hlt
      simp only [memWfFrom, Bool.and_eq_true, decide_eq_true_eq]
      exact ⟨h.1, ih (b + 1) h.2 (by omega)⟩
    · split
      · rename_i he
        simp only [memWfFrom, Bool.and_eq_true, decide_eq_true_eq]
        exact ⟨⟨hl, hv⟩, by rw [← he]; exact h.2⟩
      · simp only [memWfFrom, Bool.and_eq_true, decide_eq_true_eq]
        exact ⟨⟨hl, hv⟩, ⟨by omega, h.1.2⟩, h.2⟩

theorem memWfFrom_memWrite (d : BitVec w) (a : Nat) (v : BitVec w) (m : Mem w) (lo : Nat) (h : memWfFrom d lo m = true)
    (hl : lo ≤ a) : memWfFrom d lo (memWrite d a v m) = true := by
  unfold memWrite
  split
  · exact memWfFrom_filter d _ m lo h
  · exact memWfFrom_memPut d a v m lo h hl ‹_›

/-- A write keeps the canonical form. -/
theorem memWf_memWrite (d : BitVec w) (a : Nat) (v : BitVec w) (m : Mem w) (h : memWf d m = true) :
    memWf d (memWrite d a v m) = true := memWfFrom_memWrite d a v m 0 h (Nat.zero_le a)

/-- So do several, and a memory made word by word has it. -/
theorem memWf_memWrites (d : BitVec w) (ws : List (Nat × BitVec w)) (m : Mem w) (h : memWf d m = true) :
    memWf d (memWrites d ws m) = true := by
  unfold memWrites
  induction ws generalizing m with
  | nil => exact h
  | cons p r ih => exact ih (memWrite d p.1 p.2 m) (memWf_memWrite d p.1 p.2 m h)

@[simp] theorem memWf_nil (d : BitVec w) : memWf d ([] : Mem w) = true := rfl

@[simp] theorem memWf_memBuild (d : BitVec w) (keys : List Nat) (f : Nat → BitVec w) : memWf d (memBuild d keys f) = true :=
  memWf_memWrites d _ [] rfl

theorem memWf_memSetBit (d : W32) (m : Mem 32) (n : Nat) (b : Bool) (h : memWf d m = true) :
    memWf d (memSetBit d m n b) = true := memWf_memWrite d _ _ m h

@[simp] theorem memWf_memOfBits (ns : List Nat) : memWf 0 (memOfBits ns) = true := by
  unfold memOfBits
  suffices ∀ m : Mem 32, memWf 0 m = true → memWf 0 (ns.foldl (fun m n => memSetBit 0 m n true) m) = true from this [] rfl
  induction ns with
  | nil => exact fun m h => h
  | cons n r ih => exact fun m h => ih _ (memWf_memSetBit 0 m n true h)

/-- Words taken out of a memory leave it canonical. -/
theorem memWf_filter (d : BitVec w) (p : Nat × BitVec w → Bool) (m : Mem w) (h : memWf d m = true) :
    memWf d (m.filter p) = true := memWfFrom_filter d p m 0 h

end Sys2Proof.Machine
end

