-- ==== Sys2Proof/Laws/State.lean ====
section
/-! SUPPORT. What each update of the module changes and what it leaves: one lemma per field, so that no proof unfolds a record
update; and how the lanes and the lists of channels read after an update. -/

namespace Sys2Proof.Machine

/-! ### A meaning -/

@[simp] theorem State.run_eq (f : Mach → Mach) (s : State) :
    s.run f = .next { s with m := s.m.supervise (f s.m) } := rfl

/-- Out of HALT the supply supervisor holds nothing. -/
theorem Mach.supervise_of_ne (old new : Mach) (h : old.mod.mode ≠ .halt) : old.supervise new = new := by
  unfold Mach.supervise
  rw [if_neg (fun c => h c.1)]

/-- A meaning that keeps the mode is untouched by the hold. -/
theorem Mach.supervise_of_eq (old new : Mach) (h : new.mod.mode = old.mod.mode) : old.supervise new = new := by
  unfold Mach.supervise
  split
  · rename_i c
    cases new with
    | mk => simp only at h ⊢; congr 1; rw [← c.1, ← h]
  · rfl

/-- HALT held: the mode stays for as long as there is power (R409). -/
theorem Mach.supervise_halt (old new : Mach) (h : old.mod.mode = .halt) (p : new.power.powered = true) :
    (old.supervise new).mod.mode = .halt := by
  unfold Mach.supervise
  rw [if_pos ⟨h, p⟩]

/-! ### tick -/

@[simp] theorem Mach.tick_now (t : Nat) (m : Mach) : (m.tick t).now = max m.now t := rfl
@[simp] theorem Mach.tick_mod (t : Nat) (m : Mach) : (m.tick t).mod = m.mod := rfl
@[simp] theorem Mach.tick_power (t : Nat) (m : Mach) : (m.tick t).power = m.power := rfl
@[simp] theorem Mach.tick_ident (t : Nat) (m : Mach) : (m.tick t).ident = m.ident := rfl
@[simp] theorem Mach.tick_sd (t : Nat) (m : Mach) : (m.tick t).sd = m.sd := rfl
@[simp] theorem Mach.tick_lanes (t : Nat) (m : Mach) : (m.tick t).lanes = m.lanes := rfl
@[simp] theorem Mach.tick_cal (t : Nat) (m : Mach) : (m.tick t).cal = m.cal := rfl
@[simp] theorem Mach.tick_field (t : Nat) (m : Mach) : (m.tick t).field = m.field := rfl
@[simp] theorem Mach.tick_ring1 (t : Nat) (m : Mach) : (m.tick t).ring1 = m.ring1 := rfl
@[simp] theorem Mach.tick_ring2 (t : Nat) (m : Mach) : (m.tick t).ring2 = m.ring2 := rfl
@[simp] theorem Mach.tick_jxt (t : Nat) (m : Mach) : (m.tick t).jxt = m.jxt := rfl
@[simp] theorem Mach.tick_can1 (t : Nat) (m : Mach) : (m.tick t).can1 = m.can1 := rfl
@[simp] theorem Mach.tick_can2 (t : Nat) (m : Mach) : (m.tick t).can2 = m.can2 := rfl
@[simp] theorem Mach.tick_pair (t : Nat) (m : Mach) : (m.tick t).pair = m.pair := rfl
@[simp] theorem Mach.tick_bench (t : Nat) (m : Mach) : (m.tick t).bench = m.bench := rfl
@[simp] theorem Mach.tick_irq (t : Nat) (m : Mach) : (m.tick t).irq = m.irq := rfl
@[simp] theorem Mach.tick_freeCtr (t : Nat) (m : Mach) : (m.tick t).freeCtr = m.freeCtr := rfl

/-! ### bumpFree -/

@[simp] theorem Mach.bumpFree_now (m : Mach) : (m.bumpFree).now = m.now := rfl
@[simp] theorem Mach.bumpFree_mod (m : Mach) : (m.bumpFree).mod = m.mod := rfl
@[simp] theorem Mach.bumpFree_power (m : Mach) : (m.bumpFree).power = m.power := rfl
@[simp] theorem Mach.bumpFree_ident (m : Mach) : (m.bumpFree).ident = m.ident := rfl
@[simp] theorem Mach.bumpFree_sd (m : Mach) : (m.bumpFree).sd = m.sd := rfl
@[simp] theorem Mach.bumpFree_lanes (m : Mach) : (m.bumpFree).lanes = m.lanes := rfl
@[simp] theorem Mach.bumpFree_cal (m : Mach) : (m.bumpFree).cal = m.cal := rfl
@[simp] theorem Mach.bumpFree_field (m : Mach) : (m.bumpFree).field = m.field := rfl
@[simp] theorem Mach.bumpFree_ring1 (m : Mach) : (m.bumpFree).ring1 = m.ring1 := rfl
@[simp] theorem Mach.bumpFree_ring2 (m : Mach) : (m.bumpFree).ring2 = m.ring2 := rfl
@[simp] theorem Mach.bumpFree_jxt (m : Mach) : (m.bumpFree).jxt = m.jxt := rfl
@[simp] theorem Mach.bumpFree_can1 (m : Mach) : (m.bumpFree).can1 = m.can1 := rfl
@[simp] theorem Mach.bumpFree_can2 (m : Mach) : (m.bumpFree).can2 = m.can2 := rfl
@[simp] theorem Mach.bumpFree_pair (m : Mach) : (m.bumpFree).pair = m.pair := rfl
@[simp] theorem Mach.bumpFree_bench (m : Mach) : (m.bumpFree).bench = m.bench := rfl
@[simp] theorem Mach.bumpFree_irq (m : Mach) : (m.bumpFree).irq = m.irq := rfl
@[simp] theorem Mach.bumpFree_freeCtr (m : Mach) : (m.bumpFree).freeCtr = m.freeCtr + 1 := rfl

/-! ### updLane -/

@[simp] theorem Mach.updLane_now (l : LaneId) (f : Lane → Lane) (m : Mach) : (m.updLane l f).now = m.now := rfl
@[simp] theorem Mach.updLane_mod (l : LaneId) (f : Lane → Lane) (m : Mach) : (m.updLane l f).mod = m.mod := rfl
@[simp] theorem Mach.updLane_power (l : LaneId) (f : Lane → Lane) (m : Mach) : (m.updLane l f).power = m.power := rfl
@[simp] theorem Mach.updLane_ident (l : LaneId) (f : Lane → Lane) (m : Mach) : (m.updLane l f).ident = m.ident := rfl
@[simp] theorem Mach.updLane_sd (l : LaneId) (f : Lane → Lane) (m : Mach) : (m.updLane l f).sd = m.sd := rfl
@[simp] theorem Mach.updLane_lanes (l : LaneId) (f : Lane → Lane) (m : Mach) : (m.updLane l f).lanes = m.lanes.upd l f := rfl
@[simp] theorem Mach.updLane_cal (l : LaneId) (f : Lane → Lane) (m : Mach) : (m.updLane l f).cal = m.cal := rfl
@[simp] theorem Mach.updLane_field (l : LaneId) (f : Lane → Lane) (m : Mach) : (m.updLane l f).field = m.field := rfl
@[simp] theorem Mach.updLane_ring1 (l : LaneId) (f : Lane → Lane) (m : Mach) : (m.updLane l f).ring1 = m.ring1 := rfl
@[simp] theorem Mach.updLane_ring2 (l : LaneId) (f : Lane → Lane) (m : Mach) : (m.updLane l f).ring2 = m.ring2 := rfl
@[simp] theorem Mach.updLane_jxt (l : LaneId) (f : Lane → Lane) (m : Mach) : (m.updLane l f).jxt = m.jxt := rfl
@[simp] theorem Mach.updLane_can1 (l : LaneId) (f : Lane → Lane) (m : Mach) : (m.updLane l f).can1 = m.can1 := rfl
@[simp] theorem Mach.updLane_can2 (l : LaneId) (f : Lane → Lane) (m : Mach) : (m.updLane l f).can2 = m.can2 := rfl
@[simp] theorem Mach.updLane_pair (l : LaneId) (f : Lane → Lane) (m : Mach) : (m.updLane l f).pair = m.pair := rfl
@[simp] theorem Mach.updLane_bench (l : LaneId) (f : Lane → Lane) (m : Mach) : (m.updLane l f).bench = m.bench := rfl
@[simp] theorem Mach.updLane_irq (l : LaneId) (f : Lane → Lane) (m : Mach) : (m.updLane l f).irq = m.irq := rfl
@[simp] theorem Mach.updLane_freeCtr (l : LaneId) (f : Lane → Lane) (m : Mach) : (m.updLane l f).freeCtr = m.freeCtr := rfl

/-! ### updLanes -/

@[simp] theorem Mach.updLanes_now (f : LaneId → Lane → Lane) (m : Mach) : (m.updLanes f).now = m.now := rfl
@[simp] theorem Mach.updLanes_mod (f : LaneId → Lane → Lane) (m : Mach) : (m.updLanes f).mod = m.mod := rfl
@[simp] theorem Mach.updLanes_power (f : LaneId → Lane → Lane) (m : Mach) : (m.updLanes f).power = m.power := rfl
@[simp] theorem Mach.updLanes_ident (f : LaneId → Lane → Lane) (m : Mach) : (m.updLanes f).ident = m.ident := rfl
@[simp] theorem Mach.updLanes_sd (f : LaneId → Lane → Lane) (m : Mach) : (m.updLanes f).sd = m.sd := rfl
@[simp] theorem Mach.updLanes_lanes (f : LaneId → Lane → Lane) (m : Mach) : (m.updLanes f).lanes = m.lanes.all f := rfl
@[simp] theorem Mach.updLanes_cal (f : LaneId → Lane → Lane) (m : Mach) : (m.updLanes f).cal = m.cal := rfl
@[simp] theorem Mach.updLanes_field (f : LaneId → Lane → Lane) (m : Mach) : (m.updLanes f).field = m.field := rfl
@[simp] theorem Mach.updLanes_ring1 (f : LaneId → Lane → Lane) (m : Mach) : (m.updLanes f).ring1 = m.ring1 := rfl
@[simp] theorem Mach.updLanes_ring2 (f : LaneId → Lane → Lane) (m : Mach) : (m.updLanes f).ring2 = m.ring2 := rfl
@[simp] theorem Mach.updLanes_jxt (f : LaneId → Lane → Lane) (m : Mach) : (m.updLanes f).jxt = m.jxt := rfl
@[simp] theorem Mach.updLanes_can1 (f : LaneId → Lane → Lane) (m : Mach) : (m.updLanes f).can1 = m.can1 := rfl
@[simp] theorem Mach.updLanes_can2 (f : LaneId → Lane → Lane) (m : Mach) : (m.updLanes f).can2 = m.can2 := rfl
@[simp] theorem Mach.updLanes_pair (f : LaneId → Lane → Lane) (m : Mach) : (m.updLanes f).pair = m.pair := rfl
@[simp] theorem Mach.updLanes_bench (f : LaneId → Lane → Lane) (m : Mach) : (m.updLanes f).bench = m.bench := rfl
@[simp] theorem Mach.updLanes_irq (f : LaneId → Lane → Lane) (m : Mach) : (m.updLanes f).irq = m.irq := rfl
@[simp] theorem Mach.updLanes_freeCtr (f : LaneId → Lane → Lane) (m : Mach) : (m.updLanes f).freeCtr = m.freeCtr := rfl

/-! ### updOdm -/

@[simp] theorem Mach.updOdm_now (f : DriveMon → DriveMon) (m : Mach) : (m.updOdm f).now = m.now := rfl
@[simp] theorem Mach.updOdm_mod (f : DriveMon → DriveMon) (m : Mach) : (m.updOdm f).mod = m.mod := rfl
@[simp] theorem Mach.updOdm_power (f : DriveMon → DriveMon) (m : Mach) : (m.updOdm f).power = m.power := rfl
@[simp] theorem Mach.updOdm_ident (f : DriveMon → DriveMon) (m : Mach) : (m.updOdm f).ident = m.ident := rfl
@[simp] theorem Mach.updOdm_sd (f : DriveMon → DriveMon) (m : Mach) : (m.updOdm f).sd = m.sd := rfl
@[simp] theorem Mach.updOdm_lanes (f : DriveMon → DriveMon) (m : Mach) : (m.updOdm f).lanes = m.lanes := rfl
@[simp] theorem Mach.updOdm_field (f : DriveMon → DriveMon) (m : Mach) : (m.updOdm f).field = m.field := rfl
@[simp] theorem Mach.updOdm_ring1 (f : DriveMon → DriveMon) (m : Mach) : (m.updOdm f).ring1 = m.ring1 := rfl
@[simp] theorem Mach.updOdm_ring2 (f : DriveMon → DriveMon) (m : Mach) : (m.updOdm f).ring2 = m.ring2 := rfl
@[simp] theorem Mach.updOdm_jxt (f : DriveMon → DriveMon) (m : Mach) : (m.updOdm f).jxt = m.jxt := rfl
@[simp] theorem Mach.updOdm_can1 (f : DriveMon → DriveMon) (m : Mach) : (m.updOdm f).can1 = m.can1 := rfl
@[simp] theorem Mach.updOdm_can2 (f : DriveMon → DriveMon) (m : Mach) : (m.updOdm f).can2 = m.can2 := rfl
@[simp] theorem Mach.updOdm_pair (f : DriveMon → DriveMon) (m : Mach) : (m.updOdm f).pair = m.pair := rfl
@[simp] theorem Mach.updOdm_bench (f : DriveMon → DriveMon) (m : Mach) : (m.updOdm f).bench = m.bench := rfl
@[simp] theorem Mach.updOdm_irq (f : DriveMon → DriveMon) (m : Mach) : (m.updOdm f).irq = m.irq := rfl
@[simp] theorem Mach.updOdm_freeCtr (f : DriveMon → DriveMon) (m : Mach) : (m.updOdm f).freeCtr = m.freeCtr := rfl

/-! ### updCsc -/

@[simp] theorem Mach.updCsc_now (f : SelfCheck → SelfCheck) (m : Mach) : (m.updCsc f).now = m.now := rfl
@[simp] theorem Mach.updCsc_mod (f : SelfCheck → SelfCheck) (m : Mach) : (m.updCsc f).mod = m.mod := rfl
@[simp] theorem Mach.updCsc_power (f : SelfCheck → SelfCheck) (m : Mach) : (m.updCsc f).power = m.power := rfl
@[simp] theorem Mach.updCsc_ident (f : SelfCheck → SelfCheck) (m : Mach) : (m.updCsc f).ident = m.ident := rfl
@[simp] theorem Mach.updCsc_sd (f : SelfCheck → SelfCheck) (m : Mach) : (m.updCsc f).sd = m.sd := rfl
@[simp] theorem Mach.updCsc_lanes (f : SelfCheck → SelfCheck) (m : Mach) : (m.updCsc f).lanes = m.lanes := rfl
@[simp] theorem Mach.updCsc_field (f : SelfCheck → SelfCheck) (m : Mach) : (m.updCsc f).field = m.field := rfl
@[simp] theorem Mach.updCsc_ring1 (f : SelfCheck → SelfCheck) (m : Mach) : (m.updCsc f).ring1 = m.ring1 := rfl
@[simp] theorem Mach.updCsc_ring2 (f : SelfCheck → SelfCheck) (m : Mach) : (m.updCsc f).ring2 = m.ring2 := rfl
@[simp] theorem Mach.updCsc_jxt (f : SelfCheck → SelfCheck) (m : Mach) : (m.updCsc f).jxt = m.jxt := rfl
@[simp] theorem Mach.updCsc_can1 (f : SelfCheck → SelfCheck) (m : Mach) : (m.updCsc f).can1 = m.can1 := rfl
@[simp] theorem Mach.updCsc_can2 (f : SelfCheck → SelfCheck) (m : Mach) : (m.updCsc f).can2 = m.can2 := rfl
@[simp] theorem Mach.updCsc_pair (f : SelfCheck → SelfCheck) (m : Mach) : (m.updCsc f).pair = m.pair := rfl
@[simp] theorem Mach.updCsc_bench (f : SelfCheck → SelfCheck) (m : Mach) : (m.updCsc f).bench = m.bench := rfl
@[simp] theorem Mach.updCsc_irq (f : SelfCheck → SelfCheck) (m : Mach) : (m.updCsc f).irq = m.irq := rfl
@[simp] theorem Mach.updCsc_freeCtr (f : SelfCheck → SelfCheck) (m : Mach) : (m.updCsc f).freeCtr = m.freeCtr := rfl

/-! ### updVote -/

@[simp] theorem Mach.updVote_now (f : Voter → Voter) (m : Mach) : (m.updVote f).now = m.now := rfl
@[simp] theorem Mach.updVote_mod (f : Voter → Voter) (m : Mach) : (m.updVote f).mod = m.mod := rfl
@[simp] theorem Mach.updVote_power (f : Voter → Voter) (m : Mach) : (m.updVote f).power = m.power := rfl
@[simp] theorem Mach.updVote_ident (f : Voter → Voter) (m : Mach) : (m.updVote f).ident = m.ident := rfl
@[simp] theorem Mach.updVote_sd (f : Voter → Voter) (m : Mach) : (m.updVote f).sd = m.sd := rfl
@[simp] theorem Mach.updVote_lanes (f : Voter → Voter) (m : Mach) : (m.updVote f).lanes = m.lanes := rfl
@[simp] theorem Mach.updVote_field (f : Voter → Voter) (m : Mach) : (m.updVote f).field = m.field := rfl
@[simp] theorem Mach.updVote_ring1 (f : Voter → Voter) (m : Mach) : (m.updVote f).ring1 = m.ring1 := rfl
@[simp] theorem Mach.updVote_ring2 (f : Voter → Voter) (m : Mach) : (m.updVote f).ring2 = m.ring2 := rfl
@[simp] theorem Mach.updVote_jxt (f : Voter → Voter) (m : Mach) : (m.updVote f).jxt = m.jxt := rfl
@[simp] theorem Mach.updVote_can1 (f : Voter → Voter) (m : Mach) : (m.updVote f).can1 = m.can1 := rfl
@[simp] theorem Mach.updVote_can2 (f : Voter → Voter) (m : Mach) : (m.updVote f).can2 = m.can2 := rfl
@[simp] theorem Mach.updVote_pair (f : Voter → Voter) (m : Mach) : (m.updVote f).pair = m.pair := rfl
@[simp] theorem Mach.updVote_bench (f : Voter → Voter) (m : Mach) : (m.updVote f).bench = m.bench := rfl
@[simp] theorem Mach.updVote_irq (f : Voter → Voter) (m : Mach) : (m.updVote f).irq = m.irq := rfl
@[simp] theorem Mach.updVote_freeCtr (f : Voter → Voter) (m : Mach) : (m.updVote f).freeCtr = m.freeCtr := rfl

/-! ### updField -/

@[simp] theorem Mach.updField_now (f : Field → Field) (m : Mach) : (m.updField f).now = m.now := rfl
@[simp] theorem Mach.updField_mod (f : Field → Field) (m : Mach) : (m.updField f).mod = m.mod := rfl
@[simp] theorem Mach.updField_power (f : Field → Field) (m : Mach) : (m.updField f).power = m.power := rfl
@[simp] theorem Mach.updField_ident (f : Field → Field) (m : Mach) : (m.updField f).ident = m.ident := rfl
@[simp] theorem Mach.updField_sd (f : Field → Field) (m : Mach) : (m.updField f).sd = m.sd := rfl
@[simp] theorem Mach.updField_lanes (f : Field → Field) (m : Mach) : (m.updField f).lanes = m.lanes := rfl
@[simp] theorem Mach.updField_cal (f : Field → Field) (m : Mach) : (m.updField f).cal = m.cal := rfl
@[simp] theorem Mach.updField_field (f : Field → Field) (m : Mach) : (m.updField f).field = f m.field := rfl
@[simp] theorem Mach.updField_ring1 (f : Field → Field) (m : Mach) : (m.updField f).ring1 = m.ring1 := rfl
@[simp] theorem Mach.updField_ring2 (f : Field → Field) (m : Mach) : (m.updField f).ring2 = m.ring2 := rfl
@[simp] theorem Mach.updField_jxt (f : Field → Field) (m : Mach) : (m.updField f).jxt = m.jxt := rfl
@[simp] theorem Mach.updField_can1 (f : Field → Field) (m : Mach) : (m.updField f).can1 = m.can1 := rfl
@[simp] theorem Mach.updField_can2 (f : Field → Field) (m : Mach) : (m.updField f).can2 = m.can2 := rfl
@[simp] theorem Mach.updField_pair (f : Field → Field) (m : Mach) : (m.updField f).pair = m.pair := rfl
@[simp] theorem Mach.updField_bench (f : Field → Field) (m : Mach) : (m.updField f).bench = m.bench := rfl
@[simp] theorem Mach.updField_irq (f : Field → Field) (m : Mach) : (m.updField f).irq = m.irq := rfl
@[simp] theorem Mach.updField_freeCtr (f : Field → Field) (m : Mach) : (m.updField f).freeCtr = m.freeCtr := rfl

/-! ### updMod -/

@[simp] theorem Mach.updMod_now (f : ModState → ModState) (m : Mach) : (m.updMod f).now = m.now := rfl
@[simp] theorem Mach.updMod_mod (f : ModState → ModState) (m : Mach) : (m.updMod f).mod = f m.mod := rfl
@[simp] theorem Mach.updMod_power (f : ModState → ModState) (m : Mach) : (m.updMod f).power = m.power := rfl
@[simp] theorem Mach.updMod_ident (f : ModState → ModState) (m : Mach) : (m.updMod f).ident = m.ident := rfl
@[simp] theorem Mach.updMod_sd (f : ModState → ModState) (m : Mach) : (m.updMod f).sd = m.sd := rfl
@[simp] theorem Mach.updMod_lanes (f : ModState → ModState) (m : Mach) : (m.updMod f).lanes = m.lanes := rfl
@[simp] theorem Mach.updMod_cal (f : ModState → ModState) (m : Mach) : (m.updMod f).cal = m.cal := rfl
@[simp] theorem Mach.updMod_field (f : ModState → ModState) (m : Mach) : (m.updMod f).field = m.field := rfl
@[simp] theorem Mach.updMod_ring1 (f : ModState → ModState) (m : Mach) : (m.updMod f).ring1 = m.ring1 := rfl
@[simp] theorem Mach.updMod_ring2 (f : ModState → ModState) (m : Mach) : (m.updMod f).ring2 = m.ring2 := rfl
@[simp] theorem Mach.updMod_jxt (f : ModState → ModState) (m : Mach) : (m.updMod f).jxt = m.jxt := rfl
@[simp] theorem Mach.updMod_can1 (f : ModState → ModState) (m : Mach) : (m.updMod f).can1 = m.can1 := rfl
@[simp] theorem Mach.updMod_can2 (f : ModState → ModState) (m : Mach) : (m.updMod f).can2 = m.can2 := rfl
@[simp] theorem Mach.updMod_pair (f : ModState → ModState) (m : Mach) : (m.updMod f).pair = m.pair := rfl
@[simp] theorem Mach.updMod_bench (f : ModState → ModState) (m : Mach) : (m.updMod f).bench = m.bench := rfl
@[simp] theorem Mach.updMod_irq (f : ModState → ModState) (m : Mach) : (m.updMod f).irq = m.irq := rfl
@[simp] theorem Mach.updMod_freeCtr (f : ModState → ModState) (m : Mach) : (m.updMod f).freeCtr = m.freeCtr := rfl

/-! ### updPair -/

@[simp] theorem Mach.updPair_now (f : PairState → PairState) (m : Mach) : (m.updPair f).now = m.now := rfl
@[simp] theorem Mach.updPair_mod (f : PairState → PairState) (m : Mach) : (m.updPair f).mod = m.mod := rfl
@[simp] theorem Mach.updPair_power (f : PairState → PairState) (m : Mach) : (m.updPair f).power = m.power := rfl
@[simp] theorem Mach.updPair_ident (f : PairState → PairState) (m : Mach) : (m.updPair f).ident = m.ident := rfl
@[simp] theorem Mach.updPair_sd (f : PairState → PairState) (m : Mach) : (m.updPair f).sd = m.sd := rfl
@[simp] theorem Mach.updPair_lanes (f : PairState → PairState) (m : Mach) : (m.updPair f).lanes = m.lanes := rfl
@[simp] theorem Mach.updPair_cal (f : PairState → PairState) (m : Mach) : (m.updPair f).cal = m.cal := rfl
@[simp] theorem Mach.updPair_field (f : PairState → PairState) (m : Mach) : (m.updPair f).field = m.field := rfl
@[simp] theorem Mach.updPair_ring1 (f : PairState → PairState) (m : Mach) : (m.updPair f).ring1 = m.ring1 := rfl
@[simp] theorem Mach.updPair_ring2 (f : PairState → PairState) (m : Mach) : (m.updPair f).ring2 = m.ring2 := rfl
@[simp] theorem Mach.updPair_jxt (f : PairState → PairState) (m : Mach) : (m.updPair f).jxt = m.jxt := rfl
@[simp] theorem Mach.updPair_can1 (f : PairState → PairState) (m : Mach) : (m.updPair f).can1 = m.can1 := rfl
@[simp] theorem Mach.updPair_can2 (f : PairState → PairState) (m : Mach) : (m.updPair f).can2 = m.can2 := rfl
@[simp] theorem Mach.updPair_pair (f : PairState → PairState) (m : Mach) : (m.updPair f).pair = f m.pair := rfl
@[simp] theorem Mach.updPair_bench (f : PairState → PairState) (m : Mach) : (m.updPair f).bench = m.bench := rfl
@[simp] theorem Mach.updPair_irq (f : PairState → PairState) (m : Mach) : (m.updPair f).irq = m.irq := rfl
@[simp] theorem Mach.updPair_freeCtr (f : PairState → PairState) (m : Mach) : (m.updPair f).freeCtr = m.freeCtr := rfl

/-! ### updPower -/

@[simp] theorem Mach.updPower_now (f : Power → Power) (m : Mach) : (m.updPower f).now = m.now := rfl
@[simp] theorem Mach.updPower_mod (f : Power → Power) (m : Mach) : (m.updPower f).mod = m.mod := rfl
@[simp] theorem Mach.updPower_power (f : Power → Power) (m : Mach) : (m.updPower f).power = f m.power := rfl
@[simp] theorem Mach.updPower_ident (f : Power → Power) (m : Mach) : (m.updPower f).ident = m.ident := rfl
@[simp] theorem Mach.updPower_sd (f : Power → Power) (m : Mach) : (m.updPower f).sd = m.sd := rfl
@[simp] theorem Mach.updPower_lanes (f : Power → Power) (m : Mach) : (m.updPower f).lanes = m.lanes := rfl
@[simp] theorem Mach.updPower_cal (f : Power → Power) (m : Mach) : (m.updPower f).cal = m.cal := rfl
@[simp] theorem Mach.updPower_field (f : Power → Power) (m : Mach) : (m.updPower f).field = m.field := rfl
@[simp] theorem Mach.updPower_ring1 (f : Power → Power) (m : Mach) : (m.updPower f).ring1 = m.ring1 := rfl
@[simp] theorem Mach.updPower_ring2 (f : Power → Power) (m : Mach) : (m.updPower f).ring2 = m.ring2 := rfl
@[simp] theorem Mach.updPower_jxt (f : Power → Power) (m : Mach) : (m.updPower f).jxt = m.jxt := rfl
@[simp] theorem Mach.updPower_can1 (f : Power → Power) (m : Mach) : (m.updPower f).can1 = m.can1 := rfl
@[simp] theorem Mach.updPower_can2 (f : Power → Power) (m : Mach) : (m.updPower f).can2 = m.can2 := rfl
@[simp] theorem Mach.updPower_pair (f : Power → Power) (m : Mach) : (m.updPower f).pair = m.pair := rfl
@[simp] theorem Mach.updPower_bench (f : Power → Power) (m : Mach) : (m.updPower f).bench = m.bench := rfl
@[simp] theorem Mach.updPower_irq (f : Power → Power) (m : Mach) : (m.updPower f).irq = m.irq := rfl
@[simp] theorem Mach.updPower_freeCtr (f : Power → Power) (m : Mach) : (m.updPower f).freeCtr = m.freeCtr := rfl

/-! ### updBench -/

@[simp] theorem Mach.updBench_now (f : Bench → Bench) (m : Mach) : (m.updBench f).now = m.now := rfl
@[simp] theorem Mach.updBench_mod (f : Bench → Bench) (m : Mach) : (m.updBench f).mod = m.mod := rfl
@[simp] theorem Mach.updBench_power (f : Bench → Bench) (m : Mach) : (m.updBench f).power = m.power := rfl
@[simp] theorem Mach.updBench_ident (f : Bench → Bench) (m : Mach) : (m.updBench f).ident = m.ident := rfl
@[simp] theorem Mach.updBench_sd (f : Bench → Bench) (m : Mach) : (m.updBench f).sd = m.sd := rfl
@[simp] theorem Mach.updBench_lanes (f : Bench → Bench) (m : Mach) : (m.updBench f).lanes = m.lanes := rfl
@[simp] theorem Mach.updBench_cal (f : Bench → Bench) (m : Mach) : (m.updBench f).cal = m.cal := rfl
@[simp] theorem Mach.updBench_field (f : Bench → Bench) (m : Mach) : (m.updBench f).field = m.field := rfl
@[simp] theorem Mach.updBench_ring1 (f : Bench → Bench) (m : Mach) : (m.updBench f).ring1 = m.ring1 := rfl
@[simp] theorem Mach.updBench_ring2 (f : Bench → Bench) (m : Mach) : (m.updBench f).ring2 = m.ring2 := rfl
@[simp] theorem Mach.updBench_jxt (f : Bench → Bench) (m : Mach) : (m.updBench f).jxt = m.jxt := rfl
@[simp] theorem Mach.updBench_can1 (f : Bench → Bench) (m : Mach) : (m.updBench f).can1 = m.can1 := rfl
@[simp] theorem Mach.updBench_can2 (f : Bench → Bench) (m : Mach) : (m.updBench f).can2 = m.can2 := rfl
@[simp] theorem Mach.updBench_pair (f : Bench → Bench) (m : Mach) : (m.updBench f).pair = m.pair := rfl
@[simp] theorem Mach.updBench_bench (f : Bench → Bench) (m : Mach) : (m.updBench f).bench = f m.bench := rfl
@[simp] theorem Mach.updBench_irq (f : Bench → Bench) (m : Mach) : (m.updBench f).irq = m.irq := rfl
@[simp] theorem Mach.updBench_freeCtr (f : Bench → Bench) (m : Mach) : (m.updBench f).freeCtr = m.freeCtr := rfl

/-! ### updUpd -/

@[simp] theorem Mach.updUpd_now (f : Update → Update) (m : Mach) : (m.updUpd f).now = m.now := rfl
@[simp] theorem Mach.updUpd_mod (f : Update → Update) (m : Mach) : (m.updUpd f).mod = m.mod := rfl
@[simp] theorem Mach.updUpd_power (f : Update → Update) (m : Mach) : (m.updUpd f).power = m.power := rfl
@[simp] theorem Mach.updUpd_ident (f : Update → Update) (m : Mach) : (m.updUpd f).ident = m.ident := rfl
@[simp] theorem Mach.updUpd_sd (f : Update → Update) (m : Mach) : (m.updUpd f).sd = m.sd := rfl
@[simp] theorem Mach.updUpd_lanes (f : Update → Update) (m : Mach) : (m.updUpd f).lanes = m.lanes := rfl
@[simp] theorem Mach.updUpd_cal (f : Update → Update) (m : Mach) : (m.updUpd f).cal = m.cal := rfl
@[simp] theorem Mach.updUpd_field (f : Update → Update) (m : Mach) : (m.updUpd f).field = m.field := rfl
@[simp] theorem Mach.updUpd_ring1 (f : Update → Update) (m : Mach) : (m.updUpd f).ring1 = m.ring1 := rfl
@[simp] theorem Mach.updUpd_ring2 (f : Update → Update) (m : Mach) : (m.updUpd f).ring2 = m.ring2 := rfl
@[simp] theorem Mach.updUpd_jxt (f : Update → Update) (m : Mach) : (m.updUpd f).jxt = m.jxt := rfl
@[simp] theorem Mach.updUpd_can1 (f : Update → Update) (m : Mach) : (m.updUpd f).can1 = m.can1 := rfl
@[simp] theorem Mach.updUpd_can2 (f : Update → Update) (m : Mach) : (m.updUpd f).can2 = m.can2 := rfl
@[simp] theorem Mach.updUpd_pair (f : Update → Update) (m : Mach) : (m.updUpd f).pair = m.pair := rfl
@[simp] theorem Mach.updUpd_irq (f : Update → Update) (m : Mach) : (m.updUpd f).irq = m.irq := rfl
@[simp] theorem Mach.updUpd_freeCtr (f : Update → Update) (m : Mach) : (m.updUpd f).freeCtr = m.freeCtr := rfl

/-! ### updConn -/

@[simp] theorem Mach.updConn_now (k : Nat) (f : JxtConn → JxtConn) (m : Mach) : (m.updConn k f).now = m.now := rfl
@[simp] theorem Mach.updConn_mod (k : Nat) (f : JxtConn → JxtConn) (m : Mach) : (m.updConn k f).mod = m.mod := rfl
@[simp] theorem Mach.updConn_power (k : Nat) (f : JxtConn → JxtConn) (m : Mach) : (m.updConn k f).power = m.power := rfl
@[simp] theorem Mach.updConn_ident (k : Nat) (f : JxtConn → JxtConn) (m : Mach) : (m.updConn k f).ident = m.ident := rfl
@[simp] theorem Mach.updConn_sd (k : Nat) (f : JxtConn → JxtConn) (m : Mach) : (m.updConn k f).sd = m.sd := rfl
@[simp] theorem Mach.updConn_lanes (k : Nat) (f : JxtConn → JxtConn) (m : Mach) : (m.updConn k f).lanes = m.lanes := rfl
@[simp] theorem Mach.updConn_cal (k : Nat) (f : JxtConn → JxtConn) (m : Mach) : (m.updConn k f).cal = m.cal := rfl
@[simp] theorem Mach.updConn_field (k : Nat) (f : JxtConn → JxtConn) (m : Mach) : (m.updConn k f).field = m.field := rfl
@[simp] theorem Mach.updConn_ring1 (k : Nat) (f : JxtConn → JxtConn) (m : Mach) : (m.updConn k f).ring1 = m.ring1 := rfl
@[simp] theorem Mach.updConn_ring2 (k : Nat) (f : JxtConn → JxtConn) (m : Mach) : (m.updConn k f).ring2 = m.ring2 := rfl
@[simp] theorem Mach.updConn_can1 (k : Nat) (f : JxtConn → JxtConn) (m : Mach) : (m.updConn k f).can1 = m.can1 := rfl
@[simp] theorem Mach.updConn_can2 (k : Nat) (f : JxtConn → JxtConn) (m : Mach) : (m.updConn k f).can2 = m.can2 := rfl
@[simp] theorem Mach.updConn_pair (k : Nat) (f : JxtConn → JxtConn) (m : Mach) : (m.updConn k f).pair = m.pair := rfl
@[simp] theorem Mach.updConn_bench (k : Nat) (f : JxtConn → JxtConn) (m : Mach) : (m.updConn k f).bench = m.bench := rfl
@[simp] theorem Mach.updConn_irq (k : Nat) (f : JxtConn → JxtConn) (m : Mach) : (m.updConn k f).irq = m.irq := rfl
@[simp] theorem Mach.updConn_freeCtr (k : Nat) (f : JxtConn → JxtConn) (m : Mach) : (m.updConn k f).freeCtr = m.freeCtr := rfl

/-! ### raise -/

@[simp] theorem Mach.raise_now (path : List Nat) (bit : Nat) (m : Mach) : (m.raise path bit).now = m.now := rfl
@[simp] theorem Mach.raise_mod (path : List Nat) (bit : Nat) (m : Mach) : (m.raise path bit).mod = m.mod := rfl
@[simp] theorem Mach.raise_power (path : List Nat) (bit : Nat) (m : Mach) : (m.raise path bit).power = m.power := rfl
@[simp] theorem Mach.raise_ident (path : List Nat) (bit : Nat) (m : Mach) : (m.raise path bit).ident = m.ident := rfl
@[simp] theorem Mach.raise_sd (path : List Nat) (bit : Nat) (m : Mach) : (m.raise path bit).sd = m.sd := rfl
@[simp] theorem Mach.raise_lanes (path : List Nat) (bit : Nat) (m : Mach) : (m.raise path bit).lanes = m.lanes := rfl
@[simp] theorem Mach.raise_cal (path : List Nat) (bit : Nat) (m : Mach) : (m.raise path bit).cal = m.cal := rfl
@[simp] theorem Mach.raise_field (path : List Nat) (bit : Nat) (m : Mach) : (m.raise path bit).field = m.field := rfl
@[simp] theorem Mach.raise_ring1 (path : List Nat) (bit : Nat) (m : Mach) : (m.raise path bit).ring1 = m.ring1 := rfl
@[simp] theorem Mach.raise_ring2 (path : List Nat) (bit : Nat) (m : Mach) : (m.raise path bit).ring2 = m.ring2 := rfl
@[simp] theorem Mach.raise_jxt (path : List Nat) (bit : Nat) (m : Mach) : (m.raise path bit).jxt = m.jxt := rfl
@[simp] theorem Mach.raise_can1 (path : List Nat) (bit : Nat) (m : Mach) : (m.raise path bit).can1 = m.can1 := rfl
@[simp] theorem Mach.raise_can2 (path : List Nat) (bit : Nat) (m : Mach) : (m.raise path bit).can2 = m.can2 := rfl
@[simp] theorem Mach.raise_pair (path : List Nat) (bit : Nat) (m : Mach) : (m.raise path bit).pair = m.pair := rfl
@[simp] theorem Mach.raise_bench (path : List Nat) (bit : Nat) (m : Mach) : (m.raise path bit).bench = m.bench := rfl
@[simp] theorem Mach.raise_freeCtr (path : List Nat) (bit : Nat) (m : Mach) : (m.raise path bit).freeCtr = m.freeCtr := rfl

/-! ### postPower -/

@[simp] theorem Mach.postPower_now (n : Notice) (m : Mach) : (m.postPower n).now = m.now := rfl
@[simp] theorem Mach.postPower_mod (n : Notice) (m : Mach) : (m.postPower n).mod = m.mod := rfl
@[simp] theorem Mach.postPower_ident (n : Notice) (m : Mach) : (m.postPower n).ident = m.ident := rfl
@[simp] theorem Mach.postPower_sd (n : Notice) (m : Mach) : (m.postPower n).sd = m.sd := rfl
@[simp] theorem Mach.postPower_lanes (n : Notice) (m : Mach) : (m.postPower n).lanes = m.lanes := rfl
@[simp] theorem Mach.postPower_cal (n : Notice) (m : Mach) : (m.postPower n).cal = m.cal := rfl
@[simp] theorem Mach.postPower_field (n : Notice) (m : Mach) : (m.postPower n).field = m.field := rfl
@[simp] theorem Mach.postPower_ring1 (n : Notice) (m : Mach) : (m.postPower n).ring1 = m.ring1 := rfl
@[simp] theorem Mach.postPower_ring2 (n : Notice) (m : Mach) : (m.postPower n).ring2 = m.ring2 := rfl
@[simp] theorem Mach.postPower_jxt (n : Notice) (m : Mach) : (m.postPower n).jxt = m.jxt := rfl
@[simp] theorem Mach.postPower_can1 (n : Notice) (m : Mach) : (m.postPower n).can1 = m.can1 := rfl
@[simp] theorem Mach.postPower_can2 (n : Notice) (m : Mach) : (m.postPower n).can2 = m.can2 := rfl
@[simp] theorem Mach.postPower_pair (n : Notice) (m : Mach) : (m.postPower n).pair = m.pair := rfl
@[simp] theorem Mach.postPower_bench (n : Notice) (m : Mach) : (m.postPower n).bench = m.bench := rfl
@[simp] theorem Mach.postPower_irq (n : Notice) (m : Mach) : (m.postPower n).irq = m.irq := rfl
@[simp] theorem Mach.postPower_freeCtr (n : Notice) (m : Mach) : (m.postPower n).freeCtr = m.freeCtr := rfl

/-! ### postCal -/

@[simp] theorem Mach.postCal_now (n : Notice) (m : Mach) : (m.postCal n).now = m.now := rfl
@[simp] theorem Mach.postCal_mod (n : Notice) (m : Mach) : (m.postCal n).mod = m.mod := rfl
@[simp] theorem Mach.postCal_power (n : Notice) (m : Mach) : (m.postCal n).power = m.power := rfl
@[simp] theorem Mach.postCal_ident (n : Notice) (m : Mach) : (m.postCal n).ident = m.ident := rfl
@[simp] theorem Mach.postCal_sd (n : Notice) (m : Mach) : (m.postCal n).sd = m.sd := rfl
@[simp] theorem Mach.postCal_lanes (n : Notice) (m : Mach) : (m.postCal n).lanes = m.lanes := rfl
@[simp] theorem Mach.postCal_field (n : Notice) (m : Mach) : (m.postCal n).field = m.field := rfl
@[simp] theorem Mach.postCal_ring1 (n : Notice) (m : Mach) : (m.postCal n).ring1 = m.ring1 := rfl
@[simp] theorem Mach.postCal_ring2 (n : Notice) (m : Mach) : (m.postCal n).ring2 = m.ring2 := rfl
@[simp] theorem Mach.postCal_jxt (n : Notice) (m : Mach) : (m.postCal n).jxt = m.jxt := rfl
@[simp] theorem Mach.postCal_can1 (n : Notice) (m : Mach) : (m.postCal n).can1 = m.can1 := rfl
@[simp] theorem Mach.postCal_can2 (n : Notice) (m : Mach) : (m.postCal n).can2 = m.can2 := rfl
@[simp] theorem Mach.postCal_pair (n : Notice) (m : Mach) : (m.postCal n).pair = m.pair := rfl
@[simp] theorem Mach.postCal_bench (n : Notice) (m : Mach) : (m.postCal n).bench = m.bench := rfl
@[simp] theorem Mach.postCal_irq (n : Notice) (m : Mach) : (m.postCal n).irq = m.irq := rfl
@[simp] theorem Mach.postCal_freeCtr (n : Notice) (m : Mach) : (m.postCal n).freeCtr = m.freeCtr := rfl

/-! ### postField -/

@[simp] theorem Mach.postField_now (n : Notice) (m : Mach) : (m.postField n).now = m.now := rfl
@[simp] theorem Mach.postField_mod (n : Notice) (m : Mach) : (m.postField n).mod = m.mod := rfl
@[simp] theorem Mach.postField_power (n : Notice) (m : Mach) : (m.postField n).power = m.power := rfl
@[simp] theorem Mach.postField_ident (n : Notice) (m : Mach) : (m.postField n).ident = m.ident := rfl
@[simp] theorem Mach.postField_sd (n : Notice) (m : Mach) : (m.postField n).sd = m.sd := rfl
@[simp] theorem Mach.postField_lanes (n : Notice) (m : Mach) : (m.postField n).lanes = m.lanes := rfl
@[simp] theorem Mach.postField_cal (n : Notice) (m : Mach) : (m.postField n).cal = m.cal := rfl
@[simp] theorem Mach.postField_ring1 (n : Notice) (m : Mach) : (m.postField n).ring1 = m.ring1 := rfl
@[simp] theorem Mach.postField_ring2 (n : Notice) (m : Mach) : (m.postField n).ring2 = m.ring2 := rfl
@[simp] theorem Mach.postField_jxt (n : Notice) (m : Mach) : (m.postField n).jxt = m.jxt := rfl
@[simp] theorem Mach.postField_can1 (n : Notice) (m : Mach) : (m.postField n).can1 = m.can1 := rfl
@[simp] theorem Mach.postField_can2 (n : Notice) (m : Mach) : (m.postField n).can2 = m.can2 := rfl
@[simp] theorem Mach.postField_pair (n : Notice) (m : Mach) : (m.postField n).pair = m.pair := rfl
@[simp] theorem Mach.postField_bench (n : Notice) (m : Mach) : (m.postField n).bench = m.bench := rfl
@[simp] theorem Mach.postField_irq (n : Notice) (m : Mach) : (m.postField n).irq = m.irq := rfl
@[simp] theorem Mach.postField_freeCtr (n : Notice) (m : Mach) : (m.postField n).freeCtr = m.freeCtr := rfl

/-! ### postLane -/

@[simp] theorem Mach.postLane_now (l : LaneId) (n : Notice) (m : Mach) : (m.postLane l n).now = m.now := rfl
@[simp] theorem Mach.postLane_mod (l : LaneId) (n : Notice) (m : Mach) : (m.postLane l n).mod = m.mod := rfl
@[simp] theorem Mach.postLane_power (l : LaneId) (n : Notice) (m : Mach) : (m.postLane l n).power = m.power := rfl
@[simp] theorem Mach.postLane_ident (l : LaneId) (n : Notice) (m : Mach) : (m.postLane l n).ident = m.ident := rfl
@[simp] theorem Mach.postLane_sd (l : LaneId) (n : Notice) (m : Mach) : (m.postLane l n).sd = m.sd := rfl
@[simp] theorem Mach.postLane_lanes (l : LaneId) (n : Notice) (m : Mach) : (m.postLane l n).lanes = m.lanes.upd l (Lane.post n) := rfl
@[simp] theorem Mach.postLane_cal (l : LaneId) (n : Notice) (m : Mach) : (m.postLane l n).cal = m.cal := rfl
@[simp] theorem Mach.postLane_field (l : LaneId) (n : Notice) (m : Mach) : (m.postLane l n).field = m.field := rfl
@[simp] theorem Mach.postLane_ring1 (l : LaneId) (n : Notice) (m : Mach) : (m.postLane l n).ring1 = m.ring1 := rfl
@[simp] theorem Mach.postLane_ring2 (l : LaneId) (n : Notice) (m : Mach) : (m.postLane l n).ring2 = m.ring2 := rfl
@[simp] theorem Mach.postLane_jxt (l : LaneId) (n : Notice) (m : Mach) : (m.postLane l n).jxt = m.jxt := rfl
@[simp] theorem Mach.postLane_can1 (l : LaneId) (n : Notice) (m : Mach) : (m.postLane l n).can1 = m.can1 := rfl
@[simp] theorem Mach.postLane_can2 (l : LaneId) (n : Notice) (m : Mach) : (m.postLane l n).can2 = m.can2 := rfl
@[simp] theorem Mach.postLane_pair (l : LaneId) (n : Notice) (m : Mach) : (m.postLane l n).pair = m.pair := rfl
@[simp] theorem Mach.postLane_bench (l : LaneId) (n : Notice) (m : Mach) : (m.postLane l n).bench = m.bench := rfl
@[simp] theorem Mach.postLane_irq (l : LaneId) (n : Notice) (m : Mach) : (m.postLane l n).irq = m.irq := rfl
@[simp] theorem Mach.postLane_freeCtr (l : LaneId) (n : Notice) (m : Mach) : (m.postLane l n).freeCtr = m.freeCtr := rfl

/-! ### updCan -/

@[simp] theorem Mach.updCan_now (p : CanId) (f : CanPort → CanPort) (m : Mach) : (m.updCan p f).now = m.now := by cases p <;> rfl
@[simp] theorem Mach.updCan_mod (p : CanId) (f : CanPort → CanPort) (m : Mach) : (m.updCan p f).mod = m.mod := by cases p <;> rfl
@[simp] theorem Mach.updCan_power (p : CanId) (f : CanPort → CanPort) (m : Mach) : (m.updCan p f).power = m.power := by cases p <;> rfl
@[simp] theorem Mach.updCan_ident (p : CanId) (f : CanPort → CanPort) (m : Mach) : (m.updCan p f).ident = m.ident := by cases p <;> rfl
@[simp] theorem Mach.updCan_sd (p : CanId) (f : CanPort → CanPort) (m : Mach) : (m.updCan p f).sd = m.sd := by cases p <;> rfl
@[simp] theorem Mach.updCan_lanes (p : CanId) (f : CanPort → CanPort) (m : Mach) : (m.updCan p f).lanes = m.lanes := by cases p <;> rfl
@[simp] theorem Mach.updCan_cal (p : CanId) (f : CanPort → CanPort) (m : Mach) : (m.updCan p f).cal = m.cal := by cases p <;> rfl
@[simp] theorem Mach.updCan_field (p : CanId) (f : CanPort → CanPort) (m : Mach) : (m.updCan p f).field = m.field := by cases p <;> rfl
@[simp] theorem Mach.updCan_ring1 (p : CanId) (f : CanPort → CanPort) (m : Mach) : (m.updCan p f).ring1 = m.ring1 := by cases p <;> rfl
@[simp] theorem Mach.updCan_ring2 (p : CanId) (f : CanPort → CanPort) (m : Mach) : (m.updCan p f).ring2 = m.ring2 := by cases p <;> rfl
@[simp] theorem Mach.updCan_jxt (p : CanId) (f : CanPort → CanPort) (m : Mach) : (m.updCan p f).jxt = m.jxt := by cases p <;> rfl
@[simp] theorem Mach.updCan_pair (p : CanId) (f : CanPort → CanPort) (m : Mach) : (m.updCan p f).pair = m.pair := by cases p <;> rfl
@[simp] theorem Mach.updCan_bench (p : CanId) (f : CanPort → CanPort) (m : Mach) : (m.updCan p f).bench = m.bench := by cases p <;> rfl
@[simp] theorem Mach.updCan_irq (p : CanId) (f : CanPort → CanPort) (m : Mach) : (m.updCan p f).irq = m.irq := by cases p <;> rfl
@[simp] theorem Mach.updCan_freeCtr (p : CanId) (f : CanPort → CanPort) (m : Mach) : (m.updCan p f).freeCtr = m.freeCtr := by cases p <;> rfl

/-! ### updRing -/

@[simp] theorem Mach.updRing_now (i : RingId) (f : RingIfc → RingIfc) (m : Mach) : (m.updRing i f).now = m.now := by cases i <;> rfl
@[simp] theorem Mach.updRing_mod (i : RingId) (f : RingIfc → RingIfc) (m : Mach) : (m.updRing i f).mod = m.mod := by cases i <;> rfl
@[simp] theorem Mach.updRing_power (i : RingId) (f : RingIfc → RingIfc) (m : Mach) : (m.updRing i f).power = m.power := by cases i <;> rfl
@[simp] theorem Mach.updRing_ident (i : RingId) (f : RingIfc → RingIfc) (m : Mach) : (m.updRing i f).ident = m.ident := by cases i <;> rfl
@[simp] theorem Mach.updRing_sd (i : RingId) (f : RingIfc → RingIfc) (m : Mach) : (m.updRing i f).sd = m.sd := by cases i <;> rfl
@[simp] theorem Mach.updRing_lanes (i : RingId) (f : RingIfc → RingIfc) (m : Mach) : (m.updRing i f).lanes = m.lanes := by cases i <;> rfl
@[simp] theorem Mach.updRing_cal (i : RingId) (f : RingIfc → RingIfc) (m : Mach) : (m.updRing i f).cal = m.cal := by cases i <;> rfl
@[simp] theorem Mach.updRing_field (i : RingId) (f : RingIfc → RingIfc) (m : Mach) : (m.updRing i f).field = m.field := by cases i <;> rfl
@[simp] theorem Mach.updRing_jxt (i : RingId) (f : RingIfc → RingIfc) (m : Mach) : (m.updRing i f).jxt = m.jxt := by cases i <;> rfl
@[simp] theorem Mach.updRing_can1 (i : RingId) (f : RingIfc → RingIfc) (m : Mach) : (m.updRing i f).can1 = m.can1 := by cases i <;> rfl
@[simp] theorem Mach.updRing_can2 (i : RingId) (f : RingIfc → RingIfc) (m : Mach) : (m.updRing i f).can2 = m.can2 := by cases i <;> rfl
@[simp] theorem Mach.updRing_pair (i : RingId) (f : RingIfc → RingIfc) (m : Mach) : (m.updRing i f).pair = m.pair := by cases i <;> rfl
@[simp] theorem Mach.updRing_bench (i : RingId) (f : RingIfc → RingIfc) (m : Mach) : (m.updRing i f).bench = m.bench := by cases i <;> rfl
@[simp] theorem Mach.updRing_irq (i : RingId) (f : RingIfc → RingIfc) (m : Mach) : (m.updRing i f).irq = m.irq := by cases i <;> rfl
@[simp] theorem Mach.updRing_freeCtr (i : RingId) (f : RingIfc → RingIfc) (m : Mach) : (m.updRing i f).freeCtr = m.freeCtr := by cases i <;> rfl

/-! ### postModule -/

@[simp] theorem Mach.postModule_now (n : Notice) (m : Mach) : (m.postModule n).now = m.now := by unfold Mach.postModule; split <;> rfl
@[simp] theorem Mach.postModule_mod (n : Notice) (m : Mach) : (m.postModule n).mod = m.mod := by unfold Mach.postModule; split <;> rfl
@[simp] theorem Mach.postModule_ident (n : Notice) (m : Mach) : (m.postModule n).ident = m.ident := by unfold Mach.postModule; split <;> rfl
@[simp] theorem Mach.postModule_sd (n : Notice) (m : Mach) : (m.postModule n).sd = m.sd := by unfold Mach.postModule; split <;> rfl
@[simp] theorem Mach.postModule_cal (n : Notice) (m : Mach) : (m.postModule n).cal = m.cal := by unfold Mach.postModule; split <;> rfl
@[simp] theorem Mach.postModule_field (n : Notice) (m : Mach) : (m.postModule n).field = m.field := by unfold Mach.postModule; split <;> rfl
@[simp] theorem Mach.postModule_ring1 (n : Notice) (m : Mach) : (m.postModule n).ring1 = m.ring1 := by unfold Mach.postModule; split <;> rfl
@[simp] theorem Mach.postModule_ring2 (n : Notice) (m : Mach) : (m.postModule n).ring2 = m.ring2 := by unfold Mach.postModule; split <;> rfl
@[simp] theorem Mach.postModule_jxt (n : Notice) (m : Mach) : (m.postModule n).jxt = m.jxt := by unfold Mach.postModule; split <;> rfl
@[simp] theorem Mach.postModule_can1 (n : Notice) (m : Mach) : (m.postModule n).can1 = m.can1 := by unfold Mach.postModule; split <;> rfl
@[simp] theorem Mach.postModule_can2 (n : Notice) (m : Mach) : (m.postModule n).can2 = m.can2 := by unfold Mach.postModule; split <;> rfl
@[simp] theorem Mach.postModule_pair (n : Notice) (m : Mach) : (m.postModule n).pair = m.pair := by unfold Mach.postModule; split <;> rfl
@[simp] theorem Mach.postModule_bench (n : Notice) (m : Mach) : (m.postModule n).bench = m.bench := by unfold Mach.postModule; split <;> rfl
@[simp] theorem Mach.postModule_irq (n : Notice) (m : Mach) : (m.postModule n).irq = m.irq := by unfold Mach.postModule; split <;> rfl
@[simp] theorem Mach.postModule_freeCtr (n : Notice) (m : Mach) : (m.postModule n).freeCtr = m.freeCtr := by unfold Mach.postModule; split <;> rfl

/-! ### supervise -/

@[simp] theorem Mach.supervise_now (old m : Mach) : (old.supervise m).now = m.now := by unfold Mach.supervise; split <;> rfl
@[simp] theorem Mach.supervise_power (old m : Mach) : (old.supervise m).power = m.power := by unfold Mach.supervise; split <;> rfl
@[simp] theorem Mach.supervise_ident (old m : Mach) : (old.supervise m).ident = m.ident := by unfold Mach.supervise; split <;> rfl
@[simp] theorem Mach.supervise_sd (old m : Mach) : (old.supervise m).sd = m.sd := by unfold Mach.supervise; split <;> rfl
@[simp] theorem Mach.supervise_lanes (old m : Mach) : (old.supervise m).lanes = m.lanes := by unfold Mach.supervise; split <;> rfl
@[simp] theorem Mach.supervise_cal (old m : Mach) : (old.supervise m).cal = m.cal := by unfold Mach.supervise; split <;> rfl
@[simp] theorem Mach.supervise_field (old m : Mach) : (old.supervise m).field = m.field := by unfold Mach.supervise; split <;> rfl
@[simp] theorem Mach.supervise_ring1 (old m : Mach) : (old.supervise m).ring1 = m.ring1 := by unfold Mach.supervise; split <;> rfl
@[simp] theorem Mach.supervise_ring2 (old m : Mach) : (old.supervise m).ring2 = m.ring2 := by unfold Mach.supervise; split <;> rfl
@[simp] theorem Mach.supervise_jxt (old m : Mach) : (old.supervise m).jxt = m.jxt := by unfold Mach.supervise; split <;> rfl
@[simp] theorem Mach.supervise_can1 (old m : Mach) : (old.supervise m).can1 = m.can1 := by unfold Mach.supervise; split <;> rfl
@[simp] theorem Mach.supervise_can2 (old m : Mach) : (old.supervise m).can2 = m.can2 := by unfold Mach.supervise; split <;> rfl
@[simp] theorem Mach.supervise_pair (old m : Mach) : (old.supervise m).pair = m.pair := by unfold Mach.supervise; split <;> rfl
@[simp] theorem Mach.supervise_bench (old m : Mach) : (old.supervise m).bench = m.bench := by unfold Mach.supervise; split <;> rfl
@[simp] theorem Mach.supervise_irq (old m : Mach) : (old.supervise m).irq = m.irq := by unfold Mach.supervise; split <;> rfl
@[simp] theorem Mach.supervise_freeCtr (old m : Mach) : (old.supervise m).freeCtr = m.freeCtr := by unfold Mach.supervise; split <;> rfl

/-! ### Lanes -/

@[simp] theorem Tri.get_upd_self {α : Type} (l : LaneId) (f : α → α) (x : Tri α) : (x.upd l f).get l = f (x.get l) := by
  cases l <;> rfl

@[simp] theorem Tri.get_all {α : Type} (f : LaneId → α → α) (x : Tri α) (l : LaneId) : (x.all f).get l = f l (x.get l) := by
  cases l <;> rfl

theorem Tri.get_upd_of_ne {α : Type} (l k : LaneId) (f : α → α) (x : Tri α) (h : k ≠ l) : (x.upd l f).get k = x.get k := by
  cases l <;> cases k <;> first | rfl | exact absurd rfl h

@[simp] theorem Mach.lane_updLane_self (l : LaneId) (f : Lane → Lane) (m : Mach) : (m.updLane l f).lane l = f (m.lane l) :=
  Tri.get_upd_self l f m.lanes

theorem Mach.lane_updLane_of_ne (l k : LaneId) (f : Lane → Lane) (m : Mach) (h : k ≠ l) :
    (m.updLane l f).lane k = m.lane k := Tri.get_upd_of_ne l k f m.lanes h

@[simp] theorem Mach.lane_updLanes (l : LaneId) (f : LaneId → Lane → Lane) (m : Mach) :
    (m.updLanes f).lane l = f l (m.lane l) := Tri.get_all f m.lanes l

/-! ### Lists by index -/

@[simp] theorem modAt_length {α : Type} (f : α → α) (n : Nat) (xs : List α) : (modAt f n xs).length = xs.length := by
  induction xs generalizing n with
  | nil => cases n <;> rfl
  | cons x xs ih => cases n with
    | zero => rfl
    | succ k => simp [modAt, ih]

theorem modAt_get_self {α : Type} (f : α → α) (n : Nat) (xs : List α) : (modAt f n xs)[n]? = (xs[n]?).map f := by
  induction xs generalizing n with
  | nil => cases n <;> rfl
  | cons x xs ih => cases n with
    | zero => rfl
    | succ k => simpa [modAt] using ih k

theorem modAt_get_of_ne {α : Type} (f : α → α) (n k : Nat) (xs : List α) (h : k ≠ n) : (modAt f n xs)[k]? = xs[k]? := by
  induction xs generalizing n k with
  | nil => cases n <;> rfl
  | cons x xs ih => cases n with
    | zero => cases k with
      | zero => exact absurd rfl h
      | succ j => rfl
    | succ j => cases k with
      | zero => rfl
      | succ i => simpa [modAt] using ih j i (fun c => h (by rw [c]))

end Sys2Proof.Machine
end

