-- ==== Sys2Proof/Laws/Ops.lean ====
section
/-! SUPPORT. What each shared operation does, said once: the proofs about meanings cite these and unfold none of them. -/

namespace Sys2Proof.Machine

/-! ### The hold of the lanes, and the ports off -/

/-- Every lane is held and drives nothing afterwards. -/
theorem Mach.holdLanes_held (m : Mach) : LanesHeld m.holdLanes ∧ Undriven m.holdLanes := by
  constructor <;> intro l _ <;> cases l <;> exact ⟨rfl, rfl⟩

/-- A lane's hold keeps its memories and its counters of the agreement page. -/
theorem Mach.holdLanes_mem (m : Mach) (l : LaneId) : (m.holdLanes.lane l).mem = (m.lane l).mem := by cases l <;> rfl

theorem Mach.portsOff_unsent (m : Mach) : Unsent m.portsOff := ⟨rfl, rfl, rfl, rfl, rfl, rfl, rfl, rfl, rfl⟩

@[simp] theorem Mach.portsOff_lanes (m : Mach) : m.portsOff.lanes = m.lanes := rfl
@[simp] theorem Mach.portsOff_mod (m : Mach) : m.portsOff.mod = m.mod := rfl
@[simp] theorem Mach.portsOff_power (m : Mach) : m.portsOff.power = m.power := rfl
@[simp] theorem Mach.portsOff_sd (m : Mach) : m.portsOff.sd = m.sd := rfl

/-! ### Mode changes -/

/-- HALT is never left by a mode change. -/
theorem Mach.enterModeAt_halt (cyc : W32) (new : Mode) (m : Mach) (h : m.mod.mode = .halt) : m.enterModeAt cyc new = m := by
  unfold Mach.enterModeAt; simp [h]

/-- A mode change to the present mode does nothing. -/
theorem Mach.enterModeAt_self (cyc : W32) (m : Mach) : m.enterModeAt cyc m.mod.mode = m := by
  unfold Mach.enterModeAt; simp

/-- A view that both branches of a choice agree on. -/
theorem ite_view {α : Type} (f : Mach → α) {c : Prop} [Decidable c] (a b : Mach) (h : f a = f b) :
    f (if c then a else b) = f b := by split <;> simp [h]

/-- What a notice leaves of a lane: everything but its queue of notices. -/
theorem Mach.postModule_lane (n : Notice) (m : Mach) (l : LaneId) :
    { (m.postModule n).lane l with queue := (m.lane l).queue } = m.lane l := by
  unfold Mach.postModule; split
  · rfl
  · cases l <;> simp only [Mach.lane, Mach.updLanes, Tri.get, Tri.all] <;> split <;> rfl

/-- A view of the module that a mode change keeps: it looks at none of the mode, the slots' service instants, the ports on
CAN, the keys and records of a lane, the causes, or the queues of notices. -/
theorem Mach.enterModeAt_keeps {α : Type} (f : Mach → α) (cyc : W32) (new : Mode) (m : Mach)
    (hm : ∀ (x : Mach) y z, f { x with mod := y, bench := z } = f x)
    (hc : ∀ (x : Mach), f { x with can1 := x.can1.cancelAll, can2 := x.can2.cancelAll }.noReference = f x)
    (hk : ∀ (x : Mach), f (x.updLanes (fun _ y => { y with keys := [] })) = f x)
    (hj : ∀ (x : Mach), f (x.updLanes (fun _ y => { y with comm := loseAlive y.comm })) = f x)
    (hr : ∀ (x : Mach) y, f { x with irq := y } = f x) (hp : ∀ (x : Mach) n, f (x.postModule n) = f x) :
    f (m.enterModeAt cyc new) = f m := by
  unfold Mach.enterModeAt
  split
  · rfl
  · dsimp only
    rw [hp]; unfold Mach.raise; rw [hr, ite_view f _ _ (hj _), ite_view f _ _ (hk _).symm, hk]
    rw [ite_view f _ _ (hc _).symm, hc]
    refine (hm (if m.mod.mode = Mode.commission then m.endSweep else m) _ _).trans ?_
    refine (ite_view f _ _ ?_)
    unfold Mach.endSweep
    exact ite_view f _ _ (hm _ _ m.bench)

/-- Outside HALT the mode is the new one afterwards. -/
theorem Mach.enterModeAt_mode (cyc : W32) (new : Mode) (m : Mach) (h : m.mod.mode ≠ .halt) :
    (m.enterModeAt cyc new).mod.mode = new := by
  unfold Mach.enterModeAt
  by_cases e : m.mod.mode = new
  · rw [if_pos (by simp [e]), e]
  · rw [if_neg (by simp [h, e])]
    dsimp only
    rw [Mach.postModule_mod, Mach.raise_mod]
    refine (ite_view (fun x => x.mod.mode) _ _ ?_).trans ((ite_view (fun x => x.mod.mode) _ _ ?_).trans
      (ite_view (fun x => x.mod.mode) _ _ ?_)) <;> rfl

/-- A mode change keeps every view of a lane that looks at neither its keys, its records nor its queue of notices. -/
theorem Mach.enterModeAt_lane {α : Type} (g : Lane → α) (cyc : W32) (new : Mode) (m : Mach) (l : LaneId)
    (hk : ∀ (x : Lane) b, g { x with keys := b } = g x) (hc : ∀ (x : Lane) c, g { x with comm := c } = g x)
    (hq : ∀ (x : Lane) q, g { x with queue := q } = g x) :
    g ((m.enterModeAt cyc new).lane l) = g (m.lane l) :=
  Mach.enterModeAt_keeps (fun x => g (x.lane l)) cyc new m (fun _ _ _ => rfl) (fun _ => rfl)
    (fun _ => by cases l <;> exact hk _ _) (fun _ => by cases l <;> exact hc _ _) (fun _ _ => rfl)
    (fun x n => by
      show g ((x.postModule n).lane l) = g (x.lane l)
      conv => rhs; rw [← Mach.postModule_lane n x l]
      exact (hq _ _).symm)

/-! ### What stays in the field section -/

/-- Nothing differs but the field section, the causes on the pages, the number of the next free value and the mark that a step
of a field sweep failed. -/
def ButField (a b : Mach) : Prop :=
  { b with field := a.field, irq := a.irq, freeCtr := a.freeCtr, mod := { b.mod with sweepBad := a.mod.sweepBad } } = a

theorem ButField.refl (m : Mach) : ButField m m := rfl

theorem ButField.trans {a b c : Mach} (h : ButField a b) (k : ButField b c) : ButField a c := by
  unfold ButField at *
  rw [← h, ← k]

theorem ButField.lanes {a b : Mach} (h : ButField a b) : b.lanes = a.lanes := by
  have k := congrArg Mach.lanes h; exact k
theorem ButField.mode {a b : Mach} (h : ButField a b) : b.mod.mode = a.mod.mode := by
  have k := congrArg (fun m => m.mod.mode) h; exact k
theorem ButField.cal {a b : Mach} (h : ButField a b) : b.cal = a.cal := by
  have k := congrArg Mach.cal h; exact k
theorem ButField.power {a b : Mach} (h : ButField a b) : b.power = a.power := by
  have k := congrArg Mach.power h; exact k

theorem ButField.updOut (n : Nat) (f : OutCh → OutCh) (m : Mach) : ButField m (m.updOut n f) := rfl
theorem ButField.raise (path : List Nat) (bit : Nat) (m : Mach) : ButField m (m.raise path bit) := rfl
theorem ButField.bumpFree (m : Mach) : ButField m m.bumpFree := rfl

theorem ButField.noteOut (n : Nat) (srcs : List Nat) (m : Mach) : ButField m (m.noteOut n srcs) := by
  cases srcs <;> rfl

theorem ButField.foldl {β : Type} (f : Mach → β → Mach) (h : ∀ m x, ButField m (f m x)) (xs : List β) (m : Mach) :
    ButField m (xs.foldl f m) := by
  induction xs generalizing m with
  | nil => exact .refl m
  | cons x xs ih => exact (h m x).trans (ih _)

theorem Mach.setPole_butField (n : Nat) (p : Pole) (m : Mach) : ButField m (m.setPole n p) := by
  unfold Mach.setPole
  split
  · exact .refl m
  · dsimp only
    cases p <;> dsimp only <;> (repeat' split) <;> rfl

theorem Mach.refreshPoles_butField (m : Mach) : ButField m m.refreshPoles :=
  ButField.foldl _ (fun m n => (m.setPole_butField n .pos).trans (Mach.setPole_butField n .neg _)) _ m

theorem Mach.outAvail_butField (n : Nat) (m : Mach) : ButField m (m.outAvail n) := by
  unfold Mach.outAvail
  split
  · exact .refl m
  · dsimp only
    (repeat' split) <;> rfl

theorem Mach.pulseJudged_butField (n : Nat) (pass : Bool) (m : Mach) : ButField m (m.pulseJudged n pass) := by
  unfold Mach.pulseJudged
  dsimp only
  split
  · split
    · exact (ButField.updOut ..).trans (Mach.outAvail_butField ..)
    · exact .updOut ..
  · exact .updOut ..

theorem Mach.pulseDiscard_butField (n start : Nat) (p : Pole) (m : Mach) : ButField m (m.pulseDiscard n start p) :=
  (ButField.updOut ..).trans (ButField.noteOut ..)

theorem ButField.ite (c : Prop) [Decidable c] {m a b : Mach} (h : ButField m a) (k : ButField m b) :
    ButField m (if c then a else b) := by
  split <;> assumption

theorem Mach.takeFault_butField (n code : Nat) (m : Mach) : ButField m (m.takeFault n code) := by
  unfold Mach.takeFault
  split
  · exact .refl m
  · dsimp only
    refine ButField.ite _ (.refl m) (.trans ?_ (.noteOut ..))
    refine ButField.trans ?_ (ButField.ite _ (.raise ..) (.refl _))
    refine ButField.trans ?_ (ButField.ite _ (.raise ..) (.refl _))
    refine ButField.trans ?_ (ButField.ite _ (.raise ..) (.refl _))
    refine ButField.trans ?_ ((Mach.setPole_butField n .pos _).trans (Mach.setPole_butField n .neg _))
    exact (ButField.updOut n _ m).trans (ButField.ite _ rfl (.refl _))

theorem Mach.keepDark_butField (n : Nat) (x : OutCh) (m : Mach) : ButField m (m.keepDark n x) :=
  (Mach.pulseJudged_butField n x.pendOk m).trans
    (ButField.ite _ (.refl _) ((Mach.takeFault_butField n 4 _).trans (.updOut ..)))

theorem Mach.forcedOff_butField (n : Nat) (m : Mach) : ButField m (m.forcedOff n) := by
  unfold Mach.forcedOff
  split
  · exact .refl m
  · split
    · exact .refl m
    · exact .ite _ (Mach.keepDark_butField ..) (Mach.pulseDiscard_butField ..)
    · exact (Mach.pulseDiscard_butField ..).trans (.updOut ..)

theorem Mach.forcedOffAll_butField (m : Mach) : ButField m m.forcedOffAll :=
  (ButField.foldl _ (fun m n => m.forcedOff_butField n) _ m).trans (Mach.refreshPoles_butField _)

/-! ### HALT -/

/-- Drivers and ports as `Unsent` reads them are kept by a mode change and by notices. -/
theorem Unsent.enterModeAt {m : Mach} (h : Unsent m) (cyc : W32) (new : Mode) : Unsent (m.enterModeAt cyc new) := by
  have k := Mach.enterModeAt_keeps (fun x : Mach => (x.cal.txOn, x.ring1, x.ring2, x.can1.mode, x.can2.mode, x.jxt, x.pair)) cyc new m
    (fun _ _ _ => rfl) (fun _ => rfl) (fun _ => rfl) (fun _ => rfl) (fun _ _ => rfl)
    (fun _ _ => by simp only [Mach.postModule_cal, Mach.postModule_ring1, Mach.postModule_ring2, Mach.postModule_can1,
      Mach.postModule_can2, Mach.postModule_jxt, Mach.postModule_pair])
  simp only [Prod.mk.injEq] at k
  obtain ⟨k1, k2, k3, k4, k5, k6, k7⟩ := k
  unfold Unsent at *
  rw [k1, k2, k3, k4, k5, k6, k7]
  exact h

/-- A test that is abandoned changes nothing of the mode. -/
@[simp] theorem Mach.abandonTest_mod (m : Mach) : m.abandonTest.mod = m.mod := by
  unfold Mach.abandonTest; split <;> rfl

@[simp] theorem Mach.trialWritten_mod (m : Mach) : m.trialWritten.mod = m.mod := by
  unfold Mach.trialWritten; split <;> rfl

/-- HALT for a cause (R408): the mode, every lane held, nothing driven or sent. -/
theorem Mach.enterHalt_spec (cause : Byte) (src : Nat) (m : Mach) (h : m.mod.mode ≠ .halt) :
    (m.enterHalt cause src).mod.mode = .halt ∧ LanesHeld (m.enterHalt cause src) ∧ Undriven (m.enterHalt cause src) ∧
      Unsent (m.enterHalt cause src) := by
  unfold Mach.enterHalt
  rw [if_neg h]
  dsimp only
  have e0 : m.abandonTest.mod.mode ≠ .halt := by rw [Mach.abandonTest_mod]; exact h
  generalize m.abandonTest = m0 at e0 ⊢
  generalize hm1 : Mach.trialWritten _ = m1
  have e1 : m1.mod.mode ≠ .halt := by rw [← hm1, Mach.trialWritten_mod]; exact e0
  have b := Mach.forcedOffAll_butField m1.holdLanes
  generalize m1.holdLanes.forcedOffAll = x at b ⊢
  have e2 : x.portsOff.eraseToken.mod.mode ≠ .halt := by show x.mod.mode ≠ _; rw [b.mode]; exact e1
  have l2 : x.portsOff.eraseToken.lanes = m1.holdLanes.lanes := b.lanes
  have u2 : Unsent x.portsOff.eraseToken := x.portsOff_unsent
  generalize x.portsOff.eraseToken = m2 at e2 l2 u2 ⊢
  have lane : ∀ (g : Lane → Prop), (∀ (x : Lane) y, g { x with keys := y } = g x) →
      (∀ (x : Lane) y, g { x with comm := y } = g x) → (∀ (x : Lane) y, g { x with queue := y } = g x) → ∀ l n,
      g ((((m2.enterModeAt m.cycleNo .halt).raise modPath 11).postModule n).lane l) = g (m1.holdLanes.lane l) := by
    intro g h1 h2 h3 l n
    rw [show m1.holdLanes.lane l = m2.lane l by unfold Mach.lane; rw [l2], ← Mach.enterModeAt_lane g m.cycleNo .halt m2 l h1 h2 h3]
    conv => rhs; rw [show (m2.enterModeAt m.cycleNo .halt).lane l = ((m2.enterModeAt m.cycleNo .halt).raise modPath 11).lane l
      from rfl, ← Mach.postModule_lane n _ l]
    exact (h3 _ _).symm
  refine ⟨?_, fun l hl => ?_, fun l hl => ?_, ?_⟩
  · rw [Mach.postModule_mod, Mach.raise_mod]
    exact Mach.enterModeAt_mode _ _ _ e2
  · rw [lane (fun x => x.agr.life = .out ∧ x.agr.held = true) (fun _ _ => rfl) (fun _ _ => rfl) (fun _ _ => rfl)]
    exact (Mach.holdLanes_held m1).1 l hl
  · rw [lane (fun x => x.drive.latched = 0 ∧ x.drive.windings = 0) (fun _ _ => rfl) (fun _ _ => rfl) (fun _ _ => rfl)]
    exact (Mach.holdLanes_held m1).2 l hl
  · have u3 := u2.enterModeAt m.cycleNo .halt
    unfold Unsent at *
    simpa using u3

/-! ### What passes on the Bench's clock -/

/-- Nothing differs but the Bench, the causes on the pages, the field section's clearing registers and what the pair link
carries. -/
def ButBench (a b : Mach) : Prop := { b with bench := a.bench, irq := a.irq, field := a.field, pair := a.pair } = a

theorem ButBench.refl (m : Mach) : ButBench m m := rfl

theorem ButBench.trans {a b c : Mach} (h : ButBench a b) (k : ButBench b c) : ButBench a c := by
  unfold ButBench at *
  rw [← h, ← k]

theorem ButBench.lanes {a b : Mach} (h : ButBench a b) : b.lanes = a.lanes := by have k := congrArg Mach.lanes h; exact k
theorem ButBench.mod {a b : Mach} (h : ButBench a b) : b.mod = a.mod := by have k := congrArg Mach.mod h; exact k
theorem ButBench.cal {a b : Mach} (h : ButBench a b) : b.cal = a.cal := by have k := congrArg Mach.cal h; exact k
theorem ButBench.power {a b : Mach} (h : ButBench a b) : b.power = a.power := by have k := congrArg Mach.power h; exact k
theorem ButBench.sd {a b : Mach} (h : ButBench a b) : b.sd = a.sd := by have k := congrArg Mach.sd h; exact k
theorem ButBench.now {a b : Mach} (h : ButBench a b) : b.now = a.now := by have k := congrArg Mach.now h; exact k

theorem ButBench.foldl {β : Type} (f : Mach → β → Mach) (h : ∀ m x, ButBench m (f m x)) (xs : List β) (m : Mach) :
    ButBench m (xs.foldl f m) := by
  induction xs generalizing m with
  | nil => exact .refl m
  | cons x xs ih => exact (h m x).trans (ih _)

theorem Mach.ecAdd_butBench (src q : Byte) (n : Nat) (m : Mach) : ButBench m (m.ecAdd src q n) := by
  unfold Mach.ecAdd
  (repeat' split) <;> first | rfl | (dsimp only; split <;> rfl)

theorem Mach.updRec_butBench (f : Recorder → Recorder) (m : Mach) : ButBench m (m.updRec f) := rfl

theorem Page.clearWord_butBench (p : Page) (sel off : Nat) (m : Mach) : ButBench m (p.clearWord sel off m) := by
  unfold Page.clearWord; split <;> rfl

theorem Mach.clearRead_butBench (x : Session) (a : W32) (count : Nat) (m : Mach) : ButBench m (m.clearRead x a count) := by
  unfold Mach.clearRead
  split
  · exact ButBench.foldl _ (fun m k => Page.clearWord_butBench ..) _ m
  · exact .refl m

theorem Mach.updPair_butBench (f : PairState → PairState) (m : Mach) : ButBench m (m.updPair f) := rfl

theorem Mach.sendAnswer_butBench (k : LinkId) (r : Reply) (m : Mach) : ButBench m (m.sendAnswer k r) :=
  Mach.updPair_butBench _ m

theorem Mach.serveAsked_butBench (m : Mach) : ButBench m m.serveAsked := by
  unfold Mach.serveAsked
  split
  · exact .refl m
  · split
    · exact .refl m
    · exact (Mach.updPair_butBench _ m).trans (Mach.sendAnswer_butBench ..)
    · exact ((Mach.clearRead_butBench ..).trans (Mach.updPair_butBench _ _)).trans (Mach.sendAnswer_butBench ..)

/-- What passes on the Bench's own clock stays within the Bench, the causes, the clearing registers and the pair link. -/
theorem Mach.benchTick_butBench (m : Mach) : ButBench m m.benchTick := by
  unfold Mach.benchTick
  split
  · exact .refl m
  · dsimp only
    have h : ButBench m ((m.ecAdd 0xC2 255 (m.benchSecs - m.bench.recd.secSeen)).updRec
        (fun r => { r with secSeen := m.benchSecs })).serveAsked :=
      ((Mach.ecAdd_butBench _ _ _ m).trans (Mach.updRec_butBench _ _)).trans
        (Mach.serveAsked_butBench _)
    generalize ((m.ecAdd 0xC2 255 (m.benchSecs - m.bench.recd.secSeen)).updRec
        (fun r => { r with secSeen := m.benchSecs })).serveAsked = x at h ⊢
    refine h.trans ?_
    split
    · split
      · split
        · exact (Mach.ecAdd_butBench _ _ _ x).trans (Mach.updRec_butBench _ _)
        · exact Mach.updRec_butBench _ _
      · exact Mach.updRec_butBench _ _
    · exact Mach.updRec_butBench _ _

/-! ### A lane OUT -/

/-- A lane that is OUT, or any lane in HALT, does not go OUT again. -/
theorem Mach.laneOutFor_none (roll : Bool) (l : LaneId) (cause : Byte) (m : Mach) (h : m.isOut l = true ∨ m.mod.mode = .halt) :
    m.laneOutFor roll l cause = m := by
  unfold Mach.laneOutFor; rw [if_pos h]

/-- A lane in SYNC or RESTART that goes OUT: its cause, its hold and nothing driven; the mode, and the other lanes but for their
queues of notices, stay. -/
theorem Mach.laneOutFor_rejoining (roll : Bool) (l : LaneId) (cause : Byte) (m : Mach) (h : m.life l ∈ [.sync, .restart])
    (hm : m.mod.mode ≠ .halt) :
    (m.laneOutFor roll l cause).life l = .out ∧ ((m.laneOutFor roll l cause).lane l).agr.outCause = cause ∧
      ((m.laneOutFor roll l cause).lane l).agr.held = true ∧ ((m.laneOutFor roll l cause).lane l).drive.windings = 0 ∧
      (m.laneOutFor roll l cause).mod = m.mod ∧
      ∀ k, k ≠ l → { (m.laneOutFor roll l cause).lane k with queue := (m.lane k).queue } = m.lane k := by
  have ho : m.isOut l = false := by simp at h; unfold Mach.isOut; rcases h with h | h <;> rw [h] <;> rfl
  have hv : m.isVoting l = false := by simp at h; unfold Mach.isVoting; rcases h with h | h <;> rw [h] <;> rfl
  unfold Mach.laneOutFor
  rw [if_neg (by simp [ho, hm])]
  dsimp only
  rw [hv]
  simp only [Bool.false_eq_true, if_false]
  generalize hx : (m.updLane l (Lane.goOut roll cause m.now)).raise (lanePath l 6) 0 = x
  have hl : x.lane l = Lane.goOut roll cause m.now (m.lane l) := by rw [← hx]; cases l <;> rfl
  have hk : ∀ k, k ≠ l → x.lane k = m.lane k := fun k e => by rw [← hx]; exact Mach.lane_updLane_of_ne l k _ m e
  have hmod : x.mod = m.mod := by rw [← hx]; rfl
  generalize hy : (if (m.lane l).agr.locked = true then x else if (x.lane l).agr.locked = true then x.raise (lanePath l 6) 3 else x) = y
  have yl : y.lanes = x.lanes := by rw [← hy]; (repeat' split) <;> rfl
  have ym : y.mod = x.mod := by rw [← hy]; (repeat' split) <;> rfl
  have view : ∀ k n, { ((y.raise (lanePath l 6) 2).postModule n).lane k with queue := (x.lane k).queue } = x.lane k := by
    intro k n
    have q := Mach.postModule_lane n (y.raise (lanePath l 6) 2) k
    have e : (y.raise (lanePath l 6) 2).lane k = x.lane k := by show y.lanes.get k = x.lanes.get k; rw [yl]
    rwa [e] at q
  generalize (mkNotice 0x2001 _ _ _ _ _ : Notice) = n
  have vl := view l n
  rw [hl] at vl
  refine ⟨congrArg (fun z : Lane => z.agr.life) vl, congrArg (fun z : Lane => z.agr.outCause) vl,
    congrArg (fun z : Lane => z.agr.held) vl, congrArg (fun z : Lane => z.drive.windings) vl, ?_, fun k e => ?_⟩
  · rw [Mach.postModule_mod, Mach.raise_mod, ym, hmod]
  · rw [← hk k e]; exact view k _

end Sys2Proof.Machine
end

