-- ==== Sys2Proof/Laws/Step.lean ====
section
/-! SUPPORT. How a meaning completes: the hold of HALT drops out of every meaning that keeps the mode or starts outside HALT. -/

namespace Sys2Proof.Machine

/-- A meaning that keeps the mode completes with what its function makes of the module. -/
theorem completes_of_mode_eq {i : Instr} {s : State} {P : Mach → Prop} (f : Mach → Mach) (he : exec i s = s.run f)
    (hm : (f s.m).mod.mode = s.m.mod.mode) (hp : P (f s.m)) : Completes i s P :=
  ⟨{ s with m := s.m.supervise (f s.m) }, he, rfl, by rw [Mach.supervise_of_eq _ _ hm]; exact hp⟩

/-- So does every meaning outside HALT. -/
theorem completes_of_ne_halt {i : Instr} {s : State} {P : Mach → Prop} (f : Mach → Mach) (he : exec i s = s.run f)
    (hm : s.m.mod.mode ≠ .halt) (hp : P (f s.m)) : Completes i s P :=
  ⟨{ s with m := s.m.supervise (f s.m) }, he, rfl, by rw [Mach.supervise_of_ne _ _ hm]; exact hp⟩

/-- The whole effect of a meaning, for one that keeps the mode or starts outside HALT. -/
theorem becomes_of_run {i : Instr} {s : State} {m : Mach} (f : Mach → Mach) (he : exec i s = s.run f)
    (hm : (f s.m).mod.mode = s.m.mod.mode ∨ s.m.mod.mode ≠ .halt) (hp : f s.m = m) : Becomes i s m := by
  unfold Becomes
  rw [he, State.run_eq, hp]
  rcases hm with h | h
  · rw [Mach.supervise_of_eq _ _ (by rw [← hp]; exact h)]
  · rw [Mach.supervise_of_ne _ _ h]

/-- A statement that does not look at the mode holds under the hold if it holds without. -/
theorem completes_of_both {i : Instr} {s : State} {P : Mach → Prop} (f : Mach → Mach) (he : exec i s = s.run f)
    (hp : P (f s.m)) (hh : P { f s.m with mod := { (f s.m).mod with mode := .halt } }) : Completes i s P := by
  refine ⟨_, he, rfl, ?_⟩
  show P (s.m.supervise (f s.m))
  unfold Mach.supervise
  split
  · exact hh
  · exact hp

theorem onlyLane_updLane (l : LaneId) (f : Lane → Lane) (m : Mach) : OnlyLane l m (m.updLane l f) :=
  ⟨rfl, fun k _ h => Mach.lane_updLane_of_ne l k f m h⟩

end Sys2Proof.Machine
end

