-- ==== Sys2Proof/Tests/Slice0.lean ====
section
/-! SUPPORT. Tests of our own: ill-formed commands refused, a few effects whose values come from the spec's tables and
worked examples, and for every statement with hypotheses a state and operands that meet them together. -/

set_option maxRecDepth 4000
set_option Elab.async false

namespace Sys2Proof.Tests
open Sys2Proof.Machine

/-- A header of a one-row image without timers. -/
def header (grain : Byte) (pi : List Nat) (key : BitVec 18) (sigma : List Nat) (keyT : BitVec 14) : ImageHeader :=
  { magic := 0x73407AB1, grain := grain, format := 1, sdId := 7, rows := 1, timers := 0, pi := pi, key := key
    sigma := sigma, keyT := keyT }

/-- The number that a list of digits spells, the last digit first. -/
def packed (base : Nat) (xs : List Nat) : Nat := xs.foldr (fun d a => a * base + d) 0

/-- A header in its 64 bytes, laid out as R105 has it. -/
def headBytes (h : ImageHeader) : List Byte :=
  let b := bytes32 h.magic ++ [h.grain, h.format, 0, 0] ++ bytes64 h.sdId ++ beBytes 4 h.rows ++ beBytes 2 h.timers ++ [0, 0] ++
    beBytes 12 (packed 32 h.pi * 64) ++ beBytes 3 h.key.toNat ++ beBytes 7 (packed 16 h.sigma) ++ beBytes 2 h.keyT.toNat ++
    List.replicate 12 0
  b ++ bytes32 (crc32 b)

/-- GATE of addresses 0, then END, in a grain. -/
def image (grain : Nat) (h : ImageHeader) : TableImage :=
  { head := headBytes h, rows := [(0, 0x1000000000000000), (1, BitVec.ofNat 64 (0xE * 2 ^ 60 + 2 ^ 40 + grain * 2 ^ 38))] }

def noRing : RingCfg :=
  { used := false, node := 1, pair := false, schedId := 0, cfgSchedId := 0, rtMaxGiven := some 2000, nmod := 0, entries := []
    sporadic := [], coldstarts := [], lead := true, schedCrc := 0, loadedCrc := 0, declaredOpen := false }

def noCan : CanCfg :=
  { nbr := 0, dbr := 0, tt := false, listen := false, nsp := none, dsp := none, cbcGiven := some 1, txen := none, refId := 0
    refIde := false, bufs := [], arbs := [] }

def noMap : PacketMap := { reqs := [], bits := [], timer0 := 0, timers := 0, cells := [], jxt := [], can := [] }

/-- A data set of an object controller with two inputs, one output and no network. -/
def sd : StationData :=
  { id := 7, role := .objectController, settingsFmt := 1
    imageA := image 0 (header 0 [] 0 [] 0)
    imageB := image 1 (header 1 ((List.range 18).map (fun k => (k + 5) % 18)) 1 ((List.range 14).map (fun k => (k + 1) % 14)) 1)
    imageC := image 2 (header 2 [] 0 [] 0)
    inputs := [(0, .di 0), (1, .diValid 0)], restrictIn := [], outputs := [(0x10001, 0)], restrictOut := [], initial := []
    msgs := [], msgBits := []
    permits := { maintain := none, leaveMaintain := none, commission := none, endCommission := none, swap := none
                 quiesce := none, actFw := none, actSd := none, enrol := none, slice := some 0x10000 }
    settings := { cycle := some 8, evalDlPct := none, thrMin := none, thrMax := none, encThrs := [], rateLim := none
                  timeIf := .r1, red := [⟨1, 0, none⟩], blue := [⟨2, 0, none⟩], jxIcmp := none, jxDscp := none, redOpen := false
                  blueOpen := false, mntOpenRead := none, mntStatic := true, mnt := ⟨3, 0, none⟩, mntKey := [], sliceFrom := none
                  sliceLen := none, shockThr := none, tempLow := none, tempHigh := none, railLow := none
                  railHigh := none, humHigh := none, recMode := false, buckets := [], ec := [] }
    di := { used := true, monGiven := some 0, src := none, captGiven := some 0, cos := false, filtN := none, enc := false } ::
      List.replicate 47 { used := false, monGiven := some 0, src := none, captGiven := some 0, cos := false, filtN := none, enc := false }
    ai := List.replicate 8 { used := true, thrs := [] }
    out := { used := true, ored := false, old := false, imin := none } ::
      List.replicate 23 { used := false, ored := false, old := false, imin := none }
    pf := [], ring1 := noRing, ring2 := noRing, jxt := [], can1 := noCan, can2 := noCan, profiles := []
    pair := { paired := false, requests := [], memories := [], cells := [], capacity := 0, segWords := [], joinCyc := none
              canAlive := [], carryFrom := 0, carry := noMap } }

/-- A verdict in which no lane finds anything beside the images. -/
def verdict : ConfigVerdict :=
  { manifestA := none, manifestB := none, manifestC := none, others := [] }

/-- A powered module. -/
def pow : Mach := { State.reset.m with power := { powered := true, supplyOk := true } }

/-- A module with no command waiting. -/
def st (m : Mach) : State := ⟨[], m⟩

/-- Every lane with a change. -/
def each (f : Lane → Lane) (m : Mach) : Mach := m.updLanes (fun _ x => f x)

/-- Three VOTING lanes in SERVICE on the small data set. -/
def serv : Mach :=
  each (fun x => { x with agr := { x.agr with life := .voting, held := false } })
    { pow with sd := some sd, mod := { mode := .service } }

/-- The same with the Bench running. -/
def servB : Mach := { serv with bench := { up := true } }

/-- What the controller of a block that passes holds, under a firmware set and a hardware revision. -/
def passOf (m : Mach) (b : Block) (l : LaneId) : BlockResult :=
  { block := b, judge := l
    sigs := if bistBlock b then Config.bistExpect (m.bench.upd.runSlot .firmware).mbytes m.ident.hwRev (blockCode b) else []
    count := expectedCount b, word := completionWord b, ended := some (interval b).2, failed := [], watchdog := false }

def passing (m : Mach) : List BlockResult := blocks.map (fun b => passOf m b .a) ++ [passOf m .supervisor .b, passOf m .supervisor .c]

theorem passOf_item (m k : Mach) (h : k.bench.upd = m.bench.upd) (i : k.ident = m.ident) (b : Block) (l : LaneId) :
    k.failedItem (interval b).2 (passOf m b l) = 0 := by
  cases b <;> simp [Mach.failedItem, Mach.itemHolds, passOf, bistBlock, h, i]

theorem passing_blocks (m : Mach) (hm : m.bench.test = { fit := true }) (ho : (List.range 24).all m.oredLightOk = true) (b : Block) :
    (m.updTest (fun x => { x with results := passing m })).blockPassed b = true := by
  have hr : (m.updTest (fun x => { x with results := passing m })).blockRuns b = true := by
    cases b <;> simp [Mach.blockRuns, Mach.updTest, Mach.updBench, hm]; all_goals exact fun n hn => List.all_eq_true.mp ho n (List.mem_range.mpr hn)
  have hs : ∀ r ∈ (m.updTest (fun x => { x with results := passing m })).resultsOf b, ∃ l, r = passOf m b l := by
    unfold Mach.resultsOf
    rw [hr]
    simp only [Mach.updTest, Mach.updBench, hm]
    cases b <;> intro r h <;> simp [laneIds, inMask] at h <;>
      first | exact ⟨.a, h⟩ | (rcases h with rfl | rfl | rfl; exacts [⟨.a, rfl⟩, ⟨.b, rfl⟩, ⟨.c, rfl⟩])
  have hf : (m.updTest (fun x => { x with results := passing m })).blockFailed b = false := by
    unfold Mach.blockFailed
    rw [List.any_eq_false]
    intro r h
    obtain ⟨l, rfl⟩ := hs r h
    rw [passOf_item m (m.updTest (fun x => { x with results := passing m })) rfl rfl b l]
    decide
  simp [Mach.blockPassed, hr, hf]

/-- A transfer copy under its check word. -/
def sealCopy (c : TransferCopy) : TransferCopy := { c with crc := copyCrc c }

theorem sealCopy_intact (c : TransferCopy) : copyIntact (sealCopy c) = true := by
  show (copyCrc c == copyCrc (sealCopy c)) = true
  rw [show copyCrc (sealCopy c) = copyCrc c from rfl]
  exact beq_self_eq_true _

/-! ### Ill-formed commands are refused -/

theorem test_channel_range : malformed (.inputRawSample 48 24000 0) = some .channel := by decide
theorem test_source_range : malformed (.darkWindow 4 false 0 0) = some .source := by decide
theorem test_output_range : malformed (.overload 24 0) = some .output := by decide
theorem test_message_range : malformed (.skewWindowClose 4097 0 0) = some .message := by decide
theorem test_sample_length : malformed (.sensorSample [1, 2] [3] 0) = some .sample := by decide
theorem test_window_range : malformed (.exclusiveWindowSend .r1 2048 0) = some .window := by decide
theorem test_connection_range : malformed (.jxtGroupSettle 64 0) = some .connection := by decide
theorem test_context_range : malformed (.cvStart .a 8) = some .context := by decide
theorem test_feed_size : malformed (.cvFeed .a 0 3 0 false) = some .feed := by decide
theorem test_buffer_range : malformed (.tatPending .p1 64 0) = some .buffer := by decide
theorem test_checkpoint_range : malformed (.progressCheckpoint .a 4 0) = some .checkpoint := by decide
theorem test_wellformed : wellFormed (.overload 23 0) = true := by decide

/-! ### Values of the spec's tables and worked examples -/

/-- The nine bytes "123456789" of R331. -/
def nine : List Byte := [0x31, 0x32, 0x33, 0x34, 0x35, 0x36, 0x37, 0x38, 0x39]
theorem test_check_value_1 : crcOf crcCode1 nine = 0x62EC59E3F1A4F00A := by decide +kernel
theorem test_check_value_2 : crcOf crcCode2 nine = 0xCBF43926 := by decide +kernel
theorem test_check_value_3 : crcOf crcCode3 nine = 0xE3069283 := by decide +kernel
theorem test_check_value_4 : crcOf crcCode4 nine = 0x29B1 := by decide +kernel

/-- CI-North's cross-grain header (the worked example after R107). -/
def ciNorth : ImageHeader :=
  header 1 [13, 8, 16, 11, 5, 7, 14, 10, 2, 17, 6, 1, 15, 4, 12, 9, 0, 3] 0x16A39 [4, 7, 3, 9, 12, 1, 10, 6, 13, 2, 8, 0, 11, 5] 0x2D5A
theorem test_cross_grain_req : stateAddr .cross ciNorth 0x01A20 = 0x1AA21 := by decide +kernel
theorem test_cross_grain_conflict : stateAddr .cross ciNorth 0x28101 = 0x0783B := by decide +kernel
theorem test_cross_grain_back : trueAddr .cross ciNorth 0x1783B = 0x28100 := by decide +kernel
theorem test_cross_grain_cell : cellAddr .cross ciNorth 0x0412 = 0x2D3B := by decide +kernel

/-- Row 0x1_3A44 of the fragment: class, preset, cell and done bit. -/
theorem test_timer_row : (rowClass 0x301770104A041200, rowField 0x301770104A041200 59 40, rowField 0x301770104A041200 39 26,
    rowField 0x301770104A041200 25 8) = (3, 6000, 0x0412, 0x20412) := by decide +kernel
/-- Row 0x1_3A42: class, truth table and the addresses A and D. -/
theorem test_store_row : (rowClass 0x2F22041228100000, rowField 0x2F22041228100000 59 52, rowField 0x2F22041228100000 49 32,
    rowField 0x2F22041228100000 29 12) = (2, 0xF2, 0x20412, 0x28100) := by decide +kernel

/-- OC-1/022's close of 850.0 µs, in half-ns. -/
theorem test_close : predClose 291999 1060 = 1700000 := by decide +kernel

/-- The traverser of OC-4/031. -/
def traverser : PfCfg :=
  { kind := .safeStop, anti := false, base := 0, chA := none, chB := none, chC := none, chD := none, reset := none, lock := none
    guard := [], tdisc := none, ackmax := none, vmaxGiven := some 2000, vlim0Given := some 2200, tdelayGiven := some 240, decelGiven := some 4000, vssGiven := some 100
    tssGiven := some 200, tmaxGiven := some 3000 }
theorem test_curve_before : limitCurve traverser 8 = 2200 := by decide +kernel
theorem test_curve_336 : limitCurve traverser 336 = 1816 := by decide +kernel
theorem test_curve_344 : limitCurve traverser 344 = 1784 := by decide +kernel

/-- Page addresses of "Register Pages, Host Port and Maintenance Access". -/
theorem test_page_outputs : pathAddr (fieldPath 2) = 0x1A800000 := by decide +kernel
theorem test_page_votes : pathAddr (calPath 4) = 0x19000000 := by decide +kernel
theorem test_page_host : pathAddr [1, 7, 4] = 0x1F000000 := by decide +kernel

/-- A command runs from reset: POWER_UP gives power, and the queue is empty after it. -/
theorem test_power_up : (match step (State.reset.push (.powerUp 5)) with
    | .next s => s.m.power.powered && s.pending.isEmpty
    | _ => false) = true := by decide +kernel

/-- S(0x53) of FIPS 197, section 4.2.1. -/
theorem test_sbox : subByte 0x53 = 0xED ∧ unsubByte 0xED = 0x53 := by decide +kernel
/-- The module power of R415's table, in 0.1 W, and its energy. -/
theorem test_power : testIntervals.map (fun q => testPower (fun _ => true) q.1) =
    [240, 199, 189, 189, 148, 133, 87, 82, 138, 138, 138, 133, 67] ∧ testEnergy (fun _ => true) = 308 := by decide +kernel

/-! ### Witnesses: CheckValueOperations -/

namespace WCv

/-- A context of a lane, sound and running. -/
def cvRun : CvCtx := { running := true }
def cvLanes (x : CvCtx) : State := st { serv with lanes := ⟨{ cv := [x] }, {}, {}⟩ }

theorem meets_CheckValueOperations_1 : ∃ (s : State) (l : LaneId) (ctx : Nat) (p : CrcParams) (x : CvCtx),
    s.m.ctxParams ctx = some p ∧
    (s.m.lane l).cv[ctx]? = some x :=
  ⟨cvLanes {}, .a, 0, crcCode1, {}, by decide +kernel⟩

theorem meets_CheckValueOperations_2 : ∃ (s : State) (l : LaneId) (ctx : Nat) (p : CrcParams) (x : CvCtx),
    s.m.ctxParams ctx = some p ∧
    (s.m.lane l).cv[ctx]? = some x ∧
    x.running = true ∧
    x.runC = ~~~x.run :=
  ⟨cvLanes cvRun, .a, 0, crcCode1, cvRun, by decide +kernel⟩

theorem meets_CheckValueOperations_3 : ∃ (s : State) (l : LaneId) (ctx : Nat) (p : CrcParams) (x : CvCtx),
    s.m.ctxParams ctx = some p ∧
    (s.m.lane l).cv[ctx]? = some x ∧
    x.running = true ∧
    x.runC = ~~~x.run :=
  ⟨cvLanes cvRun, .a, 0, crcCode1, cvRun, by decide +kernel⟩

theorem meets_CheckValueOperations_4 : ∃ (s : State) (l : LaneId) (ctx : Nat) (p : CrcParams) (x : CvCtx),
    s.m.ctxParams ctx = some p ∧
    (s.m.lane l).cv[ctx]? = some x ∧
    x.running = true ∧
    x.runC = ~~~x.run :=
  ⟨cvLanes cvRun, .a, 0, crcCode1, cvRun, by decide +kernel⟩

end WCv

/-! ### Witnesses: SupplyCommands -/

namespace WSupply

def lost : Mach := { serv with power := { powered := true, supplyOk := false, lossAt := some 0 } }

theorem meets_SupplyCommands_1 : ∃ (s : State),
    s.m.power.powered = false ∧
    s.m.bench.up = false :=
  ⟨State.reset, by decide +kernel⟩

theorem meets_SupplyCommands_2 : ∃ (s : State),
    s.m.power.powered = true ∧
    s.m.power.supplyOk = true :=
  ⟨st serv, by decide +kernel⟩

theorem meets_SupplyCommands_3 : ∃ (s : State) (t : Nat) (t0 : Nat),
    s.m.power.powered = true ∧
    s.m.power.supplyOk = false ∧
    s.m.power.lossAt = some t0 ∧
    t0 + 20000000 ≤ max s.m.now t ∧
    s.m.mod.mode ∉ [.dormant, .halt, .quiesce] :=
  ⟨st lost, 20000000, 0, by decide +kernel⟩

theorem meets_SupplyCommands_4 : ∃ (s : State) (t0 : Nat),
    s.m.power.powered = true ∧
    s.m.power.supplyOk = false ∧
    s.m.power.lossAt = some t0 ∧
    s.m.mod.mode ∉ [.dormant, .quiesce] :=
  ⟨st lost, 0, by decide +kernel⟩

theorem meets_SupplyCommands_5 : ∃ (s : State) (t0 : Nat),
    s.m.power.powered = true ∧
    s.m.power.supplyOk = false ∧
    s.m.power.lossAt = some t0 ∧
    s.m.mod.mode ∈ [.dormant, .quiesce] :=
  ⟨st { lost with mod := {} }, 0, by decide +kernel⟩

theorem meets_SupplyCommands_6 : ∃ (s : State),
    s.m.power.powered = true ∧
    s.m.power.supplyOk = false :=
  ⟨st lost, by decide +kernel⟩

theorem meets_SupplyCommands_7 : ∃ (s : State) (t : Nat) (t0 : Nat),
    s.m.mod.mode = .halt ∧
    s.m.power.powered = true ∧
    s.m.power.supplyOk = false ∧
    s.m.power.lossAt = some t0 ∧
    t0 + 1000000000 ≤ max s.m.now t :=
  ⟨st { lost with mod := { mode := .halt } }, 1000000000, 0, by decide +kernel⟩

theorem meets_SupplyCommands_8 : ∃ (s : State),
    s.m.power.powered = true :=
  ⟨st serv, by decide +kernel⟩

end WSupply

/-! ### Witnesses: ResetLine -/

namespace WReset



theorem meets_ResetLine_1 : ∃ (s : State),
    s.m.power.powered = true :=
  ⟨st pow, by decide +kernel⟩

theorem meets_ResetLine_2 : ∃ (s : State),
    s.m.power.powered = true ∧
    (s.m.mod.lowRun = 0 ∨ 40 ≤ s.m.mod.lowRun) :=
  ⟨st pow, by decide +kernel⟩

theorem meets_ResetLine_3 : ∃ (s : State),
    s.m.power.powered = true ∧
    1 ≤ s.m.mod.lowRun ∧
    s.m.mod.lowRun < 40 :=
  ⟨st { pow with mod := { lowRun := 3 } }, by decide +kernel⟩

theorem meets_ResetLine_4 : ∃ (s : State) (t : Nat),
    s.m.power.powered = true ∧
    s.m.mod.asserted = false ∧
    40 ≤ s.m.mod.lowRun ∧
    s.m.mod.lowFrom + 20000000 ≤ max s.m.now t ∧
    s.m.mod.mode ≠ .halt :=
  ⟨st { pow with mod := { mode := .service, lowRun := 40, lowFrom := 5 } }, 20000005, by decide +kernel⟩

theorem meets_ResetLine_5 : ∃ (s : State) (t : Nat),
    s.m.power.powered = true ∧
    s.m.mod.asserted = false ∧
    40 ≤ s.m.mod.lowRun ∧
    s.m.mod.lowFrom + 20000000 ≤ max s.m.now t ∧
    s.m.mod.mode = .halt :=
  ⟨st { pow with mod := { mode := .halt, lowRun := 40, lowFrom := 5 } }, 20000005, by decide +kernel⟩

theorem meets_ResetLine_6 : ∃ (s : State) (t : Nat),
    s.m.power.powered = true ∧
    s.m.power.supplyOk = true ∧
    s.m.power.commanded = false ∧
    s.m.mod.mode = .dormant ∧
    s.m.mod.released = false ∧
    s.m.mod.asserted = true ∧
    200 ≤ s.m.mod.highRun ∧
    s.m.mod.highFrom + 100000000 ≤ max s.m.now t ∧
    s.m.power.qualAt + 100000000 ≤ max s.m.now t ∧
    s.m.bench.upd.trial = none ∧
    s.m.bench.upd.armed = false ∧
    s.m.railsOk = true :=
  ⟨st { pow with mod := { asserted := true, highRun := 200, highFrom := 5 } }, 120000005, by decide +kernel⟩

theorem meets_ResetLine_7 : ∃ (s : State) (t : Nat),
    s.m.power.powered = true ∧
    s.m.mod.mode = .dormant ∧
    s.m.mod.released = false ∧
    s.m.mod.asserted = false ∧
    200 ≤ s.m.mod.highRun ∧
    s.m.mod.highFrom + 100000000 ≤ max s.m.now t ∧
    s.m.power.qualAt + 100000000 ≤ max s.m.now t ∧
    s.m.railsOk = false :=
  ⟨st { pow with mod := { highRun := 200, highFrom := 5 }, lanes := ⟨{ agr := { railBad := true } }, {}, {}⟩ }, 120000005, by decide +kernel⟩

theorem meets_ResetLine_8 : ∃ (s : State) (t : Nat),
    s.m.power.powered = true ∧
    s.m.mod.mode ≠ .dormant ∧
    s.m.mod.released = false ∧
    s.m.mod.asserted = false ∧
    200 ≤ s.m.mod.highRun ∧
    s.m.mod.highFrom + 100000000 ≤ max s.m.now t ∧
    s.m.power.qualAt + 100000000 ≤ max s.m.now t :=
  ⟨st { pow with mod := { mode := .service, highRun := 200, highFrom := 5 } }, 120000005, by decide +kernel⟩

theorem meets_ResetLine_9 : ∃ (s : State) (t : Nat),
    s.m.mod.asserted = true ∧
    s.m.mod.rstLevel = true ∧
    s.m.mod.rstStuck = false ∧
    s.m.mod.assertAt + 30000000000 ≤ max s.m.now t :=
  ⟨st { pow with mod := { asserted := true, rstLevel := true } }, 30000000000, by decide +kernel⟩

end WReset

/-! ### Witnesses: RailCommands -/

namespace WRails



theorem meets_RailCommands_1 : ∃ (s : State) (l : LaneId),
    s.m.power.powered = true ∧
    (s.m.lane l).agr.railBad = false ∧
    s.m.life l ≠ .out ∧
    s.m.mod.mode ≠ .halt :=
  ⟨st serv, .b, by decide +kernel⟩

theorem meets_RailCommands_2 : ∃ (s : State) (l : LaneId),
    s.m.power.powered = true ∧
    (s.m.lane l).agr.railBad = false ∧
    s.m.life l = .out ∧
    s.m.mod.mode ∈ [.boot, .config] ∧
    (s.m.lane l).agr.held = false :=
  ⟨st { pow with mod := { mode := .boot }, lanes := Tri.all (fun _ x => { x with agr := { x.agr with held := false } }) ⟨{}, {}, {}⟩ }, .c, by decide +kernel⟩

theorem meets_RailCommands_3 : ∃ (s : State) (l : LaneId),
    s.m.power.powered = true ∧
    (s.m.lane l).agr.railBad = false ∧
    s.m.life l = .out ∧
    (s.m.lane l).agr.held = true :=
  ⟨st pow, .a, by decide +kernel⟩

theorem meets_RailCommands_4 : ∃ (s : State) (l : LaneId),
    (s.m.lane l).agr.railBad = true ∧
    s.m.mod.mode ≠ .dormant :=
  ⟨st { serv with lanes := ⟨{ agr := { railBad := true } }, {}, {}⟩ }, .a, by decide +kernel⟩

theorem meets_RailCommands_5 : ∃ (s : State) (l : LaneId),
    (s.m.lane l).agr.railBad = true ∧
    s.m.mod.mode = .dormant :=
  ⟨st { pow with lanes := ⟨{ agr := { railBad := true } }, {}, {}⟩ }, .a, by decide +kernel⟩

theorem meets_RailCommands_6 : ∃ (s : State),
    s.m.power.powered = true ∧
    s.m.mod.mode ≠ .halt :=
  ⟨st serv, by decide +kernel⟩

theorem meets_RailCommands_9 : ∃ (s : State),
    s.m.power.powered = true ∧
    s.m.bench.up = false :=
  ⟨st serv, by decide +kernel⟩

theorem meets_RailCommands_10 : ∃ (s : State) (t : Nat) (t0 : Nat),
    s.m.power.powered = false ∧
    s.m.power.lossAt = some t0 ∧
    t0 + 360000000000000 ≤ max s.m.now t :=
  ⟨st { State.reset.m with power := { lossAt := some 0 } }, 360000000000000, 0, by decide +kernel⟩

theorem meets_RailCommands_11 : ∃ (s : State),
    s.m.power.carrierOn = true :=
  ⟨st { serv with power := { serv.power with carrierOn := true }, ring1 := { serv.ring1 with east := { serv.ring1.east with up := true, fx := true }, west := { serv.ring1.west with up := true } } }, by decide +kernel⟩

theorem meets_RailCommands_12 : ∃ (s : State) (t : Nat),
    s.m.power.carrierShort = true ∧
    s.m.power.carrierAt + 1000000000 ≤ max s.m.now t :=
  ⟨st { serv with power := { serv.power with carrierShort := true, carrierOn := false } }, 1000000000, by decide +kernel⟩

theorem meets_RailCommands_13 : ∃ (s : State) (t : Nat),
    (s.m.power.carrierShort = false ∨ max s.m.now t < s.m.power.carrierAt + 1000000000) :=
  ⟨st { serv with power := { serv.power with carrierShort := true, carrierOn := false } }, 999999999, by decide +kernel⟩

end WRails

/-! ### Witnesses: BootCommands -/

namespace WBoot

/-- A module in BOOT, its lanes out of reset. -/
def booting (kind : BitVec 2) : Mach :=
  each (fun x => { x with agr := { x.agr with held := false } }) { pow with mod := { mode := .boot, bootKind := kind } }
def okLane : LaneBoot := { firmwareOk := true, rsaOk := true, slhOk := true, injectionOk := true }
def badLane : LaneBoot := { firmwareOk := false, rsaOk := true, slhOk := true, injectionOk := true }
def bootRep (a b c : LaneBoot) (ok : Bool) (bs : List BlockResult) : BootReport :=
  { laneA := a, laneB := b, laneC := c, callipersOk := ok, supervisorOk := true, blocks := bs }
/-- A full boot test whose field supply is healthy. -/
def fullBoot : Mach := { booting 2 with bench := { test := { fit := true } } }

theorem meets_BootCommands_1 : ∃ (s : State) (r : BootReport),
    s.m.mod.mode = .boot ∧
    s.m.mod.bootKind = 1 ∧
    (∀ l ∈ laneIds, bootFirmwareOk (bootReportOf r l) = true ∧ (bootReportOf r l).injectionOk = true) ∧
    r.callipersOk = true ∧
    r.supervisorOk = true :=
  ⟨st (booting 1), bootRep okLane okLane okLane true [], by decide +kernel⟩

theorem meets_BootCommands_2 : ∃ (s : State) (r : BootReport) (l : LaneId),
    s.m.mod.mode = .boot ∧
    s.m.mod.bootKind = 1 ∧
    (∀ k ∈ laneIds, s.m.startsUp k = true ∧ bootFirmwareOk (bootReportOf r k) = true ∧
      ((bootReportOf r k).injectionOk = true ↔ k ≠ l)) ∧
    r.callipersOk = true ∧
    r.supervisorOk = true :=
  ⟨st (booting 1), bootRep okLane { okLane with injectionOk := false } okLane true [], .b, by decide +kernel⟩

theorem meets_BootCommands_3 : ∃ (s : State) (r : BootReport),
    s.m.mod.mode = .boot ∧
    s.m.mod.bootKind = 1 ∧
    (∀ l ∈ laneIds, bootFirmwareOk (bootReportOf r l) = true) ∧
    (r.callipersOk = false ∨ r.supervisorOk = false) :=
  ⟨st (booting 1), bootRep okLane okLane okLane false [], by decide +kernel⟩

theorem meets_BootCommands_4 : ∃ (s : State) (r : BootReport) (t : Nat),
    s.m.mod.mode = .boot ∧
    (s.m.mod.bootKind ≠ 2 ∨ (s.m.bench.test.judged = false ∧ s.m.mod.bootAt + 2220000000 ≤ max s.m.now t)) ∧
    (∀ l ∈ laneIds, bootFirmwareOk (bootReportOf r l) = false ∧ s.m.startsUp l = true) ∧
    s.m.bench.upd.trial = none ∧
    s.m.bench.upd.armed = false ∧
    s.m.mod.failedBoots < 2 :=
  ⟨st (booting 1), bootRep badLane badLane badLane true [], 5, by decide +kernel⟩

theorem meets_BootCommands_5 : ∃ (s : State) (t : Nat),
    s.m.mod.mode = .boot ∧
    s.m.mod.bootKind = 2 ∧
    max s.m.now t < s.m.mod.bootAt + 2220000000 :=
  ⟨st fullBoot, 2219999999, by decide +kernel⟩

theorem meets_BootCommands_6 : ∃ (s : State) (r : BootReport) (t : Nat),
    s.m.mod.mode = .boot ∧
    s.m.mod.bootKind = 2 ∧
    s.m.bench.test.judged = false ∧
    s.m.mod.bootAt + 2220000000 ≤ max s.m.now t ∧
    (∀ l ∈ laneIds, bootFirmwareOk (bootReportOf r l) = true ∧ s.m.startsUp l = true ∧ s.m.life l = .out) ∧
    (∀ b ∈ blocks, (s.m.updTest (fun x => { x with results := r.blocks })).blockPassed b = true) :=
  by refine ⟨st fullBoot, bootRep okLane okLane okLane true (passing fullBoot), 2220000000, by decide +kernel, by decide +kernel, by decide +kernel, by decide +kernel, by decide +kernel, fun b _ => passing_blocks fullBoot rfl (by decide +kernel) b⟩

theorem meets_BootCommands_7 : ∃ (s : State) (t : Nat),
    s.m.mod.mode = .boot ∧
    s.m.mod.bootKind = 2 ∧
    s.m.bench.test.judged = true ∧
    s.m.mod.bootAt + 2380000000 ≤ max s.m.now t ∧
    2 ≤ s.m.bootLanes.length :=
  ⟨st { fullBoot with bench := { test := { judged := true } } }, 2380000000, by decide +kernel⟩

theorem meets_BootCommands_8 : ∃ (s : State),
    s.m.mod.mode = .boot ∧
    s.m.bench.upd.trial = none ∧
    s.m.bench.upd.armed = false ∧
    s.m.mod.failedBoots < 2 :=
  ⟨st (booting 2), by decide +kernel⟩

theorem meets_BootCommands_9 : ∃ (s : State),
    s.m.mod.mode = .boot ∧
    s.m.bench.upd.trial = none ∧
    2 ≤ s.m.mod.failedBoots :=
  ⟨st { booting 2 with mod := { mode := .boot, failedBoots := 2 } }, by decide +kernel⟩

theorem meets_BootCommands_10 : ∃ (s : State) (t : Nat),
    s.m.mod.mode = .boot ∧
    s.m.bench.upd.trial = none ∧
    s.m.bench.upd.armed = false ∧
    s.m.mod.failedBoots < 2 ∧
    s.m.mod.bootAt + (if s.m.mod.bootKind = 1 then 1000000000 else 3500000000) < max s.m.now t :=
  ⟨st (booting 1), 1000000001, by decide +kernel⟩

end WBoot

/-! ### Witnesses: ConfigCommands -/

namespace WConfig

/-- A module in CONFIG on the small set. -/
def configuring : Mach :=
  each (fun x => { x with agr := { x.agr with held := false } })
    { pow with mod := { mode := .config }, bench := { upd := { sdA := { state := .active, sdId := 7 } } } }
/-- The small set with a cycle length that R494 does not allow. -/
def sdBad : StationData := { sd with settings := { sd.settings with cycle := some 3 } }

theorem meets_ConfigCommands_1 : ∃ (s : State) (sd : StationData) (v : ConfigVerdict) (t : Nat),
    s.m.mod.mode = .config ∧
    (s.m.tick t).configOn sd.id = true ∧
    setRefusal (s.m.tick t) sd v = none ∧
    (∀ l ∈ laneIds, s.m.configures l = true ∧ laneFinding (s.m.tick t) sd v l = none) :=
  ⟨st configuring, sd, verdict, 5, by decide +kernel⟩

theorem meets_ConfigCommands_2 : ∃ (s : State) (sd : StationData) (v : ConfigVerdict) (t : Nat) (r : SetRefusal),
    s.m.mod.mode = .config ∧
    (s.m.tick t).configOn sd.id = true ∧
    setRefusal (s.m.tick t) sd v = some r ∧
    s.m.bench.upd.trial = none ∧
    s.m.bench.upd.onTrial .firmware = false ∧
    s.m.bench.upd.onTrial .stationData = false :=
  ⟨st configuring, sdBad, verdict, 5, firstRefusal configuring sdBad verdict, by decide +kernel⟩

theorem meets_ConfigCommands_3 : ∃ (s : State) (t : Nat),
    s.m.mod.mode = .config ∧
    s.m.mod.configHeld = false ∧
    s.m.mod.configAt + 1000000000 ≤ max s.m.now t ∧
    s.m.bench.upd.onTrial .firmware = false ∧
    s.m.bench.upd.onTrial .stationData = false :=
  ⟨st configuring, 1000000000, by decide +kernel⟩

theorem meets_ConfigCommands_4 : ∃ (s : State) (t : Nat),
    s.m.mod.mode = .join ∧
    s.m.mod.joinAt + 10000000000 + s.m.mod.joinEvents * 60000000000 ≤ max s.m.now t :=
  ⟨st { serv with mod := { mode := .join } }, 10000000000, by decide +kernel⟩

end WConfig

/-! ### Witnesses: TimetableFaults -/

namespace WTimetable

/-- Lane B of a serving module in a phase. -/
def laneB (f : Lane → Lane) : State := st (serv.updLane .b f)

theorem meets_TimetableFaults_1 : ∃ (s : State) (l : LaneId) (t : Nat),
    s.m.mod.mode ≠ .halt ∧
    s.m.life l ≠ .out ∧
    (s.m.lane l).awake = true ∧
    (s.m.lane l).phase = .wake ∧
    (s.m.lane l).t0 + 20000 ≤ max s.m.now t :=
  ⟨laneB (fun x => { x with awake := true, phase := .wake }), .b, 20000, by decide +kernel⟩

theorem meets_TimetableFaults_2 : ∃ (s : State) (l : LaneId) (t : Nat),
    s.m.mod.mode ≠ .halt ∧
    s.m.life l ≠ .out ∧
    (s.m.lane l).awake = true ∧
    (s.m.lane l).sampled = false ∧
    (s.m.lane l).phase ∈ [.wake, .sampling] ∧
    (s.m.lane l).t0 + 45000 ≤ max s.m.now t :=
  ⟨laneB (fun x => { x with awake := true, phase := .sampling }), .b, 45000, by decide +kernel⟩

theorem meets_TimetableFaults_3 : ∃ (s : State) (l : LaneId) (t : Nat),
    s.m.mod.mode ≠ .halt ∧
    s.m.life l ≠ .out ∧
    (s.m.lane l).awake = true ∧
    ((s.m.lane l).xch.ownSent = false ∨ (s.m.lane l).xch.mapped = false) ∧
    (s.m.lane l).phase ∈ [.wake, .sampling, .exchange] ∧
    (s.m.lane l).t0 + 108000 ≤ max s.m.now t :=
  ⟨laneB (fun x => { x with awake := true, phase := .exchange }), .b, 108000, by decide +kernel⟩

theorem meets_TimetableFaults_4 : ∃ (s : State) (l : LaneId) (k : Nat) (t : Nat),
    s.m.mod.mode ≠ .halt ∧
    s.m.life l ≠ .out ∧
    (s.m.lane l).awake = true ∧
    (s.m.lane l).mayRun = true ∧
    (s.m.lane l).phase ∈ [.wake, .sampling, .exchange, .run] ∧
    k ∈ [1, 2, 3] ∧
    2 * ((s.m.lane l).t0 + 110000) + checkRow (s.m.lane l).cop.rows.toNat k * 5 ≤ 2 * max s.m.now t ∧
    ((s.m.lane l).cop.rowPtr.toNat + 4 < checkRow (s.m.lane l).cop.rows.toNat k ∨
      checkRow (s.m.lane l).cop.rows.toNat k + 4 < (s.m.lane l).cop.rowPtr.toNat) :=
  ⟨laneB (fun x => { x with awake := true, phase := .run, cop := { active := true, rows := 7 } }), .b, 3, 200000, by decide +kernel⟩

theorem meets_TimetableFaults_5 : ∃ (s : State) (l : LaneId) (k : Nat),
    (s.m.lane l).cop.rowPtr.toNat ≤ checkRow (s.m.lane l).cop.rows.toNat k + 4 ∧
    checkRow (s.m.lane l).cop.rows.toNat k ≤ (s.m.lane l).cop.rowPtr.toNat + 4 :=
  ⟨st serv, .b, 1, by decide +kernel⟩

theorem meets_TimetableFaults_6 : ∃ (s : State) (l : LaneId) (t : Nat),
    s.m.mod.mode ≠ .halt ∧
    s.m.life l ≠ .out ∧
    (s.m.lane l).awake = true ∧
    (s.m.lane l).phase ∈ [.wake, .sampling, .exchange, .run] ∧
    (s.m.lane l).t0 + s.m.evalDl ≤ max s.m.now t :=
  ⟨laneB (fun x => { x with awake := true, phase := .run }), .b, 4800000, by decide +kernel⟩

theorem meets_TimetableFaults_7 : ∃ (s : State) (l : LaneId),
    (s.m.lane l).phase ∈ [.handover, .mirror, .sleepEntry, .asleep] :=
  ⟨laneB (fun x => { x with phase := .handover }), .b, by decide +kernel⟩

theorem meets_TimetableFaults_8 : ∃ (s : State) (l : LaneId) (t : Nat),
    s.m.mod.mode ≠ .halt ∧
    s.m.life l ≠ .out ∧
    (s.m.lane l).awake = true ∧
    (s.m.lane l).phase ∈ [.wake, .sampling, .exchange, .run, .handover] ∧
    (s.m.lane l).t0 + s.m.evalDl + 400000 ≤ max s.m.now t :=
  ⟨laneB (fun x => { x with awake := true, phase := .handover }), .b, 5200000, by decide +kernel⟩

theorem meets_TimetableFaults_9 : ∃ (s : State) (l : LaneId) (t : Nat),
    s.m.mod.mode ≠ .halt ∧
    s.m.life l ≠ .out ∧
    (s.m.lane l).awake = true ∧
    (s.m.lane l).phase = .mirror ∧
    (s.m.lane l).t0 + s.m.cycleNs * 9 / 10 ≤ max s.m.now t :=
  ⟨laneB (fun x => { x with awake := true, phase := .mirror }), .b, 7200000, by decide +kernel⟩

end WTimetable

/-! ### Witnesses: GateAndStoreRows, TimerAndEndRows, RowFaults -/

namespace WRows

/-- A lane of a serving module in a run on a table of one row. -/
def running (l : LaneId) (row : W64) : State :=
  st (serv.updLane l (fun x => { x with
    phase := .run, awake := true, cop := { x.cop with active := true, timers := 1 }
    mem := { header := some (header 0 [] 0 [] 0), table := [(0, row)], timers := [(0, 0x80000005)] } }))

theorem meets_GateAndStoreRows_1 : ∃ (s : State) (l : LaneId) (f : Fetch) (w : W64),
    (s.m.lane l).cop.active = true ∧
    (s.m.lane l).cop.ended = false ∧
    s.m.life l ≠ .out ∧
    fetched f (memRead 0 (s.m.lane l).mem.table (s.m.lane l).cop.next) = some w ∧
    rowClass w = 1 ∧
    reservedOk w = true :=
  ⟨running .a 0x1F00000000000000, .a, .clean, 0x1F00000000000000, by decide +kernel⟩

theorem meets_GateAndStoreRows_2 : ∃ (s : State) (l : LaneId) (f : Fetch) (w : W64),
    (s.m.lane l).cop.active = true ∧
    (s.m.lane l).cop.ended = false ∧
    s.m.life l ≠ .out ∧
    fetched f (memRead 0 (s.m.lane l).mem.table (s.m.lane l).cop.next) = some w ∧
    rowClass w = 2 ∧
    reservedOk w = true :=
  ⟨running .b 0x2800000000000000, .b, .corrected, 0x2800000000000000, by decide +kernel⟩

theorem meets_TimerAndEndRows_1 : ∃ (s : State) (l : LaneId) (f : Fetch) (w : W64),
    s.m.grain l ≠ .counter ∧
    (s.m.lane l).cop.active = true ∧
    (s.m.lane l).cop.ended = false ∧
    s.m.life l ≠ .out ∧
    fetched f (memRead 0 (s.m.lane l).mem.table (s.m.lane l).cop.next) = some w ∧
    rowClass w = 3 ∧
    reservedOk w = true :=
  ⟨running .a 0x3000020000000300, .a, .clean, 0x3000020000000300, by decide +kernel⟩

theorem meets_TimerAndEndRows_2 : ∃ (s : State) (l : LaneId) (f : Fetch) (w : W64),
    s.m.grain l = .counter ∧
    (s.m.lane l).cop.active = true ∧
    (s.m.lane l).cop.ended = false ∧
    s.m.life l ≠ .out ∧
    fetched f (memRead 0 (s.m.lane l).mem.table (s.m.lane l).cop.next) = some w ∧
    rowClass w = 3 ∧
    reservedOk w = true :=
  ⟨running .c 0x3000020000000300, .c, .clean, 0x3000020000000300, by decide +kernel⟩

theorem meets_TimerAndEndRows_3 : ∃ (s : State) (l : LaneId) (f : Fetch) (w : W64) (h : ImageHeader),
    (s.m.lane l).cop.active = true ∧
    (s.m.lane l).cop.ended = false ∧
    s.m.life l ≠ .out ∧
    (s.m.lane l).mem.header = some h ∧
    fetched f (memRead 0 (s.m.lane l).mem.table (s.m.lane l).cop.next) = some w ∧
    rowClass w = 14 ∧
    reservedOk w = true ∧
    rowField w 59 40 = (s.m.lane l).cop.next ∧
    rowField w 39 38 = grainCode (s.m.grain l) ∧
    (∀ k, k < 16384 → trueCell (s.m.grain l) h (cellAddr (s.m.grain l) h k) = k) :=
  ⟨running .a 0xE000000000000000, .a, .clean, 0xE000000000000000, header 0 [] 0 [] 0, by exact ⟨by decide, by decide, by decide, rfl, by decide, by decide, by decide, by decide, by decide, fun _ _ => rfl⟩⟩

theorem meets_RowFaults_1 : ∃ (s : State) (l : LaneId),
    s.m.mod.mode ≠ .halt ∧
    (s.m.lane l).cop.active = true ∧
    (s.m.lane l).cop.ended = false ∧
    s.m.life l ≠ .out :=
  ⟨running .a 0x1F00000000000000, .a, by decide +kernel⟩

theorem meets_RowFaults_2 : ∃ (s : State) (l : LaneId) (f : Fetch) (w : W64),
    s.m.mod.mode ≠ .halt ∧
    (s.m.lane l).cop.active = true ∧
    (s.m.lane l).cop.ended = false ∧
    s.m.life l ≠ .out ∧
    fetched f (memRead 0 (s.m.lane l).mem.table (s.m.lane l).cop.next) = some w ∧
    (rowClass w ∉ [1, 2, 3, 14] ∨ reservedOk w = false) :=
  ⟨running .a 0x7000000000000000, .a, .clean, 0x7000000000000000, by decide +kernel⟩

theorem meets_RowFaults_3 : ∃ (s : State) (l : LaneId) (f : Fetch) (w : W64),
    s.m.mod.mode ≠ .halt ∧
    (s.m.lane l).cop.active = true ∧
    (s.m.lane l).cop.ended = false ∧
    s.m.life l ≠ .out ∧
    fetched f (memRead 0 (s.m.lane l).mem.table (s.m.lane l).cop.next) = some w ∧
    rowClass w = 14 ∧
    reservedOk w = true ∧
    (rowField w 59 40 ≠ (s.m.lane l).cop.next ∨ rowField w 39 38 ≠ grainCode (s.m.grain l)) :=
  ⟨running .a 0xE000010000000000, .a, .clean, 0xE000010000000000, by decide +kernel⟩

theorem meets_RowFaults_4 : ∃ (s : State) (l : LaneId) (f : Fetch) (w : W64),
    s.m.mod.mode ≠ .halt ∧
    (s.m.lane l).cop.active = true ∧
    (s.m.lane l).cop.ended = false ∧
    s.m.life l ≠ .out ∧
    fetched f (memRead 0 (s.m.lane l).mem.table (s.m.lane l).cop.next) = some w ∧
    rowClass w = 1 ∧
    reservedOk w = true :=
  ⟨running .a 0x1F00000000000000, .a, .altered 0x1000000000000000, 0x1000000000000000, by decide +kernel⟩

end WRows

/-! ### Witnesses: CycleStart, SampledInputs -/

namespace WCycle

def cyc (f : Lane → Lane) (m : Mach) : State := st (each f m)

theorem meets_CycleStart_1 : ∃ (s : State) (l : LaneId) (dev : Int) (t : Nat),
    s.m.evaluates = true ∧
    s.m.life l = .voting ∧
    (s.m.tick t).phaseOf l = .asleep ∧
    (s.m.lane l).cop.holdSrc = 0 ∧
    (s.m.tick t).boundaryNumber = none ∧
    (s.m.lane l).t0 + s.m.cycleNs ≤ max s.m.now t + s.m.cycleNs * 3 / 10000 ∧
    max s.m.now t ≤ (s.m.lane l).t0 + s.m.cycleNs + s.m.cycleNs * 3 / 10000 ∧
    s.m.cal.vote.cycle = (s.m.lane l).cop.cycleNo + 1 ∧
    (s.m.lane l).snd.bringForward = false ∧
    -50 ≤ dev ∧
    dev ≤ 50 :=
  ⟨cyc (fun x => { x with cop := { x.cop with cycleNo := 4 } }) { serv with cal := { vote := { cycle := 5 } } }, .b, 0, 8000000, by decide +kernel⟩

theorem meets_CycleStart_2 : ∃ (s : State) (l : LaneId) (dev : Int) (t : Nat) (n : W32),
    s.m.evaluates = true ∧
    s.m.life l = .voting ∧
    (s.m.tick t).phaseOf l = .asleep ∧
    (s.m.lane l).aligned = false ∧
    (s.m.lane l).cop.holdSrc = 0 ∧
    (s.m.tick t).boundaryNumber = some n ∧
    s.m.cal.vote.cycle = n ∧
    s.m.mod.aligned = true ∧
    (s.m.lane l).snd.bringForward = false ∧
    -50 ≤ dev ∧
    dev ≤ 50 :=
  ⟨cyc (fun x => { x with cop := { x.cop with cycleNo := 4 } }) { serv with mod := { mode := .service, aligned := true }, ring1 := { tb := { live := true, count := 8, start := 8000000 } }, cal := { vote := { cycle := 1 } } }, .b, 0, 8000000, 1, by decide +kernel⟩

theorem meets_CycleStart_3 : ∃ (s : State) (l : LaneId) (dev : Int) (t : Nat),
    s.m.mod.mode = .service ∧
    s.m.paired = false ∧
    (∀ k, s.m.life k = .voting ∧ (s.m.lane k).snd.bringForward = false) ∧
    s.m.mod.cmd = none ∧
    s.m.bench.test.request = none ∧
    s.m.bench.upd.phase = 0 ∧
    (s.m.tick t).phaseOf l = .asleep ∧
    (s.m.lane l).cop.holdSrc = 0 ∧
    (s.m.tick t).boundaryNumber = none ∧
    (s.m.lane l).t0 + s.m.cycleNs ≤ max s.m.now t + s.m.cycleNs * 3 / 10000 ∧
    max s.m.now t ≤ (s.m.lane l).t0 + s.m.cycleNs + s.m.cycleNs * 3 / 10000 ∧
    s.m.cal.vote.cycle ≠ (s.m.lane l).cop.cycleNo + 1 ∧
    -50 ≤ dev ∧
    dev ≤ 50 :=
  by
  refine ⟨st { serv with cal := { vote := { cycle := 5, released := [3] } } }, .a, 0, 8000000, ?_⟩
  and_intros <;> first | decide +kernel | (intro k; cases k <;> decide +kernel)

theorem meets_CycleStart_4 : ∃ (s : State) (l : LaneId) (t : Nat),
    s.m.evaluates = true ∧
    s.m.life l = .voting ∧
    ((s.m.tick t).phaseOf l ∈ [.wake, .sampling, .exchange, .run, .handover, .mirror] ∨
      ((s.m.tick t).phaseOf l = .sleepEntry ∧ (s.m.lane l).cop.holdSrc = 0)) ∧
    (s.m.tick t).boundaryNumber = none ∧
    (s.m.lane l).t0 + s.m.cycleNs ≤ max s.m.now t + s.m.cycleNs * 3 / 10000 :=
  ⟨cyc (fun x => { x with phase := .run, awake := true }) serv, .c, 8000000, by decide +kernel⟩

theorem meets_SampledInputs_1 : ∃ (s : State) (l : LaneId) (t : Nat) (sd : StationData),
    s.m.sd = some sd ∧
    s.m.life l ≠ .out ∧
    (s.m.lane l).awake = true ∧
    (s.m.lane l).phase = .wake ∧
    (s.m.lane l).t0 + 20000 ≤ max s.m.now t :=
  ⟨cyc (fun x => { x with awake := true, phase := .wake, capHi := [true] }) { serv with mod := { mode := .join } }, .a, 20000, sd, by decide +kernel⟩

theorem meets_SampledInputs_2 : ∃ (s : State) (l : LaneId) (t : Nat) (a : Nat) (ch : Nat) (sd : StationData) (f : DiFrame) (tf : Nat) (tm : Nat),
    s.m.sd = some sd ∧
    s.m.mod.mode ≠ .join ∧
    s.m.life l ≠ .out ∧
    (s.m.lane l).awake = true ∧
    (s.m.lane l).phase = .wake ∧
    (s.m.lane l).t0 + 20000 ≤ max s.m.now t ∧
    (a, InputSrc.di ch) ∈ sd.inputs ∧
    (∀ p ∈ sd.inputs, p.1 = a → p = (a, InputSrc.di ch)) ∧
    a ∉ (s.m.lane l).xch.orBits ∧
    (sd.di[ch]?).any (fun c => c.capt == 0 && !c.enc) = true ∧
    (s.m.lane l).di[ch]? = some f ∧
    f.valid = true ∧
    f.checkOk = true ∧
    f.at0 = some tf ∧
    max s.m.now t ≤ tf + 100000 ∧
    max s.m.now t < f.seqAt + 2500000000 ∧
    (s.m.lane l).fsmAt = some tm ∧
    max s.m.now t ≤ tm + 200000 :=
  ⟨cyc (fun x => { x with awake := true, phase := .wake, fsmAt := some 0, di := [{ level := true, valid := true, checkOk := true, at0 := some 0 }] }) serv, .a, 20000, 0, 0, sd, { level := true, valid := true, checkOk := true, at0 := some 0 }, 0, 0, by decide +kernel⟩

theorem meets_SampledInputs_3 : ∃ (s : State) (l : LaneId) (t : Nat) (a : Nat) (ch : Nat) (sd : StationData) (f : DiFrame),
    s.m.sd = some sd ∧
    s.m.mod.mode ≠ .join ∧
    s.m.life l ≠ .out ∧
    (s.m.lane l).awake = true ∧
    (s.m.lane l).phase = .wake ∧
    (s.m.lane l).t0 + 20000 ≤ max s.m.now t ∧
    (a, InputSrc.di ch) ∈ sd.inputs ∧
    (∀ p ∈ sd.inputs, p.1 = a → p = (a, InputSrc.di ch)) ∧
    a ∉ (s.m.lane l).xch.orBits ∧
    (s.m.lane l).di[ch]? = some f ∧
    (f.valid = false ∨ f.checkOk = false ∨ f.at0.all (fun x => decide (x + 100000 < max s.m.now t)) = true ∨
      (s.m.lane l).fsmAt.all (fun x => decide (x + 200000 < max s.m.now t)) = true) :=
  ⟨cyc (fun x => { x with awake := true, phase := .wake, fsmAt := some 0, di := [{ level := true, valid := false, checkOk := true, at0 := some 0 }] }) serv, .a, 20000, 0, 0, sd, { level := true, valid := false, checkOk := true, at0 := some 0 }, by decide +kernel⟩

end WCycle

/-! ### Witnesses: ExchangeFrames, AcceptedImages -/

namespace WExch

/-- An image frame of cycle 0. -/
def img (l : LaneId) (dig : W32) (words : Mem 32) : ImageFrame :=
  { sender := l, voting := true, cycle := 0, digest := dig, image := words, crc := 0, at0 := 45000, done := 56000 }
def pres (l : LaneId) (k : BitVec 3) : PresenceFrame :=
  sealPresence { sender := l, intact := k, request := false, cycle := 0, crc := 0, done := 62000 }
/-- Lane A in the exchange with three frames, and a mask of intact ones. -/
def exch (k : BitVec 3) (dc : W32) : State :=
  st (serv.updLane .a (fun x => { x with
    phase := .exchange
    xch := { images := ⟨some (img .a 1 [(0, 5)]), some (img .b 1 [(0, 6)]), some (img .c dc [(1, 1)])⟩
             presence := ⟨some (pres .a k), some (pres .b k), some (pres .c k)⟩ }
    agr := { x.agr with intact := k } }))
/-- Three frames whose system digests all differ. -/
def exch3 : State :=
  st (serv.updLane .a (fun x => { x with
    phase := .exchange
    xch := { images := ⟨some (img .a 1 []), some (img .b 2 []), some (img .c 3 [])⟩, presence := ⟨some (pres .a 7), some (pres .b 7), some (pres .c 7)⟩ }
    agr := { x.agr with intact := 7 } }))
def syncB : State := st (serv.updLane .b (fun x => { x with agr := { x.agr with life := .sync } }))
def copyA : TransferCopy := sealCopy { sender := .a, cycle := 0, sdId := 7, timers := 0, vector := [], cells := [], comm := {}, sizes := [], values := [], pfAux := [], rampWas := false, crc := 0 }

theorem meets_ExchangeFrames_1 : ∃ (s : State) (l : LaneId) (t : Nat),
    (s.m.lane l).phase = .sampling ∧
    (s.m.lane l).sampled = true ∧
    (s.m.lane l).t0 + 45000 ≤ max s.m.now t :=
  ⟨st (each (fun x => { x with phase := .sampling, sampled := true }) serv), .b, 45000, by decide +kernel⟩

theorem meets_ExchangeFrames_2 : ∃ (s : State) (l : LaneId) (f : ImageFrame),
    s.m.life l = .voting ∧
    f.sender ≠ l :=
  ⟨st serv, .a, img .b 0 [], by decide +kernel⟩

theorem meets_ExchangeFrames_3 : ∃ (s : State) (l : LaneId) (f : ImageFrame),
    s.m.life l = .sync ∧
    (s.m.lane l).agr.sync = .awaitFrames ∧
    f.sender ≠ l ∧
    f.voting = true ∧
    imageCrcOk f = true ∧
    (s.m.lane l).agr.syncAt ≤ f.at0 :=
  ⟨syncB, .b, sealImage (img .a 0 []), by exact ⟨by decide +kernel, by decide +kernel, by decide, rfl, imageCrcOk_sealImage _, by decide +kernel⟩⟩

theorem meets_ExchangeFrames_4 : ∃ (s : State) (l : LaneId) (f : PresenceFrame),
    s.m.life l ∈ [.voting, .sync] ∧
    f.sender ≠ l :=
  ⟨st serv, .a, pres .b 7, by decide +kernel⟩

theorem meets_ExchangeFrames_5 : ∃ (s : State) (l : LaneId) (f : TransferCopy),
    s.m.life l = .sync ∧
    f.sender ≠ l :=
  ⟨syncB, .b, copyA, by decide +kernel⟩

theorem meets_ExchangeFrames_6 : ∃ (s : State) (l : LaneId),
    s.m.life l ∈ [.out, .restart] :=
  ⟨State.reset, .a, by decide +kernel⟩

theorem meets_ExchangeFrames_7 : ∃ (s : State) (l : LaneId) (t : Nat),
    (s.m.lane l).phase = .exchange ∧
    s.m.life l ≠ .out ∧
    (s.m.lane l).t0 + 62000 ≤ max s.m.now t :=
  ⟨exch 7 1, .a, 62000, by decide +kernel⟩

theorem meets_AcceptedImages_1 : ∃ (s : State) (l : LaneId) (t : Nat) (a : ImageFrame) (b : ImageFrame) (c : ImageFrame),
    s.m.life l = .voting ∧
    (s.m.lane l).phase = .exchange ∧
    (s.m.lane l).xch.formed = false ∧
    (s.m.lane l).t0 + 63000 ≤ max s.m.now t ∧
    acceptedMask s.m (s.m.lane l) = 7 ∧
    digestVerdict (digestsOf s.m (s.m.lane l)) = .agree ∧
    (s.m.lane l).xch.images = ⟨some a, some b, some c⟩ ∧
    (s.m.lane l).agr.div = [] ∧
    (s.m.lane l).agr.bigRun = ⟨0, 0, 0⟩ ∧
    (s.m.lane l).agr.missRun = ⟨0, 0, 0⟩ :=
  ⟨exch 7 1, .a, 63000, img .a 1 [(0, 5)], img .b 1 [(0, 6)], img .c 1 [(1, 1)], by decide +kernel⟩

theorem meets_AcceptedImages_2 : ∃ (s : State) (l : LaneId) (t : Nat) (a : ImageFrame) (b : ImageFrame),
    s.m.life l = .voting ∧
    (s.m.lane l).phase = .exchange ∧
    (s.m.lane l).xch.formed = false ∧
    (s.m.lane l).t0 + 63000 ≤ max s.m.now t ∧
    acceptedMask s.m (s.m.lane l) = 3 ∧
    digestVerdict (digestsOf s.m (s.m.lane l)) = .agree ∧
    (s.m.lane l).xch.images.a = some a ∧
    (s.m.lane l).xch.images.b = some b ∧
    (s.m.lane l).agr.div = [] ∧
    (s.m.lane l).agr.bigRun = ⟨0, 0, 0⟩ ∧
    (s.m.lane l).agr.missRun = ⟨0, 0, 0⟩ :=
  ⟨exch 3 1, .a, 63000, img .a 1 [(0, 5)], img .b 1 [(0, 6)], by decide +kernel⟩

theorem meets_AcceptedImages_3 : ∃ (s : State) (l : LaneId) (t : Nat),
    s.m.life l = .voting ∧
    (s.m.lane l).phase = .exchange ∧
    (s.m.lane l).xch.formed = false ∧
    (s.m.lane l).t0 + 63000 ≤ max s.m.now t ∧
    s.m.mod.mode ≠ .halt ∧
    acceptedMask s.m (s.m.lane l) ∈ [0, 1, 2, 4] :=
  ⟨exch 1 1, .a, 63000, by decide +kernel⟩

theorem meets_AcceptedImages_4 : ∃ (s : State) (l : LaneId) (t : Nat),
    s.m.life l = .voting ∧
    (s.m.lane l).phase = .exchange ∧
    (s.m.lane l).xch.formed = false ∧
    (s.m.lane l).t0 + 63000 ≤ max s.m.now t ∧
    s.m.mod.mode ≠ .halt ∧
    acceptedMask s.m (s.m.lane l) = 7 ∧
    (∀ o, ((s.m.lane l).xch.images.get o).isSome = true) ∧
    digestVerdict (digestsOf s.m (s.m.lane l)) = .halt :=
  by
  refine ⟨exch3, .a, 63000, ?_⟩
  and_intros <;> first | decide +kernel | (intro k; cases k <;> decide +kernel)

end WExch

/-! ### Witnesses: RunAndHandover -/

namespace WRun

def eachLane (f : Lane → Lane) (m : Mach) : State := st (each f m)
/-- A run at its end marker whose working selectors differ from the committed ones. -/
def atClose (m : Mach) : State := eachLane (fun x => { x with
  phase := .run, awake := true, cop := { x.cop with active := true, ended := true }
  mem := { header := some (header 0 [] 0 [] 0), half1 := [(0x800, 3)], selWork := 1 <<< 0x800 } }) m

theorem meets_RunAndHandover_1 : ∃ (s : State) (l : LaneId) (t : Nat) (sd : StationData) (h : ImageHeader),
    s.m.sd = some sd ∧
    (s.m.lane l).mem.header = some h ∧
    (s.m.lane l).phase = .exchange ∧
    (s.m.lane l).xch.mapped = true ∧
    (s.m.lane l).t0 + 108000 ≤ max s.m.now t ∧
    (s.m.lane l).mayRun = true :=
  ⟨eachLane (fun x => { x with phase := .exchange, xch := { mapped := true }, mem := { header := some (header 0 [] 0 [] 0) } }) serv, .c, 108000, sd, header 0 [] 0 [] 0, by decide +kernel⟩

theorem meets_RunAndHandover_2 : ∃ (s : State) (l : LaneId) (t : Nat) (sd : StationData) (h : ImageHeader),
    s.m.sd = some sd ∧
    (s.m.lane l).mem.header = some h ∧
    (s.m.lane l).phase = .exchange ∧
    (s.m.lane l).xch.mapped = true ∧
    (s.m.lane l).t0 + 108000 ≤ max s.m.now t ∧
    (s.m.lane l).mayRun = false :=
  ⟨eachLane (fun x => { x with phase := .exchange, xch := { mapped := true }, mem := { header := some (header 0 [] 0 [] 0) }, agr := { x.agr with life := .sync, sync := .request } }) serv, .c, 108000, sd, header 0 [] 0 [] 0, by decide +kernel⟩

theorem meets_RunAndHandover_3 : ∃ (s : State) (l : LaneId) (t : Nat) (sd : StationData),
    s.m.sd = some sd ∧
    s.m.life l ≠ .out ∧
    (s.m.lane l).phase = .run ∧
    (s.m.lane l).cop.active = true ∧
    (s.m.lane l).cop.ended = true ∧
    predClose (s.m.lane l).cop.rows.toNat (s.m.lane l).cop.timers.toNat ≤
      2 * (max s.m.now t - (s.m.lane l).t0) + 400 ∧
    max s.m.now t ≤ (s.m.lane l).t0 + s.m.evalDl :=
  ⟨atClose { serv with mod := { mode := .join } }, .b, 114703, sd, by decide +kernel⟩

theorem meets_RunAndHandover_4 : ∃ (s : State) (l : LaneId) (t : Nat) (sd : StationData),
    s.m.sd = some sd ∧
    s.m.life l = .voting ∧
    s.m.handsOver = true ∧
    (s.m.lane l).phase = .run ∧
    (s.m.lane l).cop.active = true ∧
    (s.m.lane l).cop.ended = true ∧
    predClose (s.m.lane l).cop.rows.toNat (s.m.lane l).cop.timers.toNat ≤
      2 * (max s.m.now t - (s.m.lane l).t0) + 400 ∧
    max s.m.now t ≤ (s.m.lane l).t0 + s.m.evalDl :=
  ⟨atClose serv, .a, 114703, sd, by decide +kernel⟩

theorem meets_RunAndHandover_5 : ∃ (s : State) (l : LaneId) (t : Nat),
    s.m.life l = .voting ∧
    s.m.paired = false ∧
    s.m.mod.cmd = none ∧
    (s.m.lane l).phase = .handover ∧
    (s.m.lane l).closeAt + 240000 ≤ max s.m.now t :=
  ⟨eachLane (fun x => { x with phase := .handover, hoImage := 5 }) serv, .b, 240000, by decide +kernel⟩

theorem meets_RunAndHandover_6 : ∃ (s : State) (l : LaneId) (t : Nat),
    s.m.life l = .voting ∧
    s.m.handsOver = true ∧
    (s.m.lane l).drive.latchAt < (s.m.lane l).t0 + (max s.m.now t - (s.m.lane l).t0) / 40000 * 40000 ∧
    (∀ o ∈ s.m.field.out, o.hold.get l ≤ (s.m.lane l).t0 + (max s.m.now t - (s.m.lane l).t0) / 40000 * 40000) :=
  ⟨eachLane (fun x => { x with drive := { latched := 1, latchAt := 3 } }) serv, .b, 40000, by decide +kernel⟩

theorem meets_RunAndHandover_7 : ∃ (s : State) (l : LaneId),
    (s.m.lane l).phase = .sleepEntry ∧
    (s.m.lane l).cop.holdSrc = 0 :=
  ⟨eachLane (fun x => { x with phase := .sleepEntry }) serv, .a, by decide +kernel⟩

theorem meets_RunAndHandover_8 : ∃ (s : State) (l : LaneId),
    (s.m.lane l).cop.holdSrc ≠ 0 :=
  ⟨eachLane (fun x => { x with cop := { holdSrc := 1 } }) serv, .a, by decide +kernel⟩

theorem meets_RunAndHandover_9 : ∃ (s : State) (l : LaneId) (r : HoldReason),
    (s.m.lane l).awake = true ∧
    (r = .queueDrain → 64 < (s.m.lane l).queue.arrived) :=
  ⟨eachLane (fun x => { x with awake := true }) serv, .a, .diagnostics, by decide +kernel⟩

theorem meets_RunAndHandover_10 : ∃ (s : State) (l : LaneId),
    (s.m.lane l).awake = true :=
  ⟨eachLane (fun x => { x with awake := true, cop := { holdSrc := 3 } }) serv, .a, by decide +kernel⟩

theorem meets_RunAndHandover_11 : ∃ (s : State) (l : LaneId),
    (s.m.lane l).queue.arrived ≤ 64 :=
  ⟨st serv, .a, by decide +kernel⟩

theorem meets_RunAndHandover_12 : ∃ (s : State) (l : LaneId),
    (s.m.lane l).awake = false :=
  ⟨st serv, .a, by decide +kernel⟩

end WRun

/-! ### Witnesses: LaneFaultCommands, RejoinCommands -/

namespace WLife

def lane1 (l : LaneId) (f : Lane → Lane) (m : Mach) : State := st (m.updLane l f)
def awakeB : State := lane1 .b (fun x => { x with awake := true }) serv
def runB : State := lane1 .b (fun x => { x with awake := true, phase := .run, cop := { x.cop with active := true } }) serv
/-- A module in BOOT, its lanes released. -/
def bootB : Mach := each (fun x => { x with agr := { x.agr with held := false } }) { pow with mod := { mode := .boot } }
/-- Lane C OUT with its reset over at 1 ms. -/
def outC (m : Mach) : Mach := m.updLane .c (fun x => { x with agr := { x.agr with life := .out, held := true, inReset := true } })
def restartC (life : LaneLife) (m : Mach) : Mach := m.updLane .c (fun x => { x with agr := { x.agr with life := life } })
def good : RestartReport := { firmwareOk := true, rsaOk := true, slhOk := true, sliceOk := true, sdRsaOk := true, sdSlhOk := true, digestOk := true, translationOk := true, migrationOk := true }
def copyOfA : TransferCopy := sealCopy { sender := .a, cycle := 0, sdId := 7, timers := 0, vector := [(0, 9)], cells := [], comm := {}, sizes := [], values := [], pfAux := [], rampWas := false, crc := 0 }
/-- Lane C in SYNC with two copies. -/
def asking (b : TransferCopy) : State := lane1 .c (fun x => { x with
  mem := { header := some (header 2 [] 0 [] 0) }, xch := { staging := [copyOfA, b] }
  agr := { x.agr with life := .sync, sync := .request } }) serv
def askC : PresenceFrame := sealPresence { sender := .c, intact := 7, request := true, cycle := 0, crc := 0, done := 0 }

theorem meets_LaneFaultCommands_1 : ∃ (s : State) (l : LaneId),
    s.m.mod.mode ≠ .halt ∧
    s.m.life l ≠ .out ∧
    s.m.unitRuns l .core = true :=
  ⟨awakeB, .b, by decide +kernel⟩

theorem meets_LaneFaultCommands_2 : ∃ (s : State) (l : LaneId),
    s.m.mod.mode ≠ .halt ∧
    s.m.life l ≠ .out ∧
    s.m.unitRuns l .copier = true :=
  ⟨runB, .b, by decide +kernel⟩

theorem meets_LaneFaultCommands_3 : ∃ (s : State) (l : LaneId),
    s.m.mod.mode ≠ .halt ∧
    s.m.life l = .out ∧
    s.m.startsUp l = true :=
  ⟨st bootB, .b, by decide +kernel⟩

theorem meets_LaneFaultCommands_4 : ∃ (s : State) (l : LaneId) (t : Nat),
    s.m.unitRuns l .core = true ∧
    (s.m.tick t).enteringSleep l = false :=
  ⟨awakeB, .b, 5, by decide +kernel⟩

theorem meets_LaneFaultCommands_5 : ∃ (s : State) (l : LaneId) (t : Nat),
    s.m.unitRuns l .copier = true ∧
    (s.m.tick t).enteringSleep l = false :=
  ⟨runB, .b, 5, by decide +kernel⟩

theorem meets_LaneFaultCommands_6 : ∃ (s : State) (l : LaneId) (u : Comparator) (t : Nat),
    s.m.mod.mode ≠ .halt ∧
    s.m.unitRuns l u = true ∧
    (s.m.tick t).enteringSleep l = false :=
  ⟨runB, .b, .copier, 5, by decide +kernel⟩

theorem meets_LaneFaultCommands_7 : ∃ (s : State) (l : LaneId) (u : Comparator) (t : Nat),
    s.m.mod.mode ≠ .halt ∧
    s.m.unitRuns l u = true ∧
    (s.m.tick t).enteringSleep l = false :=
  ⟨runB, .b, .copier, 5, by decide +kernel⟩

theorem meets_LaneFaultCommands_8 : ∃ (s : State) (l : LaneId) (u : Comparator),
    s.m.unitRuns l u = false :=
  ⟨st serv, .b, .copier, by decide +kernel⟩

theorem meets_LaneFaultCommands_9 : ∃ (s : State) (l : LaneId) (t : Nat),
    (s.m.tick t).enteringSleep l = true :=
  ⟨lane1 .b (fun x => { x with awake := true, phase := .sleepEntry }) serv, .b, 5, by decide +kernel⟩

theorem meets_LaneFaultCommands_10 : ∃ (s : State) (l : LaneId) (target : LaneId) (t : Nat) (t0 : Nat),
    (s.m.lane l).agr.exclUntil.get target = some t0 ∧
    t0 ≤ max s.m.now t :=
  ⟨lane1 .a (fun x => { x with agr := { x.agr with exclUntil := ⟨none, some 4, none⟩ } }) serv, .a, .b, 5, 4, by decide +kernel⟩

theorem meets_RejoinCommands_1 : ∃ (s : State) (l : LaneId) (t : Nat),
    s.m.life l = .out ∧
    (s.m.lane l).agr.inReset = true ∧
    (s.m.lane l).agr.resetAt + 1000000 ≤ max s.m.now t ∧
    (s.m.lane l).agr.locked = false ∧
    (s.m.lane l).agr.railBad = false ∧
    (s.m.lane l).agr.unusable = false ∧
    s.m.evaluates = true ∧
    (s.m.lane l).agr.attemptFree (max s.m.now t) = true ∧
    (∀ k, k ≠ l → (s.m.lane k).agr.exclUntil.get l = none) ∧
    2 ≤ s.m.votingLanes.length :=
  by
  refine ⟨st (outC serv), .c, 1000000, ?_⟩
  and_intros <;> first | decide +kernel | (intro k; cases k <;> decide +kernel)

theorem meets_RejoinCommands_2 : ∃ (s : State) (l : LaneId) (t : Nat),
    s.m.life l = .out ∧
    (s.m.lane l).agr.inReset = true ∧
    (s.m.lane l).agr.resetAt + 1000000 ≤ max s.m.now t ∧
    (s.m.lane l).agr.locked = false ∧
    (s.m.lane l).agr.railBad = false ∧
    (s.m.lane l).agr.unusable = false ∧
    s.m.evaluates = true ∧
    (s.m.lane l).agr.attemptFree (max s.m.now t) = true ∧
    (∀ k, k ≠ l → (s.m.lane k).agr.exclUntil.get l = none) ∧
    s.m.votingLanes.length < 2 :=
  by
  refine ⟨st (outC (restartC .out { serv with lanes := ⟨serv.lanes.a, {}, {}⟩ })), .c, 1000000, ?_⟩
  and_intros <;> first | decide +kernel | (intro k; cases k <;> decide +kernel)

theorem meets_RejoinCommands_3 : ∃ (s : State) (l : LaneId) (t : Nat),
    s.m.life l = .out ∧
    (s.m.lane l).agr.inReset = true ∧
    (s.m.lane l).agr.resetAt + 1000000 ≤ max s.m.now t ∧
    (s.m.lane l).agr.locked = false ∧
    (s.m.lane l).agr.railBad = false ∧
    (s.m.lane l).agr.unusable = false ∧
    s.m.evaluates = true ∧
    (s.m.lane l).agr.attemptFree (max s.m.now t) = false ∧
    (∀ k, k ≠ l → (s.m.lane k).agr.exclUntil.get l = none) :=
  by
  refine ⟨st (outC (serv.updLane .c (fun x => { x with agr := { x.agr with attempts := [3, 2, 1] } }))), .c, 1000000, ?_⟩
  and_intros <;> first | decide +kernel | (intro k; cases k <;> decide +kernel)

theorem meets_RejoinCommands_4 : ∃ (s : State) (l : LaneId),
    (s.m.lane l).agr.locked = true :=
  ⟨lane1 .c (fun x => { x with agr := { x.agr with locked := true } }) serv, .c, by decide +kernel⟩

theorem meets_RejoinCommands_5 : ∃ (s : State) (l : LaneId) (r : RestartReport) (sd : StationData),
    s.m.sd = some sd ∧
    s.m.life l = .restart ∧
    restartPassed sd (s.m.grain l) (s.m.lane l).agr.noSlice r = true :=
  ⟨st (restartC .restart serv), .c, good, sd, by decide +kernel⟩

theorem meets_RejoinCommands_6 : ∃ (s : State) (l : LaneId) (r : RestartReport) (sd : StationData),
    s.m.sd = some sd ∧
    s.m.life l = .restart ∧
    restartPassed sd (s.m.grain l) (s.m.lane l).agr.noSlice r = false ∧
    s.m.mod.mode ≠ .halt ∧
    s.m.bench.upd.onTrial .firmware = false :=
  ⟨st (restartC .restart serv), .c, { good with digestOk := false }, sd, by decide +kernel⟩

theorem meets_RejoinCommands_7 : ∃ (s : State) (l : LaneId) (dest : LaneId) (t : Nat) (sd : StationData),
    s.m.sd = some sd ∧
    s.m.life l = .voting ∧
    (s.m.tick t).phaseOf l = .sleepEntry ∧
    (s.m.lane l).cop.holdSrc.getLsbD 0 = true ∧
    (presenceOf (s.m.lane l) dest).any (fun f => f.request) = true ∧
    s.m.pair.mirrorEnd.all (fun e => decide (e ≤ (s.m.lane l).t0 + s.m.cycleNs * 9 / 10)) = true ∧
    (s.m.lane l).xch.sentCopy = none :=
  ⟨lane1 .a (fun x => { x with phase := .sleepEntry, cop := { x.cop with holdSrc := 1 }, xch := { presence := ⟨none, none, some askC⟩ } }) serv, .a, .c, 5, sd, by decide +kernel⟩

theorem meets_RejoinCommands_8 : ∃ (s : State) (l : LaneId) (sd : StationData) (h : ImageHeader) (a : TransferCopy) (b : TransferCopy),
    s.m.sd = some sd ∧
    (s.m.lane l).mem.header = some h ∧
    s.m.life l = .sync ∧
    (s.m.lane l).agr.sync = .request ∧
    (s.m.lane l).xch.staging = [a, b] ∧
    s.m.life a.sender = .voting ∧
    s.m.life b.sender = .voting ∧
    copyIntact a = true ∧
    copyIntact b = true ∧
    a.sdId = sd.id ∧
    { b with sender := a.sender, crc := a.crc } = a ∧
    (∀ n, n < 262144 → stateAddr (s.m.grain l) h n < 262144 ∧ trueAddr (s.m.grain l) h (stateAddr (s.m.grain l) h n) = n) :=
  ⟨asking (sealCopy { copyOfA with sender := .b }), .c, sd, header 2 [] 0 [] 0, copyOfA, sealCopy { copyOfA with sender := .b }, by exact ⟨rfl, rfl, by decide, rfl, rfl, by decide, by decide, sealCopy_intact _, sealCopy_intact _, rfl, rfl, fun n h => ⟨h, rfl⟩⟩⟩

theorem meets_RejoinCommands_9 : ∃ (s : State) (l : LaneId) (sd : StationData) (h : ImageHeader) (a : TransferCopy) (b : TransferCopy),
    s.m.sd = some sd ∧
    s.m.mod.mode ≠ .halt ∧
    (s.m.lane l).mem.header = some h ∧
    s.m.life l = .sync ∧
    (s.m.lane l).agr.sync = .request ∧
    (s.m.lane l).xch.staging = [a, b] ∧
    s.m.life a.sender = .voting ∧
    s.m.life b.sender = .voting ∧
    copyIntact a = true ∧
    copyIntact b = true ∧
    a.sdId = sd.id ∧
    b.sdId = sd.id ∧
    { b with sender := a.sender, crc := a.crc } ≠ a :=
  ⟨asking (sealCopy { copyOfA with sender := .b, vector := [] }), .c, sd, header 2 [] 0 [] 0, copyOfA, sealCopy { copyOfA with sender := .b, vector := [] }, by exact ⟨rfl, by decide, rfl, by decide, rfl, rfl, by decide, by decide, sealCopy_intact _, sealCopy_intact _, rfl, rfl, fun h => absurd (congrArg TransferCopy.vector h) (by decide)⟩⟩

theorem meets_RejoinCommands_10 : ∃ (s : State) (l : LaneId) (t : Nat),
    s.m.life l ∈ [.restart, .sync] ∧
    s.m.mod.mode ≠ .halt ∧
    (s.m.lane l).agr.limitFrom + 1500000000 ≤ max s.m.now t :=
  ⟨st (restartC .sync serv), .c, 1500000000, by decide +kernel⟩

theorem meets_RejoinCommands_11 : ∃ (s : State) (l : LaneId) (dev : Int) (t : Nat),
    s.m.mod.mode = .degraded ∧
    (∀ k, k ≠ l → s.m.life k = .voting) ∧
    s.m.life l = .sync ∧
    (s.m.lane l).agr.sync = .passed ∧
    (s.m.tick t).phaseOf l = .asleep ∧
    (s.m.lane l).cop.holdSrc = 0 ∧
    (s.m.tick t).boundaryNumber = none ∧
    (s.m.lane l).t0 + s.m.cycleNs ≤ max s.m.now t + s.m.cycleNs * 3 / 10000 ∧
    s.m.cal.vote.cycle = (s.m.lane l).cop.cycleNo + 1 ∧
    (s.m.lane l).snd.bringForward = false ∧
    -50 ≤ dev ∧
    dev ≤ 50 :=
  by
  refine ⟨lane1 .c (fun x => { x with agr := { x.agr with life := .sync, sync := .passed } }) { serv with mod := { mode := .degraded }, cal := { vote := { cycle := 1 } } }, .c, 0, 8000000, ?_⟩
  and_intros <;> first | decide +kernel | (intro k; cases k <;> decide +kernel)

end WLife

/-! ### Witnesses: VoteWords, CycleReport, DriveWatch -/

namespace WVote

def msg1 : MsgCfg := { msg := 5, port := .ring .r1, words := 1, base := [0] }
def vw (l : LaneId) (k : VoteKind) (d : W64) : VoteWord :=
  { lane := l, kind := k, last := true, msg := 5, word := 0, data := d, chk := 0 }
/-- A word with its own check. -/
def vwOk (l : LaneId) (d : W64) : VoteWord := { vw l .message d with chk := voteChk d (sideband (vw l .message d)) }
/-- A serving module that hands over one message of one word. -/
def voting : Mach := { serv with sd := some { sd with msgs := [msg1] }, cal := { vote := { began := 7 } } }
def slotOf1 (v : Option W64) (closed : Bool) : VoteSlot :=
  { drive := false, msg := 5, word := 0, copies := ⟨some { data := 7, good := true, at0 := 0 }, none, none⟩, voted := v, closed := closed }
def withSlot (x : VoteSlot) : State := st { voting with cal := { vote := { began := 7, slots := [x] } } }
def twoCopies : VoteSlot :=
  { slotOf1 none false with copies := ⟨some { data := 7, good := true, at0 := 0 }, some { data := 8, good := true, at0 := 0 }, none⟩ }
def field24 : Mach := { serv with
  cal := { csc := { running := true }, odm := { reference := 1, pos := [{ sight := .lost, run := 1 }] } }
  field := { fsm := { sag := false, samples := [2400] } } }
def drives (o : DriveMon) : State := st { field24 with cal := { csc := { running := true }, odm := o } }

theorem meets_VoteWords_1 : ∃ (s : State) (w : VoteWord) (t : Nat) (c : MsgCfg),
    (s.m.tick t).voteOpen = true ∧
    s.m.life w.lane = .voting ∧
    w.kind = .message ∧
    s.m.msgCfg w.msg = some c ∧
    w.word < c.words ∧
    s.m.slot (w.msg, w.word) = none ∧
    s.m.cal.vote.absentMsgs = [] ∧
    2 ≤ s.m.votingLanes.length :=
  ⟨st voting, vw .a .message 7, 5, msg1, by decide +kernel⟩

theorem meets_VoteWords_2 : ∃ (s : State) (w : VoteWord) (t : Nat) (c : MsgCfg) (i : RingId) (x : VoteSlot) (y : Copy) (k : LaneId),
    (s.m.tick t).voteOpen = true ∧
    s.m.life w.lane = .voting ∧
    s.m.life k = .voting ∧
    k ≠ w.lane ∧
    w.kind = .message ∧
    s.m.msgCfg w.msg = some c ∧
    c.msg = w.msg ∧
    c.words = 1 ∧
    c.port = .ring i ∧
    w.word = 0 ∧
    w.last = true ∧
    w.chk = voteChk w.data (sideband w) ∧
    s.m.cal.vote.slots = [x] ∧
    x.drive = false ∧
    x.msg = w.msg ∧
    x.word = 0 ∧
    x.voted = none ∧
    x.closed = false ∧
    max s.m.now t ≤ x.openAt + 4000 ∧
    x.copies.get k = some y ∧
    (∀ j, j ≠ k → x.copies.get j = none) ∧
    y.good = true ∧
    y.data = w.data ∧
    s.m.cal.vote.absentMsgs = [] ∧
    s.m.cal.vote.released = [] :=
  ⟨withSlot (slotOf1 none false), vwOk .b 7, 5, msg1, .r1, slotOf1 none false, { data := 7, good := true, at0 := 0 }, .a, by and_intros <;> first | rfl | decide | (intro j; cases j <;> decide)⟩

theorem meets_VoteWords_3 : ∃ (s : State) (w : VoteWord) (t : Nat) (c : MsgCfg) (x : VoteSlot) (v : W64),
    (s.m.tick t).voteOpen = true ∧
    s.m.life w.lane = .voting ∧
    w.kind = .message ∧
    s.m.msgCfg w.msg = some c ∧
    w.word < c.words ∧
    s.m.cal.vote.slots = [x] ∧
    x.drive = false ∧
    x.msg = w.msg ∧
    x.word = w.word ∧
    x.voted = some v ∧
    x.closed = false ∧
    x.copies.get w.lane = none ∧
    x.copies ≠ ⟨none, none, none⟩ ∧
    max s.m.now t ≤ x.openAt + 4000 ∧
    w.data ≠ v ∧
    s.m.cal.vote.absentMsgs = [] :=
  ⟨withSlot (slotOf1 (some 7) false), vw .b .message 8, 5, msg1, slotOf1 (some 7) false, 7, by decide +kernel⟩

theorem meets_VoteWords_4 : ∃ (s : State) (w : VoteWord) (t : Nat),
    (s.m.tick t).voteOpen = true ∧
    s.m.life w.lane = .voting ∧
    w.kind = .endHandover :=
  ⟨st voting, vw .b .endHandover 0, 5, by decide +kernel⟩

theorem meets_VoteWords_5 : ∃ (s : State) (w : VoteWord) (t : Nat),
    ((s.m.tick t).voteOpen = false ∨ s.m.life w.lane ∈ [.out, .restart]) :=
  ⟨st { voting with lanes := ⟨{}, voting.lanes.b, voting.lanes.c⟩ }, vw .a .message 7, 5, by decide +kernel⟩

theorem meets_VoteWords_6 : ∃ (s : State) (msg : Nat) (word : Nat) (t : Nat) (x : VoteSlot),
    s.m.slot (msg, word) = some x ∧
    x.key = (msg, word) ∧
    x.closed = false ∧
    x.voted = none ∧
    x.openAt + 4000 ≤ max s.m.now t ∧
    s.m.mod.mode ≠ .halt ∧
    2 ≤ (x.present s.m.votingLanes).length :=
  ⟨withSlot twoCopies, 5, 0, 4000, twoCopies, by decide +kernel⟩

theorem meets_VoteWords_7 : ∃ (s : State) (msg : Nat) (word : Nat) (t : Nat) (x : VoteSlot) (l : LaneId),
    s.m.slot (msg, word) = some x ∧
    x.key = (msg, word) ∧
    x.closed = false ∧
    x.voted.isSome = true ∧
    x.bare = false ∧
    x.openAt + 4000 ≤ max s.m.now t ∧
    s.m.life l = .voting ∧
    x.copies.get l = none ∧
    s.m.cal.vote.absentMsgs = [] :=
  ⟨withSlot (slotOf1 (some 7) false), 5, 0, 4000, slotOf1 (some 7) false, .c, by decide +kernel⟩

theorem meets_CycleReport_1 : ∃ (s : State) (t : Nat) (e : Nat),
    s.m.cal.vote.firstEnd = some e ∧
    s.m.cal.vote.reported = false ∧
    e + 4000 ≤ max s.m.now t ∧
    (∀ x ∈ s.m.cal.vote.slots, x.closed = true) ∧
    (∀ c ∈ s.m.msgs, c.msg ∈ s.m.cal.vote.released) ∧
    (∀ l ∈ s.m.votingLanes, inMask s.m.cal.vote.ended l = true) ∧
    (∀ l, s.m.life l ≠ .sync) ∧
    s.m.mod.mode ≠ .halt ∧
    s.m.cal.vote.outvoted = 0 ∧
    s.m.cal.vote.absent = 0 :=
  by
  refine ⟨st { serv with cal := { vote := { firstEnd := some 0, ended := 7 } } }, 4000, 0, ?_⟩
  and_intros <;> first | decide +kernel | (intro k; cases k <;> decide +kernel)

theorem meets_CycleReport_2 : ∃ (s : State) (l : LaneId) (t : Nat) (e : Nat),
    s.m.cal.vote.firstEnd = some e ∧
    s.m.cal.vote.reported = false ∧
    e + 4000 ≤ max s.m.now t ∧
    (∀ x ∈ s.m.cal.vote.slots, x.closed = true) ∧
    (∀ c ∈ s.m.msgs, c.msg ∈ s.m.cal.vote.released) ∧
    (∀ k, inMask s.m.cal.vote.ended k = true ∧ s.m.life k = .voting) ∧
    s.m.mod.mode = .service ∧
    s.m.cal.vote.outvoted = maskOf (· == l) ∧
    s.m.cal.vote.absent = 0 :=
  by
  refine ⟨st { serv with cal := { vote := { firstEnd := some 0, ended := 7, outvoted := 2 } } }, .b, 4000, 0, ?_⟩
  and_intros <;> first | decide +kernel | (intro k; cases k <;> decide +kernel)

theorem meets_DriveWatch_1 : ∃ (s : State) (pos : List Nat) (neg : List Nat) (n : Nat) (t : Nat) (o : OutCh),
    s.m.cal.csc.running = true ∧
    (s.m.tick t).fieldRuns = true ∧
    s.m.sd.isSome = true ∧
    n < 24 ∧
    s.m.field.out[n]? = some o ∧
    o.armed = false ∧
    o.isFault = false ∧
    o.latch = false ∧
    o.unusable = false ∧
    s.m.field.fsm.held = false ∧
    pos.getD n 0 < 2 ∧
    neg.getD n 0 < 2 :=
  ⟨st field24, [0], [0], 0, 100000, {}, by decide +kernel⟩

theorem meets_DriveWatch_2 : ∃ (s : State) (pos : List Nat) (n : Nat) (t : Nat) (o : OutCh),
    s.m.cal.csc.running = true ∧
    (s.m.tick t).fieldRuns = true ∧
    s.m.sd.isSome = true ∧
    (s.m.tick t).driveSettled = true ∧
    s.m.handsOver = true ∧
    n < 24 ∧
    s.m.field.out[n]? = some o ∧
    o.test = none ∧
    s.m.cal.odm.reference.getLsbD n = true ∧
    pos.getD n 0 < 2 ∧
    (s.m.cal.odm.pos.getD n {}).sight = .lost ∧
    1 ≤ (s.m.cal.odm.pos.getD n {}).run :=
  ⟨st field24, [0], 0, 100000, {}, by decide +kernel⟩

theorem meets_DriveWatch_3 : ∃ (s : State) (pos : List Nat) (n : Nat) (t : Nat) (o : OutCh),
    s.m.cal.csc.running = true ∧
    (s.m.tick t).fieldRuns = true ∧
    s.m.sd.isSome = true ∧
    (s.m.tick t).driveSettled = true ∧
    s.m.mod.mode ≠ .halt ∧
    n < 24 ∧
    s.m.field.out[n]? = some o ∧
    o.test = none ∧
    s.m.cal.odm.reference.getLsbD n = false ∧
    2 ≤ pos.getD n 0 ∧
    (s.m.cal.odm.pos.getD n {}).sight = .against ∧
    1 ≤ (s.m.cal.odm.pos.getD n {}).run :=
  ⟨drives { pos := [{ sight := .against, run := 1 }] }, [3], 0, 100000, {}, by decide +kernel⟩

theorem meets_DriveWatch_4 : ∃ (s : State) (l : LaneId),
    s.m.sd.isSome = true ∧
    s.m.life l = .voting ∧
    s.m.power.powered = true ∧
    (∀ k, k ≠ l → s.m.cal.odm.marks.get k = none) :=
  by
  refine ⟨st serv, .a, ?_⟩
  and_intros <;> first | decide +kernel | (intro k; cases k <;> decide +kernel)

theorem meets_DriveWatch_5 : ∃ (s : State) (l : LaneId) (k : LaneId) (t : Nat) (u : Nat) (v : Nat),
    s.m.sd.isSome = true ∧
    s.m.life l = .voting ∧
    s.m.power.powered = true ∧
    k ≠ l ∧
    s.m.cal.odm.marks.get k = some u ∧
    max s.m.now t ≤ u + 100000 ∧
    s.m.cal.odm.tripped = true ∧
    s.m.cal.odm.lastQual = some v ∧
    v + 200000 < max s.m.now t ∧
    3 * s.m.cycleNs ≤ 4 * (max s.m.now t - v) ∧
    4 * (max s.m.now t - v) ≤ 5 * s.m.cycleNs ∧
    s.m.bench.test.unusWdog = false :=
  ⟨drives { marks := ⟨some 8000000, none, none⟩, lastQual := some 0 }, .b, .a, 8000000, 8000000, 0, by decide +kernel⟩

theorem meets_DriveWatch_6 : ∃ (s : State) (t : Nat) (v : Nat),
    s.m.sd.isSome = true ∧
    s.m.cal.odm.tripped = false ∧
    s.m.cal.odm.lastQual = some v ∧
    v + 2 * s.m.cycleNs ≤ max s.m.now t ∧
    s.m.field.out.length = 24 :=
  ⟨drives { tripped := false, lastQual := some 0 }, 16000000, 0, by decide +kernel⟩

theorem meets_DriveWatch_7 : ∃ (s : State),
    s.m.cal.csc.running = true ∧
    s.m.mod.mode ≠ .halt :=
  ⟨drives {}, by decide +kernel⟩

theorem meets_DriveWatch_8 : ∃ (s : State) (t : Nat),
    s.m.cal.csc.running = true ∧
    (s.m.tick t).calBist = false ∧
    s.m.mod.mode ≠ .halt :=
  ⟨drives {}, 5, by decide +kernel⟩

theorem meets_DriveWatch_9 : ∃ (s : State) (t : Nat),
    s.m.cal.csc.running = true ∧
    (s.m.tick t).calBist = false :=
  ⟨drives {}, 5, by decide +kernel⟩

theorem meets_DriveWatch_10 : ∃ (s : State) (t : Nat),
    (s.m.tick t).calBist = true :=
  ⟨st { field24 with mod := { mode := .quiesce } }, 320000000, by decide +kernel⟩

end WVote

/-! ### Witnesses: DigitalInputs -/

namespace WDi

/-- A field section in operation at 24 V, released, with the first digital channel as given. -/
def fieldOn (d : DiCh) : Mach := { serv with field := { fsm := { sag := false, samples := [2400], thrOn := 110 }, di := d :: List.replicate 47 {} } }
def withCfg (c : DiCfg) (d : DiCh) : State := st { fieldOn d with sd := some { sd with di := c :: List.replicate 47 c } }
def diC : DiCfg := { used := true, monGiven := some 1, src := none, captGiven := some 0, cos := true, filtN := some 4, enc := false }
def diP : DiCfg := { diC with monGiven := some 2, src := some 1 }
def psF : Mach := { fieldOn {} with field := { (fieldOn {}).field with ps := [{ fault := true, on := false }] } }

theorem meets_DigitalInputs_1 : ∃ (s : State) (ch : Nat) (t : Nat) (mV : Int) (c : DiCfg) (x : DiCh),
    (s.m.tick t).fieldRuns = true ∧
    s.m.field.di[ch]? = some x ∧
    s.m.diCfg ch = some c ∧
    c.enc = false ∧
    c.mon ≠ 2 ∧
    x.testAt = none ∧
    s.m.mod.mode ≠ .commission ∧
    1 ≤ filtN c ∧
    100 * (s.m.field.fsm.thrOn.toNat : Int) < mV :=
  ⟨withCfg diC { fcnt := 3 }, 0, 5, 12000, diC, { fcnt := 3 }, by decide +kernel⟩

theorem meets_DigitalInputs_2 : ∃ (s : State) (ch : Nat) (t : Nat) (mV : Int) (c : DiCfg) (x : DiCh),
    (s.m.tick t).fieldRuns = true ∧
    s.m.field.di[ch]? = some x ∧
    s.m.diCfg ch = some c ∧
    c.enc = false ∧
    c.mon ≠ 2 ∧
    x.testAt = none ∧
    s.m.mod.mode ≠ .commission ∧
    x.fcnt.toNat ≤ filtN c ∧
    1 ≤ filtN c ∧
    mV ≤ 100 * (s.m.field.fsm.thrOn.toNat : Int) - 1000 :=
  ⟨withCfg diC { fcnt := 1, level := true }, 0, 5, 9000, diC, { fcnt := 1, level := true }, by decide +kernel⟩

theorem meets_DigitalInputs_3 : ∃ (s : State) (ch : Nat) (t : Nat) (x : DiCh),
    (s.m.tick t).fieldRuns = true ∧
    s.m.field.di[ch]? = some x ∧
    diEnc s.m ch = false :=
  ⟨st (each (fun x => { x with di := [{}] }) (fieldOn { level := true })), 0, 5, { level := true }, by decide +kernel⟩

theorem meets_DigitalInputs_4 : ∃ (s : State) (ch : Nat) (c : Nat) (t : Nat) (x : DiCh),
    (s.m.tick t).fieldRuns = true ∧
    s.m.field.di[ch]? = some x ∧
    diMon s.m ch = 1 ∧
    diEnc s.m ch = false ∧
    x.level = false ∧
    (c < 1000 ∨ 1600 < c) ∧
    x.judge = (if c < 300 then 1 else 2) ∧
    9 ≤ x.judgeRun ∧
    x.latch = false ∧
    standsNow (condCode c) x.found = false :=
  ⟨withCfg diC { judge := 1, judgeRun := 9, valid := true }, 0, 299, 5, { judge := 1, judgeRun := 9, valid := true }, by decide +kernel⟩

theorem meets_DigitalInputs_5 : ∃ (s : State) (ch : Nat) (t : Nat) (x : DiCh),
    (s.m.tick t).fieldRuns = true ∧
    s.m.field.di[ch]? = some x ∧
    diMon s.m ch = 1 ∧
    diEnc s.m ch = false ∧
    x.level = false ∧
    x.judgeRun < 9 :=
  ⟨withCfg diC {}, 0, 5, {}, by decide +kernel⟩

theorem meets_DigitalInputs_6 : ∃ (s : State) (k : Nat) (t : Nat) (x : PsCh),
    (s.m.tick t).fieldRuns = true ∧
    s.m.field.ps[k]? = some x ∧
    x.on = true :=
  ⟨st (fieldOn {}), 1, 5, {}, by decide +kernel⟩

theorem meets_DigitalInputs_7 : ∃ (s : State) (k : Nat) (t : Nat) (c : SourceCause) (x : PsCh),
    (s.m.tick t).fieldRuns = true ∧
    s.m.field.ps[k]? = some x ∧
    x.fault = false ∧
    (c = .overload ∨ 2 ≤ x.highRun) ∧
    (∀ y ∈ s.m.field.di, y.latch = false ∧ standsNow 5 y.found = false) :=
  ⟨withCfg diP { valid := true }, 1, 5, .overload, {}, by decide +kernel⟩

theorem meets_DigitalInputs_8 : ∃ (s : State) (k : Nat) (t : Nat) (x : PsCh),
    (s.m.tick t).fieldRuns = true ∧
    s.m.field.ps[k]? = some x ∧
    x.fault = true ∧
    x.faultAt + 1000000000 ≤ max s.m.now t :=
  ⟨st psF, 0, 1000000000, { fault := true, on := false }, by decide +kernel⟩

theorem meets_DigitalInputs_9 : ∃ (s : State) (ch : Nat) (t : Nat) (x : DiCh),
    (s.m.tick t).fieldRuns = true ∧
    s.m.field.di[ch]? = some x ∧
    diEnc s.m ch = false :=
  ⟨st (fieldOn {}), 0, 5, {}, by decide +kernel⟩

theorem meets_DigitalInputs_10 : ∃ (s : State) (ch : Nat) (t : Nat) (x : DiCh),
    (s.m.tick t).fieldRuns = true ∧
    s.m.field.di[ch]? = some x ∧
    diEnc s.m ch = false ∧
    1 ≤ x.testFail0 ∧
    x.latch = false ∧
    standsNow 6 x.found = false :=
  ⟨st (fieldOn { testFail0 := 1, valid := true }), 0, 5, { testFail0 := 1, valid := true }, by decide +kernel⟩

theorem meets_DigitalInputs_11 : ∃ (s : State) (ch : Nat) (t : Nat) (x : DiCh),
    s.m.field.di[ch]? = some x ∧
    x.found ≠ [] ∧
    x.latch = false ∧
    stillFound (max s.m.now t) x.found = [] :=
  ⟨st (fieldOn { found := [{ code := 3, present := false }], level := true, fcnt := 5 }), 0, 1000000000, { found := [{ code := 3, present := false }], level := true, fcnt := 5 }, by decide +kernel⟩

theorem meets_DigitalInputs_12 : ∃ (s : State) (ch : Nat) (t : Nat) (x : AiCh),
    s.m.field.ai[ch]? = some x ∧
    x.found ≠ [] ∧
    x.latch = false ∧
    stillFound (max s.m.now t) x.found = [] :=
  ⟨st { serv with field := { ai := [{ found := [{ code := 1, present := false }] }] } }, 0, 1000000000, { found := [{ code := 1, present := false }] }, by decide +kernel⟩

end WDi

/-! ### Witnesses: EncoderAndAnalogue -/

namespace WEnc

def encSd : StationData := { sd with di := List.replicate 48 { used := true, monGiven := some 0, src := none, captGiven := some 0, cos := false, filtN := none, enc := true } }
def fieldE (e : Encoder) : State := st { serv with sd := some encSd, field := { fsm := { sag := false, samples := [2400] }, enc := e } }
def fieldA (x : AiCh) : State := st { serv with field := { fsm := { sag := false, samples := [2400] }, ai := [x] } }

theorem meets_EncoderAndAnalogue_1 : ∃ (s : State) (a : Bool) (b : Bool) (t : Nat),
    (s.m.tick t).fieldRuns = true ∧
    diEnc s.m 46 = true ∧
    s.m.field.enc.illegal = false ∧
    s.m.field.enc.overfreq = false ∧
    s.m.field.enc.edgeA = none ∧
    s.m.field.enc.edgeB = none ∧
    s.m.field.enc.illAt = [] ∧
    (quadPhase a b + 4 - quadPhase s.m.field.enc.lastA s.m.field.enc.lastB) % 4 = 1 :=
  ⟨fieldE {}, true, false, 5, by decide +kernel⟩

theorem meets_EncoderAndAnalogue_2 : ∃ (s : State) (a : Bool) (b : Bool) (t : Nat),
    (s.m.tick t).fieldRuns = true ∧
    diEnc s.m 46 = true ∧
    s.m.field.enc.illegal = false ∧
    s.m.field.enc.overfreq = false ∧
    s.m.field.enc.edgeA = none ∧
    s.m.field.enc.edgeB = none ∧
    s.m.field.enc.illAt = [] ∧
    (quadPhase a b + 4 - quadPhase s.m.field.enc.lastA s.m.field.enc.lastB) % 4 = 3 :=
  ⟨fieldE {}, false, true, 5, by decide +kernel⟩

theorem meets_EncoderAndAnalogue_3 : ∃ (s : State) (a : Bool) (b : Bool) (t : Nat) (u : Nat),
    (s.m.tick t).fieldRuns = true ∧
    diEnc s.m 46 = true ∧
    s.m.field.enc.illAt = [u] ∧
    max s.m.now t < u + 10000000 ∧
    a ≠ s.m.field.enc.lastA ∧
    b ≠ s.m.field.enc.lastB ∧
    (∀ x ∈ s.m.field.di, x.latch = false ∧ standsNow 8 x.found = false) ∧
    48 ≤ s.m.field.di.length :=
  ⟨fieldE { illAt := [3] }, true, true, 5, 3, by decide +kernel⟩

theorem meets_EncoderAndAnalogue_4 : ∃ (s : State) (t : Nat),
    (s.m.tick t).fieldRuns = true ∧
    diEnc s.m 46 = true :=
  ⟨fieldE { count := 3 }, 5, by decide +kernel⟩

theorem meets_EncoderAndAnalogue_5 : ∃ (s : State) (t : Nat),
    (s.m.tick t).fieldRuns = true ∧
    diEnc s.m 46 = true ∧
    s.m.field.enc.valid = false ∧
    s.m.field.enc.illegal = false ∧
    s.m.field.enc.overfreq = false ∧
    s.m.field.fsm.held = false ∧
    s.m.field.enc.condAt + 1000000000 ≤ max s.m.now t ∧
    (s.m.field.di[46]?).any trackFree = true ∧
    (s.m.field.di[47]?).any trackFree = true :=
  ⟨fieldE {}, 1000000000, by decide +kernel⟩

theorem meets_EncoderAndAnalogue_6 : ∃ (s : State) (ch : Nat) (code : Nat) (t : Nat) (x : AiCh),
    (s.m.tick t).fieldRuns = true ∧
    s.m.field.ai[ch]? = some x ∧
    code < 7200 ∧
    2 ≤ x.lowRun ∧
    x.latch = false ∧
    standsNow 1 x.found = false ∧
    s.m.mod.mode ≠ .commission :=
  ⟨fieldA { lowRun := 2, valid := true }, 0, 7199, 5, { lowRun := 2, valid := true }, by decide +kernel⟩

theorem meets_EncoderAndAnalogue_7 : ∃ (s : State) (ch : Nat) (code : Nat) (t : Nat) (x : AiCh),
    (s.m.tick t).fieldRuns = true ∧
    s.m.field.ai[ch]? = some x ∧
    42000 < code ∧
    code < 65536 ∧
    2 ≤ x.highRun ∧
    x.latch = false ∧
    standsNow 2 x.found = false ∧
    s.m.mod.mode ≠ .commission :=
  ⟨fieldA { highRun := 2, valid := true }, 0, 42001, 5, { highRun := 2, valid := true }, by decide +kernel⟩

theorem meets_EncoderAndAnalogue_8 : ∃ (s : State) (ch : Nat) (code : Nat) (t : Nat) (x : AiCh),
    (s.m.tick t).fieldRuns = true ∧
    s.m.field.ai[ch]? = some x ∧
    7200 ≤ code ∧
    code ≤ 42000 ∧
    2 ≤ x.okRun ∧
    x.found = [] ∧
    x.latch = false ∧
    x.unusable = false ∧
    s.m.field.fsm.held = false ∧
    s.m.mod.mode ≠ .commission :=
  ⟨fieldA { okRun := 2 }, 0, 42000, 5, { okRun := 2 }, by decide +kernel⟩

theorem meets_EncoderAndAnalogue_9 : ∃ (s : State) (ch : Nat) (r : Nat) (t : Nat) (high : Bool) (x : AiCh),
    (s.m.tick t).fieldRuns = true ∧
    s.m.field.ai[ch]? = some x ∧
    (if high then 40000 else 8000) ≤ r + 80 ∧
    r ≤ (if high then 40000 else 8000) + 80 :=
  ⟨fieldA { failHi := 1 }, 0, 40080, 5, true, { failHi := 1 }, by decide +kernel⟩

theorem meets_EncoderAndAnalogue_10 : ∃ (s : State) (ch : Nat) (r : Nat) (t : Nat) (high : Bool) (x : AiCh),
    (s.m.tick t).fieldRuns = true ∧
    s.m.field.ai[ch]? = some x ∧
    (r + 80 < (if high then 40000 else 8000) ∨ (if high then 40000 else 8000) + 80 < r) ∧
    1 ≤ (if high then x.failHi else x.failLo) ∧
    x.latch = false ∧
    standsNow 3 x.found = false :=
  ⟨fieldA { failLo := 1, valid := true }, 0, 8081, 5, false, { failLo := 1, valid := true }, by decide +kernel⟩

end WEnc

/-! ### Witnesses: FieldSupply -/

namespace WFsm

def sup (f : Fsm) : State := st { serv with field := { fsm := f } }
def supSd : State := st { serv with
  sd := some { sd with settings := { sd.settings with thrMin := some 80, thrMax := some 110 } }
  field := { fsm := { sag := false, samples := List.replicate 100 2200, sinceRelease := 100, thrOn := 110 } } }

theorem meets_FieldSupply_1 : ∃ (s : State) (v : Int),
    s.m.power.powered = true ∧
    s.m.field.fsm.frozen = false ∧
    800 ≤ v :=
  ⟨sup { sag := false }, 2400, by decide +kernel⟩

theorem meets_FieldSupply_2 : ∃ (s : State) (t : Nat) (u : Nat),
    s.m.field.fsm.low = false ∧
    s.m.field.fsm.lowFrom = some u ∧
    u + 900000 ≤ max s.m.now t :=
  ⟨sup { lowFrom := some 0 }, 900000, 0, by decide +kernel⟩

theorem meets_FieldSupply_3 : ∃ (s : State) (t : Nat) (u : Nat),
    s.m.field.fsm.okFrom = some u ∧
    u + 900000 ≤ max s.m.now t :=
  ⟨sup { okFrom := some 0, low := true }, 900000, 0, by decide +kernel⟩

theorem meets_FieldSupply_4 : ∃ (s : State),
    s.m.field.fsm.sag = false ∧
    2 ≤ s.m.field.fsm.sagRun ∧
    s.m.field.fsm.frozen = false ∧
    (∀ x ∈ s.m.field.di, x.latch = true ∨ standsNow 7 x.found = true → x.valid = false) ∧
    (∀ x ∈ s.m.field.ai, x.latch = true ∨ standsNow 7 x.found = true → x.valid = false) ∧
    s.m.field.di.length = 48 ∧
    s.m.field.ai.length = 8 ∧
    s.m.field.out.length = 24 :=
  ⟨sup { sag := false, sagRun := 2 }, by decide +kernel⟩

theorem meets_FieldSupply_5 : ∃ (s : State),
    s.m.field.fsm.rev = false ∧
    2 ≤ s.m.field.fsm.revRun ∧
    s.m.field.fsm.frozen = false ∧
    (∀ x ∈ s.m.field.di, x.latch = true ∨ standsNow 7 x.found = true → x.valid = false) ∧
    s.m.field.di.length = 48 ∧
    s.m.field.out.length = 24 :=
  ⟨sup { sag := false, revRun := 2 }, by decide +kernel⟩

theorem meets_FieldSupply_6 : ∃ (s : State) (t : Nat) (u : Nat),
    s.m.field.fsm.high = false ∧
    s.m.field.fsm.highFrom = some u ∧
    u + 900000 ≤ max s.m.now t ∧
    s.m.field.fsm.frozen = false ∧
    (∀ x ∈ s.m.field.di, x.latch = true ∨ standsNow 7 x.found = true → x.valid = false) ∧
    s.m.field.di.length = 48 ∧
    s.m.field.out.length = 24 :=
  ⟨sup { sag := false, highFrom := some 0 }, 900000, 0, by decide +kernel⟩

theorem meets_FieldSupply_7 : ∃ (s : State) (t : Nat) (u : Nat),
    s.m.field.fsm.held = true ∧
    s.m.field.fsm.rangeFrom = some u ∧
    u + 200000000 ≤ max s.m.now t ∧
    s.m.field.fsm.frozen = false ∧
    s.m.field.di.length = 48 ∧
    s.m.field.ai.length = 8 :=
  ⟨sup { rangeFrom := some 0 }, 200000000, 0, by decide +kernel⟩

theorem meets_FieldSupply_8 : ∃ (s : State) (t : Nat),
    s.m.field.fsm.frozen = true ∧
    s.m.field.fsm.freezeAt + 100000 ≤ max s.m.now t :=
  ⟨sup { sag := false, frozen := true }, 100000, by decide +kernel⟩

theorem meets_FieldSupply_9 : ∃ (s : State) (t : Nat) (sd : StationData) (lo : Nat) (hi : Nat),
    (s.m.tick t).fieldRuns = true ∧
    s.m.field.fsm.held = false ∧
    s.m.field.fsm.samples.length = 100 ∧
    100 ≤ s.m.field.fsm.sinceRelease ∧
    s.m.sd = some sd ∧
    sd.settings.thrMin = some lo ∧
    sd.settings.thrMax = some hi ∧
    lo ≤ s.m.field.fsm.thrOn.toNat ∧
    s.m.field.fsm.thrOn.toNat ≤ hi ∧
    hi < 128 ∧
    (lo : Int) ≤ thrTarget s.m.field.fsm.samples ∧
    thrTarget s.m.field.fsm.samples ≤ (hi : Int) :=
  ⟨supSd, 5, { sd with settings := { sd.settings with thrMin := some 80, thrMax := some 110 } }, 80, 110, by decide +kernel⟩

end WFsm

/-! ### Witnesses: OutputReadback, TestPulses -/

namespace WOut

def outp (x : OutCh) : State := st { serv with field := { fsm := { sag := false, samples := [2400] }, out := x :: List.replicate 23 {} } }
def outpF (x : OutCh) : State := ⟨[], each (fun y => { y with outs := List.replicate 24 {} }) (outp x).m⟩
def outOn (x : OutCh) : State := ⟨[], each (fun y => { y with drive := { y.drive with latched := 1, windings := 1 } })
  { (outp x).m with cal := { serv.cal with odm := { serv.cal.odm with tripped := false } } }⟩
def outOff (x : OutCh) : State := ⟨[], each (fun y => { y with drive := { y.drive with latched := 0 } })
  { (outp x).m with cal := { serv.cal with odm := { serv.cal.odm with tripped := false } } }⟩
def outCfg0 : OutCfg := { used := true, ored := false, old := true, imin := none }
def oldSd : StationData := { sd with out := outCfg0 :: sd.out.drop 1 }
def outCross (x : OutCh) : State := ⟨[], { (outOn x).m with sd := some { sd with out := List.replicate 24 outCfg0 } }⟩
def outpOld (x : OutCh) : State := ⟨[], { (outp x).m with sd := some oldSd }⟩

theorem meets_OutputReadback_1 : ∃ (s : State) (n : Nat) (vp : Int) (vn : Int) (v : Int) (t : Nat) (code : Nat) (x : OutCh) (c : OutCfg),
    s.m.power.powered = true ∧
    s.m.field.fsm.samples.head? = some v ∧
    800 ≤ v ∧
    s.m.field.out[n]? = some x ∧
    s.m.outCfg n = some c ∧
    c.used = true ∧
    s.m.field.fsm.held = false ∧
    x.drvPos = false ∧
    x.drvNeg = false ∧
    x.test = none ∧
    x.settleAt + 20000000 ≤ max s.m.now t ∧
    x.fault = 0 ∧
    x.latch = false ∧
    x.unusable = false ∧
    code = (if 70 * v ≤ 100 * vp ∧ 70 * v ≤ 100 * vn then 1 else if 100 * vp ≤ 30 * v ∧ 100 * vn ≤ 30 * v then 2 else 11) ∧
    ((70 * v ≤ 100 * vp ∨ 100 * vp ≤ 30 * v) ∨ (70 * v ≤ 100 * vn ∨ 100 * vn ≤ 30 * v)) ∧
    ¬(100 * vp ≤ 30 * v ∧ 70 * v ≤ 100 * vn) ∧
    x.judge = code ∧
    x.judgeRun = 9 :=
  ⟨outp { judge := 1, judgeRun := 9 }, 0, 2400, 2000, 2400, 20000000, 1, { judge := 1, judgeRun := 9 }, { used := true, ored := false, old := false, imin := none }, by decide +kernel⟩

theorem meets_OutputReadback_2 : ∃ (s : State) (n : Nat) (mA : Nat) (t : Nat) (u : Nat) (x : OutCh) (c : OutCfg),
    s.m.fieldRuns = true ∧
    s.m.field.out[n]? = some x ∧
    s.m.outCfg n = some c ∧
    c.used = true ∧
    c.old = true ∧
    c.ored = false ∧
    s.m.field.fsm.held = false ∧
    x.drvPos = true ∧
    x.drvNeg = true ∧
    x.test = none ∧
    x.driveAt + 1000000 ≤ max s.m.now t ∧
    mA < c.imin.getD 5 ∧
    x.lowCurAt = some u ∧
    u + 100000000 ≤ max s.m.now t ∧
    x.isFault = false ∧
    x.latch = false ∧
    x.unusable = false ∧
    mA < 4096 :=
  ⟨outpOld { drvPos := true, drvNeg := true, lowCurAt := some 0, avail := true }, 0, 4, 100000000, 0, { drvPos := true, drvNeg := true, lowCurAt := some 0, avail := true }, outCfg0, by decide +kernel⟩

theorem meets_OutputReadback_3 : ∃ (s : State) (n : Nat) (temp : Int) (t : Nat) (u : Nat) (x : OutCh),
    s.m.field.out[n]? = some x ∧
    x.healthyAt = some u ∧
    u + 1000000000 ≤ max s.m.now t ∧
    x.latch = false ∧
    s.m.field.fsm.held = false ∧
    x.isFault = true ∧
    x.unusable = false ∧
    (x.fault = 9 → temp < 120) ∧
    x.noPos < 8 ∧
    x.noNeg < 8 :=
  ⟨outp { healthyAt := some 0, isFault := true, fault := 9 }, 0, 119, 1000000000, 0, { healthyAt := some 0, isFault := true, fault := 9 }, by decide +kernel⟩

theorem meets_OutputReadback_4 : ∃ (s : State) (n : Nat) (x : OutCh),
    s.m.field.out[n]? = some x ∧
    x.latch = true :=
  ⟨outp { latch := true }, 0, { latch := true }, by decide +kernel⟩

theorem meets_OutputReadback_5 : ∃ (s : State) (n : Nat) (x : OutCh),
    s.m.fieldRuns = true ∧
    s.m.field.out[n]? = some x ∧
    (∀ l, n < (s.m.lane l).outs.length) :=
  by
  refine ⟨outpF { avail := true }, 0, { avail := true }, ?_⟩
  and_intros <;> first | decide +kernel | (intro k; cases k <;> decide +kernel)

theorem meets_OutputReadback_6 : ∃ (s : State) (n : Nat) (x : OutCh),
    s.m.fieldRuns = true ∧
    s.m.field.out[n]? = some x ∧
    (x.drvPos = true ∨ x.drvNeg = true) ∧
    outUsed s.m n = true ∧
    x.test = none ∧
    x.fault = 0 ∧
    x.latch = false ∧
    x.unusable = false :=
  ⟨outOn { drvPos := true, inhibit := false, avail := true }, 0, { drvPos := true, inhibit := false, avail := true }, by decide +kernel⟩

theorem meets_OutputReadback_7 : ∃ (s : State) (n : Nat) (x : OutCh),
    s.m.fieldRuns = true ∧
    s.m.field.out[n]? = some x :=
  ⟨outp { avail := true }, 0, { avail := true }, by decide +kernel⟩

theorem meets_OutputReadback_8 : ∃ (s : State) (n : Nat) (temp : Int) (x : OutCh),
    s.m.fieldRuns = true ∧
    s.m.field.out[n]? = some x ∧
    outUsed s.m n = true ∧
    x.test = none ∧
    175 ≤ temp ∧
    x.fault = 0 ∧
    x.latch = false ∧
    x.unusable = false :=
  ⟨outp { avail := true }, 0, 175, { avail := true }, by decide +kernel⟩

theorem meets_TestPulses_1 : ∃ (s : State) (n : Nat) (x : OutCh),
    s.m.evaluates = true ∧
    s.m.cycleMs ≠ 0 ∧
    s.m.cycleNo.toNat * s.m.cycleMs % 1024 = 0 ∧
    s.m.field.periodOn = true ∧
    s.m.field.periodAt ≠ (s.m.lane s.m.viewLane).t0 ∧
    n < 24 ∧
    s.m.field.out[n]? = some x ∧
    outUsed s.m n = true ∧
    x.isFault = false ∧
    x.latch = false ∧
    x.unusable = false ∧
    s.m.field.fsm.held = false :=
  ⟨⟨[], { (outp { noPos := 7 }).m with field := { (outp { noPos := 7 }).m.field with periodOn := true, periodAt := 77 } }⟩, 0, { noPos := 7 }, by decide +kernel⟩

theorem meets_TestPulses_2 : ∃ (s : State) (n : Nat) (p : Pole) (t : Nat) (x : OutCh),
    s.m.field.out[n]? = some x ∧
    (s.m.tick t).pulseMay n x = true ∧
    (s.m.tick t).pulseCalled n x p = true ∧
    s.m.latchedBit n = true ∧
    x.changedBefore (max s.m.now t) = false ∧
    (∀ l, s.m.life l ≠ .voting → (s.m.lane l).drive.windings = 0) :=
  by
  refine ⟨outOn { armed := true, repeatNow := some .pos, inhibit := false }, 0, .pos, 5, { armed := true, repeatNow := some .pos, inhibit := false }, ?_⟩
  and_intros <;> first | decide +kernel | (intro k; cases k <;> decide +kernel)

theorem meets_TestPulses_3 : ∃ (s : State) (n : Nat) (p : Pole) (t : Nat) (x : OutCh),
    s.m.field.out[n]? = some x ∧
    (s.m.tick t).pulseMay n x = true ∧
    (s.m.tick t).pulseCalled n x p = true ∧
    s.m.latchedBit n = true ∧
    x.changedBefore (max s.m.now t) = true ∧
    x.repeatsPos < 2 ∧
    x.repeatsNeg < 2 :=
  ⟨outOn { armed := true, repeatNow := some .pos, changes := ⟨none, some 0, none⟩ }, 0, .pos, 199999, { armed := true, repeatNow := some .pos, changes := ⟨none, some 0, none⟩ }, by decide +kernel⟩

theorem meets_TestPulses_4 : ∃ (s : State) (n : Nat) (p : Pole) (seen : List CrossChange) (t : Nat) (x : OutCh),
    s.m.field.out[n]? = some x ∧
    (∀ d ∈ seen, (s.m.tick t).crossFound n d = s.m.tick t) ∧
    x.runs .dark p 1 200000 (max s.m.now t) = true ∧
    x.pendMatch = true ∧
    x.pendOk = true :=
  ⟨outOn { test := some .dark, tphase := 1, pendMatch := true, pendOk := true }, 0, .pos, [], 200000, { test := some .dark, tphase := 1, pendMatch := true, pendOk := true }, by decide +kernel⟩

theorem meets_TestPulses_5 : ∃ (s : State) (n : Nat) (p : Pole) (seen : List CrossChange) (t : Nat) (x : OutCh),
    s.m.field.out[n]? = some x ∧
    (∀ d ∈ seen, (s.m.tick t).crossFound n d = s.m.tick t) ∧
    x.runs .dark p 1 200000 (max s.m.now t) = true ∧
    x.pendMatch = true ∧
    x.pendOk = false ∧
    x.fault = 0 ∧
    x.latch = false ∧
    x.unusable = false :=
  ⟨outOn { test := some .dark, tphase := 1, pendMatch := true }, 0, .pos, [], 200000, { test := some .dark, tphase := 1, pendMatch := true }, by decide +kernel⟩

theorem meets_TestPulses_6 : ∃ (s : State) (n : Nat) (p : Pole) (seen : List CrossChange) (t : Nat) (x : OutCh),
    s.m.field.out[n]? = some x ∧
    (∀ d ∈ seen, (s.m.tick t).crossFound n d = s.m.tick t) ∧
    x.runs .dark p 2 320000 (max s.m.now t) = true ∧
    x.fault = 0 :=
  ⟨outOn { test := some .dark, tphase := 2 }, 0, .pos, [], 320000, { test := some .dark, tphase := 2 }, by decide +kernel⟩

theorem meets_TestPulses_7 : ∃ (s : State) (n : Nat) (p : Pole) (seen : List CrossChange) (t : Nat) (x : OutCh),
    s.m.field.out[n]? = some x ∧
    (∀ d ∈ seen, (s.m.tick t).crossFound n d = s.m.tick t) ∧
    x.runs .dark p 2 320000 (max s.m.now t) = true ∧
    x.fault = 0 ∧
    x.latch = false ∧
    x.unusable = false :=
  ⟨outOn { test := some .dark, tphase := 2 }, 0, .pos, [], 320000, { test := some .dark, tphase := 2 }, by decide +kernel⟩

theorem meets_TestPulses_8 : ∃ (s : State) (n : Nat) (p : Pole) (t : Nat) (x : OutCh),
    s.m.field.out[n]? = some x ∧
    (s.m.tick t).pulseMay n x = true ∧
    (s.m.tick t).pulseCalled n x p = true ∧
    s.m.latchedBit n = false ∧
    s.m.oredLightOk n = true ∧
    x.changedBefore (max s.m.now t) = false :=
  ⟨outOff { armed := true, repeatNow := some .pos, inhibit := false }, 0, .pos, 5, { armed := true, repeatNow := some .pos, inhibit := false }, by decide +kernel⟩

theorem meets_TestPulses_9 : ∃ (s : State) (n : Nat) (p : Pole) (seen : List CrossChange) (t : Nat) (x : OutCh),
    s.m.field.out[n]? = some x ∧
    (∀ d ∈ seen, (s.m.tick t).crossFound n d = s.m.tick t) ∧
    x.runs .light p 1 200000 (max s.m.now t) = true ∧
    x.pendMatch = true ∧
    x.pendOk = true :=
  ⟨outOff { test := some .light, tphase := 1, pendMatch := true, pendOk := true }, 0, .pos, [], 200000, { test := some .light, tphase := 1, pendMatch := true, pendOk := true }, by decide +kernel⟩

theorem meets_TestPulses_10 : ∃ (s : State) (n : Nat) (p : Pole) (seen : List CrossChange) (t : Nat) (x : OutCh),
    s.m.field.out[n]? = some x ∧
    (∀ d ∈ seen, (s.m.tick t).crossFound n d = s.m.tick t) ∧
    x.runs .light p 1 200000 (max s.m.now t) = true ∧
    x.pendMatch = true ∧
    x.pendOk = false ∧
    x.fault = 0 ∧
    x.latch = false ∧
    x.unusable = false :=
  ⟨outOff { test := some .light, tphase := 1, pendMatch := true }, 0, .pos, [], 200000, { test := some .light, tphase := 1, pendMatch := true }, by decide +kernel⟩

theorem meets_TestPulses_11 : ∃ (s : State) (n : Nat) (p : Pole) (seen : List CrossChange) (t : Nat) (x : OutCh) (c : OutCfg),
    s.m.field.out[n]? = some x ∧
    (∀ d ∈ seen, (s.m.tick t).crossFound n d = s.m.tick t) ∧
    s.m.outCfg n = some c ∧
    x.runs .light p 2 300000 (max s.m.now t) = true ∧
    (x.pendFollow = true ∨ c.ored = true) ∧
    x.fault = 0 :=
  ⟨outpOld { test := some .light, tphase := 2, pendFollow := true }, 0, .pos, [], 300000, { test := some .light, tphase := 2, pendFollow := true }, outCfg0, by decide +kernel⟩

theorem meets_TestPulses_12 : ∃ (s : State) (n : Nat) (p : Pole) (seen : List CrossChange) (t : Nat) (x : OutCh),
    s.m.field.out[n]? = some x ∧
    (∀ d ∈ seen, (s.m.tick t).crossFound n d = s.m.tick t) ∧
    x.runs .light p 2 300000 (max s.m.now t) = true ∧
    x.fault = 0 ∧
    x.latch = false ∧
    x.unusable = false :=
  ⟨outpOld { test := some .light, tphase := 2, pendFollow := true }, 0, .pos, [], 300000, { test := some .light, tphase := 2, pendFollow := true }, by decide +kernel⟩

theorem meets_TestPulses_13 : ∃ (s : State) (n : Nat) (p : Pole) (seen : List CrossChange) (t : Nat) (x : OutCh) (c : OutCfg),
    s.m.field.out[n]? = some x ∧
    (∀ d ∈ seen, (s.m.tick t).crossFound n d = s.m.tick t) ∧
    s.m.outCfg n = some c ∧
    x.runs .light p 2 300000 (max s.m.now t) = true ∧
    x.pendFollow = false ∧
    c.old = true ∧
    c.ored = false ∧
    x.fault = 0 ∧
    x.isFault = false ∧
    x.latch = false ∧
    x.unusable = false ∧
    s.m.field.fsm.held = false :=
  ⟨outpOld { test := some .light, tphase := 2 }, 0, .pos, [], 300000, { test := some .light, tphase := 2 }, outCfg0, by decide +kernel⟩

theorem meets_TestPulses_14 : ∃ (s : State) (n : Nat) (p : Pole) (ok : Bool) (c : CrossChange) (t : Nat) (q : Nat) (x : OutCh) (y : OutCh) (g : OutCfg) (i : Instr),
    s.m.field.out[n]? = some x ∧
    s.m.field.out[c.out]? = some y ∧
    s.m.outCfg c.out = some g ∧
    c.out ≠ n ∧
    g.used = true ∧
    (c.current && g.ored) = false ∧
    x.test.isSome = true ∧
    y.test = none ∧
    x.unusable = false ∧
    y.unusable = false ∧
    x.fault ≠ 8 ∧
    y.fault ≠ 8 ∧
    x.pulseAt + c.after ≤ max s.m.now t ∧
    x.pulseEnd = some q ∧
    x.pulseAt + c.after ≤ q + 100000 ∧
    y.changedBefore (x.pulseAt + c.after) = false ∧
    i ∈ [.darkPulseRedrive n p [c] t, .darkPulseRecloseCheck n p ok [c] t, .lightPulseEnd n p [c] t,
      .lightPulseVerify n p ok [c] t] :=
  ⟨outCross { test := some .dark, tphase := 1, pulseEnd := some 200000 }, 0, .pos, true, { out := 1, after := 300000, current := false }, 300000, 200000, { test := some .dark, tphase := 1, pulseEnd := some 200000 }, {}, outCfg0, .darkPulseRecloseCheck 0 .pos true [{ out := 1, after := 300000, current := false }] 300000, by decide +kernel⟩

theorem meets_TestPulses_15 : ∃ (s : State) (n : Nat) (p : Pole) (t : Nat) (due : Nat) (x : OutCh),
    s.m.field.out[n]? = some x ∧
    x.repeatDue = some (p, due) ∧
    due ≤ max s.m.now t :=
  ⟨outp { repeatDue := some (.neg, 5) }, 0, .neg, 5, 5, { repeatDue := some (.neg, 5) }, by decide +kernel⟩

end WOut

/-! ### Witnesses: RingForwarding, RingReceipt -/

namespace WRframe

def rentry (kind : SlotKind) (tx rx : Bool) : RingEntry :=
  { kind := kind, bc := 0, parity := .every, instant := 10000, owner := 0x101, copy := 0, msg := 5, len := 16, tx := tx, rx := rx
    conn := 0, prio := 1, members := [0x101, 0x102], arbBytesGiven := some 1000, rxTmo := none, senderC := 8 }
def rcfg : RingCfg :=
  { noRing with
    used := true, node := 0x101, schedId := 9, nmod := 4
    entries := [rentry .exclusive true false, { rentry .exclusive false true with owner := 0x102 }, rentry .arbitrating true false,
      rentry .join true false, rentry .reference true false]
    sporadic := [{ msg := 5, prio := 1, refreshGiven := some 4, ageMax := none }]
    coldstarts := [{ node := 0x101, copy := 0, rank := 2 }, { node := 0x102, copy := 0, rank := 1 }] }
def ringM (r : RingIfc) : Mach :=
  { serv with sd := some { sd with ring1 := rcfg }, ring1 := { r with entries := List.replicate 5 {} }, cal := { serv.cal with txOn := true } }
def ringS (r : RingIfc) : State := st (ringM r)
def up : RingPort := { up := true, service := true, driving := true }
def rframe (typ : BitVec 4) (src : BitVec 12) (seq msg : Nat) (payload : List W64) : RingFrame :=
  { mkFrame (ringM {}) { rcfg with node := src } typ 0 1 seq msg payload with hop := 0 }
def eRx : RingEntry := { rentry .exclusive false true with owner := 0x102 }
def two : RingIfc := { ifc := .active, east := up, west := up }
def fr : RingFrame := rframe 1 0x103 3 5 [1, 2]
def frOwn : RingFrame := rframe 1 0x101 3 5 [1, 2]
def frRx (seq : Nat) (src : BitVec 12) : RingFrame := rframe 1 src seq 5 [1, 2]
def tb1 : TimeBase := { live := true, count := 32, start := 1000000 }
def heldF : HeldFrame := { frame := fr, dir := .west, at0 := 5, cut := none }
def synced : RingIfc := { two with tb := tb1 }
def rc7 : RingCopy := { frame := fr, sentAt := 7, at0 := 7 }
def rc8 : RingCopy := { frame := { fr with payload := [3] }, sentAt := 8, at0 := 8 }
def withRec (x : EntryRec) : State := ⟨[], { ringM synced with ring1 := { synced with entries := [{}, x, {}, {}, {}] } }⟩

theorem meets_RingForwarding_1 : ∃ (s : State) (i : RingId) (d : Dir) (f : RingFrame) (c : RingCfg) (t : Nat),
    s.m.ringUsed i = some c ∧
    ((s.m.ring i).port d).service = true ∧
    ((s.m.ring i).port (otherDir d)).service = true ∧
    (s.m.ring i).turn = 0 ∧
    f.src ≠ c.node ∧
    f.hop.toNat < 253 ∧
    f.hop.toNat + 1 ≠ pathModules c f ∧
    cutCause f = none ∧
    f.aborted = false ∧
    (s.m.ring i).ibuf = [] ∧
    ((s.m.ring i).port (otherDir d)).busyUntil ≤ max s.m.now t :=
  ⟨ringS two, .r1, .west, fr, rcfg, 5, by decide +kernel⟩

theorem meets_RingForwarding_2 : ∃ (s : State) (i : RingId) (d : Dir) (f : RingFrame) (c : RingCfg) (t : Nat) (k : Nat),
    s.m.ringUsed i = some c ∧
    ((s.m.ring i).port d).service = true ∧
    ((s.m.ring i).port (otherDir d)).service = true ∧
    (s.m.ring i).turn = 0 ∧
    f.src ≠ c.node ∧
    f.hop.toNat < 253 ∧
    f.hop.toNat + 1 ≠ pathModules c f ∧
    cutCause f = some k ∧
    f.aborted = false ∧
    f.typ ≠ 11 ∧
    (s.m.ring i).ibuf = [] ∧
    ((s.m.ring i).port (otherDir d)).busyUntil ≤ max s.m.now t :=
  ⟨ringS two, .r1, .west, { fr with fcrc := 1 }, rcfg, 5, 6, by decide +kernel⟩

theorem meets_RingForwarding_3 : ∃ (f : RingFrame),
    f.aborted = false ∧
    f.symErr = none ∧
    f.ver = 1 ∧
    f.typ = 1 ∧
    hcrcOk f = true ∧
    f.len = 16 ∧
    f.endOk = true :=
  ⟨fr, by decide +kernel⟩

theorem meets_RingForwarding_4 : ∃ (s : State) (i : RingId) (d : Dir) (f : RingFrame) (c : RingCfg),
    s.m.ringUsed i = some c ∧
    ((s.m.ring i).port d).service = true ∧
    (s.m.ring i).turn = 0 ∧
    f.src ≠ c.node ∧
    f.typ ≠ 11 ∧
    f.hop.toNat < 253 ∧
    f.hop.toNat + 1 = pathModules c f :=
  ⟨ringS two, .r1, .west, { fr with hop := 3 }, rcfg, by decide +kernel⟩

theorem meets_RingForwarding_5 : ∃ (s : State) (i : RingId) (f : RingFrame) (c : RingCfg),
    s.m.ringUsed i = some c ∧
    (s.m.ring i).west.service = true ∧
    f.src = c.node ∧
    f.copy = ringCopy s.m c ∧
    f.typ = 1 ∧
    f.aborted = false :=
  ⟨ringS two, .r1, frOwn, rcfg, by decide +kernel⟩

theorem meets_RingForwarding_6 : ∃ (s : State) (i : RingId) (d : Dir) (f : RingFrame) (c : RingCfg) (t : Nat) (j : Nat) (e : Nat),
    s.m.ringUsed i = some c ∧
    ((s.m.ring i).port d).service = true ∧
    (s.m.ring i).turn = 0 ∧
    f.src ≠ c.node ∧
    f.hop.toNat < 253 ∧
    f.hop.toNat + 1 ≠ pathModules c f ∧
    f.typ ≠ 11 ∧
    f.len.toNat ≤ 1512 ∧
    (s.m.ring i).ibuf = [] ∧
    max s.m.now t < ((s.m.ring i).port (otherDir d)).busyUntil ∧
    ((s.m.ring i).rest (otherDir d)).sending = some (j, e) ∧
    max s.m.now t < e :=
  ⟨ringS { two with east := { up with busyUntil := 100 }, restE := { sending := some (0, 90) } }, .r1, .west, fr, rcfg, 5, 0, 90, by decide +kernel⟩

theorem meets_RingForwarding_7 : ∃ (s : State) (i : RingId) (x : HeldFrame) (t : Nat) (xs : List HeldFrame),
    (s.m.ring i).ibuf = x :: xs ∧
    (s.m.ring i).turn = 0 ∧
    ((s.m.ring i).port (otherDir x.dir)).service = true ∧
    ((s.m.ring i).port (otherDir x.dir)).busyUntil + 640 ≤ max s.m.now t ∧
    x.frame.aborted = false :=
  ⟨ringS { two with ibuf := [heldF] }, .r1, heldF, 700, [], by decide +kernel⟩

theorem meets_RingReceipt_1 : ∃ (s : State) (i : RingId) (d : Dir) (f : RingFrame) (c : RingCfg) (t : Nat) (k : Nat) (e : RingEntry) (p : RingPoint),
    s.m.ringUsed i = some c ∧
    ((s.m.ring i).port d).service = true ∧
    (s.m.ring i).sync = true ∧
    f.typ = 1 ∧
    intactFrame f = true ∧
    f.loop = false ∧
    f.slot.toNat = k ∧
    c.entries[k]? = some e ∧
    k < (s.m.ring i).entries.length ∧
    e.rx = true ∧
    e.kind = .exclusive ∧
    f.src = e.owner ∧
    f.copy = e.copy ∧
    f.src ≠ c.node ∧
    linkedDly (s.m.tick t) i d f ≠ 0xFFFF ∧
    f.len = BitVec.ofNat 16 e.len ∧
    p = (s.m.ring i).at0 (sendInstant (s.m.tick t) i d f) ∧
    (inBasic e p.basic = true ∧ p.off ≤ instantNs e + 2000 ∧ instantNs e ≤ p.off + 2000 ∧ f.seq = BitVec.ofNat 32 p.basic) ∧
    ((s.m.ring i).entries[k]?).map (fun x => x.windowAt) = some none :=
  ⟨ringS synced, .r1, .west, frRx 32 0x102, rcfg, 1100000, 1, eRx, ({ basic := 32, off := 100000 } : RingPoint), by decide +kernel⟩

theorem meets_RingReceipt_2 : ∃ (s : State) (i : RingId) (d : Dir) (f : RingFrame) (c : RingCfg) (k : Nat) (e : RingEntry),
    s.m.ringUsed i = some c ∧
    ((s.m.ring i).port d).service = true ∧
    (s.m.ring i).sync = true ∧
    f.typ = 1 ∧
    intactFrame f = true ∧
    f.loop = false ∧
    f.slot.toNat = k ∧
    c.entries[k]? = some e ∧
    k < (s.m.ring i).entries.length ∧
    e.rx = true ∧
    e.kind = .exclusive ∧
    ¬(f.src = e.owner ∧ f.copy = e.copy) ∧
    f.src ≠ c.node :=
  ⟨ringS synced, .r1, .west, frRx 32 0x103, rcfg, 1, eRx, by decide +kernel⟩

theorem meets_RingReceipt_3 : ∃ (s : State) (i : RingId) (d : Dir) (f : RingFrame) (c : RingCfg) (t : Nat) (k : Nat) (e : RingEntry) (p : RingPoint),
    s.m.ringUsed i = some c ∧
    ((s.m.ring i).port d).service = true ∧
    (s.m.ring i).sync = true ∧
    f.typ = 1 ∧
    intactFrame f = true ∧
    f.loop = false ∧
    f.slot.toNat = k ∧
    c.entries[k]? = some e ∧
    k < (s.m.ring i).entries.length ∧
    e.rx = true ∧
    e.kind = .exclusive ∧
    f.src = e.owner ∧
    f.copy = e.copy ∧
    f.src ≠ c.node ∧
    linkedDly (s.m.tick t) i d f ≠ 0xFFFF ∧
    p = (s.m.ring i).at0 (sendInstant (s.m.tick t) i d f) ∧
    (inBasic e p.basic = true ∧ p.off ≤ instantNs e + 2000 ∧ instantNs e ≤ p.off + 2000 ∧ f.seq ≠ BitVec.ofNat 32 p.basic) :=
  ⟨ringS synced, .r1, .west, frRx 33 0x102, rcfg, 1100000, 1, eRx, ({ basic := 32, off := 100000 } : RingPoint), by decide +kernel⟩

theorem meets_RingReceipt_4 : ∃ (s : State) (i : RingId) (t : Nat) (k : Nat) (c : RingCfg) (e : RingEntry) (x : EntryRec) (y : RingCopy),
    s.m.ringUsed i = some c ∧
    c.entries[k]? = some e ∧
    connGroup c e = [(k, e)] ∧
    (s.m.ring i).sync = true ∧
    e.rx = true ∧
    inBasic e ((s.m.ring i).at0 (max s.m.now t)).basic = true ∧
    closesNs e + c.rtMax * 10 ≤ ((s.m.ring i).at0 (max s.m.now t)).off ∧
    (s.m.ring i).entries[k]? = some x ∧
    x.windowAt = none ∧
    x.got0 = some y ∧
    x.got1 = none :=
  ⟨withRec { got0 := some rc7 }, .r1, 1130000, 1, rcfg, eRx, { got0 := some rc7 }, rc7, by decide +kernel⟩

theorem meets_RingReceipt_5 : ∃ (s : State) (i : RingId) (t : Nat) (k : Nat) (c : RingCfg) (e : RingEntry) (x : EntryRec),
    s.m.ringUsed i = some c ∧
    c.entries[k]? = some e ∧
    connGroup c e = [(k, e)] ∧
    (s.m.ring i).sync = true ∧
    e.rx = true ∧
    inBasic e ((s.m.ring i).at0 (max s.m.now t)).basic = true ∧
    closesNs e + c.rtMax * 10 ≤ ((s.m.ring i).at0 (max s.m.now t)).off ∧
    (s.m.ring i).entries[k]? = some x ∧
    x.windowAt = none ∧
    x.got0 = none ∧
    x.got1 = none :=
  ⟨withRec {}, .r1, 1130000, 1, rcfg, eRx, {}, by decide +kernel⟩

theorem meets_RingReceipt_6 : ∃ (s : State) (i : RingId) (t : Nat) (k : Nat) (c : RingCfg) (e : RingEntry) (x : EntryRec) (a : RingCopy) (b : RingCopy),
    s.m.ringUsed i = some c ∧
    c.entries[k]? = some e ∧
    connGroup c e = [(k, e)] ∧
    (s.m.ring i).sync = true ∧
    e.rx = true ∧
    inBasic e ((s.m.ring i).at0 (max s.m.now t)).basic = true ∧
    closesNs e + c.rtMax * 10 ≤ ((s.m.ring i).at0 (max s.m.now t)).off ∧
    (s.m.ring i).entries[k]? = some x ∧
    x.windowAt = none ∧
    x.got0 = some a ∧
    x.got1 = some b ∧
    b.frame.payload ≠ a.frame.payload :=
  ⟨withRec { got0 := some rc7, got1 := some rc8 }, .r1, 1130000, 1, rcfg, eRx, { got0 := some rc7, got1 := some rc8 }, rc7, rc8, by decide +kernel⟩

end WRframe

/-! ### Witnesses: ToolRestWindows, RingSending -/

namespace WRsend

def rentry (kind : SlotKind) (tx rx : Bool) : RingEntry :=
  { kind := kind, bc := 0, parity := .every, instant := 10000, owner := 0x101, copy := 0, msg := 5, len := 16, tx := tx, rx := rx
    conn := 0, prio := 1, members := [0x101, 0x102], arbBytesGiven := some 1000, rxTmo := none, senderC := 8 }
def rcfg : RingCfg :=
  { noRing with
    used := true, node := 0x101, schedId := 9, nmod := 4
    entries := [rentry .exclusive true false, { rentry .exclusive false true with owner := 0x102 }, rentry .arbitrating true false,
      rentry .join true false, rentry .reference true false]
    sporadic := [{ msg := 5, prio := 1, refreshGiven := some 4, ageMax := none }]
    coldstarts := [{ node := 0x101, copy := 0, rank := 2 }, { node := 0x102, copy := 0, rank := 1 }] }
def ringM (r : RingIfc) : Mach :=
  { serv with sd := some { sd with ring1 := rcfg }, ring1 := { r with entries := List.replicate 5 {} }, cal := { serv.cal with txOn := true } }
def ringS (r : RingIfc) : State := st (ringM r)
def up : RingPort := { up := true, service := true, driving := true }
def rframe (typ : BitVec 4) (src : BitVec 12) (seq msg : Nat) (payload : List W64) : RingFrame :=
  { mkFrame (ringM {}) { rcfg with node := src } typ 0 1 seq msg payload with hop := 0 }
def tb8 : TimeBase := { live := true, count := 256, start := 1000000 }
def act : RingIfc := { ifc := .active, east := up, west := up, tb := tb8, restE := { state := .sync, joined := true, tb := tb8 } }
def heldH : HeldMsg := { msg := 5, cycle := 32, words := [1, 2], at0 := 0 }
def actH (r : RingIfc) : State := ⟨[], { ringM r with cal := { (ringM r).cal with vote := { held := [heldH] } } }⟩
def pt (o : Nat) : RingPoint := { basic := 256, off := o }
def arbQ : ArbItem := { msg := 5, prio := 1, cycle := 30, words := [1, 2] }
def eTx : RingEntry := rentry .exclusive true false
def eArb : RingEntry := { rentry .arbitrating true false with len := 100 }
def rcfgA : RingCfg := { rcfg with entries := [eTx, eTx, eArb, rentry .join true false] }
def ringA (r : RingIfc) : State := ⟨[], { ringM r with sd := some { sd with ring1 := rcfgA } }⟩
def cutI (r : List Nat) : RingIfc := { act with restE := { act.restE with openSlot := some 0, sending := some (0, 1200000), recent := r }, east := { up with lastTx := some (rframe 1 0x101 256 5 [1, 2]) } }

theorem meets_ToolRestWindows_1 : ∃ (s : State) (i : RingId) (d : Dir) (k : Nat) (t : Nat) (c : RingCfg) (e : RingEntry) (p : RingPoint),
    s.m.entryOf i k = some (c, e) ∧
    ((s.m.ring i).rest d).state = .sync ∧
    ((s.m.ring i).rest d).openSlot ≠ some k ∧
    restHolds s.m c e = true ∧
    p = ((s.m.ring i).rest d).tb.at0 (max s.m.now t) ∧
    (e.kind = .reference ∨ inBasic e p.basic = true) ∧
    restOpens e ≤ p.off ∧
    p.off ≤ restCloses e ∧
    (e.kind = .join ∨ e.kind = .reference ∨ ((s.m.ring i).rest d).joined = true) :=
  ⟨ringS act, .r1, .east, 0, 1100000, rcfg, eTx, pt 100000, by decide +kernel⟩

theorem meets_ToolRestWindows_2 : ∃ (s : State) (i : RingId) (d : Dir) (k : Nat) (c : RingCfg) (e : RingEntry),
    s.m.entryOf i k = some (c, e) ∧
    (restHolds s.m c e = false ∨ ((s.m.ring i).rest d).state ≠ .sync ∨
      (e.kind ≠ .join ∧ e.kind ≠ .reference ∧ ((s.m.ring i).rest d).joined = false)) :=
  ⟨ringS { act with restE := { state := .sync, tb := tb8 } }, .r1, .east, 0, rcfg, eTx, by decide +kernel⟩

theorem meets_ToolRestWindows_3 : ∃ (s : State) (i : RingId) (d : Dir) (k : Nat) (t : Nat) (c : RingCfg) (e : RingEntry) (p : RingPoint),
    s.m.entryOf i k = some (c, e) ∧
    ((s.m.ring i).rest d).openSlot = some k ∧
    p = ((s.m.ring i).rest d).tb.at0 (max s.m.now t) ∧
    e.kind ≠ .reference ∧
    (inBasic e p.basic = false ∨ restCloses e ≤ p.off) ∧
    (∀ q, ((s.m.ring i).rest d).sending = some q → q.2 ≤ max s.m.now t) :=
  ⟨ringS { act with restE := { act.restE with openSlot := some 0 } }, .r1, .east, 0, 1107360, rcfg, eTx, pt 107360, by (refine ⟨by decide +kernel, by decide +kernel, rfl, by decide +kernel, by decide +kernel, fun q h => ?_⟩; cases h)⟩

theorem meets_ToolRestWindows_4 : ∃ (s : State) (i : RingId) (d : Dir) (k : Nat) (t : Nat) (e1 : Nat) (c : RingCfg) (e : RingEntry) (p : RingPoint) (f : RingFrame),
    s.m.entryOf i k = some (c, e) ∧
    ((s.m.ring i).rest d).openSlot = some k ∧
    p = ((s.m.ring i).rest d).tb.at0 (max s.m.now t) ∧
    e.kind ≠ .reference ∧
    (inBasic e p.basic = false ∨ restCloses e ≤ p.off) ∧
    ((s.m.ring i).rest d).sending = some (k, e1) ∧
    max s.m.now t < e1 ∧
    ((s.m.ring i).port d).lastTx = some f ∧
    ((s.m.ring i).rest d).recent = [] :=
  ⟨ringS (cutI []), .r1, .east, 0, 1107360, 1200000, rcfg, eTx, pt 107360, rframe 1 0x101 256 5 [1, 2], by decide +kernel⟩

theorem meets_ToolRestWindows_5 : ∃ (s : State) (i : RingId) (d : Dir) (k : Nat) (t : Nat) (e1 : Nat) (a : Nat) (b : Nat) (c : RingCfg) (e : RingEntry) (p : RingPoint) (f : RingFrame),
    s.m.entryOf i k = some (c, e) ∧
    ((s.m.ring i).rest d).openSlot = some k ∧
    p = ((s.m.ring i).rest d).tb.at0 (max s.m.now t) ∧
    e.kind ≠ .reference ∧
    (inBasic e p.basic = false ∨ restCloses e ≤ p.off) ∧
    ((s.m.ring i).rest d).sending = some (k, e1) ∧
    max s.m.now t < e1 ∧
    ((s.m.ring i).port d).lastTx = some f ∧
    ((s.m.ring i).rest d).recent = [a, b] ∧
    max s.m.now t < a + 64000000 ∧
    max s.m.now t < b + 64000000 :=
  ⟨ringS (cutI [1000, 2000]), .r1, .east, 0, 1107360, 1200000, 1000, 2000, rcfg, eTx, pt 107360, rframe 1 0x101 256 5 [1, 2], by decide +kernel⟩

theorem meets_ToolRestWindows_6 : ∃ (s : State) (i : RingId) (d : Dir) (t : Nat),
    ((s.m.ring i).rest d).state = .faulted ∧
    ((s.m.ring i).rest d).faultAt + 64000000 ≤ max s.m.now t :=
  ⟨ringS { restE := { state := .faulted } }, .r1, .east, 64000000, by decide +kernel⟩

theorem meets_RingSending_1 : ∃ (s : State) (i : RingId) (k : Nat) (t : Nat) (c : RingCfg) (e : RingEntry) (p : RingPoint) (h : HeldMsg) (x : EntryRec),
    s.m.entryOf i k = some (c, e) ∧
    e.kind = .exclusive ∧
    e.tx = true ∧
    e.owner = c.node ∧
    e.copy = ringCopy s.m c ∧
    (s.m.ring i).ifc = .active ∧
    p = (s.m.ring i).at0 (max s.m.now t) ∧
    inBasic e p.basic = true ∧
    instantNs e ≤ p.off ∧
    p.off ≤ instantNs e + 2000 ∧
    (s.m.ring i).entries[k]? = some x ∧
    x.windowAt = none ∧
    (s.m.tick t).mayInsert i = true ∧
    s.m.handsOver = true ∧
    s.m.cal.vote.held = [h] ∧
    h.msg = e.msg ∧
    h.cycle = s.m.cycleOf p.basic ∧
    ((s.m.ring i).rest (s.m.ring i).outDir).openSlot = some k ∧
    ((s.m.ring i).port (s.m.ring i).outDir).service = true ∧
    (((s.m.ring i).rest (s.m.ring i).outDir).tb.at0 (max s.m.now t)).off ≤ restCloses e ∧
    e.len = 8 * h.words.length ∧
    e.len < 65536 :=
  ⟨actH { act with restE := { act.restE with openSlot := some 0 } }, .r1, 0, 1100000, rcfg, eTx, pt 100000, heldH, {}, by decide +kernel⟩

theorem meets_RingSending_2 : ∃ (s : State) (i : RingId) (k : Nat) (t : Nat) (c : RingCfg) (e : RingEntry) (p : RingPoint) (x : EntryRec),
    s.m.entryOf i k = some (c, e) ∧
    e.kind = .exclusive ∧
    e.tx = true ∧
    e.owner = c.node ∧
    e.copy = ringCopy s.m c ∧
    (s.m.ring i).ifc = .active ∧
    p = (s.m.ring i).at0 (max s.m.now t) ∧
    inBasic e p.basic = true ∧
    instantNs e ≤ p.off ∧
    p.off ≤ instantNs e + 2000 ∧
    (s.m.ring i).entries[k]? = some x ∧
    x.windowAt = none ∧
    (s.m.tick t).mayInsert i = true ∧
    (∀ h ∈ s.m.cal.vote.held, h.msg ≠ e.msg ∨ h.cycle ≠ s.m.cycleOf p.basic) :=
  ⟨ringS act, .r1, 0, 1100000, rcfg, eTx, pt 100000, {}, by decide +kernel⟩

theorem meets_RingSending_3 : ∃ (s : State) (i : RingId) (k : Nat) (t : Nat) (c : RingCfg) (e : RingEntry) (p : RingPoint) (h : HeldMsg) (x : EntryRec),
    s.m.entryOf i k = some (c, e) ∧
    e.kind = .exclusive ∧
    e.tx = true ∧
    e.owner = c.node ∧
    e.copy = ringCopy s.m c ∧
    (s.m.ring i).ifc = .active ∧
    p = (s.m.ring i).at0 (max s.m.now t) ∧
    inBasic e p.basic = true ∧
    instantNs e ≤ p.off ∧
    p.off ≤ instantNs e + 2000 ∧
    (s.m.ring i).entries[k]? = some x ∧
    x.windowAt = none ∧
    (s.m.tick t).mayInsert i = true ∧
    s.m.handsOver = true ∧
    s.m.cal.vote.held = [h] ∧
    h.msg = e.msg ∧
    h.cycle = s.m.cycleOf p.basic ∧
    ((s.m.ring i).rest (s.m.ring i).outDir).openSlot = none ∧
    ((s.m.ring i).rest (s.m.ring i).outDir).recent = [] :=
  ⟨actH act, .r1, 0, 1100000, rcfg, eTx, pt 100000, heldH, {}, by decide +kernel⟩

theorem meets_RingSending_4 : ∃ (s : State) (i : RingId) (k : Nat) (t : Nat) (c : RingCfg) (e : RingEntry) (p : RingPoint) (q : ArbItem) (sp : Sporadic) (x : EntryRec),
    s.m.entryOf i k = some (c, e) ∧
    e.kind = .arbitrating ∧
    e.members.contains c.node = true ∧
    (s.m.ring i).ifc = .active ∧
    p = (s.m.ring i).at0 (max s.m.now t) ∧
    openAt e p = true ∧
    (s.m.tick t).mayInsert i = true ∧
    s.m.handsOver = true ∧
    (s.m.ring i).queue = [q] ∧
    (s.m.ring i).arbIn ≠ some (k, p.basic) ∧
    c.sporadic.find? (fun y => y.msg == q.msg) = some sp ∧
    (s.m.cycleOf p.basic - q.cycle).toNat ≤ sp.ageMax.getD 2 ∧
    ((s.m.ring i).rest (s.m.ring i).outDir).openSlot = some k ∧
    ((s.m.ring i).port (s.m.ring i).outDir).service = true ∧
    (((s.m.ring i).rest (s.m.ring i).outDir).tb.at0 (max s.m.now t)).off ≤ restCloses e ∧
    8 * q.words.length ≤ 1496 ∧
    p.off + (26 + 8 * q.words.length) * 80 + 4000 ≤ closesNs e ∧
    (26 + 8 * q.words.length) ≤ e.arbBytes ∧
    (s.m.ring i).entries[k]? = some x :=
  ⟨ringA { act with restE := { act.restE with openSlot := some 2 }, queue := [arbQ] }, .r1, 2, 1100000, rcfgA, eArb, pt 100000, arbQ, { msg := 5, prio := 1, refreshGiven := some 4, ageMax := none }, {}, by decide +kernel⟩

theorem meets_RingSending_5 : ∃ (s : State) (i : RingId) (k : Nat) (t : Nat) (c : RingCfg) (e : RingEntry) (p : RingPoint) (q : ArbItem) (sp : Sporadic),
    s.m.entryOf i k = some (c, e) ∧
    e.kind = .arbitrating ∧
    e.members.contains c.node = true ∧
    (s.m.ring i).ifc = .active ∧
    p = (s.m.ring i).at0 (max s.m.now t) ∧
    openAt e p = true ∧
    (s.m.ring i).queue = [q] ∧
    c.sporadic.find? (fun y => y.msg == q.msg) = some sp ∧
    sp.ageMax.getD 2 < (s.m.cycleOf p.basic - q.cycle).toNat :=
  ⟨ringA { act with queue := [{ arbQ with cycle := 29 }] }, .r1, 2, 1100000, rcfgA, eArb, pt 100000, { arbQ with cycle := 29 }, { msg := 5, prio := 1, refreshGiven := some 4, ageMax := none }, by decide +kernel⟩

theorem meets_RingSending_6 : ∃ (s : State) (i : RingId) (k : Nat) (t : Nat) (c : RingCfg) (e : RingEntry) (p : RingPoint),
    s.m.entryOf i k = some (c, e) ∧
    e.kind = .join ∧
    (s.m.ring i).ifc = .joining ∧
    (s.m.ring i).joinOk = false ∧
    p = (s.m.ring i).at0 (max s.m.now t) ∧
    openAt e p = true ∧
    instantNs e ≤ p.off ∧
    (s.m.tick t).mayInsert i = true ∧
    ((s.m.ring i).rest (s.m.ring i).outDir).openSlot = some k ∧
    ((s.m.ring i).port (s.m.ring i).outDir).service = true ∧
    (((s.m.ring i).rest (s.m.ring i).outDir).tb.at0 (max s.m.now t)).off ≤ restCloses e ∧
    ((s.m.ring i).entries.getD k {}).windowAt ≠ some p.basic :=
  ⟨ringS { act with ifc := .joining, restE := { act.restE with openSlot := some 3 } }, .r1, 3, 1100000, rcfg, rentry .join true false, pt 100000, by decide +kernel⟩

theorem meets_RingSending_7 : ∃ (s : State) (i : RingId) (k : Nat) (t : Nat) (c : RingCfg) (e : RingEntry),
    s.m.entryOf i k = some (c, e) ∧
    ((s.m.ring i).entries.getD k {}).windowAt = some ((s.m.ring i).at0 (max s.m.now t)).basic :=
  ⟨⟨[], { ringM act with ring1 := { act with ifc := .joining, entries := List.replicate 5 { windowAt := some 256 } } }⟩, .r1, 3, 1100000, rcfg, rentry .join true false, by decide +kernel⟩

theorem meets_RingSending_8 : ∃ (s : State) (i : RingId) (t : Nat) (c : RingCfg) (p : RingPoint),
    s.m.ringUsed i = some c ∧
    ((s.m.ring i).ifc = .joining ∨ (s.m.ring i).ifc = .coldstart) ∧
    (s.m.ring i).joinOk = true ∧
    p = (s.m.ring i).at0 (max s.m.now t) ∧
    p.basic % 32 = 0 ∧
    newer (BitVec.ofNat 32 p.basic) (BitVec.ofNat 32 (s.m.ring i).joinB) = true :=
  ⟨ringS { act with ifc := .coldstart, joinOk := true }, .r1, 1000000, rcfg, pt 0, by decide +kernel⟩

end WRsend

/-! ### Witnesses: RingTime, ColdStart -/

namespace WRtime

def rentry (kind : SlotKind) (tx rx : Bool) : RingEntry :=
  { kind := kind, bc := 0, parity := .every, instant := 10000, owner := 0x101, copy := 0, msg := 5, len := 16, tx := tx, rx := rx
    conn := 0, prio := 1, members := [0x101, 0x102], arbBytesGiven := some 1000, rxTmo := none, senderC := 8 }
def rcfg : RingCfg :=
  { noRing with
    used := true, node := 0x101, schedId := 9, nmod := 4
    entries := [rentry .exclusive true false, { rentry .exclusive false true with owner := 0x102 }, rentry .arbitrating true false,
      rentry .join true false, rentry .reference true false]
    sporadic := [{ msg := 5, prio := 1, refreshGiven := some 4, ageMax := none }]
    coldstarts := [{ node := 0x101, copy := 0, rank := 2 }, { node := 0x102, copy := 0, rank := 1 }] }
def ringM (r : RingIfc) : Mach :=
  { serv with sd := some { sd with ring1 := rcfg }, ring1 := { r with entries := List.replicate 5 {} }, cal := { serv.cal with txOn := true } }
def ringS (r : RingIfc) : State := st (ringM r)
def up : RingPort := { up := true, service := true, driving := true }
def rframe (typ : BitVec 4) (src : BitVec 12) (seq msg : Nat) (payload : List W64) : RingFrame :=
  { mkFrame (ringM {}) { rcfg with node := src } typ 0 1 seq msg payload with hop := 0 }
def tb8 : TimeBase := { live := true, count := 256, start := 1000000 }
def act : RingIfc := { ifc := .active, east := up, west := up, tb := tb8, restE := { state := .sync, joined := true, tb := tb8 }, restW := { state := .unsync } }
def pt (b o : Nat) : RingPoint := { basic := b, off := o }
def refF (basic : Nat) : RingFrame :=
  mkFrame { ringM {} with ident := { copy := 0 } } { rcfg with node := 0x102 } 8 0 0 basic 0
    [BitVec.ofNat 64 (basic / 32 * 2 ^ 32 + basic % 32 * 2 ^ 27 + 1 * 2 ^ 24 + 1 * 2 ^ 12), (9 : W32) ++ (0 : W32), 0]

theorem meets_RingTime_1 : ∃ (s : State) (i : RingId) (t : Nat) (c : RingCfg) (p : RingPoint),
    s.m.ringUsed i = some c ∧
    c.lead = true ∧
    (s.m.ring i).ifc = .active ∧
    (s.m.ring i).role = 1 ∧
    p = (s.m.ring i).at0 (max s.m.now t) ∧
    p.basic ≠ (s.m.ring i).count ∧
    4000 ≤ p.off ∧
    p.off ≤ 10000 ∧
    ((s.m.ring i).rest (s.m.ring i).outDir).state = .sync ∧
    (((s.m.ring i).rest (s.m.ring i).outDir).tb.at0 (max s.m.now t)).off ≤ 6000 ∧
    ((s.m.ring i).port (s.m.ring i).outDir).service = true ∧
    (s.m.tick t).mayInsert i = true ∧
    p.basic < 2 ^ 32 :=
  ⟨ringS { act with role := 1 }, .r1, 2004000, rcfg, pt 257 4000, by decide +kernel⟩

theorem meets_RingTime_2 : ∃ (s : State) (i : RingId) (d : Dir) (f : RingFrame) (t : Nat) (c : RingCfg),
    s.m.ringUsed i = some c ∧
    refValid s.m c f = true ∧
    linkedDly (s.m.tick t) i d f ≠ 0xFFFF ∧
    (s.m.ring i).ifc = .listen ∧
    4000 ≤ sendInstant (s.m.tick t) i d f :=
  ⟨ringS { act with ifc := .listen }, .r1, .west, refF 257, 2004000, rcfg, by decide +kernel⟩

theorem meets_RingTime_3 : ∃ (s : State) (i : RingId) (d : Dir) (f : RingFrame) (t : Nat) (c : RingCfg) (b : Nat) (e : Int) (lim : Int),
    s.m.ringUsed i = some c ∧
    refValid s.m c f = true ∧
    linkedDly (s.m.tick t) i d f ≠ 0xFFFF ∧
    (s.m.ring i).ifc = .active ∧
    (s.m.ring i).role ≠ 1 ∧
    b = sendInstant (s.m.tick t) i d f - 4000 ∧
    refBasic f = ((s.m.ring i).count + 1) % basicMod ∧
    (s.m.ring i).masterNode = f.src ∧
    (s.m.ring i).masterCopy = f.copy ∧
    e = ((s.m.ring i).nextStart : Int) - (b : Int) ∧
    -1000 ≤ e ∧
    e ≤ 1000 ∧
    lim = rateLim s.m :=
  ⟨ringS { act with masterNode := 0x102 }, .r1, .west, refF 257, 2004500, rcfg, 2000500, -500, 2000, by decide +kernel⟩

theorem meets_RingTime_4 : ∃ (s : State) (i : RingId) (d : Dir) (f : RingFrame) (t : Nat) (c : RingCfg),
    s.m.ringUsed i = some c ∧
    (refValid s.m c f = false ∨ linkedDly (s.m.tick t) i d f = 0xFFFF) :=
  ⟨ringS act, .r1, .west, { refF 257 with fcrc := 0 }, 5, rcfg, by decide +kernel⟩

theorem meets_RingTime_5 : ∃ (s : State) (i : RingId) (t : Nat) (c : RingCfg),
    s.m.ringUsed i = some c ∧
    (s.m.ring i).sync = true ∧
    (s.m.ring i).role ≠ 1 ∧
    (s.m.ring i).ifc ≠ .coldstart ∧
    (s.m.ring i).nextStart + 10000 + c.rtMax * 10 ≤ max s.m.now t ∧
    (s.m.ring i).tb.missRun < 2 :=
  ⟨ringS act, .r1, 2030000, rcfg, by decide +kernel⟩

theorem meets_RingTime_6 : ∃ (s : State) (i : RingId) (t : Nat) (c : RingCfg),
    s.m.ringUsed i = some c ∧
    (s.m.ring i).sync = true ∧
    (s.m.ring i).role ≠ 1 ∧
    (s.m.ring i).ifc ≠ .coldstart ∧
    (s.m.ring i).nextStart + 10000 + c.rtMax * 10 ≤ max s.m.now t ∧
    2 ≤ (s.m.ring i).tb.missRun :=
  ⟨ringS { act with tb := { tb8 with missRun := 2 } }, .r1, 2030000, rcfg, by decide +kernel⟩

theorem meets_RingTime_7 : ∃ (s : State) (i : RingId) (d : Dir) (t : Nat) (c : RingCfg),
    s.m.ringUsed i = some c ∧
    ((s.m.ring i).rest d).state = .sync ∧
    2 ≤ ((s.m.ring i).rest d).tb.missRun ∧
    ((s.m.ring i).rest d).tb.nextStart + 10000 + c.rtMax * 10 ≤ max s.m.now t :=
  ⟨ringS { act with restE := { state := .sync, tb := { tb8 with missRun := 2 } } }, .r1, .east, 2030000, rcfg, by decide +kernel⟩

theorem meets_RingTime_8 : ∃ (s : State) (i : RingId) (t : Nat) (c : RingCfg),
    s.m.ringUsed i = some c ∧
    (s.m.ring i).ifc = .active ∧
    (s.m.ring i).role ≠ 1 ∧
    (ownRank s.m c = 2 ∨ ownRank s.m c = 3) ∧
    ownRank s.m c ≤ (s.m.ring i).tb.missRun + 1 ∧
    (s.m.ring i).nextStart + 4000 ≤ max s.m.now t ∧
    max s.m.now t ≤ (s.m.ring i).nextStart + 10000 ∧
    ((s.m.ring i).rest (s.m.ring i).outDir).state = .sync ∧
    (((s.m.ring i).rest (s.m.ring i).outDir).tb.at0 (max s.m.now t)).off ≤ 6000 ∧
    ((s.m.ring i).port (s.m.ring i).outDir).service = true ∧
    (s.m.tick t).mayInsert i = true :=
  ⟨ringS { act with tb := { tb8 with missRun := 1 } }, .r1, 2004000, rcfg, by decide +kernel⟩

theorem meets_RingTime_9 : ∃ (s : State) (i : RingId) (c : RingCfg),
    s.m.ringUsed i = some c ∧
    (ownRank s.m c = 0 ∨ ownRank s.m c = 1 ∨
    (s.m.ring i).ifc ≠ .active) :=
  ⟨ringS { act with ifc := .listen }, .r1, rcfg, by decide +kernel⟩

theorem meets_ColdStart_1 : ∃ (s : State) (i : RingId) (t : Nat) (c : RingCfg),
    s.m.ringUsed i = some c ∧
    c.lead = true ∧
    (s.m.ring i).ifc = .listen ∧
    ownRank s.m c ≠ 0 ∧
    (s.m.ring i).mustJoin = false ∧
    (s.m.ring i).east.service = true ∧
    (s.m.ring i).west.service = true ∧
    (s.m.ring i).lastValid + 64000000 ≤ max s.m.now t ∧
    (s.m.ring i).lastStart + c.rtMax * 10 ≤ max s.m.now t ∧
    (s.m.ring i).turn = 0 ∧
    (s.m.tick t).mayInsert i = true ∧
    (((s.m.ring i).restE.state = .sync ∧ ((s.m.ring i).restE.tb.at0 (max s.m.now t)).off ≤ 6000) ∨
      ((s.m.ring i).restE.state = .unsync ∧ (s.m.ring i).restE.coldAt = none)) :=
  ⟨ringS { act with ifc := .listen, restE := { state := .unsync } }, .r1, 64000000, rcfg, by decide +kernel⟩

theorem meets_ColdStart_2 : ∃ (s : State) (i : RingId) (t : Nat) (c : RingCfg),
    s.m.ringUsed i = some c ∧
    (ownRank s.m c = 0 ∨ (s.m.ring i).mustJoin = true ∨ max s.m.now t < (s.m.ring i).lastValid + 64000000) :=
  ⟨ringS { act with ifc := .listen }, .r1, 63999999, rcfg, by decide +kernel⟩

theorem meets_ColdStart_3 : ∃ (s : State) (i : RingId) (t : Nat) (c : RingCfg),
    s.m.ringUsed i = some c ∧
    (s.m.ring i).ifc = .coldstart ∧
    ((s.m.ring i).startedAt < (s.m.ring i).lastRef ∨
      ∃ x ∈ (s.m.ring i).csOut, x + c.rtMax * 10 ≤ max s.m.now t) :=
  ⟨ringS { act with ifc := .coldstart, csOut := some 0 }, .r1, 20000, rcfg, by decide +kernel⟩

theorem meets_ColdStart_4 : ∃ (s : State) (i : RingId) (t : Nat) (c : RingCfg),
    s.m.ringUsed i = some c ∧
    (s.m.ring i).ifc = .backoff ∧
    (s.m.ring i).startedAt + c.node.toNat % 256 * 3900 + (if ringCopy s.m c = 1 then 1950 else 0) ≤ max s.m.now t :=
  ⟨ringS { act with ifc := .backoff }, .r1, 3900, rcfg, by decide +kernel⟩

theorem meets_ColdStart_5 : ∃ (s : State) (i : RingId) (t : Nat) (c : RingCfg),
    s.m.ringUsed i = some c ∧
    max s.m.now t < (s.m.ring i).startedAt + c.node.toNat % 256 * 3900 + (if ringCopy s.m c = 1 then 1950 else 0) :=
  ⟨ringS { act with ifc := .backoff }, .r1, 3899, rcfg, by decide +kernel⟩

end WRtime

/-! ### Witnesses: RingLinks -/

namespace WRlink

def rentry (kind : SlotKind) (tx rx : Bool) : RingEntry :=
  { kind := kind, bc := 0, parity := .every, instant := 10000, owner := 0x101, copy := 0, msg := 5, len := 16, tx := tx, rx := rx
    conn := 0, prio := 1, members := [0x101, 0x102], arbBytesGiven := some 1000, rxTmo := none, senderC := 8 }
def rcfg : RingCfg :=
  { noRing with
    used := true, node := 0x101, schedId := 9, nmod := 4
    entries := [rentry .exclusive true false, { rentry .exclusive false true with owner := 0x102 }, rentry .arbitrating true false,
      rentry .join true false, rentry .reference true false]
    sporadic := [{ msg := 5, prio := 1, refreshGiven := some 4, ageMax := none }]
    coldstarts := [{ node := 0x101, copy := 0, rank := 2 }, { node := 0x102, copy := 0, rank := 1 }] }
def ringM (r : RingIfc) : Mach :=
  { serv with sd := some { sd with ring1 := rcfg }, ring1 := { r with entries := List.replicate 5 {} }, cal := { serv.cal with txOn := true } }
def ringS (r : RingIfc) : State := st (ringM r)
def up : RingPort := { up := true, service := true, driving := true }
def rframe (typ : BitVec 4) (src : BitVec 12) (seq msg : Nat) (payload : List W64) : RingFrame :=
  { mkFrame (ringM {}) { rcfg with node := src } typ 0 1 seq msg payload with hop := 0 }
def tb8 : TimeBase := { live := true, count := 256, start := 1000000 }
def act : RingIfc := { ifc := .active, east := up, west := up, tb := tb8, restE := { state := .sync }, restW := { state := .sync } }
def open0 : RingIfc := { restE := { state := .unsync }, restW := { state := .unsync } }
def drv : RingPort := { up := true, driving := true, checkFrom := some 0 }
def meas : RingIfc := { open0 with east := { drv with measures := (List.range 15).map (fun k => (k + 1, 1000)) } }
def chk (k : LinkCheck) (w0 : W32) : RingFrame := checkFrame (ringM {}) .r1 k w0 0

theorem meets_RingLinks_1 : ∃ (s : State) (i : RingId) (d : Dir),
    s.m.cal.txOn = true ∧
    ((s.m.ring i).port d).unusable = false ∧
    ((s.m.ring i).port d).up = false ∧
    (((s.m.ring i).port d).fx = true → s.m.power.carrierOn = true) :=
  ⟨ringS open0, .r1, .east, by decide +kernel⟩

theorem meets_RingLinks_2 : ∃ (s : State) (i : RingId) (d : Dir),
    (s.m.cal.txOn = false ∨ ((s.m.ring i).port d).unusable = true ∨
      (((s.m.ring i).port d).fx = true ∧ s.m.power.carrierOn = false)) :=
  ⟨⟨[], { ringM {} with cal := {} }⟩, .r1, .east, by decide +kernel⟩

theorem meets_RingLinks_3 : ∃ (s : State) (i : RingId) (f : RingFrame),
    (s.m.ring i).west.up = true ∧
    s.m.cal.txOn = true ∧
    f.typ = 11 ∧
    intactFrame f = true ∧
    linkKind f = some .request ∧
    (s.m.ring i).restW.state ≠ .closed ∧
    (s.m.ring i).west.driving = true :=
  ⟨ringS act, .r1, chk .request 77, by decide +kernel⟩

theorem meets_RingLinks_4 : ∃ (s : State) (i : RingId) (d : Dir) (f : RingFrame),
    (((s.m.ring i).port d).up = false ∨ s.m.cal.txOn = false ∨
      f.typ ≠ 11 ∨ intactFrame f = false ∨ linkKind f = none ∨
      (linkKind f = some .request ∧ ((s.m.ring i).rest d).state = .closed)) :=
  ⟨ringS act, .r1, .west, { chk .request 77 with fcrc := 0 }, by decide +kernel⟩

theorem meets_RingLinks_5 : ∃ (s : State) (i : RingId) (f : RingFrame) (u : Nat) (j : Nat),
    (s.m.ring i).east.up = true ∧
    s.m.cal.txOn = true ∧
    f.typ = 11 ∧
    intactFrame f = true ∧
    linkKind f = some .echo ∧
    (s.m.ring i).east.service = false ∧
    (s.m.ring i).east.checkFrom = some u ∧
    j < 16 ∧
    (f.payload.headD 0).setWidth 32 = requestTime u j ∧
    ((s.m.ring i).east.measures.filter (fun q => q.1 != j)).length < 15 :=
  ⟨ringS { open0 with east := drv }, .r1, chk .echo (requestTime 0 3), 0, 3, by decide +kernel⟩

theorem meets_RingLinks_6 : ∃ (s : State) (i : RingId) (f : RingFrame) (t : Nat) (u : Nat) (j : Nat) (n : Nat),
    (s.m.ring i).east.up = true ∧
    s.m.cal.txOn = true ∧
    f.typ = 11 ∧
    intactFrame f = true ∧
    linkKind f = some .echo ∧
    (s.m.ring i).east.service = false ∧
    (s.m.ring i).east.checkFrom = some u ∧
    j < 16 ∧
    (f.payload.headD 0).setWidth 32 = requestTime u j ∧
    ((s.m.ring i).east.measures.filter (fun q => q.1 != j)).length = 15 ∧
    (s.m.ring i).ifc = .down ∧
    (s.m.ringUsed i).isSome = true ∧
    (s.m.ring i).east.lost = false ∧
    (s.m.ring i).west.lost = false ∧
    (s.m.ring i).turn = 0 ∧
    (s.m.ring i).restE.state ≠ .closed ∧
    (s.m.ring i).east.driving = true ∧
    n ≤ 2000 ∧
    linkDelay (((linkTime (max s.m.now t) - requestTime u j).toNat * 10 - 2000) ::
      ((s.m.ring i).east.measures.filter (fun q => q.1 != j)).map Prod.snd) = some n :=
  ⟨ringS meas, .r1, chk .echo 0, 3000, 0, 0, 50, by decide +kernel⟩

theorem meets_RingLinks_7 : ∃ (s : State) (i : RingId) (f : RingFrame) (w0 : W32),
    (s.m.ring i).west.up = true ∧
    s.m.cal.txOn = true ∧
    f.typ = 11 ∧
    intactFrame f = true ∧
    linkKind f = some .result ∧
    w0 = (f.payload.headD 0).setWidth 32 ∧
    (s.m.ring i).west.lost = false ∧
    (s.m.ring i).east.lost = false ∧
    (s.m.ring i).turn = 0 ∧
    w0.toNat ≤ 2000 ∧
    (s.m.ring i).ifc = .down ∧
    (s.m.ringUsed i).isSome = true :=
  ⟨ringS { open0 with west := { up := true } }, .r1, chk .result 2000, 2000, by decide +kernel⟩

theorem meets_RingLinks_8 : ∃ (s : State) (i : RingId) (f : RingFrame) (w0 : W32),
    (s.m.ring i).west.up = true ∧
    s.m.cal.txOn = true ∧
    f.typ = 11 ∧
    intactFrame f = true ∧
    linkKind f = some .result ∧
    w0 = (f.payload.headD 0).setWidth 32 ∧
    2000 < w0.toNat :=
  ⟨ringS act, .r1, chk .result 2001, 2001, by decide +kernel⟩

theorem meets_RingLinks_9 : ∃ (s : State) (i : RingId) (f : RingFrame) (w0 : W32),
    (s.m.ring i).east.up = true ∧
    s.m.cal.txOn = true ∧
    f.typ = 11 ∧
    intactFrame f = true ∧
    linkKind f = some .report ∧
    w0 = (f.payload.headD 0).setWidth 32 :=
  ⟨ringS act, .r1, chk .report 3, 3, by decide +kernel⟩

theorem meets_RingLinks_10 : ∃ (s : State) (i : RingId) (d : Dir) (f : RingFrame) (w0 : W32),
    ((s.m.ring i).port d).up = true ∧
    s.m.cal.txOn = true ∧
    f.typ = 11 ∧
    intactFrame f = true ∧
    linkKind f = some .close ∧
    w0 = (f.payload.headD 0).setWidth 32 ∧
    ((s.m.ring i).port d).lost = true ∧
    ((s.m.ring i).port d).loop = true ∧
    (s.m.ring i).sync = true :=
  ⟨ringS { act with east := { up with loop := true, lost := true }, closeAt := some 7 }, .r1, .east, chk .close 9, 9, by decide +kernel⟩

theorem meets_RingLinks_11 : ∃ (s : State) (i : RingId) (d : Dir) (f : RingFrame),
    ((s.m.ring i).port d).up = true ∧
    s.m.cal.txOn = true ∧
    f.typ = 11 ∧
    intactFrame f = true ∧
    linkKind f = some .close ∧
    ((s.m.ring i).port d).lost = true ∧
    (((s.m.ring i).port d).loop = false ∨ (s.m.ring i).sync = false) ∧
    ((s.m.ring i).port (otherDir d)).lost = false :=
  ⟨ringS { act with east := { up with lost := true } }, .r1, .east, chk .close 9, by decide +kernel⟩

theorem meets_RingLinks_12 : ∃ (s : State) (i : RingId) (t : Nat) (n : Nat) (p : RingPoint),
    (s.m.ring i).sync = true ∧
    (s.m.ring i).west.service = true ∧
    turnedWest (s.m.ring i) (max s.m.now t) = false ∧
    p = (s.m.ring i).at0 (max s.m.now t) ∧
    500000 ≤ p.off ∧
    (s.m.ring i).reported ≠ some p.basic ∧
    (s.m.ring i).restW.state ≠ .closed ∧
    (s.m.ring i).west.driving = true ∧
    n = ((s.m.ring i).west.errors.filter (fun x => decide (x < max s.m.now t - p.off) &&
      decide (max s.m.now t - p.off ≤ x + basicLen (s.m.ring i).tb.rate))).length :=
  ⟨ringS { act with west := { up with errors := [700000, 1200000] } }, .r1, 1500000, 1, { basic := 256, off := 500000 }, by decide +kernel⟩

theorem meets_RingLinks_13 : ∃ (s : State) (i : RingId) (t : Nat),
    ((s.m.ring i).sync = false ∨
      (s.m.ring i).reported = some ((s.m.ring i).at0 (max s.m.now t)).basic ∨
      turnedWest (s.m.ring i) (max s.m.now t) = true) :=
  ⟨ringS { act with reported := some 256 }, .r1, 1500000, by decide +kernel⟩

theorem meets_RingLinks_14 : ∃ (s : State) (i : RingId) (d : Dir),
    ((s.m.ring i).port d).up = true ∧
    ((s.m.ring i).port (otherDir d)).service = true ∧
    ((s.m.ring i).port (otherDir d)).lost = false ∧
    (s.m.ring i).turn = 0 :=
  ⟨ringS act, .r1, .west, by decide +kernel⟩

theorem meets_RingLinks_15 : ∃ (s : State) (i : RingId) (d : Dir),
    ((s.m.ring i).port d).up = true ∧
    ((s.m.ring i).port (otherDir d)).service = false :=
  ⟨ringS { east := { up := true } }, .r1, .east, by decide +kernel⟩

theorem meets_RingLinks_16 : ∃ (s : State) (i : RingId) (t : Nat) (k : W32),
    (s.m.ring i).closeAt = some k ∧
    (s.m.ring i).sync = true ∧
    (s.m.ring i).east.service = true ∧
    (s.m.ring i).west.service = true ∧
    ((s.m.ring i).at0 (max s.m.now t)).basic = (k.toNat * 32 + basicMod - 1) % basicMod ∧
    995000 ≤ ((s.m.ring i).at0 (max s.m.now t)).off :=
  ⟨ringS { act with closeAt := some 9, tb := { tb8 with count := 287 }, turn := 1 }, .r1, 1995000, 9, by decide +kernel⟩

theorem meets_RingLinks_17 : ∃ (s : State) (i : RingId) (t : Nat) (k : W32),
    (s.m.ring i).closeAt = some k ∧
    (((s.m.ring i).at0 (max s.m.now t)).basic < basicMod ∧
      (((s.m.ring i).at0 (max s.m.now t)).basic + basicMod - (k.toNat * 32 + basicMod - 1) % basicMod) % basicMod = 0 ∧
      ((s.m.ring i).at0 (max s.m.now t)).off < 995000 ∨
      basicMod / 2 ≤ (((s.m.ring i).at0 (max s.m.now t)).basic + basicMod - (k.toNat * 32 + basicMod - 1) % basicMod) % basicMod) :=
  ⟨ringS { act with closeAt := some 9 }, .r1, 1995000, 9, by decide +kernel⟩

end WRlink

/-! ### Witnesses: RedAndBlue -/

namespace WJxt

def jc : JxtCfg :=
  { number := 3, peer := 0x201, txMsg := 0, rxMsg := 0, txWords := 4, rxWords := 4, redIp := [11, 12], blueIp := [21, 22], redHw := [some 5]
    blueHw := [], txCcid := 1, rxCcid := 2, winUs := none, ageMs := none, tmo := none, peerCGiven := some 8, cmac := false, keyTx := 0, wraps := [] }
def jsd : StationData := { sd with jxt := [jc], settings := { sd.settings with red := [{ ip := 1 }], blue := [{ ip := 2 }] } }
def dg (n : BitVec 4) (ip dst : W32) (copy : BitVec 1) (b : List W64) : JxtDatagram :=
  let h : IpHead :=
    { src := ip, dst := dst, proto := 17, fragmented := false, options := false, dscp := 46, ttl := 64, dontFrag := true
      srcPort := jxtPort, dstPort := jxtPort, udpLen := 52, sum := 0 }
  let d : JxtDatagram := { ip := h, magic := 0x4A58, version := 1, net := n, copy := copy, conn := 3, words := 4, body := b, crc := 0 }
  { d with crc := crc32 (dgramBytes d) }
def b4 : List W64 := [0x700000000, 1, 2, 3]
def benchMnt : State := st { servB with bench := { servB.bench with mnt := { servB.bench.mnt with ip := 9 } } }
def jx (x : JxtConn) : State := st { serv with sd := some jsd, jxt := { conns := [x], asked := [(.red, 77)] }, cal := { serv.cal with txOn := true } }
def cp (n : Net) (c : BitVec 1) (w : List W64) : JxtCopy := { net := n, copy := c, words := w, at0 := 0 }

theorem meets_RedAndBlue_1 : ∃ (s : State) (n : Net) (d : JxtDatagram),
    (d.ip.fragmented = true ∨ d.ip.options = true ∨ d.ip.dst ≠ (s.m.face n).ip ∨ d.ip.proto ≠ 17 ∨ d.ip.srcPort ≠ 27341 ∨
      d.ip.dstPort ≠ 27341 ∨ (d.ip.sum ≠ 0 ∧ d.ip.sum ≠ udpSum d) ∨ d.magic ≠ 0x4A58 ∨ d.version ≠ 1 ∨ d.crc ≠ crc32 (dgramBytes d) ∨
      d.net.toNat ≠ (match n with | .red => 1 | .blue => 2) ∨ (∀ c ∈ s.m.jxtCfgs, c.number ≠ d.conn)) :=
  ⟨jx {}, .red, { dg 1 11 1 0 b4 with crc := 0 }, by decide +kernel⟩

theorem meets_RedAndBlue_2 : ∃ (s : State) (n : Net) (d : JxtDatagram) (k : Nat) (c : JxtCfg) (x : JxtConn),
    s.m.jxtPasses n d = some (k, c) ∧
    s.m.jxt.conns[k]? = some x ∧
    x.settled.contains (jxtSeq d.body) = false ∧
    x.groups = [] :=
  ⟨jx {}, .red, dg 1 11 1 0 b4, 0, jc, {}, by decide +kernel⟩

theorem meets_RedAndBlue_3 : ∃ (s : State) (n : Net) (d : JxtDatagram) (k : Nat) (c : JxtCfg) (x : JxtConn) (g : JxtGroup),
    s.m.jxtPasses n d = some (k, c) ∧
    s.m.jxt.conns[k]? = some x ∧
    x.settled.contains (jxtSeq d.body) = false ∧
    x.groups = [g] ∧
    g.seq = jxtSeq d.body ∧
    (∀ y ∈ g.copies, y.net ≠ n ∨ y.copy ≠ d.copy) :=
  ⟨jx { groups := [{ seq := 7, openAt := 0, copies := [cp .red 0 b4] }] }, .blue, dg 2 21 2 0 b4, 0, jc, { groups := [{ seq := 7, openAt := 0, copies := [cp .red 0 b4] }] }, { seq := 7, openAt := 0, copies := [cp .red 0 b4] }, by decide +kernel⟩

theorem meets_RedAndBlue_4 : ∃ (s : State) (n : Net) (d : JxtDatagram) (k : Nat) (c : JxtCfg) (x : JxtConn),
    s.m.jxtPasses n d = some (k, c) ∧
    s.m.jxt.conns[k]? = some x ∧
    x.settled.contains (jxtSeq d.body) = true :=
  ⟨jx { settled := [7] }, .red, dg 1 11 1 0 b4, 0, jc, { settled := [7] }, by decide +kernel⟩

theorem meets_RedAndBlue_5 : ∃ (s : State) (k : Nat) (t : Nat) (c : JxtCfg) (x : JxtConn) (g : JxtGroup) (gs : List JxtGroup) (a : JxtCopy) (r : List JxtCopy),
    s.m.jxtCfgs[k]? = some c ∧
    s.m.jxt.conns[k]? = some x ∧
    x.groups = g :: gs ∧
    (∀ h ∈ gs, h.seq ≠ g.seq) ∧
    g.openAt + c.winUs.getD 2000 * 1000 ≤ max s.m.now t ∧
    g.copies = a :: r ∧
    (∀ b ∈ r, b.words = a.words) :=
  ⟨jx { groups := [{ seq := 7, openAt := 0, copies := [cp .red 0 b4, cp .blue 0 b4] }] }, 0, 2000000, jc, { groups := [{ seq := 7, openAt := 0, copies := [cp .red 0 b4, cp .blue 0 b4] }] }, { seq := 7, openAt := 0, copies := [cp .red 0 b4, cp .blue 0 b4] }, [], cp .red 0 b4, [cp .blue 0 b4], by decide +kernel⟩

theorem meets_RedAndBlue_6 : ∃ (s : State) (k : Nat) (t : Nat) (c : JxtCfg) (x : JxtConn) (g : JxtGroup) (a : JxtCopy) (b : JxtCopy),
    s.m.jxtCfgs[k]? = some c ∧
    s.m.jxt.conns[k]? = some x ∧
    x.groups = [g] ∧
    g.openAt + c.winUs.getD 2000 * 1000 ≤ max s.m.now t ∧
    g.copies = [a, b] ∧
    b.words ≠ a.words :=
  ⟨jx { groups := [{ seq := 7, openAt := 0, copies := [cp .red 0 b4, cp .blue 1 []] }] }, 0, 2000000, jc, { groups := [{ seq := 7, openAt := 0, copies := [cp .red 0 b4, cp .blue 1 []] }] }, { seq := 7, openAt := 0, copies := [cp .red 0 b4, cp .blue 1 []] }, cp .red 0 b4, cp .blue 1 [], by decide +kernel⟩

theorem meets_RedAndBlue_7 : ∃ (s : State) (n : Net) (req : NetRequest) (ip : W32) (sd : StationData),
    s.m.sd = some sd ∧
    s.m.cal.txOn = true ∧
    ip = (s.m.face n).ip ∧
    (req = .arpRequest ip ∨ (req = .icmpEcho ip false false ∧ sd.settings.jxIcmp = some true)) :=
  ⟨jx {}, .red, .arpRequest 1, 1, jsd, by decide +kernel⟩

theorem meets_RedAndBlue_8 : ∃ (s : State) (n : Net) (req : NetRequest) (ip : W32) (a : W32) (fr : Bool) (op : Bool) (sd : StationData),
    s.m.sd = some sd ∧
    ip = (s.m.face n).ip ∧
    req = .icmpEcho a fr op ∧
    (a ≠ ip ∨ fr = true ∨ op = true ∨ sd.settings.jxIcmp.getD false = false) :=
  ⟨jx {}, .red, .icmpEcho 1 false false, 1, 1, false, false, jsd, by decide +kernel⟩

theorem meets_RedAndBlue_9 : ∃ (s : State) (n : Net) (a : W32) (sd : StationData),
    s.m.sd = some sd ∧
    a ≠ (s.m.face n).ip :=
  ⟨jx {}, .red, 7, jsd, by decide +kernel⟩

theorem meets_RedAndBlue_10 : ∃ (s : State) (n : Net) (ip : W32),
    s.m.sd.isSome = true ∧
    s.m.jxt.asked.contains (n, ip) = true ∧
    s.m.staticHw n ip = none :=
  ⟨jx {}, .red, 77, by decide +kernel⟩

theorem meets_RedAndBlue_11 : ∃ (s : State) (n : Net) (ip : W32),
    (s.m.jxt.asked.contains (n, ip) = false ∨ (s.m.staticHw n ip).isSome = true) :=
  ⟨jx {}, .red, 78, by decide +kernel⟩

theorem meets_RedAndBlue_12 : ∃ (s : State) (req : NetRequest) (t : Nat),
    (s.m.tick t).benchServes = true ∧
    s.m.bench.mnt.ip ≠ 0 ∧
    (req = .arpRequest s.m.bench.mnt.ip ∨ ∃ op, req = .icmpEcho s.m.bench.mnt.ip false op) :=
  ⟨benchMnt, .icmpEcho 9 false true, 5, by exact ⟨by decide +kernel, by decide +kernel, .inr ⟨true, rfl⟩⟩⟩

theorem meets_RedAndBlue_13 : ∃ (s : State) (n : Net),
    (match n with | .red => s.m.jxt.redUnus | .blue => s.m.jxt.blueUnus) = false :=
  ⟨jx {}, .red, by decide +kernel⟩

end WJxt

/-! ### Witnesses: CanTransmission, CanReceipt, CanErrors -/

namespace WCan

def tb (k : TxKind) : BufCfg :=
  { dir := .transmit, kind := k, id := 5, ide := false, fdf := true, brs := true, dlc := 8, mask := 0x7FF, id2 := 0, pair := false
    ctx := 0, msg := 0, late := none, pairWin := none, tmo := none, ttOfs := 20, ttLen := 200, ttMask := 1 }
def rb (id : BitVec 29) (pair : Bool) : BufCfg := { tb .event with dir := .receive, id := id, pair := pair, id2 := id + 1 }
def cc (k : TxKind) (tt : Bool) : CanCfg :=
  { noCan with nbr := 3, dbr := 3, tt := tt, bufs := [tb k, rb 9 false, rb 20 true], arbs := [{ ofs := 20, len := 1000, mask := 1 }] }
def ver (pend : Option Nat) : Version := { words := [0x0001000000000000, 1], cycle := 0, t0 := 0, released := 0, pending := pend, cancel := false, replaced := false }
def canM (c : CanCfg) (x : CanPort) : State :=
  st { serv with sd := some { sd with can1 := c }, can1 := { x with bufs := x.bufs ++ List.replicate (64 - x.bufs.length) {} }, ring1 := { tb := { live := true, count := 3, start := 0 } }
                 cal := { serv.cal with txOn := true } }
def one (y : CanBuf) : CanPort := { mode := 1, bufs := [y] }
def two (y : CanBuf) : CanPort := { one y with cycAt := some 0 }
def cf (id : BitVec 29) : CanFrame := { id := id, ide := false, fdf := true, brs := true, esi := false, rtr := false, dlc := 8, data := [1] }

theorem meets_CanTransmission_1 : ∃ (s : State) (p : CanId) (b : Nat) (t : Nat) (c : CanCfg) (y : CanBuf) (v : Version),
    s.m.canCfg p = some c ∧
    (s.m.can p).bufs[b]? = some y ∧
    y.version = some v ∧
    v.pending = none ∧
    v.t0 + ((v.words.headD 0) >>> 48).toNat * 1000 ≤ max s.m.now t :=
  ⟨canM (cc .atTime false) (one { version := some (ver none) }), .p1, 0, 1000, cc .atTime false, { version := some (ver none) }, ver none, by decide +kernel⟩

theorem meets_CanTransmission_2 : ∃ (s : State) (p : CanId) (b : Nat) (t : Nat) (r : Nat) (c : CanCfg) (k : BufCfg) (y : CanBuf) (v : Version),
    s.m.canCfg p = some c ∧
    c.bufs[b]? = some k ∧
    k.kind = .event ∧
    (s.m.can p).bufs[b]? = some y ∧
    y.version = some v ∧
    v.pending = some r ∧
    r + (k.late.getD (s.m.cycleMs * 1000)) * 1000 ≤ max s.m.now t ∧
    v.replaced = false ∧
    v.cancel = false ∧
    (y.next.bind (versionDue s.m k)).all (fun d => decide (max s.m.now t < d)) = true :=
  ⟨canM (cc .event false) (one { version := some (ver (some 0)) }), .p1, 0, 8000000, 0, cc .event false, tb .event, { version := some (ver (some 0)) }, ver (some 0), by decide +kernel⟩

theorem meets_CanTransmission_3 : ∃ (s : State) (p : CanId) (b : Nat) (t : Nat) (r : Nat) (c : CanCfg) (k : BufCfg) (y : CanBuf) (v : Version),
    s.m.canCfg p = some c ∧
    c.bufs[b]? = some k ∧
    k.kind = .event ∧
    (s.m.can p).bufs[b]? = some y ∧
    y.version = some v ∧
    v.pending = some r ∧
    r + (k.late.getD (s.m.cycleMs * 1000)) * 1000 ≤ max s.m.now t ∧
    v.cancel = false ∧
    (y.next.bind (versionDue s.m k)).all (fun d => decide (max s.m.now t < d)) = true :=
  ⟨canM (cc .event false) (one { version := some (ver (some 0)) }), .p1, 0, 8000000, 0, cc .event false, tb .event, { version := some (ver (some 0)) }, ver (some 0), by decide +kernel⟩

theorem meets_CanTransmission_4 : ∃ (s : State) (p : CanId) (b : Nat) (t : Nat) (c : CanCfg) (k : BufCfg) (y : CanBuf) (v : Version),
    s.m.canCfg p = some c ∧
    c.bufs[b]? = some k ∧
    k.kind = .atTime ∧
    (s.m.can p).bufs[b]? = some y ∧
    y.version = some v ∧
    ((v.words.headD 0) >>> 48).toNat ≠ 0xFFFF ∧
    v.t0 + ((v.words.headD 0) >>> 48).toNat * 1000 + (k.late.getD 1000) * 1000 ≤ max s.m.now t ∧
    v.replaced = false ∧
    v.cancel = false ∧
    (y.next.bind (versionDue s.m k)).all (fun d => decide (max s.m.now t < d)) = true :=
  ⟨canM (cc .atTime false) (one { version := some (ver (some 0)) }), .p1, 0, 1001000, cc .atTime false, tb .atTime, { version := some (ver (some 0)) }, ver (some 0), by decide +kernel⟩

theorem meets_CanTransmission_5 : ∃ (s : State) (p : CanId) (b : Nat) (c : CanCfg) (k : BufCfg) (y : CanBuf) (v : Version),
    s.m.canCfg p = some c ∧
    c.bufs[b]? = some k ∧
    (s.m.can p).bufs[b]? = some y ∧
    y.version = some v ∧
    v.pending.isSome = true ∧
    c.listen = false ∧
    ((s.m.can p).mode = 1 ∨ (s.m.can p).mode = 2) ∧
    (s.m.can p).tec.toNat ≤ 256 :=
  ⟨canM (cc .event false) (one { version := some (ver (some 0)) }), .p1, 0, cc .event false, tb .event, { version := some (ver (some 0)) }, ver (some 0), by decide +kernel⟩

theorem meets_CanTransmission_6 : ∃ (s : State) (p : CanId) (b : Nat) (e : TxEnd) (c : CanCfg) (k : BufCfg) (y : CanBuf) (v : Version),
    s.m.canCfg p = some c ∧
    c.bufs[b]? = some k ∧
    (s.m.can p).bufs[b]? = some y ∧
    y.version = some v ∧
    v.pending.isSome = true ∧
    v.cancel = false ∧
    c.listen = false ∧
    ((s.m.can p).mode = 1 ∨ (s.m.can p).mode = 2) ∧
    e ≠ .completed ∧
    k.kind ≠ .exclusive ∧
    (s.m.can p).tec.toNat ≤ 247 :=
  ⟨canM (cc .event false) (one { version := some (ver (some 0)) }), .p1, 0, .error true .bit, cc .event false, tb .event, { version := some (ver (some 0)) }, ver (some 0), by decide +kernel⟩

theorem meets_CanTransmission_7 : ∃ (s : State) (p : CanId) (b : Nat) (won : Bool) (x : CanErr) (c : CanCfg) (k : BufCfg) (y : CanBuf) (v : Version),
    s.m.canCfg p = some c ∧
    c.bufs[b]? = some k ∧
    (s.m.can p).bufs[b]? = some y ∧
    y.version = some v ∧
    v.pending.isSome = true ∧
    c.listen = false ∧
    ((s.m.can p).mode = 1 ∨ (s.m.can p).mode = 2) ∧
    ¬(x = .ack ∧ (s.m.can p).mode = 2) ∧
    ¬(x = .stuff ∧ won = false) ∧
    248 ≤ (s.m.can p).tec.toNat :=
  ⟨canM (cc .event false) { one { version := some (ver (some 0)) } with tec := 248 }, .p1, 0, false, .form, cc .event false, tb .event, { version := some (ver (some 0)) }, ver (some 0), by decide +kernel⟩

theorem meets_CanTransmission_8 : ∃ (s : State) (p : CanId) (b : Nat) (e : TxEnd) (c : CanCfg) (k : BufCfg) (y : CanBuf) (v : Version),
    s.m.canCfg p = some c ∧
    c.bufs[b]? = some k ∧
    (s.m.can p).bufs[b]? = some y ∧
    y.version = some v ∧
    v.pending.isSome = true ∧
    v.cancel = false ∧
    c.listen = false ∧
    ((s.m.can p).mode = 1 ∨ (s.m.can p).mode = 2) ∧
    e ≠ .completed ∧
    k.kind = .exclusive ∧
    (s.m.can p).tec.toNat ≤ 247 :=
  ⟨canM (cc .exclusive true) (one { version := some (ver (some 0)) }), .p1, 0, .lostArbitration, cc .exclusive true, tb .exclusive, { version := some (ver (some 0)) }, ver (some 0), by decide +kernel⟩

theorem meets_CanTransmission_9 : ∃ (s : State) (p : CanId) (b : Nat) (t : Nat) (z : Nat) (o : Nat) (c : CanCfg) (k : BufCfg) (y : CanBuf) (v : Version),
    s.m.canCfg p = some c ∧
    c.bufs[b]? = some k ∧
    k.kind = .exclusive ∧
    c.tt = true ∧
    s.m.canSends p = true ∧
    (s.m.can p).bufs[b]? = some y ∧
    y.version = some v ∧
    v.released + 20000 ≤ o ∧
    v.cancel = false ∧
    k.ttMask.getLsbD (s.m.can p).cyc.toNat = true ∧
    (s.m.can p).cycAt = some z ∧
    o = z + ringSpan s.m.timeRing (k.ttOfs * 1000) ∧
    o ≤ max s.m.now t ∧
    max s.m.now t < o + ringSpan s.m.timeRing (k.ttLen * 1000) ∧
    y.winAt ≠ some o ∧
    max s.m.now t ≤ o + c.txen.getD 4 * nominalBitNs c.nbr :=
  ⟨canM (cc .exclusive true) (two { version := some (ver (some 0)) }), .p1, 0, 25000, 0, 20000, cc .exclusive true, tb .exclusive, { version := some (ver (some 0)) }, ver (some 0), by decide +kernel⟩

theorem meets_CanTransmission_10 : ∃ (s : State) (p : CanId) (b : Nat) (t : Nat) (z : Nat) (o : Nat) (began : Bool) (c : CanCfg) (k : BufCfg) (y : CanBuf) (v : Version),
    s.m.canCfg p = some c ∧
    c.bufs[b]? = some k ∧
    k.kind = .exclusive ∧
    c.tt = true ∧
    (s.m.can p).mode ≠ 0 ∧
    (s.m.can p).bufs[b]? = some y ∧
    y.version = some v ∧
    v.released + 20000 ≤ o ∧
    v.cancel = false ∧
    k.ttMask.getLsbD (s.m.can p).cyc.toNat = true ∧
    (s.m.can p).cycAt = some z ∧
    o = z + ringSpan s.m.timeRing (k.ttOfs * 1000) ∧
    o ≤ max s.m.now t ∧
    max s.m.now t < o + ringSpan s.m.timeRing (k.ttLen * 1000) ∧
    y.winAt ≠ some o ∧
    (began = false ∨ s.m.canSends p = false ∨ o + c.txen.getD 4 * nominalBitNs c.nbr < max s.m.now t) :=
  ⟨canM (cc .exclusive true) (two { version := some (ver (some 0)) }), .p1, 0, 50000, 0, 20000, true, cc .exclusive true, tb .exclusive, { version := some (ver (some 0)) }, ver (some 0), by decide +kernel⟩

theorem meets_CanTransmission_11 : ∃ (s : State) (p : CanId) (b : Nat),
    ((s.m.can p).bufs[b]?).map (fun y => y.version) = some none :=
  ⟨canM (cc .exclusive true) (one {}), .p1, 0, by decide +kernel⟩

theorem meets_CanTransmission_12 : ∃ (s : State) (p : CanId) (b : Nat) (t : Nat) (c : CanCfg) (k : BufCfg),
    s.m.canCfg p = some c ∧
    c.bufs[b]? = some k ∧
    (k.ttMask.getLsbD (s.m.can p).cyc.toNat = false ∨ (s.m.can p).cycAt = none ∨
      (∃ z, (s.m.can p).cycAt = some z ∧ max s.m.now t < z + ringSpan s.m.timeRing (k.ttOfs * 1000))) :=
  ⟨canM (cc .exclusive true) { one { version := some (ver (some 0)) } with cyc := 1 }, .p1, 0, 20000, cc .exclusive true, tb .exclusive, by decide +kernel⟩

theorem meets_CanTransmission_13 : ∃ (s : State) (p : CanId) (k : Nat) (t : Nat) (z : Nat) (o : Nat) (e : Nat) (c : CanCfg) (a : ArbWindow),
    s.m.canCfg p = some c ∧
    c.arbs[k]? = some a ∧
    c.tt = true ∧
    s.m.canSends p = true ∧
    (s.m.can p).bus = none ∧
    a.mask.getLsbD (s.m.can p).cyc.toNat = true ∧
    (s.m.can p).cycAt = some z ∧
    o = z + ringSpan s.m.timeRing (a.ofs * 1000) ∧
    o ≤ max s.m.now t ∧
    e = o + ringSpan s.m.timeRing (a.len * 1000) ∧
    max s.m.now t < e :=
  ⟨canM (cc .arbitrating true) (two { version := some (ver (some 0)) }), .p1, 0, 20005, 0, 20000, 1020000, cc .arbitrating true, { ofs := 20, len := 1000, mask := 1 }, by decide +kernel⟩

theorem meets_CanTransmission_14 : ∃ (s : State) (p : CanId) (k : Nat) (t : Nat) (c : CanCfg) (a : ArbWindow),
    s.m.canCfg p = some c ∧
    c.arbs[k]? = some a ∧
    (c.tt = false ∨ a.mask.getLsbD (s.m.can p).cyc.toNat = false ∨ (s.m.can p).cycAt = none ∨
      (∃ z, (s.m.can p).cycAt = some z ∧ max s.m.now t < z + ringSpan s.m.timeRing (a.ofs * 1000))) :=
  ⟨canM (cc .arbitrating false) (one { version := some (ver (some 0)) }), .p1, 0, 5, cc .arbitrating false, { ofs := 20, len := 1000, mask := 1 }, by decide +kernel⟩

theorem meets_CanTransmission_15 : ∃ (s : State) (p : CanId) (t : Nat) (n : Nat) (c : CanCfg) (q : RingPoint) (e : TxEnd) (gone : Bool),
    s.m.canCfg p = some c ∧
    c.tt = true ∧
    s.m.canSends p = true ∧
    (s.m.can p).refBuf.block = 0 ∧
    s.m.timeRing.sync = true ∧
    c.cbc ≠ 0 ∧
    s.m.timeRing.tb.at0 (max s.m.now t + 50000) = q ∧
    q.off ≤ 100000 ∧
    q.basic % 32 % c.cbc = 0 ∧
    n = q.basic % 32 / c.cbc ∧
    (s.m.can p).cycAt = none ∧
    (e = .completed ∨ (e = .lostArbitration ∧ gone = true)) ∧
    gone = (e == .lostArbitration && s.m.ident.copy == 1 && s.m.sd.any (fun sd => sd.pair.paired)) :=
  ⟨canM (cc .arbitrating true) (one {}), .p1, 5, 3, cc .arbitrating true, (Mach.timeRing (canM (cc .arbitrating true) (one {})).m).tb.at0 50005, .completed, false, by decide +kernel⟩

theorem meets_CanTransmission_16 : ∃ (s : State) (p : CanId) (t : Nat) (c : CanCfg) (q : RingPoint),
    s.m.canCfg p = some c ∧
    c.tt = true ∧
    s.m.timeRing.sync = true ∧
    c.cbc ≠ 0 ∧
    s.m.timeRing.tb.at0 (max s.m.now t + 50000) = q ∧
    (100000 < q.off ∨ q.basic % 32 % c.cbc ≠ 0) ∧
    (s.m.can p).refDue = false :=
  ⟨canM (cc .arbitrating true) (one {}), .p1, 500000, cc .arbitrating true, (Mach.timeRing (canM (cc .arbitrating true) (one {})).m).tb.at0 550000, by decide +kernel⟩

theorem meets_CanTransmission_17 : ∃ (s : State) (p : CanId) (b : Nat) (t : Nat) (z : Nat) (c : CanCfg),
    s.m.canCfg p = some c ∧
    c.tt = true ∧
    s.m.canSends p = true ∧
    64 ≤ b ∧
    (s.m.can p).refBuf.block = 0 ∧
    s.m.timeRing.sync = true ∧
    (s.m.can p).refDue = true ∧
    (s.m.can p).cycAt = some z ∧
    max s.m.now t < z + 450000 ∧
    (s.m.can p).tec.toNat ≤ 247 :=
  ⟨canM (cc .arbitrating true) { two {} with refDue := true }, .p1, 64, 5, 0, cc .arbitrating true, by decide +kernel⟩

theorem meets_CanTransmission_18 : ∃ (s : State) (p : CanId) (b : Nat) (c : CanCfg) (k : BufCfg) (y : CanBuf) (v : Version),
    s.m.canCfg p = some c ∧
    b < 64 ∧
    c.bufs[b]? = some k ∧
    (s.m.can p).bufs[b]? = some y ∧
    y.version = some v ∧
    v.pending.isSome = true ∧
    v.cancel = false ∧
    c.listen = false ∧
    ((s.m.can p).mode = 1 ∨ (s.m.can p).mode = 2) ∧
    k.kind ≠ .exclusive ∧
    (s.m.can p).tec.toNat ≤ 247 :=
  ⟨canM (cc .event false) (one { version := some (ver (some 0)) }), .p1, 0, cc .event false, tb .event, { version := some (ver (some 0)) }, ver (some 0), by decide +kernel⟩

theorem meets_CanReceipt_1 : ∃ (s : State) (p : CanId) (f : CanFrame) (b : Nat) (c : CanCfg) (k : BufCfg) (y : CanBuf),
    s.m.canCfg p = some c ∧
    ((s.m.can p).mode = 1 ∨ (s.m.can p).mode = 2) ∧
    f.rtr = false ∧
    canOwner c f = none ∧
    c.bufs.zipIdx.find? (fun q => bufTakes q.1 f) = some (k, b) ∧
    k.fdf = f.fdf ∧
    k.brs = f.brs ∧
    k.dlc = f.dlc ∧
    k.pair = false ∧
    (s.m.can p).bufs[b]? = some y :=
  ⟨canM (cc .event false) (one {}), .p1, cf 9, 1, cc .event false, rb 9 false, {}, by decide +kernel⟩

theorem meets_CanReceipt_2 : ∃ (s : State) (p : CanId) (f : CanFrame) (b : Nat) (c : CanCfg) (k : BufCfg) (y : CanBuf),
    s.m.canCfg p = some c ∧
    ((s.m.can p).mode = 1 ∨ (s.m.can p).mode = 2) ∧
    f.rtr = false ∧
    canOwner c f = none ∧
    c.bufs.zipIdx.find? (fun q => bufTakes q.1 f) = some (k, b) ∧
    (k.fdf ≠ f.fdf ∨ k.brs ≠ f.brs ∨ k.dlc ≠ f.dlc) ∧
    (s.m.can p).bufs[b]? = some y :=
  ⟨canM (cc .event false) (one {}), .p1, { cf 9 with dlc := 9 }, 1, cc .event false, rb 9 false, {}, by decide +kernel⟩

theorem meets_CanReceipt_3 : ∃ (s : State) (p : CanId) (f : CanFrame) (c : CanCfg),
    s.m.canCfg p = some c ∧
    ((s.m.can p).mode = 1 ∨ (s.m.can p).mode = 2) ∧
    f.rtr = true ∧
    canOwner c f = none :=
  ⟨canM (cc .event false) (one {}), .p1, { cf 9 with rtr := true }, cc .event false, by decide +kernel⟩

theorem meets_CanReceipt_4 : ∃ (s : State) (p : CanId),
    ((s.m.can p).mode = 0 ∨ (s.m.can p).mode = 3) :=
  ⟨canM (cc .event false) { mode := 3, bufs := [{}] }, .p1, by decide +kernel⟩

theorem meets_CanReceipt_5 : ∃ (s : State) (p : CanId) (f : CanFrame) (b : Nat) (c : CanCfg) (y : CanBuf) (v : Version),
    s.m.canCfg p = some c ∧
    ((s.m.can p).mode = 1 ∨ (s.m.can p).mode = 2) ∧
    canOwner c f = some (some b) ∧
    (s.m.can p).bufs[b]? = some y ∧
    y.version = some v ∧
    v.cancel = false ∧
    y.next = none ∧
    y.block = 0 ∧
    y.retryAt = none :=
  ⟨canM (cc .event false) (one { version := some (ver (some 0)) }), .p1, cf 5, 0, cc .event false, { version := some (ver (some 0)) }, ver (some 0), by decide +kernel⟩

theorem meets_CanReceipt_6 : ∃ (s : State) (p : CanId) (f : CanFrame) (t : Nat) (b : Nat) (r : Nat) (c : CanCfg) (y : CanBuf),
    s.m.canCfg p = some c ∧
    ((s.m.can p).mode = 1 ∨ (s.m.can p).mode = 2) ∧
    canOwner c f = some (some b) ∧
    (s.m.can p).bufs[b]? = some y ∧
    y.block = 0 ∧
    y.retryAt = some r ∧
    max s.m.now t ≤ r + 10000000000 ∧
    3 ≤ y.conflictRun :=
  ⟨canM (cc .event false) (one { retryAt := some 0, conflictRun := 3 }), .p1, cf 5, 5, 0, 0, cc .event false, { retryAt := some 0, conflictRun := 3 }, by decide +kernel⟩

theorem meets_CanReceipt_7 : ∃ (s : State) (p : CanId) (b : Nat) (t : Nat) (y : CanBuf),
    b < 64 ∧
    (s.m.can p).bufs[b]? = some y ∧
    y.block = 1 ∧
    y.blockedAt + 1000000000 ≤ max s.m.now t :=
  ⟨canM (cc .event false) (one { block := 1 }), .p1, 0, 1000000000, { block := 1 }, by decide +kernel⟩

theorem meets_CanReceipt_8 : ∃ (s : State) (p : CanId) (b : Nat) (y : CanBuf),
    b < 64 ∧
    (s.m.can p).bufs[b]? = some y ∧
    y.block = 2 :=
  ⟨canM (cc .event false) (one { block := 2 }), .p1, 0, { block := 2 }, by decide +kernel⟩

theorem meets_CanReceipt_9 : ∃ (s : State) (p : CanId) (t : Nat),
    (s.m.can p).refBuf.block = 1 ∧
    (s.m.can p).refBuf.blockedAt + 1000000000 ≤ max s.m.now t :=
  ⟨canM (cc .event false) { one {} with refBuf := { block := 1 } }, .p1, 1000000000, by decide +kernel⟩

theorem meets_CanReceipt_10 : ∃ (s : State) (p : CanId) (b : Nat) (t : Nat) (c : CanCfg) (k : BufCfg) (y : CanBuf) (f : CanFrame) (q : Bool) (r : List (CanFrame × Bool)),
    s.m.canCfg p = some c ∧
    c.bufs[b]? = some k ∧
    (s.m.can p).bufs[b]? = some y ∧
    y.pairGroup = (f, q) :: r ∧
    y.pairAt + k.pairWin.getD 1000 * 1000 ≤ max s.m.now t ∧
    (∀ g ∈ r, g.1.data = f.data) :=
  ⟨canM (cc .event false) { mode := 1, bufs := [{}, {}, { pairGroup := [(cf 20, false), (cf 21, true)] }] }, .p1, 2, 1000000, cc .event false, rb 20 true, { pairGroup := [(cf 20, false), (cf 21, true)] }, cf 20, false, [(cf 21, true)], by decide +kernel⟩

theorem meets_CanReceipt_11 : ∃ (s : State) (p : CanId) (b : Nat) (t : Nat) (c : CanCfg) (k : BufCfg) (y : CanBuf) (f : CanFrame) (q : Bool) (r : List (CanFrame × Bool)),
    s.m.canCfg p = some c ∧
    c.bufs[b]? = some k ∧
    (s.m.can p).bufs[b]? = some y ∧
    y.pairGroup = (f, q) :: r ∧
    y.pairAt + k.pairWin.getD 1000 * 1000 ≤ max s.m.now t ∧
    (∃ g ∈ r, g.1.data ≠ f.data) :=
  ⟨canM (cc .event false) { mode := 1, bufs := [{}, {}, { pairGroup := [(cf 20, false), ({ cf 21 with data := [2] }, true)] }] }, .p1, 2, 1000000, cc .event false, rb 20 true, { pairGroup := [(cf 20, false), ({ cf 21 with data := [2] }, true)] }, cf 20, false, [({ cf 21 with data := [2] }, true)], by decide +kernel⟩

theorem meets_CanErrors_1 : ∃ (s : State) (p : CanId) (e : CanErr) (heavy : Bool) (n : Nat) (c : CanCfg),
    s.m.canCfg p = some c ∧
    ((s.m.can p).mode = 1 ∨ (s.m.can p).mode = 2) ∧
    c.listen = false ∧
    (s.m.can p).tec.toNat ≤ 127 ∧
    n = (if e = .ack then 0 else if heavy then 8 else 1) :=
  ⟨canM (cc .event false) { mode := 1, recv := 127, bufs := [{}] }, .p1, .form, true, 8, cc .event false, by decide +kernel⟩

theorem meets_CanErrors_2 : ∃ (s : State) (p : CanId) (c : CanCfg),
    s.m.canCfg p = some c ∧
    ((s.m.can p).mode = 1 ∨ (s.m.can p).mode = 2) ∧
    c.listen = true :=
  ⟨canM { cc .event false with listen := true } { mode := 1, recv := 127, bufs := [{}] }, .p1, { cc .event false with listen := true }, by decide +kernel⟩

theorem meets_CanErrors_3 : ∃ (s : State) (p : CanId) (c : CanCfg),
    s.m.canCfg p = some c ∧
    ((s.m.can p).mode = 1 ∨ (s.m.can p).mode = 2) ∧
    c.listen = false :=
  ⟨canM (cc .event false) (one { version := some (ver (some 0)) }), .p1, cc .event false, by decide +kernel⟩

theorem meets_CanErrors_4 : ∃ (s : State) (p : CanId) (t : Nat),
    (s.m.can p).mode = 3 ∧
    (s.m.can p).busoffAt + 1000000000 ≤ max s.m.now t :=
  ⟨canM (cc .event false) { mode := 3, bufs := [{}] }, .p1, 1000000000, by decide +kernel⟩

theorem meets_CanErrors_5 : ∃ (s : State) (p : CanId) (t : Nat),
    max s.m.now t < (s.m.can p).busoffAt + 1000000000 :=
  ⟨canM (cc .event false) { mode := 3, bufs := [{}] }, .p1, 999999999, by decide +kernel⟩

theorem meets_CanErrors_6 : ∃ (s : State) (p : CanId),
    (s.m.can p).mode = 3 ∧
    (s.m.can p).recov = true :=
  ⟨canM (cc .event false) { mode := 3, recov := true, bufs := [{}] }, .p1, by decide +kernel⟩

end WCan

/-! ### Witnesses: PairLinks, MirrorPackets -/

namespace WPair

def psd : StationData := { sd with pair := { sd.pair with paired := true, requests := [0x10000], memories := [0x10002], capacity := 0 } }
def link1 : PairLink := { up := true, service := true }
def pm (x : PairState) : Mach := { serv with sd := some psd, pair := x, cal := { serv.cal with txOn := true } }
def ps (x : PairState) : State := st (pm x)
def psf : StatusFrame := sealStatus
  { fcrc := 0, link := .l1, copy := 1, cycle := 0, mode := 5, role := 1, lanes := 7, sighted := true, sdId := 7, swap := 9, faults := [], ready := false }
def shadowS (x : PairState) : State := st { pm x with mod := { mode := .shadow } }
def mfr : MirrorFrame := sealMirror { fcrc := 0, link := .l1, copy := 1, odd := false, seg := 0, cycle := 0, words := [0x01000000] }
def seg (dig : W64) : List W64 :=
  let b : List W64 := [0x01000000, 7, dig, 0, 0x8000000000000000, 0x8000000000000000]
  b ++ [safetyCode b]
def hdA : ImageHeader := header 0 [] 0 [] 0
def takeS (mode : Mode) (dig : W64) (x : PairState) : State :=
  st (each (fun y => { y with phase := .sleepEntry, mem := { y.mem with header := some hdA } })
    { pm { x with packet := some (0, [seg dig]) } with mod := { mode := mode } })
def digA : W64 := outputDigest (serv.lane .a).strap ((takeS .shadow 0 {}).m.lane .a)
def mis (d : W64) : State := takeS .shadow d { role := .shadow, mismRun := 1, packetTo := 7 }
theorem meetsMismatch : ∃ (s : State) (l : LaneId) (t : Nat) (segs : List (List W64)) (sd : StationData) (p : PacketMap) (h : ImageHeader) (data : List W64),
    s.m.pair.packet = some ((s.m.lane l).cop.cycleNo, segs) ∧ s.m.sd = some sd ∧ s.m.isOut l = false ∧
    inMask s.m.pair.packetTo l = true ∧ s.m.pair.takenBy = 0 ∧ (s.m.lane l).phase = .sleepEntry ∧ s.m.pair.role = .shadow ∧
    (∀ x ∈ segs, segmentOk ((segs.headD []).getD 1 0) (s.m.lane l).cop.cycleNo x = true) ∧
    packetMap (s.m.pair.role == .joining) sd ((segs.headD []).getD 1 0) = some p ∧ data = packetData segs ∧
    (s.m.lane l).mem.header = some h ∧
    max s.m.now t + takeNs p data + 10000 ≤ (s.m.lane l).t0 + s.m.cycleNs ∧ s.m.mod.mode = .shadow ∧
    data.headD 0 ≠ outputDigest (s.m.lane l).strap (s.m.lane l) := by
  by_cases h : outputDigest (serv.lane .a).strap ((mis 0).m.lane .a) = 0
  · refine ⟨mis 1, .a, 5, [seg 1], psd, ownMap psd, hdA, packetData [seg 1], ?_⟩
    and_intros <;> first | decide +kernel | exact fun e => absurd (e.trans h) (by decide +kernel)
  · refine ⟨mis 0, .a, 5, [seg 0], psd, ownMap psd, hdA, packetData [seg 0], ?_⟩
    and_intros <;> first | decide +kernel | exact fun e => h e.symm

theorem meets_PairLinks_1 : ∃ (s : State),
    s.m.cal.txOn = true ∧
    s.m.paired = true :=
  ⟨ps {}, by decide +kernel⟩

theorem meets_PairLinks_2 : ∃ (s : State) (k : LinkId) (f : StatusFrame),
    s.m.linkHears k = true ∧
    pairIntact (.status f) = true ∧
    f.link = k ∧
    s.m.pair.role ≠ .shadow :=
  ⟨ps { role := .joining, l1 := { run := 19 } }, .l1, psf, by decide +kernel⟩

theorem meets_PairLinks_3 : ∃ (s : State) (k : LinkId) (f : StatusFrame),
    s.m.linkHears k = true ∧
    pairIntact (.status f) = true ∧
    f.link = k ∧
    s.m.pair.role = .shadow ∧
    s.m.mod.mode = .shadow ∧
    f.role = 1 ∧
    (f.mode = 4 ∨ f.mode = 8) :=
  ⟨shadowS { role := .shadow, l1 := link1 }, .l1, sealStatus { psf with mode := 4 }, by decide +kernel⟩

theorem meets_PairLinks_4 : ∃ (s : State) (k : LinkId) (f : StatusFrame),
    s.m.linkHears k = true ∧
    pairIntact (.status f) = false :=
  ⟨ps { role := .lead, l1 := link1 }, .l1, { psf with fcrc := 0 }, by decide +kernel⟩

theorem meets_PairLinks_5 : ∃ (s : State) (k : LinkId) (f : StatusFrame),
    s.m.linkHears k = true ∧
    pairIntact (.status f) = true ∧
    f.link ≠ k :=
  ⟨ps { role := .lead, l1 := link1 }, .l1, sealStatus { psf with link := .l2 }, by decide +kernel⟩

theorem meets_PairLinks_6 : ∃ (s : State) (k : LinkId),
    s.m.linkHears k = false :=
  ⟨st serv, .l1, by decide +kernel⟩

theorem meets_PairLinks_7 : ∃ (s : State) (k : LinkId) (t : Nat),
    (s.m.pair.link k).up = true ∧
    (s.m.pair.link k).service = true ∧
    (s.m.pair.link k).lastAt + 3000000 ≤ max s.m.now t :=
  ⟨ps { role := .lead, l1 := link1 }, .l1, 3000000, by decide +kernel⟩

theorem meets_PairLinks_8 : ∃ (s : State) (k : LinkId) (t : Nat),
    max s.m.now t < (s.m.pair.link k).lastAt + 3000000 :=
  ⟨ps { role := .lead, l1 := link1 }, .l1, 2999999, by decide +kernel⟩

theorem meets_PairLinks_9 : ∃ (s : State) (t : Nat) (g : Nat),
    s.m.mod.mode = .join ∧
    s.m.paired = true ∧
    s.m.pair.goneAt = some g ∧
    g + 2000000000 ≤ max s.m.now t ∧
    s.m.pair.yielded = false ∧
    s.m.pair.l1.service = false ∧
    s.m.pair.l2.service = false ∧
    s.m.inLastCycle s.m.pair.sightIn = false :=
  ⟨⟨[], { pm { goneAt := some 0 } with mod := { mode := .join } }⟩, 2000000000, 0, by decide +kernel⟩

theorem meets_PairLinks_10 : ∃ (s : State),
    s.m.paired = true ∧
    (s.m.pair.l1.service = true ∨ s.m.pair.l2.service = true) :=
  ⟨ps { l1 := link1 }, by decide +kernel⟩

theorem meets_MirrorPackets_1 : ∃ (s : State) (k : LinkId) (f : MirrorFrame),
    s.m.linkHears k = true ∧
    pairIntact (.mirror f) = true ∧
    f.link = k ∧
    f.copy ≠ s.m.ident.copy ∧
    f.cycle = s.m.cycleNo ∧
    s.m.pair.packet = none ∧
    (s.m.pair.role = .shadow ∨ s.m.pair.role = .joining) ∧
    findHalf s.m.pair.halves f.seg f.odd = none :=
  ⟨ps { role := .joining }, .l1, mfr, by decide +kernel⟩

theorem meets_MirrorPackets_2 : ∃ (s : State) (k : LinkId) (f : MirrorFrame),
    s.m.linkHears k = true ∧
    pairIntact (.mirror f) = true ∧
    f.link = k ∧
    (f.copy = s.m.ident.copy ∨ f.cycle ≠ s.m.cycleNo ∨ s.m.pair.role = .lead ∨ s.m.pair.role = .none) :=
  ⟨ps { role := .lead }, .l1, mfr, by decide +kernel⟩

theorem meets_MirrorPackets_3 : ∃ (s : State) (k : LinkId) (f : MirrorFrame),
    s.m.linkHears k = true ∧
    pairIntact (.mirror f) = false :=
  ⟨ps { role := .joining }, .l1, { mfr with fcrc := 0 }, by decide +kernel⟩

theorem meets_MirrorPackets_4 : ∃ (s : State) (l : LaneId) (t : Nat) (segs : List (List W64)) (sd : StationData) (p : PacketMap) (h : ImageHeader) (data : List W64),
    s.m.pair.packet = some ((s.m.lane l).cop.cycleNo, segs) ∧
    s.m.sd = some sd ∧
    s.m.isOut l = false ∧
    inMask s.m.pair.packetTo l = true ∧
    s.m.pair.takenBy = 0 ∧
    (s.m.lane l).phase = .sleepEntry ∧
    (s.m.pair.role = .shadow ∨ s.m.pair.role = .joining) ∧
    (∀ x ∈ segs, segmentOk ((segs.headD []).getD 1 0) (s.m.lane l).cop.cycleNo x = true) ∧
    packetMap (s.m.pair.role == .joining) sd ((segs.headD []).getD 1 0) = some p ∧
    data = packetData segs ∧
    (s.m.lane l).mem.header = some h ∧
    max s.m.now t + takeNs p data + 10000 ≤ (s.m.lane l).t0 + s.m.cycleNs ∧
    (s.m.mod.mode ≠ .shadow ∨ data.headD 0 = outputDigest (s.m.lane l).strap (s.m.lane l)) :=
  ⟨takeS .join 1 { role := .joining, packetTo := 7 }, .a, 5, [seg 1], psd, ownMap psd, hdA, packetData [seg 1], by decide +kernel⟩

theorem meets_MirrorPackets_5 : ∃ (s : State) (l : LaneId) (t : Nat) (segs : List (List W64)) (sd : StationData) (p : PacketMap) (h : ImageHeader) (data : List W64),
    s.m.pair.packet = some ((s.m.lane l).cop.cycleNo, segs) ∧
    s.m.sd = some sd ∧
    s.m.isOut l = false ∧
    inMask s.m.pair.packetTo l = true ∧
    s.m.pair.takenBy = 0 ∧
    (s.m.lane l).phase = .sleepEntry ∧
    s.m.pair.role = .shadow ∧
    (∀ x ∈ segs, segmentOk ((segs.headD []).getD 1 0) (s.m.lane l).cop.cycleNo x = true) ∧
    packetMap (s.m.pair.role == .joining) sd ((segs.headD []).getD 1 0) = some p ∧
    data = packetData segs ∧
    (s.m.lane l).mem.header = some h ∧
    max s.m.now t + takeNs p data + 10000 ≤ (s.m.lane l).t0 + s.m.cycleNs ∧
    s.m.mod.mode = .shadow ∧
    data.headD 0 ≠ outputDigest (s.m.lane l).strap (s.m.lane l) :=
  by exact meetsMismatch

theorem meets_MirrorPackets_6 : ∃ (m : Mach) (e : Nat) (d : Nat),
    e = (m.votingLanes.filter (inMask m.pair.same)).length ∧
    d = (m.votingLanes.filter (inMask m.pair.differ)).length ∧
    0 < e + d :=
  ⟨pm { role := .shadow, same := 1, differ := 6 }, 1, 2, by decide +kernel⟩

theorem meets_MirrorPackets_7 : ∃ (s : State) (l : LaneId) (t : Nat) (segs : List (List W64)) (sd : StationData) (p : PacketMap),
    s.m.pair.packet = some ((s.m.lane l).cop.cycleNo, segs) ∧
    s.m.sd = some sd ∧
    s.m.isOut l = false ∧
    inMask s.m.pair.packetTo l = true ∧
    s.m.pair.takenBy = 0 ∧
    (s.m.lane l).phase = .sleepEntry ∧
    (s.m.pair.role = .shadow ∨ s.m.pair.role = .joining) ∧
    (∀ x ∈ segs, segmentOk ((segs.headD []).getD 1 0) (s.m.lane l).cop.cycleNo x = true) ∧
    packetMap (s.m.pair.role == .joining) sd ((segs.headD []).getD 1 0) = some p ∧
    (s.m.lane l).t0 + s.m.cycleNs < max s.m.now t + takeNs p (packetData segs) + 10000 :=
  ⟨takeS .join 1 { role := .joining, packetTo := 7 }, .a, 4000000000, [seg 1], psd, ownMap psd, by decide +kernel⟩

theorem meets_MirrorPackets_8 : ∃ (s : State) (l : LaneId),
    (s.m.isOut l = true ∨ inMask s.m.pair.packetTo l = false) :=
  ⟨takeS .join 1 { role := .joining, packetTo := 6 }, .a, by decide +kernel⟩

theorem meets_MirrorPackets_9 : ∃ (s : State) (l : LaneId) (c : W32) (segs : List (List W64)) (sd : StationData),
    s.m.pair.packet = some (c, segs) ∧
    s.m.sd = some sd ∧
    s.m.isOut l = false ∧
    inMask s.m.pair.packetTo l = true ∧
    s.m.pair.takenBy = 0 ∧
    (s.m.lane l).phase = .sleepEntry ∧
    (s.m.pair.role = .shadow ∨ s.m.pair.role = .joining) ∧
    (c ≠ (s.m.lane l).cop.cycleNo ∨ ∃ x ∈ segs, segmentOk ((segs.headD []).getD 1 0) (s.m.lane l).cop.cycleNo x = false) :=
  ⟨⟨[], { (takeS .shadow 1 {}).m with pair := { role := .shadow, packet := some (5, [seg 1]), packetTo := 7 } }⟩, .a, 5, [seg 1], psd, by decide +kernel⟩

end WPair

/-! ### Witnesses: ModeCommands, ModeCommandEffects -/

namespace WMode

def head (typ : Byte) (n : Nat) (seq : W32) (payload : List Byte) : MntHead :=
  let h : MntHead := { ip := 9, port := 27340, whole := true, magic := 0x5750, version := 1, length := BitVec.ofNat 16 payload.length, crc := 0 }
  { h with crc := crc32 (requestBytes h typ n seq payload) }
def mod (w : W32) : MntHead := head 0x04 7 1 (spanBytes (pathAddr [1] ||| 0x02C) 1 ++ bytes32 w)
def modHead : MntHead := mod 0xA507
def permSd : StationData :=
  { sd with permits := { maintain := some 0x10000, leaveMaintain := some 0x10000, commission := some 0x10000, endCommission := some 0x10000,
                         swap := some 0x10000, quiesce := some 0x10000, actFw := some 0x10000, actSd := some 0x10000, enrol := some 0x10000
                         slice := some 0x10000 } }
def rdy : Mach := each (fun x => { x with mem := { x.mem with header := some (header 0 [] 0 [] 0) } }) servB
def sess7 (lv : Level) : MntSession := { id := 7, ip := 9, level := lv, challenge := 0, authed := true, seq := 0 }
def withSess (lv : Level) : State := st { rdy with bench := { rdy.bench with mnt := { sessions := [sess7 lv] } } }
def pc (code : Byte) : PendingCmd := { code := code, target := 3, at0 := 0, applied := false, outcome := 0 }
def granted : Mach :=
  { servB with sd := some permSd }.updLanes (fun _ x =>
    let h := header 0 [] 0 [] 0
    { x with mem := { x.mem with header := some h }.setTrueBit x.strap h 0x10000 true })
def pendM (mode : Mode) (code : Byte) (u : Update) : Mach :=
  { granted with mod := { mode := mode, cmd := some (pc code) }, bench := { granted.bench with upd := u } }
def fwMan : Manifest := { decodeManifest [] with benchHigh := 0xFFFF, laneHigh := 0xFFFF }
def twoFw : Update := { fwB := { state := .verified, manifest := some fwMan } }
def twoSd : Update := { sdA := { state := .active }, sdB := { state := .verified } }
def onTrialSd : Update := { sdA := { state := .previous }, sdB := { state := .trial }, trial := some .stationData }
def pairM : Mach :=
  { pendM .service 6 {} with
    sd := some { permSd with pair := { sd.pair with paired := true } }
    pair := { role := .lead, present := true, partner := some (sealStatus { fcrc := 0, link := .l1, copy := 1, cycle := 0, mode := 7, role := 2, lanes := 7, sighted := true, sdId := 7, swap := 0, faults := [], ready := true }) } }

theorem meets_ModeCommands_1 : ∃ (s : State) (k : Fin modeCommands.length) (via : Via) (sess : Sess) (t : Nat) (b : Mach),
    b = (s.m.tick t).benchTick ∧
    sess = viaSess via ∧
    mayWrite s t via (pathAddr [1] ||| 0x02C) [BitVec.ofNat 32 (modeCommands[k].1.toNat + 256 * 0xA5)] true b = true ∧
    b.mod.cmd = none ∧
    b.evaluates = true :=
  ⟨withSess .write, ⟨0, by decide⟩, .mnt (mod 0xA501) 7 1, .mnt 7, 5, ((withSess .write).m.tick 5).benchTick, by decide +kernel⟩

theorem meets_ModeCommands_2 : ∃ (s : State) (k : Fin modeCommands.length) (via : Via) (sess : Sess) (key : Byte) (t : Nat) (b : Mach),
    b = (s.m.tick t).benchTick ∧
    sess = viaSess via ∧
    mayWrite s t via (pathAddr [1] ||| 0x02C) [BitVec.ofNat 32 (modeCommands[k].1.toNat + 256 * key.toNat)] true b = true ∧
    (key ≠ 0xA5 ∨ b.mod.cmd.isSome = true) :=
  ⟨withSess .write, ⟨2, by decide⟩, .host, .host, 0, 5, ((withSess .write).m.tick 5).benchTick, by decide +kernel⟩

theorem meets_ModeCommands_3 : ∃ (s : State) (k : Fin modeCommands.length) (via : Via) (sess : Sess) (t : Nat) (b : Mach),
    b = (s.m.tick t).benchTick ∧
    sess = viaSess via ∧
    mayWrite s t via (pathAddr [1] ||| 0x02C) [BitVec.ofNat 32 (modeCommands[k].1.toNat + 256 * 0xA5)] true b = true ∧
    b.mod.cmd = none ∧
    b.evaluates = false :=
  ⟨st { pow with bench := { up := true } }, ⟨6, by decide⟩, .host, .host, 5, ((st { pow with bench := { up := true } }).m.tick 5).benchTick, by decide +kernel⟩

theorem meets_ModeCommands_5 : ∃ (s : State) (k : Fin modeCommands.length) (h : MntHead) (n : Nat) (t : Nat) (seq : W32) (key : Byte) (b : Mach) (x : MntSession),
    b = (s.m.tick t).benchTick ∧
    mntTakes s t h 0x04 n seq (spanBytes (pathAddr [1] ||| 0x02C) 1 ++
      bytes32 (BitVec.ofNat 32 (modeCommands[k].1.toNat + 256 * key.toNat))) b = true ∧
    b.mntSess n = some x ∧
    seq = x.seq + 1 ∧
    (x.authed = false ∨ x.level = .read) :=
  ⟨withSess .read, ⟨6, by decide⟩, modHead, 7, 5, 1, 0xA5, ((withSess .read).m.tick 5).benchTick, sess7 .read, by decide +kernel⟩

theorem meets_ModeCommands_6 : ∃ (s : State) (t : Nat) (c : PendingCmd),
    s.m.mod.cmd = some c ∧
    c.applied = false ∧
    c.at0 + s.m.cycleNs ≤ max s.m.now t ∧
    ((s.m.tick t).benchTick.evaluates = false ∨
      ∀ l ∈ (s.m.tick t).benchTick.votingLanes, (s.m.tick t).benchTick.grants l = false ∧ (s.m.lane l).t0 ≤ c.at0) :=
  ⟨st { serv with mod := { mode := .boot, cmd := some (pc 1) } }, 8000000, pc 1, by decide +kernel⟩

theorem meets_ModeCommands_7 : ∃ (s : State) (t : Nat) (c : PendingCmd) (l : LaneId),
    s.m.mod.cmd = some c ∧
    (s.m.tick t).benchTick.evaluates = true ∧
    l ∈ (s.m.tick t).benchTick.votingLanes ∧
    ((s.m.tick t).benchTick.grants l = true ∨ c.at0 < ((s.m.tick t).benchTick.lane l).t0) :=
  ⟨st (each (fun x => { x with t0 := 1 }) { serv with mod := { mode := .service, cmd := some (pc 1) } }), 8000000, pc 1, .b, by decide +kernel⟩

theorem meets_ModeCommands_8 : ∃ (s : State) (t : Nat) (c : PendingCmd),
    s.m.mod.cmd = some c ∧
    max s.m.now t < c.at0 + s.m.cycleNs :=
  ⟨st { serv with mod := { mode := .service, cmd := some (pc 1) } }, 7999999, pc 1, by decide +kernel⟩

theorem meets_ModeCommandEffects_1 : ∃ (m : Mach) (n : W32) (c : PendingCmd),
    m.mod.cmd = some c ∧
    c.applied = false ∧
    c.target = n ∧
    (m.codeAllowed c.code.toNat = false ∨ m.permitted c.code.toNat = false ∨ m.conditionMet c.code.toNat = false) :=
  ⟨pendM .join 1 {}, 3, pc 1, by decide +kernel⟩

theorem meets_ModeCommandEffects_2 : ∃ (m : Mach) (n : W32) (c : PendingCmd),
    m.mod.cmd = some c ∧
    c.applied = false ∧
    newer n c.target = true :=
  ⟨pendM .join 1 {}, 4, pc 1, by decide +kernel⟩

theorem meets_ModeCommandEffects_3 : ∃ (m : Mach) (n : W32) (c : PendingCmd),
    m.mod.cmd = some c ∧
    c.applied = false ∧
    c.target = n ∧
    c.code = 0x01 ∧
    m.codeAllowed 1 = true ∧
    m.permitted 1 = true ∧
    m.conditionMet 1 = true :=
  ⟨pendM .service 1 {}, 3, pc 1, by decide +kernel⟩

theorem meets_ModeCommandEffects_4 : ∃ (m : Mach) (n : W32) (c : PendingCmd),
    m.mod.cmd = some c ∧
    c.applied = false ∧
    c.target = n ∧
    (c.code = 0x02 ∨ c.code = 0x04) ∧
    m.codeAllowed c.code.toNat = true ∧
    m.permitted c.code.toNat = true :=
  ⟨pendM .maintain 2 {}, 3, pc 2, by decide +kernel⟩

theorem meets_ModeCommandEffects_5 : ∃ (m : Mach) (n : W32) (c : PendingCmd),
    m.mod.cmd = some c ∧
    c.applied = false ∧
    c.target = n ∧
    c.code = 0x03 ∧
    m.codeAllowed 3 = true ∧
    m.permitted 3 = true ∧
    m.conditionMet 3 = true :=
  ⟨pendM .service 3 {}, 3, pc 3, by decide +kernel⟩

theorem meets_ModeCommandEffects_6 : ∃ (m : Mach) (n : W32) (c : PendingCmd),
    m.mod.cmd = some c ∧
    c.applied = false ∧
    c.target = n ∧
    c.code = 0x05 ∧
    m.codeAllowed 5 = true ∧
    m.permitted 5 = true :=
  ⟨pendM .commission 5 {}, 3, pc 5, by decide +kernel⟩

theorem meets_ModeCommandEffects_7 : ∃ (m : Mach) (n : W32) (c : PendingCmd),
    m.mod.cmd = some c ∧
    c.applied = false ∧
    c.target = n ∧
    c.code = 0x06 ∧
    m.codeAllowed 6 = true ∧
    m.permitted 6 = true ∧
    m.conditionMet 6 = true :=
  ⟨pairM, 3, pc 6, by decide +kernel⟩

theorem meets_ModeCommandEffects_8 : ∃ (m : Mach) (n : W32) (c : PendingCmd),
    m.mod.cmd = some c ∧
    c.applied = false ∧
    c.target = n ∧
    c.code = 0x07 ∧
    m.codeAllowed 7 = true ∧
    m.permitted 7 = true :=
  ⟨pendM .service 7 {}, 3, pc 7, by decide +kernel⟩

theorem meets_ModeCommandEffects_9 : ∃ (m : Mach) (n : W32) (c : PendingCmd),
    m.mod.cmd = some c ∧
    c.applied = false ∧
    c.target = n ∧
    c.code = 0x10 ∧
    m.codeAllowed 0x10 = true ∧
    m.permitted 0x10 = true ∧
    m.conditionMet 0x10 = true :=
  ⟨pendM .service 0x10 twoFw, 3, pc 0x10, by decide +kernel⟩

theorem meets_ModeCommandEffects_10 : ∃ (m : Mach) (n : W32) (c : PendingCmd),
    m.mod.cmd = some c ∧
    c.applied = false ∧
    c.target = n ∧
    c.code = 0x11 ∧
    m.codeAllowed 0x11 = true ∧
    m.permitted 0x11 = true ∧
    m.conditionMet 0x11 = true :=
  ⟨pendM .service 0x11 twoFw, 3, pc 0x11, by decide +kernel⟩

theorem meets_ModeCommandEffects_11 : ∃ (m : Mach) (n : W32) (c : PendingCmd),
    m.mod.cmd = some c ∧
    c.applied = false ∧
    c.target = n ∧
    c.code = 0x12 ∧
    m.codeAllowed 0x12 = true ∧
    m.permitted 0x12 = true ∧
    m.conditionMet 0x12 = true :=
  ⟨pendM .service 0x12 twoSd, 3, pc 0x12, by decide +kernel⟩

theorem meets_ModeCommandEffects_12 : ∃ (m : Mach) (n : W32) (c : PendingCmd),
    m.mod.cmd = some c ∧
    c.applied = false ∧
    c.target = n ∧
    c.code = 0x13 ∧
    m.codeAllowed 0x13 = true ∧
    m.permitted 0x13 = true :=
  ⟨pendM .service 0x13 onTrialSd, 3, pc 0x13, by decide +kernel⟩

theorem meets_ModeCommandEffects_13 : ∃ (m : Mach) (n : W32) (c : PendingCmd),
    m.mod.cmd = some c ∧
    c.applied = false ∧
    c.target = n ∧
    c.code = 0x14 ∧
    m.codeAllowed 0x14 = true ∧
    m.permitted 0x14 = true :=
  ⟨pendM .service 0x14 onTrialSd, 3, pc 0x14, by decide +kernel⟩

theorem meets_ModeCommandEffects_14 : ∃ (m : Mach) (n : W32) (c : PendingCmd),
    m.mod.cmd = some c ∧
    c.applied = false ∧
    c.target = n ∧
    c.code = 0x15 ∧
    m.codeAllowed 0x15 = true ∧
    m.permitted 0x15 = true ∧
    m.conditionMet 0x15 = true :=
  ⟨pendM .service 0x15 { enrol := some [] }, 3, pc 0x15, by decide +kernel⟩

end WMode

/-! ### Witnesses: FieldSweep, ShutdownTest, LaneSlices, SanderCare -/

namespace WTest

def comm (x : ModState) : State := st (each (fun y => { y with cop := { y.cop with cycleNo := 1000 } }) { serv with mod := { x with mode := .commission, sweepState := 1 } })
def quie (x : SelfTest) : State := st { servB with mod := { mode := .quiesce }, power := { powered := true }, bench := { up := true, test := x } }
def tok (w : Nat) : Token := { serial := 0, fw := 0, written := w, fieldAt := 0, field := false, epoch := 0, check := 0 }
def tst (secs : Nat) (x : SelfTest) (f : Lane → Lane) : State :=
  st { servB.updLane .a f with bench := { up := true, secs := secs, recd := { secSeen := secs }, test := x } }
def tb (x : State) (t : Nat) : Mach := (x.m.tick t).benchTick
def goodBlock : BlockResult := passOf servB .bistA .a
def goodMarch : BlockResult := passOf servB .marchA .a
def outL (x : Lane) : Lane := { x with agr := { x.agr with life := .out, held := true } }
def duePart : SelfTest := { run := some .a }
def goodTok : Token := { tok 9 with check := Config.tokenCheck 0 servB.fwField 9 0 false 0, fw := servB.fwField }
def validTok : SelfTest := { token0 := some goodTok }
def fitT : SelfTest := { fit := true }
def unfit : SelfTest := { fieldPass := some (0, 0) }
def marchBad : List BlockResult :=
  (passing (tb (quie fitT) 2040000000)).map (fun r => if r.block = .marchA then { r with mismatches := 1 } else r)
theorem unfit_passes (c : Block) (hc : fieldBlock c = false) :
    ((tb (quie unfit) 2040000000).updTest (fun x => { x with results := passing (tb (quie unfit) 2040000000) })).blockPassed c = true := by
  have hs : ∀ r ∈ ((tb (quie unfit) 2040000000).updTest (fun x => { x with results := passing (tb (quie unfit) 2040000000) })).resultsOf c,
      ∃ l, r = passOf (tb (quie unfit) 2040000000) c l := by
    cases c <;> first | (exact absurd hc (by decide)) | (intro r h; exact ⟨.a, by simpa using (show r ∈ [passOf _ _ .a] from h)⟩) | skip
    intro r h
    have h2 : r ∈ [passOf (tb (quie unfit) 2040000000) .supervisor .a, passOf (tb (quie unfit) 2040000000) .supervisor .b,
      passOf (tb (quie unfit) 2040000000) .supervisor .c] := h
    simp only [List.mem_cons, List.not_mem_nil, or_false] at h2
    rcases h2 with h2 | h2 | h2 <;> exact ⟨_, h2⟩
  unfold Mach.blockPassed Mach.blockFailed
  have hr : ((tb (quie unfit) 2040000000).updTest (fun x => { x with results := passing (tb (quie unfit) 2040000000) })).blockRuns c = true := by
    cases c <;> first | rfl | exact absurd hc (by decide)
  rw [hr, Bool.true_and, Bool.not_eq_true', List.any_eq_false]
  intro r h
  obtain ⟨l, rfl⟩ := hs r h
  rw [passOf_item (tb (quie unfit) 2040000000) ((tb (quie unfit) 2040000000).updTest (fun x => { x with results := passing (tb (quie unfit) 2040000000) })) rfl rfl c l]
  decide
theorem march_rest (c : Block) (h : c = .callipers1 ∨ c = .callipers2 ∨ False) :
    ((tb (quie fitT) 2040000000).updTest (fun x => { x with results := marchBad })).blockFailed c = false := by
  have hs : ∀ r ∈ ((tb (quie fitT) 2040000000).updTest (fun x => { x with results := marchBad })).resultsOf c,
      r = passOf (tb (quie fitT) 2040000000) c .a := by
    rcases h with rfl | rfl | h
    · intro r h; simpa using (show r ∈ [passOf _ _ .a] from h)
    · intro r h; simpa using (show r ∈ [passOf _ _ .a] from h)
    · exact h.elim
  unfold Mach.blockFailed
  rw [List.any_eq_false]
  intro r hr
  rw [hs r hr, passOf_item (tb (quie fitT) 2040000000) ((tb (quie fitT) 2040000000).updTest (fun x => { x with results := marchBad })) rfl rfl c .a]
  decide
theorem goodTok_valid : (tb (tst 9 validTok id) 5).tokenValid goodTok = true := by
  simp only [Mach.tokenValid, beq_iff_eq, Bool.and_eq_true]
  exact ⟨⟨⟨⟨rfl, rfl⟩, rfl⟩, rfl⟩, by decide +kernel⟩
theorem meetsToken : ∃ (s : State) (t : Nat) (b : Mach), b = (s.m.tick t).benchTick ∧ b.token.isSome = true :=
  ⟨tst 9 validTok id, 5, tb (tst 9 validTok id) 5, rfl, by
    have h : (tb (tst 9 validTok id) 5).bench.test.token0 = some goodTok := rfl
    unfold Mach.token
    rw [h]
    show (if (tb (tst 9 validTok id) 5).tokenValid goodTok = true then some goodTok else _).isSome = true
    rw [if_pos goodTok_valid]
    rfl⟩

theorem meets_FieldSweep_1 : ∃ (s : State) (n : Nat) (c : W32),
    n < 24 ∧
    s.m.mod.sweepState = 1 ∧
    s.m.mod.sweepStarted = false ∧
    n = 0 ∧
    s.m.mod.sweepFrom = some c ∧
    1 ≤ (s.m.cycleNo - c).toNat ∧
    (s.m.cycleNo - c).toNat < 2 ^ 31 :=
  ⟨comm { sweepFrom := some 999 }, 0, 999, by decide +kernel⟩

theorem meets_FieldSweep_2 : ∃ (s : State) (k : Nat) (t : Nat) (c : W32) (o : OutCh),
    k < 23 ∧
    s.m.mod.sweepState = 1 ∧
    s.m.mod.sweepStarted = true ∧
    s.m.mod.sweepStep.toNat = k ∧
    s.m.mod.sweepBad = false ∧
    s.m.mod.sweepStepAt + 120000000 ≤ max s.m.now t ∧
    s.m.mod.sweepFrom = some c ∧
    1 + (k + 1) * sweepK s.m.cycleMs ≤ (s.m.cycleNo - c).toNat ∧
    (s.m.cycleNo - c).toNat < 2 ^ 31 ∧
    s.m.field.out[k]? = some o :=
  ⟨comm { sweepFrom := some 900, sweepStarted := true }, 0, 120000000, 900, {}, by decide +kernel⟩

theorem meets_FieldSweep_3 : ∃ (s : State) (c : W32),
    s.m.mod.sweepState = 1 ∧
    s.m.mod.sweepStarted = true ∧
    s.m.mod.sweepStep = 23 ∧
    s.m.mod.sweepFrom = some c ∧
    1 + 24 * sweepK s.m.cycleMs ≤ (s.m.cycleNo - c).toNat ∧
    (s.m.cycleNo - c).toNat < 2 ^ 31 :=
  ⟨comm { sweepFrom := some 0, sweepStarted := true, sweepStep := 23 }, 0, by decide +kernel⟩

theorem meets_FieldSweep_4 : ∃ (s : State),
    s.m.mod.sweepState ≠ 1 :=
  ⟨st serv, by decide +kernel⟩

theorem meets_ShutdownTest_2 : ∃ (s : State) (t : Nat),
    (s.m.mod.mode ≠ .quiesce ∨ max s.m.now t < s.m.power.quiesceAt + 2040000000) :=
  ⟨st serv, 5, by decide +kernel⟩

theorem meets_ShutdownTest_3 : ∃ (s : State) (rs : List BlockResult) (t : Nat) (b : Mach),
    b = ((s.m.tick t).benchTick).updTest (fun x => { x with results := rs }) ∧
    s.m.mod.mode = .quiesce ∧
    s.m.bench.test.judged = false ∧
    s.m.power.quiesceAt + 2040000000 ≤ max s.m.now t ∧
    max s.m.now t < s.m.power.quiesceAt + 2200000000 ∧
    (∀ c ∈ blocks, b.blockPassed c = true) :=
  by refine ⟨quie fitT, passing (tb (quie fitT) 2040000000), 2040000000, _, rfl, by decide +kernel, by decide +kernel, by decide +kernel, by decide +kernel, fun c _ => passing_blocks (tb (quie fitT) 2040000000) (by decide +kernel) (by decide +kernel) c⟩

theorem meets_ShutdownTest_4 : ∃ (s : State) (rs : List BlockResult) (w : Nat) (t : Nat) (b : Mach),
    b = ((s.m.tick t).benchTick).updTest (fun x => { x with results := rs }) ∧
    s.m.mod.mode = .quiesce ∧
    s.m.bench.test.judged = false ∧
    s.m.power.quiesceAt + 2040000000 ≤ max s.m.now t ∧
    max s.m.now t < s.m.power.quiesceAt + 2200000000 ∧
    s.m.bench.test.fit = false ∧
    (∀ c ∈ blocks, fieldBlock c = false → b.blockPassed c = true) ∧
    s.m.bench.test.fieldPass = some (w, s.m.bench.epoch) ∧
    b.benchSecs < w + 604800 ∧
    s.m.bench.test.unusDi = 0 ∧
    s.m.bench.test.unusAi = 0 ∧
    s.m.bench.test.unusDo = 0 ∧
    s.m.bench.test.unusWdog = false :=
  by refine ⟨quie unfit, passing (tb (quie unfit) 2040000000), 0, 2040000000, _, rfl, by decide +kernel, by decide +kernel, by decide +kernel, by decide +kernel, by decide +kernel, fun c _ hc => unfit_passes c hc, by decide +kernel, by decide +kernel, by decide +kernel, by decide +kernel, by decide +kernel, by decide +kernel⟩

theorem meets_ShutdownTest_5 : ∃ (s : State) (t : Nat),
    s.m.mod.mode = .quiesce ∧
    s.m.bench.test.judged = true ∧
    s.m.power.quiesceAt + 2200000000 ≤ max s.m.now t ∧
    (s.m.power.commanded = true ∨ s.m.power.supplyOk = false) :=
  ⟨quie { judged := true }, 2200000000, by decide +kernel⟩

theorem meets_ShutdownTest_6 : ∃ (s : State) (rs : List BlockResult) (t : Nat) (b : Mach),
    b = ((s.m.tick t).benchTick).updTest (fun x => { x with results := rs }) ∧
    s.m.mod.mode = .quiesce ∧
    s.m.bench.test.judged = false ∧
    s.m.bench.test.run = none ∧
    s.m.power.powered = true ∧
    s.m.power.quiesceAt + 2040000000 ≤ max s.m.now t ∧
    (b.blockFailed .callipers1 = true ∨ b.blockFailed .callipers2 = true ∨ b.blockFailed .supervisor = true) :=
  by refine ⟨quie {}, [], 2040000000, _, rfl, by decide +kernel, by decide +kernel, by decide +kernel, by decide +kernel, by decide +kernel, .inr (.inr (by decide +kernel))⟩

theorem meets_ShutdownTest_7 : ∃ (s : State) (rs : List BlockResult) (t : Nat) (l : LaneId) (b : Mach),
    b = ((s.m.tick t).benchTick).updTest (fun x => { x with results := rs }) ∧
    s.m.mod.mode = .quiesce ∧
    s.m.bench.test.judged = false ∧
    s.m.bench.test.token0 = none ∧
    s.m.power.quiesceAt + 2040000000 ≤ max s.m.now t ∧
    max s.m.now t < s.m.power.quiesceAt + 2200000000 ∧
    (b.blockFailed (laneBlocks l).1 = true ∨ b.blockFailed (laneBlocks l).2 = true) ∧
    (b.blockFailed .callipers1 = false ∧ b.blockFailed .callipers2 = false ∧ b.blockFailed .supervisor = false) :=
  by refine ⟨quie fitT, marchBad, 2040000000, .a, _, rfl, by decide +kernel, by decide +kernel, by decide +kernel, by decide +kernel, by decide +kernel, .inr (by decide +kernel), march_rest _ (.inl rfl), march_rest _ (.inr (.inl rfl)), by decide +kernel⟩

theorem meets_LaneSlices_1 : ∃ (s : State) (t : Nat) (x : Token) (b : Mach),
    b = (s.m.tick t).benchTick ∧
    b.bench.test.token0 = some x ∧
    x.epoch = b.bench.epoch ∧
    x.written + 259200 ≤ b.benchSecs :=
  ⟨tst 259200 { token0 := some (tok 0) } id, 5, tok 0, tb (tst 259200 { token0 := some (tok 0) } id) 5, rfl, by decide +kernel⟩

theorem meets_LaneSlices_2 : ∃ (s : State) (t : Nat) (x : Token) (b : Mach),
    b = (s.m.tick t).benchTick ∧
    b.bench.test.token0 = some x ∧
    b.benchSecs < x.written + 259200 :=
  ⟨tst 259199 { token0 := some (tok 0) } id, 5, tok 0, tb (tst 259199 { token0 := some (tok 0) } id) 5, rfl, by decide +kernel⟩

theorem meets_LaneSlices_3 : ∃ (s : State) (l : LaneId) (t : Nat) (b : Mach),
    b = (s.m.tick t).benchTick ∧
    b.token = none ∧
    inMask b.bench.test.due l = false ∧
    inMask b.bench.test.unusLanes l = false ∧
    b.bench.test.dueIn b.benchSecs l = 0 :=
  ⟨tst 9 {} id, .a, 5, tb (tst 9 {} id) 5, rfl, by decide +kernel⟩

theorem meets_LaneSlices_4 : ∃ (s : State) (t : Nat) (b : Mach),
    b = (s.m.tick t).benchTick ∧
    b.token.isSome = true :=
  by exact meetsToken

theorem meets_LaneSlices_5 : ∃ (s : State) (l : LaneId) (t : Nat) (b : Mach),
    b = (s.m.tick t).benchTick ∧
    b.bench.test.nextDue = some l ∧
    b.sliceMayAsk = true :=
  ⟨tst 9 { due := 1 } id, .a, 5, tb (tst 9 { due := 1 } id) 5, rfl, by decide +kernel⟩

theorem meets_LaneSlices_6 : ∃ (s : State) (l : LaneId) (x : BlockResult) (y : BlockResult) (t : Nat) (b : Mach),
    b = (s.m.tick t).benchTick ∧
    b.bench.test.run = some l ∧
    (b.lane l).agr.life = .out ∧
    (b.lane l).agr.outAt + 400000000 ≤ b.now ∧
    b.failedItem 320 { x with block := (laneBlocks l).1 } = 0 ∧
    b.failedItem 400 { y with block := (laneBlocks l).2 } = 0 :=
  ⟨tst 9 duePart outL, .a, goodBlock, goodMarch, 400000000, tb (tst 9 duePart outL) 400000000, by exact ⟨rfl, by decide +kernel, by decide +kernel, by decide +kernel, passOf_item servB (tb (tst 9 duePart outL) 400000000) rfl rfl .bistA .a, by decide +kernel⟩⟩

theorem meets_LaneSlices_7 : ∃ (s : State) (l : LaneId) (x : BlockResult) (y : BlockResult) (t : Nat) (b : Mach),
    b = (s.m.tick t).benchTick ∧
    b.bench.test.run = some l ∧
    (b.lane l).agr.life = .out ∧
    (b.lane l).agr.outAt + 400000000 ≤ b.now ∧
    (b.failedItem 320 { x with block := (laneBlocks l).1 } ≠ 0 ∨ b.failedItem 400 { y with block := (laneBlocks l).2 } ≠ 0) :=
  ⟨tst 9 duePart outL, .a, goodBlock, { goodMarch with count := 1 }, 400000000, tb (tst 9 duePart outL) 400000000, by exact ⟨rfl, by decide +kernel, by decide +kernel, by decide +kernel, .inr (by decide +kernel)⟩⟩

theorem meets_LaneSlices_8 : ∃ (s : State) (l : LaneId) (t : Nat) (b : Mach),
    b = (s.m.tick t).benchTick ∧
    inMask b.bench.test.overdue l = false ∧
    b.token = none ∧
    inMask b.bench.test.due l = true ∧
    b.bench.test.dueAt.get l + 172800 ≤ b.benchSecs :=
  ⟨tst 172800 { due := 1 } id, .a, 5, tb (tst 172800 { due := 1 } id) 5, rfl, by decide +kernel⟩

theorem meets_LaneSlices_9 : ∃ (s : State) (l : LaneId) (t : Nat) (b : Mach),
    b = (s.m.tick t).benchTick ∧
    inMask b.bench.test.overdue l = true :=
  ⟨tst 172800 { due := 1, overdue := 1 } id, .a, 5, tb (tst 172800 { due := 1, overdue := 1 } id) 5, rfl, by decide +kernel⟩

theorem meets_SanderCare_1 : ∃ (s : State) (l : LaneId) (t : Nat),
    (s.m.lane l).agr.life ≠ .out ∧
    (s.m.lane l).phase = .asleep ∧
    (s.m.lane l).awake = false ∧
    (s.m.lane l).sleepEnd ≤ max s.m.now t ∧
    (s.m.lane l).snd.nextDue ≤ max s.m.now t ∧
    (s.m.evaluates = true ∧ runsCycles (s.m.lane l) = true → max s.m.now t + 18000 ≤ (s.m.lane l).t0 + s.m.cycleNs) :=
  ⟨st serv, .a, 5, by decide +kernel⟩

theorem meets_SanderCare_2 : ∃ (s : State) (l : LaneId) (t : Nat),
    (s.m.lane l).agr.life ≠ .out ∧
    (s.m.lane l).phase = .asleep ∧
    (s.m.lane l).awake = false ∧
    (s.m.lane l).sleepEnd ≤ max s.m.now t ∧
    (s.m.lane l).snd.nextDue ≤ max s.m.now t ∧
    (s.m.evaluates = true ∧ runsCycles (s.m.lane l) = true → max s.m.now t + 18000 ≤ (s.m.lane l).t0 + s.m.cycleNs) :=
  ⟨st serv, .a, 5, by decide +kernel⟩

theorem meets_SanderCare_3 : ∃ (s : State) (l : LaneId) (k : Nat) (t : Nat),
    k < 8 ∧
    (s.m.lane l).snd.pos.toNat < 131072 ∧
    (s.m.lane l).agr.life ≠ .out ∧
    (s.m.lane l).phase = .asleep ∧
    (s.m.lane l).awake = false ∧
    (s.m.lane l).sleepEnd ≤ max s.m.now t ∧
    (s.m.lane l).snd.nextDue ≤ max s.m.now t ∧
    (s.m.evaluates = true ∧ runsCycles (s.m.lane l) = true → max s.m.now t + 18000 ≤ (s.m.lane l).t0 + s.m.cycleNs) :=
  ⟨st serv, .a, 3, 5, by decide +kernel⟩

theorem meets_SanderCare_4 : ∃ (s : State) (l : LaneId) (t : Nat),
    ((s.m.lane l).agr.life = .out ∨ (s.m.lane l).phase ≠ .asleep ∨ (s.m.lane l).awake = true ∨ max s.m.now t < (s.m.lane l).sleepEnd ∨
      max s.m.now t < (s.m.lane l).snd.nextDue ∨
      (s.m.evaluates = true ∧ runsCycles (s.m.lane l) = true ∧ (s.m.lane l).t0 + s.m.cycleNs < max s.m.now t + 18000)) :=
  ⟨st (serv.updLane .a outL), .a, 5, by decide +kernel⟩

theorem meets_SanderCare_5 : ∃ (s : State) (l : LaneId) (t : Nat),
    (s.m.lane l).agr.life ≠ .out ∧
    (s.m.lane l).snd.late = false ∧
    (s.m.lane l).snd.passFrom + 21600000000000 < max s.m.now t :=
  ⟨st serv, .a, 21600000000001, by decide +kernel⟩

theorem meets_SanderCare_6 : ∃ (s : State) (l : LaneId) (t : Nat),
    max s.m.now t ≤ (s.m.lane l).snd.passFrom + 21600000000000 :=
  ⟨st serv, .a, 21600000000000, by decide +kernel⟩

end WTest

/-! ### Witnesses: SensorReadings, NoticeRecording, AnchorsAndStationTime, FlashRing -/

namespace WBench

def hd0 : MntHead := { ip := 9, port := 27340, whole := true, magic := 0x5750, version := 1, length := 0, crc := 0 }
def bst (x : Bench) : State := st { serv with bench := { x with up := true } }
def tb (x : State) (t : Nat) : Mach := (x.m.tick t).benchTick
def hot : State := bst { sens := { runs := List.replicate 22 2 } }
def warned (t : Option Nat) : State := bst { sens := { warn := 0xFFFFFF, inside := List.replicate 22 t } }
def note (code : W16) (c : Option W32) : Notice := { code := code, unit := 0x11300000, inst := 0xFFFF, p0 := 5, p1 := 6, cycle := c, ec := [(0x46, 0xFF)] }
def counting : List EventCounter := List.replicate 32 { src := 0x46, qual := 0xFF, sat := false, count := 0xFFFFFFFF }
def recS (x : Recorder) : State := bst { recd := x, ec := counting }
def rec1 (n : Nat) (flags : Byte) (c : W32) : Rec := { seq := n, code := 0xB001, unit := 0x11300000, inst := 0xFFFF, flags := flags, snapv := 0, p0 := 5, p1 := 6, snaps := [1, 2, 3], repCount := c }
def folding : State :=
  st { serv with bench := { up := true, recd := { ram := [rec1 0 0 0, rec1 1 0 7], openRec := true, next := 2 },
                            upd := { sdA := { state := .active, station := some { sd with settings := { sd.settings with recMode := true } } } } } }
def laneQ : State := st { servB.updLane .b (fun x => { x with phase := .asleep, queue := { items := [note 0x1001 none], dropped := 0 } }) with bench := { up := true } }
def fifos : State := st { servB with cal := { servB.cal with fifo := { items := [note 0x1001 (some 4)], dropped := 2 } } }
def setter : Mach := { serv with bench := { up := true }, sd := some { sd with ring1 := { sd.ring1 with used := true, lead := true } }, ring1 := { serv.ring1 with role := 1 } }
def fl (x : Recorder) : State := recS { x with ram := [rec1 3 0 0, rec1 4 0 0], next := 5 }
def sec (n : Nat) : FlashSector := { no := n, device := sectorDevice n, header := sectorHeader 2 1, recs := [rec1 2 0 0] }

theorem meets_SensorReadings_1 : ∃ (s : State) (t : Nat) (b : Mach),
    b = (s.m.tick t).benchTick ∧
    b.bench.up = true :=
  ⟨hot, 5, tb hot 5, rfl, by decide +kernel⟩

theorem meets_SensorReadings_2 : ∃ (s : State) (t : Nat) (b : Mach),
    b = (s.m.tick t).benchTick ∧
    b.bench.up = true :=
  ⟨hot, 5, tb hot 5, rfl, by decide +kernel⟩

theorem meets_SensorReadings_3 : ∃ (s : State) (x : Nat) (y : Nat) (z : Nat) (t : Nat) (b : Mach),
    b = (s.m.tick t).benchTick ∧
    b.bench.up = true ∧
    ((b.benchSet.bind (fun q => q.shockThr)).getD 15 * 100 < x ∨ (b.benchSet.bind (fun q => q.shockThr)).getD 15 * 100 < y ∨
      (b.benchSet.bind (fun q => q.shockThr)).getD 15 * 100 < z) :=
  ⟨hot, 100, 1501, 70000, 5, tb hot 5, rfl, by decide +kernel⟩

theorem meets_SensorReadings_4 : ∃ (s : State) (x : Nat) (y : Nat) (z : Nat) (t : Nat) (b : Mach),
    b = (s.m.tick t).benchTick ∧
    x ≤ (b.benchSet.bind (fun q => q.shockThr)).getD 15 * 100 ∧
    y ≤ (b.benchSet.bind (fun q => q.shockThr)).getD 15 * 100 ∧
    z ≤ (b.benchSet.bind (fun q => q.shockThr)).getD 15 * 100 ∧
    b.bench.up = true :=
  ⟨hot, 1500, 0, 1, 5, tb hot 5, rfl, by decide +kernel⟩

theorem meets_SensorReadings_5 : ∃ (s : State) (idx : Nat) (t : Nat) (c : Nat) (b : Mach),
    b = (s.m.tick t).benchTick ∧
    b.bench.up = true ∧
    b.bench.sens.warn.getLsbD idx = true ∧
    b.bench.sens.inside[idx]? = some (some c) ∧
    c + 10000000000 ≤ max s.m.now t :=
  ⟨warned (some 5), 20, 10000000005, 5, tb (warned (some 5)) 10000000005, rfl, by decide +kernel⟩

theorem meets_SensorReadings_6 : ∃ (s : State) (idx : Nat) (t : Nat) (c : Nat) (b : Mach),
    b = (s.m.tick t).benchTick ∧
    b.bench.sens.inside[idx]? = some (some c) ∧
    max s.m.now t < c + 10000000000 :=
  ⟨warned (some 5), 20, 10000000004, 5, tb (warned (some 5)) 10000000004, rfl, by decide +kernel⟩

theorem meets_SensorReadings_7 : ∃ (s : State) (idx : Nat) (t : Nat) (b : Mach),
    b = (s.m.tick t).benchTick ∧
    b.bench.sens.inside[idx]? = some none :=
  ⟨warned none, 20, 10000000004, tb (warned none) 10000000004, rfl, by decide +kernel⟩

theorem meets_SensorReadings_8 : ∃ (m : Mach),
    m.pair.asked = [] :=
  ⟨serv, by decide +kernel⟩

theorem meets_NoticeRecording_1 : ∃ (s : State) (n : Notice) (t : Nat) (b : Mach),
    b = (s.m.tick t).benchTick ∧
    b.bench.up = true ∧
    b.bench.recd.recent.any (sameNotice n) = false ∧
    b.benchSet.any (fun z => z.recMode) = false ∧
    (unlimited n.code = true ∨ (b.takeToken n.code).1 = true) ∧
    b.bench.recd.frozen = none ∧
    b.bench.recd.uncommitted.length < 16384 :=
  ⟨recS { next := 9 }, note 0xB001 (some 4), 5, tb (recS { next := 9 }) 5, rfl, by decide +kernel⟩

theorem meets_NoticeRecording_2 : ∃ (s : State) (n : Notice) (t : Nat) (b : Mach),
    b = (s.m.tick t).benchTick ∧
    b.bench.up = true ∧
    b.bench.recd.recent.any (sameNotice n) = true :=
  ⟨recS { recent := [note 0xB001 (some 2)] }, note 0xB001 (some 4), 5, tb (recS { recent := [note 0xB001 (some 2)] }) 5, rfl, by decide +kernel⟩

theorem meets_NoticeRecording_3 : ∃ (s : State) (n : Notice) (t : Nat) (b : Mach),
    b = (s.m.tick t).benchTick ∧
    b.bench.up = true ∧
    b.bench.recd.recent.any (sameNotice n) = false ∧
    b.benchSet.any (fun z => z.recMode) = false ∧
    unlimited n.code = false ∧
    (b.takeToken n.code).1 = false :=
  ⟨recS { buckets := [{ code := 0xB001, tokens := 0, from0 := 0 }] }, note 0xB001 (some 4), 5, tb (recS { buckets := [{ code := 0xB001, tokens := 0, from0 := 0 }] }) 5, rfl, by decide +kernel⟩

theorem meets_NoticeRecording_4 : ∃ (s : State) (n : Notice) (t : Nat) (b : Mach),
    b = (s.m.tick t).benchTick ∧
    b.bench.up = true ∧
    b.bench.recd.recent.any (sameNotice n) = false ∧
    unlimited n.code = true ∧
    b.benchSet.any (fun z => z.recMode) = false ∧
    b.bench.recd.frozen.isSome = true ∧
    b.bench.recd.queue.length < 256 :=
  ⟨recS { frozen := some (.host, 0, 1), queue := [rec1 0 0 0] }, note 0x1001 (some 4), 5, tb (recS { frozen := some (.host, 0, 1), queue := [rec1 0 0 0] }) 5, rfl, by decide +kernel⟩

theorem meets_NoticeRecording_5 : ∃ (s : State) (n : Notice) (t : Nat) (b : Mach) (xs : List Rec) (x : Rec),
    b = (s.m.tick t).benchTick ∧
    b.bench.up = true ∧
    b.bench.recd.recent.any (sameNotice n) = false ∧
    b.benchSet.any (fun z => z.recMode) = true ∧
    b.bench.recd.openRec = true ∧
    b.bench.recd.frozen = none ∧
    b.bench.recd.ram = xs ++ [x] ∧
    (x.code = n.code ∧ x.unit = n.unit ∧ x.inst = n.inst ∧ x.p0 = n.p0 ∧ x.p1 = n.p1) :=
  ⟨folding, note 0xB001 (some 4), 5, tb folding 5, [rec1 0 0 0], rec1 1 0 7, by decide +kernel⟩

theorem meets_NoticeRecording_6 : ∃ (s : State) (n : Notice) (l : LaneId) (k : Nat),
    s.m.bench.up = false ∧
    addrPath n.unit = [1, laneCode l, k] :=
  ⟨st serv, { note 0xB001 (some 4) with unit := pathAddr [1, 1, 3] }, .a, 3, by decide +kernel⟩

theorem meets_NoticeRecording_7 : ∃ (s : State) (l : LaneId) (n : Notice) (t : Nat) (b : Mach),
    b = (s.m.tick t).benchTick ∧
    b.bench.up = true ∧
    b.grants l = true ∧
    (b.lane l).queue.items = [n] ∧
    (b.lane l).queue.dropped = 0 :=
  ⟨laneQ, .b, note 0x1001 none, 5, tb laneQ 5, rfl, by decide +kernel⟩

theorem meets_NoticeRecording_8 : ∃ (s : State) (l : LaneId) (t : Nat) (b : Mach),
    b = (s.m.tick t).benchTick ∧
    b.grants l = false :=
  ⟨st { pow with bench := { up := true } }, .a, 5, tb (st { pow with bench := { up := true } }) 5, rfl, by decide +kernel⟩

theorem meets_NoticeRecording_9 : ∃ (s : State) (t : Nat) (b : Mach),
    b = (s.m.tick t).benchTick ∧
    b.bench.up = true :=
  ⟨fifos, 5, tb fifos 5, rfl, by decide +kernel⟩

theorem meets_NoticeRecording_10 : ∃ (s : State) (t : Nat) (x : Suppressed) (b : Mach),
    b = (s.m.tick t).benchTick ∧
    b.bench.up = true ∧
    b.bench.recd.sumSec < b.benchSecs ∧
    b.bench.recd.pendSupp = [x] ∧
    b.bench.recd.frozen = none ∧
    b.bench.recd.uncommitted.length < 16384 :=
  ⟨bst { secs := 1, recd := { secSeen := 1, pendSupp := [{ code := 0xB001, count := 3, unit := 9 }] } }, 5, { code := 0xB001, count := 3, unit := 9 }, tb (bst { secs := 1, recd := { secSeen := 1, pendSupp := [{ code := 0xB001, count := 3, unit := 9 }] } }) 5, rfl, by decide +kernel⟩

theorem meets_NoticeRecording_11 : ∃ (s : State) (t : Nat) (b : Mach),
    b = (s.m.tick t).benchTick ∧
    b.benchSecs ≤ b.bench.recd.sumSec :=
  ⟨bst { secs := 1, recd := { secSeen := 1, sumSec := 1 } }, 5, tb (bst { secs := 1, recd := { secSeen := 1, sumSec := 1 } }) 5, rfl, by decide +kernel⟩

theorem meets_AnchorsAndStationTime_1 : ∃ (s : State) (t : Nat) (b : Mach),
    b = (s.m.tick t).benchTick ∧
    b.bench.up = true ∧
    b.bench.recd.frozen = none ∧
    b.bench.recd.anchorKey ≠ some b.anchorSecond ∧
    b.bench.recd.anchorRuns b.anchorMs = false ∧
    b.bench.recd.uncommitted.length < 16384 :=
  ⟨recS { stimeOk := true, stime := 5000, anchored := some 6000 }, 5, tb (recS { stimeOk := true, stime := 5000, anchored := some 6000 }) 5, rfl, by decide +kernel⟩

theorem meets_AnchorsAndStationTime_2 : ∃ (s : State) (t : Nat) (xs : List Rec) (x : Rec) (b : Mach),
    b = (s.m.tick t).benchTick ∧
    b.bench.up = true ∧
    b.bench.recd.frozen = none ∧
    b.bench.recd.anchorKey ≠ some b.anchorSecond ∧
    b.bench.recd.ram = xs ++ [x] ∧
    x.flags.getLsbD 7 = true ∧
    b.bench.recd.openRec = true ∧
    b.bench.recd.anchorTime + 990 ≤ b.anchorMs ∧
    b.anchorMs ≤ b.bench.recd.anchorTime + 1010 ∧
    x.repCount.toNat < 59 :=
  ⟨recS { stimeOk := true, stime := 6005, anchorTime := 5000, openRec := true, ram := [rec1 0 0x80 58] }, 5, [], rec1 0 0x80 58, tb (recS { stimeOk := true, stime := 6005, anchorTime := 5000, openRec := true, ram := [rec1 0 0x80 58] }) 5, rfl, by decide +kernel⟩

theorem meets_AnchorsAndStationTime_3 : ∃ (s : State) (t : Nat) (xs : List Rec) (x : Rec) (b : Mach),
    b = (s.m.tick t).benchTick ∧
    b.bench.up = true ∧
    b.bench.recd.frozen = none ∧
    b.bench.recd.anchorKey ≠ some b.anchorSecond ∧
    b.bench.recd.ram = xs ++ [x] ∧
    x.flags.getLsbD 7 = true ∧
    b.bench.recd.openRec = true ∧
    b.bench.recd.anchorTime + 990 ≤ b.anchorMs ∧
    b.anchorMs ≤ b.bench.recd.anchorTime + 1010 ∧
    x.repCount.toNat = 59 :=
  ⟨recS { stimeOk := true, stime := 6005, anchorTime := 5000, openRec := true, ram := [rec1 0 0x84 59] }, 5, [], rec1 0 0x84 59, tb (recS { stimeOk := true, stime := 6005, anchorTime := 5000, openRec := true, ram := [rec1 0 0x84 59] }) 5, rfl, by decide +kernel⟩

theorem meets_AnchorsAndStationTime_4 : ∃ (s : State) (t : Nat) (b : Mach),
    b = (s.m.tick t).benchTick ∧
    (b.bench.recd.frozen.isSome = true ∨ b.bench.recd.anchorKey = some b.anchorSecond) :=
  ⟨recS { stimeOk := true, stime := 6005, anchorKey := some (true, 6) }, 5, tb (recS { stimeOk := true, stime := 6005, anchorKey := some (true, 6) }) 5, rfl, by decide +kernel⟩

theorem meets_AnchorsAndStationTime_5 : ∃ (s : State) (t : Nat) (b : Mach),
    b = (s.m.tick t).benchTick ∧
    b.bench.recd.stimeOk = true ∧
    (b.bench.recd.okAt + 10000000000 ≤ max s.m.now t ∨ b.bench.clkLost = true) :=
  ⟨recS { stimeOk := true, okAt := 0, secSeen := 10 }, 10000000000, tb (recS { stimeOk := true, okAt := 0, secSeen := 10 }) 10000000000, rfl, by decide +kernel⟩

theorem meets_AnchorsAndStationTime_6 : ∃ (s : State) (t : Nat) (b : Mach),
    b = (s.m.tick t).benchTick ∧
    max s.m.now t < b.bench.recd.okAt + 10000000000 ∧
    b.bench.clkLost = false :=
  ⟨recS { stimeOk := true, okAt := 0, secSeen := 10 }, 9999999999, tb (recS { stimeOk := true, okAt := 0, secSeen := 10 }) 9999999999, rfl, by decide +kernel⟩

theorem meets_AnchorsAndStationTime_7 : ∃ (s : State) (via : Via) (sess : Sess) (lo : W32) (hi : W32) (t : Nat) (b : Mach),
    b = (s.m.tick t).benchTick ∧
    sess = viaSess via ∧
    mayWrite s t via (regOf (benchPath 3) 0x05C) [lo, hi] true b = true ∧
    b.timeSetter = true :=
  ⟨st setter, .host, .host, 0xFFFFFFFF, 0x10002, 5, tb (st setter) 5, rfl, by decide +kernel⟩

theorem meets_AnchorsAndStationTime_8 : ∃ (s : State) (via : Via) (sess : Sess) (lo : W32) (hi : Option W32) (t : Nat) (b : Mach),
    b = (s.m.tick t).benchTick ∧
    sess = viaSess via ∧
    mayWrite s t via (regOf (benchPath 3) 0x05C) (lo :: hi.toList) true b = true ∧
    (b.timeSetter = false ∨ hi = none) :=
  ⟨st servB, .host, .host, 7, some 8, 5, tb (st servB) 5, rfl, by decide +kernel⟩

theorem meets_FlashRing_1 : ∃ (s : State) (t : Nat) (x : FlashSector) (ys : List FlashSector) (b : Mach),
    b = (s.m.tick t).benchTick ∧
    b.bench.up = true ∧
    b.bench.recd.frozen = none ∧
    b.bench.recd.flash = ys ++ [x] ∧
    b.bench.recd.bad.contains x.no = false ∧
    b.bench.recd.toCommit ≠ [] ∧
    x.recs.length + b.bench.recd.toCommit.length ≤ 1023 :=
  ⟨fl { flash := [sec 0, sec 1], openRec := true }, 5, sec 1, [sec 0], tb (fl { flash := [sec 0, sec 1], openRec := true }) 5, rfl, by decide +kernel⟩

theorem meets_FlashRing_2 : ∃ (s : State) (t : Nat) (k : Nat) (r : Rec) (b : Mach),
    b = (s.m.tick t).benchTick ∧
    b.bench.up = true ∧
    b.bench.recd.frozen = none ∧
    b.bench.recd.flash = [] ∧
    b.bench.recd.erased = some k ∧
    b.bench.recd.toCommit = [r] :=
  ⟨recS { erased := some 0, ram := [rec1 3 0 0] }, 5, 0, rec1 3 0 0, tb (recS { erased := some 0, ram := [rec1 3 0 0] }) 5, rfl, by decide +kernel⟩

theorem meets_FlashRing_3 : ∃ (s : State) (t : Nat) (k : Nat) (b : Mach),
    b = (s.m.tick t).benchTick ∧
    b.bench.up = true ∧
    b.bench.recd.frozen = none ∧
    b.bench.recd.toCommit ≠ [] ∧
    b.bench.recd.current = none ∧
    b.bench.recd.erased = some k :=
  ⟨recS { erased := some 0, ram := [rec1 3 0 0] }, 5, 0, tb (recS { erased := some 0, ram := [rec1 3 0 0] }) 5, rfl, by decide +kernel⟩

theorem meets_FlashRing_4 : ∃ (s : State) (t : Nat) (b : Mach),
    b = (s.m.tick t).benchTick ∧
    (b.bench.recd.frozen.isSome = true ∨ b.bench.recd.toCommit = []) :=
  ⟨recS { frozen := some (.host, 0, 3), ram := [rec1 3 0 0] }, 5, tb (recS { frozen := some (.host, 0, 3), ram := [rec1 3 0 0] }) 5, rfl, by decide +kernel⟩

theorem meets_FlashRing_5 : ∃ (s : State) (t : Nat) (k : Nat) (b : Mach),
    b = (s.m.tick t).benchTick ∧
    b.bench.up = true ∧
    b.bench.recd.frozen = none ∧
    b.bench.recd.erased = none ∧
    b.bench.recd.nextSector = some k :=
  ⟨fl { flash := [sec 0, sec 511], erased := none, bad := [0] }, 5, 1, tb (fl { flash := [sec 0, sec 511], erased := none, bad := [0] }) 5, rfl, by decide +kernel⟩

theorem meets_FlashRing_6 : ∃ (s : State) (t : Nat) (k : Nat) (b : Mach),
    b = (s.m.tick t).benchTick ∧
    b.bench.up = true ∧
    b.bench.recd.frozen = none ∧
    b.bench.recd.erased = none ∧
    b.bench.recd.nextSector = some k :=
  ⟨fl { flash := [sec 0, sec 511], erased := none, bad := [0] }, 5, 1, tb (fl { flash := [sec 0, sec 511], erased := none, bad := [0] }) 5, rfl, by decide +kernel⟩

theorem meets_FlashRing_7 : ∃ (s : State) (t : Nat) (b : Mach),
    b = (s.m.tick t).benchTick ∧
    (b.bench.recd.frozen.isSome = true ∨ b.bench.recd.erased.isSome = true) :=
  ⟨fl { erased := some 3 }, 5, tb (fl { erased := some 3 }) 5, rfl, by decide +kernel⟩

theorem meets_FlashRing_8 : ∃ (r : Recorder) (n : Nat) (k : Nat) (x : FlashSector),
    r.flash.getLast? = some x ∧
    k < 512 ∧
    (∀ j, j < k → r.bad.contains ((x.no + 1 + j) % 512) = true) ∧
    r.bad.contains ((x.no + 1 + k) % 512) = false ∧
    n = (x.no + 1 + k) % 512 :=
  ⟨{ flash := [sec 510], bad := [511, 0] }, 1, 2, sec 510, by and_intros <;> decide +kernel⟩

end WBench

/-! ### Witnesses: RecorderFreeze, RegisterWrites -/

namespace WRegs

def recb (x : Recorder) : State := st { serv with bench := { up := true, host := { host := some {} }, recd := x } }
def dgram (a : W32) (data : List W32) : MntHead :=
  let payload := spanBytes a data.length ++ data.flatMap bytes32
  let h : MntHead := { ip := 9, port := 27340, whole := true, magic := 0x5750, version := 1, length := BitVec.ofNat 16 payload.length, crc := 0 }
  { h with crc := crc32 (requestBytes h 0x04 2 1 payload) }
def by2 (a : W32) (data : List W32) : Via := .mnt (dgram a data) 2 1
def tb (x : State) (t : Nat) : Mach := (x.m.tick t).benchTick
def rec1 (n : Nat) (flags : Byte) (c : W32) : Rec := { seq := n, code := 0xB001, unit := 0x11300000, inst := 0xFFFF, flags := flags, snapv := 0, p0 := 5, p1 := 6, snaps := [1, 2, 3], repCount := c }
def gone : State := st { serv with bench := { up := true, host := { opens := 2 }, recd := { frozen := some (.host, 2, 3) } } }
def heldR : Recorder := { frozen := some (.host, 0, 3), ram := [rec1 0 0 0], next := 1, queue := [rec1 0 0 0, { rec1 0 0 0 with code := 0x1001 }] }
def ses (lv : Level) : MntSession := { id := 2, ip := 9, level := lv, challenge := 0, authed := true, seq := 0, sess := { chan := [(7, 3)], mask := [(3, 9)] } }
def two (lv : Level) : Mach :=
  { servB with bench := { up := true, host := { host := some { chan := [(8, 1)] } }, mnt := { sessions := [ses lv] } }, irq := [(3, 0xFF)] }
def ecSel : State := st { servB with bench := { up := true, host := { host := some { chan := [(Page.counters.no, 31)] } } } }
def ecSeenNow : State := { ecSel with m := { ecSel.m with bench := { ecSel.m.bench with ecSeen := (0, [(0x46, 0x17)]) } } }
def snapd : Mach := (two .read).updLane .c (fun x => { x with t0 := 3, cop := { x.cop with snapFrom := some 2 }, agr := { x.agr with snapFrom := some 2 } })
def snapV : Mach := { snapd with cal := { snapd.cal with vote := { snapd.cal.vote with snapFrom := some 2 } } }
def upd1 : State := st { two .write with bench := { (two .write).bench with upd := { state := 2, kind := some .firmware, slot := .b, fwB := { state := .loading }, fwA := { state := .active } } } }

theorem meets_RecorderFreeze_1 : ∃ (s : State) (via : Via) (sess : Sess) (t : Nat) (b : Mach),
    b = (s.m.tick t).benchTick ∧
    sess = viaSess via ∧
    mayWrite s t via (regOf (benchPath 3) 0x020) [1] true b = true ∧
    b.bench.recd.frozen = none ∧
    b.freezeRefused sess = false :=
  ⟨recb { ram := [rec1 0 4 0], openRec := true, next := 1 }, .host, .host, 5, tb (recb { ram := [rec1 0 4 0], openRec := true, next := 1 }) 5, rfl, by decide +kernel⟩

theorem meets_RecorderFreeze_2 : ∃ (s : State) (via : Via) (sess : Sess) (t : Nat) (b : Mach),
    b = (s.m.tick t).benchTick ∧
    sess = viaSess via ∧
    mayWrite s t via (regOf (benchPath 3) 0x020) [1] true b = true ∧
    ((b.session sess).isSome = true ∨ b.bench.recd.frozen = none) ∧
    b.freezeRefused sess = true :=
  ⟨recb { releasedAt := some 0 }, .host, .host, 1999999999, tb (recb { releasedAt := some 0 }) 1999999999, rfl, by decide +kernel⟩

theorem meets_RecorderFreeze_3 : ∃ (s : State) (via : Via) (sess : Sess) (t : Nat) (c : Nat) (b : Mach),
    b = (s.m.tick t).benchTick ∧
    sess = viaSess via ∧
    mayWrite s t via (regOf (benchPath 3) 0x020) [1] true b = true ∧
    (b.session sess).isSome = true ∧
    b.bench.recd.frozen = some (sess, b.sessOpen sess, c) :=
  ⟨recb { frozen := some (.host, 0, 3) }, .host, .host, 5, 3, tb (recb { frozen := some (.host, 0, 3) }) 5, rfl, by decide +kernel⟩

theorem meets_RecorderFreeze_5 : ∃ (s : State) (via : Via) (sess : Sess) (t : Nat) (c : Nat) (b : Mach),
    b = (s.m.tick t).benchTick ∧
    sess = viaSess via ∧
    mayWrite s t via (regOf (benchPath 3) 0x020) [2] true b = true ∧
    (b.session sess).isSome = true ∧
    b.bench.recd.frozen = some (sess, b.sessOpen sess, c) ∧
    b.bench.recd.queue = [] ∧
    b.bench.recd.lostNow = 0 :=
  ⟨recb { frozen := some (.host, 0, 3) }, .host, .host, 5, 3, tb (recb { frozen := some (.host, 0, 3) }) 5, rfl, by decide +kernel⟩

theorem meets_RecorderFreeze_6 : ∃ (s : State) (via : Via) (sess : Sess) (t : Nat) (c : Nat) (x : Rec) (y : Rec) (b : Mach),
    b = (s.m.tick t).benchTick ∧
    sess = viaSess via ∧
    mayWrite s t via (regOf (benchPath 3) 0x020) [2] true b = true ∧
    (b.session sess).isSome = true ∧
    b.bench.recd.frozen = some (sess, b.sessOpen sess, c) ∧
    b.bench.recd.queue = [x, y] ∧
    b.bench.recd.lostNow = 0 ∧
    b.bench.recd.uncommitted.length < 16000 ∧
    b.bench.recd.ram.length < 16000 ∧
    b.bench.recd.next < 2 ^ 47 :=
  ⟨recb heldR, .host, .host, 5, 3, rec1 0 0 0, { rec1 0 0 0 with code := 0x1001 }, tb (recb heldR) 5, rfl, by decide +kernel⟩

theorem meets_RecorderFreeze_7 : ∃ (s : State) (via : Via) (sess : Sess) (t : Nat) (c : Nat) (n : Nat) (b : Mach),
    b = (s.m.tick t).benchTick ∧
    sess = viaSess via ∧
    mayWrite s t via (regOf (benchPath 3) 0x020) [2] true b = true ∧
    (b.session sess).isSome = true ∧
    b.bench.recd.frozen = some (sess, b.sessOpen sess, c) ∧
    b.bench.recd.queue = [] ∧
    b.bench.recd.lostNow = n + 1 ∧
    b.bench.recd.uncommitted.length < 16384 :=
  ⟨recb { frozen := some (.host, 0, 3), lostNow := 2 }, .host, .host, 5, 3, 1, tb (recb { frozen := some (.host, 0, 3), lostNow := 2 }) 5, rfl, by decide +kernel⟩

theorem meets_RecorderFreeze_8 : ∃ (s : State) (via : Via) (sess : Sess) (h : Sess) (t : Nat) (k : Nat) (c : Nat) (b : Mach),
    b = (s.m.tick t).benchTick ∧
    sess = viaSess via ∧
    mayWrite s t via (regOf (benchPath 3) 0x020) [2] true b = true ∧
    (b.session sess).isSome = true ∧
    b.bench.recd.frozen = some (h, k, c) ∧
    ¬(h = sess ∧ k = b.sessOpen sess) :=
  ⟨recb { frozen := some (.mnt 4, 0, 3) }, .host, .host, .mnt 4, 5, 0, 3, tb (recb { frozen := some (.mnt 4, 0, 3) }) 5, rfl, by decide +kernel⟩

theorem meets_RecorderFreeze_9 : ∃ (s : State) (t : Nat) (k : Nat) (c : Nat) (b : Mach),
    b = (s.m.tick t).benchTick ∧
    b.benchServes = true ∧
    b.bench.mnt.waiting = [] ∧
    b.session .host = none ∧
    b.bench.recd.frozen = some (.host, k, c) ∧
    k ≤ b.sessOpen .host :=
  ⟨gone, 5, 2, 3, tb gone 5, rfl, by decide +kernel⟩

theorem meets_RecorderFreeze_10 : ∃ (s : State) (h : Sess) (t : Nat) (k : Nat) (c : Nat) (b : Mach),
    b = (s.m.tick t).benchTick ∧
    b.bench.recd.frozen = some (h, k, c) ∧
    c + 5000000000 ≤ max s.m.now t ∧
    b.bench.recd.queue = [] ∧
    b.bench.recd.lostNow = 0 ∧
    b.bench.recd.uncommitted.length < 16384 :=
  ⟨recb { frozen := some (.mnt 4, 0, 3), secSeen := 5 }, .mnt 4, 5000000003, 0, 3, tb (recb { frozen := some (.mnt 4, 0, 3), secSeen := 5 }) 5000000003, rfl, by decide +kernel⟩

theorem meets_RecorderFreeze_11 : ∃ (s : State) (h : Sess) (t : Nat) (k : Nat) (c : Nat) (b : Mach),
    b = (s.m.tick t).benchTick ∧
    b.bench.recd.frozen = some (h, k, c) ∧
    max s.m.now t < c + 5000000000 :=
  ⟨recb { frozen := some (.mnt 4, 0, 3), secSeen := 5 }, .mnt 4, 5000000002, 0, 3, tb (recb { frozen := some (.mnt 4, 0, 3), secSeen := 5 }) 5000000002, rfl, by decide +kernel⟩

theorem meets_RecorderFreeze_12 : ∃ (s : State) (t : Nat) (b : Mach),
    b = (s.m.tick t).benchTick ∧
    b.bench.recd.frozen = none :=
  ⟨recb {}, 5, tb (recb {}) 5, rfl, by decide +kernel⟩

theorem meets_RegisterWrites_1 : ∃ (s : State) (via : Via) (sess : Sess) (p : Page) (index : W16) (t : Nat) (b : Mach),
    b = (s.m.tick t).benchTick ∧
    sess = viaSess via ∧
    mayWrite s t via (inPage (regOf p.path 0) 0x018) [index.setWidth 32] false b = true ∧
    index.toNat < p.count b :=
  ⟨st (two .read), by2 (inPage (regOf Page.out.path 0) 0x018) [23], .mnt 2, .out, 23, 5, tb (st (two .read)) 5, rfl, by decide +kernel⟩

theorem meets_RegisterWrites_2 : ∃ (s : State) (via : Via) (sess : Sess) (p : Page) (mask : W32) (t : Nat) (b : Mach),
    b = (s.m.tick t).benchTick ∧
    sess = viaSess via ∧
    mayWrite s t via (inPage (regOf p.path 0) 0x014) [mask] false b = true :=
  ⟨st (two .read), .host, .host, .pair, 0xFFFFFFFF, 5, tb (st (two .read)) 5, rfl, by decide +kernel⟩

theorem meets_RegisterWrites_3 : ∃ (s : State) (via : Via) (sess : Sess) (l : LaneId) (t : Nat) (b : Mach),
    b = (s.m.tick t).benchTick ∧
    sess = viaSess via ∧
    mayWrite s t via (inPage (regOf (Page.copier l).path 0) 0x008) [1] false b = true ∧
    (b.lane l).cop.snapFrom = none :=
  ⟨st (two .read), by2 (inPage (regOf (Page.copier .b).path 0) 0x008) [1], .mnt 2, .b, 5, tb (st (two .read)) 5, rfl, by decide +kernel⟩

theorem meets_RegisterWrites_4 : ∃ (s : State) (via : Via) (sess : Sess) (l : LaneId) (t : Nat) (b : Mach),
    b = (s.m.tick t).benchTick ∧
    sess = viaSess via ∧
    mayWrite s t via (inPage (regOf (Page.copier l).path 0) 0x008) [1] false b = true ∧
    (b.lane l).cop.snapFrom.isSome = true :=
  ⟨st snapd, by2 (inPage (regOf (Page.copier .c).path 0) 0x008) [1], .mnt 2, .c, 5, tb (st snapd) 5, rfl, by decide +kernel⟩

theorem meets_RegisterWrites_5 : ∃ (s : State) (via : Via) (sess : Sess) (l : LaneId) (t : Nat) (b : Mach),
    b = (s.m.tick t).benchTick ∧
    sess = viaSess via ∧
    mayWrite s t via (inPage (regOf (Page.agreement l).path 0) 0x008) [1] false b = true ∧
    (b.lane l).agr.snapFrom = none :=
  ⟨st (two .read), .host, .host, .b, 5, tb (st (two .read)) 5, rfl, by decide +kernel⟩

theorem meets_RegisterWrites_6 : ∃ (s : State) (via : Via) (sess : Sess) (t : Nat) (b : Mach),
    b = (s.m.tick t).benchTick ∧
    sess = viaSess via ∧
    mayWrite s t via (inPage (regOf Page.voteStats.path 0) 0x008) [1] false b = true ∧
    b.cal.vote.snapFrom = none :=
  ⟨st (two .read), .host, .host, 5, tb (st (two .read)) 5, rfl, by decide +kernel⟩

theorem meets_RegisterWrites_7 : ∃ (s : State) (via : Via) (sess : Sess) (t : Nat) (b : Mach),
    b = (s.m.tick t).benchTick ∧
    sess = viaSess via ∧
    mayWrite s t via (inPage (regOf Page.counters.path 0) 0x008) [1] false b = true :=
  ⟨st (two .read), by2 (inPage (regOf Page.counters.path 0) 0x008) [1], .mnt 2, 5, tb (st (two .read)) 5, rfl, by decide +kernel⟩

theorem meets_RegisterWrites_8 : ∃ (s : State) (l : LaneId) (t : Nat) (b : Mach),
    b = (s.m.tick t).benchTick ∧
    b.boundarySince l (b.lane l).cop.snapFrom = true :=
  ⟨st snapd, .c, 5, tb (st snapd) 5, rfl, by decide +kernel⟩

theorem meets_RegisterWrites_9 : ∃ (s : State) (l : LaneId) (t : Nat) (b : Mach),
    b = (s.m.tick t).benchTick ∧
    b.boundarySince l (b.lane l).agr.snapFrom = true :=
  ⟨st snapd, .c, 5, tb (st snapd) 5, rfl, by decide +kernel⟩

theorem meets_RegisterWrites_10 : ∃ (s : State) (l : LaneId) (t : Nat) (b : Mach),
    b = (s.m.tick t).benchTick ∧
    b.boundarySince l b.cal.vote.snapFrom = true :=
  ⟨st snapV, .c, 5, tb (st snapV) 5, rfl, by decide +kernel⟩

theorem meets_RegisterWrites_11 : ∃ (s : State) (l : LaneId) (t : Nat) (b : Mach),
    b = (s.m.tick t).benchTick ∧
    b.boundarySince l (b.lane l).cop.snapFrom = false :=
  ⟨st snapd, .b, 5, tb (st snapd) 5, rfl, by decide +kernel⟩

theorem meets_RegisterWrites_12 : ∃ (s : State) (via : Via) (sess : Sess) (val : W32) (t : Nat) (k : Nat) (b : Mach),
    b = (s.m.tick t).benchTick ∧
    sess = viaSess via ∧
    mayWrite s t via (regOf (benchPath 2) 0x020) [val] true b = true ∧
    k = ((b.session sess).getD {}).sel .counters ∧
    b.ecNow = [] :=
  ⟨ecSel, .host, .host, 0x1FF20, 5, 31, tb ecSel 5, rfl, by decide +kernel⟩

theorem meets_RegisterWrites_13 : ∃ (s : State) (via : Via) (sess : Sess) (val : W32) (t : Nat) (k : Nat) (e : Byte) (q : Byte) (b : Mach),
    b = (s.m.tick t).benchTick ∧
    sess = viaSess via ∧
    mayWrite s t via (regOf (benchPath 2) 0x020) [val] true b = true ∧
    k = ((b.session sess).getD {}).sel .counters ∧
    b.ecNow = [(e, q)] ∧
    e = val.setWidth 8 ∧
    e ≠ 0 ∧
    q = (val >>> 8).setWidth 8 :=
  ⟨ecSeenNow, .host, .host, 0x11746, 5, 31, 0x46, 0x17, tb ecSeenNow 5, rfl, by decide +kernel⟩

theorem meets_RegisterWrites_14 : ∃ (s : State) (via : Via) (sess : Sess) (v : Byte) (t : Nat) (b : Mach),
    b = (s.m.tick t).benchTick ∧
    sess = viaSess via ∧
    mayWrite s t via (regOf (benchPath 7) 0x04C) [v.setWidth 32] true b = true :=
  ⟨st (two .write), by2 (regOf (benchPath 7) 0x04C) [0xD5], .mnt 2, 0xD5, 5, tb (st (two .write)) 5, rfl, by decide +kernel⟩

theorem meets_RegisterWrites_15 : ∃ (s : State) (via : Via) (sess : Sess) (v : Byte) (t : Nat) (k : SetKind) (b : Mach),
    b = (s.m.tick t).benchTick ∧
    sess = viaSess via ∧
    mayWrite s t via (regOf (benchPath 6) 0x064) [v.setWidth 32] true b = true ∧
    v = 0xAB ∧
    b.bench.upd.opened = true ∧
    b.bench.upd.kind = some k ∧
    k ≠ .enrolment :=
  ⟨upd1, by2 (regOf (benchPath 6) 0x064) [0xAB], .mnt 2, 0xAB, 5, .firmware, tb upd1 5, rfl, by decide +kernel⟩

theorem meets_RegisterWrites_16 : ∃ (s : State) (via : Via) (sess : Sess) (v : Byte) (t : Nat) (b : Mach),
    b = (s.m.tick t).benchTick ∧
    sess = viaSess via ∧
    mayWrite s t via (regOf (benchPath 6) 0x064) [v.setWidth 32] true b = true ∧
    (v ≠ 0xAB ∨ b.bench.upd.opened = false) :=
  ⟨upd1, by2 (regOf (benchPath 6) 0x064) [0xAA], .mnt 2, 0xAA, 5, tb upd1 5, rfl, by decide +kernel⟩

theorem meets_RegisterWrites_17 : ∃ (s : State) (via : Via) (sess : Sess) (p : Page) (mask : W32) (v : W32) (t : Nat) (b : Mach),
    b = (s.m.tick t).benchTick ∧
    sess = viaSess via ∧
    mayWrite s t via (regOf p.path 0x014) [mask, v] false b = true ∧
    v.toNat % 2 ^ 16 < p.count b :=
  ⟨st (two .read), by2 (regOf Page.di.path 0x014) [5, 47], .mnt 2, .di, 5, 47, 5, tb (st (two .read)) 5, rfl, by decide +kernel⟩

theorem meets_RegisterWrites_18 : ∃ (s : State) (via : Via) (sess : Sess) (p : Page) (mask : W32) (v : W32) (t : Nat) (b : Mach),
    b = (s.m.tick t).benchTick ∧
    sess = viaSess via ∧
    mayWrite s t via (regOf p.path 0x014) [mask, v, 0] true b = true ∧
    p.count b ≤ v.toNat % 2 ^ 16 :=
  ⟨st (two .write), by2 (regOf Page.di.path 0x014) [5, 48, 0], .mnt 2, .di, 5, 48, 5, tb (st (two .write)) 5, rfl, by decide +kernel⟩

theorem meets_RegisterWrites_19 : ∃ (s : State) (via : Via) (sess : Sess) (l : LaneId) (v : W32) (t : Nat) (b : Mach),
    b = (s.m.tick t).benchTick ∧
    sess = viaSess via ∧
    mayWrite s t via (regOf (Page.copier l).path 0x020) [v] true b = true :=
  ⟨st (two .write), by2 (regOf (Page.copier .a).path 0x020) [5], .mnt 2, .a, 5, 5, tb (st (two .write)) 5, rfl, by decide +kernel⟩

theorem meets_RegisterWrites_20 : ∃ (s : State) (h : MntHead) (n : Nat) (t : Nat) (seq : W32) (v : W32) (p : Page) (x : MntSession) (b : Mach),
    b = (s.m.tick t).benchTick ∧
    mntTakes s t h 0x04 n seq (spanBytes (regOf p.path 0x020) 1 ++ bytes32 v) b = true ∧
    b.mntSess n = some x ∧
    seq = x.seq + 1 ∧
    (x.authed = false ∨ x.level = .read) :=
  ⟨st (two .read), dgram (regOf Page.selfTest.path 0x020) [5], 2, 5, 1, 5, .selfTest, ses .read, tb (st (two .read)) 5, rfl, by decide +kernel⟩

theorem meets_RegisterWrites_21 : ∃ (s : State) (via : Via) (sess : Sess) (p : Page) (data : List W32) (t : Nat) (b : Mach),
    b = (s.m.tick t).benchTick ∧
    sess = viaSess via ∧
    mayWrite s t via (regOf p.path 0) data false b = true ∧
    (data.length = 0 ∨ 256 < data.length) :=
  ⟨st (two .read), by2 (regOf Page.selfTest.path 0) [], .mnt 2, .selfTest, [], 5, tb (st (two .read)) 5, rfl, by decide +kernel⟩

end WRegs

/-! ### Witnesses: HostFrames, SessionReads -/

namespace WHost

def tb (x : State) (t : Nat) : Mach := (x.m.tick t).benchTick
def hp (x : HostPort) : Mach := { servB with bench := { up := true, host := x } }
def awake : Mach := { hp { host := some {}, read := some { addr := regOf (Page.copier .b).path 8, count := 3, at0 := 0 } } with lanes := servB.lanes.all (fun _ x => { x with phase := .run }) }
def mail (k : Nat) (xs : List Nat) : State := st (hp { mailbox := [(0, BitVec.ofNat 32 (0x20 * 2 ^ 24 + k))], marked := xs })
def ses (lv : Level) (c : Nat) : MntSession := { id := 2, ip := 9, level := lv, challenge := 0, authed := true, seq := 0, sess := { lastAt := c } }
def mnt2 (c : Nat) : State := st { servB with bench := { up := true, secs := 30, recd := { secSeen := 30, }, mnt := { sessions := [ses .write c] } } }
def seenS : State :=
  st { servB with bench := { up := true, ec := List.replicate 32 { group := { serial := 300, ready := true } },
                             host := { host := some { chan := [(Page.counters.no, 5)] }, crcErrs := 7 } } }
def paired : Mach :=
  { servB with sd := some { sd with pair := { sd.pair with paired := true } }, pair := { l2 := { service := true } }, cal := { servB.cal with txOn := true } }
def pr (a : PartnerAccess) : State :=
  st { paired with bench := { up := true, host := { host := some {}, read := some { addr := a.addr, count := a.count, at0 := a.at0 } } }, pair := { accesses := [a], l1 := { service := true } } }
def q0 : PartnerAccess := { sess := .host, addr := 0x20000000, count := 2, at0 := 0 }
def qM : PartnerAccess := { sess := .mnt 2, addr := 0x20000000, count := 2, at0 := 0, num := 5 }
def prSes : MntSession := { ses .write 0 with seq := 5, reads := [{ addr := 0x20000000, count := 2, at0 := 0, num := 5 }] }
def prM : State := st { paired with bench := { up := true, mnt := { sessions := [prSes] } }, pair := { accesses := [qM], l1 := { service := true } } }
def mpair : State := st { paired with bench := { up := true, mnt := { sessions := [ses .write 0] } } }
def asks (typ : Byte) (payload : List Byte) : MntHead :=
  let h : MntHead := { ip := 9, port := 27340, whole := true, magic := 0x5750, version := 1, length := BitVec.ofNat 16 payload.length, crc := 0 }
  { h with crc := crc32 (requestBytes h typ 2 1 payload) }
def ans0 : AnswerFrame := sealAnswer { fcrc := 0, link := .l1, copy := 1, cycle := 0, reply := { status := .ok, data := [4, 5] } }
def ask0 (w : Bool) (a : W32) (n : Nat) : AccessFrame := sealRequest { fcrc := 0, link := .l2, copy := 1, cycle := 0, write := w, addr := a, count := n }
theorem ask_intact (f : AccessFrame) : pairIntact (.request (sealRequest f)) = true := by
  show (pairCrc (.request f) == pairCrc (.request (sealRequest f))) = true
  rw [show pairCrc (.request (sealRequest f)) = pairCrc (.request f) from rfl]
  exact beq_self_eq_true _
theorem answer_intact (f : AnswerFrame) : pairIntact (.answer (sealAnswer f)) = true := by
  show (pairCrc (.answer f) == pairCrc (.answer (sealAnswer f))) = true
  rw [show pairCrc (.answer (sealAnswer f)) = pairCrc (.answer f) from rfl]
  exact beq_self_eq_true _
def idle : State := st { paired with pair := {} }
def busyB : State := st { paired with lanes := servB.lanes.all (fun _ x => { x with phase := .run }) }

theorem meets_HostFrames_1 : ∃ (s : State) (k : Nat) (n : Nat) (t : Nat) (b : Mach),
    b = (s.m.tick t).benchTick ∧
    b.bench.mnt.waiting = [] ∧
    b.benchServes = true ∧
    1 ≤ n ∧
    k + n ≤ 4096 :=
  ⟨st (hp { mailbox := [(4095, 7)] }), 4095, 1, 5, tb (st (hp { mailbox := [(4095, 7)] })) 5, rfl, by decide +kernel⟩

theorem meets_HostFrames_2 : ∃ (s : State) (p : Page) (k : Nat) (n : Nat) (t : Nat) (b : Mach),
    b = (s.m.tick t).benchTick ∧
    b.bench.mnt.waiting = [] ∧
    b.benchServes = true ∧
    p.isBench = true ∧
    1 ≤ n ∧
    k + n ≤ 256 :=
  ⟨st (hp {}), .hostPort, 252, 4, 5, tb (st (hp {})) 5, rfl, by decide +kernel⟩

theorem meets_HostFrames_3 : ∃ (s : State) (p : Page) (k : Nat) (n : Nat) (t : Nat) (b : Mach),
    b = (s.m.tick t).benchTick ∧
    b.bench.mnt.waiting = [] ∧
    b.benchServes = true ∧
    p.isBench = false ∧
    1 ≤ n ∧
    k + n ≤ 256 ∧
    b.bench.host.read = none :=
  ⟨st (hp {}), .copier .b, 0, 256, 5, tb (st (hp {})) 5, rfl, by decide +kernel⟩

theorem meets_HostFrames_4 : ∃ (s : State) (p : Page) (k : Nat) (n : Nat) (t : Nat) (b : Mach),
    b = (s.m.tick t).benchTick ∧
    b.bench.mnt.waiting = [] ∧
    b.benchServes = true ∧
    p.isBench = false ∧
    1 ≤ n ∧
    k + n ≤ 256 ∧
    b.bench.host.read.isSome = true :=
  ⟨st awake, .out, 0, 2, 5, tb (st awake) 5, rfl, by decide +kernel⟩

theorem meets_HostFrames_5 : ∃ (s : State) (p : Page) (l : LaneId) (k : Nat) (n : Nat) (c : Nat) (t : Nat) (b : Mach),
    b = (s.m.tick t).benchTick ∧
    b.benchServes = true ∧
    p = .copier l ∧
    k + n ≤ 256 ∧
    b.bench.host.read = some { addr := regOf p.path (4 * k), count := n, at0 := c } ∧
    b.pair.accesses = [] ∧
    b.grants l = true :=
  ⟨st (hp { host := some {}, read := some { addr := regOf (Page.copier .b).path 8, count := 3, at0 := 0 } }), .copier .b, .b, 2, 3, 0, 5, tb (st (hp { host := some {}, read := some { addr := regOf (Page.copier .b).path 8, count := 3, at0 := 0 } })) 5, rfl, by decide +kernel⟩

theorem meets_HostFrames_6 : ∃ (s : State) (p : Page) (l : LaneId) (k : Nat) (n : Nat) (c : Nat) (t : Nat) (b : Mach),
    b = (s.m.tick t).benchTick ∧
    b.benchServes = true ∧
    p = .copier l ∧
    b.bench.host.read = some { addr := regOf p.path (4 * k), count := n, at0 := c } ∧
    k + n ≤ 256 ∧
    1 ≤ n ∧
    b.pair.accesses = [] ∧
    b.grants l = false ∧
    c + b.cycleNs ≤ max s.m.now t :=
  ⟨st awake, .copier .b, .b, 2, 3, 0, 8000000, tb (st awake) 8000000, rfl, by decide +kernel⟩

theorem meets_HostFrames_7 : ∃ (s : State) (p : Page) (l : LaneId) (k : Nat) (n : Nat) (c : Nat) (t : Nat) (b : Mach),
    b = (s.m.tick t).benchTick ∧
    p = .copier l ∧
    b.bench.host.read = some { addr := regOf p.path (4 * k), count := n, at0 := c } ∧
    k + n ≤ 256 ∧
    1 ≤ n ∧
    b.grants l = false ∧
    max s.m.now t < c + b.cycleNs :=
  ⟨st awake, .copier .b, .b, 2, 3, 0, 7999999, tb (st awake) 7999999, rfl, by decide +kernel⟩

theorem meets_HostFrames_8 : ∃ (s : State) (t : Nat) (r : Reply) (b : Mach),
    b = (s.m.tick t).benchTick ∧
    b.benchServes = true ∧
    b.bench.mnt.waiting = [] ∧
    b.bench.host.done = some r :=
  ⟨st (hp { done := some { status := .waitTimeout, data := [] } }), 5, { status := .waitTimeout, data := [] }, tb (st (hp { done := some { status := .waitTimeout, data := [] } })) 5, rfl, by decide +kernel⟩

theorem meets_HostFrames_9 : ∃ (s : State) (t : Nat) (b : Mach),
    b = (s.m.tick t).benchTick ∧
    b.benchServes = true ∧
    b.bench.mnt.waiting = [] ∧
    b.bench.host.done = none :=
  ⟨st awake, 5, tb (st awake) 5, rfl, by decide +kernel⟩

theorem meets_HostFrames_10 : ∃ (s : State) (t : Nat) (b : Mach),
    b = (s.m.tick t).benchTick ∧
    b.benchServes = true ∧
    b.bench.mnt.waiting = [] :=
  ⟨st awake, 5, tb (st awake) 5, rfl, by decide +kernel⟩

theorem meets_HostFrames_11 : ∃ (s : State) (k : Nat) (t : Nat) (data : List W32) (crc : W16) (b : Mach),
    b = (s.m.tick t).benchTick ∧
    b.bench.mnt.waiting = [] ∧
    b.benchServes = true ∧
    crc = crc16 (writeFrameBytes (BitVec.ofNat 32 (2 ^ 31 + 4 * k)) data.length data) ∧
    1 ≤ data.length ∧
    k + data.length ≤ 4096 :=
  ⟨st (hp { marked := [4094, 1], mailbox := [(3, 9), (4095, 7)] }), 4094, 5, [0, 0xFFFFFFFF], crc16 (writeFrameBytes (BitVec.ofNat 32 (2 ^ 31 + 4 * 4094)) 2 [0, 0xFFFFFFFF]), tb (st (hp { marked := [4094, 1], mailbox := [(3, 9), (4095, 7)] })) 5, rfl, by decide +kernel⟩

theorem meets_HostFrames_12 : ∃ (s : State) (p : Page) (data : List W32) (crc : W16) (k : Nat) (t : Nat) (b : Mach),
    b = (s.m.tick t).benchTick ∧
    b.bench.mnt.waiting = [] ∧
    b.benchServes = true ∧
    k < 256 ∧
    crc ≠ crc16 (writeFrameBytes (regOf p.path (4 * k)) data.length data) :=
  ⟨st awake, .recorder, [1], 0, 8, 5, tb (st awake) 5, rfl, by decide +kernel⟩

theorem meets_HostFrames_13 : ∃ (s : State) (k : Nat) (t : Nat) (data : List W32) (crc : W16) (b : Mach),
    b = (s.m.tick t).benchTick ∧
    b.bench.mnt.waiting = [] ∧
    b.benchServes = true ∧
    crc ≠ crc16 (writeFrameBytes (BitVec.ofNat 32 (2 ^ 31 + 4 * k)) data.length data) ∧
    1 ≤ data.length ∧
    k + data.length ≤ 4096 :=
  ⟨st (hp {}), 1, 5, [1, 2], 0, tb (st (hp {})) 5, rfl, by decide +kernel⟩

theorem meets_HostFrames_14 : ∃ (s : State) (a : W32) (n : Nat) (data : List W32) (crc : W16) (t : Nat) (b : Mach),
    b = (s.m.tick t).benchTick ∧
    b.bench.mnt.waiting = [] ∧
    b.benchServes = true ∧
    crc = crc16 (writeFrameBytes a n data) ∧
    n < data.length :=
  ⟨st awake, 0, 0, [1], crc16 (writeFrameBytes 0 0 [1]), 5, tb (st awake) 5, rfl, by decide +kernel⟩

theorem meets_HostFrames_15 : ∃ (s : State) (n : Nat) (data : List W32) (t : Nat),
    s.m.bench.mnt.waiting = [] ∧
    (s.m.tick t).benchTick.benchServes = true ∧
    data.length < n :=
  ⟨st awake, 2, [1], 5, by decide +kernel⟩

theorem meets_HostFrames_16 : ∃ (s : State) (a : W32) (data : List W32) (crc : W16),
    crc = crc16 (writeFrameBytes a data.length data) ∧
    s.m.bench.mnt.waiting = [] :=
  ⟨st awake, 0, [1], crc16 (writeFrameBytes 0 1 [1]), by decide +kernel⟩

theorem meets_HostFrames_17 : ∃ (s : State) (crc : W16) (t : Nat) (b : Mach),
    b = (s.m.tick t).benchTick ∧
    b.benchServes = true ∧
    b.bench.mnt.waiting = [] ∧
    crc = crc16 [0x66] :=
  ⟨st awake, crc16 [0x66], 5, tb (st awake) 5, rfl, by decide +kernel⟩

theorem meets_HostFrames_18 : ∃ (s : State) (crc : W16) (t : Nat) (b : Mach),
    b = (s.m.tick t).benchTick ∧
    b.benchServes = true ∧
    b.bench.mnt.waiting = [] ∧
    crc ≠ crc16 [0x66] :=
  ⟨st awake, 0, 5, tb (st awake) 5, rfl, by decide +kernel⟩

theorem meets_HostFrames_19 : ∃ (s : State) (sess : Sess) (t : Nat) (c : Nat) (b : Mach),
    b = (s.m.tick t).benchTick ∧
    b.sessionLast sess = some c ∧
    c + 30000000000 ≤ max s.m.now t :=
  ⟨mnt2 0, .mnt 2, 30000000000, 0, tb (mnt2 0) 30000000000, rfl, by decide +kernel⟩

theorem meets_HostFrames_20 : ∃ (s : State) (sess : Sess) (t : Nat) (c : Nat) (b : Mach),
    b = (s.m.tick t).benchTick ∧
    b.sessionLast sess = some c ∧
    max s.m.now t < c + 30000000000 :=
  ⟨mnt2 0, .mnt 2, 29999999999, 0, tb (mnt2 0) 29999999999, rfl, by decide +kernel⟩

theorem meets_HostFrames_21 : ∃ (s : State) (t : Nat) (b : Mach),
    b = (s.m.tick t).benchTick ∧
    b.benchServes = true ∧
    b.bench.mnt.waiting = [] ∧
    b.mailRequest = none ∧
    b.bench.host.rewrite = [] :=
  ⟨st (hp { mailbox := [(0, 0x30000001)] }), 5, tb (st (hp { mailbox := [(0, 0x30000001)] })) 5, rfl, by decide +kernel⟩

theorem meets_HostFrames_22 : ∃ (s : State) (n : Nat) (t : Nat) (b : Mach),
    b = (s.m.tick t).benchTick ∧
    b.benchServes = true ∧
    b.bench.mnt.waiting = [] ∧
    n < 2 ^ 24 ∧
    b.mailWord 0 = BitVec.ofNat 32 (0x20 * 2 ^ 24 + n) ∧
    b.bench.host.marked = [] ∧
    b.bench.host.rewrite = [] ∧
    b.bench.host.lastWrite = none :=
  ⟨mail 0xFFFFFF [], 0xFFFFFF, 5, tb (mail 0xFFFFFF []) 5, rfl, by decide +kernel⟩

theorem meets_HostFrames_23 : ∃ (s : State) (n : Nat) (t : Nat) (b : Mach),
    b = (s.m.tick t).benchTick ∧
    b.benchServes = true ∧
    b.bench.mnt.waiting = [] ∧
    n < 2 ^ 24 ∧
    b.mailWord 0 = BitVec.ofNat 32 (0x20 * 2 ^ 24 + n) ∧
    b.bench.host.marked = [0] ∧
    b.bench.host.rewrite = [] ∧
    b.bench.host.lastWrite = none :=
  ⟨mail 6 [0], 6, 5, tb (mail 6 [0]) 5, rfl, by decide +kernel⟩

theorem meets_HostFrames_24 : ∃ (s : State) (t : Nat) (b : Mach),
    b = (s.m.tick t).benchTick ∧
    b.bench.mnt.waiting = [] ∧
    b.benchServes = false :=
  ⟨st serv, 5, tb (st serv) 5, rfl, by decide +kernel⟩

theorem meets_SessionReads_1 : ∃ (s : State) (via : Via) (sess : Sess) (t : Nat) (b : Mach),
    b = (s.m.tick t).benchTick ∧
    sess = viaSess via ∧
    mayRead s t via (regOf Page.hostPort.path 0x030) 1 b = true :=
  ⟨seenS, .host, .host, 5, tb seenS 5, rfl, by decide +kernel⟩

theorem meets_SessionReads_2 : ∃ (s : State) (via : Via) (sess : Sess) (t : Nat) (b : Mach),
    b = (s.m.tick t).benchTick ∧
    sess = viaSess via ∧
    mayRead s t via (regOf Page.sensors.path 0x054) 1 b = true :=
  ⟨seenS, .host, .host, 5, tb seenS 5, rfl, by decide +kernel⟩

theorem meets_SessionReads_3 : ∃ (s : State) (via : Via) (sess : Sess) (k : Nat) (n : Nat) (t : Nat) (b : Mach),
    b = (s.m.tick t).benchTick ∧
    sess = viaSess via ∧
    mayRead s t via (regOf Page.counters.path 0x028) (s.m.groupSpan sess (regOf Page.counters.path 0x028)) b = true ∧
    k = ((b.session sess).getD {}).sel .counters ∧
    (b.bench.ec[k]?).map (fun x => x.group.serial) = some n ∧
    0 < n :=
  ⟨seenS, .host, .host, 5, 300, 5, tb seenS 5, rfl, by decide +kernel⟩

theorem meets_SessionReads_5 : ∃ (s : State) (a : W32) (n : Nat) (t : Nat) (b : Mach),
    b = (s.m.tick t).benchTick ∧
    b.benchServes = true ∧
    b.bench.mnt.waiting = [] ∧
    b.place a = .partner ∧
    inMailbox a = false ∧
    spanRefusal .host a n = none ∧
    b.bench.host.read = none :=
  ⟨st paired, 0x20000000, 2, 5, tb (st paired) 5, rfl, by decide +kernel⟩

theorem meets_SessionReads_6 : ∃ (s : State) (h : MntHead) (k : Nat) (n : Nat) (t : Nat) (seq : W32) (a : W32) (x : MntSession) (b : Mach),
    b = (s.m.tick t).benchTick ∧
    mayRead s t (.mnt h k seq) a n b = true ∧
    b.mntSess k = some x ∧
    b.place a = .partner ∧
    inMailbox a = false ∧
    spanRefusal (.mnt k) a n = none :=
  ⟨mpair, asks 0x03 (spanBytes 0x20000000 2), 2, 2, 5, 1, 0x20000000, ses .write 0, tb mpair 5, rfl, by decide +kernel⟩

theorem meets_SessionReads_7 : ∃ (s : State) (via : Via) (sess : Sess) (a : W32) (n : Nat) (t : Nat) (b : Mach),
    b = (s.m.tick t).benchTick ∧
    sess = viaSess via ∧
    mayWrite s t via a (List.replicate n 0) true b = true ∧
    b.place a = .partner ∧
    inMailbox a = false ∧
    spanRefusal sess a n = none :=
  ⟨st paired, .host, .host, 0x20000000, 2, 5, tb (st paired) 5, rfl, by decide +kernel⟩

theorem meets_SessionReads_8 : ∃ (s : State) (t : Nat) (q : PartnerAccess) (b : Mach),
    b = (s.m.tick t).benchTick ∧
    b.pair.accesses = [q] ∧
    q.sess = .host ∧
    q.at0 + 2 * b.cycleNs ≤ max s.m.now t :=
  ⟨pr q0, 16000000, q0, tb (pr q0) 16000000, rfl, by decide +kernel⟩

theorem meets_SessionReads_9 : ∃ (s : State) (t : Nat) (n : Nat) (q : PartnerAccess) (x : MntSession) (b : Mach),
    b = (s.m.tick t).benchTick ∧
    b.pair.accesses = [q] ∧
    q.sess = .mnt n ∧
    b.mntSess n = some x ∧
    x.reads = [{ addr := q.addr, count := q.count, at0 := q.at0, num := q.num }] ∧
    q.at0 + 2 * b.cycleNs ≤ max s.m.now t :=
  ⟨prM, 16000000, 2, qM, prSes, tb prM 16000000, rfl, by decide +kernel⟩

theorem meets_SessionReads_10 : ∃ (s : State) (t : Nat) (q : PartnerAccess) (rest : List PartnerAccess) (b : Mach),
    b = (s.m.tick t).benchTick ∧
    b.pair.accesses = q :: rest ∧
    max s.m.now t < q.at0 + 2 * b.cycleNs :=
  ⟨pr q0, 15999999, q0, [], tb (pr q0) 15999999, rfl, by decide +kernel⟩

theorem meets_SessionReads_11 : ∃ (s : State) (k : LinkId) (f : AnswerFrame) (t : Nat) (q : PartnerAccess) (b : Mach),
    b = (s.m.tick t).benchTick ∧
    b.benchServes = true ∧
    b.linkHears k = true ∧
    pairIntact (.answer f) = true ∧
    f.link = k ∧
    b.linkInService k = true ∧
    b.pair.accesses = [q] ∧
    q.sess = .host :=
  ⟨pr q0, .l1, ans0, 7, q0, tb (pr q0) 7, by exact ⟨rfl, by decide +kernel, by decide +kernel, answer_intact _, rfl, by decide +kernel, by decide +kernel, rfl⟩⟩

theorem meets_SessionReads_12 : ∃ (s : State) (k : LinkId) (f : AnswerFrame) (t : Nat) (b : Mach),
    b = (s.m.tick t).benchTick ∧
    b.linkHears k = true ∧
    pairIntact (.answer f) = true ∧
    f.link = k ∧
    b.linkInService k = false :=
  ⟨idle, .l1, ans0, 7, tb idle 7, by exact ⟨rfl, by decide +kernel, answer_intact _, rfl, by decide +kernel⟩⟩

theorem meets_SessionReads_13 : ∃ (s : State) (k : LinkId) (f : AnswerFrame) (t : Nat) (b : Mach),
    b = (s.m.tick t).benchTick ∧
    b.linkHears k = true ∧
    (pairIntact (.answer f) = false ∨ f.link ≠ k) :=
  ⟨pr q0, .l1, sealAnswer { ans0 with link := .l2 }, 7, tb (pr q0) 7, by exact ⟨rfl, by decide +kernel, Or.inr (by decide)⟩⟩

theorem meets_SessionReads_14 : ∃ (s : State) (k : LinkId) (t : Nat) (b : Mach),
    b = (s.m.tick t).benchTick ∧
    b.linkHears k = false :=
  ⟨st servB, .l1, 7, tb (st servB) 7, rfl, by decide +kernel⟩

theorem meets_SessionReads_15 : ∃ (s : State) (k : LinkId) (f : AccessFrame) (t : Nat) (b : Mach),
    b = (s.m.tick t).benchTick ∧
    b.benchServes = true ∧
    b.linkHears k = true ∧
    pairIntact (.request f) = true ∧
    f.link = k ∧
    b.linkInService k = true ∧
    f.write = true :=
  ⟨st paired, .l2, ask0 true 0x20000000 2, 5, tb (st paired) 5, by exact ⟨rfl, by decide +kernel, by decide +kernel, ask_intact _, rfl, by decide +kernel, rfl⟩⟩

theorem meets_SessionReads_16 : ∃ (s : State) (k : LinkId) (f : AccessFrame) (l : LaneId) (t : Nat) (b : Mach),
    b = (s.m.tick t).benchTick ∧
    b.benchServes = true ∧
    b.linkHears k = true ∧
    pairIntact (.request f) = true ∧
    f.link = k ∧
    b.linkInService k = true ∧
    f.write = false ∧
    f.addr = (0x20000000 ||| regOf (Page.copier l).path 0 &&& 0x0FFFFFFF) ∧
    1 ≤ f.count ∧
    f.count ≤ 256 ∧
    b.pair.asked = [] ∧
    b.grants l = true :=
  ⟨st paired, .l2, ask0 false (0x20000000 ||| regOf (Page.copier .b).path 0 &&& 0x0FFFFFFF) 256, .b, 5, tb (st paired) 5, by exact ⟨rfl, by decide +kernel, by decide +kernel, ask_intact _, rfl, by decide +kernel, rfl, by decide +kernel, by decide +kernel, by decide +kernel, by decide +kernel, by decide +kernel⟩⟩

theorem meets_SessionReads_17 : ∃ (s : State) (k : LinkId) (f : AccessFrame) (l : LaneId) (t : Nat) (b : Mach),
    b = (s.m.tick t).benchTick ∧
    b.benchServes = true ∧
    b.linkHears k = true ∧
    pairIntact (.request f) = true ∧
    f.link = k ∧
    b.linkInService k = true ∧
    f.write = false ∧
    f.addr = (0x20000000 ||| regOf (Page.copier l).path 0 &&& 0x0FFFFFFF) ∧
    1 ≤ f.count ∧
    f.count ≤ 256 ∧
    b.pair.asked = [] ∧
    b.grants l = false ∧
    0 < b.cycleNs :=
  ⟨busyB, .l2, ask0 false (0x20000000 ||| regOf (Page.copier .b).path 0 &&& 0x0FFFFFFF) 1, .b, 5, tb busyB 5, by exact ⟨rfl, by decide +kernel, by decide +kernel, ask_intact _, rfl, by decide +kernel, rfl, by decide +kernel, by decide +kernel, by decide +kernel, by decide +kernel, by decide +kernel, by decide +kernel⟩⟩

theorem meets_SessionReads_18 : ∃ (s : State) (k : LinkId) (f : AccessFrame) (t : Nat) (b : Mach),
    b = (s.m.tick t).benchTick ∧
    b.linkHears k = true ∧
    (pairIntact (.request f) = false ∨ f.link ≠ k) :=
  ⟨st paired, .l2, sealRequest { ask0 true 0x20000000 2 with link := .l1 }, 5, tb (st paired) 5, by exact ⟨rfl, by decide +kernel, Or.inr (by decide)⟩⟩

end WHost

/-! ### Witnesses: MaintenanceSessions -/

namespace WMnt

def tb (x : State) (t : Nat) : Mach := (x.m.tick t).benchTick
def mp (x : MntPort) : State := st { servB with bench := { up := true, mnt := x } }
def oldReply : MntReply := { ip := 9, typ := 0x84, session := 2, status := .ok, seq := 0xFFFFFFFF, data := [5] }
/-- A head of a datagram that passes the checks of R65. -/
def head (typ : Byte) (n : Nat) (seq : W32) (payload : List Byte) : MntHead :=
  let h : MntHead := { ip := 9, port := 27340, whole := true, magic := 0x5750, version := 1, length := BitVec.ofNat 16 payload.length, crc := 0 }
  { h with crc := crc32 (requestBytes h typ n seq payload) }
def ses (lv : Level) (authed : Bool) : MntSession := { id := 2, ip := 9, level := lv, challenge := 77, authed := authed, seq := 0xFFFFFFFF, reply := some oldReply, sess := { chan := [(7, 3)], mask := [(3, 9)] } }
def kept : MntDatagram := { head := head 0x05 2 0 [], sess := 2, seq := 0, req := .keep }
def one (lv : Level) : MntPort := { sessions := [ses lv true] }
def rd : PendingRead := { addr := regOf (Page.copier .b).path 0, count := 4, at0 := 0, num := 6 }
def waitM (ph : Phase) : State := st { servB with bench := { up := true, mnt := { sessions := [{ ses .read true with reads := [rd] }] } }, lanes := servB.lanes.all (fun _ x => { x with phase := ph }) }
def irqM (c : Option Nat) : State := st { servB with bench := { up := true, mnt := { sessions := [{ ses .read true with notified := c, sess := { mask := [(pageNo [1], 0xFFFFFFFF)] } }] } }, irq := [(pageNo [1], 0x100)] }
def credential : BitVec 384 := hmac384 (tb (mp { sessions := [ses .read false] }) 5).maintKey (beBytes 16 77 ++ beBytes 2 2)
theorem other (c : BitVec 384) : c + 1 ≠ c := by
  intro h; have := congrArg (fun x => x - c) h; simp at this
/-- The checks of a head do not look into its credential. -/
theorem head_passes (c : BitVec 384) : headPasses 0x02 2 0 (beBytes 48 c.toNat) (head 0x02 2 0 (beBytes 48 c.toNat)) = true := by
  have h : (beBytes 48 c.toNat).length = 48 := by simp [beBytes]
  simp [headPasses, head, requestBytes, h]
theorem meetsAuth : ∃ (s : State) (h : MntHead) (seq : W32) (n t : Nat) (c : BitVec 384) (x : MntSession) (b : Mach),
    b = (s.m.tick t).benchTick ∧ mntTakes s t h 0x02 n seq (beBytes 48 c.toNat) b = true ∧ b.mntSess n = some x ∧ seq = x.seq + 1 ∧
      c = hmac384 b.maintKey (beBytes 16 x.challenge.toNat ++ beBytes 2 n) := by
  refine ⟨mp { sessions := [ses .read false] }, head 0x02 2 0 (beBytes 48 credential.toNat), 0, 2, 5, credential, ses .read false, _, rfl, ?_⟩
  refine ⟨?_, by decide +kernel, by decide +kernel, rfl⟩
  simp only [mntTakes, head_passes]
  decide +kernel
theorem meetsAuthErr : ∃ (s : State) (h : MntHead) (seq : W32) (n t : Nat) (c : BitVec 384) (x : MntSession) (b : Mach),
    b = (s.m.tick t).benchTick ∧ mntTakes s t h 0x02 n seq (beBytes 48 c.toNat) b = true ∧ b.mntSess n = some x ∧ seq = x.seq + 1 ∧
      b.bench.mnt.failures = [] ∧ c ≠ hmac384 b.maintKey (beBytes 16 x.challenge.toNat ++ beBytes 2 n) := by
  refine ⟨mp { sessions := [ses .read false] }, head 0x02 2 0 (beBytes 48 (credential + 1).toNat), 0, 2, 5, credential + 1, ses .read false, _, rfl, ?_⟩
  refine ⟨?_, by decide +kernel, by decide +kernel, by decide +kernel, other _⟩
  simp only [mntTakes, head_passes]
  decide +kernel
theorem meetsLockout : ∃ (s : State) (h : MntHead) (seq : W32) (n t a1 a2 : Nat) (c : BitVec 384) (x : MntSession) (b : Mach),
    b = (s.m.tick t).benchTick ∧ mntTakes s t h 0x02 n seq (beBytes 48 c.toNat) b = true ∧ b.mntSess n = some x ∧ seq = x.seq + 1 ∧
      b.bench.mnt.failures = [(h.ip, a1), (h.ip, a2)] ∧ max s.m.now t < a1 + 60000000000 ∧ max s.m.now t < a2 + 60000000000 ∧
      c ≠ hmac384 b.maintKey (beBytes 16 x.challenge.toNat ++ beBytes 2 n) := by
  refine ⟨mp { sessions := [ses .read false], failures := [(9, 1), (9, 2)] }, head 0x02 2 0 (beBytes 48 (credential + 1).toNat), 0, 2, 5, 1, 2,
    credential + 1, ses .read false, _, rfl, ?_⟩
  refine ⟨?_, by decide +kernel, by decide +kernel, by decide +kernel, by decide +kernel, by decide +kernel, other _⟩
  simp only [mntTakes, head_passes]
  decide +kernel

theorem meets_MaintenanceSessions_1 : ∃ (s : State) (h : MntHead) (seq : W32) (lv : Byte) (t : Nat) (b : Mach),
    b = (s.m.tick t).benchTick ∧
    b.benchServes = true ∧
    s.pending.any (hostAccessAt (t / 10)) = false ∧
    h.whole = true ∧
    h.port = 27340 ∧
    (h.magic ≠ 0x5750 ∨ h.version ≠ 1 ∨ h.length ≠ 1 ∨ h.crc ≠ crc32 (requestBytes h 0x01 0 seq [lv])) :=
  ⟨mp {}, { head 0x01 0 1 [1] with crc := 0 }, 1, 1, 5, tb (mp {}) 5, rfl, by decide +kernel⟩

theorem meets_MaintenanceSessions_2 : ∃ (s : State) (h : MntHead) (seq : W32) (n : Nat) (t : Nat) (b : Mach),
    b = (s.m.tick t).benchTick ∧
    b.benchServes = true ∧
    s.pending.any (hostAccessAt (t / 10)) = false ∧
    (h.whole = false ∨ h.port ≠ 27340 ∨ (headPasses 0x05 n seq [] h = true ∧ b.lockedOut h.ip = true)) :=
  ⟨mp { lockouts := [(9, 6)] }, head 0x05 2 1 [], 1, 2, 5, tb (mp { lockouts := [(9, 6)] }) 5, rfl, by decide +kernel⟩

theorem meets_MaintenanceSessions_3 : ∃ (s : State) (h : MntHead) (seq : W32) (lv : Byte) (l : Level) (t : Nat) (b : Mach),
    b = (s.m.tick t).benchTick ∧
    mntTakes s t h 0x01 0 seq [lv] b = true ∧
    levelOf lv = some l ∧
    b.bench.mnt.sessions.length < 4 ∧
    (l = .read ∨ b.bench.mnt.sessions.all (fun x => x.level == .read) = true) :=
  ⟨mp { one .read with nextId := 65535 }, head 0x01 0 1 [2], 1, 2, .write, 5, tb (mp { one .read with nextId := 65535 }) 5, rfl, by decide +kernel⟩

theorem meets_MaintenanceSessions_4 : ∃ (s : State) (h : MntHead) (seq : W32) (lv : Byte) (t : Nat) (b : Mach),
    b = (s.m.tick t).benchTick ∧
    mntTakes s t h 0x01 0 seq [lv] b = true ∧
    (4 ≤ b.bench.mnt.sessions.length ∨ (lv = 2 ∧ b.bench.mnt.sessions.any (fun x => x.level == .write) = true)) :=
  ⟨mp (one .write), head 0x01 0 1 [2], 1, 2, 5, tb (mp (one .write)) 5, rfl, by decide +kernel⟩

theorem meets_MaintenanceSessions_5 : ∃ (s : State) (h : MntHead) (seq : W32) (n : Nat) (t : Nat) (c : BitVec 384) (x : MntSession) (b : Mach),
    b = (s.m.tick t).benchTick ∧
    mntTakes s t h 0x02 n seq (beBytes 48 c.toNat) b = true ∧
    b.mntSess n = some x ∧
    seq = x.seq + 1 ∧
    c = hmac384 b.maintKey (beBytes 16 x.challenge.toNat ++ beBytes 2 n) :=
  by exact meetsAuth

theorem meets_MaintenanceSessions_6 : ∃ (s : State) (h : MntHead) (seq : W32) (n : Nat) (t : Nat) (c : BitVec 384) (x : MntSession) (b : Mach),
    b = (s.m.tick t).benchTick ∧
    mntTakes s t h 0x02 n seq (beBytes 48 c.toNat) b = true ∧
    b.mntSess n = some x ∧
    seq = x.seq + 1 ∧
    b.bench.mnt.failures = [] ∧
    c ≠ hmac384 b.maintKey (beBytes 16 x.challenge.toNat ++ beBytes 2 n) :=
  by exact meetsAuthErr

theorem meets_MaintenanceSessions_7 : ∃ (s : State) (h : MntHead) (seq : W32) (n : Nat) (t : Nat) (a1 : Nat) (a2 : Nat) (c : BitVec 384) (x : MntSession) (b : Mach),
    b = (s.m.tick t).benchTick ∧
    mntTakes s t h 0x02 n seq (beBytes 48 c.toNat) b = true ∧
    b.mntSess n = some x ∧
    seq = x.seq + 1 ∧
    b.bench.mnt.failures = [(h.ip, a1), (h.ip, a2)] ∧
    max s.m.now t < a1 + 60000000000 ∧
    max s.m.now t < a2 + 60000000000 ∧
    c ≠ hmac384 b.maintKey (beBytes 16 x.challenge.toNat ++ beBytes 2 n) :=
  by exact meetsLockout

theorem meets_MaintenanceSessions_8 : ∃ (s : State) (ip : W32) (c : Nat) (t : Nat) (b : Mach),
    b = (s.m.tick t).benchTick ∧
    b.bench.mnt.lockouts = [(ip, c)] ∧
    c ≤ max s.m.now t :=
  ⟨mp { lockouts := [(9, 6)] }, 9, 6, 6, tb (mp { lockouts := [(9, 6)] }) 6, rfl, by decide +kernel⟩

theorem meets_MaintenanceSessions_9 : ∃ (s : State) (ip : W32) (c : Nat) (t : Nat) (b : Mach),
    b = (s.m.tick t).benchTick ∧
    b.bench.mnt.lockouts = [(ip, c)] ∧
    max s.m.now t < c :=
  ⟨mp { lockouts := [(9, 6)] }, 9, 6, 5, tb (mp { lockouts := [(9, 6)] }) 5, rfl, by decide +kernel⟩

theorem meets_MaintenanceSessions_10 : ∃ (s : State) (h : MntHead) (seq : W32) (a : W32) (n : Nat) (k : Nat) (t : Nat) (x : MntSession) (b : Mach),
    b = (s.m.tick t).benchTick ∧
    mntTakes s t h 0x03 n seq (spanBytes a k) b = true ∧
    b.mntSess n = some x ∧
    x.authed = true ∧
    seq = x.seq + 1 ∧
    1 ≤ k ∧
    k ≤ 256 ∧
    a = regOf Page.update.path 0 :=
  ⟨mp (one .read), head 0x03 2 0 (spanBytes (regOf Page.update.path 0) 256), 0, regOf Page.update.path 0, 2, 256, 5, ses .read true, tb (mp (one .read)) 5, rfl, by decide +kernel⟩

theorem meets_MaintenanceSessions_11 : ∃ (s : State) (h : MntHead) (seq : W32) (a : W32) (n : Nat) (k : Nat) (t : Nat) (l : LaneId) (x : MntSession) (b : Mach),
    b = (s.m.tick t).benchTick ∧
    mntTakes s t h 0x03 n seq (spanBytes a k) b = true ∧
    b.mntSess n = some x ∧
    x.authed = true ∧
    seq = x.seq + 1 ∧
    1 ≤ k ∧
    k ≤ 256 ∧
    a = regOf (Page.copier l).path 0 :=
  ⟨mp (one .read), head 0x03 2 0 (spanBytes (regOf (Page.copier .c).path 0) 256), 0, regOf (Page.copier .c).path 0, 2, 256, 5, .c, ses .read true, tb (mp (one .read)) 5, rfl, by decide +kernel⟩

theorem meets_MaintenanceSessions_12 : ∃ (s : State) (n : Nat) (k : Nat) (c : Nat) (t : Nat) (a : W32) (nr : W32) (l : LaneId) (x : MntSession) (b : Mach),
    b = (s.m.tick t).benchTick ∧
    b.benchServes = true ∧
    b.mntSess n = some x ∧
    x.authed = true ∧
    x.reads = [{ addr := a, count := k, at0 := c, num := nr }] ∧
    b.pair.accesses = [] ∧
    a = regOf (Page.copier l).path 0 ∧
    b.grants l = true :=
  ⟨waitM .asleep, 2, 4, 0, 5, regOf (Page.copier .b).path 0, 6, .b, { ses .read true with reads := [rd] }, tb (waitM .asleep) 5, rfl, by decide +kernel⟩

theorem meets_MaintenanceSessions_13 : ∃ (s : State) (n : Nat) (k : Nat) (c : Nat) (t : Nat) (a : W32) (nr : W32) (l : LaneId) (x : MntSession) (b : Mach),
    b = (s.m.tick t).benchTick ∧
    b.benchServes = true ∧
    b.mntSess n = some x ∧
    x.reads = [{ addr := a, count := k, at0 := c, num := nr }] ∧
    b.pair.accesses = [] ∧
    a = regOf (Page.copier l).path 0 ∧
    b.grants l = false ∧
    c + b.cycleNs ≤ max s.m.now t :=
  ⟨waitM .run, 2, 4, 0, 8000000, regOf (Page.copier .b).path 0, 6, .b, { ses .read true with reads := [rd] }, tb (waitM .run) 8000000, rfl, by decide +kernel⟩

theorem meets_MaintenanceSessions_14 : ∃ (s : State) (h : MntHead) (seq : W32) (n : Nat) (t : Nat) (p : Page) (v : W32) (x : MntSession) (b : Mach),
    b = (s.m.tick t).benchTick ∧
    mntTakes s t h 0x04 n seq (spanBytes (regOf p.path 0x014) 1 ++ bytes32 v) b = true ∧
    b.mntSess n = some x ∧
    x.authed = true ∧
    seq = x.seq + 1 :=
  ⟨mp (one .read), head 0x04 2 0 (spanBytes (regOf Page.pair.path 0x014) 1 ++ bytes32 0xFFFF), 0, 2, 5, .pair, 0xFFFF, ses .read true, tb (mp (one .read)) 5, rfl, by decide +kernel⟩

theorem meets_MaintenanceSessions_15 : ∃ (s : State) (h : MntHead) (seq : W32) (n : Nat) (t : Nat) (x : MntSession) (b : Mach),
    b = (s.m.tick t).benchTick ∧
    mntTakes s t h 0x05 n seq [] b = true ∧
    b.mntSess n = some x ∧
    seq = x.seq + 1 :=
  ⟨mp (one .read), head 0x05 2 0 [], 0, 2, 5, ses .read true, tb (mp (one .read)) 5, rfl, by decide +kernel⟩

theorem meets_MaintenanceSessions_16 : ∃ (s : State) (h : MntHead) (seq : W32) (n : Nat) (t : Nat) (r : MntReply) (x : MntSession) (p : Page) (v : W32) (b : Mach),
    b = (s.m.tick t).benchTick ∧
    mntTakes s t h 0x04 n seq (spanBytes (regOf p.path 0x014) 1 ++ bytes32 v) b = true ∧
    b.mntSess n = some x ∧
    seq = x.seq ∧
    x.reply = some r :=
  ⟨mp (one .read), head 0x04 2 0xFFFFFFFF (spanBytes (regOf Page.pair.path 0x014) 1 ++ bytes32 0xFFFF), 0xFFFFFFFF, 2, 5, oldReply, ses .read true, .pair, 0xFFFF, tb (mp (one .read)) 5, rfl, by decide +kernel⟩

theorem meets_MaintenanceSessions_17 : ∃ (s : State) (h : MntHead) (seq : W32) (n : Nat) (t : Nat) (x : MntSession) (b : Mach),
    b = (s.m.tick t).benchTick ∧
    mntTakes s t h 0x05 n seq [] b = true ∧
    b.mntSess n = some x ∧
    seq ≠ x.seq ∧
    seq ≠ x.seq + 1 :=
  ⟨mp (one .read), head 0x05 2 1 [], 1, 2, 5, ses .read true, tb (mp (one .read)) 5, rfl, by decide +kernel⟩

theorem meets_MaintenanceSessions_18 : ∃ (s : State) (h : MntHead) (seq : W32) (n : Nat) (t : Nat) (b : Mach),
    b = (s.m.tick t).benchTick ∧
    mntTakes s t h 0x06 n seq [] b = true ∧
    b.mntSess n = none :=
  ⟨mp (one .read), head 0x06 3 1 [], 1, 3, 5, tb (mp (one .read)) 5, rfl, by decide +kernel⟩

theorem meets_MaintenanceSessions_19 : ∃ (s : State) (h : MntHead) (seq : W32) (n : Nat) (t : Nat) (x : MntSession) (b : Mach),
    b = (s.m.tick t).benchTick ∧
    mntTakes s t h 0x06 n seq [] b = true ∧
    b.mntSess n = some x ∧
    seq = x.seq + 1 :=
  ⟨mp (one .read), head 0x06 2 0 [], 0, 2, 5, ses .read true, tb (mp (one .read)) 5, rfl, by decide +kernel⟩

theorem meets_MaintenanceSessions_20 : ∃ (s : State) (n : Nat) (t : Nat) (x : MntSession) (b : Mach),
    b = (s.m.tick t).benchTick ∧
    b.benchServes = true ∧
    b.mntSess n = some x ∧
    x.authed = true ∧
    x.summary = 0 ∧
    b.pairIrq x.sess ≠ 0 ∧
    x.notified.all (fun c => decide (c + 1000000000 ≤ max s.m.now t)) = true :=
  ⟨irqM none, 2, 5, { ses .read true with sess := { mask := [(pageNo [1], 0xFFFFFFFF)] } }, tb (irqM none) 5, rfl, by decide +kernel⟩

theorem meets_MaintenanceSessions_21 : ∃ (s : State) (n : Nat) (t : Nat) (x : MntSession) (b : Mach),
    b = (s.m.tick t).benchTick ∧
    b.mntSess n = some x ∧
    b.pairIrq x.sess ≠ 0 ∧
    (x.summary ≠ 0 ∨ x.authed = false ∨ x.notified.any (fun c => decide (max s.m.now t < c + 1000000000)) = true) :=
  ⟨irqM (some 0), 2, 5, { ses .read true with notified := some 0, sess := { mask := [(pageNo [1], 0xFFFFFFFF)] } }, tb (irqM (some 0)) 5, rfl, by decide +kernel⟩

theorem meets_MaintenanceSessions_22 : ∃ (s : State) (t : Nat) (b : Mach),
    b = (s.m.tick t).benchTick ∧
    b.benchServes = true ∧
    b.bench.mnt.dhcp = true :=
  ⟨mp {}, 5, tb (mp {}) 5, rfl, by decide +kernel⟩

theorem meets_MaintenanceSessions_23 : ∃ (s : State) (t : Nat) (b : Mach),
    b = (s.m.tick t).benchTick ∧
    b.benchServes = true ∧
    b.bench.mnt.dhcp = false :=
  ⟨mp { dhcp := false }, 5, tb (mp { dhcp := false }) 5, rfl, by decide +kernel⟩

theorem meets_MaintenanceSessions_24 : ∃ (s : State) (t : Nat) (b : Mach),
    b = (s.m.tick t).benchTick ∧
    s.pending.any (hostAccessAt (t / 10)) = true :=
  ⟨{ mp (one .read) with pending := [.status 3, .hostRead 0 1 17] }, 15, tb (mp (one .read)) 15, rfl, by decide +kernel⟩

theorem meets_MaintenanceSessions_25 : ∃ (s : State) (t : Nat) (b : Mach),
    b = (s.m.tick t).benchTick ∧
    s.pending.any (hostAccessAt (t / 10)) = true :=
  ⟨{ mp (one .read) with pending := [.hostWrite 0 1 [1] 0 17] }, 15, tb (mp (one .read)) 15, rfl, by decide +kernel⟩

theorem meets_MaintenanceSessions_26 : ∃ (s : State) (t : Nat) (b : Mach),
    b = (s.m.tick t).benchTick ∧
    s.pending.any (hostAccessAt (t / 10)) = true :=
  ⟨{ mp (one .read) with pending := [.status 3, .enrol .host 0 17] }, 15, tb (mp (one .read)) 15, rfl, by decide +kernel⟩

theorem meets_MaintenanceSessions_27 : ∃ (s : State) (t : Nat) (d : MntDatagram) (x : MntSession) (b : Mach),
    b = (s.m.tick t).benchTick ∧
    b.benchServes = true ∧
    b.bench.mnt.waiting = [d] ∧
    d.req = .keep ∧
    d.head.whole = true ∧
    d.head.port = 27340 ∧
    headPasses 0x05 d.sess d.seq [] d.head = true ∧
    b.lockedOut d.head.ip = false ∧
    b.mntSess d.sess = some x ∧
    d.seq = x.seq + 1 :=
  ⟨mp { one .read with waiting := [kept] }, 17, kept, ses .read true, tb (mp { one .read with waiting := [kept] }) 17, rfl, by decide +kernel⟩

theorem meets_MaintenanceSessions_28 : ∃ (s : State) (h : MntHead) (seq : W32) (a : W32) (n : Nat) (k : Nat) (t : Nat) (x : MntSession) (ws : List W32) (b : Mach),
    b = (s.m.tick t).benchTick ∧
    mntTakes s t h 0x04 n seq (spanBytes a k ++ ws.flatMap bytes32) b = true ∧
    b.mntSess n = some x ∧
    seq = x.seq + 1 ∧
    k ≠ ws.length :=
  ⟨mp (one .read), head 0x04 2 0 (spanBytes 0 2 ++ bytes32 7), 0, 0, 2, 2, 5, ses .read true, [7], tb (mp (one .read)) 5, rfl, by decide +kernel⟩

end WMnt

/-! ### Witnesses: RecorderTransfers, UpdateSession -/

namespace WUpd

def tb (x : State) (t : Nat) : Mach := (x.m.tick t).benchTick
def ses (lv : Level) : MntSession := { id := 2, ip := 9, level := lv, challenge := 77, authed := true, seq := 0xFFFFFFFF, reply := none, sess := { chan := [(7, 3)], mask := [(3, 9)] } }
def rec1 (n : Nat) : Rec := { seq := n, code := 0xB001, unit := 0x11300000, inst := 0xFFFF, flags := 4, snapv := 0, p0 := 5, p1 := 6, snaps := [1, 2, 3], repCount := 2 }
def bs (x : Bench) : State := st { servB with bench := { x with up := true, secs := 700, mnt := { sessions := [ses .write] } } }
def recs (x : Recorder) : State := bs { recd := { x with secSeen := 9999 } }
def ud (x : Update) : State := bs { recd := { secSeen := 9999 }, upd := x }
def ro : State := st { servB with bench := { up := true, mnt := { sessions := [ses .read] } } }
def head (typ : Byte) (n : Nat) (seq : W32) (payload : List Byte) : MntHead :=
  let h : MntHead := { ip := 9, port := 27340, whole := true, magic := 0x5750, version := 1, length := BitVec.ofNat 16 payload.length, crc := 0 }
  { h with crc := crc32 (requestBytes h typ n seq payload) }
/-- A request in the session's next datagram. -/
def asks (x : Transfer) : UpdVia := .mnt (head (BitVec.ofNat 8 (transferTyp x)) 2 0 (transferPayload x)) 2 0
def mb : UpdVia := .mailbox 0xFFFFFFFF
def loading : Update := { state := 2, kind := some .firmware, maint := false, slot := .b, fwA := { state := .active }, fwB := { state := .loading }, manifestOk := true, len := 4097, blocks := [(0, [1])] }
def loadM : Update := { loading with maint := true }
def verif (k : SetKind) (len : Nat) : Update := { state := 3, kind := some k, slot := .b, fwA := { state := .active }, fwB := { state := .loading }, sdA := { state := .active }, len := len, verifyFor := some (.host, 0xFFFFFFFF) }
def trialU : Update := { fwA := { state := .previous }, fwB := { state := .trial }, trial := some .firmware, trialFrom := some 0, serviceFrom := some 0, phase := 5 }
def repS : State := ud { report := List.replicate 9 7, attNonce := some 3, attFor := some (.mnt 2, 0) }

theorem meets_RecorderTransfers_1 : ∃ (s : State) (h : MntHead) (n : Nat) (t : Nat) (seq : W32) (x : MntSession) (b : Mach),
    b = (s.m.tick t).benchTick ∧
    mntTakes s t h 0x20 n seq [] b = true ∧
    b.mntSess n = some x ∧
    x.authed = true ∧
    seq = x.seq + 1 :=
  ⟨recs { ram := [rec1 0, rec1 1], next := 2 }, head 0x20 2 0 [], 2, 5, 0, ses .write, tb (recs { ram := [rec1 0, rec1 1], next := 2 }) 5, rfl, by decide +kernel⟩

theorem meets_RecorderTransfers_2 : ∃ (s : State) (h : MntHead) (n : Nat) (t : Nat) (first : Nat) (count : Nat) (seq : W32) (x : MntSession) (b : Mach),
    b = (s.m.tick t).benchTick ∧
    mntTakes s t h 0x21 n seq (beBytes 6 first ++ beBytes 2 count) b = true ∧
    b.mntSess n = some x ∧
    x.authed = true ∧
    seq = x.seq + 1 ∧
    1 ≤ count ∧
    count ≤ 16 :=
  ⟨recs { ram := [rec1 0, rec1 1], next := 2 }, head 0x21 2 0 (beBytes 6 1 ++ beBytes 2 16), 2, 5, 1, 16, 0, ses .write, tb (recs { ram := [rec1 0, rec1 1], next := 2 }) 5, rfl, by decide +kernel⟩

theorem meets_RecorderTransfers_3 : ∃ (s : State) (h : MntHead) (n : Nat) (t : Nat) (first : Nat) (count : Nat) (seq : W32) (x : MntSession) (b : Mach),
    b = (s.m.tick t).benchTick ∧
    mntTakes s t h 0x21 n seq (beBytes 6 first ++ beBytes 2 count) b = true ∧
    b.mntSess n = some x ∧
    x.authed = true ∧
    seq = x.seq + 1 ∧
    (count = 0 ∨ 16 < count) :=
  ⟨recs { ram := [rec1 0, rec1 1], next := 2 }, head 0x21 2 0 (beBytes 6 1 ++ beBytes 2 17), 2, 5, 1, 17, 0, ses .write, tb (recs { ram := [rec1 0, rec1 1], next := 2 }) 5, rfl, by decide +kernel⟩

theorem meets_RecorderTransfers_4 : ∃ (r : Recorder) (first : Nat) (count : Nat) (x : Rec),
    x ∈ (r.fetch first count).2 :=
  ⟨{ ram := [rec1 0, rec1 1] }, 1, 16, rec1 1, by decide +kernel⟩

theorem meets_RecorderTransfers_5 : ∃ (s : State) (h : MntHead) (n : Nat) (t : Nat) (seq : W32) (x : MntSession) (b : Mach),
    b = (s.m.tick t).benchTick ∧
    mntTakes s t h 0x22 n seq [1] b = true ∧
    b.mntSess n = some x ∧
    x.authed = true ∧
    x.level = .write ∧
    seq = x.seq + 1 ∧
    b.bench.recd.frozen = none ∧
    b.freezeRefused (.mnt n) = false :=
  ⟨recs {}, head 0x22 2 0 [1], 2, 5, 0, ses .write, tb (recs {}) 5, rfl, by decide +kernel⟩

theorem meets_RecorderTransfers_6 : ∃ (s : State) (h : MntHead) (n : Nat) (t : Nat) (c : Nat) (seq : W32) (x : MntSession) (b : Mach),
    b = (s.m.tick t).benchTick ∧
    mntTakes s t h 0x22 n seq [2] b = true ∧
    b.mntSess n = some x ∧
    x.authed = true ∧
    x.level = .write ∧
    seq = x.seq + 1 ∧
    b.bench.recd.frozen = some (.mnt n, 0, c) :=
  ⟨recs { frozen := some (.mnt 2, 0, 3) }, head 0x22 2 0 [2], 2, 5, 3, 0, ses .write, tb (recs { frozen := some (.mnt 2, 0, 3) }) 5, rfl, by decide +kernel⟩

theorem meets_RecorderTransfers_7 : ∃ (s : State) (h : MntHead) (n : Nat) (t : Nat) (seq : W32) (op : Byte) (x : MntSession) (b : Mach),
    b = (s.m.tick t).benchTick ∧
    mntTakes s t h 0x22 n seq [op] b = true ∧
    b.mntSess n = some x ∧
    x.authed = true ∧
    x.level = .write ∧
    seq = x.seq + 1 ∧
    op ≠ 1 ∧
    op ≠ 2 :=
  ⟨recs {}, head 0x22 2 0 [3], 2, 5, 0, 3, ses .write, tb (recs {}) 5, rfl, by decide +kernel⟩

theorem meets_RecorderTransfers_8 : ∃ (s : State) (h : MntHead) (n : Nat) (t : Nat) (seq : W32) (op : Byte) (x : MntSession) (b : Mach),
    b = (s.m.tick t).benchTick ∧
    mntTakes s t h 0x22 n seq [op] b = true ∧
    b.mntSess n = some x ∧
    x.authed = true ∧
    x.level = .read ∧
    seq = x.seq + 1 :=
  ⟨ro, head 0x22 2 0 [1], 2, 5, 0, 1, ses .read, tb ro 5, rfl, by decide +kernel⟩

theorem meets_RecorderTransfers_9 : ∃ (s : State) (via : UpdVia) (sess : Sess) (num : W32) (nonce : BitVec 256) (t : Nat) (b : Mach),
    b = (s.m.tick t).benchTick ∧
    (sess, num) = updFrom via ∧
    mayAsk s t via (.attest nonce) b = true :=
  ⟨repS, asks (.attest 8), .mnt 2, 0, 8, 5, tb repS 5, rfl, by decide +kernel⟩

theorem meets_RecorderTransfers_10 : ∃ (s : State) (sess : Sess) (num : W32) (nonce : BitVec 256) (t : Nat) (b : Mach),
    b = (s.m.tick t).benchTick ∧
    b.bench.upd.attNonce = some nonce ∧
    b.bench.upd.attFor = some (sess, num) ∧
    mailFree b = true :=
  ⟨repS, .mnt 2, 0, 3, 5, tb repS 5, rfl, by decide +kernel⟩

theorem meets_RecorderTransfers_11 : ∃ (s : State) (t : Nat) (b : Mach),
    b = (s.m.tick t).benchTick ∧
    b.bench.upd.attNonce = none :=
  ⟨ud {}, 5, tb (ud {}) 5, rfl, by decide +kernel⟩

theorem meets_RecorderTransfers_12 : ∃ (s : State) (via : UpdVia) (sess : Sess) (num : W32) (off : Nat) (len : Nat) (t : Nat) (b : Mach),
    b = (s.m.tick t).benchTick ∧
    (sess, num) = updFrom via ∧
    mayAsk s t via (.attRead off len) b = true ∧
    1 ≤ len ∧
    len ≤ 1024 ∧
    off + len ≤ b.bench.upd.report.length :=
  ⟨repS, asks (.attRead 1 8), .mnt 2, 0, 1, 8, 5, tb repS 5, rfl, by decide +kernel⟩

theorem meets_RecorderTransfers_13 : ∃ (s : State) (via : UpdVia) (sess : Sess) (num : W32) (off : Nat) (len : Nat) (t : Nat) (b : Mach),
    b = (s.m.tick t).benchTick ∧
    (sess, num) = updFrom via ∧
    mayAsk s t via (.attRead off len) b = true ∧
    (len = 0 ∨ 1024 < len) :=
  ⟨repS, mb, .host, 0xFFFFFFFF, 1, 0, 5, tb repS 5, rfl, by decide +kernel⟩

theorem meets_RecorderTransfers_14 : ∃ (s : State) (via : UpdVia) (sess : Sess) (num : W32) (off : Nat) (len : Nat) (t : Nat) (b : Mach),
    b = (s.m.tick t).benchTick ∧
    (sess, num) = updFrom via ∧
    mayAsk s t via (.attRead off len) b = true ∧
    1 ≤ len ∧
    len ≤ 1024 ∧
    b.bench.upd.report.length < off + len :=
  ⟨repS, asks (.attRead 2 8), .mnt 2, 0, 2, 8, 5, tb repS 5, rfl, by decide +kernel⟩

theorem meets_UpdateSession_1 : ∃ (s : State) (via : UpdVia) (sess : Sess) (num : W32) (k : SetKind) (mlen : Nat) (t : Nat) (i : SlotId) (b : Mach),
    b = (s.m.tick t).benchTick ∧
    (sess, num) = updFrom via ∧
    mayAsk s t via (.updOpen (BitVec.ofNat 8 (kindCode k)) mlen) b = true ∧
    b.bench.upd.opened = false ∧
    k ≠ .enrolment ∧
    i = b.bench.upd.target k ∧
    b.bench.upd.onTrial k = false ∧
    16736 ≤ mlen ∧
    mlen ≤ 17696 :=
  ⟨ud { fwA := { state := .active }, fwB := { state := .verified } }, asks (.updOpen 1 16736), .mnt 2, 0, .firmware, 16736, 5, .b, tb (ud { fwA := { state := .active }, fwB := { state := .verified } }) 5, rfl, by decide +kernel⟩

theorem meets_UpdateSession_2 : ∃ (s : State) (via : UpdVia) (sess : Sess) (num : W32) (mlen : Nat) (t : Nat) (b : Mach),
    b = (s.m.tick t).benchTick ∧
    (sess, num) = updFrom via ∧
    mayAsk s t via (.updOpen 3 mlen) b = true ∧
    b.bench.upd.opened = false ∧
    16736 ≤ mlen ∧
    mlen ≤ 17696 :=
  ⟨ud {}, mb, .host, 0xFFFFFFFF, 17696, 5, tb (ud {}) 5, rfl, by decide +kernel⟩

theorem meets_UpdateSession_3 : ∃ (s : State) (via : UpdVia) (sess : Sess) (num : W32) (kind : Byte) (mlen : Nat) (t : Nat) (b : Mach),
    b = (s.m.tick t).benchTick ∧
    (sess, num) = updFrom via ∧
    mayAsk s t via (.updOpen kind mlen) b = true ∧
    (b.bench.upd.opened = true ∨ kindOf kind = none) :=
  ⟨ud {}, mb, .host, 0xFFFFFFFF, 4, 17696, 5, tb (ud {}) 5, rfl, by decide +kernel⟩

theorem meets_UpdateSession_4 : ∃ (s : State) (via : UpdVia) (sess : Sess) (num : W32) (kind : Byte) (mlen : Nat) (t : Nat) (b : Mach),
    b = (s.m.tick t).benchTick ∧
    (sess, num) = updFrom via ∧
    mayAsk s t via (.updOpen kind mlen) b = true ∧
    b.bench.upd.opened = false ∧
    (kindOf kind).isSome = true ∧
    (mlen < 16736 ∨ 17696 < mlen) :=
  ⟨ud {}, mb, .host, 0xFFFFFFFF, 3, 17697, 5, tb (ud {}) 5, rfl, by decide +kernel⟩

theorem meets_UpdateSession_5 : ∃ (s : State) (via : UpdVia) (sess : Sess) (num : W32) (off : Nat) (t : Nat) (data : List Byte) (k : SetKind) (b : Mach),
    b = (s.m.tick t).benchTick ∧
    (sess, num) = updFrom via ∧
    mayAsk s t via (.block off none data (crc32 data) true) b = true ∧
    b.bench.upd.owned sess = true ∧
    b.bench.upd.state ≠ 3 ∧
    b.bench.upd.kind = some k ∧
    b.bench.upd.manifestOk = true ∧
    off % 4096 = 0 ∧
    off < b.bench.upd.len ∧
    data.length = min 4096 (b.bench.upd.len - off) ∧
    assocGet off b.bench.upd.blocks = none :=
  ⟨ud loading, mb, .host, 0xFFFFFFFF, 4096, 5, [7], .firmware, tb (ud loading) 5, rfl, by decide +kernel⟩

theorem meets_UpdateSession_6 : ∃ (s : State) (via : UpdVia) (sess : Sess) (num : W32) (off : Nat) (t : Nat) (data : List Byte) (crc : W32) (ok : Bool) (k : SetKind) (b : Mach),
    b = (s.m.tick t).benchTick ∧
    (sess, num) = updFrom via ∧
    mayAsk s t via (.block off none data crc ok) b = true ∧
    b.bench.upd.owned sess = true ∧
    b.bench.upd.state ≠ 3 ∧
    b.bench.upd.kind = some k ∧
    b.bench.upd.manifestOk = true ∧
    off % 4096 = 0 ∧
    off < b.bench.upd.len ∧
    data.length = min 4096 (b.bench.upd.len - off) ∧
    crc ≠ crc32 data :=
  ⟨ud loading, mb, .host, 0xFFFFFFFF, 4096, 5, [7], 1, true, .firmware, tb (ud loading) 5, rfl, by decide +kernel⟩

theorem meets_UpdateSession_7 : ∃ (s : State) (via : UpdVia) (sess : Sess) (num : W32) (off : Nat) (t : Nat) (data : List Byte) (old : List Byte) (k : SetKind) (b : Mach),
    b = (s.m.tick t).benchTick ∧
    (sess, num) = updFrom via ∧
    mayAsk s t via (.block off none data (crc32 data) true) b = true ∧
    b.bench.upd.owned sess = true ∧
    b.bench.upd.state ≠ 3 ∧
    b.bench.upd.kind = some k ∧
    b.bench.upd.manifestOk = true ∧
    off % 4096 = 0 ∧
    off < b.bench.upd.len ∧
    data.length = min 4096 (b.bench.upd.len - off) ∧
    assocGet off b.bench.upd.blocks = some old :=
  ⟨ud { loading with blocks := [(4096, [8])] }, mb, .host, 0xFFFFFFFF, 4096, 5, [7], [8], .firmware, tb (ud { loading with blocks := [(4096, [8])] }) 5, rfl, by decide +kernel⟩

theorem meets_UpdateSession_8 : ∃ (s : State) (via : UpdVia) (sess : Sess) (num : W32) (off : Nat) (t : Nat) (data : List Byte) (k : SetKind) (b : Mach),
    b = (s.m.tick t).benchTick ∧
    (sess, num) = updFrom via ∧
    mayAsk s t via (.block off none data (crc32 data) false) b = true ∧
    b.bench.upd.owned sess = true ∧
    b.bench.upd.state ≠ 3 ∧
    b.bench.upd.kind = some k ∧
    b.bench.upd.manifestOk = true ∧
    off % 4096 = 0 ∧
    off < b.bench.upd.len ∧
    data.length = min 4096 (b.bench.upd.len - off) ∧
    assocGet off b.bench.upd.blocks = none :=
  ⟨ud loading, mb, .host, 0xFFFFFFFF, 4096, 5, [7], .firmware, tb (ud loading) 5, rfl, by decide +kernel⟩

theorem meets_UpdateSession_9 : ∃ (s : State) (via : UpdVia) (sess : Sess) (num : W32) (off : Nat) (t : Nat) (data : List Byte) (crc : W32) (ok : Bool) (b : Mach),
    b = (s.m.tick t).benchTick ∧
    (sess, num) = updFrom via ∧
    mayAsk s t via (.block off none data crc ok) b = true ∧
    b.bench.upd.owned sess = false :=
  ⟨ud loading, asks (.block 4096 none [7] 0 true), .mnt 2, 0, 4096, 5, [7], 0, true, tb (ud loading) 5, rfl, by decide +kernel⟩

theorem meets_UpdateSession_10 : ∃ (s : State) (h : MntHead) (n : Nat) (num : W32) (off : Nat) (t : Nat) (p : BlockPart) (data : List Byte) (crc : W32) (ok : Bool) (b : Mach),
    b = (s.m.tick t).benchTick ∧
    mayAsk s t (.mnt h n num) (.block off (some p) data crc ok) b = true ∧
    b.bench.upd.owned (.mnt n) = true ∧
    p.len ≤ 4096 ∧
    p.part < 4 ∧
    1 ≤ data.length ∧
    data.length = min 1024 (p.len - 1024 * p.part) ∧
    1024 < p.len ∧
    b.bench.upd.parts = [] :=
  ⟨ud loadM, head 0x11 2 0 (transferPayload (.block 4096 (some ⟨1, 1025⟩) [7] 0 true)), 2, 0, 4096, 5, ⟨1, 1025⟩, [7], 0, true, tb (ud loadM) 5, rfl, by decide +kernel⟩

theorem meets_UpdateSession_11 : ∃ (s : State) (h : MntHead) (n : Nat) (num : W32) (off : Nat) (t : Nat) (data : List Byte) (crc : W32) (ok : Bool) (b : Mach),
    b = (s.m.tick t).benchTick ∧
    mayAsk s t (.mnt h n num) (.block off (some ⟨0, data.length⟩) data crc ok) b = true ∧
    b.bench.upd.owned (.mnt n) = true ∧
    1 ≤ data.length ∧
    data.length ≤ 1024 ∧
    b.bench.upd.parts = [] :=
  ⟨ud loadM, head 0x11 2 0 (transferPayload (.block 4096 (some ⟨0, 1⟩) [7] 0 true)), 2, 0, 4096, 5, [7], 0, true, tb (ud loadM) 5, rfl, by decide +kernel⟩

theorem meets_UpdateSession_13 : ∃ (s : State) (via : UpdVia) (sess : Sess) (num : W32) (t : Nat) (b : Mach),
    b = (s.m.tick t).benchTick ∧
    (sess, num) = updFrom via ∧
    mayAsk s t via .verify b = true ∧
    b.bench.upd.owned sess = true ∧
    b.bench.upd.state = 2 :=
  ⟨ud loading, mb, .host, 0xFFFFFFFF, 5, tb (ud loading) 5, rfl, by decide +kernel⟩

theorem meets_UpdateSession_14 : ∃ (s : State) (via : UpdVia) (sess : Sess) (num : W32) (t : Nat) (b : Mach),
    b = (s.m.tick t).benchTick ∧
    (sess, num) = updFrom via ∧
    mayAsk s t via .verify b = true ∧
    (b.bench.upd.owned sess = false ∨ b.bench.upd.state ≠ 2) :=
  ⟨ud loading, asks (.verify), .mnt 2, 0, 5, tb (ud loading) 5, rfl, by decide +kernel⟩

theorem meets_UpdateSession_15 : ∃ (s : State) (sess : Sess) (num : W32) (t : Nat) (k : SetKind) (b : Mach),
    b = (s.m.tick t).benchTick ∧
    b.benchServes = true ∧
    b.bench.upd.state = 3 ∧
    b.bench.upd.kind = some k ∧
    k ≠ .enrolment ∧
    b.mod.mode ≠ .config ∧
    b.bench.upd.badComponent (decodeManifest (b.bench.upd.image b.bench.upd.mlen)) = none ∧
    b.bench.upd.missing b.bench.upd.len = none ∧
    b.bench.upd.verifyFor = some (sess, num) ∧
    mailFree b = true :=
  ⟨ud (verif .firmware 0), .host, 0xFFFFFFFF, 5, .firmware, tb (ud (verif .firmware 0)) 5, rfl, by decide +kernel⟩

theorem meets_UpdateSession_16 : ∃ (s : State) (sess : Sess) (num : W32) (t : Nat) (o : Nat) (k : SetKind) (b : Mach),
    b = (s.m.tick t).benchTick ∧
    b.benchServes = true ∧
    b.bench.upd.state = 3 ∧
    b.bench.upd.kind = some k ∧
    k ≠ .enrolment ∧
    b.bench.upd.badComponent (decodeManifest (b.bench.upd.image b.bench.upd.mlen)) = none ∧
    b.bench.upd.missing b.bench.upd.len = some o ∧
    b.bench.upd.verifyFor = some (sess, num) ∧
    mailFree b = true :=
  ⟨ud (verif .firmware 1), .host, 0xFFFFFFFF, 5, 0, .firmware, tb (ud (verif .firmware 1)) 5, rfl, by decide +kernel⟩

theorem meets_UpdateSession_17 : ∃ (s : State) (t : Nat) (b : Mach),
    b = (s.m.tick t).benchTick ∧
    b.benchServes = true ∧
    b.bench.upd.state = 3 ∧
    b.bench.upd.kind = some .enrolment ∧
    b.configIdle = false ∧
    b.bench.upd.badComponent (decodeManifest (b.bench.upd.image b.bench.upd.mlen)) = none ∧
    b.bench.upd.missing b.bench.upd.len = none :=
  ⟨ud (verif .enrolment 0), 5, tb (ud (verif .enrolment 0)) 5, rfl, by decide +kernel⟩

theorem meets_UpdateSession_18 : ∃ (s : State) (t : Nat) (b : Mach),
    b = (s.m.tick t).benchTick ∧
    b.bench.upd.state ≠ 3 :=
  ⟨ud loading, 5, tb (ud loading) 5, rfl, by decide +kernel⟩

theorem meets_UpdateSession_19 : ∃ (s : State) (via : UpdVia) (sess : Sess) (num : W32) (t : Nat) (k : SetKind) (b : Mach),
    b = (s.m.tick t).benchTick ∧
    (sess, num) = updFrom via ∧
    mayAsk s t via .abort b = true ∧
    b.bench.upd.owned sess = true ∧
    b.bench.upd.kind = some k ∧
    k ≠ .enrolment :=
  ⟨ud loading, mb, .host, 0xFFFFFFFF, 5, .firmware, tb (ud loading) 5, rfl, by decide +kernel⟩

theorem meets_UpdateSession_20 : ∃ (s : State) (via : UpdVia) (sess : Sess) (num : W32) (t : Nat) (b : Mach),
    b = (s.m.tick t).benchTick ∧
    (sess, num) = updFrom via ∧
    mayAsk s t via .abort b = true ∧
    b.bench.upd.owned sess = false :=
  ⟨ud loading, asks (.abort), .mnt 2, 0, 5, tb (ud loading) 5, rfl, by decide +kernel⟩

theorem meets_UpdateSession_21 : ∃ (s : State) (via : UpdVia) (sess : Sess) (num : W32) (t : Nat) (b : Mach),
    b = (s.m.tick t).benchTick ∧
    (sess, num) = updFrom via ∧
    mayAsk s t via .updStatus b = true :=
  ⟨ud loading, mb, .host, 0xFFFFFFFF, 5, tb (ud loading) 5, rfl, by decide +kernel⟩

theorem meets_UpdateSession_22 : ∃ (s : State) (t : Nat) (k : SetKind) (b : Mach),
    b = (s.m.tick t).benchTick ∧
    b.bench.upd.opened = true ∧
    b.bench.upd.reqAt + 600000000000 ≤ max s.m.now t ∧
    b.bench.upd.kind = some k ∧
    k ≠ .enrolment :=
  ⟨ud loading, 600000000000, .firmware, tb (ud loading) 600000000000, rfl, by decide +kernel⟩

theorem meets_UpdateSession_23 : ∃ (s : State) (t : Nat) (b : Mach),
    b = (s.m.tick t).benchTick ∧
    (b.bench.upd.opened = false ∨ max s.m.now t < b.bench.upd.reqAt + 600000000000) :=
  ⟨ud loading, 599999999999, tb (ud loading) 599999999999, rfl, by decide +kernel⟩

theorem meets_UpdateSession_24 : ∃ (s : State) (t : Nat) (c : Nat) (b : Mach),
    b = (s.m.tick t).benchTick ∧
    b.bench.upd.trial.isSome = true ∧
    b.bench.upd.serviceFrom = some c ∧
    c + 600000000000 ≤ max s.m.now t :=
  ⟨ud trialU, 600000000000, 0, tb (ud trialU) 600000000000, rfl, by decide +kernel⟩

theorem meets_UpdateSession_25 : ∃ (s : State) (t : Nat) (b : Mach),
    b = (s.m.tick t).benchTick ∧
    (b.bench.upd.trial = none ∨ b.bench.upd.serviceFrom.all (fun c => decide (max s.m.now t < c + 600000000000)) = true) :=
  ⟨ud trialU, 599999999999, tb (ud trialU) 599999999999, rfl, by decide +kernel⟩

theorem meets_UpdateSession_26 : ∃ (s : State) (t : Nat) (c : Nat) (i : SlotId) (b : Mach),
    b = (s.m.tick t).benchTick ∧
    b.bench.upd.trial = some .firmware ∧
    b.bench.upd.find .firmware (fun q => q == .trial) = some i ∧
    b.bench.upd.phase ≠ 6 ∧
    b.bench.upd.trialFrom = some c ∧
    c + 60000000000 ≤ max s.m.now t ∧
    b.mod.mode = .service :=
  ⟨ud trialU, 60000000000, 0, .b, tb (ud trialU) 60000000000, rfl, by decide +kernel⟩

theorem meets_UpdateSession_27 : ∃ (s : State) (t : Nat) (b : Mach),
    b = (s.m.tick t).benchTick ∧
    (b.bench.upd.trial = none ∨ b.bench.upd.trialFrom.all (fun c => decide (max s.m.now t < c + 60000000000)) = true) :=
  ⟨ud trialU, 59999999999, tb (ud trialU) 59999999999, rfl, by decide +kernel⟩

end WUpd

/-! ### Witnesses: RegisterSpaceRules -/

namespace WSpace

def tb (x : State) (t : Nat) : Mach := (x.m.tick t).benchTick
def ses (lv : Level) : MntSession := { id := 2, ip := 9, level := lv, challenge := 0, authed := true, seq := 0, sess := { chan := [(7, 3)], mask := [(3, 9)] } }
def via (a : W32) (data : List W32) : Via := .mnt (let h : MntHead := { ip := 9, port := 27340, whole := true, magic := 0x5750, version := 1, length := BitVec.ofNat 16 (8 + 4 * data.length), crc := 0 }
  { h with crc := crc32 (requestBytes h 0x04 2 1 (spanBytes a data.length ++ data.flatMap bytes32)) }) 2 1
def two : State := st { servB with bench := { up := true, host := { host := some { chan := [(8, 1)] } }, mnt := { sessions := [ses .read] } }, irq := [(Page.module.no, 0x1FF)] }

theorem meets_RegisterSpaceRules_1 : ∃ (s : State) (via : Via) (sess : Sess) (p : Page) (index : W16) (t : Nat) (b : Mach),
    b = (s.m.tick t).benchTick ∧
    sess = viaSess via ∧
    mayWrite s t via (regOf p.path 0x018) [index.setWidth 32] false b = true ∧
    p.count b ≤ index.toNat :=
  ⟨two, via (regOf Page.out.path 0x018) [24], .mnt 2, .out, 24, 5, tb two 5, rfl, by decide +kernel⟩

theorem meets_RegisterSpaceRules_2 : ∃ (s : State) (via : Via) (sess : Sess) (p : Page) (mask : W32) (v : W32) (t : Nat) (b : Mach),
    b = (s.m.tick t).benchTick ∧
    sess = viaSess via ∧
    mayWrite s t via (regOf p.path 0x014) [mask, v] false b = true ∧
    p.count b ≤ v.toNat % 2 ^ 16 :=
  ⟨two, via (regOf Page.counters.path 0x014) [7, 32], .mnt 2, .counters, 7, 32, 5, tb two 5, rfl, by decide +kernel⟩

theorem meets_RegisterSpaceRules_3 : ∃ (s : State) (via : Via) (sess : Sess) (a : W32) (v : W32) (t : Nat) (b : Mach),
    b = (s.m.tick t).benchTick ∧
    sess = viaSess via ∧
    mayWrite s t via a [v] false b = true ∧
    b.place a = .absent ∧
    inMailbox a = false ∧
    addrOk sess a 1 = true ∧
    addrOffset a = 0x018 :=
  ⟨two, .host, .host, 0x20000018, 0, 5, tb two 5, rfl, by decide +kernel⟩

theorem meets_RegisterSpaceRules_4 : ∃ (p : Page),
    p.isGroup = false :=
  ⟨.out, by decide +kernel⟩

theorem meets_RegisterSpaceRules_5 : ∃ (s : State) (via : Via) (sess : Sess) (p : Page) (bits : W32) (t : Nat) (b : Mach),
    b = (s.m.tick t).benchTick ∧
    sess = viaSess via ∧
    mayWrite s t via (regOf p.path 0x010) [bits] false b = true ∧
    b.bench.host.closedByTimeout = false :=
  ⟨two, via (regOf Page.module.path 0x010) [0x1F0], .mnt 2, .module, 0x1F0, 5, tb two 5, rfl, by decide +kernel⟩

end WSpace

/-! ### Witnesses: StepRunsFront, ResetState, EveryStep, CanonicalMemories -/

namespace WStep

def waits : State := { pending := [.irqStatClear .host 0x10000000 0x100 5, .status 6], m := { servB with mod := { mode := .halt }, irq := [(Page.module.no, 0x1FF)] } }
def aftr (s : State) : State := match step s with | .next t => t | _ => s

theorem meets_StepRunsFront_2 : ∃ (c : Instr) (rest : List Instr) (s : State),
    s.pending = c :: rest :=
  ⟨.status 6, [.status 7], { waits with pending := [.status 6, .status 7] }, by decide +kernel⟩

theorem meets_StepRunsFront_3 : ∃ (s : State),
    s.pending = [] :=
  ⟨st serv, by decide +kernel⟩

theorem meets_EveryStep_2 : ∃ (s : State) (c : Instr) (rest : List Instr),
    s.pending = c :: rest :=
  ⟨waits, .irqStatClear .host 0x10000000 0x100 5, [.status 6], by decide +kernel⟩

theorem meets_CanonicalMemories_1 : ∃ (s : State) (t : State),
    canonical s.m = true ∧
    step s = .next t :=
  ⟨waits, aftr waits, by exact ⟨by decide +kernel, rfl⟩⟩

end WStep

end Sys2Proof.Tests
end

section
/-! SUPPORT. The loss of a ring link ends the loop-back of the other port (R300): the law, and with it the refutation of O4. -/

namespace Sys2Proof.Machine

/-! ### Loop-back at a port -/

/-- The code of a turning point by the side whose link is lost (R300). -/
def turnCode : Dir → BitVec 2
  | .east => 1
  | .west => 2

/-- A module turns at a side only while the other port is in ring service. -/
theorem turnOf_ne_turnCode (r : RingIfc) (d : Dir) (h : (r.port (otherDir d)).service = false) : turnOf r ≠ turnCode d := by
  unfold turnOf
  cases d with
  | east =>
    have hw : r.west.service = false := h
    rw [hw, Bool.and_false, if_neg Bool.false_ne_true]
    split <;> decide
  | west =>
    have he : r.east.service = false := h
    rw [he, Bool.and_false, if_neg Bool.false_ne_true]
    split <;> decide

/-- Once the turning point is set anew, the port at the turned side loops back and the other does not. -/
theorem Mach.setTurn_port_loop (i : RingId) (d : Dir) (m : Mach) :
    (((m.setTurn i).ring i).port d).loop = decide (turnOf (m.ring i) = turnCode d) := by
  unfold Mach.setTurn
  dsimp only
  split
  · cases i <;> cases d <;> rfl
  · split <;> cases i <;> cases d <;> rfl

/-- A port loops back only while the other one is in ring service. -/
theorem Mach.setTurn_ends_loop (i : RingId) (d : Dir) (m : Mach) (h : ((m.ring i).port (otherDir d)).service = false) :
    (((m.setTurn i).ring i).port d).loop = false := by
  rw [Mach.setTurn_port_loop]
  exact decide_eq_false (turnOf_ne_turnCode _ d h)

/-- The loss of a link that was up takes its port out of ring service, so the other port no longer loops back (R299, R300). -/
theorem ringLinkLoss_ends_loop (i : RingId) (d : Dir) (m : Mach) (h : ((m.ring i).port (otherDir d)).up = true) :
    (((ringLinkLoss i (otherDir d) m).ring i).port d).loop = false := by
  unfold ringLinkLoss
  dsimp only
  rw [if_neg (by simp [h]), if_pos h]
  refine Mach.setTurn_ends_loop i d _ ?_
  cases i <;> cases d <;> rfl

/-! ### The refutation -/

/-- What `Completes` says of a command is true of the module that its function makes, under the hold of HALT. -/
theorem Completes.of_run {i : Instr} {s : State} {P : Mach → Prop} (f : Mach → Mach) (he : exec i s = s.run f)
    (h : Completes i s P) : P (s.m.supervise (f s.m)) := by
  obtain ⟨t, ht, _, hp⟩ := h
  rw [he, State.run_eq, Host.Outcome.next.injEq] at ht
  subst ht
  exact hp

/-- A module whose interface 1 has both links in ring service: optical to the east, electrical to the west. -/
def mixedLinks : Mach :=
  { State.reset.m with
    power := { powered := true, supplyOk := true, carrierOn := true }
    ring1 := { east := { up := true, fx := true, service := true }, west := { up := true, service := true } } }

/-- The same module once its west link is lost: the west turning point of its ring, which shows loop-back there (R300, R303). -/
def westTurningPoint : Mach := ringLinkLoss .r1 .west mixedLinks

/-- The carrier's short reaches that module as the loss of its east link, its only optical one. -/
theorem carrierSupplyShort_westTurningPoint :
    carrierSupplyShort (westTurningPoint.tick 0) =
      ringLinkLoss .r1 .east ((westTurningPoint.tick 0).updPower (fun p => { p with
        carrierOn := false, carrierShort := true, carrierAt := 0 })) := rfl

end Sys2Proof.Machine

open Sys2Proof Sys2Proof.Machine

/-- Refutes O4: a short of the carrier's output does change a port that is not strapped as optical. At a west turning point whose
west link is electrical and whose east link is optical, the short takes the east link (R485); with neither link in ring service
the module turns no longer, and the west port's `LOOP` goes from 1 to 0 (R300, R303). The clause on CARRIER_SUPPLY_SHORT asks that
the whole west port stays as it was. -/
theorem not_railCommands : ¬ Obligations.RailCommands := by
  unfold Obligations.RailCommands
  rintro ⟨-, -, -, -, -, -, -, -, -, -, hshort, -⟩
  obtain ⟨-, -, hkept, -⟩ := (hshort ⟨[], westTurningPoint⟩ 0 rfl).of_run (fun m => carrierSupplyShort (m.tick 0)) rfl
  have hport := hkept .r1 (by decide) .west (by decide) rfl
  have hbefore : ((westTurningPoint.ring .r1).port .west).loop = true := rfl
  have hafter : (((carrierSupplyShort (westTurningPoint.tick 0)).ring .r1).port .west).loop = false := by
    rw [carrierSupplyShort_westTurningPoint]
    exact ringLinkLoss_ends_loop .r1 .west _ rfl
  rw [Mach.supervise_of_ne _ _ (by decide)] at hport
  rw [← hport, hafter] at hbefore
  exact Bool.false_ne_true hbefore

end

section
/-! SUPPORT. A read of the mailbox in the clock of a write: the word as it was before it (R61), and with it the refutation of O51. -/

namespace Sys2Proof.Machine

/-- A powered module whose host port wrote 1 over the first mailbox word in the Bench clock that runs. -/
def mailJustWritten : Mach :=
  { State.reset.m with power := { powered := true }, bench := { up := true, host := HostPort.store 0 [(0, 1)] {} } }

/-- A read in that clock is answered with the word before the write (R61). -/
theorem hostRead_mailJustWritten :
    ((hostRead 0x80000000 1 (mailJustWritten.tick 0).benchTick).serveWaiting).bench.host.reply = some { status := .ok, data := [0] } := by
  decide +kernel

end Sys2Proof.Machine

open Sys2Proof Sys2Proof.Machine

/-- Refutes O51: a read of a mailbox word in the Bench clock in which it was written is answered with what it held before
(R61), and not, as the first clause asks, with what the mailbox holds. -/
theorem not_hostFrames : ¬ Obligations.HostFrames := by
  unfold Obligations.HostFrames
  rintro ⟨hread, -⟩
  obtain ⟨hreply, -⟩ := (hread ⟨[], mailJustWritten⟩ 0 1 0 _ rfl rfl rfl le_rfl (by decide)).of_run
    (fun m => (hostRead 0x80000000 1 (m.tick 0).benchTick).serveWaiting) rfl
  rw [Mach.supervise_of_ne _ _ (by decide), hostRead_mailJustWritten] at hreply
  exact absurd hreply (by decide +kernel)

end

section
/-! SUPPORT. A request repeated from another address: the stored reply goes to where the repeat came from (R67), and with it the
refutation of O53. -/

namespace Sys2Proof.Machine

/-- The reply that a maintenance session was last given: to a WRITE numbered 1, sent to address 1. -/
def replyStored : MntReply := { ip := 1, typ := 0x04, session := 1, status := .ok, seq := 1, data := [] }

/-- The session whose request 1 was answered with it. -/
def answeredSession : MntSession :=
  { id := 1, ip := 1, level := .read, challenge := 0, authed := true, seq := 1, typ := 0x04, reply := some replyStored }

/-- A powered module with that session. -/
def sessionAnswered : Mach :=
  { State.reset.m with
    power := { powered := true }
    bench := { up := true, mnt := { sessions := [answeredSession] } } }

/-- The header of the same WRITE, of a mask of the module descriptor, repeated from address 2. -/
def repeatHead : MntHead :=
  let h : MntHead := { ip := 2, port := 27340, whole := true, magic := 0x5750, version := 1, length := 12, crc := 0 }
  { h with crc := crc32 (requestBytes h 0x04 1 1 (spanBytes (regOf Page.module.path 0x014) 1 ++ bytes32 0)) }

/-- The repeated datagram. -/
def repeatDatagram : MntDatagram :=
  { head := repeatHead, sess := 1, seq := 1, req := .access (regOf Page.module.path 0x014) 1 (some [0]) }

theorem mntSess_sessionAnswered : (sessionAnswered.tick 0).benchTick.mntSess 1 = some answeredSession := by
  decide +kernel

theorem mntTakes_repeatHead :
    mntTakes ⟨[], sessionAnswered⟩ 0 repeatHead 0x04 1 1 (spanBytes (regOf Page.module.path 0x014) 1 ++ bytes32 0)
      (sessionAnswered.tick 0).benchTick = true := by
  decide +kernel

/-- The repeat is answered with the stored reply, sent to address 2. -/
theorem takeDatagram_repeatDatagram :
    ((sessionAnswered.tick 0).benchTick.takeDatagram repeatDatagram).bench.mnt.reply = some { replyStored with ip := 2 } := by
  decide +kernel

end Sys2Proof.Machine

open Sys2Proof Sys2Proof.Machine

/-- Refutes O53: the reply to a request that is repeated from another address is the stored one, but sent to the address of the
repeat. The clause on a repeated WRITE asks for the stored reply with the address that it went to first. -/
theorem not_maintenanceSessions : ¬ Obligations.MaintenanceSessions := by
  unfold Obligations.MaintenanceSessions
  rintro ⟨-, -, -, -, -, -, -, -, -, -, -, -, -, -, -, hrepeat, -⟩
  have hgiven := hrepeat ⟨[], sessionAnswered⟩ repeatHead 1 1 0 replyStored answeredSession .module 0 _ rfl mntTakes_repeatHead
    mntSess_sessionAnswered rfl rfl
  obtain ⟨hreply, -⟩ := hgiven.of_run (fun m => (m.tick 0).benchTick.takeDatagram repeatDatagram) rfl
  rw [Mach.supervise_of_ne _ _ (by decide)] at hreply
  dsimp only at hreply
  rw [takeDatagram_repeatDatagram] at hreply
  exact absurd hreply (by decide)

end

section
/-! SUPPORT. The ports red and blue (R307, R317 to R319, R328): which datagrams the port section discards, what a gathered copy and a
settled group leave, what ARP and ICMP are answered with, and with these O33. -/

namespace Sys2Proof.Machine

/-! ### What stays outside the port section -/

/-- Nothing differs but the JXT page, Callipers' notices and the causes on the pages. -/
def OnlyPorts (a b : Mach) : Prop := { b with jxt := a.jxt, cal := a.cal, irq := a.irq } = a

theorem OnlyPorts.lanes {a b : Mach} (h : OnlyPorts a b) : b.lanes = a.lanes := by have k := congrArg Mach.lanes h; exact k
theorem OnlyPorts.mod {a b : Mach} (h : OnlyPorts a b) : b.mod = a.mod := by have k := congrArg Mach.mod h; exact k
theorem OnlyPorts.field {a b : Mach} (h : OnlyPorts a b) : b.field = a.field := by have k := congrArg Mach.field h; exact k
theorem OnlyPorts.ring1 {a b : Mach} (h : OnlyPorts a b) : b.ring1 = a.ring1 := by have k := congrArg Mach.ring1 h; exact k
theorem OnlyPorts.ring2 {a b : Mach} (h : OnlyPorts a b) : b.ring2 = a.ring2 := by have k := congrArg Mach.ring2 h; exact k

/-! ### Discards (R317) -/

/-- A datagram that fails one of checks 1 to 4, or names no connection, passes none. -/
theorem Mach.jxtPasses_eq_none (m : Mach) (n : Net) (d : JxtDatagram)
    (h : d.ip.fragmented = true ∨ d.ip.options = true ∨ d.ip.dst ≠ (m.face n).ip ∨ d.ip.proto ≠ 17 ∨ d.ip.srcPort ≠ 27341 ∨
      d.ip.dstPort ≠ 27341 ∨ (d.ip.sum ≠ 0 ∧ d.ip.sum ≠ udpSum d) ∨ d.magic ≠ 0x4A58 ∨ d.version ≠ 1 ∨ d.crc ≠ crc32 (dgramBytes d) ∨
      d.net.toNat ≠ netNo n ∨ (∀ c ∈ m.jxtCfgs, c.number ≠ d.conn)) :
    m.jxtPasses n d = none := by
  unfold Mach.jxtPasses
  split
  · rename_i hp
    simp only [Bool.and_eq_true, Bool.or_eq_true, Bool.not_eq_true', beq_iff_eq, Mach.ipPasses, jxtPort] at hp
    obtain ⟨⟨⟨⟨⟨⟨⟨⟨⟨⟨hfrag, hopt⟩, hdst⟩, hproto⟩, hsrcPort⟩, hdstPort⟩, hsum⟩, hmagic⟩, hversion⟩, hcrc⟩, hnet⟩ := hp
    have hconn : ∀ c ∈ m.jxtCfgs, c.number ≠ d.conn := by
      simp only [hfrag, hopt, hdst, hproto, hsrcPort, hdstPort, hmagic, hversion, ← hcrc, hnet, ne_eq, not_true, false_or,
        Bool.false_eq_true] at h
      exact h.resolve_left (fun c => hsum.elim c.1 c.2)
    have hfind : (m.jxtCfgs.zipIdx).find? (fun q => q.1.number == d.conn) = none := by
      rw [List.find?_eq_none]
      intro q hq
      simpa using hconn q.1 (List.fst_mem_of_mem_zipIdx hq)
    rw [hfind]
  · rfl

/-- A discarded datagram is counted on its network; of the rest only the notices of the port section and `JX.LAST` may change. -/
theorem Mach.jxtBad_discards (n : Net) (conn : W16) (m : Mach) :
    (m.jxtBad n conn).jxt.redBad = (m.countBad n).jxt.redBad ∧ (m.jxtBad n conn).jxt.blueBad = (m.countBad n).jxt.blueBad ∧
      (m.jxtBad n conn).jxt.conns = m.jxt.conns ∧ (m.jxtBad n conn).jxt.redRx = m.jxt.redRx ∧
      (m.jxtBad n conn).jxt.blueRx = m.jxt.blueRx ∧ OnlyPorts m (m.jxtBad n conn) := by
  unfold Mach.jxtBad
  split <;> cases n <;> exact ⟨rfl, rfl, rfl, rfl, rfl, rfl⟩

/-! ### Connections -/

theorem Mach.updConn_conn (k : Nat) (f : JxtConn → JxtConn) (m : Mach) :
    (m.updConn k f).jxt.conns[k]? = (m.jxt.conns[k]?).map f := modAt_get_self f k m.jxt.conns

theorem Mach.updConn_conn_of_ne {j k : Nat} {f : JxtConn → JxtConn} {m : Mach} (h : j ≠ k) :
    (m.updConn k f).jxt.conns[j]? = m.jxt.conns[j]? := modAt_get_of_ne f k j m.jxt.conns h

/-! ### Gathering (R318) -/

theorem jxtDatagramReceive_of_passes {n : Net} {d : JxtDatagram} {k : Nat} {c : JxtCfg} {m : Mach}
    (h : m.jxtPasses n d = some (k, c)) : jxtDatagramReceive n d m = m.jxtGather k c n d := by
  rw [jxtDatagramReceive, h]

/-- What a passed datagram counts on its network. -/
def Mach.countRx (n : Net) (m : Mach) : Mach :=
  match n with
  | .red => { m with jxt := { m.jxt with redRx := satInc m.jxt.redRx } }
  | .blue => { m with jxt := { m.jxt with blueRx := satInc m.jxt.blueRx } }

theorem Mach.countRx_jxt_conns (n : Net) (m : Mach) : (m.countRx n).jxt.conns = m.jxt.conns := by cases n <;> rfl

theorem Mach.countRx_others (n : Net) (m : Mach) : { m.countRx n with jxt := m.jxt } = m := by cases n <;> rfl

/-- The copy that a datagram brings. -/
def jxtCopyOf (n : Net) (d : JxtDatagram) (now : Nat) : JxtCopy := { net := n, copy := d.copy, words := d.body, at0 := now }

/-- A copy whose group is settled is late. -/
theorem Mach.jxtGather_late {k : Nat} {x : JxtConn} {d : JxtDatagram} (c : JxtCfg) (n : Net) (m : Mach) (hx : m.jxt.conns[k]? = some x)
    (hs : x.settled.contains (jxtSeq d.body) = true) :
    m.jxtGather k c n d = Mach.jxtLast k c.number 10 (({ m.countRx n with
      jxt := { (m.countRx n).jxt with late := satInc (m.countRx n).jxt.late } } : Mach)) := by
  unfold jxtSeq at hs
  cases n <;> simp only [Mach.jxtGather, hx, hs, if_true, Mach.countRx]

/-- The first copy of a sequence number opens a group. -/
theorem Mach.jxtGather_opens {k : Nat} {x : JxtConn} {d : JxtDatagram} (c : JxtCfg) (n : Net) (m : Mach) (hx : m.jxt.conns[k]? = some x)
    (hs : x.settled.contains (jxtSeq d.body) = false) (hg : x.groups = []) :
    m.jxtGather k c n d = (m.countRx n).updConn k (fun x => { x with groups := x.groups ++
      [{ seq := jxtSeq d.body, openAt := m.now, copies := [jxtCopyOf n d m.now] }] }) := by
  unfold jxtSeq at hs
  cases n <;> simp only [Mach.jxtGather, hx, hs, hg] <;> rfl

/-- A further copy joins the open group of its sequence number. -/
theorem Mach.jxtGather_joins {k : Nat} {x : JxtConn} {g : JxtGroup} {d : JxtDatagram} (c : JxtCfg) (n : Net) (m : Mach)
    (hx : m.jxt.conns[k]? = some x) (hs : x.settled.contains (jxtSeq d.body) = false) (hg : x.groups = [g])
    (hseq : g.seq = jxtSeq d.body) (hnew : ∀ y ∈ g.copies, y.net ≠ n ∨ y.copy ≠ d.copy) :
    m.jxtGather k c n d = (m.countRx n).updConn k (fun x => { x with groups := x.groups.map (fun h =>
      if h.seq = jxtSeq d.body then { h with copies := h.copies ++ [jxtCopyOf n d m.now] } else h) }) := by
  have hany : g.copies.any (fun y => y.net == n && y.copy == d.copy) = false := by
    rw [List.any_eq_false]
    intro y hy
    simpa [← not_and_or] using hnew y hy
  unfold jxtSeq at hs hseq
  cases n <;> simp only [Mach.jxtGather, hx, hs, hg, List.find?_cons, hseq, beq_self_eq_true, hany, Bool.false_eq_true, if_false] <;> rfl

/-! ### Settling (R318, R319) -/

/-- A settled group leaves its connection; its sequence number stays with the last two. -/
def Mach.leaveGroup (k : Nat) (g : JxtGroup) (m : Mach) : Mach :=
  let m := m.updConn k (fun x =>
    { x with groups := x.groups.filter (fun h => h.seq != g.seq), settled := (g.seq :: x.settled).take 2 })
  { m with jxt := { m.jxt with skewMax := bvMax m.jxt.skewMax (satOf 16 (groupSkew g)) } }

/-- Equal copies: the words are taken, and the copies beyond the first count. -/
theorem Mach.jxtSettle_equal {g : JxtGroup} {a : JxtCopy} {r : List JxtCopy} (k : Nat) (c : JxtCfg) (m : Mach) (hg : g.copies = a :: r)
    (hr : ∀ b ∈ r, b.words = a.words) :
    m.jxtSettle k c g = ({ m.leaveGroup k g with jxt :=
      { (m.leaveGroup k g).jxt with dup := satAdd m.jxt.dup r.length } } : Mach).updConn k (fun x => x.take a.words m.now) := by
  have hall : r.all (fun b => b.words == a.words) = true := by
    rw [List.all_eq_true]
    intro b hb
    simpa using hr b hb
  simp only [Mach.jxtSettle, hg, hall, if_true]
  rfl

/-- Two copies that differ: of one module a network disagreement, of both a pair disagreement. -/
theorem Mach.jxtSettle_differ {g : JxtGroup} {a b : JxtCopy} (k : Nat) (c : JxtCfg) (m : Mach) (hg : g.copies = [a, b])
    (hw : b.words ≠ a.words) :
    m.jxtSettle k c g =
      if a.copy = b.copy then
        ((({ m.leaveGroup k g with jxt := { (m.leaveGroup k g).jxt with
          netDis := satInc m.jxt.netDis, disIn := some m.cycleNo } } : Mach).jxtLast k c.number 2).raise jxtPath 3).noteJxt k 0x82 0 0
      else
        ((({ m.leaveGroup k g with jxt := { (m.leaveGroup k g).jxt with
          pairDis := satInc m.jxt.pairDis, disIn := some m.cycleNo } } : Mach).jxtLast k c.number 3).raise jxtPath 2).noteJxt k 0x83 0 0 := by
  have hw' : a.words ≠ b.words := hw.symm
  by_cases hc : a.copy = b.copy
  · simp [Mach.jxtSettle, hg, hw, hc]
    rfl
  · simp [Mach.jxtSettle, hg, hw, hw', hc]
    rfl

/-- The connection of a settled group. -/
theorem Mach.leaveGroup_conn {k : Nat} {x : JxtConn} {g : JxtGroup} {gs : List JxtGroup} (m : Mach) (hx : m.jxt.conns[k]? = some x)
    (hg : x.groups = g :: gs) (hne : ∀ h ∈ gs, h.seq ≠ g.seq) :
    (m.leaveGroup k g).jxt.conns[k]? = some { x with groups := gs, settled := (g.seq :: x.settled).take 2 } := by
  have hgs : (g :: gs).filter (fun h => h.seq != g.seq) = gs := by
    rw [List.filter_cons_of_neg (by simp), List.filter_eq_self]
    intro h hh
    simpa using hne h hh
  show (modAt _ k m.jxt.conns)[k]? = _
  rw [modAt_get_self, hx, Option.map_some, hg, hgs]

/-- The window of the oldest open group is over. -/
theorem jxtGroupSettle_eq {k : Nat} {c : JxtCfg} {x : JxtConn} {g : JxtGroup} {gs : List JxtGroup} (m : Mach)
    (hc : m.jxtCfgs[k]? = some c) (hx : m.jxt.conns[k]? = some x) (hg : x.groups = g :: gs)
    (hw : g.openAt + c.winUs.getD 2000 * 1000 ≤ m.now) : jxtGroupSettle k m = m.jxtSettle k c g := by
  have hh : (m.jxt.conns[k]?).bind (fun x => x.groups.head?) = some g := by rw [hx, Option.bind_some, hg, List.head?_cons]
  unfold jxtGroupSettle
  rw [hc, hh]
  exact if_neg (by unfold jxWinNs; omega)

/-! ### ARP and ICMP (R64, R307) -/

/-- The hardware port of a network. -/
def netPort : Net → EthPort
  | .red => .red
  | .blue => .blue

theorem netArpIcmp_netPort (n : Net) (req : NetRequest) (m : Mach) : netArpIcmp (netPort n) req m = m.netAsked n req := by
  cases n <;> rfl

/-- A request that the port answers is answered while the transmit drivers are on. -/
theorem Mach.netAsked_answered {n : Net} {req : NetRequest} {m : Mach} {sd : StationData} (hsd : m.sd = some sd)
    (htx : m.cal.txOn = true) (ha : answeredBy (m.face n).ip (sd.settings.jxIcmp.getD false) true req = true) :
    m.netAsked n req = { m with jxt := { m.jxt with lastAnswer := some (n, req) } } := by
  cases req <;> simp_all [Mach.netAsked, answeredBy]

/-- An echo that the port does not answer is discarded. -/
theorem Mach.netAsked_echo_refused {n : Net} {a : W32} {fr op : Bool} {m : Mach} {sd : StationData} (hsd : m.sd = some sd)
    (ha : answeredBy (m.face n).ip (sd.settings.jxIcmp.getD false) true (.icmpEcho a fr op) = false) :
    m.netAsked n (.icmpEcho a fr op) = m.jxtDiscard n := by
  simp [Mach.netAsked, hsd, ha, isEcho]

/-- An ARP request for another address is ignored. -/
theorem Mach.netAsked_arpRequest_other {n : Net} {a : W32} {m : Mach} {sd : StationData} (hsd : m.sd = some sd)
    (ha : a ≠ (m.face n).ip) : m.netAsked n (.arpRequest a) = m := by
  simp [Mach.netAsked, hsd, answeredBy, isEcho, ha]

/-- An ARP reply does what it teaches, with a station data set. -/
theorem Mach.netAsked_arpReply {n : Net} {ip : W32} {hw : BitVec 48} {m : Mach} (hsd : m.sd.isSome = true) :
    m.netAsked n (.arpReply ip hw) = m.learnArp n ip hw := by
  obtain ⟨sd, hsd⟩ := Option.isSome_iff_exists.1 hsd
  simp [Mach.netAsked, hsd]

/-- A reply that nothing asked for, or about a static peer, teaches nothing. -/
theorem Mach.netAsked_arpReply_ignored {n : Net} {ip : W32} {hw : BitVec 48} {m : Mach}
    (h : m.jxt.asked.contains (n, ip) = false ∨ (m.staticHw n ip).isSome = true) : m.netAsked n (.arpReply ip hw) = m := by
  cases hsd : m.sd with
  | none => simp [Mach.netAsked, hsd, isEcho]
  | some sd =>
    rw [Mach.netAsked_arpReply (by simp [hsd])]
    exact if_pos h

/-- The discard of a datagram that names no connection. -/
theorem Mach.jxtDiscard_discards (n : Net) (m : Mach) :
    (m.jxtDiscard n).jxt.redBad = (m.countBad n).jxt.redBad ∧ (m.jxtDiscard n).jxt.blueBad = (m.countBad n).jxt.blueBad ∧
      (m.jxtDiscard n).jxt.lastAnswer = m.jxt.lastAnswer ∧ (m.jxtDiscard n).jxt.conns = m.jxt.conns ∧
      OnlyPorts m (m.jxtDiscard n) := by
  cases n <;> exact ⟨rfl, rfl, rfl, rfl, rfl⟩

/-- The maintenance port answers for its address while it has one. -/
theorem Mach.mntAsked_answered {req : NetRequest} {m : Mach} (hs : m.benchServes = true) (hip : m.bench.mnt.ip ≠ 0)
    (ha : answeredBy m.bench.mnt.ip true false req = true) :
    m.mntAsked req = m.updMnt (fun p => { p with link := true, lastAnswer := some req }) := by
  unfold Mach.mntAsked
  rw [hs, ha, bne_iff_ne.2 hip]
  rfl

/-! ### Links (R328) -/

/-- A network's link taken as up or down. -/
def Jxt.setUp (n : Net) (up : Bool) (x : Jxt) : Jxt :=
  match n with
  | .red => { x with redUp := up }
  | .blue => { x with blueUp := up }

/-- A network's link is marked unusable. -/
def Jxt.unus (n : Net) (x : Jxt) : Bool :=
  match n with
  | .red => x.redUnus
  | .blue => x.blueUnus

/-- A usable link comes up without a cause. -/
theorem redBlueLinkChange_up {n : Net} {m : Mach} (h : m.jxt.unus n = false) :
    redBlueLinkChange n true m = { m with jxt := m.jxt.setUp n true } := by
  cases n <;> simp only [Jxt.unus] at h <;> simp [redBlueLinkChange, h, Jxt.setUp]

/-- A link that goes down changes its own flag, and may raise its cause. -/
theorem redBlueLinkChange_down (n : Net) (m : Mach) :
    (redBlueLinkChange n false m).jxt = m.jxt.setUp n false ∧ { redBlueLinkChange n false m with jxt := m.jxt, irq := m.irq } = m := by
  cases n <;> simp only [redBlueLinkChange, Jxt.setUp, Bool.false_and] <;> split <;> exact ⟨rfl, rfl⟩

end Sys2Proof.Machine

open Sys2Proof Sys2Proof.Machine

/-- Settles O33: each clause is the lemma of its case above, run at the command's instant; no case touches the mode, so the hold of
HALT drops out. -/
theorem redAndBlue : Obligations.RedAndBlue := by
  unfold Obligations.RedAndBlue
  refine ⟨?_, ?_, ?_, ?_, ?_, ?_, ?_, ?_, ?_, ?_, ?_, ?_, ?_, ?_⟩
  · intro s n d t h
    have hnone : (s.m.tick t).jxtPasses n d = none := Mach.jxtPasses_eq_none _ n d h
    have hrun : jxtDatagramReceive n d (s.m.tick t) = (s.m.tick t).jxtBad n d.conn := by rw [jxtDatagramReceive, hnone]
    obtain ⟨hred, hblue, hconns, hredRx, hblueRx, hrest⟩ := Mach.jxtBad_discards n d.conn (s.m.tick t)
    refine completes_of_mode_eq (fun m => jxtDatagramReceive n d (m.tick t)) rfl ?_ ?_ <;> simp only [hrun]
    · exact congrArg ModState.mode hrest.mod
    · refine ⟨?_, hconns, hredRx, hblueRx, hrest.lanes, hrest.field, hrest.ring1, hrest.ring2, hrest.mod⟩
      rw [hred, hblue]
      cases n <;> rfl
  · intro s n d t k c x hp hx hs hg
    have hrun := (jxtDatagramReceive_of_passes (m := s.m.tick t) hp).trans (Mach.jxtGather_opens c n (s.m.tick t) hx hs hg)
    refine completes_of_mode_eq (fun m => jxtDatagramReceive n d (m.tick t)) rfl ?_ ?_ <;> simp only [hrun]
    · cases n <;> rfl
    · refine ⟨?_, by cases n <;> rfl, fun j hj => ?_, by cases n <;> rfl⟩
      · rw [Mach.updConn_conn, Mach.countRx_jxt_conns, show (s.m.tick t).jxt.conns[k]? = some x from hx]
        simp [hg, jxtCopyOf]
      · rw [Mach.updConn_conn_of_ne hj, Mach.countRx_jxt_conns, Mach.tick_jxt]
  · intro s n d t k c x g hp hx hs hg hseq hnew
    have hrun := (jxtDatagramReceive_of_passes (m := s.m.tick t) hp).trans
      (Mach.jxtGather_joins c n (s.m.tick t) hx hs hg hseq hnew)
    refine completes_of_mode_eq (fun m => jxtDatagramReceive n d (m.tick t)) rfl ?_ ?_ <;> simp only [hrun]
    · cases n <;> rfl
    · refine ⟨?_, fun j hj => ?_, by cases n <;> rfl⟩
      · rw [Mach.updConn_conn, Mach.countRx_jxt_conns, show (s.m.tick t).jxt.conns[k]? = some x from hx]
        simp [hg, hseq, jxtCopyOf]
      · rw [Mach.updConn_conn_of_ne hj, Mach.countRx_jxt_conns, Mach.tick_jxt]
  · intro s n d t k c x hp hx hs
    have hrun := (jxtDatagramReceive_of_passes (m := s.m.tick t) hp).trans (Mach.jxtGather_late c n (s.m.tick t) hx hs)
    refine completes_of_mode_eq (fun m => jxtDatagramReceive n d (m.tick t)) rfl ?_ ?_ <;> simp only [hrun]
    · cases n <;> rfl
    · cases n <;> exact ⟨rfl, rfl, rfl, rfl⟩
  · intro s k t c x g gs a r hc hx hg hne hw ha hr
    have hrun := (jxtGroupSettle_eq (s.m.tick t) hc hx hg hw).trans (Mach.jxtSettle_equal k c (s.m.tick t) ha hr)
    have hconn := Mach.leaveGroup_conn (s.m.tick t) hx hg hne
    refine completes_of_mode_eq (fun m => jxtGroupSettle k (m.tick t)) rfl ?_ ?_ <;> simp only [hrun]
    · rfl
    · refine ⟨?_, ?_, rfl, rfl, rfl, rfl⟩ <;> rw [Mach.updConn_conn] <;> dsimp only <;> rw [hconn] <;> rfl
  · intro s k t c x g a b hc hx hg hw hab hne
    have hrun := (jxtGroupSettle_eq (s.m.tick t) hc hx hg hw).trans (Mach.jxtSettle_differ k c (s.m.tick t) hab hne)
    have hconn := Mach.leaveGroup_conn (s.m.tick t) hx hg (fun _ h => absurd h List.not_mem_nil)
    refine completes_of_mode_eq (fun m => jxtGroupSettle k (m.tick t)) rfl ?_ ?_ <;> simp only [hrun]
    · split <;> rfl
    · split
      · exact ⟨congrArg (Option.map (fun y => (y.newest, y.groups))) hconn, rfl, rfl, rfl, rfl, rfl⟩
      · exact ⟨congrArg (Option.map (fun y => (y.newest, y.groups))) hconn, rfl, rfl, rfl, rfl, rfl⟩
  · intro s n req ip t sd hsd htx hip hreq
    have ha : answeredBy ((s.m.tick t).face n).ip (sd.settings.jxIcmp.getD false) true req = true := by
      rw [show ((s.m.tick t).face n).ip = ip from hip.symm]
      rcases hreq with rfl | ⟨rfl, hicmp⟩
      · simp [answeredBy]
      · simp [answeredBy, hicmp]
    have hrun := (netArpIcmp_netPort n req (s.m.tick t)).trans (Mach.netAsked_answered hsd htx ha)
    exact becomes_of_run (fun m => netArpIcmp (netPort n) req (m.tick t)) (by cases n <;> rfl) (.inl (by rw [hrun]; rfl)) hrun
  · intro s n req ip a fr op t sd hsd hip hreq hno
    subst hreq
    have ha : answeredBy ((s.m.tick t).face n).ip (sd.settings.jxIcmp.getD false) true (.icmpEcho a fr op) = false := by
      rw [show ((s.m.tick t).face n).ip = ip from hip.symm]
      rcases hno with h | h | h | h <;> simp [answeredBy, h]
    have hrun := (netArpIcmp_netPort n _ (s.m.tick t)).trans (Mach.netAsked_echo_refused hsd ha)
    obtain ⟨hred, hblue, hans, hconns, hrest⟩ := Mach.jxtDiscard_discards n (s.m.tick t)
    refine completes_of_mode_eq (fun m => netArpIcmp (netPort n) (.icmpEcho a fr op) (m.tick t)) (by cases n <;> rfl) ?_ ?_ <;>
      simp only [hrun]
    · exact congrArg ModState.mode hrest.mod
    · refine ⟨?_, hans, hconns, hrest.lanes, hrest.field, hrest.mod⟩
      rw [hred, hblue]
      cases n <;> rfl
  · intro s n a t sd hsd ha
    have hrun := (netArpIcmp_netPort n _ (s.m.tick t)).trans (Mach.netAsked_arpRequest_other hsd ha)
    exact becomes_of_run (fun m => netArpIcmp (netPort n) (.arpRequest a) (m.tick t)) (by cases n <;> rfl)
      (.inl (by rw [hrun]; rfl)) hrun
  · intro s n ip hw t hsd hasked hstatic
    have hlearn : (s.m.tick t).learnArp n ip hw = _ := if_neg (by
      rw [not_or]
      exact ⟨by simpa using hasked, by rw [show (s.m.tick t).staticHw n ip = none from hstatic]; decide⟩)
    have hrun := ((netArpIcmp_netPort n _ (s.m.tick t)).trans (Mach.netAsked_arpReply hsd)).trans hlearn
    exact becomes_of_run (fun m => netArpIcmp (netPort n) (.arpReply ip hw) (m.tick t)) (by cases n <;> rfl)
      (.inl (by rw [hrun]; rfl)) hrun
  · intro s n ip hw t h
    have hrun := (netArpIcmp_netPort n _ (s.m.tick t)).trans (Mach.netAsked_arpReply_ignored (hw := hw) h)
    exact becomes_of_run (fun m => netArpIcmp (netPort n) (.arpReply ip hw) (m.tick t)) (by cases n <;> rfl)
      (.inl (by rw [hrun]; rfl)) hrun
  · intro s req t hs hip hreq
    have ha : answeredBy (s.m.tick t).bench.mnt.ip true false req = true := by
      rcases hreq with rfl | ⟨op, rfl⟩ <;> simp [answeredBy]
    have hrun : netArpIcmp .maintenance req (s.m.tick t) = _ := Mach.mntAsked_answered hs hip ha
    refine completes_of_mode_eq (fun m => netArpIcmp .maintenance req (m.tick t)) rfl ?_ ?_ <;> simp only [hrun]
    · rfl
    · exact ⟨rfl, rfl, rfl⟩
  · intro s n t hus
    have hrun : redBlueLinkChange n true (s.m.tick t) = _ := redBlueLinkChange_up (by cases n <;> exact hus)
    exact becomes_of_run (fun m => redBlueLinkChange n true (m.tick t)) rfl (.inl (by rw [hrun]; cases n <;> rfl))
      (by rw [hrun]; cases n <;> rfl)
  · intro s n t
    obtain ⟨hjxt, hrest⟩ := redBlueLinkChange_down n (s.m.tick t)
    refine completes_of_mode_eq (fun m => redBlueLinkChange n false (m.tick t)) rfl ?_ ⟨?_, ?_⟩
    · exact congrArg (fun x => x.mod.mode) hrest
    · rw [hjxt]
      cases n <;> rfl
    · exact congrArg (fun x => { x with now := s.m.now }) hrest

end

section
/-! SUPPORT. What the address of a page's register names (R34 to R36). -/

namespace Sys2Proof.Machine

/-! ### The address of a register -/

/-- A page's base address: a multiple of the page size below the mailbox, from which the page's path is read back. -/
structure Page.Placed (p : Page) : Prop where
  mod : (pathAddr p.path).toNat % 1024 = 0
  lt : (pathAddr p.path).toNat < 2 ^ 31
  high : pathAddr p.path &&& 0xFFFFFC00 = pathAddr p.path
  addrPath : addrPath (pathAddr p.path) = p.path
  whole : pathWhole (pathAddr p.path) = true
  ofPath : Page.ofPath p.path = some p
  own : p.path.head? ≠ some 2

theorem Page.placed (p : Page) : p.Placed := by
  cases p with
  | lane l | core l | engine l | copier l | memories l | clocks l | agreement l => cases l <;> constructor <;> decide
  | ring i | schedule i => cases i <;> constructor <;> decide
  | port i d | rest i d => cases i <;> cases d <;> constructor <;> decide
  | canGroup q | canCtl q | canBufs q | canMatrix q => cases q <;> constructor <;> decide
  | _ => constructor <;> decide

theorem regOf_toNat (p : Page) {off : Nat} (h : off < 1024) : (regOf p.path off).toNat = (pathAddr p.path).toNat + off := by
  have hoff : off % 2 ^ 32 = off := by omega
  unfold regOf
  rw [BitVec.toNat_or, BitVec.toNat_ofNat, hoff]
  obtain ⟨q, hq⟩ := Nat.dvd_of_mod_eq_zero p.placed.mod
  rw [hq, show 1024 = 2 ^ 10 from rfl, Nat.two_pow_add_eq_or_of_lt h]

theorem addrLevels_regOf (p : Page) {off : Nat} (h : off < 1024) : addrLevels (regOf p.path off) = addrLevels (pathAddr p.path) := by
  have hmod := p.placed.mod
  unfold addrLevels
  rw [regOf_toNat p h]
  refine List.map_congr_left fun k hk => ?_
  have hk7 : k < 7 := List.mem_range.1 hk
  have he : 2 ^ (28 - 3 * k) = 1024 * 2 ^ (18 - 3 * k) := by
    rw [show 1024 = 2 ^ 10 from rfl, ← Nat.pow_add]
    congr 1
    omega
  rw [he, ← Nat.div_div_eq_div_mul, ← Nat.div_div_eq_div_mul,
    show ((pathAddr p.path).toNat + off) / 1024 = (pathAddr p.path).toNat / 1024 by omega]

theorem addrPath_regOf (p : Page) {off : Nat} (h : off < 1024) : addrPath (regOf p.path off) = p.path := by
  rw [addrPath, addrLevels_regOf p h]
  exact p.placed.addrPath

@[simp] theorem inMailbox_regOf (p : Page) {off : Nat} (h : off < 1024) : inMailbox (regOf p.path off) = false := by
  have hmod := p.placed.mod
  have hlt := p.placed.lt
  unfold inMailbox
  rw [← BitVec.testBit_toNat, regOf_toNat p h]
  exact Nat.testBit_lt_two_pow (by omega)

/-- A register of a page names that page. -/
theorem Mach.place_regOf (m : Mach) (p : Page) {off : Nat} (h : off < 1024) : m.place (regOf p.path off) = .own p := by
  unfold Mach.place
  rw [addrPath_regOf p h]
  split
  · rename_i heq
    exact absurd (by rw [heq]; rfl) p.placed.own
  · rw [p.placed.ofPath]

theorem addrOffset_regOf (p : Page) {off : Nat} (h : off < 1024) : addrOffset (regOf p.path off) = off := by
  have hmod := p.placed.mod
  unfold addrOffset
  rw [inMailbox_regOf p h, if_neg Bool.false_ne_true, regOf_toNat p h]
  omega

/-- A burst that stays within the page is well addressed for every session. -/
theorem addrOk_regOf (s : Sess) (p : Page) {off count : Nat} (h : off < 1024) (h4 : off % 4 = 0) (hc : off + 4 * count ≤ 1024) :
    addrOk s (regOf p.path off) count = true := by
  have hmod := p.placed.mod
  have hw : pathWhole (regOf p.path off) = true := by
    rw [pathWhole, addrLevels_regOf p h]
    exact p.placed.whole
  have ha : (regOf p.path off).toNat % 4 = 0 := by
    rw [regOf_toNat p h]
    omega
  unfold addrOk
  simp only [inMailbox_regOf p h, addrOffset_regOf p h, hw, ha, hc, decide_true, Bool.and_true, Bool.false_eq_true, if_false]

theorem spanRefusal_regOf (s : Sess) (p : Page) {off count : Nat} (h : off < 1024) (h4 : off % 4 = 0) (h1 : 1 ≤ count)
    (hc : off + 4 * count ≤ 1024) : spanRefusal s (regOf p.path off) count = none := by
  unfold spanRefusal
  rw [inMailbox_regOf p h, addrOk_regOf s p h h4 hc, if_neg (by simp; omega), if_pos rfl]

/-- The registers of a page, from its base address. -/
theorem inPage_regOf (p : Page) (off : Nat) : inPage (regOf p.path 0) off = regOf p.path off := by
  have hbase : regOf p.path 0 = pathAddr p.path := BitVec.or_zero
  unfold inPage
  rw [hbase, p.placed.high]
  rfl

end Sys2Proof.Machine
end

section
/-! SUPPORT. What the ports do around an access (R42 to R50, R65 to R67): the session that it opens or keeps alive, the answer that it
ends with, and what both leave alone. -/

namespace Sys2Proof.Machine

/-! ### What stays outside the Bench, and outside the ports' own state -/

theorem OnlyBench.refl (m : Mach) : OnlyBench m m := rfl

theorem OnlyBench.trans {a b c : Mach} (h : OnlyBench a b) (k : OnlyBench b c) : OnlyBench a c := by
  unfold OnlyBench at *
  rw [← h, ← k]

theorem OnlyBench.lanes {a b : Mach} (h : OnlyBench a b) : b.lanes = a.lanes := by have k := congrArg Mach.lanes h; exact k
theorem OnlyBench.mod {a b : Mach} (h : OnlyBench a b) : b.mod = a.mod := by have k := congrArg Mach.mod h; exact k
theorem OnlyBench.cal {a b : Mach} (h : OnlyBench a b) : b.cal = a.cal := by have k := congrArg Mach.cal h; exact k
theorem OnlyBench.pair {a b : Mach} (h : OnlyBench a b) : b.pair = a.pair := by have k := congrArg Mach.pair h; exact k
theorem OnlyBench.now {a b : Mach} (h : OnlyBench a b) : b.now = a.now := by have k := congrArg Mach.now h; exact k

/-- Nothing differs but what the host port and the maintenance port hold, and the causes on the pages. -/
def OnlyPortState (a b : Mach) : Prop :=
  { b with bench := { b.bench with host := a.bench.host, mnt := a.bench.mnt }, irq := a.irq } = a

theorem OnlyPortState.refl (m : Mach) : OnlyPortState m m := rfl

theorem OnlyPortState.trans {a b c : Mach} (h : OnlyPortState a b) (k : OnlyPortState b c) : OnlyPortState a c := by
  unfold OnlyPortState at *
  rw [← h, ← k]

theorem OnlyPortState.onlyBench {a b : Mach} (h : OnlyPortState a b) : OnlyBench a b := by
  unfold OnlyPortState at h
  unfold OnlyBench
  rw [← h]

theorem OnlyPortState.recd {a b : Mach} (h : OnlyPortState a b) : b.bench.recd = a.bench.recd := by
  have k := congrArg (fun m => m.bench.recd) h; exact k
theorem OnlyPortState.upd {a b : Mach} (h : OnlyPortState a b) : b.bench.upd = a.bench.upd := by
  have k := congrArg (fun m => m.bench.upd) h; exact k
theorem OnlyPortState.test {a b : Mach} (h : OnlyPortState a b) : b.bench.test = a.bench.test := by
  have k := congrArg (fun m => m.bench.test) h; exact k
theorem OnlyPortState.ec {a b : Mach} (h : OnlyPortState a b) : b.bench.ec = a.bench.ec := by
  have k := congrArg (fun m => m.bench.ec) h; exact k
theorem OnlyPortState.sens {a b : Mach} (h : OnlyPortState a b) : b.bench.sens = a.bench.sens := by
  have k := congrArg (fun m => m.bench.sens) h; exact k
theorem OnlyPortState.ecNow {a b : Mach} (h : OnlyPortState a b) : b.ecNow = a.ecNow := by
  have k := congrArg Mach.ecNow h; exact k
theorem OnlyPortState.benchSecs {a b : Mach} (h : OnlyPortState a b) : b.benchSecs = a.benchSecs := by
  have k := congrArg Mach.benchSecs h; exact k
theorem OnlyPortState.place {a b : Mach} (h : OnlyPortState a b) : b.place = a.place := by
  have k := congrArg Mach.place h; exact k
theorem OnlyPortState.count {a b : Mach} (h : OnlyPortState a b) (p : Page) : p.count b = p.count a := by
  have k := congrArg (fun m => p.count m) h; exact k

theorem Mach.updHost_onlyPortState (f : HostPort → HostPort) (m : Mach) : OnlyPortState m (m.updHost f) := rfl
theorem Mach.updMnt_onlyPortState (f : MntPort → MntPort) (m : Mach) : OnlyPortState m (m.updMnt f) := rfl
theorem Mach.updMntSess_onlyPortState (n : Nat) (f : MntSession → MntSession) (m : Mach) : OnlyPortState m (m.updMntSess n f) := rfl
theorem Mach.raise_onlyPortState (path : List Nat) (bit : Nat) (m : Mach) : OnlyPortState m (m.raise path bit) := rfl

theorem Mach.updSession_onlyPortState (s : Sess) (f : Session → Session) (m : Mach) : OnlyPortState m (m.updSession s f) := by
  cases s with
  | host => exact Mach.updHost_onlyPortState _ m
  | mnt n => exact Mach.updMntSess_onlyPortState n _ m

theorem Mach.settleSummaries_onlyPortState (m : Mach) : OnlyPortState m m.settleSummaries := rfl

theorem Mach.touch_onlyPortState (s : Sess) (m : Mach) : OnlyPortState m (m.touch s) := by
  cases s with
  | host =>
    refine OnlyPortState.trans ?_ (Mach.updSession_onlyPortState ..)
    dsimp only
    split
    · exact Mach.updHost_onlyPortState _ m
    · split
      · exact ((Mach.updHost_onlyPortState _ m).trans (Mach.raise_onlyPortState ..)).trans (Mach.updHost_onlyPortState ..)
      · exact (Mach.updHost_onlyPortState _ m).trans (Mach.updHost_onlyPortState ..)
  | mnt n => exact Mach.updSession_onlyPortState ..

theorem Mach.mntAnswer_onlyPortState (n : Nat) (num : W32) (typ : Byte) (c : Status) (bs : List Byte) (m : Mach) :
    OnlyPortState m (m.mntAnswer n num typ c bs) := rfl

theorem Mach.answer_onlyPortState (s : Sess) (r : Reply) (m : Mach) : OnlyPortState m (m.answer s r) := by
  cases s <;> rfl

/-! ### The sessions under those updates -/

theorem Mach.session_mnt (m : Mach) (n : Nat) :
    m.session (.mnt n) = (m.mntSess n).bind (fun x => if x.authed then some x.sess else none) := rfl

theorem Mach.id_of_mntSess {m : Mach} {n : Nat} {x : MntSession} (h : m.mntSess n = some x) : x.id = n := by
  simpa using List.find?_some h

/-- Sessions changed one by one, under the numbers that they have. -/
theorem Mach.mntSess_of_map {a b : Mach} {g : MntSession → MntSession} (hg : ∀ x, (g x).id = x.id)
    (h : b.bench.mnt.sessions = a.bench.mnt.sessions.map g) (k : Nat) : b.mntSess k = (a.mntSess k).map g := by
  unfold Mach.mntSess
  rw [h, List.find?_map]
  congr 2
  funext x
  simp [hg]

theorem Mach.mntSess_updMntSess_self {n : Nat} {f : MntSession → MntSession} (hf : ∀ x, (f x).id = x.id) (m : Mach) :
    (m.updMntSess n f).mntSess n = (m.mntSess n).map f := by
  rw [Mach.mntSess_of_map (a := m) (g := fun x => if x.id = n then f x else x) (fun x => by split <;> simp [hf]) rfl]
  cases hx : m.mntSess n with
  | none => rfl
  | some x => simp [Mach.id_of_mntSess hx]

theorem Mach.mntSess_updMntSess_of_ne {n k : Nat} {f : MntSession → MntSession} (hf : ∀ x, (f x).id = x.id) (h : k ≠ n) (m : Mach) :
    (m.updMntSess n f).mntSess k = m.mntSess k := by
  rw [Mach.mntSess_of_map (a := m) (g := fun x => if x.id = n then f x else x) (fun x => by split <;> simp [hf]) rfl]
  cases hx : m.mntSess k with
  | none => rfl
  | some x => simp [Mach.id_of_mntSess hx, h]

/-- A change of maintenance sessions that keeps what each holds privately keeps every session. -/
theorem Mach.session_of_map {a b : Mach} {g : MntSession → MntSession} (hg : ∀ x, (g x).id = x.id)
    (hk : ∀ x, (g x).authed = x.authed ∧ (g x).sess = x.sess) (hh : b.bench.host.host = a.bench.host.host)
    (h : b.bench.mnt.sessions = a.bench.mnt.sessions.map g) (q : Sess) : b.session q = a.session q := by
  cases q with
  | host => exact hh
  | mnt k =>
    unfold Mach.session
    dsimp only
    rw [Mach.mntSess_of_map hg h]
    cases a.mntSess k with
    | none => rfl
    | some x => simp [hk x]

@[simp] theorem Mach.session_settleSummaries (m : Mach) (q : Sess) : m.settleSummaries.session q = m.session q :=
  Mach.session_of_map (a := m) (b := m.settleSummaries) (g := fun x => if m.pairIrq x.sess = 0 then { x with summary := 0 } else x) (fun x => by split <;> rfl)
    (fun x => by split <;> exact ⟨rfl, rfl⟩) rfl rfl q

theorem Mach.session_mntAnswer (n : Nat) (num : W32) (typ : Byte) (c : Status) (bs : List Byte) (m : Mach) (q : Sess) :
    (m.mntAnswer n num typ c bs).session q = m.session q :=
  Mach.session_of_map (a := m) (b := m.mntAnswer n num typ c bs)
    (g := fun x => if x.id = n then (if x.seq = num then { x with reply := some _ } else x) else x)
    (fun x => by (repeat' split) <;> rfl) (fun x => by (repeat' split) <;> exact ⟨rfl, rfl⟩) rfl rfl q

@[simp] theorem Mach.session_answer (s : Sess) (r : Reply) (m : Mach) (q : Sess) : (m.answer s r).session q = m.session q := by
  cases s with
  | host => cases q <;> rfl
  | mnt n => exact Mach.session_mntAnswer ..

/-- A session's own state changed: of that session, while it is open, and of no other. -/
theorem Mach.session_updSession_self (s : Sess) (f : Session → Session) (m : Mach) :
    (m.updSession s f).session s = (m.session s).map f := by
  cases s with
  | host => rfl
  | mnt n =>
    rw [Mach.session_mnt, Mach.session_mnt, Mach.updSession, Mach.mntSess_updMntSess_self (f := fun x => { x with sess := f x.sess }) (fun _ => rfl)]
    cases m.mntSess n with
    | none => rfl
    | some x => cases hx : x.authed <;> simp [hx]

theorem Mach.session_updSession_of_ne {s q : Sess} (f : Session → Session) (m : Mach) (h : q ≠ s) :
    (m.updSession s f).session q = m.session q := by
  cases s with
  | host => cases q with
    | host => exact absurd rfl h
    | mnt k => rfl
  | mnt n => cases q with
    | host => rfl
    | mnt k =>
      rw [Mach.session_mnt, Mach.session_mnt, Mach.updSession, Mach.mntSess_updMntSess_of_ne (f := fun x => { x with sess := f x.sess }) (fun _ => rfl) (fun hk => h (by rw [hk]))]

/-! ### Answers -/

theorem Answered.answer (s : Sess) (r : Reply) (m : Mach) : Answered s r.status (m.answer s r) := by
  cases s <;> rfl

/-- A reply other than `AUTH_ERR` is answered and no more. -/
theorem Mach.reply_eq_answer {s : Sess} {r : Reply} (h : r.status ≠ .authErr) (m : Mach) : m.reply s r = m.answer s r := by
  cases s with
  | host => rfl
  | mnt n => exact if_neg h

theorem Mach.status_eq_answer {s : Sess} {c : Status} (h : c ≠ .authErr) (m : Mach) :
    m.status s c = m.answer s { status := c, data := [] } := Mach.reply_eq_answer h m

/-- What the host port and the maintenance port keep under an answer. -/
theorem Mach.answer_waiting (s : Sess) (r : Reply) (m : Mach) : (m.answer s r).bench.mnt.waiting = m.bench.mnt.waiting := by
  cases s <;> rfl

/-! ### The session that an access belongs to -/

theorem Mach.touch_waiting (s : Sess) (m : Mach) : (m.touch s).bench.mnt.waiting = m.bench.mnt.waiting := by
  cases s with
  | host =>
    unfold Mach.touch
    dsimp only
    split
    · rfl
    · split <;> rfl
  | mnt n => rfl

/-- The host's access opens its session where none is open, and keeps it alive. -/
theorem Mach.session_touch_host (m : Mach) :
    (m.touch .host).session .host = some { (m.session .host).getD {} with lastAt := m.now } := by
  unfold Mach.touch
  rw [Mach.session_updSession_self]
  dsimp only
  cases hh : m.bench.host.host with
  | some x =>
    rw [if_pos (by simp [Mach.updHost, Mach.updBench, hh])]
    simp [Mach.session, Mach.updHost, Mach.updBench, hh]
  | none =>
    rw [if_neg (by simp [Mach.updHost, Mach.updBench, hh])]
    simp only [Mach.session, Mach.updHost, Mach.updBench, hh]
    split <;> rfl

theorem Mach.mntSess_touch_host (m : Mach) (k : Nat) : (m.touch .host).mntSess k = m.mntSess k := by
  unfold Mach.touch
  dsimp only
  split
  · rfl
  · split <;> rfl

theorem Mach.session_touch_host_mnt (m : Mach) (k : Nat) : (m.touch .host).session (.mnt k) = m.session (.mnt k) := by
  unfold Mach.session
  dsimp only
  rw [Mach.mntSess_touch_host]

end Sys2Proof.Machine
end

section
/-! SUPPORT. A register access that its port carries out (R43, R44, R50): what is taken up, how a burst on a page is judged, and what the
answer leaves. -/

namespace Sys2Proof.Machine

/-! ### An access taken up -/

/-- An access that its port carries out, before its effect: the session is kept alive, and a maintenance session has the request as
its last one. -/
def Mach.accept (via : Via) (typ : Byte) (m : Mach) : Mach :=
  match via with
  | .host => m.touch .host
  | .mnt h n seq =>
    ((m.updMnt (fun p => { p with link := true })).updMntSess n
      (fun x => { x with ip := h.ip, seq := seq, typ := typ, reply := none })).touch (.mnt n)

/-- What an access finds when it takes effect: the module as it was but for the ports' own state, and its session open with what it
held. -/
structure Accepted (sess : Sess) (level : Bool) (b m : Mach) : Prop where
  only : OnlyPortState b m
  waiting : m.bench.mnt.waiting = b.bench.mnt.waiting
  irq : b.bench.host.closedByTimeout = false → m.irq = b.irq
  gate : m.gate sess level = none
  session : m.session sess = some { (b.session sess).getD {} with lastAt := b.now }
  others : ∀ q, q ≠ sess → m.session q = b.session q

theorem Mach.touch_host_irq {m : Mach} (h : m.bench.host.closedByTimeout = false) : (m.touch .host).irq = m.irq := by
  unfold Mach.touch
  dsimp only
  split
  · rfl
  · rw [if_neg (by rw [show (m.updHost _).bench.host.closedByTimeout = m.bench.host.closedByTimeout from rfl, h]; decide)]
    rfl

theorem Mach.accepted_host (typ : Byte) (level : Bool) (b : Mach) : Accepted .host level b (b.accept .host typ) where
  only := Mach.touch_onlyPortState .host b
  waiting := Mach.touch_waiting .host b
  irq := Mach.touch_host_irq
  gate := rfl
  session := Mach.session_touch_host b
  others q hq := by
    cases q with
    | host => exact absurd rfl hq
    | mnt k => exact Mach.session_touch_host_mnt b k

/-- The session of a request that is taken up. -/
def MntSession.took (ip seq : W32) (typ : Byte) (now : Nat) (x : MntSession) : MntSession :=
  { x with ip := ip, seq := seq, typ := typ, reply := none, sess := { x.sess with lastAt := now } }

theorem Mach.accept_mnt_sessions (h : MntHead) (n : Nat) (seq : W32) (typ : Byte) (b : Mach) :
    (b.accept (.mnt h n seq) typ).bench.mnt.sessions =
      b.bench.mnt.sessions.map (fun x => if x.id = n then x.took h.ip seq typ b.now else x) := by
  show ((b.bench.mnt.sessions.map _).map _) = _
  rw [List.map_map]
  refine List.map_congr_left fun x _ => ?_
  dsimp only [Function.comp_apply]
  by_cases hx : x.id = n
  · subst hx
    simp only [if_true]
    rfl
  · simp only [hx, if_false]

theorem Mach.accept_mnt_mntSess (h : MntHead) (n : Nat) (seq : W32) (typ : Byte) (b : Mach) (k : Nat) :
    (b.accept (.mnt h n seq) typ).mntSess k =
      (b.mntSess k).map (fun x => if x.id = n then x.took h.ip seq typ b.now else x) :=
  Mach.mntSess_of_map (fun x => by split <;> rfl) (Mach.accept_mnt_sessions ..) k

theorem Mach.accepted_mnt {h : MntHead} {n : Nat} {seq : W32} {level : Bool} {b : Mach} (typ : Byte)
    (hg : b.gate (.mnt n) level = none) : Accepted (.mnt n) level b (b.accept (.mnt h n seq) typ) := by
  unfold Mach.gate at hg
  dsimp only at hg
  have hs := Mach.accept_mnt_mntSess h n seq typ b
  cases hx : b.mntSess n with
  | none => rw [hx] at hg; cases hg
  | some x =>
    have hid := Mach.id_of_mntSess hx
    rw [hx] at hg
    dsimp only at hg
    have hlevel : ¬ (x.authed = false ∨ (level = true ∧ x.level = .read)) := fun c => by rw [if_pos c] at hg; cases hg
    have hauthed : x.authed = true := by
      cases ha : x.authed with
      | false => exact absurd (.inl ha) hlevel
      | true => rfl
    have hself : (b.accept (.mnt h n seq) typ).mntSess n = some (x.took h.ip seq typ b.now) := by
      rw [hs, hx, Option.map_some, if_pos hid]
    refine ⟨?_, rfl, fun _ => rfl, ?_, ?_, ?_⟩
    · exact ((Mach.updMnt_onlyPortState _ b).trans (Mach.updMntSess_onlyPortState ..)).trans (Mach.touch_onlyPortState ..)
    · unfold Mach.gate
      dsimp only
      rw [hself]
      exact if_neg hlevel
    · rw [Mach.session_mnt, Mach.session_mnt, hself, hx]
      simp [MntSession.took, hauthed]
    · intro q hq
      cases q with
      | host => rfl
      | mnt k =>
        have hk : k ≠ n := fun e => hq (by rw [e])
        rw [Mach.session_mnt, Mach.session_mnt, hs]
        cases hy : b.mntSess k with
        | none => rfl
        | some y => rw [Option.map_some, if_neg (by rw [Mach.id_of_mntSess hy]; exact hk)]

/-- The session and level of an access that its port carries out. -/
theorem Mach.accepted_of_mayAccess {s : State} {t : Nat} {via : Via} {level : Bool} {typ : Byte} {payload : List Byte} {b : Mach}
    (h : mayAccess s t via level typ payload b = true) : Accepted (viaSess via) level b (b.accept via typ) := by
  cases via with
  | host => exact Mach.accepted_host typ level b
  | mnt hd n seq =>
    unfold mayAccess at h
    simp only [Bool.and_eq_true, Option.isNone_iff_eq_none] at h
    obtain ⟨⟨-, hgate⟩, -⟩ := h
    exact Mach.accepted_mnt typ hgate

/-! ### Requests of the maintenance port -/

/-- What the port requires of a datagram that it takes up. -/
theorem mntTakes_iff {s : State} {t : Nat} {h : MntHead} {typ : Byte} {n : Nat} {seq : W32} {payload : List Byte} {m : Mach} :
    mntTakes s t h typ n seq payload m = true ↔
      m.benchServes = true ∧ s.pending.any (hostAccessAt (t / 10)) = false ∧ h.whole = true ∧ h.port = 27340 ∧
        headPasses typ n seq payload h = true ∧ m.lockedOut h.ip = false := by
  unfold mntTakes
  simp only [Bool.and_eq_true, Bool.not_eq_true', beq_iff_eq, and_assoc]

/-- The next request of an open session is carried out. -/
theorem Mach.takeDatagram_of_next {s : State} {t : Nat} {d : MntDatagram} {m : Mach} {x : MntSession}
    (ht : mntTakes s t d.head (reqTyp d.req) d.sess d.seq (reqPayload d.req) m = true) (ho : ∀ level, d.req ≠ .openSess level)
    (hx : m.mntSess d.sess = some x) (hseq : d.seq = x.seq + 1) :
    m.takeDatagram d = Mach.carryReq d.sess d.seq d.req (m.accept (.mnt d.head d.sess d.seq) (reqTyp d.req)) := by
  obtain ⟨hserves, -, hwhole, hport, hpasses, hopen⟩ := mntTakes_iff.1 ht
  have hopen' : (m.updMnt (fun p => { p with link := true })).lockedOut d.head.ip = false := hopen
  have hx' : (m.updMnt (fun p => { p with link := true })).mntSess d.sess = some x := hx
  unfold Mach.takeDatagram Mach.datagram Mach.served
  dsimp only
  rw [if_pos hserves, if_neg (by simp [hwhole, hport]), hpasses, if_neg (by decide), hopen', if_neg (by decide)]
  split
  · exact absurd ‹_› (ho _)
  · unfold Mach.sequenced
    rw [hx']
    dsimp only
    rw [if_pos hseq]
    rfl

/-! ### The runs -/

theorem Mach.serveWaiting_of_nil {m : Mach} (h : m.bench.mnt.waiting = []) : m.serveWaiting = m := by
  unfold Mach.serveWaiting
  rw [h]
  show m.updMnt (fun p => { p with waiting := [] }) = m
  unfold Mach.updMnt
  rw [← h]
  rfl

theorem Mach.benchTick_tick_mod (m : Mach) (t : Nat) : (m.tick t).benchTick.mod = m.mod := (Mach.benchTick_butBench (m.tick t)).mod

/-- A meaning of the Bench that keeps the mode completes with what it makes of the module after what passed on the Bench's clock. -/
theorem completes_benchRun {i : Instr} {s : State} {P : Mach → Prop} {t : Nat} {b : Mach} (f : Mach → Mach)
    (hb : b = (s.m.tick t).benchTick) (hi : exec i s = benchRun t f s) (hm : (f b).mod = b.mod) (hp : P (f b)) : Completes i s P := by
  subst hb
  refine completes_of_mode_eq (fun m => f (m.tick t).benchTick) hi ?_ hp
  rw [hm, Mach.benchTick_tick_mod]

/-- A host-port access that leaves no datagram waiting. -/
theorem completes_hostRun {i : Instr} {s : State} {P : Mach → Prop} {t : Nat} {b : Mach} (f : Mach → Mach)
    (hb : b = (s.m.tick t).benchTick) (hi : exec i s = hostRun f t s) (hw : (f b).bench.mnt.waiting = []) (hm : (f b).mod = b.mod)
    (hp : P (f b)) : Completes i s P := by
  refine completes_benchRun (fun m => (f m).serveWaiting) hb hi ?_ ?_ <;> rw [Mach.serveWaiting_of_nil hw]
  exacts [hm, hp]

/-- A datagram that waits for no access of the host port. -/
theorem completes_mntRun {i : Instr} {s : State} {P : Mach → Prop} {t : Nat} {b : Mach} (d : MntDatagram)
    (hb : b = (s.m.tick t).benchTick) (hi : exec i s = mntRun d t s) (hs : s.pending.any (hostAccessAt (t / 10)) = false)
    (hm : (b.takeDatagram d).mod = b.mod) (hp : P (b.takeDatagram d)) : Completes i s P := by
  have hrun : mntRun d t s = benchRun t (fun m => m.takeDatagram d) s := by
    unfold mntRun
    rw [hs]
    rfl
  exact completes_benchRun (fun m => m.takeDatagram d) hb (hi.trans hrun) hm hp

/-- A read's or write's operands as a request of the maintenance port. -/
def accessOf (h : MntHead) (n : Nat) (seq a : W32) (count : Nat) (data : Option (List W32)) : MntDatagram :=
  { head := h, sess := n, seq := seq, req := .access a count data }

/-- A write that its port carries out completes with the burst's effect. -/
theorem completes_write {i : Instr} {s : State} {P : Mach → Prop} {t : Nat} {via : Via} {a : W32} {data : List W32} {level : Bool}
    {b : Mach} (hb : b = (s.m.tick t).benchTick) (hw : mayWrite s t via a data level b = true)
    (hi : exec i s = writeRun via a data t s)
    (hp : ∀ x, Accepted (viaSess via) level b x →
      (x.writeBurst (viaSess via) a data).mod = x.mod ∧
        (x.writeBurst (viaSess via) a data).bench.mnt.waiting = x.bench.mnt.waiting ∧ P (x.writeBurst (viaSess via) a data)) :
    Completes i s P := by
  have hx := Mach.accepted_of_mayAccess hw
  obtain ⟨hmod, hwait, hP⟩ := hp _ hx
  rw [hx.only.onlyBench.mod] at hmod
  rw [hx.waiting] at hwait
  cases via with
  | host =>
    unfold mayWrite mayAccess at hw
    simp only [Bool.and_eq_true, List.isEmpty_iff] at hw
    obtain ⟨hserves, hnone⟩ := hw
    have hf : hostRegs a data b = (b.accept .host 0x04).writeBurst .host a data := if_pos hserves
    refine completes_hostRun (hostRegs a data) hb hi ?_ ?_ ?_ <;> rw [hf]
    exacts [hwait.trans hnone, hmod, hP]
  | mnt h n seq =>
    unfold mayWrite mayAccess at hw
    simp only [Bool.and_eq_true, Option.isNone_iff_eq_none, Option.any_eq_true] at hw
    obtain ⟨⟨ht, -⟩, y, hy, hseq⟩ := hw
    have hf : b.takeDatagram (accessOf h n seq a data.length (some data)) =
        (b.accept (.mnt h n seq) 0x04).writeBurst (.mnt n) a data :=
      (Mach.takeDatagram_of_next (d := accessOf h n seq a data.length (some data)) ht (fun _ => nofun) hy (eq_of_beq hseq)).trans
        (if_neg (fun hne => hne rfl))
    refine completes_mntRun (accessOf h n seq a data.length (some data)) hb hi (mntTakes_iff.1 ht).2.1 ?_ ?_ <;> rw [hf]
    exacts [hmod, hP]

/-! ### The answer -/

/-- What a session's answer leaves of the module: everything but the ports' own state, what every session holds, and the causes. -/
structure Concluded (sess : Sess) (c : Status) (m m' : Mach) : Prop where
  only : OnlyPortState m m'
  waiting : m'.bench.mnt.waiting = m.bench.mnt.waiting
  irq : m'.irq = m.irq
  session : ∀ q, m'.session q = m.session q
  answered : Answered sess c m'

theorem Mach.answer_irq (s : Sess) (r : Reply) (m : Mach) : (m.answer s r).irq = m.irq := by cases s <;> rfl

theorem Mach.reply_concluded {sess : Sess} {r : Reply} (h : r.status ≠ .authErr) (m : Mach) :
    Concluded sess r.status m (m.reply sess r) := by
  rw [Mach.reply_eq_answer h]
  exact ⟨Mach.answer_onlyPortState .., Mach.answer_waiting .., Mach.answer_irq .., fun q => Mach.session_answer sess r m q,
    Answered.answer ..⟩

theorem Mach.status_concluded {sess : Sess} {c : Status} (h : c ≠ .authErr) (m : Mach) : Concluded sess c m (m.status sess c) :=
  Mach.reply_concluded (r := { status := c, data := [] }) h m

/-- A burst that was written ends so: the summaries settle, and the answer is `OK`. -/
theorem Mach.written_concluded (sess : Sess) (m : Mach) : Concluded sess .ok m (m.settleSummaries.status sess .ok) := by
  have h := Mach.status_concluded (sess := sess) (c := .ok) (by decide) m.settleSummaries
  exact ⟨m.settleSummaries_onlyPortState.trans h.only, h.waiting, h.irq, fun q => (h.session q).trans (m.session_settleSummaries q),
    h.answered⟩

/-! ### The judgement of a burst on a page -/

theorem Mach.gate_none_of_write {m : Mach} {s : Sess} (w : Bool) (h : m.gate s true = none) : m.gate s w = none := by
  unfold Mach.gate at *
  cases s with
  | host => rfl
  | mnt n =>
    dsimp only at *
    cases hx : m.mntSess n with
    | none => rw [hx] at h; cases h
    | some x =>
      rw [hx] at h
      dsimp only at *
      refine if_neg fun hc => ?_
      rw [if_pos (hc.imp_right fun q => ⟨rfl, q.2⟩)] at h
      cases h

theorem Accepted.gate_of_le {sess : Sess} {level w : Bool} {b m : Mach} (h : Accepted sess level b m) (hw : w = true → level = true) :
    m.gate sess w = none := by
  cases level with
  | true => exact Mach.gate_none_of_write w h.gate
  | false =>
    cases w with
    | true => exact absurd (hw rfl) (by decide)
    | false => exact h.gate

/-- The offsets of a burst from an offset, with its words. -/
def wordsFrom (off : Nat) (data : List W32) : List (Nat × W32) := data.zipIdx.map (fun q => (off + 4 * q.2, q.1))

theorem burstWords_regOf (p : Page) {off : Nat} (h : off < 1024) (data : List W32) :
    burstWords (regOf p.path off) data = wordsFrom off data := by
  unfold burstWords wordsFrom
  rw [addrOffset_regOf p h]

/-- Why a page refuses a burst. -/
def Page.judge (m : Mach) (s : Sess) (ws : List (Nat × W32)) (p : Page) : Option Status :=
  ws.findSome? (fun q => p.writeRefusal m s (ws.map Prod.fst) q.1 q.2)

/-- A page with a burst's words written, in order. -/
def Page.writeAll (s : Sess) (ws : List (Nat × W32)) (p : Page) (m : Mach) : Mach :=
  ws.foldl (fun m q => p.writeWord s ((assocGet 0x05C ws).getD 0) q.1 q.2 m) m

section
variable {m : Mach} {s : Sess} {p : Page} {off : Nat} {data : List W32}

theorem Mach.burstRefusal_regOf (h : off < 1024) (hg : m.gate s ((wordsFrom off data).any (fun q => !headOffset q.1)) = none) :
    m.burstRefusal s (regOf p.path off) data = p.judge m s (wordsFrom off data) := by
  unfold Mach.burstRefusal
  rw [burstWords_regOf p h]
  dsimp only
  rw [hg, Mach.place_regOf m p h]
  rfl

theorem Mach.burstEffect_regOf (h : off < 1024) :
    m.burstEffect s (regOf p.path off) data = p.writeAll s (wordsFrom off data) m := by
  unfold Mach.burstEffect
  rw [burstWords_regOf p h, Mach.place_regOf m p h]
  rfl

/-- A burst within a page is answered with what the page refuses it for, or written. -/
theorem Mach.writeBurst_regOf_refused {c : Status} (h4 : off % 4 = 0) (h1 : 1 ≤ data.length)
    (hc : off + 4 * data.length ≤ 1024) (hg : m.gate s ((wordsFrom off data).any (fun q => !headOffset q.1)) = none)
    (hj : p.judge m s (wordsFrom off data) = some c) : m.writeBurst s (regOf p.path off) data = m.status s c := by
  have h : off < 1024 := by omega
  unfold Mach.writeBurst
  rw [spanRefusal_regOf s p h h4 h1 hc, inMailbox_regOf p h, Mach.burstRefusal_regOf h hg, hj]
  rfl

theorem Mach.writeBurst_regOf_taken (h4 : off % 4 = 0) (h1 : 1 ≤ data.length)
    (hc : off + 4 * data.length ≤ 1024) (hg : m.gate s ((wordsFrom off data).any (fun q => !headOffset q.1)) = none)
    (hj : p.judge m s (wordsFrom off data) = none) :
    m.writeBurst s (regOf p.path off) data = (p.writeAll s (wordsFrom off data) m).settleSummaries.status s .ok := by
  have h : off < 1024 := by omega
  unfold Mach.writeBurst
  rw [spanRefusal_regOf s p h h4 h1 hc, inMailbox_regOf p h, Mach.burstRefusal_regOf h hg, hj, Mach.burstEffect_regOf h]
  rfl
end

/-- A burst within a page that is written. -/
theorem completes_write_taken {i : Instr} {s : State} {P : Mach → Prop} {t : Nat} {via : Via} {p : Page} {off : Nat} {data : List W32}
    {level : Bool} {b : Mach} (hb : b = (s.m.tick t).benchTick) (hw : mayWrite s t via (regOf p.path off) data level b = true)
    (hi : exec i s = writeRun via (regOf p.path off) data t s) (h4 : off % 4 = 0) (h1 : 1 ≤ data.length)
    (hc : off + 4 * data.length ≤ 1024) (hlevel : (wordsFrom off data).any (fun q => !headOffset q.1) = true → level = true)
    (hj : ∀ x, Accepted (viaSess via) level b x → p.judge x (viaSess via) (wordsFrom off data) = none)
    (hp : ∀ x y m, Accepted (viaSess via) level b x → y = p.writeAll (viaSess via) (wordsFrom off data) x →
      Concluded (viaSess via) .ok y m → y.mod = x.mod ∧ y.bench.mnt.waiting = x.bench.mnt.waiting ∧ P m) : Completes i s P := by
  refine completes_write hb hw hi fun x hx => ?_
  rw [Mach.writeBurst_regOf_taken h4 h1 hc (hx.gate_of_le hlevel) (hj x hx)]
  have hdone := Mach.written_concluded (viaSess via) (p.writeAll (viaSess via) (wordsFrom off data) x)
  obtain ⟨hmod, hwait, hP⟩ := hp x _ _ hx rfl hdone
  exact ⟨hdone.only.onlyBench.mod.trans hmod, hdone.waiting.trans hwait, hP⟩

/-- A burst within a page that is refused whole. -/
theorem completes_write_refused {i : Instr} {s : State} {P : Mach → Prop} {t : Nat} {via : Via} {p : Page} {off : Nat}
    {data : List W32} {level : Bool} {b : Mach} {c : Status} (hb : b = (s.m.tick t).benchTick)
    (hw : mayWrite s t via (regOf p.path off) data level b = true)
    (hi : exec i s = writeRun via (regOf p.path off) data t s) (h4 : off % 4 = 0) (h1 : 1 ≤ data.length)
    (hc : off + 4 * data.length ≤ 1024) (hlevel : (wordsFrom off data).any (fun q => !headOffset q.1) = true → level = true)
    (hj : ∀ x, Accepted (viaSess via) level b x → p.judge x (viaSess via) (wordsFrom off data) = some c) (hne : c ≠ .authErr)
    (hp : ∀ x m, Accepted (viaSess via) level b x → Concluded (viaSess via) c x m → P m) : Completes i s P := by
  refine completes_write hb hw hi fun x hx => ?_
  rw [Mach.writeBurst_regOf_refused h4 h1 hc (hx.gate_of_le hlevel) (hj x hx)]
  have hdone := Mach.status_concluded (sess := viaSess via) hne x
  exact ⟨hdone.only.onlyBench.mod, hdone.waiting, hp x _ hx hdone⟩

end Sys2Proof.Machine
end

section
/-! SUPPORT. The common header of a page (R45, R46): what a write of `CHAN_SEL` is refused for, and what a write of `IRQ_STAT` clears. With
these O56. -/

namespace Sys2Proof.Machine

/-! ### The words of a short burst -/

theorem wordsFrom_one (off : Nat) (v : W32) : wordsFrom off [v] = [(off, v)] := rfl

theorem wordsFrom_two (off : Nat) (v w : W32) : wordsFrom off [v, w] = [(off, v), (off + 4, w)] := rfl

theorem Page.judge_one (p : Page) (m : Mach) (s : Sess) (off : Nat) (v : W32) :
    p.judge m s (wordsFrom off [v]) = p.writeRefusal m s [off] off v := List.findSome?_singleton

/-! ### What the words of the header are refused for -/

theorem Page.writeRefusal_chanSel (p : Page) (m : Mach) (s : Sess) (span : List Nat) (v : W32) :
    p.writeRefusal m s span 0x018 v = if v.toNat % 2 ^ 16 < p.count m then none else some .addrErr := if_pos rfl

theorem Page.writeRefusal_head {off : Nat} (p : Page) (m : Mach) (s : Sess) (span : List Nat) (v : W32) (h : headOffset off = true)
    (hne : off ≠ 0x018) : p.writeRefusal m s span off v = none := by
  unfold Page.writeRefusal
  rw [if_neg hne, if_pos h]

theorem Page.writeRefusal_chanSel_beyond {p : Page} {b m : Mach} {v : W32} (s : Sess) (span : List Nat) (hm : OnlyPortState b m)
    (h : p.count b ≤ v.toNat % 2 ^ 16) : p.writeRefusal m s span 0x018 v = some .addrErr := by
  rw [Page.writeRefusal_chanSel, hm.count p, if_neg (by omega)]

theorem Page.writeRefusal_chanSel_below {p : Page} {b m : Mach} {v : W32} (s : Sess) (span : List Nat) (hm : OnlyPortState b m)
    (h : v.toNat % 2 ^ 16 < p.count b) : p.writeRefusal m s span 0x018 v = none := by
  rw [Page.writeRefusal_chanSel, hm.count p, if_pos h]

/-! ### Interrupts (R46, R55) -/

/-- The members of a group stand in bits 1 to 7 of its registers. -/
theorem Page.member_lt {p : Page} {q : Nat × Page} (h : q ∈ p.members) : q.1 < 8 := by
  have hall : p.members.all (fun q => decide (q.1 < 8)) = true := by
    cases p with
    | ring i => cases i <;> rfl
    | canGroup c => cases c <;> rfl
    | _ => rfl
  simpa using List.all_eq_true.1 hall q h

theorem getLsbD_setBit_of_ne {n k : Nat} (w : W32) (v : Bool) (h : n ≠ k) : (setBit w n v).getLsbD k = w.getLsbD k := by
  unfold setBit
  by_cases hk : k < 32
  · have hbit : (BitVec.ofNat 32 1 <<< n).getLsbD k = false := by
      by_cases hlt : k < n
      · simp [BitVec.getLsbD_shiftLeft, hlt]
      · simp [BitVec.getLsbD_shiftLeft]
        omega
    cases v with
    | true => rw [if_pos rfl, BitVec.getLsbD_or, hbit, Bool.or_false]
    | false =>
      rw [if_neg (by decide), BitVec.getLsbD_and, BitVec.getLsbD_not, hbit]
      simp [hk]
  · rw [BitVec.getLsbD_of_ge _ _ (by omega), BitVec.getLsbD_of_ge _ _ (by omega)]

theorem getLsbD_foldl_setBit {α : Type} (n : α → Nat) (v : α → Bool) (xs : List α) (w : W32) (k : Nat) (h : ∀ x ∈ xs, n x ≠ k) :
    (xs.foldl (fun w x => setBit w (n x) (v x)) w).getLsbD k = w.getLsbD k := by
  induction xs generalizing w with
  | nil => rfl
  | cons x xs ih =>
    rw [List.foldl_cons, ih _ (fun y hy => h y (List.mem_cons_of_mem _ hy))]
    exact getLsbD_setBit_of_ne w _ (h x List.mem_cons_self)

theorem getLsbD_ownCauses {k : Nat} (h8 : 8 ≤ k) (h : k < 32) : (0xFFFFFF00 : W32).getLsbD k = true := by
  have hall : ∀ k : Fin 32, 8 ≤ k.val → (0xFFFFFF00 : W32).getLsbD k = true := by decide
  exact hall ⟨k, h⟩ h8

theorem Page.irq_leaf {p : Page} (m : Mach) (x : Session) (n : Nat) (hg : p.isGroup = false) : p.irq m x n = memRead 0 m.irq p.no := by
  cases n <;> simp [Page.irq, hg]

/-- A cause of a page's own: any bit, but of a group descriptor only bits 31 to 8. -/
theorem Page.getLsbD_irq_own {p : Page} (m : Mach) (x : Session) (n : Nat) {k : Nat} (hk : p.isGroup = true → 8 ≤ k) (h : k < 32) :
    (p.irq m x n).getLsbD k = (memRead 0 m.irq p.no).getLsbD k := by
  cases hg : p.isGroup with
  | false => rw [Page.irq_leaf m x n hg]
  | true =>
    cases n with
    | zero => rfl
    | succ n =>
      have h8 : 8 ≤ k := hk hg
      unfold Page.irq
      dsimp only
      rw [if_pos hg, getLsbD_foldl_setBit, BitVec.getLsbD_and, getLsbD_ownCauses h8 h, Bool.and_true]
      intro q hq
      have hlt := Page.member_lt hq
      omega

/-- The bits that a write of `IRQ_STAT` clears. -/
def Page.clears (p : Page) (v : W32) : W32 := if p.isGroup then v &&& 0xFFFFFF00 else v

theorem Page.getLsbD_clears {p : Page} {v : W32} {k : Nat} (hv : v.getLsbD k = true) (hk : p.isGroup = true → 8 ≤ k) :
    (p.clears v).getLsbD k = true := by
  have hlt : k < 32 := BitVec.lt_of_getLsbD hv
  unfold Page.clears
  split
  · rw [BitVec.getLsbD_and, hv, getLsbD_ownCauses (hk ‹_›) hlt]
    rfl
  · exact hv

theorem Page.getLsbD_clears_of_clear {p : Page} {v : W32} {k : Nat} (hv : v.getLsbD k = false) : (p.clears v).getLsbD k = false := by
  unfold Page.clears
  split
  · rw [BitVec.getLsbD_and, hv]
    rfl
  · exact hv

theorem Page.memRead_clearIrq_self (p : Page) (v : W32) (m : Mach) :
    memRead 0 (p.clearIrq v m).irq p.no = memRead 0 m.irq p.no &&& ~~~ p.clears v := memRead_memWrite_same ..

theorem Page.memRead_clearIrq_of_ne (p : Page) (v : W32) (m : Mach) {q : Nat} (h : q ≠ p.no) :
    memRead 0 (p.clearIrq v m).irq q = memRead 0 m.irq q := memRead_memWrite_of_ne _ _ _ _ _ h

/-! ### The obligation's clauses -/

/-- A refused burst leaves its session as it was. -/
theorem Accepted.session_concluded {sess : Sess} {level : Bool} {b x m : Mach} {c : Status} (hx : Accepted sess level b x)
    (hm : Concluded sess c x m) : m.session sess = some { (b.session sess).getD {} with lastAt := b.now } :=
  (hm.session sess).trans hx.session

theorem Accepted.onlyBench_concluded {sess : Sess} {level : Bool} {b x m : Mach} {c : Status} (hx : Accepted sess level b x)
    (hm : Concluded sess c x m) : OnlyBench b m := (hx.only.trans hm.only).onlyBench

/-- A write of an index that is not below `COUNT`. -/
theorem chanSelWrite_beyond {s : State} {via : Via} {p : Page} {index : W16} {t : Nat} {b : Mach} (hb : b = (s.m.tick t).benchTick)
    (hw : mayWrite s t via (regOf p.path 0x018) [index.setWidth 32] false b = true) (hi : p.count b ≤ index.toNat) :
    Completes (.chanSelWrite via (regOf p.path 0) index t) s (fun m => Answered (viaSess via) .addrErr m ∧
      (m.session (viaSess via)).map (fun x => x.sel p) = some (((b.session (viaSess via)).getD {}).sel p) ∧ OnlyBench b m) := by
  refine completes_write_refused (c := .addrErr) hb hw (congrArg (fun a => writeRun via a _ t s) (inPage_regOf p 0x018)) rfl le_rfl
    (by simp) id (fun x hx => ?_) (by decide) (fun x m hx hm => ?_)
  · have hlt := index.isLt
    rw [Page.judge_one, Page.writeRefusal_chanSel_beyond _ _ hx.only (by simp; omega)]
  · refine ⟨hm.answered, ?_, hx.onlyBench_concluded hm⟩
    rw [hx.session_concluded hm]
    rfl

/-- The same inside a burst. -/
theorem burst_chanSel_beyond {s : State} {via : Via} {p : Page} {mask v : W32} {t : Nat} {b : Mach} (hb : b = (s.m.tick t).benchTick)
    (hw : mayWrite s t via (regOf p.path 0x014) [mask, v] false b = true) (hv : p.count b ≤ v.toNat % 2 ^ 16) :
    Completes (.registerWrite via (regOf p.path 0x014) [mask, v] t) s (fun m => Answered (viaSess via) .addrErr m ∧
      (m.session (viaSess via)).map (fun x => x.sel p) = some (((b.session (viaSess via)).getD {}).sel p) ∧ OnlyBench b m) := by
  refine completes_write_refused (c := .addrErr) hb hw rfl rfl (by simp)
    (by simp) id (fun x hx => ?_) (by decide) (fun x m hx hm => ?_)
  · unfold Page.judge
    rw [wordsFrom_two]
    simp only [List.findSome?_cons, Page.writeRefusal_head p x _ _ mask (off := 0x014) rfl (by decide),
      Page.writeRefusal_chanSel_beyond _ _ hx.only hv]
  · refine ⟨hm.answered, ?_, hx.onlyBench_concluded hm⟩
    rw [hx.session_concluded hm]
    rfl

/-- An absent unit's page has no instances. -/
theorem burst_chanSel_absent {s : State} {via : Via} {a v : W32} {t : Nat} {b : Mach} (hb : b = (s.m.tick t).benchTick)
    (hw : mayWrite s t via a [v] false b = true) (hplace : b.place a = .absent) (hmail : inMailbox a = false)
    (hok : addrOk (viaSess via) a 1 = true) (hoff : addrOffset a = 0x018) :
    Completes (.registerWrite via a [v] t) s (fun m => Answered (viaSess via) .addrErr m ∧
      (m.session (viaSess via)).map (fun x => x.chan) = some ((b.session (viaSess via)).getD {}).chan) := by
  refine completes_write hb hw rfl fun x hx => ?_
  have hspan : spanRefusal (viaSess via) a 1 = none := by
    unfold spanRefusal
    rw [hmail, hok]
    rfl
  have hburst : burstWords a [v] = [(0x018, v)] := by
    unfold burstWords
    rw [hoff]
    rfl
  have hrefusal : x.burstRefusal (viaSess via) a [v] = some .addrErr := by
    unfold Mach.burstRefusal
    rw [hburst]
    dsimp only
    rw [hx.gate_of_le (w := [(0x018, v)].any (fun q => !headOffset q.1)) id, hx.only.place, hplace]
    rfl
  have hwrite : x.writeBurst (viaSess via) a [v] = x.status (viaSess via) .addrErr := by
    unfold Mach.writeBurst
    rw [show [v].length = 1 from rfl, hspan, hmail, hrefusal]
    rfl
  have hm := Mach.status_concluded (sess := viaSess via) (c := .addrErr) (by decide) x
  rw [hwrite]
  refine ⟨hm.only.onlyBench.mod, hm.waiting, hm.answered, ?_⟩
  rw [hx.session_concluded hm]
  rfl

/-- `IRQ_STAT` of a leaf page is the same for every session. -/
theorem Page.readWord_irqStat (p : Page) (m : Mach) (x y : Session) (h : p.isGroup = false) :
    p.readWord m x 0x010 = p.readWord m y 0x010 :=
  (Page.irq_leaf m x pageDepth h).trans (Page.irq_leaf m y pageDepth h).symm

theorem irqStatClear_clears {s : State} {via : Via} {p : Page} {bits : W32} {t : Nat} {b : Mach} (hb : b = (s.m.tick t).benchTick)
    (hw : mayWrite s t via (regOf p.path 0x010) [bits] false b = true) (hclosed : b.bench.host.closedByTimeout = false) :
    Completes (.irqStatClear via (regOf p.path 0) bits t) s (fun m => Answered (viaSess via) .ok m ∧
      (∀ (x : Session) (k : Nat), bits.getLsbD k = true → (p.isGroup = true → 8 ≤ k) →
        (p.readWord m x 0x010).getLsbD k = false) ∧
      (∀ q, q ≠ p.no → memRead 0 m.irq q = memRead 0 b.irq q) ∧
      (∀ k, k < 32 → bits.getLsbD k = false → (memRead 0 m.irq p.no).getLsbD k = (memRead 0 b.irq p.no).getLsbD k) ∧
      OnlyBench b m) := by
  refine completes_write_taken hb hw (congrArg (fun a => writeRun via a _ t s) (inPage_regOf p 0x010)) rfl le_rfl
    (by simp) id (fun x hx => ?_) (fun x y m hx hy hm => ?_)
  · rw [Page.judge_one, Page.writeRefusal_head p x _ _ _ rfl (by decide)]
  · have hy' : y = p.clearIrq bits x := hy
    have honly : OnlyPortState x y := by rw [hy']; rfl
    have hself : memRead 0 m.irq p.no = memRead 0 b.irq p.no &&& ~~~ p.clears bits := by
      rw [hm.irq, hy', Page.memRead_clearIrq_self, hx.irq hclosed]
    refine ⟨honly.onlyBench.mod, by rw [hy']; rfl, hm.answered, fun z k hk hg => ?_, fun q hq => ?_, fun k hlt hk => ?_,
      ((hx.only.trans honly).trans hm.only).onlyBench⟩
    · show (p.irq m z pageDepth).getLsbD k = false
      rw [Page.getLsbD_irq_own m z pageDepth hg (BitVec.lt_of_getLsbD hk), hself]
      rw [BitVec.getLsbD_and, BitVec.getLsbD_not, Page.getLsbD_clears hk hg]
      simp
    · rw [hm.irq, hy', Page.memRead_clearIrq_of_ne p bits x hq, hx.irq hclosed]
    · rw [hself, BitVec.getLsbD_and, BitVec.getLsbD_not, Page.getLsbD_clears_of_clear hk]
      simp [hlt]

end Sys2Proof.Machine

open Sys2Proof Sys2Proof.Machine

/-- Settles O56: a burst on a page is judged word by word (`Page.judge`), and a written `IRQ_STAT` clears the page's own causes. -/
theorem registerSpaceRules : Obligations.RegisterSpaceRules := by
  unfold Obligations.RegisterSpaceRules
  refine ⟨?_, ?_, ?_, ?_, ?_⟩
  · rintro s via _ p index t b hb rfl hw hi
    exact chanSelWrite_beyond hb hw hi
  · rintro s via _ p mask v t b hb rfl hw hv
    exact burst_chanSel_beyond hb hw hv
  · rintro s via _ a v t b hb rfl hw hplace hmail hok hoff
    exact burst_chanSel_absent hb hw hplace hmail hok hoff
  · intro m x y p h
    exact p.readWord_irqStat m x y h
  · rintro s via _ p bits t b hb rfl hw hclosed
    exact irqStatClear_clears hb hw hclosed

end

section
/-! SUPPORT. Writes of a session (R42 to R44, R54, R431, R439): what each written word changes and leaves, snapshots, and the refusal of an
unauthorised burst. With these O50. -/

namespace Sys2Proof.Machine

/-! ### What a written word leaves -/

theorem Mach.updSession_waiting (s : Sess) (f : Session → Session) (m : Mach) :
    (m.updSession s f).bench.mnt.waiting = m.bench.mnt.waiting := by cases s <;> rfl

theorem Mach.lane_of_lanes {a b : Mach} (h : b.lanes = a.lanes) (l : LaneId) : b.lane l = a.lane l := congrArg (fun x => x.get l) h

theorem OnlyPortState.lane {a b : Mach} (h : OnlyPortState a b) (l : LaneId) : b.lane l = a.lane l :=
  Mach.lane_of_lanes h.onlyBench.lanes l

theorem Mach.benchTick_tick_now (m : Mach) (t : Nat) : (m.tick t).benchTick.now = max m.now t := (Mach.benchTick_butBench (m.tick t)).now

/-- A write that changes what the session holds, and no more. -/
theorem completes_write_session {i : Instr} {s : State} {P : Mach → Prop} {t : Nat} {via : Via} {p : Page} {off : Nat}
    {data : List W32} {level : Bool} {b : Mach} (f : Session → Session) (hb : b = (s.m.tick t).benchTick)
    (hw : mayWrite s t via (regOf p.path off) data level b = true)
    (hi : exec i s = writeRun via (regOf p.path off) data t s) (h4 : off % 4 = 0) (h1 : 1 ≤ data.length)
    (hc : off + 4 * data.length ≤ 1024) (hlevel : (wordsFrom off data).any (fun q => !headOffset q.1) = true → level = true)
    (hj : ∀ x, Accepted (viaSess via) level b x → p.judge x (viaSess via) (wordsFrom off data) = none)
    (hf : ∀ x, p.writeAll (viaSess via) (wordsFrom off data) x = x.updSession (viaSess via) f)
    (hp : ∀ m, m.session (viaSess via) = some (f { (b.session (viaSess via)).getD {} with lastAt := b.now }) →
      (∀ q, q ≠ viaSess via → m.session q = b.session q) → Answered (viaSess via) .ok m → OnlyBench b m → P m) :
    Completes i s P := by
  refine completes_write_taken hb hw hi h4 h1 hc hlevel hj fun x y m hx hy hm => ?_
  rw [hf] at hy
  have honly : OnlyPortState x y := by
    rw [hy]
    exact Mach.updSession_onlyPortState ..
  refine ⟨honly.onlyBench.mod, ?_, hp m ?_ (fun q hq => ?_) hm.answered ((hx.only.trans honly).trans hm.only).onlyBench⟩
  · rw [hy, Mach.updSession_waiting]
  · rw [hm.session, hy, Mach.session_updSession_self, hx.session]
    rfl
  · rw [hm.session, hy, Mach.session_updSession_of_ne f x hq, hx.others q hq]

theorem chanSelWrite_below {s : State} {via : Via} {p : Page} {index : W16} {t : Nat} {b : Mach} (hb : b = (s.m.tick t).benchTick)
    (hw : mayWrite s t via (inPage (regOf p.path 0) 0x018) [index.setWidth 32] false b = true) (hlt : index.toNat < p.count b) :
    Completes (.chanSelWrite via (regOf p.path 0) index t) s (fun m =>
      (m.session (viaSess via)).map (fun x => x.chan) = some (assocSet p.no index ((b.session (viaSess via)).getD {}).chan) ∧
      (m.session (viaSess via)).map (fun x => x.mask) = some ((b.session (viaSess via)).getD {}).mask ∧
      (∀ q ∈ [Sess.host, .mnt 1, .mnt 2, .mnt 3, .mnt 4], q ≠ viaSess via → m.session q = b.session q) ∧
      Answered (viaSess via) .ok m ∧ OnlyBench b m) := by
  rw [inPage_regOf] at hw
  have hindex : (index.setWidth 32).setWidth 16 = index := by
    rw [BitVec.setWidth_setWidth_of_le _ (by decide)]
    exact BitVec.setWidth_eq _
  refine completes_write_session (fun x => { x with chan := assocSet p.no ((index.setWidth 32).setWidth 16) x.chan }) hb hw
    (congrArg (fun a => writeRun via a _ t s) (inPage_regOf p 0x018)) rfl le_rfl (by simp) id (fun x hx => ?_) (fun x => rfl)
    (fun m hself hothers hanswered honly => ⟨?_, ?_, fun q _ => hothers q, hanswered, honly⟩)
  · have hlt' := index.isLt
    rw [Page.judge_one, Page.writeRefusal_chanSel_below _ _ hx.only (by simp; omega)]
  · rw [hself, hindex]
    rfl
  · rw [hself]
    rfl

theorem irqMaskWrite_keeps {s : State} {via : Via} {p : Page} {mask : W32} {t : Nat} {b : Mach} (hb : b = (s.m.tick t).benchTick)
    (hw : mayWrite s t via (inPage (regOf p.path 0) 0x014) [mask] false b = true) :
    Completes (.irqMaskWrite via (regOf p.path 0) mask t) s (fun m =>
      (m.session (viaSess via)).map (fun x => x.mask) = some (memWrite 0 p.no mask ((b.session (viaSess via)).getD {}).mask) ∧
      (m.session (viaSess via)).map (fun x => x.chan) = some ((b.session (viaSess via)).getD {}).chan ∧
      (∀ q ∈ [Sess.host, .mnt 1, .mnt 2, .mnt 3, .mnt 4], q ≠ viaSess via → m.session q = b.session q) ∧
      Answered (viaSess via) .ok m ∧ OnlyBench b m) := by
  rw [inPage_regOf] at hw
  refine completes_write_session (fun x => { x with mask := memWrite 0 p.no mask x.mask }) hb hw
    (congrArg (fun a => writeRun via a _ t s) (inPage_regOf p 0x014)) rfl le_rfl (by simp) id (fun x hx => ?_) (fun x => rfl)
    (fun m hself hothers hanswered honly => ⟨?_, ?_, fun q _ => hothers q, hanswered, honly⟩)
  · rw [Page.judge_one, Page.writeRefusal_head p x _ _ _ rfl (by decide)]
  · rw [hself]
    rfl
  · rw [hself]
    rfl

/-- A burst over `IRQ_MASK` and `CHAN_SEL`. -/
theorem burst_maskAndChanSel {s : State} {via : Via} {p : Page} {mask v : W32} {t : Nat} {b : Mach} (hb : b = (s.m.tick t).benchTick)
    (hw : mayWrite s t via (regOf p.path 0x014) [mask, v] false b = true) (hv : v.toNat % 2 ^ 16 < p.count b) :
    Completes (.registerWrite via (regOf p.path 0x014) [mask, v] t) s (fun m =>
      (m.session (viaSess via)).map (fun x => (x.mask, x.chan)) =
        some (memWrite 0 p.no mask ((b.session (viaSess via)).getD {}).mask,
          assocSet p.no (v.setWidth 16) ((b.session (viaSess via)).getD {}).chan) ∧
      Answered (viaSess via) .ok m ∧ OnlyBench b m) := by
  refine completes_write_taken hb hw rfl rfl (by simp) (by simp) id (fun x hx => ?_) (fun x y m hx hy hm => ?_)
  · unfold Page.judge
    rw [wordsFrom_two]
    simp only [List.findSome?_cons, List.findSome?_nil, Page.writeRefusal_head p x _ _ mask (off := 0x014) rfl (by decide),
      Page.writeRefusal_chanSel_below _ _ hx.only hv]
  · have hy' : y = (x.updSession (viaSess via) (fun z => { z with mask := memWrite 0 p.no mask z.mask })).updSession (viaSess via)
        (fun z => { z with chan := assocSet p.no (v.setWidth 16) z.chan }) := hy
    have honly : OnlyPortState x y := by
      rw [hy']
      exact (Mach.updSession_onlyPortState ..).trans (Mach.updSession_onlyPortState ..)
    refine ⟨honly.onlyBench.mod, ?_, ?_, hm.answered, ((hx.only.trans honly).trans hm.only).onlyBench⟩
    · rw [hy', Mach.updSession_waiting, Mach.updSession_waiting]
    · rw [hm.session, hy', Mach.session_updSession_self, Mach.session_updSession_self, hx.session]
      rfl

/-- A burst with a word that cannot be written changes nothing (R43). -/
theorem burst_refusedWhole {s : State} {via : Via} {p : Page} {mask v : W32} {t : Nat} {b : Mach} (hb : b = (s.m.tick t).benchTick)
    (hw : mayWrite s t via (regOf p.path 0x014) [mask, v, 0] true b = true) (hv : p.count b ≤ v.toNat % 2 ^ 16) :
    Completes (.registerWrite via (regOf p.path 0x014) [mask, v, 0] t) s (fun m =>
      (m.session (viaSess via)).map (fun x => (x.mask, x.chan)) =
        some (((b.session (viaSess via)).getD {}).mask, ((b.session (viaSess via)).getD {}).chan) ∧
      Answered (viaSess via) .addrErr m ∧ OnlyBench b m) := by
  refine completes_write_refused (c := .addrErr) hb hw rfl rfl (by simp) (by simp) (fun _ => rfl) (fun x hx => ?_) (by decide)
    (fun x m hx hm => ⟨?_, hm.answered, hx.onlyBench_concluded hm⟩)
  · have hwords : wordsFrom 0x014 [mask, v, 0] = [(0x014, mask), (0x018, v), (0x01C, 0)] := rfl
    unfold Page.judge
    rw [hwords]
    simp only [List.findSome?_cons, Page.writeRefusal_head p x _ _ mask (off := 0x014) rfl (by decide),
      Page.writeRefusal_chanSel_beyond _ _ hx.only hv]
  · rw [hx.session_concluded hm]
    rfl

/-- A read-only word of the Copier's page. -/
theorem copierWrite_refused {s : State} {via : Via} {l : LaneId} {v : W32} {t : Nat} {b : Mach} (hb : b = (s.m.tick t).benchTick)
    (hw : mayWrite s t via (regOf (Page.copier l).path 0x020) [v] true b = true) :
    Completes (.registerWrite via (regOf (Page.copier l).path 0x020) [v] t) s (fun m => m.lanes = b.lanes ∧
      Answered (viaSess via) .refused m ∧ OnlyBench b m) := by
  refine completes_write_refused (c := .refused) hb hw rfl rfl le_rfl (by simp) (fun _ => rfl) (fun x hx => ?_) (by decide)
    (fun x m hx hm => ⟨(hx.onlyBench_concluded hm).lanes, hm.answered, hx.onlyBench_concluded hm⟩)
  rw [Page.judge_one]
  rfl

/-- A burst of no words or too many. -/
theorem burst_length_refused {s : State} {via : Via} {p : Page} {data : List W32} {t : Nat} {b : Mach} (hb : b = (s.m.tick t).benchTick)
    (hw : mayWrite s t via (regOf p.path 0) data false b = true) (hlen : data.length = 0 ∨ 256 < data.length) :
    Completes (.registerWrite via (regOf p.path 0) data t) s (fun m => Answered (viaSess via) .lenErr m ∧ OnlyBench b m ∧
      m.bench.recd = b.bench.recd ∧ m.bench.upd = b.bench.upd ∧ m.bench.test = b.bench.test) := by
  refine completes_write hb hw rfl fun x hx => ?_
  have hspan : spanRefusal (viaSess via) (regOf p.path 0) data.length = some .lenErr := by
    unfold spanRefusal
    rw [inMailbox_regOf p (by decide)]
    exact if_pos hlen
  have hwrite : x.writeBurst (viaSess via) (regOf p.path 0) data = x.status (viaSess via) .lenErr := by
    unfold Mach.writeBurst
    rw [hspan]
  have hm := Mach.status_concluded (sess := viaSess via) (c := .lenErr) (by decide) x
  have honly := hx.only.trans hm.only
  rw [hwrite]
  exact ⟨hm.only.onlyBench.mod, hm.waiting, hm.answered, honly.onlyBench, honly.recd, honly.upd, honly.test⟩

/-! ### Snapshots (R54, R131, R439) -/

theorem Mach.lane_raise (path : List Nat) (bit : Nat) (m : Mach) (l : LaneId) : (m.raise path bit).lane l = m.lane l := rfl

theorem Tri.upd_of_fixed {α : Type} {l : LaneId} {f : α → α} {x : Tri α} (h : f (x.get l) = x.get l) : x.upd l f = x := by
  cases l <;> unfold Tri.upd <;> dsimp only [Tri.get] at h ⊢ <;> rw [h]

/-- A Copier whose snapshot runs takes no other. -/
theorem Page.snap_copier_running {m : Mach} {l : LaneId} (h : (m.lane l).cop.snapFrom.isSome = true) :
    ((Page.copier l).snap m).lanes = m.lanes := by
  simp only [Page.snap, Mach.updLane]
  exact Tri.upd_of_fixed (if_pos h)

/-- The page of a snapshot under `SNAP`. -/
theorem completes_pageSnap {s : State} {via : Via} {p : Page} {t : Nat} {b : Mach} {P : Mach → Prop} (hb : b = (s.m.tick t).benchTick)
    (hw : mayWrite s t via (inPage (regOf p.path 0) 0x008) [1] false b = true)
    (hp : ∀ x m, Accepted (viaSess via) false b x → Concluded (viaSess via) .ok (p.snap x) m →
      (p.snap x).mod = x.mod ∧ (p.snap x).bench.mnt.waiting = x.bench.mnt.waiting ∧ P m) :
    Completes (.pageSnap via (regOf p.path 0) t) s P := by
  rw [inPage_regOf] at hw
  refine completes_write_taken hb hw (congrArg (fun a => writeRun via a _ t s) (inPage_regOf p 0x008)) rfl le_rfl (by simp) id
    (fun x hx => ?_) (fun x y m hx hy hm => ?_)
  · rw [Page.judge_one, Page.writeRefusal_head p x _ _ _ rfl (by decide)]
  · have hy' : y = p.snap x := hy
    rw [hy'] at hm ⊢
    exact hp x m hx hm

section
variable {s : State} {via : Via} {l : LaneId} {t : Nat} {b : Mach}

theorem copierSnap_starts (hb : b = (s.m.tick t).benchTick)
    (hw : mayWrite s t via (inPage (regOf (Page.copier l).path 0) 0x008) [1] false b = true) (hnone : (b.lane l).cop.snapFrom = none) :
    Completes (.pageSnap via (regOf (Page.copier l).path 0) t) s (fun m =>
      m.lane l = { b.lane l with cop := { (b.lane l).cop with
        group := { (b.lane l).cop.group with ready := false }, snapFrom := some (max s.m.now t) } } ∧
      (∀ k ∈ laneIds, k ≠ l → m.lane k = b.lane k) ∧ m.cal = b.cal ∧ m.mod = b.mod ∧ Answered (viaSess via) .ok m) := by
  refine completes_pageSnap hb hw fun x m hx hm => ⟨rfl, rfl, ?_, fun k _ hk => ?_, ?_, ?_, hm.answered⟩
  · rw [hm.only.lane, Page.snap, Mach.lane_updLane_self, hx.only.lane, hnone, hx.only.onlyBench.now, hb, Mach.benchTick_tick_now]
    rfl
  · rw [hm.only.lane, Page.snap, Mach.lane_updLane_of_ne _ _ _ _ hk, hx.only.lane]
  · exact hm.only.onlyBench.cal.trans hx.only.onlyBench.cal
  · exact hm.only.onlyBench.mod.trans hx.only.onlyBench.mod

theorem copierSnap_running (hb : b = (s.m.tick t).benchTick)
    (hw : mayWrite s t via (inPage (regOf (Page.copier l).path 0) 0x008) [1] false b = true)
    (hsome : (b.lane l).cop.snapFrom.isSome = true) :
    Completes (.pageSnap via (regOf (Page.copier l).path 0) t) s (fun m => m.lanes = b.lanes ∧ Answered (viaSess via) .ok m) := by
  refine completes_pageSnap hb hw fun x m hx hm => ⟨rfl, rfl, ?_, hm.answered⟩
  rw [hm.only.onlyBench.lanes, Page.snap_copier_running (by rw [hx.only.lane, hsome]), hx.only.onlyBench.lanes]

theorem agreementSnap_starts (hb : b = (s.m.tick t).benchTick)
    (hw : mayWrite s t via (inPage (regOf (Page.agreement l).path 0) 0x008) [1] false b = true)
    (hnone : (b.lane l).agr.snapFrom = none) :
    Completes (.pageSnap via (regOf (Page.agreement l).path 0) t) s (fun m =>
      (m.lane l).agr = { (b.lane l).agr with
        group := { (b.lane l).agr.group with ready := false }, snapFrom := some (max s.m.now t) } ∧
      (∀ k ∈ laneIds, k ≠ l → m.lane k = b.lane k) ∧ m.cal = b.cal ∧ m.mod = b.mod ∧ Answered (viaSess via) .ok m) := by
  refine completes_pageSnap hb hw fun x m hx hm => ⟨rfl, rfl, ?_, fun k _ hk => ?_, ?_, ?_, hm.answered⟩
  · rw [hm.only.lane, Page.snap, Mach.lane_updLane_self, hx.only.lane, hnone, hx.only.onlyBench.now, hb, Mach.benchTick_tick_now]
    rfl
  · rw [hm.only.lane, Page.snap, Mach.lane_updLane_of_ne _ _ _ _ hk, hx.only.lane]
  · exact hm.only.onlyBench.cal.trans hx.only.onlyBench.cal
  · exact hm.only.onlyBench.mod.trans hx.only.onlyBench.mod

theorem voteStatsSnap_starts (hb : b = (s.m.tick t).benchTick)
    (hw : mayWrite s t via (inPage (regOf Page.voteStats.path 0) 0x008) [1] false b = true) (hnone : b.cal.vote.snapFrom = none) :
    Completes (.pageSnap via (regOf Page.voteStats.path 0) t) s (fun m =>
      m.cal = { b.cal with vote := { b.cal.vote with
        group := { b.cal.vote.group with ready := false }, snapFrom := some (max s.m.now t) } } ∧
      m.lanes = b.lanes ∧ m.mod = b.mod ∧ Answered (viaSess via) .ok m) := by
  refine completes_pageSnap hb hw fun x m hx hm => ⟨rfl, rfl, ?_, ?_, ?_, hm.answered⟩
  · rw [hm.only.onlyBench.cal, Page.snap, hx.only.onlyBench.cal, hx.only.onlyBench.now]
    dsimp only
    rw [hnone, hb, Mach.benchTick_tick_now]
    rfl
  · exact hm.only.onlyBench.lanes.trans hx.only.onlyBench.lanes
  · exact hm.only.onlyBench.mod.trans hx.only.onlyBench.mod

theorem countersSnap_completes (k : Nat) (hb : b = (s.m.tick t).benchTick)
    (hw : mayWrite s t via (inPage (regOf Page.counters.path 0) 0x008) [1] false b = true) :
    Completes (.pageSnap via (regOf Page.counters.path 0) t) s (fun m =>
      (m.bench.ec[k]?).map (fun x => (x.group.ready, x.group.serial, x.delta, x.snap, x.secs, x.count)) =
        (b.bench.ec[k]?).map (fun x => (true, x.group.serial + 1, x.count - x.snap, x.count, BitVec.ofNat 32 b.benchSecs, x.count)) ∧
      Answered (viaSess via) .ok m ∧ OnlyBench b m) := by
  refine completes_pageSnap hb hw fun x m hx hm => ⟨rfl, rfl, ?_, hm.answered, ?_⟩
  · have hec : (Page.counters.snap x).bench.ec = x.bench.ec.map (fun y => { y with
        group := y.group.complete, delta := y.count - y.snap, snap := y.count, secs := BitVec.ofNat 32 x.benchSecs }) := rfl
    rw [hm.only.ec, hec, hx.only.ec, hx.only.benchSecs, List.getElem?_map, Option.map_map]
    rfl
  · have hsnap : OnlyBench x (Page.counters.snap x) := rfl
    exact (hx.only.onlyBench.trans hsnap).trans hm.only.onlyBench

/-- A snapshot that was started completes, or waits for the boundary. -/
theorem completes_snapshotComplete {p : Page} {P : Mach → Prop} (hb : b = (s.m.tick t).benchTick) (hm : (p.snapDone b).mod = b.mod)
    (hp : P (p.snapDone b)) : Completes (.snapshotComplete (regOf p.path 0) t) s P := by
  have hf : snapshotComplete (regOf p.path 0) b = p.snapDone b := by
    unfold snapshotComplete
    rw [Mach.place_regOf b p (by decide)]
  refine completes_benchRun (snapshotComplete (regOf p.path 0)) hb rfl ?_ ?_ <;> rw [hf]
  exacts [hm, hp]

theorem copierSnapshot_completes (hb : b = (s.m.tick t).benchTick) (hcome : b.boundarySince l (b.lane l).cop.snapFrom = true) :
    Completes (.snapshotComplete (regOf (Page.copier l).path 0) t) s (fun m =>
      (m.lane l).cop.snap = (b.lane l).cop.live ∧ (m.lane l).cop.live = {} ∧ (m.lane l).cop.snapFrom = none ∧
      (m.lane l).cop.group = { serial := (b.lane l).cop.group.serial + 1, ready := true } ∧
      (∀ k ∈ laneIds, k ≠ l → m.lane k = b.lane k) ∧ (m.lane l).agr = (b.lane l).agr ∧ m.mod = b.mod ∧ m.bench = b.bench) := by
  have hdone : (Page.copier l).snapDone b = (b.updLane l (fun x => { x with cop := { x.cop with
      group := x.cop.group.complete, snap := x.cop.live, live := {}, snapFrom := none } })).raise (lanePath l 3) 2 := if_pos hcome
  refine completes_snapshotComplete hb (by rw [hdone]; rfl) ?_
  rw [hdone]
  rw [Mach.lane_raise, Mach.lane_updLane_self]
  exact ⟨rfl, rfl, rfl, rfl, fun k _ hk => Mach.lane_updLane_of_ne _ _ _ _ hk, rfl, rfl, rfl⟩

theorem agreementSnapshot_completes (hb : b = (s.m.tick t).benchTick) (hcome : b.boundarySince l (b.lane l).agr.snapFrom = true) :
    Completes (.snapshotComplete (regOf (Page.agreement l).path 0) t) s (fun m =>
      (m.lane l).agr.snap = (b.lane l).agr.live ∧ (m.lane l).agr.live = {} ∧ (m.lane l).agr.snapFrom = none ∧
      (m.lane l).agr.group = { serial := (b.lane l).agr.group.serial + 1, ready := true } ∧ m.mod = b.mod ∧ m.bench = b.bench) := by
  have hdone : (Page.agreement l).snapDone b = (b.updLane l (fun x => { x with agr := { x.agr with
      group := x.agr.group.complete, snap := x.agr.live, live := {}, snapFrom := none } })).raise (lanePath l 6) 5 := if_pos hcome
  refine completes_snapshotComplete hb (by rw [hdone]; rfl) ?_
  rw [hdone]
  rw [Mach.lane_raise, Mach.lane_updLane_self]
  exact ⟨rfl, rfl, rfl, rfl, rfl, rfl⟩

theorem voteStatsSnapshot_completes (hb : b = (s.m.tick t).benchTick) (hcome : b.boundarySince l b.cal.vote.snapFrom = true) :
    Completes (.snapshotComplete (regOf Page.voteStats.path 0) t) s (fun m =>
      m.cal.vote.snap = b.cal.vote.live ∧ m.cal.vote.live = {} ∧ m.cal.vote.snapFrom = none ∧
      m.cal.vote.group = { serial := b.cal.vote.group.serial + 1, ready := true } ∧ m.lanes = b.lanes ∧ m.mod = b.mod) := by
  have hany : laneIds.any (fun l => b.boundarySince l b.cal.vote.snapFrom) = true :=
    List.any_eq_true.2 ⟨l, by cases l <;> decide, hcome⟩
  have hdone : Page.voteStats.snapDone b = ({ b with cal := { b.cal with vote := { b.cal.vote with
      group := b.cal.vote.group.complete, snap := b.cal.vote.live, live := {}, snapFrom := none } } } : Mach).raise (calPath 4) 0 :=
    if_pos hany
  refine completes_snapshotComplete hb ?_ ?_ <;> rw [hdone]
  · rfl
  · exact ⟨rfl, rfl, rfl, rfl, rfl, rfl⟩

theorem copierSnapshot_waits (hb : b = (s.m.tick t).benchTick) (hnot : b.boundarySince l (b.lane l).cop.snapFrom = false) :
    Becomes (.snapshotComplete (regOf (Page.copier l).path 0) t) s b := by
  have hf : snapshotComplete (regOf (Page.copier l).path 0) b = b := by
    unfold snapshotComplete
    rw [Mach.place_regOf b (Page.copier l) (by decide)]
    exact if_neg (by rw [hnot]; decide)
  subst hb
  refine becomes_of_run (fun m => snapshotComplete (regOf (Page.copier l).path 0) (m.tick t).benchTick) rfl (.inl ?_) hf
  rw [hf, Mach.benchTick_tick_mod]
end

/-! ### Event counters (R439) -/

section
variable {s : State} {via : Via} {t : Nat} {b : Mach}

/-- The counter that a session's `CHAN_SEL` names takes the new setting. -/
theorem ecCfgWrite_configures {val : W32} {P : Mach → Prop} (hb : b = (s.m.tick t).benchTick)
    (hw : mayWrite s t via (regOf (benchPath 2) 0x020) [val] true b = true)
    (hp : ∀ m, m.bench.ec = modAt (configCounter b.ecNow val) (((b.session (viaSess via)).getD {}).sel .counters) b.bench.ec →
      Answered (viaSess via) .ok m → OnlyBench b m → P m) : Completes (.ecCfgWrite via val t) s P := by
  refine completes_write_taken (p := .counters) hb hw rfl rfl le_rfl (by simp) (fun _ => rfl) (fun x hx => Page.judge_one ..)
    (fun x y m hx hy hm => ?_)
  have hy' : y = x.updBench (fun b => { b with
      ec := modAt (configCounter x.ecNow val) (((x.session (viaSess via)).getD {}).sel .counters) b.ec }) := hy
  have hxy : OnlyBench x y := by rw [hy']; rfl
  refine ⟨hxy.mod, by rw [hy']; rfl, hp m ?_ hm.answered ((hx.only.onlyBench.trans hxy).trans hm.only.onlyBench)⟩
  rw [hm.only.ec, hy']
  show modAt _ _ x.bench.ec = _
  rw [hx.only.ec, hx.only.ecNow, hx.session]
  rfl

/-- What a setting leaves of a counter that no event reaches in the same clock. -/
theorem configCounter_nil (val : W32) (x : EventCounter) : configCounter [] val x =
    { x with src := val.setWidth 8, qual := (val >>> 8).setWidth 8, sat := val.getLsbD 16, count := 0 } := rfl

/-- An event of the same clock that the new setting admits counts under it. -/
theorem configCounter_one {val : W32} {e q : Byte} (x : EventCounter) (he : e = val.setWidth 8) (h0 : e ≠ 0)
    (hq : q = (val >>> 8).setWidth 8) : configCounter [(e, q)] val x =
    { x with src := val.setWidth 8, qual := (val >>> 8).setWidth 8, sat := val.getLsbD 16, count := 1 } := by
  have hadmits : EventCounter.admits e q
      { x with src := val.setWidth 8, qual := (val >>> 8).setWidth 8, sat := val.getLsbD 16, count := 0 } = true := by
    have h0' : ¬ e = 0#8 := h0
    unfold EventCounter.admits
    simp [← he, ← hq, h0']
  unfold configCounter
  rw [List.foldl_cons, List.foldl_nil, if_pos hadmits]
  unfold EventCounter.stepBy
  dsimp only
  split <;> rfl

theorem ecCfgWrite_clears {val : W32} {k : Nat} (hb : b = (s.m.tick t).benchTick)
    (hw : mayWrite s t via (regOf (benchPath 2) 0x020) [val] true b = true) (hk : k = ((b.session (viaSess via)).getD {}).sel .counters)
    (hnow : b.ecNow = []) : Completes (.ecCfgWrite via val t) s (fun m =>
      (m.bench.ec[k]?).map (fun x => (x.src, x.qual, x.sat, x.count)) =
        (b.bench.ec[k]?).map (fun _ => (val.setWidth 8, (val >>> 8).setWidth 8, val.getLsbD 16, 0)) ∧
      (∀ j, j ≠ k → m.bench.ec[j]? = b.bench.ec[j]?) ∧ Answered (viaSess via) .ok m ∧ OnlyBench b m) := by
  refine ecCfgWrite_configures hb hw fun m hec hanswered honly => ⟨?_, fun j hj => ?_, hanswered, honly⟩
  · rw [hec, hnow, ← hk, modAt_get_self, Option.map_map]
    rfl
  · rw [hec, ← hk, modAt_get_of_ne _ _ _ _ hj]

theorem ecCfgWrite_countsEvent {val : W32} {k : Nat} {e q : Byte} (hb : b = (s.m.tick t).benchTick)
    (hw : mayWrite s t via (regOf (benchPath 2) 0x020) [val] true b = true) (hk : k = ((b.session (viaSess via)).getD {}).sel .counters)
    (hnow : b.ecNow = [(e, q)]) (he : e = val.setWidth 8) (h0 : e ≠ 0) (hq : q = (val >>> 8).setWidth 8) :
    Completes (.ecCfgWrite via val t) s (fun m =>
      (m.bench.ec[k]?).map (fun x => (x.src, x.qual, x.sat, x.count)) =
        (b.bench.ec[k]?).map (fun _ => (val.setWidth 8, (val >>> 8).setWidth 8, val.getLsbD 16, 1)) ∧
      (∀ j, j ≠ k → m.bench.ec[j]? = b.bench.ec[j]?) ∧ Answered (viaSess via) .ok m ∧ OnlyBench b m) := by
  refine ecCfgWrite_configures hb hw fun m hec hanswered honly => ⟨?_, fun j hj => ?_, hanswered, honly⟩
  · rw [hec, hnow, ← hk, modAt_get_self, Option.map_map]
    congr 1
    funext x
    simp only [Function.comp_apply, configCounter_one x he h0 hq]
  · rw [hec, ← hk, modAt_get_of_ne _ _ _ _ hj]

/-! ### Erasures (R420, R431) -/

/-- A byte written as a word. -/
theorem setWidth_toNat_mod_eq_iff (v : Byte) {c : Nat} (hc : c < 256) :
    (v.setWidth 32 : W32).toNat % 2 ^ 8 = c ↔ v = BitVec.ofNat 8 c := by
  have hv := v.isLt
  rw [BitVec.toNat_setWidth, BitVec.toNat_inj.symm, BitVec.toNat_ofNat]
  omega

theorem bistDiscard_discards {v : Byte} (hb : b = (s.m.tick t).benchTick)
    (hw : mayWrite s t via (regOf (benchPath 7) 0x04C) [v.setWidth 32] true b = true) :
    Completes (.bistDiscard via v t) s (fun m =>
      m.bench.test = (if v = 0xD5 then { b.bench.test with token0 := none, token1 := none } else b.bench.test) ∧
      Answered (viaSess via) .ok m ∧ OnlyBench b m) := by
  refine completes_write_taken (p := .selfTest) hb hw rfl rfl le_rfl (by simp) (fun _ => rfl) (fun x hx => Page.judge_one ..)
    (fun x y m hx hy hm => ?_)
  have hy' : y = if v = 0xD5 then x.eraseToken else x :=
    hy.trans (if_congr (setWidth_toNat_mod_eq_iff v (c := 0xD5) (by decide)) rfl rfl)
  have htest : m.bench.test = y.bench.test := hm.only.test
  by_cases hv : v = 0xD5
  · rw [if_pos hv] at hy' ⊢
    have hxy : OnlyBench x y := by rw [hy']; rfl
    refine ⟨hxy.mod, by rw [hy']; rfl, ?_, hm.answered, (hx.only.onlyBench.trans hxy).trans hm.only.onlyBench⟩
    rw [htest, hy', ← hx.only.test]
    rfl
  · rw [if_neg hv] at hy' ⊢
    subst hy'
    exact ⟨rfl, rfl, htest.trans hx.only.test, hm.answered, (hx.only.trans hm.only).onlyBench⟩

/-- The update session of a slot ends with that slot empty, and the other as it was. -/
theorem Update.slots_emptyTarget {u : Update} {k : SetKind} (h : u.kind = some k) (hne : k ≠ .enrolment) :
    u.emptyTarget.slotOf k u.slot = {} ∧ u.emptyTarget.slotOf k (otherSlot u.slot) = u.slotOf k (otherSlot u.slot) := by
  have hempty : u.emptyTarget = u.updSlot k u.slot (fun _ => {}) := by
    unfold Update.emptyTarget
    rw [h]
    cases k with
    | enrolment => exact absurd rfl hne
    | _ => rfl
  rw [hempty]
  cases k <;> cases u.slot <;> exact ⟨rfl, rfl⟩

/-- Slots do not depend on how the session stands. -/
theorem Mach.endUpdate_slotOf (state : BitVec 3) (result : Byte) (m : Mach) (k : SetKind) (i : SlotId) :
    (m.endUpdate state result).bench.upd.slotOf k i = m.bench.upd.emptyTarget.slotOf k i := by
  cases k <;> cases i <;> rfl

/-- What a write of `UPD.CTRL` does. -/
theorem updCtrl_writes {v : Byte} {P : Mach → Prop} (hb : b = (s.m.tick t).benchTick)
    (hw : mayWrite s t via (regOf (benchPath 6) 0x064) [v.setWidth 32] true b = true)
    (hp : ∀ x y m, Accepted (viaSess via) true b x → (y = if v = 0xAB ∧ x.bench.upd.opened = true then x.endUpdate 0 0 else x) →
      Concluded (viaSess via) .ok y m → OnlyBench x y → P m) : Completes (.updCtrlAbort via v t) s P := by
  refine completes_write_taken (p := .update) hb hw rfl rfl le_rfl (by simp) (fun _ => rfl) (fun x hx => Page.judge_one ..)
    (fun x y m hx hy hm => ?_)
  have hy' : y = if v = 0xAB ∧ x.bench.upd.opened = true then x.endUpdate 0 0 else x :=
    hy.trans (if_congr (and_congr_left fun _ => setWidth_toNat_mod_eq_iff v (c := 0xAB) (by decide)) rfl rfl)
  have hxy : OnlyBench x y ∧ y.bench.mnt.waiting = x.bench.mnt.waiting := by
    rw [hy']
    split <;> exact ⟨rfl, rfl⟩
  exact ⟨hxy.1.mod, hxy.2, hp x y m hx hy' hm hxy.1⟩

theorem updCtrl_aborts {v : Byte} {k : SetKind} (hb : b = (s.m.tick t).benchTick)
    (hw : mayWrite s t via (regOf (benchPath 6) 0x064) [v.setWidth 32] true b = true) (hv : v = 0xAB)
    (hopen : b.bench.upd.opened = true) (hkind : b.bench.upd.kind = some k) (hne : k ≠ .enrolment) :
    Completes (.updCtrlAbort via v t) s (fun m => m.bench.upd.state = 0 ∧ m.bench.upd.slotOf k b.bench.upd.slot = {} ∧
      m.bench.upd.slotOf k (otherSlot b.bench.upd.slot) = b.bench.upd.slotOf k (otherSlot b.bench.upd.slot) ∧
      m.bench.upd.blocks = [] ∧ Answered (viaSess via) .ok m ∧ OnlyBench b m) := by
  refine updCtrl_writes hb hw fun x y m hx hy hm hxy => ?_
  have hupd : x.bench.upd = b.bench.upd := hx.only.upd
  rw [if_pos ⟨hv, by rw [hupd, hopen]⟩] at hy
  obtain ⟨hself, hother⟩ := Update.slots_emptyTarget hkind hne
  rw [hm.only.upd, hy, Mach.endUpdate_slotOf, Mach.endUpdate_slotOf, hupd]
  exact ⟨rfl, hself, hother, rfl, hm.answered, (hx.only.onlyBench.trans hxy).trans hm.only.onlyBench⟩

theorem updCtrl_ignored {v : Byte} (hb : b = (s.m.tick t).benchTick)
    (hw : mayWrite s t via (regOf (benchPath 6) 0x064) [v.setWidth 32] true b = true)
    (hnot : v ≠ 0xAB ∨ b.bench.upd.opened = false) :
    Completes (.updCtrlAbort via v t) s (fun m => m.bench.upd = b.bench.upd ∧ Answered (viaSess via) .ok m ∧ OnlyBench b m) := by
  refine updCtrl_writes hb hw fun x y m hx hy hm hxy => ?_
  have hupd : x.bench.upd = b.bench.upd := hx.only.upd
  rw [if_neg (fun h => hnot.elim (fun hne => hne h.1) (fun hclosed => by rw [hupd, hclosed] at h; exact absurd h.2 (by decide)))] at hy
  refine ⟨?_, hm.answered, (hx.only.onlyBench.trans hxy).trans hm.only.onlyBench⟩
  rw [hm.only.upd, hy, hupd]

end

/-! ### An unauthorised burst (R44, R66) -/

/-- Nothing differs but the recorder, the event counters and the causes on the pages. -/
def OnlyNoted (a b : Mach) : Prop :=
  { b with bench := { b.bench with recd := a.bench.recd, ec := a.bench.ec, ecSeen := a.bench.ecSeen }, irq := a.irq } = a

theorem OnlyNoted.refl (m : Mach) : OnlyNoted m m := rfl

theorem OnlyNoted.trans {a b c : Mach} (h : OnlyNoted a b) (k : OnlyNoted b c) : OnlyNoted a c := by
  unfold OnlyNoted at *
  rw [← h, ← k]

theorem OnlyNoted.foldl {β : Type} {f : Mach → β → Mach} (h : ∀ m x, OnlyNoted m (f m x)) (xs : List β) (m : Mach) :
    OnlyNoted m (xs.foldl f m) := by
  induction xs generalizing m with
  | nil => exact .refl m
  | cons x xs ih => exact (h m x).trans (ih _)

theorem Mach.updRec_onlyNoted (f : Recorder → Recorder) (m : Mach) : OnlyNoted m (m.updRec f) := rfl

theorem Mach.ecAdd_onlyNoted (src q : Byte) (n : Nat) (m : Mach) : OnlyNoted m (m.ecAdd src q n) := by
  unfold Mach.ecAdd
  split
  · exact .refl m
  · dsimp only
    split <;> rfl

theorem Mach.ecCount_onlyNoted (src q : Byte) (m : Mach) : OnlyNoted m (m.ecCount src q) := by
  have hstamp : OnlyNoted (m.ecAdd src q 1) (m.ecCount src q) := rfl
  exact (Mach.ecAdd_onlyNoted src q 1 m).trans hstamp

theorem Mach.recLost_onlyNoted (src : Byte) (f : Recorder → Recorder) (m : Mach) : OnlyNoted m (m.recLost src f) := by
  have hraise : OnlyNoted m ((m.updRec f).raise recorderPath 1) := rfl
  exact hraise.trans (Mach.ecCount_onlyNoted ..)

theorem Mach.keepRec_onlyNoted (x : Rec) (stay : Bool) (m : Mach) : OnlyNoted m (m.keepRec x stay) := by
  unfold Mach.keepRec
  dsimp only
  split
  · split
    · exact Mach.updRec_onlyNoted ..
    · exact Mach.recLost_onlyNoted ..
  · split
    · exact Mach.recLost_onlyNoted ..
    · exact (Mach.updRec_onlyNoted _ m).trans (Mach.ecCount_onlyNoted ..)

theorem Mach.limitRec_onlyNoted (n : Notice) (m : Mach) : OnlyNoted m (m.limitRec n) := by
  unfold Mach.limitRec
  split
  · split
    · exact Mach.updRec_onlyNoted ..
    · exact Mach.keepRec_onlyNoted ..
  · split
    · exact Mach.keepRec_onlyNoted ..
    · dsimp only
      split
      · exact (Mach.updRec_onlyNoted _ m).trans (Mach.keepRec_onlyNoted ..)
      · exact ((Mach.updRec_onlyNoted _ m).trans (Mach.updRec_onlyNoted ..)).trans (Mach.ecCount_onlyNoted ..)

theorem Mach.record_onlyNoted (n : Notice) (m : Mach) : OnlyNoted m (m.record n) := by
  have hcounted : OnlyNoted m (n.ec.foldl (fun m q => m.ecCount q.1 q.2) m) := by
    refine OnlyNoted.foldl (f := fun m q => Mach.ecCount q.1 q.2 m) ?_ n.ec m
    intro m q
    exact Mach.ecCount_onlyNoted ..
  have hlane : ∀ m : Mach, OnlyNoted m (if n.code = 7 then m.updRec (fun r => { r with laneq := satInc r.laneq }) else m) := by
    intro m
    split
    · exact Mach.updRec_onlyNoted _ m
    · exact .refl m
  unfold Mach.record
  dsimp only
  exact (hcounted.trans (hlane _)).trans (Mach.limitRec_onlyNoted n _)

theorem Mach.benchNote_onlyNoted (code : W16) (path : List Nat) (p0 p1 : W32) (ec : List (Byte × Byte)) (m : Mach) :
    OnlyNoted m (m.benchNote code path p0 p1 ec) := by
  unfold Mach.benchNote
  split
  · exact .refl m
  · exact Mach.record_onlyNoted ..

/-- Nothing of the module outside the Bench differs, and of the Bench neither the self-test, the updates nor the reply. -/
structure AuthFailed (a b : Mach) : Prop where
  lanes : b.lanes = a.lanes
  mod : b.mod = a.mod
  test : b.bench.test = a.bench.test
  upd : b.bench.upd = a.bench.upd
  reply : b.bench.mnt.reply = a.bench.mnt.reply

theorem OnlyNoted.authFailed {a b : Mach} (h : OnlyNoted a b) : AuthFailed a b where
  lanes := by have k := congrArg Mach.lanes h; exact k
  mod := by have k := congrArg Mach.mod h; exact k
  test := by have k := congrArg (fun m => m.bench.test) h; exact k
  upd := by have k := congrArg (fun m => m.bench.upd) h; exact k
  reply := by have k := congrArg (fun m => m.bench.mnt.reply) h; exact k

theorem AuthFailed.trans {a b c : Mach} (h : AuthFailed a b) (k : AuthFailed b c) : AuthFailed a c :=
  ⟨k.lanes.trans h.lanes, k.mod.trans h.mod, k.test.trans h.test, k.upd.trans h.upd, k.reply.trans h.reply⟩

/-- An `AUTH_ERR` counted against its source, with the lockout that it may bring. -/
theorem Mach.authFail_authFailed (ip : W32) (m : Mach) : AuthFailed m (m.authFail ip) := by
  have hcount : ∀ f : MntPort → MntPort, (∀ p, (f p).reply = p.reply) → ∀ m : Mach, AuthFailed m (m.updMnt f) :=
    fun f hf m => ⟨rfl, rfl, rfl, rfl, hf _⟩
  have hfailed : ∀ f : MntPort → MntPort, (∀ p, (f p).reply = p.reply) → AuthFailed m ((m.updMnt f).ecCount 0xB7 255) :=
    fun f hf => (hcount f hf m).trans (Mach.ecCount_onlyNoted ..).authFailed
  unfold Mach.authFail
  dsimp only
  split
  · refine ((hfailed _ ?_).trans (hcount _ ?_ _)).trans (Mach.benchNote_onlyNoted ..).authFailed <;> exact fun _ => rfl
  · exact hfailed _ (fun _ => rfl)

/-- The module under a maintenance session's `AUTH_ERR`. -/
theorem Mach.status_authErr (n : Nat) (m : Mach) :
    AuthFailed (m.answer (.mnt n) { status := .authErr, data := [] }) (m.status (.mnt n) .authErr) := by
  unfold Mach.status Mach.reply
  dsimp only
  rw [if_pos rfl]
  split
  · exact Mach.authFail_authFailed ..
  · exact ⟨rfl, rfl, rfl, rfl, rfl⟩

/-- A session that may not write at all, or that may only read, is refused a word outside the header. -/
theorem write_unauthorised {s : State} {h : MntHead} {n t : Nat} {seq v : W32} {p : Page} {x : MntSession} {b : Mach}
    (hb : b = (s.m.tick t).benchTick)
    (ht : mntTakes s t h 0x04 n seq (spanBytes (regOf p.path 0x020) 1 ++ bytes32 v) b = true) (hx : b.mntSess n = some x)
    (hseq : seq = x.seq + 1) (hlevel : x.authed = false ∨ x.level = .read) :
    Completes (.registerWrite (.mnt h n seq) (regOf p.path 0x020) [v] t) s (fun m => Answered (.mnt n) .authErr m ∧
      m.lanes = b.lanes ∧ m.mod = b.mod ∧ m.bench.test = b.bench.test ∧ m.bench.upd = b.bench.upd) := by
  have ht' : mntTakes s t h 0x04 n seq (reqPayload (.access (regOf p.path 0x020) 1 (some [v]))) b = true := by
    rw [← ht]
    simp [reqPayload, spanBytes]
  have hgate : (b.accept (.mnt h n seq) 0x04).gate (.mnt n) true = some .authErr := by
    unfold Mach.gate
    dsimp only
    rw [Mach.accept_mnt_mntSess, hx, Option.map_some, if_pos (Mach.id_of_mntSess hx)]
    exact if_pos (hlevel.imp_right fun hread => ⟨rfl, hread⟩)
  have hwrite : b.takeDatagram (accessOf h n seq (regOf p.path 0x020) 1 (some [v])) =
      (b.accept (.mnt h n seq) 0x04).status (.mnt n) .authErr := by
    rw [Mach.takeDatagram_of_next (d := accessOf h n seq (regOf p.path 0x020) 1 (some [v])) ht' (fun _ => nofun) hx hseq]
    show (b.accept (.mnt h n seq) 0x04).writeBurst (.mnt n) (regOf p.path 0x020) [v] = _
    unfold Mach.writeBurst Mach.burstRefusal
    dsimp only
    rw [show [v].length = 1 from rfl, spanRefusal_regOf _ p (by decide) rfl le_rfl (by simp), inMailbox_regOf p (by decide), burstWords_regOf p (by decide),
      wordsFrom_one]
    simp only [List.any_cons, List.any_nil, show headOffset 0x020 = false from rfl, Bool.not_false, Bool.or_false, hgate,
      Bool.false_eq_true, if_false]
  have honly : OnlyPortState b (b.accept (.mnt h n seq) 0x04) :=
    ((Mach.updMnt_onlyPortState _ b).trans (Mach.updMntSess_onlyPortState ..)).trans (Mach.touch_onlyPortState ..)
  have hanswer := honly.trans (Mach.answer_onlyPortState (.mnt n) { status := .authErr, data := [] } _)
  have hfailed := Mach.status_authErr n (b.accept (.mnt h n seq) 0x04)
  refine completes_mntRun (accessOf h n seq (regOf p.path 0x020) 1 (some [v])) hb rfl (mntTakes_iff.1 ht).2.1 ?_ ?_ <;> rw [hwrite]
  · exact hfailed.mod.trans hanswer.onlyBench.mod
  · refine ⟨?_, hfailed.lanes.trans hanswer.onlyBench.lanes, hfailed.mod.trans hanswer.onlyBench.mod,
      hfailed.test.trans hanswer.test, hfailed.upd.trans hanswer.upd⟩
    show Option.map _ _ = _
    rw [hfailed.reply]
    rfl

end Sys2Proof.Machine

open Sys2Proof Sys2Proof.Machine

/-- Settles O50: each written word is an update of the session, of a snapshot, of the counters or of one slot, after a burst that its
page judged whole (`Page.judge`). -/
theorem registerWrites : Obligations.RegisterWrites := by
  unfold Obligations.RegisterWrites
  refine ⟨?_, ?_, ?_, ?_, ?_, ?_, ?_, ?_, ?_, ?_, ?_, ?_, ?_, ?_, ?_, ?_, ?_, ?_, ?_, ?_, ?_⟩
  · rintro s via _ p index t b hb rfl hw hlt
    exact chanSelWrite_below hb hw hlt
  · rintro s via _ p mask t b hb rfl hw
    exact irqMaskWrite_keeps hb hw
  · rintro s via _ l t b hb rfl hw hnone
    exact copierSnap_starts hb hw hnone
  · rintro s via _ l t b hb rfl hw hsome
    exact copierSnap_running hb hw hsome
  · rintro s via _ l t b hb rfl hw hnone
    exact agreementSnap_starts hb hw hnone
  · rintro s via _ t b hb rfl hw hnone
    exact voteStatsSnap_starts hb hw hnone
  · rintro s via _ t k b hb rfl hw
    exact countersSnap_completes k hb hw
  · intro s l t b hb hcome
    exact copierSnapshot_completes hb hcome
  · intro s l t b hb hcome
    exact agreementSnapshot_completes hb hcome
  · intro s l t b hb hcome
    exact voteStatsSnapshot_completes hb hcome
  · intro s l t b hb hnot
    exact copierSnapshot_waits hb hnot
  · rintro s via _ val t k b hb rfl hw hk hnow
    exact ecCfgWrite_clears hb hw hk hnow
  · rintro s via _ val t k e q b hb rfl hw hk hnow he h0 hq
    exact ecCfgWrite_countsEvent hb hw hk hnow he h0 hq
  · rintro s via _ v t b hb rfl hw
    exact bistDiscard_discards hb hw
  · rintro s via _ v t k b hb rfl hw hv hopen hkind hne
    exact updCtrl_aborts hb hw hv hopen hkind hne
  · rintro s via _ v t b hb rfl hw hnot
    exact updCtrl_ignored hb hw hnot
  · rintro s via _ p mask v t b hb rfl hw hv
    exact burst_maskAndChanSel hb hw hv
  · rintro s via _ p mask v t b hb rfl hw hv
    exact burst_refusedWhole hb hw hv
  · rintro s via _ l v t b hb rfl hw
    exact copierWrite_refused hb hw
  · intro s h n t seq v p x b hb ht hx hseq hlevel
    exact write_unauthorised hb ht hx hseq hlevel
  · rintro s via _ p data t b hb rfl hw hlen
    exact burst_length_refused hb hw hlen

end

section
/-! SUPPORT. Reads of a session (R49, R51 to R53) and accesses across the pair link (R37, R370, R371): what a read of a Bench page takes
and clears, how a read of the partner's pages goes out and ends, and what a link's access frame does. With these O52. -/

namespace Sys2Proof.Machine

/-! ### A read that its port carries out -/

/-- The CRC that closes a frame of the host port. -/
def Mach.withCrc (c : Option W16) (m : Mach) : Mach := m.updHost (fun h => { h with crc := c })

theorem Mach.withCrc_self (m : Mach) : m.withCrc m.bench.host.crc = m := rfl

theorem Mach.withCrc_onlyPortState (c : Option W16) (m : Mach) : OnlyPortState m (m.withCrc c) := rfl

theorem Mach.session_withCrc (c : Option W16) (m : Mach) (q : Sess) : (m.withCrc c).session q = m.session q := by cases q <;> rfl

theorem Mach.answered_withCrc {s : Sess} {c : Status} (d : Option W16) {m : Mach} (h : Answered s c m) : Answered s c (m.withCrc d) := by
  cases s <;> exact h

/-- A read that its port carries out completes with the session's read, sealed on the host port. -/
theorem completes_read {i : Instr} {s : State} {P : Mach → Prop} {t : Nat} {via : Via} {a : W32} {count : Nat} {b : Mach}
    (hb : b = (s.m.tick t).benchTick) (hr : mayRead s t via a count b = true) (hi : exec i s = readRun via a count t s)
    (hp : ∀ c, (viaSess via ≠ .host → c = ((b.accept via 0x03).sessionRead (viaSess via) a count).bench.host.crc) →
      Accepted (viaSess via) false b (b.accept via 0x03) →
      ((b.accept via 0x03).sessionRead (viaSess via) a count).mod = (b.accept via 0x03).mod ∧
        ((b.accept via 0x03).sessionRead (viaSess via) a count).bench.mnt.waiting = (b.accept via 0x03).bench.mnt.waiting ∧
        P (((b.accept via 0x03).sessionRead (viaSess via) a count).withCrc c)) :
    Completes i s P := by
  have hx := Mach.accepted_of_mayAccess hr
  have hmod := fun c hc => (hp c hc hx).1.trans hx.only.onlyBench.mod
  have hwait := fun c hc => (hp c hc hx).2.1.trans hx.waiting
  have hP := fun c hc => (hp c hc hx).2.2
  cases via with
  | host =>
    unfold mayRead mayAccess at hr
    simp only [Bool.and_eq_true, List.isEmpty_iff] at hr
    obtain ⟨hserves, hnone⟩ := hr
    have hf : ∃ c, hostRead a count b = ((b.accept .host 0x03).sessionRead .host a count).withCrc c := ⟨_, if_pos hserves⟩
    obtain ⟨c, hf⟩ := hf
    refine completes_hostRun (hostRead a count) hb hi ?_ ?_ ?_ <;> rw [hf]
    exacts [(hwait c (fun hne => absurd rfl hne)).trans hnone, hmod c (fun hne => absurd rfl hne), hP c (fun hne => absurd rfl hne)]
  | mnt h n seq =>
    unfold mayRead mayAccess at hr
    simp only [Bool.and_eq_true, Option.isNone_iff_eq_none, Option.any_eq_true] at hr
    obtain ⟨⟨ht, -⟩, y, hy, hseq⟩ := hr
    have ht' : mntTakes s t h 0x03 n seq (reqPayload (.access a count none)) b = true := by
      rw [← ht]
      simp [reqPayload, spanBytes]
    have hf : b.takeDatagram (accessOf h n seq a count none) = (b.accept (.mnt h n seq) 0x03).sessionRead (.mnt n) a count :=
      Mach.takeDatagram_of_next (d := accessOf h n seq a count none) ht' (fun _ => nofun) hy (eq_of_beq hseq)
    refine completes_mntRun (accessOf h n seq a count none) hb hi (mntTakes_iff.1 ht).2.1 ?_ ?_ <;> rw [hf]
    exacts [hmod _ (fun _ => rfl), hP _ (fun _ => rfl)]

/-! ### Reads of a Bench page (R49, R53) -/

/-- A read within a page of the Bench is answered at once. -/
theorem Mach.sessionRead_bench {m : Mach} {s : Sess} {p : Page} {off count : Nat} (h4 : off % 4 = 0) (h1 : 1 ≤ count)
    (hc : off + 4 * count ≤ 1024) (hp : p.isBench = true) (hg : m.gate s false = none) :
    m.sessionRead s (regOf p.path off) count =
      (m.readEffects s ((m.session s).getD {}) (regOf p.path off) count).reply s
        { status := .ok, data := m.readWords ((m.session s).getD {}) (regOf p.path off) count } := by
  have h : off < 1024 := by omega
  unfold Mach.sessionRead
  rw [hg, spanRefusal_regOf s p h h4 h1 hc, inMailbox_regOf p h, Mach.place_regOf m p h]
  dsimp only
  rw [if_neg Bool.false_ne_true, if_pos hp]
  rfl

theorem Mach.readEffects_regOf (m : Mach) (s : Sess) (x : Session) (p : Page) {off : Nat} (h : off < 1024) (count : Nat) :
    m.readEffects s x (regOf p.path off) count =
      (List.range count).foldl (fun m k => p.clearWord (x.sel p) (off + 4 * k) m) (m.markSeen s p (x.sel p) off count) := by
  unfold Mach.readEffects Mach.clearRead
  rw [Mach.place_regOf m p h]
  dsimp only
  rw [Mach.place_regOf _ p h, addrOffset_regOf p h]

theorem Mach.readWords_regOf (m : Mach) (x : Session) (p : Page) {off : Nat} (h : off < 1024) (count : Nat) :
    m.readWords x (regOf p.path off) count = (List.range count).map (fun k => p.readWord m x (off + 4 * k)) := by
  unfold Mach.readWords
  rw [Mach.place_regOf m p h, addrOffset_regOf p h]

/-- A burst of a session over a page of the Bench that its port carries out. -/
theorem completes_readBench {i : Instr} {s : State} {P : Mach → Prop} {t : Nat} {via : Via} {p : Page} {off count : Nat} {b : Mach}
    (hb : b = (s.m.tick t).benchTick) (hr : mayRead s t via (regOf p.path off) count b = true)
    (hi : exec i s = readRun via (regOf p.path off) count t s) (h4 : off % 4 = 0) (h1 : 1 ≤ count) (hc : off + 4 * count ≤ 1024)
    (hbench : p.isBench = true)
    (hp : ∀ x y m ws, x = b.accept via 0x03 → Accepted (viaSess via) false b x →
      y = (List.range count).foldl (fun m k => p.clearWord (((x.session (viaSess via)).getD {}).sel p) (off + 4 * k) m)
        (x.markSeen (viaSess via) p (((x.session (viaSess via)).getD {}).sel p) off count) →
      ws = (List.range count).map (fun k => p.readWord x ((x.session (viaSess via)).getD {}) (off + 4 * k)) →
      (∃ c, m = (y.answer (viaSess via) { status := .ok, data := ws }).withCrc c) →
      y.mod = x.mod ∧ y.bench.mnt.waiting = x.bench.mnt.waiting ∧ P m) : Completes i s P := by
  refine completes_read hb hr hi fun c _ hx => ?_
  have h : off < 1024 := by omega
  rw [Mach.sessionRead_bench h4 h1 hc hbench hx.gate, Mach.readEffects_regOf _ _ _ p h, Mach.readWords_regOf _ _ p h,
    Mach.reply_eq_answer (show Status.ok ≠ Status.authErr by decide)]
  obtain ⟨hmod, hwait, hP⟩ := hp _ _ _ _ rfl hx rfl rfl ⟨c, rfl⟩
  exact ⟨(Mach.answer_onlyPortState ..).onlyBench.mod.trans hmod, (Mach.answer_waiting ..).trans hwait, hP⟩

section
variable {s : State} {via : Via} {t : Nat} {b : Mach}

/-- What an access leaves of the host port: all but the session and its last frame. -/
theorem Mach.accept_host (via : Via) (typ : Byte) (m : Mach) :
    (m.accept via typ).bench.host.crcErrs = m.bench.host.crcErrs ∧ (m.accept via typ).bench.host.timeouts = m.bench.host.timeouts ∧
      (m.accept via typ).bench.host.read = m.bench.host.read := by
  cases via with
  | host =>
    unfold Mach.accept Mach.touch
    dsimp only
    split
    · exact ⟨rfl, rfl, rfl⟩
    · split <;> exact ⟨rfl, rfl, rfl⟩
  | mnt h n seq => exact ⟨rfl, rfl, rfl⟩

/-- The bytes that a session's port last answered with. -/
def Mach.answeredBytes (m : Mach) : Sess → Option (List Byte)
  | .host => m.bench.host.reply.map (fun r => r.data.flatMap bytes32)
  | .mnt _ => m.bench.mnt.reply.map (fun r => r.data)

theorem Mach.answeredBytes_answer (sess : Sess) (r : Reply) (c : Option W16) (m : Mach) :
    ((m.answer sess r).withCrc c).answeredBytes sess = some (r.data.flatMap bytes32) := by
  cases sess <;> rfl

theorem hostPort_crcErrs_read (hb : b = (s.m.tick t).benchTick) (hr : mayRead s t via (regOf Page.hostPort.path 0x030) 1 b = true) :
    Completes (.rcRead via (regOf Page.hostPort.path 0x030) t) s (fun m =>
      Answered (viaSess via) .ok m ∧ m.bench.host.crcErrs = 0 ∧ m.bench.host.timeouts = b.bench.host.timeouts ∧
      m.answeredBytes (viaSess via) = some (bytes32 (word b.bench.host.crcErrs)) ∧ OnlyBench b m) := by
  refine completes_readBench hb hr rfl rfl le_rfl (by decide) rfl ?_
  rintro x y _ ws hxb hx hy hws ⟨c, rfl⟩
  have hy' : y = x.updHost (fun h => { h with crcErrs := 0 }) := hy
  have hws' : ws = [word x.bench.host.crcErrs] := hws
  obtain ⟨herrs, htimeouts, -⟩ := Mach.accept_host via 0x03 b
  rw [← hxb] at herrs htimeouts
  rw [herrs] at hws'
  subst hy' hws'
  refine ⟨rfl, rfl, Mach.answered_withCrc c (Answered.answer ..), ?_, ?_, ?_, ?_⟩
  · cases viaSess via <;> rfl
  · rw [← htimeouts]
    cases viaSess via <;> rfl
  · rw [Mach.answeredBytes_answer]
    simp
  · exact (((hx.only.trans (Mach.updHost_onlyPortState _ x)).trans (Mach.answer_onlyPortState ..)).trans
      (Mach.withCrc_onlyPortState ..)).onlyBench

theorem sensors_shock_read (hb : b = (s.m.tick t).benchTick) (hr : mayRead s t via (regOf Page.sensors.path 0x054) 1 b = true) :
    Completes (.rcRead via (regOf Page.sensors.path 0x054) t) s (fun m =>
      Answered (viaSess via) .ok m ∧ m.bench.sens = { b.bench.sens with shockX := 0, shockY := 0 } ∧ OnlyBench b m) := by
  refine completes_readBench hb hr rfl rfl le_rfl (by decide) rfl ?_
  rintro x y _ _ - hx hy rfl ⟨c, rfl⟩
  have hy' : y = x.updBench (fun b => { b with sens := { b.sens with shockX := 0, shockY := 0 } }) := hy
  have hxy : OnlyBench x y := by rw [hy']; rfl
  have hym : ∀ r, OnlyPortState y ((y.answer (viaSess via) r).withCrc c) := fun r =>
    (Mach.answer_onlyPortState ..).trans (Mach.withCrc_onlyPortState ..)
  refine ⟨hxy.mod, by rw [hy']; rfl, Mach.answered_withCrc c (Answered.answer ..), ?_, (hx.only.onlyBench.trans hxy).trans (hym _).onlyBench⟩
  rw [(hym _).sens, hy', ← hx.only.sens]
  rfl

/-! ### Result groups (R51) -/

theorem assocGet_assocSet_self {α : Type} (k : Nat) (v : α) (xs : List (Nat × α)) : assocGet k (assocSet k v xs) = some v := by
  simp [assocGet, assocSet]

theorem counters_group_read {k n : Nat} (hb : b = (s.m.tick t).benchTick)
    (hr : mayRead s t via (regOf Page.counters.path 0x028) (s.m.groupSpan (viaSess via) (regOf Page.counters.path 0x028)) b = true)
    (hk : k = ((b.session (viaSess via)).getD {}).sel .counters) (hn : (b.bench.ec[k]?).map (fun x => x.group.serial) = some n) :
    Completes (.resultGroupRead via (regOf Page.counters.path 0x028) t) s (fun m => Answered (viaSess via) .ok m ∧
      (m.session (viaSess via)).map (fun x => assocGet (groupKey .counters k) x.seen) = some (some n) ∧
      m.bench.ec = b.bench.ec ∧ OnlyBench b m) := by
  have hspan : s.m.groupSpan (viaSess via) (regOf Page.counters.path 0x028) = 4 := by
    unfold Mach.groupSpan
    rw [Mach.place_regOf _ .counters (by decide), addrOffset_regOf .counters (by decide)]
    rfl
  have hi : exec (.resultGroupRead via (regOf Page.counters.path 0x028) t) s = readRun via (regOf Page.counters.path 0x028) 4 t s := by
    rw [← hspan]
    rfl
  rw [hspan] at hr
  refine completes_readBench hb hr hi rfl (by decide) (by decide) rfl ?_
  rintro x y _ _ - hx hy rfl ⟨c, rfl⟩
  have hsel : ((x.session (viaSess via)).getD {}).sel .counters = k := by
    rw [hx.session, hk]
    rfl
  have hserial : (x.bench.ec.getD k {}).group.serial = n := by
    rw [hx.only.ec, List.getD_eq_getElem?_getD]
    cases he : b.bench.ec[k]? with
    | none => rw [he] at hn; cases hn
    | some e =>
      rw [he] at hn
      exact Option.some.inj hn
  rw [hsel] at hy
  have hy' : y = x.updSession (viaSess via) (fun z => { z with
      seen := assocSet (groupKey .counters k) (x.bench.ec.getD k {}).group.serial z.seen }) := hy
  rw [hserial] at hy'
  have hxy : OnlyPortState x y := by
    rw [hy']
    exact Mach.updSession_onlyPortState ..
  have hym : ∀ r, OnlyPortState x ((y.answer (viaSess via) r).withCrc c) := fun r =>
    (hxy.trans (Mach.answer_onlyPortState ..)).trans (Mach.withCrc_onlyPortState ..)
  refine ⟨hxy.onlyBench.mod, ?_, Mach.answered_withCrc c (Answered.answer ..), ?_, (hym _).ec.trans hx.only.ec,
    (hx.only.trans (hym _)).onlyBench⟩
  · rw [hy', Mach.updSession_waiting]
  · rw [Mach.session_withCrc, Mach.session_answer, hy', Mach.session_updSession_self, hx.session, Option.map_some, Option.map_some,
      assocGet_assocSet_self]

end

theorem tagOf_lt (n : Nat) : tagOf n < 256 := by
  unfold tagOf
  split
  · decide
  · have hlt := Nat.mod_lt (n - 1) (show 0 < 255 by decide)
    omega

/-- A word of three flags in its top bits and a byte below. -/
theorem fields_flags (a b c : Bool) {n : Nat} (h : n < 256) :
    (fields [(31, bitOf a), (30, bitOf b), (29, bitOf c), (0, n)]).getLsbD 31 = a ∧
      (fields [(31, bitOf a), (30, bitOf b), (29, bitOf c), (0, n)]).getLsbD 30 = b ∧
      (fields [(31, bitOf a), (30, bitOf b), (29, bitOf c), (0, n)]).toNat % 256 = n := by
  have hall : ∀ (a b c : Bool) (n : Fin 256),
      (fields [(31, bitOf a), (30, bitOf b), (29, bitOf c), (0, n.val)]).getLsbD 31 = a ∧
        (fields [(31, bitOf a), (30, bitOf b), (29, bitOf c), (0, n.val)]).getLsbD 30 = b ∧
        (fields [(31, bitOf a), (30, bitOf b), (29, bitOf c), (0, n.val)]).toNat % 256 = n.val := by
    decide +kernel
  exact hall a b c ⟨n, h⟩

/-- A result status word: `READY`, `SEEN` and `TAG` (R51). -/
theorem statusWord_bits (x : Session) (key : Nat) (g : ResultGroup) :
    (statusWord x key g).getLsbD 31 = g.ready ∧
    ((statusWord x key g).getLsbD 30 = true ↔ assocGet key x.seen = some g.serial) ∧
    (statusWord x key g).toNat % 256 = tagOf g.serial := by
  obtain ⟨hready, hseen, htag⟩ := fields_flags g.ready (assocGet key x.seen == some g.serial)
    ((assocGet key x.seen).any (fun n => decide (0 < n) && decide (n + 2 ≤ g.serial))) (tagOf_lt g.serial)
  refine ⟨hready, ?_, htag⟩
  unfold statusWord
  dsimp only
  rw [hseen, beq_iff_eq]

theorem Completes.mono {i : Instr} {s : State} {P Q : Mach → Prop} (h : Completes i s P) (hpq : ∀ m, P m → Q m) : Completes i s Q := by
  obtain ⟨t, hexec, hpending, hp⟩ := h
  exact ⟨t, hexec, hpending, hpq _ hp⟩

theorem becomes_benchRun {i : Instr} {s : State} {t : Nat} {b : Mach} {f : Mach → Mach} (hb : b = (s.m.tick t).benchTick)
    (hi : exec i s = benchRun t f s) (hf : f b = b) : Becomes i s b := by
  subst hb
  refine becomes_of_run (fun m => f (m.tick t).benchTick) hi (.inl ?_) hf
  rw [hf, Mach.benchTick_tick_mod]

theorem OnlyPortState.pair {a b : Mach} (h : OnlyPortState a b) : b.pair = a.pair := h.onlyBench.pair

/-! ### Reads of the partner's pages (R37) -/

/-- A queued read of the partner goes out under its session's number. -/
def Mach.askPartner (s : Sess) (a : W32) (count : Nat) (num : W32) (m : Mach) : Mach :=
  (m.updPair (fun p => { p with accesses := p.accesses ++ [{ sess := s, addr := a, count := count, at0 := m.now, num := num }] })).sendRequest
    a count

theorem PairState.send_accesses (now : Nat) (fs : List (Nat × PairFrame)) (p : PairState) : (p.send now fs).accesses = p.accesses := rfl

theorem PairState.send_others (now : Nat) (fs : List (Nat × PairFrame)) (p : PairState) :
    { p.send now fs with l1 := p.l1, l2 := p.l2, mirrorEnd := p.mirrorEnd } = p := rfl

/-- It changes the pair's state alone: the reads on their way, and the links' lines with what they carry. -/
theorem Mach.askPartner_eq (s : Sess) (a : W32) (count : Nat) (num : W32) (m : Mach) :
    ∃ p : PairState, m.askPartner s a count num = m.updPair (fun _ => p) ∧
      p.accesses = m.pair.accesses ++ [{ sess := s, addr := a, count := count, at0 := m.now, num := num }] ∧
      { p with accesses := m.pair.accesses, l1 := m.pair.l1, l2 := m.pair.l2, mirrorEnd := m.pair.mirrorEnd } = m.pair := by
  unfold Mach.askPartner Mach.sendRequest
  dsimp only
  generalize (sealRequest _ : AccessFrame) = f
  refine ⟨_, rfl, rfl, ?_⟩
  rfl

theorem Mach.sessionRead_partner {m : Mach} {s : Sess} {a : W32} {count : Nat} (hg : m.gate s false = none)
    (hspan : spanRefusal s a count = none) (hmail : inMailbox a = false) (hplace : m.place a = .partner)
    (hfree : s = .host → m.bench.host.read = none) : m.sessionRead s a count = m.queueRead s a count := by
  unfold Mach.sessionRead
  rw [hg, hspan, hmail, hplace]
  dsimp only
  rw [if_neg Bool.false_ne_true, if_neg]
  rintro ⟨hs, hsome⟩
  rw [hfree hs] at hsome
  cases hsome

theorem Mach.queueRead_host_partner {m : Mach} {a : W32} {count : Nat} (hplace : m.place a = .partner) :
    m.queueRead .host a count = ((m.askPartner .host a count 0).updHost (fun h =>
      { h with read := some { addr := a, count := count, at0 := m.now }, done := none })).status .host .pending := by
  unfold Mach.queueRead
  rw [hplace]
  rfl

theorem Mach.queueRead_mnt_partner {m : Mach} {n : Nat} {a : W32} {count : Nat} {x : MntSession} (hplace : m.place a = .partner)
    (hx : m.mntSess n = some x) :
    m.queueRead (.mnt n) a count = (m.askPartner (.mnt n) a count x.seq).updMntSess n (fun y =>
      { y with reads := y.reads ++ [{ addr := a, count := count, at0 := m.now, num := x.seq }] }) := by
  unfold Mach.queueRead
  rw [hplace]
  dsimp only
  rw [hx]
  rfl

section
variable {s : State} {t : Nat} {b : Mach}

theorem hostPartnerRead_goesOut {a : W32} {n : Nat} (hb : b = (s.m.tick t).benchTick) (hserves : b.benchServes = true)
    (hnone : b.bench.mnt.waiting = []) (hplace : b.place a = .partner) (hmail : inMailbox a = false)
    (hspan : spanRefusal .host a n = none) (hread : b.bench.host.read = none) :
    Completes (.partnerRead .host false a n t) s (fun m =>
      m.bench.host.read = some { addr := a, count := n, at0 := max s.m.now t } ∧
      m.pair.accesses = b.pair.accesses ++ [{ sess := .host, addr := a, count := n, at0 := max s.m.now t }] ∧
      { m.pair with accesses := b.pair.accesses, l1 := b.pair.l1, l2 := b.pair.l2, mirrorEnd := b.pair.mirrorEnd } = b.pair ∧
      Answered .host .pending m ∧ m.lanes = b.lanes ∧ m.mod = b.mod) := by
  have hr : mayRead s t .host a n b = true := by simp [mayRead, mayAccess, hserves, hnone]
  refine completes_read hb hr rfl fun c _ hx => ?_
  have hfree := (Mach.accept_host .host 0x03 b).2.2.trans hread
  have hnow : (b.accept .host 0x03).now = max s.m.now t := by rw [hx.only.onlyBench.now, hb, Mach.benchTick_tick_now]
  have hpair := hx.only.pair
  have hplace' : (b.accept .host 0x03).place a = .partner := by rw [hx.only.place, hplace]
  rw [show viaSess .host = .host from rfl, Mach.sessionRead_partner rfl hspan hmail hplace' (fun _ => hfree),
    Mach.queueRead_host_partner hplace', ← hnow, ← hpair, ← hx.only.onlyBench.lanes, ← hx.only.onlyBench.mod]
  generalize b.accept .host 0x03 = x
  obtain ⟨p, hp, haccesses, hothers⟩ := x.askPartner_eq .host a n 0
  rw [hp]
  exact ⟨rfl, rfl, rfl, haccesses, hothers, rfl, rfl, rfl⟩

theorem mntPartnerRead_goesOut {h : MntHead} {k n : Nat} {seq a : W32} {x : MntSession} (hb : b = (s.m.tick t).benchTick)
    (hr : mayRead s t (.mnt h k seq) a n b = true) (hx : b.mntSess k = some x) (hplace : b.place a = .partner)
    (hmail : inMailbox a = false) (hspan : spanRefusal (.mnt k) a n = none) :
    Completes (.partnerRead (.mnt h k seq) false a n t) s (fun m =>
      (m.mntSess k).map (fun y => (y.reads, y.reply, y.seq)) =
        some (x.reads ++ [{ addr := a, count := n, at0 := max s.m.now t, num := seq }], none, seq) ∧
      m.pair.accesses = b.pair.accesses ++ [{ sess := .mnt k, addr := a, count := n, at0 := max s.m.now t, num := seq }] ∧
      m.bench.host = b.bench.host ∧ m.lanes = b.lanes ∧ m.mod = b.mod) := by
  refine completes_read hb hr rfl fun c hc hacc => ?_
  have hnow : (b.accept (.mnt h k seq) 0x03).now = max s.m.now t := by rw [hacc.only.onlyBench.now, hb, Mach.benchTick_tick_now]
  have hself : (b.accept (.mnt h k seq) 0x03).mntSess k = some (x.took h.ip seq 0x03 b.now) := by
    rw [Mach.accept_mnt_mntSess, hx, Option.map_some, if_pos (Mach.id_of_mntSess hx)]
  have hplace' : (b.accept (.mnt h k seq) 0x03).place a = .partner := by rw [hacc.only.place, hplace]
  have hqueue := (Mach.sessionRead_partner (s := .mnt k) hacc.gate hspan hmail hplace' nofun).trans
    (Mach.queueRead_mnt_partner hplace' hself)
  have hhost : (b.accept (.mnt h k seq) 0x03).bench.host = b.bench.host := rfl
  rw [hc nofun, Mach.withCrc_self]
  rw [show viaSess (.mnt h k seq) = .mnt k from rfl, hqueue, ← hnow, ← hhost, ← hacc.only.pair, ← hacc.only.onlyBench.lanes,
    ← hacc.only.onlyBench.mod]
  generalize b.accept (.mnt h k seq) 0x03 = y at hself ⊢
  obtain ⟨p, hp, haccesses, -⟩ := y.askPartner_eq (.mnt k) a n seq
  have hp' : y.askPartner (.mnt k) a n (x.took h.ip seq 0x03 b.now).seq = y.updPair (fun _ => p) := hp
  have hself' : (y.updPair (fun _ => p)).mntSess k = some (x.took h.ip seq 0x03 b.now) := hself
  rw [hp']
  refine ⟨rfl, rfl, ?_, haccesses, rfl, rfl, rfl⟩
  rw [Mach.mntSess_updMntSess_self (f := fun z => { z with reads := z.reads ++ _ }) (fun _ => rfl), hself']
  rfl

theorem partnerWrite_refused {via : Via} {a : W32} {n : Nat} (hb : b = (s.m.tick t).benchTick)
    (hw : mayWrite s t via a (List.replicate n 0) true b = true) (hplace : b.place a = .partner) (hmail : inMailbox a = false)
    (hspan : spanRefusal (viaSess via) a n = none) :
    Completes (.partnerRead via true a n t) s (fun m => Answered (viaSess via) .refused m ∧ m.pair = b.pair ∧ OnlyBench b m) := by
  refine completes_write hb hw rfl fun x hx => ?_
  have hwrite : x.writeBurst (viaSess via) a (List.replicate n 0) = x.status (viaSess via) .refused := by
    unfold Mach.writeBurst Mach.burstRefusal
    dsimp only
    rw [List.length_replicate, hspan, hmail, hx.gate_of_le (fun _ => rfl), hx.only.place, hplace]
    rfl
  have hm := Mach.status_concluded (sess := viaSess via) (c := .refused) (by decide) x
  have honly := hx.only.trans hm.only
  rw [hwrite]
  exact ⟨hm.only.onlyBench.mod, hm.waiting, hm.answered, honly.pair, honly.onlyBench⟩

/-- A reply leaves the waiting reads of its session. -/
theorem Mach.reads_mntAnswer (n : Nat) (num : W32) (typ : Byte) (c : Status) (bs : List Byte) (m : Mach) :
    ((m.mntAnswer n num typ c bs).mntSess n).map (fun y => y.reads) = (m.mntSess n).map (fun y => y.reads) := by
  have hkept : ∀ (y : MntSession) (r : MntReply), (if y.seq = num then { y with reply := some r } else y).id = y.id ∧
      (if y.seq = num then { y with reply := some r } else y).reads = y.reads := by
    intro y r
    split <;> exact ⟨rfl, rfl⟩
  show Option.map _ ((m.updMntSess n (fun y => if y.seq = num then { y with reply := some _ } else y)).mntSess n) = _
  rw [Mach.mntSess_updMntSess_self (fun y => (hkept y _).1), Option.map_map]
  congr 1
  funext y
  exact (hkept y _).2

/-- A read of a maintenance session that ended is no longer among those that wait. -/
theorem Mach.reads_endRead (n : Nat) (r : PendingRead) (e : Reply) (m : Mach) :
    ((m.endRead (.mnt n) r e).mntSess n).map (fun y => y.reads) = (m.mntSess n).map (fun y => y.reads.erase r) := by
  unfold Mach.endRead
  dsimp only
  rw [Mach.reads_mntAnswer, Mach.mntSess_updMntSess_self (f := fun y => { y with reads := y.reads.erase r }) (fun _ => rfl),
    Option.map_map]
  rfl

/-- The oldest read on its way, ended. -/
theorem Mach.endPartnerRead_cons {m : Mach} {q : PartnerAccess} {rest : List PartnerAccess} (e : Reply) (h : m.pair.accesses = q :: rest) :
    m.endPartnerRead e = (m.updPair (fun p => { p with accesses := rest })).endRead q.sess
      { addr := q.addr, count := q.count, at0 := q.at0, num := q.num } e := by
  unfold Mach.endPartnerRead
  rw [h]

theorem partnerReadTimeout_due {m : Mach} {q : PartnerAccess} {rest : List PartnerAccess} (h : m.pair.accesses = q :: rest)
    (hdue : q.at0 + 2 * m.cycleNs ≤ m.now) :
    partnerReadTimeout m = m.endPartnerRead { status := .waitTimeout, data := [] } := by
  unfold partnerReadTimeout
  rw [h]
  exact if_pos hdue

theorem hostPartnerRead_timesOut {q : PartnerAccess} (hb : b = (s.m.tick t).benchTick) (hq : b.pair.accesses = [q])
    (hsess : q.sess = .host) (hdue : q.at0 + 2 * b.cycleNs ≤ max s.m.now t) :
    Completes (.partnerReadTimeout t) s (fun m => m.pair = { b.pair with accesses := [] } ∧ m.bench.host.read = none ∧
      m.bench.host.done = some { status := .waitTimeout, data := [] } ∧ m.bench.host.timeouts = satInc b.bench.host.timeouts ∧
      m.lanes = b.lanes) := by
  rw [← Mach.benchTick_tick_now, ← hb] at hdue
  have hf := (partnerReadTimeout_due hq hdue).trans (Mach.endPartnerRead_cons _ hq)
  rw [hsess] at hf
  refine completes_benchRun partnerReadTimeout hb rfl ?_ ?_ <;> rw [hf]
  · rfl
  · exact ⟨rfl, rfl, rfl, rfl, rfl⟩

theorem mntPartnerRead_timesOut {n : Nat} {q : PartnerAccess} {x : MntSession} (hb : b = (s.m.tick t).benchTick)
    (hq : b.pair.accesses = [q]) (hsess : q.sess = .mnt n) (hx : b.mntSess n = some x)
    (hreads : x.reads = [{ addr := q.addr, count := q.count, at0 := q.at0, num := q.num }])
    (hdue : q.at0 + 2 * b.cycleNs ≤ max s.m.now t) :
    Completes (.partnerReadTimeout t) s (fun m => m.pair = { b.pair with accesses := [] } ∧
      (m.mntSess n).map (fun y => y.reads) = some [] ∧
      m.bench.mnt.reply.map (fun r => (r.session, r.seq, r.typ, r.status)) = some (n, q.num, 0x03, .waitTimeout) ∧
      m.bench.host = b.bench.host ∧ m.lanes = b.lanes) := by
  rw [← Mach.benchTick_tick_now, ← hb] at hdue
  have hf := (partnerReadTimeout_due hq hdue).trans (Mach.endPartnerRead_cons _ hq)
  rw [hsess] at hf
  refine completes_benchRun partnerReadTimeout hb rfl ?_ ?_ <;> rw [hf]
  · rfl
  · refine ⟨rfl, ?_, rfl, rfl, rfl⟩
    have hx' : (b.updPair (fun p => { p with accesses := [] })).mntSess n = some x := hx
    rw [Mach.reads_endRead, hx', Option.map_some, hreads, List.erase_cons_head]

theorem partnerReadTimeout_early {q : PartnerAccess} {rest : List PartnerAccess} (hb : b = (s.m.tick t).benchTick)
    (hq : b.pair.accesses = q :: rest) (hearly : max s.m.now t < q.at0 + 2 * b.cycleNs) : Becomes (.partnerReadTimeout t) s b := by
  rw [← Mach.benchTick_tick_now, ← hb] at hearly
  refine becomes_benchRun (f := partnerReadTimeout) hb rfl ?_
  unfold partnerReadTimeout
  rw [hq]
  exact if_neg (by omega)

/-! ### Access frames of a link (R37, R370, R371) -/

/-- A frame that a link accepts keeps the link up. -/
def Mach.heardOn (k : LinkId) (m : Mach) : Mach := m.updPair (PairState.updLink k (fun x => { x with up := true, lastAt := m.now }))

theorem Mach.benchTakes_deaf {k : LinkId} {m : Mach} (x : PairFrame) (f : Mach → Mach) (h : m.linkHears k = false) :
    m.benchTakes k x f = m := if_pos h

theorem Mach.benchTakes_accepted {k : LinkId} {m : Mach} {x : PairFrame} (f : Mach → Mach) (hears : m.linkHears k = true)
    (hx : pairIntact x = true) (hk : pairLinkOf x = k) :
    m.benchTakes k x f = if m.benchServes = true ∧ m.linkInService k = true then f (m.heardOn k) else m.heardOn k := by
  unfold Mach.benchTakes Mach.linkTakes
  rw [if_neg (by rw [hears]; decide), if_neg (by rw [hx]; decide), if_neg (fun hne => hne hk)]
  cases k <;> rfl

theorem Mach.benchTakes_bad {k : LinkId} {m : Mach} {x : PairFrame} (f : Mach → Mach) (hears : m.linkHears k = true)
    (hbad : pairIntact x = false ∨ pairLinkOf x ≠ k) : m.benchTakes k x f = m.linkError k (pairIntact x) := by
  unfold Mach.benchTakes Mach.linkTakes
  rw [if_neg (by rw [hears]; decide)]
  cases hx : pairIntact x with
  | false => rfl
  | true => exact (if_neg (by decide)).trans (if_pos (hbad.resolve_left (by rw [hx]; decide)))

theorem PairState.link_updLink (k : LinkId) (f : PairLink → PairLink) (p : PairState) : (p.updLink k f).link k = f (p.link k) := by
  cases k <;> rfl

theorem PairState.updLink_accesses (k : LinkId) (f : PairLink → PairLink) (p : PairState) : (p.updLink k f).accesses = p.accesses := by
  cases k <;> rfl

theorem PairState.updLink_asked (k : LinkId) (f : PairLink → PairLink) (p : PairState) : (p.updLink k f).asked = p.asked := by
  cases k <;> rfl

theorem PairState.updLink_lastReply (k : LinkId) (f : PairLink → PairLink) (p : PairState) : (p.updLink k f).lastReply = p.lastReply := by
  cases k <;> rfl

theorem Mach.linkInService_eq (m : Mach) (k : LinkId) : m.linkInService k = (m.pair.link k).service := by cases k <;> rfl

theorem accessReply_ends {k : LinkId} {f : AnswerFrame} {q : PartnerAccess} (hb : b = (s.m.tick t).benchTick)
    (hserves : b.benchServes = true) (hears : b.linkHears k = true) (hf : pairIntact (.answer f) = true) (hk : f.link = k)
    (hlink : b.linkInService k = true) (hq : b.pair.accesses = [q]) (hsess : q.sess = .host) :
    Completes (.benchAccessReply k f t) s (fun m => m.pair.accesses = [] ∧ (m.pair.link k).lastAt = max s.m.now t ∧
      m.bench.host.read = none ∧ m.bench.host.done = some f.reply ∧ m.lanes = b.lanes) := by
  have hnow : b.now = max s.m.now t := by rw [hb, Mach.benchTick_tick_now]
  have hq' : (b.heardOn k).pair.accesses = [q] := (PairState.updLink_accesses ..).trans hq
  have hdone : benchAccessReply k f b = ((b.heardOn k).updPair (fun p => { p with accesses := [] })).endRead .host
      { addr := q.addr, count := q.count, at0 := q.at0, num := q.num } f.reply := by
    unfold benchAccessReply
    rw [Mach.benchTakes_accepted _ hears hf hk, if_pos ⟨hserves, hlink⟩, Mach.endPartnerRead_cons _ hq', hsess]
  refine completes_benchRun (benchAccessReply k f) hb rfl ?_ ?_ <;> rw [hdone]
  · rfl
  · refine ⟨rfl, ?_, rfl, rfl, rfl⟩
    rw [← hnow]
    cases k <;> rfl

theorem accessReply_outOfService {k : LinkId} {f : AnswerFrame} (hb : b = (s.m.tick t).benchTick) (hears : b.linkHears k = true)
    (hf : pairIntact (.answer f) = true) (hk : f.link = k) (hlink : b.linkInService k = false) :
    Completes (.benchAccessReply k f t) s (fun m => m.pair.accesses = b.pair.accesses ∧ (m.pair.link k).service = false ∧
      { m with pair := b.pair } = b) := by
  have hdone : benchAccessReply k f b = b.heardOn k := by
    unfold benchAccessReply
    rw [Mach.benchTakes_accepted _ hears hf hk, if_neg (fun h => by rw [hlink] at h; exact absurd h.2 (by decide))]
  rw [Mach.linkInService_eq] at hlink
  refine completes_benchRun (benchAccessReply k f) hb rfl ?_ ?_ <;> rw [hdone]
  · rfl
  · exact ⟨PairState.updLink_accesses .., (congrArg PairLink.service (PairState.link_updLink ..)).trans hlink, rfl⟩

/-- What an access across a link looks at is left, but for the link, which stands as given. -/
structure LinkLeft (k : LinkId) (x : PairLink) (a b : Mach) : Prop where
  accesses : b.pair.accesses = a.pair.accesses
  asked : b.pair.asked = a.pair.asked
  lastReply : b.pair.lastReply = a.pair.lastReply
  lanes : b.lanes = a.lanes
  mod : b.mod = a.mod
  link : b.pair.link k = x

theorem LinkLeft.trans {k : LinkId} {x y : PairLink} {a b c : Mach} (h : LinkLeft k x a b) (g : LinkLeft k y b c) : LinkLeft k y a c :=
  ⟨g.accesses.trans h.accesses, g.asked.trans h.asked, g.lastReply.trans h.lastReply, g.lanes.trans h.lanes, g.mod.trans h.mod, g.link⟩

theorem Mach.updLink_linkLeft (k : LinkId) (f : PairLink → PairLink) (m : Mach) :
    LinkLeft k (f (m.pair.link k)) m (m.updPair (PairState.updLink k f)) :=
  ⟨PairState.updLink_accesses .., PairState.updLink_asked .., PairState.updLink_lastReply .., rfl, rfl, PairState.link_updLink ..⟩

theorem Mach.refreshPartner_linkLeft (k : LinkId) (m : Mach) : LinkLeft k (m.pair.link k) m m.refreshPartner := by
  have hleft : ∀ (p : Bool) (g : Option Nat) (a : Bool) (irq : Mem 32),
      LinkLeft k (m.pair.link k) m { m with pair := { m.pair with present := p, goneAt := g, alone := a }, irq := irq } := by
    intro p g a irq
    cases k <;> exact ⟨rfl, rfl, rfl, rfl, rfl, rfl⟩
  unfold Mach.refreshPartner
  dsimp only
  (repeat' split) <;> exact hleft _ _ _ _

theorem Mach.linkOut_linkLeft (k : LinkId) (m : Mach) :
    LinkLeft k { m.pair.link k with service := false, run := 0 } m (m.linkOut k) := by
  unfold Mach.linkOut
  split
  · rename_i hservice
    rw [← hservice]
    exact m.updLink_linkLeft k (fun x => { x with run := 0 })
  · have hleft := m.updLink_linkLeft k (fun y => { y with service := false, run := 0 })
    generalize m.updPair (PairState.updLink k (fun y => { y with service := false, run := 0 })) = y at hleft ⊢
    have hraised : LinkLeft k (y.pair.link k) y (y.raise pairPath 1) := ⟨rfl, rfl, rfl, rfl, rfl, rfl⟩
    have hrefreshed : LinkLeft k (y.pair.link k) (y.raise pairPath 1) (y.raise pairPath 1).refreshPartner :=
      Mach.refreshPartner_linkLeft k (y.raise pairPath 1)
    rw [hleft.link] at hrefreshed
    exact (hleft.trans hraised).trans hrefreshed

/-- What a link's error leaves. A crossed frame ends the link's service. -/
theorem Mach.linkError_linkLeft (k : LinkId) (crossed : Bool) (m : Mach) :
    LinkLeft k { m.pair.link k with up := true, errs := satInc (m.pair.link k).errs, run := 0, service := (m.pair.link k).service && !crossed }
      m (m.linkError k crossed) := by
  have hcounted := m.updLink_linkLeft k (fun x => { x with up := true, errs := satInc x.errs, run := 0 })
  have hnoted : LinkLeft k { m.pair.link k with up := true, errs := satInc (m.pair.link k).errs, run := 0 } m
      ((m.updPair (PairState.updLink k (fun x => { x with up := true, errs := satInc x.errs, run := 0 }))).notePair (linkSrc k)
        (BitVec.ofNat 32 (bitOf crossed)) 0) :=
    ⟨hcounted.accesses, hcounted.asked, hcounted.lastReply, hcounted.lanes, hcounted.mod, hcounted.link⟩
  unfold Mach.linkError
  dsimp only
  cases crossed with
  | false =>
    rw [Bool.not_false, Bool.and_true]
    exact hnoted
  | true =>
    rw [Bool.not_true, Bool.and_false, if_pos rfl]
    have hout := hnoted.trans (Mach.linkOut_linkLeft k _)
    rw [hnoted.link] at hout
    exact hout

theorem accessReply_bad {k : LinkId} {f : AnswerFrame} (hb : b = (s.m.tick t).benchTick) (hears : b.linkHears k = true)
    (hbad : pairIntact (.answer f) = false ∨ f.link ≠ k) :
    Completes (.benchAccessReply k f t) s (fun m => m.pair.accesses = b.pair.accesses ∧
      (m.pair.link k).errs = satInc (b.pair.link k).errs ∧ (m.pair.link k).run = 0 ∧
      (m.pair.link k).service = ((b.pair.link k).service && !pairIntact (.answer f)) ∧ m.lanes = b.lanes ∧ m.mod = b.mod) := by
  have hdone : benchAccessReply k f b = b.linkError k (pairIntact (.answer f)) := Mach.benchTakes_bad _ hears hbad
  have hleft := b.linkError_linkLeft k (pairIntact (.answer f))
  refine completes_benchRun (benchAccessReply k f) hb rfl ?_ ?_ <;> rw [hdone]
  · exact hleft.mod
  · rw [hleft.link]
    exact ⟨hleft.accesses, rfl, rfl, rfl, hleft.lanes, hleft.mod⟩

theorem accessRequest_bad {k : LinkId} {f : AccessFrame} (hb : b = (s.m.tick t).benchTick) (hears : b.linkHears k = true)
    (hbad : pairIntact (.request f) = false ∨ f.link ≠ k) :
    Completes (.benchAccessRequest k f t) s (fun m => m.pair.asked = b.pair.asked ∧ m.pair.lastReply = b.pair.lastReply ∧
      (m.pair.link k).errs = satInc (b.pair.link k).errs ∧ (m.pair.link k).run = 0 ∧
      (m.pair.link k).service = ((b.pair.link k).service && !pairIntact (.request f)) ∧ m.lanes = b.lanes ∧ m.mod = b.mod) := by
  have hdone : benchAccessRequest k f b = b.linkError k (pairIntact (.request f)) := Mach.benchTakes_bad _ hears hbad
  have hleft := b.linkError_linkLeft k (pairIntact (.request f))
  refine completes_benchRun (benchAccessRequest k f) hb rfl ?_ ?_ <;> rw [hdone]
  · exact hleft.mod
  · rw [hleft.link]
    exact ⟨hleft.asked, hleft.lastReply, rfl, rfl, rfl, hleft.lanes, hleft.mod⟩

theorem access_unheard {k : LinkId} (f : AnswerFrame) (g : AccessFrame) (hb : b = (s.m.tick t).benchTick) (hdeaf : b.linkHears k = false) :
    Becomes (.benchAccessReply k f t) s b ∧ Becomes (.benchAccessRequest k g t) s b :=
  ⟨becomes_benchRun (f := benchAccessReply k f) hb rfl (Mach.benchTakes_deaf _ _ hdeaf),
    becomes_benchRun (f := benchAccessRequest k g) hb rfl (Mach.benchTakes_deaf _ _ hdeaf)⟩

/-- An answer to the partner: its frame is the last reply, and only the links' lines change beside it. -/
theorem Mach.sendAnswer_kept (k : LinkId) (r : Reply) (m : Mach) :
    (m.sendAnswer k r).pair.lastReply =
        some (sealAnswer { fcrc := 0, link := k, copy := m.ident.copy, cycle := m.cycleNo, reply := r }) ∧
      (m.sendAnswer k r).pair.asked = m.pair.asked ∧ (m.sendAnswer k r).lanes = m.lanes ∧ (m.sendAnswer k r).bench = m.bench ∧
      (m.sendAnswer k r).mod = m.mod := by
  unfold Mach.sendAnswer
  dsimp only
  generalize (sealAnswer _ : AnswerFrame) = f
  exact ⟨rfl, rfl, rfl, rfl, rfl⟩

theorem accessRequest_taken {k : LinkId} {f : AccessFrame} (hserves : b.benchServes = true) (hears : b.linkHears k = true)
    (hf : pairIntact (.request f) = true) (hk : f.link = k) (hlink : b.linkInService k = true) :
    benchAccessRequest k f b = (b.heardOn k).partnerAsks k f := by
  unfold benchAccessRequest
  rw [Mach.benchTakes_accepted _ hears hf hk, if_pos ⟨hserves, hlink⟩]

theorem partnerWrites_refused {k : LinkId} {f : AccessFrame} (hb : b = (s.m.tick t).benchTick) (hserves : b.benchServes = true)
    (hears : b.linkHears k = true) (hf : pairIntact (.request f) = true) (hk : f.link = k) (hlink : b.linkInService k = true)
    (hw : f.write = true) : Completes (.benchAccessRequest k f t) s (fun m =>
      m.pair.lastReply = some (sealAnswer
        { fcrc := 0, link := k, copy := b.ident.copy, cycle := b.cycleNo, reply := { status := .refused, data := [] } }) ∧
      m.pair.asked = b.pair.asked ∧ m.lanes = b.lanes ∧ m.bench = b.bench) := by
  have hdone : benchAccessRequest k f b = (b.heardOn k).sendAnswer k { status := .refused, data := [] } := by
    rw [accessRequest_taken hserves hears hf hk hlink]
    exact if_pos hw
  obtain ⟨hreply, hasked, hlanes, hbench, hmod⟩ := (b.heardOn k).sendAnswer_kept k { status := .refused, data := [] }
  refine completes_benchRun (benchAccessRequest k f) hb rfl ?_ ?_ <;> rw [hdone]
  · exact hmod
  · exact ⟨hreply, hasked.trans (PairState.updLink_asked ..), hlanes, hbench⟩

/-- The partner's name for a Copier's page of this module (R36, R37). -/
def partnerAddr (p : Page) : W32 := 0x20000000 ||| regOf p.path 0 &&& 0x0FFFFFFF

theorem ownAddr_partnerAddr (l : LaneId) : ownAddr (partnerAddr (.copier l)) = regOf (Page.copier l).path 0 := by
  cases l <;> decide

/-- The module with the partner's read of a Copier's page waiting. -/
def Mach.askedOf (k : LinkId) (l : LaneId) (count : Nat) (m : Mach) : Mach :=
  (m.heardOn k).updPair (fun p => { p with asked := [(regOf (Page.copier l).path 0, count, m.now, k)] })

theorem accessRequest_asks {k : LinkId} {f : AccessFrame} {l : LaneId} (hserves : b.benchServes = true) (hears : b.linkHears k = true)
    (hf : pairIntact (.request f) = true) (hk : f.link = k) (hlink : b.linkInService k = true) (hw : f.write = false)
    (ha : f.addr = partnerAddr (.copier l)) (h1 : 1 ≤ f.count) (hc : f.count ≤ 256) (hasked : b.pair.asked = []) :
    benchAccessRequest k f b = (b.askedOf k l f.count).serveAsked := by
  rw [accessRequest_taken hserves hears hf hk hlink]
  unfold Mach.partnerAsks
  rw [hw, if_neg (by decide), ha, ownAddr_partnerAddr, spanRefusal_regOf _ (.copier l) (by decide) rfl h1 (by omega)]
  dsimp only
  unfold Mach.askedOf Mach.heardOn Mach.updPair
  dsimp only
  rw [PairState.updLink_asked, hasked]
  rfl

theorem Mach.grants_askedOf (k : LinkId) (l j : LaneId) (count : Nat) (m : Mach) : (m.askedOf k l count).grants j = m.grants j := by
  cases k <;> rfl

/-- A Copier's words do not depend on the pair's state but for the end of the mirror packet. -/
theorem Page.readWord_copier_updPair {g : PairState → PairState} {m : Mach} (h : (g m.pair).mirrorEnd = m.pair.mirrorEnd) (l : LaneId)
    (x : Session) (off : Nat) : (Page.copier l).readWord (m.updPair g) x off = (Page.copier l).readWord m x off := by
  have hphase : (m.updPair g).phaseOf l = m.phaseOf l := by
    have hdone : (m.updPair g).mirrorDone m.now = m.mirrorDone m.now := by
      unfold Mach.mirrorDone
      rw [← h]
      rfl
    unfold Mach.phaseOf
    dsimp only
    rw [show (m.updPair g).now = m.now from rfl, hdone]
    rfl
  have hstat : ∀ sel, (Page.copier l).stat (m.updPair g) sel = (Page.copier l).stat m sel := fun _ => rfl
  have hirq : (Page.copier l).irq (m.updPair g) x pageDepth = (Page.copier l).irq m x pageDepth :=
    (Page.irq_leaf _ x pageDepth rfl).trans (Page.irq_leaf m x pageDepth rfl).symm
  have hbody : ∀ sel, (Page.copier l).body (m.updPair g) sel = (Page.copier l).body m sel :=
    fun _ => congrArg (fun phase => copierBody phase (m.lane l)) hphase
  have hgroup : ∀ sel, (Page.copier l).group (m.updPair g) sel = (Page.copier l).group m sel := fun _ => rfl
  have hcount : (Page.copier l).count (m.updPair g) = (Page.copier l).count m := rfl
  have hleaf : (Page.copier l).isGroup = false := rfl
  unfold Page.readWord
  simp only [hstat, hirq, hbody, hgroup, hcount, hleaf, Bool.false_eq_true, false_and, if_false]

theorem Mach.readWords_askedOf (k : LinkId) (l : LaneId) (count : Nat) (m : Mach) (x : Session) :
    (m.askedOf k l count).readWords x (regOf (Page.copier l).path 0) count = m.readWords x (regOf (Page.copier l).path 0) count := by
  rw [Mach.readWords_regOf _ _ _ (by decide), Mach.readWords_regOf _ _ _ (by decide)]
  refine List.map_congr_left fun j _ => ?_
  exact (Page.readWord_copier_updPair (m := m.heardOn k) rfl l x _).trans
    (Page.readWord_copier_updPair (m := m) (by cases k <;> rfl) l x _)

/-- A read of a Copier's page that waits alone is served once its lane grants, and waits on before a cycle has passed. -/
theorem Mach.serveAsked_askedOf_granted {k : LinkId} {l : LaneId} {count : Nat} {m : Mach} (hg : m.grants l = true) :
    (m.askedOf k l count).serveAsked = ((m.askedOf k l count).updPair (fun p => { p with asked := [] })).sendAnswer k
      { status := .ok, data := m.readWords {} (regOf (Page.copier l).path 0) count } := by
  have hserves : (m.askedOf k l count).serves (.copier l) = true := by
    show ((m.askedOf k l count).grants l || _) = true
    rw [Mach.grants_askedOf, hg, Bool.true_or]
  have hclear : (m.askedOf k l count).clearRead {} (regOf (Page.copier l).path 0) count = m.askedOf k l count := by
    unfold Mach.clearRead
    rw [Mach.place_regOf _ _ (by decide)]
    exact List.foldl_fixed' (fun _ => rfl) _
  unfold Mach.serveAsked
  rw [show (m.askedOf k l count).pair.asked = [(regOf (Page.copier l).path 0, count, m.now, k)] from rfl]
  dsimp only
  unfold Mach.pollRead
  dsimp only
  rw [Mach.place_regOf _ (.copier l) (by decide)]
  dsimp only
  rw [if_pos hserves]
  dsimp only
  rw [hclear, Mach.readWords_askedOf]

theorem Mach.serveAsked_askedOf_waits {k : LinkId} {l : LaneId} {count : Nat} {m : Mach} (hg : m.grants l = false)
    (hheld : 0 < m.cycleNs) : (m.askedOf k l count).serveAsked = m.askedOf k l count := by
  have hserves : (m.askedOf k l count).serves (.copier l) = false := by
    show ((m.askedOf k l count).grants l || (_ && false)) = false
    rw [Mach.grants_askedOf, hg, Bool.and_false, Bool.false_or]
  unfold Mach.serveAsked
  rw [show (m.askedOf k l count).pair.asked = [(regOf (Page.copier l).path 0, count, m.now, k)] from rfl]
  dsimp only
  unfold Mach.pollRead
  dsimp only
  rw [Mach.place_regOf _ (.copier l) (by decide)]
  dsimp only
  rw [hserves, if_neg (by decide), if_neg (by show ¬ m.now + m.cycleNs ≤ m.now; omega)]

theorem partnerReads_granted {k : LinkId} {f : AccessFrame} {l : LaneId} (hb : b = (s.m.tick t).benchTick)
    (hserves : b.benchServes = true) (hears : b.linkHears k = true)
    (hf : pairIntact (.request f) = true) (hk : f.link = k) (hlink : b.linkInService k = true) (hw : f.write = false)
    (ha : f.addr = partnerAddr (.copier l)) (h1 : 1 ≤ f.count) (hc : f.count ≤ 256) (hasked : b.pair.asked = [])
    (hg : b.grants l = true) : Completes (.benchAccessRequest k f t) s (fun m =>
      m.pair.lastReply = some (sealAnswer
        { fcrc := 0, link := k, copy := b.ident.copy, cycle := b.cycleNo
          reply := { status := .ok, data := b.readWords {} (regOf (Page.copier l).path 0) f.count } }) ∧
      m.pair.asked = [] ∧ m.lanes = b.lanes ∧ m.bench = b.bench) := by
  have hdone := (accessRequest_asks hserves hears hf hk hlink hw ha h1 hc hasked).trans (Mach.serveAsked_askedOf_granted hg)
  obtain ⟨hreply, hnone, hlanes, hbench, hmod⟩ := ((b.askedOf k l f.count).updPair (fun p => { p with asked := [] })).sendAnswer_kept k
    { status := .ok, data := b.readWords {} (regOf (Page.copier l).path 0) f.count }
  refine completes_benchRun (benchAccessRequest k f) hb rfl ?_ ?_ <;> rw [hdone]
  exacts [hmod, ⟨hreply, hnone, hlanes, hbench⟩]

theorem partnerReads_waits {k : LinkId} {f : AccessFrame} {l : LaneId} (hb : b = (s.m.tick t).benchTick)
    (hserves : b.benchServes = true) (hears : b.linkHears k = true)
    (hf : pairIntact (.request f) = true) (hk : f.link = k) (hlink : b.linkInService k = true) (hw : f.write = false)
    (ha : f.addr = partnerAddr (.copier l)) (h1 : 1 ≤ f.count) (hc : f.count ≤ 256) (hasked : b.pair.asked = [])
    (hg : b.grants l = false) (hcycle : 0 < b.cycleNs) : Completes (.benchAccessRequest k f t) s (fun m =>
      m.pair.asked = [(regOf (Page.copier l).path 0, f.count, max s.m.now t, k)] ∧ m.pair.lastReply = b.pair.lastReply ∧
      m.lanes = b.lanes ∧ m.bench = b.bench) := by
  have hnow : b.now = max s.m.now t := by rw [hb, Mach.benchTick_tick_now]
  have hdone := (accessRequest_asks hserves hears hf hk hlink hw ha h1 hc hasked).trans (Mach.serveAsked_askedOf_waits hg hcycle)
  refine completes_benchRun (benchAccessRequest k f) hb rfl ?_ ?_ <;> rw [hdone]
  · rfl
  · rw [← hnow]
    exact ⟨rfl, PairState.updLink_lastReply .., rfl, rfl⟩

end

end Sys2Proof.Machine

open Sys2Proof Sys2Proof.Machine

/-- Settles O52: a read is answered from its page and clears what reading clears; the partner's pages are read over the pair link,
whose frames do what an access asks only while link and Bench serve. -/
theorem sessionReads : Obligations.SessionReads := by
  unfold Obligations.SessionReads
  refine ⟨?_, ?_, ?_, ?_, ?_, ?_, ?_, ?_, ?_, ?_, ?_, ?_, ?_, ?_, ?_, ?_, ?_, ?_⟩
  · rintro s via _ t b hb rfl hr
    refine (hostPort_crcErrs_read hb hr).mono fun m hm => ?_
    obtain ⟨hanswered, herrs, htimeouts, hbytes, honly⟩ := hm
    cases via <;> exact ⟨hanswered, herrs, htimeouts, hbytes, honly⟩
  · rintro s via _ t b hb rfl hr
    exact sensors_shock_read hb hr
  · rintro s via _ k n t b hb rfl hr hk hn -
    exact counters_group_read hb hr hk hn
  · exact statusWord_bits
  · intro s a n t b hb hserves hnone hplace hmail hspan hread
    exact hostPartnerRead_goesOut hb hserves hnone hplace hmail hspan hread
  · intro s h k n t seq a x b hb hr hx hplace hmail hspan
    exact mntPartnerRead_goesOut hb hr hx hplace hmail hspan
  · rintro s via _ a n t b hb rfl hw hplace hmail hspan
    exact partnerWrite_refused hb hw hplace hmail hspan
  · intro s t q b hb hq hsess hdue
    exact hostPartnerRead_timesOut hb hq hsess hdue
  · intro s t n q x b hb hq hsess hx hreads hdue
    exact mntPartnerRead_timesOut hb hq hsess hx hreads hdue
  · intro s t q rest b hb hq hearly
    exact partnerReadTimeout_early hb hq hearly
  · intro s k f t q b hb hserves hears hf hk hlink hq hsess
    exact accessReply_ends hb hserves hears hf hk hlink hq hsess
  · intro s k f t b hb hears hf hk hlink
    exact accessReply_outOfService hb hears hf hk hlink
  · intro s k f t b hb hears hbad
    exact accessReply_bad hb hears hbad
  · intro s k f g t b hb hdeaf
    exact access_unheard f g hb hdeaf
  · intro s k f t b hb hserves hears hf hk hlink hw
    exact partnerWrites_refused hb hserves hears hf hk hlink hw
  · intro s k f l t b hb hserves hears hf hk hlink hw ha h1 hc hasked hg
    exact partnerReads_granted hb hserves hears hf hk hlink hw ha h1 hc hasked hg
  · intro s k f l t b hb hserves hears hf hk hlink hw ha h1 hc hasked hg hcycle
    exact partnerReads_waits hb hserves hears hf hk hlink hw ha h1 hc hasked hg hcycle
  · intro s k f t b hb hears hbad
    exact accessRequest_bad hb hears hbad

end

section
/-! SUPPORT. The memory of page causes and the mailbox keep their canonical form. `canonical` speaks of two lists alone, and the model
writes them only by `memSet` and `memWrites`, or empties them: so each function of the module keeps it because the functions it is made
of do. There is one lemma for each, in the order of the model; where a function only branches between such functions, `grind` takes it
apart along its branches. -/

namespace Sys2Proof.Machine

/-- What holds of the memories holds of every module with the same ones. -/
theorem canonical_mk {x : Mach} {now mod power ident sd lanes cal field ring1 ring2 jxt can1 can2 pair} {bench : Bench} {freeCtr}
    (hx : canonical x) (hb : bench.host.mailbox = x.bench.host.mailbox) :
    canonical ⟨now, mod, power, ident, sd, lanes, cal, field, ring1, ring2, jxt, can1, can2, pair, bench, x.irq, freeCtr⟩ := by
  unfold canonical at *
  simpa only [hb] using hx

/-- Causes written in canonical form. -/
theorem canonical_withIrq {x : Mach} {irq : Mem 32} (hx : canonical x) (h : memWf 0 x.irq = true → memWf 0 irq = true) :
    canonical { x with irq := irq } := by
  unfold canonical at *
  rw [Bool.and_eq_true] at *
  exact ⟨h hx.1, hx.2⟩

/-- Mailbox words written in canonical form. -/
theorem canonical_withMailbox {x : Mach} {mail : Mem 32} {f : HostPort → HostPort} (hx : canonical x)
    (hf : (f x.bench.host).mailbox = mail) (h : memWf 0 x.bench.host.mailbox = true → memWf 0 mail = true) : canonical (x.updHost f) := by
  unfold canonical at *
  rw [Bool.and_eq_true] at *
  refine ⟨hx.1, ?_⟩
  show memWf 0 (f x.bench.host).mailbox = true
  rw [hf]
  exact h hx.2

theorem canonical_foldl {α : Type} {f : Mach → α → Mach} (hf : ∀ m x, canonical m → canonical (f m x)) (xs : List α) {m : Mach}
    (hm : canonical m) : canonical (xs.foldl f m) := by
  induction xs generalizing m with
  | nil => exact hm
  | cons x xs ih => exact ih (hf m x hm)

theorem canonical_ite {p : Prop} [Decidable p] {x y : Mach} (hx : canonical x) (hy : canonical y) : canonical (if p then x else y) := by
  split
  · exact hx
  · exact hy

/-! ### Functions of Machine/Operands -/

theorem Mach.updLane_canonical {l f m} (hm : canonical m) : canonical (Mach.updLane l f m) :=
  canonical_mk hm rfl

theorem Mach.updLanes_canonical {f m} (hm : canonical m) : canonical (Mach.updLanes f m) :=
  canonical_mk hm rfl

/-! ### Functions of Machine/Flags -/

theorem Mach.raise_canonical {path bit m} (hm : canonical m) : canonical (Mach.raise path bit m) :=
  canonical_withIrq hm fun h => memWf_memWrite _ _ _ _ h

/-! ### Functions of Machine/Ops -/

theorem Mach.tick_canonical {t m} (hm : canonical m) : canonical (Mach.tick t m) :=
  canonical_mk hm rfl

theorem Mach.bumpFree_canonical {m} (hm : canonical m) : canonical (Mach.bumpFree m) :=
  canonical_mk hm rfl

theorem Mach.postModule_canonical {n m} (hm : canonical m) : canonical (Mach.postModule n m) :=
  canonical_ite hm hm

theorem Mach.postLane_canonical {l n m} (hm : canonical m) : canonical (Mach.postLane l n m) :=
  canonical_mk hm rfl

theorem Mach.postPower_canonical {n m} (hm : canonical m) : canonical (Mach.postPower n m) :=
  canonical_mk hm rfl

theorem Mach.postCal_canonical {n m} (hm : canonical m) : canonical (Mach.postCal n m) :=
  canonical_mk hm rfl

theorem Mach.postField_canonical {n m} (hm : canonical m) : canonical (Mach.postField n m) :=
  canonical_mk hm rfl

theorem Mach.endSweep_canonical {m} (hm : canonical m) : canonical (Mach.endSweep m) :=
  canonical_ite hm hm

theorem Mach.noReference_canonical {m} (hm : canonical m) : canonical (Mach.noReference m) :=
  canonical_mk hm rfl

theorem Mach.enterModeAt_canonical {cyc new m} (hm : canonical m) : canonical (Mach.enterModeAt cyc new m) := by
  unfold Mach.enterModeAt
  grind -linarith [canonical_mk, Mach.endSweep_canonical, Mach.noReference_canonical, Mach.updLanes_canonical, Mach.raise_canonical,
    Mach.postModule_canonical]

theorem Mach.enterMode_canonical {new m} (hm : canonical m) : canonical (Mach.enterMode new m) :=
  enterModeAt_canonical hm

theorem Mach.abandonTest_canonical {m} (hm : canonical m) : canonical (Mach.abandonTest m) := by
  unfold Mach.abandonTest
  grind -linarith [canonical_mk, Mach.raise_canonical]

theorem Mach.updRing_canonical {i f m} (hm : canonical m) : canonical (Mach.updRing i f m) := by
  unfold Mach.updRing
  grind -linarith [canonical_mk]

theorem Mach.writeArea_canonical {m} (hm : canonical m) : canonical (Mach.writeArea m) :=
  canonical_mk hm rfl

theorem Mach.trialWritten_canonical {m} (hm : canonical m) : canonical (Mach.trialWritten m) :=
  canonical_ite hm hm

theorem Mach.readArea_canonical {m} (hm : canonical m) : canonical (Mach.readArea m) := by
  unfold Mach.readArea
  grind -linarith [canonical_mk]

theorem Mach.cutArea_canonical {crc m} (hm : canonical m) : canonical (Mach.cutArea crc m) :=
  canonical_mk hm rfl

theorem Mach.holdLanes_canonical {m} (hm : canonical m) : canonical (Mach.holdLanes m) :=
  canonical_mk hm rfl

theorem Mach.portsOff_canonical {m} (hm : canonical m) : canonical (Mach.portsOff m) := by
  have hirq := canonical_withIrq (irq := m.pairOffIrq (m.sd.any (fun sd => sd.pair.paired) && m.pair.goneAt.isNone &&
    !m.inLastCycle m.pair.sightIn)) hm fun h => memWf_memWrite _ _ _ _ h
  exact canonical_mk hirq rfl

/-! ### Functions of Machine/Poles -/

theorem Mach.updField_canonical {f m} (hm : canonical m) : canonical (Mach.updField f m) :=
  canonical_mk hm rfl

theorem Mach.updFsm_canonical {f m} (hm : canonical m) : canonical (Mach.updFsm f m) :=
  canonical_mk hm rfl

theorem Mach.updOut_canonical {n f m} (hm : canonical m) : canonical (Mach.updOut n f m) :=
  canonical_mk hm rfl

theorem Mach.noteOut_canonical {n srcs m} (hm : canonical m) : canonical (Mach.noteOut n srcs m) := by
  unfold Mach.noteOut
  grind -linarith [canonical_mk, Mach.postField_canonical]

theorem Mach.setPole_canonical {n p m} (hm : canonical m) : canonical (Mach.setPole n p m) := by
  unfold Mach.setPole
  grind -linarith [canonical_mk, Mach.bumpFree_canonical, Mach.updOut_canonical]

theorem Mach.refreshPoles_canonical {m} (hm : canonical m) : canonical (Mach.refreshPoles m) :=
  canonical_foldl (fun _ _ h => Mach.setPole_canonical (Mach.setPole_canonical h)) _ hm

theorem Mach.outAvail_canonical {n m} (hm : canonical m) : canonical (Mach.outAvail n m) := by
  unfold Mach.outAvail
  grind -linarith [canonical_mk, Mach.updOut_canonical, Mach.noteOut_canonical, Mach.raise_canonical]

theorem Mach.pulseJudged_canonical {n pass m} (hm : canonical m) : canonical (Mach.pulseJudged n pass m) := by
  unfold Mach.pulseJudged
  grind -linarith [canonical_mk, Mach.updOut_canonical, Mach.outAvail_canonical]

theorem Mach.pulseDiscard_canonical {n start p m} (hm : canonical m) : canonical (Mach.pulseDiscard n start p m) :=
  canonical_mk hm rfl

theorem Mach.outUnavail_canonical {n code m} (hm : canonical m) : canonical (Mach.outUnavail n code m) := by
  unfold Mach.outUnavail
  grind -linarith [canonical_mk, Mach.updOut_canonical, Mach.noteOut_canonical, Mach.raise_canonical]

theorem Mach.takeFault_canonical {n code m} (hm : canonical m) : canonical (Mach.takeFault n code m) := by
  unfold Mach.takeFault
  grind -linarith [canonical_mk, Mach.updOut_canonical, Mach.setPole_canonical, Mach.raise_canonical, Mach.noteOut_canonical]

theorem Mach.keepDark_canonical {n x m} (hm : canonical m) : canonical (Mach.keepDark n x m) := by
  unfold Mach.keepDark
  grind -linarith [canonical_mk, Mach.pulseJudged_canonical, Mach.updOut_canonical, Mach.takeFault_canonical]

theorem Mach.forcedOff_canonical {n m} (hm : canonical m) : canonical (Mach.forcedOff n m) := by
  unfold Mach.forcedOff
  grind -linarith [canonical_mk, Mach.keepDark_canonical, Mach.pulseDiscard_canonical, Mach.updOut_canonical]

theorem Mach.outFault_canonical {n code m} (hm : canonical m) : canonical (Mach.outFault n code m) :=
  takeFault_canonical (forcedOff_canonical hm)

theorem Mach.forcedOffAll_canonical {m} (hm : canonical m) : canonical (Mach.forcedOffAll m) :=
  Mach.refreshPoles_canonical (canonical_foldl (fun _ _ h => Mach.forcedOff_canonical h) _ hm)

theorem Mach.outHold_canonical {m} (hm : canonical m) : canonical (Mach.outHold m) := by
  refine Mach.refreshPoles_canonical (canonical_foldl (fun y n hy => ?_) _
    (canonical_foldl (fun _ _ h => Mach.forcedOff_canonical h) _ hm))
  split
  · exact hy
  · dsimp only
    split
    · exact Mach.noteOut_canonical (Mach.raise_canonical (Mach.updOut_canonical hy))
    · exact Mach.updOut_canonical hy

theorem Mach.outRelease_canonical {m} (hm : canonical m) : canonical (Mach.outRelease m) :=
  canonical_foldl (fun _ _ h => Mach.outAvail_canonical (Mach.updOut_canonical h)) _ hm

theorem Mach.eraseToken_canonical {m} (hm : canonical m) : canonical (Mach.eraseToken m) :=
  canonical_mk hm rfl

theorem Mach.enterHalt_canonical {cause src m} (hm : canonical m) : canonical (Mach.enterHalt cause src m) := by
  unfold Mach.enterHalt
  grind -linarith [canonical_mk, Mach.abandonTest_canonical, Mach.enterModeAt_canonical, Mach.eraseToken_canonical,
    Mach.portsOff_canonical, Mach.forcedOffAll_canonical, Mach.holdLanes_canonical, Mach.trialWritten_canonical, Mach.raise_canonical,
    Mach.postModule_canonical]

theorem Mach.haltCallipers_canonical {code m} (hm : canonical m) : canonical (Mach.haltCallipers code m) := by
  unfold Mach.haltCallipers
  grind -linarith [canonical_mk, Mach.enterHalt_canonical]

theorem Mach.haltLanes_canonical {cause m} (hm : canonical m) : canonical (Mach.haltLanes cause m) := by
  unfold Mach.haltLanes
  grind -linarith [canonical_mk, Mach.enterHalt_canonical]

/-! ### Functions of Machine/Can -/

theorem Mach.updCan_canonical {p f m} (hm : canonical m) : canonical (Mach.updCan p f m) := by
  unfold Mach.updCan
  grind -linarith [canonical_mk]

theorem Mach.noteCan_canonical {p src p0 p1 m} (hm : canonical m) : canonical (Mach.noteCan p src p0 p1 m) :=
  canonical_mk hm rfl

theorem Mach.canStart_canonical {p cfg m} (hm : canonical m) : canonical (Mach.canStart p cfg m) :=
  canonical_ite (updCan_canonical hm) hm

theorem Mach.releaseCan_canonical {p b words cycle m} (hm : canonical m) : canonical (Mach.releaseCan p b words cycle m) := by
  unfold Mach.releaseCan
  grind -linarith [canonical_mk, Mach.canStart_canonical, Mach.updCan_canonical]

theorem Mach.releaseCanCommand_canonical {p words m} (hm : canonical m) : canonical (Mach.releaseCanCommand p words m) :=
  updCan_canonical hm

theorem Mach.canPassive_canonical {p m} (hm : canonical m) : canonical (Mach.canPassive p m) :=
  canonical_ite (noteCan_canonical (raise_canonical (updCan_canonical hm))) (canonical_ite (updCan_canonical hm) hm)

theorem Mach.canOutcomeNotes_canonical {p code m} (hm : canonical m) : canonical (Mach.canOutcomeNotes p code m) :=
  canonical_ite (noteCan_canonical (raise_canonical hm)) (canonical_ite (noteCan_canonical (raise_canonical (updCan_canonical hm))) hm)

theorem Mach.canEnterBusOff_canonical {p m} (hm : canonical m) : canonical (Mach.canEnterBusOff p m) :=
  noteCan_canonical (raise_canonical (updCan_canonical hm))

theorem canFrameTxEnd_canonical {p b e m} (hm : canonical m) : canonical (canFrameTxEnd p b e m) := by
  unfold canFrameTxEnd
  grind -linarith [canonical_mk, Mach.updCan_canonical, Mach.canOutcomeNotes_canonical, Mach.canPassive_canonical,
    Mach.canEnterBusOff_canonical]

theorem tatPending_canonical {p b m} (hm : canonical m) : canonical (tatPending p b m) := by
  unfold tatPending
  grind -linarith [canonical_mk, Mach.canStart_canonical, Mach.updCan_canonical]

theorem canDeadline_canonical {p b kind begun m} (hm : canonical m) : canonical (canDeadline p b kind begun m) := by
  unfold canDeadline
  grind -linarith [canonical_mk, Mach.updCan_canonical]

theorem canExclusiveWindow_canonical {p b began m} (hm : canonical m) : canonical (canExclusiveWindow p b began m) := by
  unfold canExclusiveWindow
  grind -linarith [canonical_mk, Mach.updCan_canonical, Mach.canOutcomeNotes_canonical]

theorem canArbitratingWindow_canonical {p k m} (hm : canonical m) : canonical (canArbitratingWindow p k m) := by
  unfold canArbitratingWindow
  grind -linarith [canonical_mk, Mach.canStart_canonical, Mach.updCan_canonical]

theorem Mach.setCanRole_canonical {p role m} (hm : canonical m) : canonical (Mach.setCanRole p role m) :=
  canonical_ite hm (raise_canonical (updCan_canonical hm))

theorem Mach.beginCanCycle_canonical {p cfg m} (hm : canonical m) : canonical (Mach.beginCanCycle p cfg m) := by
  unfold Mach.beginCanCycle
  grind -linarith [canonical_mk, Mach.updCan_canonical]

theorem canReferenceMessage_canonical {p e m} (hm : canonical m) : canonical (canReferenceMessage p e m) := by
  unfold canReferenceMessage
  grind -linarith [canonical_mk, Mach.beginCanCycle_canonical, Mach.setCanRole_canonical, Mach.updCan_canonical, Mach.canPassive_canonical,
    Mach.canEnterBusOff_canonical]

theorem Mach.canSettle_canonical {p b f partner m} (hm : canonical m) : canonical (Mach.canSettle p b f partner m) := by
  unfold Mach.canSettle
  grind -linarith [canonical_mk, Mach.updLanes_canonical, Mach.updCan_canonical]

theorem Mach.canOffer_canonical {p cfg f m} (hm : canonical m) : canonical (Mach.canOffer p cfg f m) := by
  unfold Mach.canOffer
  grind -linarith [canonical_mk, Mach.updCan_canonical, Mach.canSettle_canonical]

theorem Mach.canConflict_canonical {p owner f m} (hm : canonical m) : canonical (Mach.canConflict p owner f m) :=
  noteCan_canonical (raise_canonical (updCan_canonical hm))

theorem canFrameReceive_canonical {p f m} (hm : canonical m) : canonical (canFrameReceive p f m) := by
  unfold canFrameReceive
  grind -linarith [canonical_mk, Mach.updCan_canonical, Mach.canPassive_canonical, Mach.canConflict_canonical, Mach.canOffer_canonical]

theorem canPairSettle_canonical {p b m} (hm : canonical m) : canonical (canPairSettle p b m) := by
  unfold canPairSettle
  grind -linarith [canonical_mk, Mach.updCan_canonical, Mach.canSettle_canonical, Mach.noteCan_canonical, Mach.raise_canonical]

theorem ownershipBlockExpire_canonical {p b m} (hm : canonical m) : canonical (ownershipBlockExpire p b m) :=
  Mach.updCan_canonical hm

theorem canOwnBitError_canonical {p b m} (hm : canonical m) : canonical (canOwnBitError p b m) :=
  canonical_ite (canFrameTxEnd_canonical hm) (canReferenceMessage_canonical hm)

theorem canBusError_canonical {p kind heavy m} (hm : canonical m) : canonical (canBusError p kind heavy m) := by
  unfold canBusError
  grind -linarith [canonical_mk, Mach.updCan_canonical, Mach.canPassive_canonical]

theorem canBusOff_canonical {p m} (hm : canonical m) : canonical (canBusOff p m) := by
  unfold canBusOff
  grind -linarith [canonical_mk, Mach.canEnterBusOff_canonical]

theorem canBusOffRecovery_canonical {p m} (hm : canonical m) : canonical (canBusOffRecovery p m) :=
  Mach.updCan_canonical hm

theorem canBusOffRecovered_canonical {p m} (hm : canonical m) : canonical (canBusOffRecovered p m) :=
  canonical_ite (Mach.raise_canonical (Mach.updCan_canonical hm)) hm

/-! ### Functions of Machine/CheckValue -/

theorem cvStart_canonical {l ctx m} (hm : canonical m) : canonical (cvStart l ctx m) := by
  unfold cvStart
  grind -linarith [canonical_mk, Mach.updLane_canonical]

theorem cvOperate_canonical {l ctx upset f m} (hm : canonical m) : canonical (cvOperate l ctx upset f m) := by
  unfold cvOperate
  grind -linarith [canonical_mk, Mach.updLane_canonical, Mach.raise_canonical]

/-! ### Functions of Machine/Sess -/

theorem Mach.updBench_canonical {f m} (hf : (f m.bench).host.mailbox = m.bench.host.mailbox) (hm : canonical m) :
    canonical (Mach.updBench f m) :=
  canonical_mk hm hf

theorem Mach.updHost_canonical {f m} (hf : (f m.bench.host).mailbox = m.bench.host.mailbox) (hm : canonical m) :
    canonical (Mach.updHost f m) :=
  canonical_mk hm hf

theorem Mach.updMnt_canonical {f m} (hm : canonical m) : canonical (Mach.updMnt f m) :=
  canonical_mk hm rfl

theorem Mach.updMntSess_canonical {n f m} (hm : canonical m) : canonical (Mach.updMntSess n f m) :=
  canonical_mk hm rfl

theorem Mach.ecAdd_canonical {src q n m} (hm : canonical m) : canonical (Mach.ecAdd src q n m) :=
  canonical_ite hm (canonical_ite (raise_canonical hm) hm)

theorem Mach.ecCount_canonical {src q m} (hm : canonical m) : canonical (Mach.ecCount src q m) :=
  updBench_canonical rfl (ecAdd_canonical hm)

theorem Mach.updSession_canonical {s f m} (hm : canonical m) : canonical (Mach.updSession s f m) := by
  unfold Mach.updSession
  grind -linarith [canonical_mk, Mach.updHost_canonical, Mach.updMntSess_canonical]

theorem Mach.touch_canonical {s m} (hm : canonical m) : canonical (Mach.touch s m) := by
  unfold Mach.touch
  grind -linarith [canonical_mk, Mach.updHost_canonical, Mach.raise_canonical, Mach.updSession_canonical]

theorem Mach.mntAnswer_canonical {n num typ c bs m} (hm : canonical m) : canonical (Mach.mntAnswer n num typ c bs m) :=
  canonical_mk hm rfl

theorem Mach.answer_canonical {s r m} (hm : canonical m) : canonical (Mach.answer s r m) := by
  unfold Mach.answer
  grind -linarith [canonical_mk, Mach.updHost_canonical, Mach.mntAnswer_canonical]

/-! ### Functions of Machine/Jxt -/

theorem Mach.updConn_canonical {k f m} (hm : canonical m) : canonical (Mach.updConn k f m) :=
  canonical_mk hm rfl

theorem Mach.noteJxt_canonical {k src p0 p1 m} (hm : canonical m) : canonical (Mach.noteJxt k src p0 p1 m) :=
  canonical_mk hm rfl

theorem Mach.jxtLast_canonical {k number cause m} (hm : canonical m) : canonical (Mach.jxtLast k number cause m) :=
  canonical_mk hm rfl

theorem Mach.askArp_canonical {n dst m} (hm : canonical m) : canonical (Mach.askArp n dst m) :=
  canonical_ite hm hm

theorem Mach.jxtSend_canonical {k words m} (hm : canonical m) : canonical (Mach.jxtSend k words m) := by
  unfold Mach.jxtSend
  split
  · exact hm
  · split
    · exact hm
    · exact Mach.updConn_canonical (canonical_foldl (fun _ _ h => Mach.askArp_canonical h) _ hm)

theorem Mach.countBad_canonical {n m} (hm : canonical m) : canonical (Mach.countBad n m) := by
  unfold Mach.countBad
  grind -linarith [canonical_mk]

theorem Mach.jxtDiscard_canonical {n m} (hm : canonical m) : canonical (Mach.jxtDiscard n m) :=
  postCal_canonical (countBad_canonical hm)

theorem Mach.jxtBad_canonical {n conn m} (hm : canonical m) : canonical (Mach.jxtBad n conn m) := by
  unfold Mach.jxtBad
  grind -linarith [canonical_mk, Mach.noteJxt_canonical, Mach.jxtLast_canonical, Mach.countBad_canonical, Mach.jxtDiscard_canonical]

theorem Mach.jxtSettle_canonical {k c g m} (hm : canonical m) : canonical (Mach.jxtSettle k c g m) := by
  unfold Mach.jxtSettle
  grind -linarith [canonical_mk, Mach.updConn_canonical, Mach.noteJxt_canonical, Mach.raise_canonical, Mach.jxtLast_canonical]

theorem Mach.jxtGather_canonical {k c n d m} (hm : canonical m) : canonical (Mach.jxtGather k c n d m) := by
  unfold Mach.jxtGather
  grind -linarith [canonical_mk, Mach.jxtLast_canonical, Mach.jxtBad_canonical, Mach.updConn_canonical, Mach.jxtSettle_canonical]

theorem jxtDatagramReceive_canonical {n d m} (hm : canonical m) : canonical (jxtDatagramReceive n d m) := by
  unfold jxtDatagramReceive
  grind -linarith [canonical_mk, Mach.jxtGather_canonical, Mach.jxtBad_canonical]

theorem jxtGroupSettle_canonical {k m} (hm : canonical m) : canonical (jxtGroupSettle k m) := by
  unfold jxtGroupSettle
  grind -linarith [canonical_mk, Mach.jxtSettle_canonical]

theorem Mach.learnArp_canonical {n ip hw m} (hm : canonical m) : canonical (Mach.learnArp n ip hw m) :=
  canonical_ite hm hm

theorem Mach.netAsked_canonical {n req m} (hm : canonical m) : canonical (Mach.netAsked n req m) := by
  unfold Mach.netAsked
  grind -linarith [canonical_mk, Mach.jxtDiscard_canonical, Mach.learnArp_canonical]

theorem Mach.mntAsked_canonical {req m} (hm : canonical m) : canonical (Mach.mntAsked req m) :=
  canonical_ite hm hm

theorem netArpIcmp_canonical {p req m} (hm : canonical m) : canonical (netArpIcmp p req m) := by
  unfold netArpIcmp
  grind -linarith [canonical_mk, Mach.netAsked_canonical, Mach.mntAsked_canonical]

theorem redBlueLinkChange_canonical {n up m} (hm : canonical m) : canonical (redBlueLinkChange n up m) := by
  unfold redBlueLinkChange
  grind -linarith [canonical_mk, Mach.raise_canonical]

/-! ### Functions of Machine/Release -/

theorem Mach.holdMsg_canonical {h m} (hm : canonical m) : canonical (Mach.holdMsg h m) :=
  canonical_mk hm rfl

theorem Mach.sporadicQueue_canonical {i msg words cycle m} (hm : canonical m) : canonical (Mach.sporadicQueue i msg words cycle m) := by
  unfold Mach.sporadicQueue
  grind -linarith [canonical_mk, Mach.updRing_canonical, Mach.raise_canonical]

theorem Mach.releaseMsg_canonical {c cycle words m} (hm : canonical m) : canonical (Mach.releaseMsg c cycle words m) := by
  unfold Mach.releaseMsg
  grind -linarith [canonical_mk, Mach.holdMsg_canonical, Mach.sporadicQueue_canonical, Mach.jxtSend_canonical, Mach.releaseCan_canonical,
    Mach.releaseCanCommand_canonical]

/-! ### Functions of Machine/Voter -/

theorem Mach.updVote_canonical {f m} (hm : canonical m) : canonical (Mach.updVote f m) :=
  canonical_mk hm rfl

theorem Mach.updSlot_canonical {k f m} (hm : canonical m) : canonical (Mach.updSlot k f m) :=
  canonical_mk hm rfl

theorem Mach.voteLast_canonical {s kind lanes m} (hm : canonical m) : canonical (Mach.voteLast s kind lanes m) :=
  canonical_mk hm rfl

theorem Mach.outvote_canonical {s l m} (hm : canonical m) : canonical (Mach.outvote s l m) := by
  unfold Mach.outvote
  grind -linarith [canonical_mk, Mach.updVote_canonical, Mach.postCal_canonical, Mach.raise_canonical, Mach.voteLast_canonical]

theorem Mach.markAbsent_canonical {s l m} (hm : canonical m) : canonical (Mach.markAbsent s l m) := by
  unfold Mach.markAbsent
  grind -linarith [canonical_mk, Mach.updVote_canonical, Mach.postCal_canonical, Mach.raise_canonical, Mach.voteLast_canonical]

theorem Mach.slotHalt_canonical {s m} (hm : canonical m) : canonical (Mach.slotHalt s m) := by
  unfold Mach.slotHalt
  grind -linarith [canonical_mk, Mach.haltCallipers_canonical, Mach.voteLast_canonical]

theorem Mach.tryRelease_canonical {msg m} (hm : canonical m) : canonical (Mach.tryRelease msg m) := by
  unfold Mach.tryRelease
  grind -linarith [canonical_mk, Mach.releaseMsg_canonical, Mach.updVote_canonical]

theorem Mach.emitVoted_canonical {s v m} (hm : canonical m) : canonical (Mach.emitVoted s v m) := by
  have hout := canonical_foldl (f := fun m (p : LaneId × Copy) => m.outvote s p.1) (fun _ _ h => Mach.outvote_canonical h)
    ((s.present m.votingLanes).filter (fun p => !(p.2.good && p.2.data == v)))
    (Mach.updSlot_canonical (k := s.key) (f := fun x => { x with voted := some v }) hm)
  unfold Mach.emitVoted
  dsimp only
  split
  · exact canonical_mk hout rfl
  · exact Mach.tryRelease_canonical hout

theorem Mach.judgeSlot_canonical {k m} (hm : canonical m) : canonical (Mach.judgeSlot k m) := by
  unfold Mach.judgeSlot
  grind -linarith [canonical_mk, Mach.emitVoted_canonical, Mach.slotHalt_canonical]

theorem Mach.compareLate_canonical {k l c m} (hm : canonical m) : canonical (Mach.compareLate k l c m) := by
  unfold Mach.compareLate
  grind -linarith [canonical_mk, Mach.outvote_canonical]

theorem Mach.closeSlot_canonical {k m} (hm : canonical m) : canonical (Mach.closeSlot k m) := by
  unfold Mach.closeSlot
  split
  · exact hm
  · split
    · exact hm
    · dsimp only
      split
      · exact Mach.slotHalt_canonical (Mach.updSlot_canonical hm)
      · exact canonical_foldl (fun _ _ h => Mach.markAbsent_canonical h) _ (Mach.updSlot_canonical hm)

theorem Mach.openSlot_canonical {k m} (hm : canonical m) : canonical (Mach.openSlot k m) := by
  unfold Mach.openSlot
  grind -linarith [canonical_mk, Mach.updVote_canonical]

theorem Mach.slotCopy_canonical {k w m} (hm : canonical m) : canonical (Mach.slotCopy k w m) := by
  unfold Mach.slotCopy
  grind -linarith [canonical_mk, Mach.updSlot_canonical, Mach.openSlot_canonical, Mach.markAbsent_canonical, Mach.updVote_canonical,
    Mach.compareLate_canonical, Mach.judgeSlot_canonical]

theorem Mach.voteCopy_canonical {w m} (hm : canonical m) : canonical (Mach.voteCopy w m) := by
  unfold Mach.voteCopy
  grind -linarith [canonical_mk, Mach.slotCopy_canonical]

theorem Mach.probeCopy_canonical {w m} (hm : canonical m) : canonical (Mach.probeCopy w m) := by
  unfold Mach.probeCopy
  grind -linarith [canonical_mk, Mach.updSlot_canonical, Mach.openSlot_canonical]

theorem Mach.endCopy_canonical {w m} (hm : canonical m) : canonical (Mach.endCopy w m) :=
  canonical_mk hm rfl

theorem voteWordArrive_canonical {w m} (hm : canonical m) : canonical (voteWordArrive w m) := by
  unfold voteWordArrive
  grind -linarith [canonical_mk, Mach.voteCopy_canonical, Mach.endCopy_canonical, Mach.probeCopy_canonical]

theorem skewWindowClose_canonical {msg word m} (hm : canonical m) : canonical (skewWindowClose msg word m) := by
  unfold skewWindowClose
  grind -linarith [canonical_mk, Mach.closeSlot_canonical]

theorem Mach.removeCopies_canonical {l m} (hm : canonical m) : canonical (Mach.removeCopies l m) :=
  canonical_foldl (fun _ _ h => Mach.judgeSlot_canonical h) _ (Mach.updVote_canonical hm)

/-! ### Functions of Machine/LaneLife -/

theorem Mach.updAgr_canonical {l f m} (hm : canonical m) : canonical (Mach.updAgr l f m) :=
  canonical_mk hm rfl

theorem Mach.countVoters_canonical {m} (hm : canonical m) : canonical (Mach.countVoters m) := by
  unfold Mach.countVoters
  grind -linarith [canonical_mk, Mach.haltLanes_canonical, Mach.enterMode_canonical]

theorem Mach.laneOutFor_canonical {roll l cause m} (hm : canonical m) : canonical (Mach.laneOutFor roll l cause m) := by
  unfold Mach.laneOutFor
  grind -linarith [canonical_mk, Mach.raise_canonical, Mach.updLane_canonical, Mach.postModule_canonical, Mach.countVoters_canonical,
    Mach.forcedOffAll_canonical, Mach.removeCopies_canonical]

theorem Mach.laneOut_canonical {l cause m} (hm : canonical m) : canonical (Mach.laneOut l cause m) := by
  unfold Mach.laneOut
  grind -linarith [canonical_mk, Mach.laneOutFor_canonical]

theorem Mach.bootLaneOut_canonical {l cause m} (hm : canonical m) : canonical (Mach.bootLaneOut l cause m) := by
  unfold Mach.bootLaneOut
  grind -linarith [canonical_mk, Mach.raise_canonical, Mach.updAgr_canonical, Mach.postModule_canonical]

theorem Mach.copierFault_canonical {l cause m} (hm : canonical m) : canonical (Mach.copierFault l cause m) := by
  unfold Mach.copierFault
  grind -linarith [canonical_mk, Mach.updLane_canonical, Mach.laneOut_canonical, Mach.raise_canonical]

theorem Mach.assertExcl_canonical {l target m} (hm : canonical m) : canonical (Mach.assertExcl l target m) := by
  unfold Mach.assertExcl
  grind -linarith [canonical_mk, Mach.updAgr_canonical, Mach.laneOut_canonical, Mach.postLane_canonical]

theorem Mach.charge_canonical {l cause m} (hm : canonical m) : canonical (Mach.charge l cause m) := by
  unfold Mach.charge
  split
  · exact canonical_foldl (fun _ _ h => Mach.assertExcl_canonical h) _ (Mach.laneOut_canonical hm)
  · exact hm

theorem exclusionLineExpire_canonical {l target m} (hm : canonical m) : canonical (exclusionLineExpire l target m) :=
  canonical_mk hm rfl

theorem Mach.unitOut_canonical {l cause m} (hm : canonical m) : canonical (Mach.unitOut l cause m) := by
  unfold Mach.unitOut
  grind -linarith [canonical_mk, Mach.bootLaneOut_canonical, Mach.laneOut_canonical]

theorem Mach.mismatch_canonical {l u m} (hm : canonical m) : canonical (Mach.mismatch l u m) := by
  unfold Mach.mismatch
  grind -linarith [canonical_mk, Mach.unitOut_canonical, Mach.bootLaneOut_canonical, Mach.copierFault_canonical]

theorem comparatorInjection_canonical {l u c m} (hm : canonical m) : canonical (comparatorInjection l u c m) := by
  unfold comparatorInjection
  grind -linarith [canonical_mk, Mach.updAgr_canonical, Mach.mismatch_canonical]

theorem missedInjection_canonical {l u m} (hm : canonical m) : canonical (missedInjection l u m) := by
  unfold missedInjection
  grind -linarith [canonical_mk, Mach.unitOut_canonical, Mach.updAgr_canonical]

theorem Mach.enterRestart_canonical {l m} (hm : canonical m) : canonical (Mach.enterRestart l m) :=
  canonical_mk hm rfl

theorem Mach.wakeWaiting_canonical {m} (hm : canonical m) : canonical (Mach.wakeWaiting m) := by
  unfold Mach.wakeWaiting
  split
  · exact hm
  · refine canonical_foldl (fun y l hy => ?_) _ hm
    dsimp only
    split
    · exact Mach.enterRestart_canonical hy
    · exact hy

theorem supervisorResetEnd_canonical {l m} (hm : canonical m) : canonical (supervisorResetEnd l m) :=
  canonical_ite hm (canonical_ite hm (canonical_ite (Mach.raise_canonical hm) (canonical_ite hm hm)))

theorem rejoinTimeout_canonical {l m} (hm : canonical m) : canonical (rejoinTimeout l m) := by
  unfold rejoinTimeout
  grind -linarith [canonical_mk, Mach.laneOut_canonical]

theorem Mach.enterVoting_canonical {l m} (hm : canonical m) : canonical (Mach.enterVoting l m) := by
  unfold Mach.enterVoting
  grind -linarith [canonical_mk, Mach.updAgr_canonical, Mach.postModule_canonical, Mach.raise_canonical, Mach.enterMode_canonical]

/-! ### Functions of Machine/Rows -/

theorem Mach.markFetch_canonical {l f n m} (hm : canonical m) : canonical (Mach.markFetch l f n m) := by
  unfold Mach.markFetch
  grind -linarith [canonical_mk, Mach.updLane_canonical, Mach.postLane_canonical, Mach.postModule_canonical, Mach.raise_canonical]

theorem Mach.row_canonical {l cls f differs endOk eff m} (hm : canonical m) : canonical (Mach.row l cls f differs endOk eff m) := by
  unfold Mach.row
  grind -linarith [canonical_mk, Mach.copierFault_canonical, Mach.markFetch_canonical, Mach.updLane_canonical]

theorem runStart_canonical {l m} (hm : canonical m) : canonical (runStart l m) := by
  unfold runStart
  grind -linarith [canonical_mk, Mach.updLane_canonical]

theorem progressCheckpoint_canonical {l k m} (hm : canonical m) : canonical (progressCheckpoint l k m) :=
  canonical_ite hm (canonical_ite hm (Mach.copierFault_canonical hm))

theorem Mach.missedMark_canonical {l after ph cause m} (hm : canonical m) : canonical (Mach.missedMark l after ph cause m) :=
  canonical_ite (copierFault_canonical hm) hm

theorem sleepEntry_canonical {l m} (hm : canonical m) : canonical (sleepEntry l m) :=
  canonical_ite hm hm

theorem keepAwakeHold_canonical {l r on m} (hm : canonical m) : canonical (keepAwakeHold l r on m) :=
  canonical_ite hm hm

/-! ### Functions of Machine/Exchange -/

theorem imageFrameSend_canonical {l m} (hm : canonical m) : canonical (imageFrameSend l m) :=
  canonical_ite hm hm

theorem exchangeFrameReceive_canonical {l e m} (hm : canonical m) : canonical (exchangeFrameReceive l e m) :=
  canonical_ite hm hm

theorem intactJudgement_canonical {l m} (hm : canonical m) : canonical (intactJudgement l m) :=
  canonical_ite hm hm

theorem Mach.judge_canonical {l target cause m} (hm : canonical m) : canonical (Mach.judge l target cause m) := by
  unfold Mach.judge
  grind -linarith [canonical_mk, Mach.laneOut_canonical, Mach.assertExcl_canonical]

theorem majorityPass_canonical {l acc m} (hm : canonical m) : canonical (majorityPass l acc m) := by
  unfold majorityPass
  extract_lets x imgs ws maj p two minor restr big inc y z
  have hz : canonical z := by
    subst z
    split
    · exact Mach.raise_canonical (Mach.updLane_canonical hm)
    · exact Mach.updLane_canonical hm
  split
  · exact Mach.haltLanes_canonical hz
  · exact canonical_foldl (fun _ _ h => Mach.judge_canonical h) _ hz

theorem acceptedSet_canonical {l m} (hm : canonical m) : canonical (acceptedSet l m) := by
  unfold acceptedSet
  extract_lets x acc ds own differ miss y z w
  have hy : canonical y := Mach.updAgr_canonical hm
  have hz : canonical z := by
    subst z
    (repeat' split)
    · exact hy
    · exact Mach.judge_canonical hy
    · exact Mach.haltLanes_canonical hy
    · exact hy
  have hw : canonical w := canonical_foldl (fun _ _ h => Mach.judge_canonical h) _ hz
  (repeat' split)
  · exact Mach.haltLanes_canonical hy
  · exact hw
  · exact majorityPass_canonical hw
  · exact hm

theorem transferServe_canonical {l dest m} (hm : canonical m) : canonical (transferServe l dest m) := by
  unfold transferServe
  grind -linarith [canonical_mk, Mach.updLane_canonical]

theorem transferReceive_canonical {l m} (hm : canonical m) : canonical (transferReceive l m) := by
  unfold transferReceive
  grind -linarith [canonical_mk, Mach.updLane_canonical, Mach.enterHalt_canonical, Mach.laneOut_canonical]

/-! ### Functions of Machine/FieldOut -/

theorem offStateJudgement_canonical {n vp vn m} (hm : canonical m) : canonical (offStateJudgement n vp vn m) := by
  unfold offStateJudgement
  grind -linarith [canonical_mk, Mach.updOut_canonical, Mach.outUnavail_canonical, Mach.outFault_canonical]

theorem openLoadOn_canonical {n mA vp vn m} (hm : canonical m) : canonical (openLoadOn n mA vp vn m) := by
  unfold openLoadOn
  split
  · extract_lets i y since z
    have hy : canonical y := Mach.updOut_canonical hm
    have hz : canonical z := Mach.updOut_canonical hy
    (repeat' split)
    · exact hm
    · exact hy
    · exact Mach.outUnavail_canonical hz
    · exact hz
    · exact Mach.updOut_canonical hy
  · exact hm

theorem Mach.outOverdue_canonical {n m} (hm : canonical m) : canonical (Mach.outOverdue n m) := by
  unfold Mach.outOverdue
  grind -linarith [canonical_mk, Mach.updOut_canonical, Mach.raise_canonical, Mach.outUnavail_canonical]

theorem testPeriodStart_canonical {m} (hm : canonical m) : canonical (testPeriodStart m) := by
  unfold testPeriodStart
  dsimp only
  split
  · exact hm
  · exact Mach.updField_canonical
      (canonical_foldl (fun _ _ h => Mach.outOverdue_canonical (Mach.updOut_canonical h)) _ hm)

theorem Mach.recount_canonical {n m} (hm : canonical m) : canonical (Mach.recount n m) :=
  canonical_mk hm rfl

theorem Mach.startPulse_canonical {n p kind ok follow matched m} (hm : canonical m) :
    canonical (Mach.startPulse n p kind ok follow matched m) := by
  unfold Mach.startPulse
  grind -linarith [canonical_mk, Mach.updOut_canonical, Mach.pulseDiscard_canonical, Mach.recount_canonical, Mach.setPole_canonical]

theorem Mach.crossFound_canonical {n c m} (hm : canonical m) : canonical (Mach.crossFound n m c) := by
  unfold Mach.crossFound
  grind -linarith [canonical_mk, Mach.updOut_canonical, Mach.outFault_canonical]

theorem Mach.crossFindings_canonical {n cs m} (hm : canonical m) : canonical (Mach.crossFindings n cs m) :=
  canonical_foldl (fun _ _ h => Mach.crossFound_canonical h) _ hm

theorem darkPulseRedrive_canonical {n p m} (hm : canonical m) : canonical (darkPulseRedrive n p m) := by
  unfold darkPulseRedrive
  grind -linarith [canonical_mk, Mach.setPole_canonical, Mach.updOut_canonical, Mach.pulseDiscard_canonical, Mach.keepDark_canonical]

theorem darkPulseReclose_canonical {n p ok m} (hm : canonical m) : canonical (darkPulseReclose n p ok m) := by
  unfold darkPulseReclose
  grind -linarith [canonical_mk, Mach.pulseJudged_canonical, Mach.updOut_canonical, Mach.outFault_canonical]

theorem lightPulseEnd_canonical {n p m} (hm : canonical m) : canonical (lightPulseEnd n p m) := by
  unfold lightPulseEnd
  grind -linarith [canonical_mk, Mach.setPole_canonical, Mach.updOut_canonical, Mach.pulseDiscard_canonical, Mach.outFault_canonical,
    Mach.pulseJudged_canonical]

theorem lightPulseVerify_canonical {n p below m} (hm : canonical m) : canonical (lightPulseVerify n p below m) := by
  unfold lightPulseVerify
  grind -linarith [canonical_mk, Mach.pulseJudged_canonical, Mach.updOut_canonical, Mach.outFault_canonical, Mach.outUnavail_canonical]

theorem pulseRepeat_canonical {n p m} (hm : canonical m) : canonical (pulseRepeat n p m) :=
  canonical_mk hm rfl

theorem Mach.resolvePulse_canonical {n m} (hm : canonical m) : canonical (Mach.resolvePulse n m) := by
  unfold Mach.resolvePulse
  grind -linarith [canonical_mk, Mach.keepDark_canonical, Mach.pulseDiscard_canonical]

theorem Mach.demand_canonical {l n on m} (hm : canonical m) : canonical (Mach.demand l n on m) := by
  unfold Mach.demand
  grind -linarith [canonical_mk, Mach.resolvePulse_canonical, Mach.recount_canonical, Mach.setPole_canonical, Mach.updOut_canonical]

theorem Mach.demands_canonical {l old new m} (hm : canonical m) : canonical (Mach.demands l old new m) :=
  canonical_foldl (fun _ _ h => Mach.demand_canonical h) _ hm

theorem overload_canonical {n m} (hm : canonical m) : canonical (overload n m) := by
  unfold overload
  grind -linarith [canonical_mk, Mach.outFault_canonical]

theorem thermalFoldback_canonical {n temp m} (hm : canonical m) : canonical (thermalFoldback n temp m) := by
  unfold thermalFoldback
  grind -linarith [canonical_mk, Mach.updOut_canonical, Mach.noteOut_canonical, Mach.raise_canonical]

theorem overtemperature_canonical {n temp m} (hm : canonical m) : canonical (overtemperature n temp m) :=
  canonical_ite (Mach.outFault_canonical hm) hm

theorem outputFaultClear_canonical {n temp m} (hm : canonical m) : canonical (outputFaultClear n temp m) := by
  unfold outputFaultClear
  grind -linarith [canonical_mk, Mach.outAvail_canonical, Mach.updOut_canonical]

theorem Mach.armOutput_canonical {n p q m} (hm : canonical m) : canonical (Mach.armOutput n p q m) := by
  unfold Mach.armOutput
  grind -linarith [canonical_mk, Mach.updOut_canonical]

theorem Mach.refitOut_canonical {n m} (hm : canonical m) : canonical (Mach.refitOut n m) := by
  unfold Mach.refitOut
  grind -linarith [canonical_mk, Mach.outAvail_canonical, Mach.updOut_canonical]

theorem outputCouplerFrame_canonical {n ok m} (hm : canonical m) : canonical (outputCouplerFrame n ok m) := by
  unfold outputCouplerFrame
  grind -linarith [canonical_mk, Mach.updLanes_canonical, Mach.updOut_canonical]

/-! ### Functions of Machine/Callipers -/

theorem Mach.updOdm_canonical {f m} (hm : canonical m) : canonical (Mach.updOdm f m) :=
  canonical_mk hm rfl

theorem Mach.updCsc_canonical {f m} (hm : canonical m) : canonical (Mach.updCsc f m) :=
  canonical_mk hm rfl

theorem Mach.closeAll_canonical {m} (hm : canonical m) : canonical (Mach.closeAll m) := by
  refine canonical_foldl (fun y k hy => ?_) _ hm
  split
  · split
    · exact hy
    · exact Mach.closeSlot_canonical hy
  · exact hy

theorem Mach.unendedAbsent_canonical {l m} (hm : canonical m) : canonical (Mach.unendedAbsent l m) := by
  unfold Mach.unendedAbsent
  split
  · exact hm
  · extract_lets y
    have hy : canonical y := canonical_foldl (fun z c hz => by
      split
      · exact hz
      · exact Mach.markAbsent_canonical hz) _ hm
    split
    · exact hy
    · exact Mach.markAbsent_canonical hy

theorem Mach.discards_canonical {m} (hm : canonical m) : canonical (Mach.discards m) := by
  refine canonical_foldl (fun y c hy => ?_) _ hm
  split
  · exact hy
  · exact Mach.postCal_canonical (Mach.raise_canonical (Mach.updVote_canonical hy))

theorem Mach.judgeProbe_canonical {l m} (hm : canonical m) : canonical (Mach.judgeProbe l m) := by
  unfold Mach.judgeProbe
  grind -linarith [canonical_mk, Mach.postCal_canonical, Mach.laneOut_canonical, Mach.updAgr_canonical]

theorem Mach.chargeReport_canonical {outv abs m} (hm : canonical m) : canonical (Mach.chargeReport outv abs m) :=
  canonical_foldl (fun _ _ h => Mach.charge_canonical h) _
    (canonical_foldl (fun _ _ h => Mach.charge_canonical h) _ (Mach.updVote_canonical hm))

theorem Mach.mirrorSend_canonical {m} (hm : canonical m) : canonical (Mach.mirrorSend m) := by
  unfold Mach.mirrorSend
  grind -linarith [canonical_mk, Mach.updVote_canonical, Mach.raise_canonical]

theorem cycleReport_canonical {m} (hm : canonical m) : canonical (cycleReport m) := by
  unfold cycleReport
  split
  · exact hm
  · split
    · exact hm
    · dsimp only
      have hclosed := Mach.closeAll_canonical hm
      split
      · exact hclosed
      · refine Mach.chargeReport_canonical (Mach.mirrorSend_canonical
          (canonical_foldl (fun _ _ h => Mach.judgeProbe_canonical h) _ (Mach.updVote_canonical (Mach.discards_canonical ?_))))
        exact canonical_foldl (fun _ _ h => Mach.unendedAbsent_canonical h) _ hclosed

theorem Mach.gained_canonical {bit src old new m} (hm : canonical m) : canonical (Mach.gained bit src old new m) := by
  unfold Mach.gained
  dsimp only
  split
  · exact hm
  · exact canonical_foldl (fun _ _ h => Mach.postCal_canonical h) _ (Mach.raise_canonical hm)

theorem driveMonitorSample_canonical {pos neg m} (hm : canonical m) : canonical (driveMonitorSample pos neg m) := by
  unfold driveMonitorSample
  split
  · exact hm
  · extract_lets y z o p q weak lost stray v w
    have hz : canonical z := Mach.refreshPoles_canonical
      (canonical_foldl (fun _ _ h => Mach.armOutput_canonical (Mach.updOut_canonical h)) _ hm)
    split
    · exact hz
    · have hw : canonical w := Mach.gained_canonical (Mach.gained_canonical (Mach.gained_canonical (Mach.updOdm_canonical hz)))
      split
      · exact Mach.haltCallipers_canonical hw
      · exact hw

theorem driveRefreshMark_canonical {l m} (hm : canonical m) : canonical (driveRefreshMark l m) := by
  unfold driveRefreshMark
  grind -linarith [canonical_mk, Mach.updOdm_canonical, Mach.refreshPoles_canonical]

theorem driveWatchdogTrip_canonical {m} (hm : canonical m) : canonical (driveWatchdogTrip m) := by
  unfold driveWatchdogTrip
  grind -linarith [canonical_mk, Mach.updOdm_canonical, Mach.forcedOffAll_canonical, Mach.raise_canonical, Mach.postCal_canonical]

theorem callipersInjection_canonical {c m} (hm : canonical m) : canonical (callipersInjection c m) := by
  unfold callipersInjection
  grind -linarith [canonical_mk, Mach.updCsc_canonical, Mach.haltCallipers_canonical]

/-! ### Functions of Machine/FieldIn -/

theorem Mach.updDi_canonical {ch f m} (hm : canonical m) : canonical (Mach.updDi ch f m) :=
  canonical_mk hm rfl

theorem Mach.updAi_canonical {ch f m} (hm : canonical m) : canonical (Mach.updAi ch f m) :=
  canonical_mk hm rfl

theorem Mach.updPs_canonical {k f m} (hm : canonical m) : canonical (Mach.updPs k f m) :=
  canonical_mk hm rfl

theorem Mach.updEnc_canonical {f m} (hm : canonical m) : canonical (Mach.updEnc f m) :=
  canonical_mk hm rfl

theorem Mach.noteIn_canonical {k ch srcs m} (hm : canonical m) : canonical (Mach.noteIn k ch srcs m) := by
  unfold Mach.noteIn
  grind -linarith [canonical_mk, Mach.postField_canonical]

theorem Mach.diFault_canonical {ch code latch m} (hm : canonical m) : canonical (Mach.diFault ch code latch m) := by
  unfold Mach.diFault
  grind -linarith [canonical_mk, Mach.updDi_canonical, Mach.raise_canonical, Mach.noteIn_canonical]

theorem Mach.diGone_canonical {ch codes m} (hm : canonical m) : canonical (Mach.diGone ch codes m) :=
  canonical_mk hm rfl

theorem Mach.diLevel_canonical {ch b m} (hm : canonical m) : canonical (Mach.diLevel ch b m) := by
  unfold Mach.diLevel
  grind -linarith [canonical_mk, Mach.updDi_canonical, Mach.postField_canonical]

theorem Mach.diRestart_canonical {ch m} (hm : canonical m) : canonical (Mach.diRestart ch m) := by
  unfold Mach.diRestart
  grind -linarith [canonical_mk, Mach.updDi_canonical, Mach.diLevel_canonical]

theorem Mach.diValid_canonical {ch m} (hm : canonical m) : canonical (Mach.diValid ch m) :=
  noteIn_canonical (raise_canonical hm)

theorem Mach.windowJudge_canonical {ch own k m} (hm : canonical m) : canonical (Mach.windowJudge ch own k m) := by
  unfold Mach.windowJudge
  grind -linarith [canonical_mk, Mach.updDi_canonical, Mach.diFault_canonical, Mach.diGone_canonical]

theorem Mach.pulseCheck_canonical {ch own high m} (hm : canonical m) : canonical (Mach.pulseCheck ch own high m) := by
  unfold Mach.pulseCheck
  split
  · exact hm
  · split
    · exact Mach.diGone_canonical (Mach.updDi_canonical hm)
    · refine canonical_foldl (fun y k hy => ?_) _ hm
      split
      · exact Mach.updDi_canonical hy
      · split
        · exact Mach.windowJudge_canonical hy
        · exact hy

theorem Mach.diSeen_canonical {ch m} (hm : canonical m) : canonical (Mach.diSeen ch m) := by
  unfold Mach.diSeen
  grind -linarith [canonical_mk, Mach.updDi_canonical]

theorem Mach.diCount_canonical {ch n up m} (hm : canonical m) : canonical (Mach.diCount ch n up m) := by
  unfold Mach.diCount
  grind -linarith [canonical_mk, Mach.updDi_canonical, Mach.diLevel_canonical, Mach.diValid_canonical]

theorem inputRawSample_canonical {ch mV m} (hm : canonical m) : canonical (inputRawSample ch mV m) := by
  unfold inputRawSample
  grind -linarith [canonical_mk, Mach.updDi_canonical, Mach.pulseCheck_canonical, Mach.diCount_canonical, Mach.diSeen_canonical]

theorem couplerFrame_canonical {ch ok m} (hm : canonical m) : canonical (couplerFrame ch ok m) := by
  unfold couplerFrame
  grind -linarith [canonical_mk, Mach.updDi_canonical, Mach.updLanes_canonical]

theorem lineConductance_canonical {ch c m} (hm : canonical m) : canonical (lineConductance ch c m) := by
  unfold lineConductance
  grind -linarith [canonical_mk, Mach.updDi_canonical, Mach.diGone_canonical, Mach.diFault_canonical]

theorem darkWindow_canonical {k readsHigh ma m} (hm : canonical m) : canonical (darkWindow k readsHigh ma m) := by
  unfold darkWindow
  grind -linarith [canonical_mk, Mach.updPs_canonical]

theorem pulseSourceFault_canonical {k c m} (hm : canonical m) : canonical (pulseSourceFault k c m) := by
  unfold pulseSourceFault
  split
  · exact hm
  · split
    · exact hm
    · exact canonical_foldl (fun _ _ h => Mach.diFault_canonical h) _ (Mach.raise_canonical (Mach.updPs_canonical hm))

theorem pulseSourceRetry_canonical {k gone m} (hm : canonical m) : canonical (pulseSourceRetry k gone m) := by
  unfold pulseSourceRetry
  split
  · exact hm
  · split
    · exact hm
    · split
      · exact canonical_foldl (fun _ _ h => Mach.diGone_canonical h) _ (Mach.updPs_canonical hm)
      · exact Mach.updPs_canonical hm

theorem comparatorTest_canonical {ch first second m} (hm : canonical m) : canonical (comparatorTest ch first second m) := by
  unfold comparatorTest
  grind -linarith [canonical_mk, Mach.updDi_canonical, Mach.diFault_canonical]

theorem Mach.refitDi_canonical {old ch m} (hm : canonical m) : canonical (Mach.refitDi old ch m) := by
  unfold Mach.refitDi
  grind -linarith [canonical_mk, Mach.updDi_canonical, Mach.diGone_canonical, Mach.diFault_canonical]

theorem Mach.encInvalid_canonical {m} (hm : canonical m) : canonical (Mach.encInvalid m) := by
  unfold Mach.encInvalid
  grind -linarith [canonical_mk, Mach.raise_canonical, Mach.updEnc_canonical, Mach.diFault_canonical]

theorem encoderEdge_canonical {a b m} (hm : canonical m) : canonical (encoderEdge a b m) := by
  unfold encoderEdge
  grind -linarith [canonical_mk, Mach.updEnc_canonical, Mach.encInvalid_canonical]

theorem encoderSpeedUpdate_canonical {m} (hm : canonical m) : canonical (encoderSpeedUpdate m) :=
  canonical_ite hm hm

theorem encoderRevalid_canonical {m} (hm : canonical m) : canonical (encoderRevalid m) := by
  unfold encoderRevalid
  grind -linarith [canonical_mk, Mach.updEnc_canonical, Mach.diValid_canonical, Mach.updDi_canonical]

theorem Mach.aiFault_canonical {ch code latch m} (hm : canonical m) : canonical (Mach.aiFault ch code latch m) := by
  unfold Mach.aiFault
  grind -linarith [canonical_mk, Mach.updAi_canonical, Mach.raise_canonical, Mach.noteIn_canonical]

theorem Mach.aiGone_canonical {ch codes m} (hm : canonical m) : canonical (Mach.aiGone ch codes m) :=
  canonical_mk hm rfl

theorem Mach.aiInRange_canonical {ch m} (hm : canonical m) : canonical (Mach.aiInRange ch m) := by
  unfold Mach.aiInRange
  grind -linarith [canonical_mk, Mach.aiGone_canonical, Mach.raise_canonical, Mach.updAi_canonical]

theorem Mach.aiSeen_canonical {ch m} (hm : canonical m) : canonical (Mach.aiSeen ch m) := by
  unfold Mach.aiSeen
  grind -linarith [canonical_mk, Mach.updAi_canonical]

theorem analogueConversion_canonical {ch code m} (hm : canonical m) : canonical (analogueConversion ch code m) := by
  unfold analogueConversion
  grind -linarith [canonical_mk, Mach.updAi_canonical, Mach.aiGone_canonical, Mach.aiFault_canonical, Mach.aiInRange_canonical,
    Mach.aiSeen_canonical]

theorem analogueReferenceCheck_canonical {ch high r m} (hm : canonical m) : canonical (analogueReferenceCheck ch high r m) := by
  unfold analogueReferenceCheck
  grind -linarith [canonical_mk, Mach.updAi_canonical, Mach.raise_canonical, Mach.aiFault_canonical]

theorem inputFaultClear_canonical {kind ch m} (hm : canonical m) : canonical (inputFaultClear kind ch m) := by
  unfold inputFaultClear
  grind -linarith [canonical_mk, Mach.updDi_canonical, Mach.diRestart_canonical, Mach.updAi_canonical]

/-! ### Functions of Machine/NetTake -/

theorem Mach.updEntries_canonical {i p f m} (hm : canonical m) : canonical (Mach.updEntries i p f m) :=
  updRing_canonical hm

theorem Mach.noteRing_canonical {i src p0 p1 m} (hm : canonical m) : canonical (Mach.noteRing i src p0 p1 m) :=
  canonical_mk hm rfl

theorem Mach.checkIn_canonical {l ctx lost check m} (hlost : ∀ m, canonical m → canonical (lost m))
    (hcheck : ∀ m, canonical m → canonical (check m)) (hm : canonical m) : canonical (Mach.checkIn l ctx lost check m) := by
  unfold Mach.checkIn
  grind -linarith [canonical_mk, Mach.updLane_canonical]

theorem Mach.ringCheck_canonical {l i j e f m} (hm : canonical m) : canonical (Mach.ringCheck l i j e f m) := by
  unfold Mach.ringCheck
  grind -linarith [canonical_mk, Mach.updLane_canonical, Mach.updEntries_canonical, Mach.raise_canonical]

theorem Mach.ringTimeout_canonical {l i j k e m} (hm : canonical m) : canonical (Mach.ringTimeout l i j k e m) := by
  unfold Mach.ringTimeout
  grind -linarith [canonical_mk, Mach.updLane_canonical, Mach.noteRing_canonical, Mach.raise_canonical, Mach.updEntries_canonical]

theorem Mach.ringTake_canonical {l i m} (hm : canonical m) : canonical (Mach.ringTake l i m) := by
  unfold Mach.ringTake
  extract_lets es t0 since y
  have hy : canonical y := by
    subst y
    split
    · exact Mach.updRing_canonical hm
    · exact hm
  refine canonical_foldl (fun z q hz => ?_) _ hy
  split
  · exact hz
  · refine Mach.ringTimeout_canonical ?_
    split
    · split
      · exact hz
      · exact Mach.checkIn_canonical (fun _ h => Mach.updLane_canonical h) (fun _ h => Mach.ringCheck_canonical h) hz
    · exact hz

theorem Mach.jxtCheck_canonical {l k c ws serial m} (hm : canonical m) : canonical (Mach.jxtCheck l k c ws serial m) := by
  unfold Mach.jxtCheck
  grind -linarith [canonical_mk, Mach.updLane_canonical, Mach.noteJxt_canonical, Mach.raise_canonical, Mach.jxtLast_canonical,
    Mach.updConn_canonical]

theorem Mach.jxtTimeout_canonical {l k c m} (hm : canonical m) : canonical (Mach.jxtTimeout l k c m) := by
  unfold Mach.jxtTimeout
  grind -linarith [canonical_mk, Mach.updLane_canonical, Mach.updConn_canonical, Mach.noteJxt_canonical, Mach.raise_canonical,
    Mach.jxtLast_canonical]

theorem Mach.jxtTake_canonical {l m} (hm : canonical m) : canonical (Mach.jxtTake l m) := by
  refine canonical_foldl (fun z q hz => Mach.jxtTimeout_canonical ?_) _ hm
  split
  · exact Mach.checkIn_canonical (fun _ h => Mach.updLane_canonical h) (fun _ h => Mach.jxtCheck_canonical h) hz
  · exact Mach.updLane_canonical hz

theorem Mach.canCheck_canonical {l p b c f partner m} (hm : canonical m) : canonical (Mach.canCheck l p b c f partner m) := by
  unfold Mach.canCheck
  grind -linarith [canonical_mk, Mach.updLane_canonical, Mach.updCan_canonical, Mach.raise_canonical, Mach.noteCan_canonical]

theorem Mach.canTimeout_canonical {l p b c m} (hm : canonical m) : canonical (Mach.canTimeout l p b c m) := by
  unfold Mach.canTimeout
  grind -linarith [canonical_mk, Mach.updLane_canonical, Mach.updCan_canonical, Mach.noteCan_canonical, Mach.raise_canonical]

theorem Mach.canTake_canonical {l p m} (hm : canonical m) : canonical (Mach.canTake l p m) := by
  unfold Mach.canTake
  split
  · exact hm
  · refine canonical_foldl (fun z q hz => ?_) _ hm
    split
    · exact hz
    · refine Mach.canTimeout_canonical ?_
      split
      · exact Mach.checkIn_canonical (fun _ h => h) (fun _ h => Mach.canCheck_canonical h) (Mach.updLane_canonical hz)
      · exact Mach.updLane_canonical hz

theorem Mach.takeNetworks_canonical {l m} (hm : canonical m) : canonical (Mach.takeNetworks l m) := by
  unfold Mach.takeNetworks
  grind -linarith [canonical_mk, Mach.updLane_canonical, Mach.canTake_canonical, Mach.jxtTake_canonical, Mach.ringTake_canonical]

/-! ### Functions of Machine/Sampling -/

theorem Mach.updPf_canonical {j f m} (hm : canonical m) : canonical (Mach.updPf j f m) :=
  canonical_mk hm rfl

theorem Mach.formImage_canonical {l sd m} (hm : canonical m) : canonical (Mach.formImage l sd m) :=
  Mach.updLane_canonical (canonical_foldl (fun _ _ h => Mach.updPf_canonical h) _ hm)

theorem inputSample_canonical {l m} (hm : canonical m) : canonical (inputSample l m) := by
  unfold inputSample
  grind -linarith [canonical_mk, Mach.updLane_canonical, Mach.formImage_canonical, Mach.takeNetworks_canonical]

/-! ### Functions of Machine/Close -/

theorem Mach.notePf_canonical {j src m} (hm : canonical m) : canonical (Mach.notePf j src m) :=
  canonical_mk hm rfl

theorem Mach.pfChange_canonical {j old new m} (hm : canonical m) : canonical (Mach.pfChange j old new m) := by
  unfold Mach.pfChange
  grind -linarith [canonical_mk, Mach.notePf_canonical, Mach.raise_canonical, Mach.updPf_canonical]

theorem Mach.beginHandover_canonical {l m} (hm : canonical m) : canonical (Mach.beginHandover l m) :=
  canonical_ite hm hm

theorem runClose_canonical {l m} (hm : canonical m) : canonical (runClose l m) := by
  unfold runClose
  dsimp only
  split
  · exact hm
  · split
    · exact hm
    · split
      · exact Mach.copierFault_canonical hm
      · split
        · exact Mach.copierFault_canonical hm
        · have hover : ∀ f, canonical ((m.updLane l f).beginHandover l) :=
            fun f => Mach.beginHandover_canonical (Mach.updLane_canonical hm)
          split
          · refine canonical_foldl (fun _ _ h => Mach.pfChange_canonical h) _ ?_
            split
            · exact canonical_mk (hover _) rfl
            · exact hover _
          · exact hover _

theorem drivePeriodBoundary_canonical {l m} (hm : canonical m) : canonical (drivePeriodBoundary l m) := by
  unfold drivePeriodBoundary
  dsimp only
  split
  · exact hm
  · refine Mach.refreshPoles_canonical (canonical_foldl (fun _ _ h => Mach.updOut_canonical h) _ ?_)
    split
    · exact hm
    · exact Mach.updLane_canonical hm

/-! ### Functions of Machine/UpdateOps -/

theorem Mach.updUpd_canonical {f m} (hm : canonical m) : canonical (Mach.updUpd f m) :=
  canonical_mk hm rfl

theorem Mach.noteUpd_canonical {code p0 p1 m} (hm : canonical m) : canonical (Mach.noteUpd code p0 p1 m) :=
  canonical_ite hm hm

theorem Mach.beginTrial_canonical {k m} (hm : canonical m) : canonical (Mach.beginTrial k m) :=
  canonical_ite hm (canonical_ite (raise_canonical hm) (raise_canonical hm))

theorem Mach.commitTrial_canonical {m} (hm : canonical m) : canonical (Mach.commitTrial m) :=
  canonical_ite hm (canonical_ite (raise_canonical hm) (raise_canonical hm))

theorem Mach.endTrial_canonical {k cause m} (hm : canonical m) : canonical (Mach.endTrial k cause m) := by
  unfold Mach.endTrial
  grind -linarith [canonical_mk, Mach.raise_canonical, Mach.writeArea_canonical, Mach.updUpd_canonical, Mach.noteUpd_canonical]

theorem Mach.startRoll_canonical {back at0 m} (hm : canonical m) : canonical (Mach.startRoll back at0 m) :=
  canonical_mk hm rfl

/-! ### Functions of Machine/Modes -/

theorem Mach.updMod_canonical {f m} (hm : canonical m) : canonical (Mach.updMod f m) :=
  canonical_mk hm rfl

theorem Mach.updPair_canonical {f m} (hm : canonical m) : canonical (Mach.updPair f m) :=
  canonical_mk hm rfl

theorem Mach.updTest_canonical {f m} (hm : canonical m) : canonical (Mach.updTest f m) :=
  canonical_mk hm rfl

theorem Mach.driveOff_canonical {m} (hm : canonical m) : canonical (Mach.driveOff m) := by
  unfold Mach.driveOff
  grind -linarith [canonical_mk, Mach.forcedOffAll_canonical, Mach.updLanes_canonical]

theorem Mach.stopSending_canonical {m} (hm : canonical m) : canonical (Mach.stopSending m) :=
  canonical_mk hm rfl

theorem Mach.notePair_canonical {src p0 p1 m} (hm : canonical m) : canonical (Mach.notePair src p0 p1 m) :=
  canonical_mk hm rfl

theorem Mach.setRole_canonical {r m} (hm : canonical m) : canonical (Mach.setRole r m) :=
  canonical_ite hm (notePair_canonical (raise_canonical hm))

theorem Mach.backToJoin_canonical {m} (hm : canonical m) : canonical (Mach.backToJoin m) := by
  unfold Mach.backToJoin
  grind -linarith [canonical_mk, Mach.enterMode_canonical, Mach.setRole_canonical, Mach.driveOff_canonical, Mach.stopSending_canonical,
    Mach.updMod_canonical, Mach.updPair_canonical, Mach.notePair_canonical, Mach.raise_canonical]

theorem Mach.startTest_canonical {m} (hm : canonical m) : canonical (Mach.startTest m) :=
  canonical_mk hm rfl

theorem Mach.enterQuiesce_canonical {commanded m} (hm : canonical m) : canonical (Mach.enterQuiesce commanded m) := by
  unfold Mach.enterQuiesce
  grind -linarith [canonical_mk, Mach.enterMode_canonical, Mach.abandonTest_canonical, Mach.setRole_canonical, Mach.eraseToken_canonical,
    Mach.driveOff_canonical, Mach.stopSending_canonical, Mach.updLanes_canonical, Mach.startTest_canonical]

theorem Mach.enterDormant_canonical {m} (hm : canonical m) : canonical (Mach.enterDormant m) := by
  unfold Mach.enterDormant
  grind -linarith [canonical_mk, Mach.updMod_canonical, Mach.enterModeAt_canonical, Mach.portsOff_canonical, Mach.forcedOffAll_canonical,
    Mach.holdLanes_canonical]

theorem Mach.enterBoot_canonical {m} (hm : canonical m) : canonical (Mach.enterBoot m) := by
  unfold Mach.enterBoot
  grind -linarith [canonical_mk, Mach.endTrial_canonical, Mach.enterMode_canonical, Mach.portsOff_canonical, Mach.beginTrial_canonical,
    Mach.updUpd_canonical, Mach.updLanes_canonical, Mach.updMod_canonical, Mach.startTest_canonical, Mach.postPower_canonical]

theorem Mach.tryBoot_canonical {m} (hm : canonical m) : canonical (Mach.tryBoot m) :=
  canonical_ite (enterBoot_canonical hm) hm

theorem Mach.enterOutage_canonical {m} (hm : canonical m) : canonical (Mach.enterOutage m) := by
  unfold Mach.enterOutage
  grind -linarith [canonical_mk, Mach.updMod_canonical, Mach.enterMode_canonical, Mach.setRole_canonical, Mach.driveOff_canonical,
    Mach.stopSending_canonical, Mach.noReference_canonical, Mach.updLanes_canonical]

theorem Mach.enterConfig_canonical {m} (hm : canonical m) : canonical (Mach.enterConfig m) := by
  unfold Mach.enterConfig
  grind -linarith [canonical_mk, Mach.enterMode_canonical, Mach.setRole_canonical, Mach.driveOff_canonical, Mach.stopSending_canonical,
    Mach.updLanes_canonical, Mach.updMod_canonical]

theorem Mach.reconfigure_canonical {m} (hm : canonical m) : canonical (Mach.reconfigure m) := by
  unfold Mach.reconfigure
  grind -linarith [canonical_mk, Mach.enterConfig_canonical, Mach.enterOutage_canonical]

theorem Mach.fallBack_canonical {k cause m} (hm : canonical m) : canonical (Mach.fallBack k cause m) := by
  unfold Mach.fallBack
  grind -linarith [canonical_mk, Mach.endTrial_canonical, Mach.startRoll_canonical, Mach.enterBoot_canonical, Mach.reconfigure_canonical]

theorem Mach.startSweep_canonical {c m} (hm : canonical m) : canonical (Mach.startSweep c m) :=
  canonical_ite hm hm

/-! ### Functions of Machine/PairOps -/

theorem Mach.refreshPartner_canonical {m} (hm : canonical m) : canonical (Mach.refreshPartner m) :=
  canonical_ite hm (canonical_ite (canonical_ite hm (raise_canonical hm)) hm)

theorem Mach.becomeLead_canonical {n m} (hm : canonical m) : canonical (Mach.becomeLead n m) := by
  unfold Mach.becomeLead
  grind -linarith [canonical_mk, Mach.enterModeAt_canonical, Mach.updPair_canonical, Mach.setRole_canonical]

theorem Mach.becomeShadow_canonical {n m} (hm : canonical m) : canonical (Mach.becomeShadow n m) := by
  unfold Mach.becomeShadow
  grind -linarith [canonical_mk, Mach.updPair_canonical, Mach.setRole_canonical, Mach.enterModeAt_canonical]

theorem Mach.joinExit_canonical {n m} (hm : canonical m) : canonical (Mach.joinExit n m) := by
  unfold Mach.joinExit
  grind -linarith [canonical_mk, Mach.becomeLead_canonical]

theorem Mach.shadowEntry_canonical {n m} (hm : canonical m) : canonical (Mach.shadowEntry n m) := by
  unfold Mach.shadowEntry
  grind -linarith [canonical_mk, Mach.becomeShadow_canonical, Mach.updPair_canonical]

theorem Mach.oldLeadOut_canonical {m} (hm : canonical m) : canonical (Mach.oldLeadOut m) := by
  unfold Mach.oldLeadOut
  grind -linarith [canonical_mk, Mach.enterOutage_canonical, Mach.beginTrial_canonical, Mach.updPair_canonical]

theorem Mach.swapRoles_canonical {n m} (hm : canonical m) : canonical (Mach.swapRoles n m) := by
  unfold Mach.swapRoles
  grind -linarith [canonical_mk, Mach.updPair_canonical, Mach.becomeShadow_canonical, Mach.becomeLead_canonical]

theorem Mach.countSight_canonical {n m} (hm : canonical m) : canonical (Mach.countSight n m) :=
  canonical_mk hm rfl

theorem Mach.linksLostYield_canonical {m} (hm : canonical m) : canonical (Mach.linksLostYield m) := by
  unfold Mach.linksLostYield
  grind -linarith [canonical_mk, Mach.updPair_canonical, Mach.backToJoin_canonical]

theorem Mach.leadLost_canonical {n m} (hm : canonical m) : canonical (Mach.leadLost n m) := by
  unfold Mach.leadLost
  grind -linarith [canonical_mk, Mach.becomeLead_canonical]

theorem Mach.judgeDigests_canonical {n m} (hm : canonical m) : canonical (Mach.judgeDigests n m) :=
  canonical_ite hm (canonical_ite hm hm)

theorem Mach.mirrorAbsent_canonical {n m} (hm : canonical m) : canonical (Mach.mirrorAbsent n m) := by
  unfold Mach.mirrorAbsent
  grind -linarith [canonical_mk, Mach.updPair_canonical, Mach.judgeDigests_canonical, Mach.backToJoin_canonical]

theorem Mach.dropPacket_canonical {m} (hm : canonical m) : canonical (Mach.dropPacket m) :=
  canonical_ite hm hm

theorem Mach.pairT0_canonical {n m} (hm : canonical m) : canonical (Mach.pairT0 n m) := by
  unfold Mach.pairT0
  grind -linarith [canonical_mk, Mach.oldLeadOut_canonical, Mach.shadowEntry_canonical, Mach.leadLost_canonical,
    Mach.linksLostYield_canonical, Mach.swapRoles_canonical, Mach.mirrorAbsent_canonical, Mach.dropPacket_canonical,
    Mach.countSight_canonical, Mach.refreshPartner_canonical]

/-! ### Functions of Machine/Pair -/

theorem Mach.linkOut_canonical {k m} (hm : canonical m) : canonical (Mach.linkOut k m) := by
  unfold Mach.linkOut
  grind -linarith [canonical_mk, Mach.updPair_canonical, Mach.refreshPartner_canonical, Mach.raise_canonical]

theorem Mach.linkError_canonical {k crossed m} (hm : canonical m) : canonical (Mach.linkError k crossed m) := by
  unfold Mach.linkError
  grind -linarith [canonical_mk, Mach.updPair_canonical, Mach.notePair_canonical, Mach.linkOut_canonical]

theorem Mach.linkTakes_canonical {k x f m} (hf : ∀ m, canonical m → canonical (f m)) (hm : canonical m) :
    canonical (Mach.linkTakes k x f m) := by
  unfold Mach.linkTakes
  grind -linarith [canonical_mk, Mach.linkError_canonical, Mach.updPair_canonical]

theorem Mach.sendStatus_canonical {k m} (hm : canonical m) : canonical (Mach.sendStatus k m) :=
  canonical_mk hm rfl

theorem Mach.takeStatus_canonical {f m} (hm : canonical m) : canonical (Mach.takeStatus f m) := by
  unfold Mach.takeStatus
  grind -linarith [canonical_mk, Mach.updPair_canonical, Mach.refreshPartner_canonical, Mach.backToJoin_canonical]

theorem Mach.countStatus_canonical {k m} (hm : canonical m) : canonical (Mach.countStatus k m) :=
  canonical_ite (updPair_canonical (raise_canonical hm)) hm

theorem pairStatusReceive_canonical {k f m} (hm : canonical m) : canonical (pairStatusReceive k f m) := by
  unfold pairStatusReceive
  grind -linarith [canonical_mk, Mach.linkTakes_canonical, Mach.takeStatus_canonical, Mach.countStatus_canonical]

theorem pairLinkTimeout_canonical {k m} (hm : canonical m) : canonical (pairLinkTimeout k m) := by
  unfold pairLinkTimeout
  grind -linarith [canonical_mk, Mach.linkOut_canonical, Mach.updPair_canonical]

theorem Mach.takeHalf_canonical {f m} (hm : canonical m) : canonical (Mach.takeHalf f m) :=
  canonical_ite hm hm

theorem mirrorFrameReceive_canonical {k f m} (hm : canonical m) : canonical (mirrorFrameReceive k f m) :=
  Mach.linkTakes_canonical (fun _ => Mach.takeHalf_canonical) hm

theorem Mach.packetTaken_canonical {c data m} (hm : canonical m) : canonical (Mach.packetTaken c data m) :=
  canonical_ite (raise_canonical hm) hm

theorem Mach.compareDigest_canonical {l equal m} (hm : canonical m) : canonical (Mach.compareDigest l equal m) :=
  canonical_ite hm (canonical_ite hm hm)

theorem mirrorTake_canonical {l m} (hm : canonical m) : canonical (mirrorTake l m) := by
  unfold mirrorTake
  extract_lets x first
  split
  · extract_lets id y data
    have hy : canonical y := Mach.updLane_canonical (Mach.updPair_canonical hm)
    (repeat' split)
    · exact hm
    · exact Mach.notePair_canonical (Mach.updPair_canonical hy)
    · exact hy
    · exact Mach.notePair_canonical (Mach.updPair_canonical hy)
    · exact hy
    · exact Mach.packetTaken_canonical (Mach.compareDigest_canonical (Mach.updLane_canonical hy))
    · exact Mach.compareDigest_canonical (Mach.updLane_canonical hy)
  · exact hm

theorem joinAloneLead_canonical {m} (hm : canonical m) : canonical (joinAloneLead m) := by
  unfold joinAloneLead
  grind -linarith [canonical_mk, Mach.refreshPartner_canonical, Mach.updPair_canonical]

/-! ### Functions of Machine/FieldSupply -/

theorem Mach.publishFsm_canonical {m} (hm : canonical m) : canonical (Mach.publishFsm m) :=
  canonical_ite hm hm

theorem thresholdUpdate_canonical {m} (hm : canonical m) : canonical (thresholdUpdate m) := by
  unfold thresholdUpdate
  grind -linarith [canonical_mk, Mach.updFsm_canonical, Mach.postField_canonical, Mach.raise_canonical]

theorem fieldSupplySample_canonical {v m} (hm : canonical m) : canonical (fieldSupplySample v m) := by
  unfold fieldSupplySample
  grind -linarith [canonical_mk, Mach.updFsm_canonical, Mach.updField_canonical, Mach.raise_canonical, Mach.refreshPoles_canonical,
    Mach.publishFsm_canonical]

theorem fsLow_canonical {m} (hm : canonical m) : canonical (fsLow m) :=
  canonical_ite (Mach.postField_canonical (Mach.raise_canonical hm)) hm

theorem Mach.fieldHold_canonical {m} (hm : canonical m) : canonical (Mach.fieldHold m) := by
  refine Mach.publishFsm_canonical (Mach.outHold_canonical (Mach.postField_canonical (Mach.raise_canonical
    (Mach.updFsm_canonical (Mach.updEnc_canonical ?_)))))
  have hinputs := canonical_foldl (f := fun m ch => Mach.aiFault ch 7 false m) (fun _ _ h => Mach.aiFault_canonical h) (List.range 8)
    (canonical_foldl (f := fun m ch => Mach.diFault ch 7 false m) (fun _ _ h => Mach.diFault_canonical h) (List.range 48) hm)
  split
  · exact Mach.raise_canonical hinputs
  · exact hinputs

theorem fsSag_canonical {m} (hm : canonical m) : canonical (fsSag m) := by
  unfold fsSag
  grind -linarith [canonical_mk, Mach.fieldHold_canonical, Mach.updFsm_canonical]

theorem fsRev_canonical {m} (hm : canonical m) : canonical (fsRev m) := by
  unfold fsRev
  grind -linarith [canonical_mk, Mach.fieldHold_canonical, Mach.updFsm_canonical]

theorem fsHigh_canonical {m} (hm : canonical m) : canonical (fsHigh m) := by
  unfold fsHigh
  grind -linarith [canonical_mk, Mach.fieldHold_canonical, Mach.updFsm_canonical]

theorem fsRelease_canonical {m} (hm : canonical m) : canonical (fsRelease m) := by
  unfold fsRelease
  dsimp only
  split
  · refine Mach.publishFsm_canonical (Mach.outRelease_canonical (Mach.raise_canonical
      (canonical_foldl (fun _ _ h => Mach.updAi_canonical h) _ ?_)))
    exact canonical_foldl (fun _ _ h => Mach.diRestart_canonical (Mach.updDi_canonical h)) _ (Mach.updFsm_canonical hm)
  · exact hm

theorem fsmFreezeEnd_canonical {m} (hm : canonical m) : canonical (fsmFreezeEnd m) :=
  canonical_ite hm hm

theorem Mach.freezeFsm_canonical {cycle m} (hm : canonical m) : canonical (Mach.freezeFsm cycle m) :=
  canonical_ite hm hm

/-! ### Functions of Machine/RingOps -/

theorem Mach.updPort_canonical {i d f m} (hm : canonical m) : canonical (Mach.updPort i d f m) :=
  updRing_canonical hm

theorem Mach.updRest_canonical {i d f m} (hm : canonical m) : canonical (Mach.updRest i d f m) :=
  updRing_canonical hm

theorem Mach.updRests_canonical {i f m} (hm : canonical m) : canonical (Mach.updRests i f m) :=
  updRest_canonical (updRest_canonical hm)

theorem Mach.updEntry_canonical {i k f m} (hm : canonical m) : canonical (Mach.updEntry i k f m) :=
  updRing_canonical hm

theorem Mach.syncLost_canonical {i m} (hm : canonical m) : canonical (Mach.syncLost i m) :=
  noteRing_canonical (raise_canonical (updRing_canonical hm))

theorem Mach.leaveRing_canonical {i m} (hm : canonical m) : canonical (Mach.leaveRing i m) :=
  noteRing_canonical (raise_canonical (updRing_canonical hm))

theorem Mach.syncGained_canonical {i m} (hm : canonical m) : canonical (Mach.syncGained i m) :=
  raise_canonical hm

theorem Mach.lanesFollow_canonical {i f m} (hm : canonical m) : canonical (Mach.lanesFollow i f m) :=
  canonical_ite hm hm

theorem Mach.restCut_canonical {i d slot refused m} (hm : canonical m) : canonical (Mach.restCut i d slot refused m) :=
  canonical_ite (raise_canonical (updRest_canonical hm)) (leaveRing_canonical (updRest_canonical (raise_canonical (updRest_canonical hm))))

theorem Mach.putFrame_canonical {i d f m} (hm : canonical m) : canonical (Mach.putFrame i d f m) :=
  updRing_canonical (updPort_canonical hm)

theorem Mach.passFrame_canonical {i d slot cut f m} (hm : canonical m) : canonical (Mach.passFrame i d slot cut f m).1 := by
  unfold Mach.passFrame
  grind -linarith [canonical_mk, Mach.updRest_canonical, Mach.putFrame_canonical, Mach.restCut_canonical, Mach.updPort_canonical]

theorem Mach.insertFrame_canonical {i c slot e f m} (hm : canonical m) : canonical (Mach.insertFrame i c slot e f m).1 := by
  unfold Mach.insertFrame
  grind -linarith [canonical_mk, Mach.restCut_canonical, Mach.updPort_canonical, Mach.passFrame_canonical]

theorem Mach.insertRef_canonical {i c f m} (hm : canonical m) : canonical (Mach.insertRef i c f m).1 := by
  unfold Mach.insertRef
  grind -linarith [canonical_mk, Mach.restCut_canonical, Mach.passFrame_canonical, Mach.updRest_canonical]

theorem Mach.dropAged_canonical {i c cycle m} (hm : canonical m) : canonical (Mach.dropAged i c cycle m) :=
  canonical_ite hm (raise_canonical (updRing_canonical hm))

theorem Mach.dropAllAged_canonical {cycle m} (hm : canonical m) : canonical (Mach.dropAllAged cycle m) := by
  unfold Mach.dropAllAged
  grind -linarith [canonical_mk, Mach.dropAged_canonical]

/-! ### Functions of Machine/RingFrames -/

theorem Mach.sendOn_canonical {i d f aborted res start m} (hm : canonical m) : canonical (Mach.sendOn i d f aborted res start m) :=
  updPort_canonical (canonical_ite (updPort_canonical hm) hm)

theorem Mach.noteError_canonical {i d m} (hm : canonical m) : canonical (Mach.noteError i d m) :=
  updPort_canonical hm

theorem Mach.cutHere_canonical {i d f k m} (hm : canonical m) : canonical (Mach.cutHere i d f k m) :=
  noteRing_canonical (raise_canonical (updPort_canonical (updPort_canonical hm)))

theorem Mach.forward_canonical {i d f m} (hm : canonical m) : canonical (Mach.forward i d f m) := by
  unfold Mach.forward
  grind -linarith [canonical_mk, Mach.cutHere_canonical, Mach.updPort_canonical, Mach.updRing_canonical, Mach.bumpFree_canonical,
    Mach.sendOn_canonical]

theorem insertionBufferDrain_canonical {i m} (hm : canonical m) : canonical (insertionBufferDrain i m) := by
  unfold insertionBufferDrain
  grind -linarith [canonical_mk, Mach.updRing_canonical, Mach.sendOn_canonical, Mach.raise_canonical, Mach.updRest_canonical]

theorem Mach.strip_canonical {i d f m} (hm : canonical m) : canonical (Mach.strip i d f m) := by
  unfold Mach.strip
  grind -linarith [canonical_mk, Mach.updPort_canonical, Mach.updRing_canonical, Mach.updRests_canonical, Mach.syncGained_canonical]

theorem Mach.noteTaken_canonical {i f m} (hm : canonical m) : canonical (Mach.noteTaken i f m) :=
  updRing_canonical hm

theorem Mach.judgeFrame_canonical {i c d f m} (hm : canonical m) : canonical (Mach.judgeFrame i c d f m) := by
  unfold Mach.judgeFrame
  grind -linarith [canonical_mk, Mach.updEntry_canonical, Mach.noteRing_canonical, Mach.updRing_canonical, Mach.noteTaken_canonical]

theorem Mach.sight_canonical {c f m} (hm : canonical m) : canonical (Mach.sight c f m) :=
  canonical_ite hm hm

theorem Mach.receive_canonical {i c d f m} (hm : canonical m) : canonical (Mach.receive i c d f m) :=
  canonical_ite (updRing_canonical hm) (judgeFrame_canonical (canonical_ite (updRing_canonical (updRing_canonical hm)) hm))

theorem ringFrameArrive_canonical {i d f m} (hm : canonical m) : canonical (ringFrameArrive i d f m) := by
  unfold ringFrameArrive
  grind -linarith [canonical_mk, Mach.updRing_canonical, Mach.noteError_canonical, Mach.strip_canonical, Mach.sight_canonical,
    Mach.updPort_canonical, Mach.forward_canonical, Mach.receive_canonical]

theorem Mach.settleEntry_canonical {i k e group basic m} (hm : canonical m) : canonical (Mach.settleEntry i k e group basic m) := by
  unfold Mach.settleEntry
  grind -linarith [canonical_mk, Mach.updRing_canonical, Mach.updEntry_canonical, Mach.noteRing_canonical, Mach.raise_canonical]

theorem ringEntrySettle_canonical {i k m} (hm : canonical m) : canonical (ringEntrySettle i k m) := by
  unfold ringEntrySettle
  grind -linarith [canonical_mk, Mach.settleEntry_canonical]

/-! ### Functions of Machine/RingSend -/

theorem toolRestWindowOpen_canonical {i d k m} (hm : canonical m) : canonical (toolRestWindowOpen i d k m) := by
  unfold toolRestWindowOpen
  grind -linarith [canonical_mk, Mach.updRest_canonical]

theorem toolRestWindowClose_canonical {i d k m} (hm : canonical m) : canonical (toolRestWindowClose i d k m) := by
  unfold toolRestWindowClose
  grind -linarith [canonical_mk, Mach.updRest_canonical, Mach.restCut_canonical, Mach.updPort_canonical]

theorem toolRestReopen_canonical {i d m} (hm : canonical m) : canonical (toolRestReopen i d m) :=
  canonical_ite (Mach.updRest_canonical hm) hm

theorem Mach.silentWindow_canonical {i k basic m} (hm : canonical m) : canonical (Mach.silentWindow i k basic m) :=
  updEntry_canonical hm

theorem exclusiveWindowSend_canonical {i k m} (hm : canonical m) : canonical (exclusiveWindowSend i k m) := by
  unfold exclusiveWindowSend
  grind -linarith [canonical_mk, Mach.silentWindow_canonical, Mach.updEntry_canonical, Mach.insertFrame_canonical]

theorem arbitratingWindow_canonical {i k m} (hm : canonical m) : canonical (arbitratingWindow i k m) := by
  unfold arbitratingWindow
  grind -linarith [canonical_mk, Mach.dropAged_canonical, Mach.insertFrame_canonical, Mach.updRing_canonical, Mach.updEntry_canonical]

theorem joinFrameSend_canonical {i k returned m} (hm : canonical m) : canonical (joinFrameSend i k returned m) := by
  unfold joinFrameSend
  grind -linarith [canonical_mk, Mach.updEntry_canonical, Mach.insertFrame_canonical, Mach.updRests_canonical, Mach.updRing_canonical,
    Mach.noteRing_canonical, Mach.postCal_canonical]

theorem interfaceActive_canonical {i m} (hm : canonical m) : canonical (interfaceActive i m) := by
  unfold interfaceActive
  grind -linarith [canonical_mk, Mach.updRing_canonical]

/-! ### Functions of Machine/RingTime -/

theorem Mach.updRec_canonical {f m} (hm : canonical m) : canonical (Mach.updRec f m) :=
  canonical_mk hm rfl

theorem Mach.advanceStime_canonical {start m} (hm : canonical m) : canonical (Mach.advanceStime start m) :=
  canonical_mk hm rfl

theorem Mach.applyTimeSet_canonical {start m} (hm : canonical m) : canonical (Mach.applyTimeSet start m) := by
  unfold Mach.applyTimeSet
  split
  · split
    · exact Mach.updRec_canonical hm
    · exact hm
  · exact hm

theorem Mach.slaveFollows_canonical {i basic refStart m} (hm : canonical m) : canonical (Mach.slaveFollows i basic refStart m) :=
  canonical_ite (updRing_canonical hm) hm

theorem Mach.sendRef_canonical {i c typ tb m} (hm : canonical m) : canonical (Mach.sendRef i c typ tb m) := by
  unfold Mach.sendRef
  grind -linarith [canonical_mk, Mach.advanceStime_canonical, Mach.applyTimeSet_canonical, Mach.insertRef_canonical,
    Mach.updRing_canonical, Mach.slaveFollows_canonical, Mach.lanesFollow_canonical]

theorem Mach.newMaster_canonical {i node copy rank m} (hm : canonical m) : canonical (Mach.newMaster i node copy rank m) :=
  canonical_ite (updRing_canonical hm) (canonical_ite (updRing_canonical hm) (noteRing_canonical (raise_canonical (updRing_canonical
    (updRing_canonical hm)))))

theorem referenceSend_canonical {i m} (hm : canonical m) : canonical (referenceSend i m) := by
  unfold referenceSend
  grind -linarith [canonical_mk, Mach.newMaster_canonical, Mach.updRing_canonical, Mach.sendRef_canonical]

theorem successionReference_canonical {i m} (hm : canonical m) : canonical (successionReference i m) := by
  unfold successionReference
  grind -linarith [canonical_mk, Mach.newMaster_canonical, Mach.updRing_canonical, Mach.sendRef_canonical]

theorem Mach.takeStime_canonical {i f start m} (hm : canonical m) : canonical (Mach.takeStime i f start m) :=
  canonical_ite (updRing_canonical hm) (updRing_canonical hm)

theorem Mach.yieldMaster_canonical {i c f m} (hm : canonical m) : canonical (Mach.yieldMaster i c f m) :=
  canonical_ite (updRing_canonical hm) hm

theorem Mach.followRef_canonical {i f refStart step m} (hm : canonical m) : canonical (Mach.followRef i f refStart step m) :=
  takeStime_canonical (slaveFollows_canonical (canonical_ite (noteTaken_canonical hm) (noteTaken_canonical hm)))

theorem Mach.takeRef_canonical {i c f again tb refStart m} (hm : canonical m) : canonical (Mach.takeRef i c f again tb refStart m) := by
  unfold Mach.takeRef
  grind -linarith [canonical_mk, Mach.newMaster_canonical, Mach.yieldMaster_canonical, Mach.updRing_canonical, Mach.followRef_canonical,
    Mach.syncLost_canonical]

theorem Mach.firstRef_canonical {i c f refStart m} (hm : canonical m) : canonical (Mach.firstRef i c f refStart m) :=
  syncGained_canonical (followRef_canonical (updRing_canonical (newMaster_canonical hm)))

theorem referenceAccept_canonical {i d f m} (hm : canonical m) : canonical (referenceAccept i d f m) := by
  unfold referenceAccept
  grind -linarith [canonical_mk, Mach.updRests_canonical, Mach.updRing_canonical, Mach.noteTaken_canonical, Mach.firstRef_canonical,
    Mach.takeRef_canonical]

theorem referenceMissed_canonical {i m} (hm : canonical m) : canonical (referenceMissed i m) := by
  unfold referenceMissed
  grind -linarith [canonical_mk, Mach.updRests_canonical, Mach.noteRing_canonical, Mach.updRing_canonical, Mach.syncLost_canonical]

theorem coldstartListenEnd_canonical {i m} (hm : canonical m) : canonical (coldstartListenEnd i m) := by
  unfold coldstartListenEnd
  grind -linarith [canonical_mk, Mach.updRing_canonical, Mach.sendRef_canonical]

theorem coldstartCollision_canonical {i m} (hm : canonical m) : canonical (coldstartCollision i m) := by
  unfold coldstartCollision
  grind -linarith [canonical_mk, Mach.noteRing_canonical, Mach.updRing_canonical, Mach.postCal_canonical]

theorem coldstartBackoffEnd_canonical {i m} (hm : canonical m) : canonical (coldstartBackoffEnd i m) := by
  unfold coldstartBackoffEnd
  grind -linarith [canonical_mk, Mach.updRing_canonical]

/-! ### Functions of Machine/PageRead -/

theorem Page.clearWord_canonical {p sel off m} (hm : canonical m) : canonical (Page.clearWord p sel off m) := by
  unfold Page.clearWord
  grind -linarith [canonical_mk, Mach.updFsm_canonical, Mach.updOut_canonical, Mach.updHost_canonical, Mach.updMnt_canonical,
    Mach.updBench_canonical]

theorem Mach.markSeen_canonical {s p sel off count m} (hm : canonical m) : canonical (Mach.markSeen s p sel off count m) := by
  unfold Mach.markSeen
  grind -linarith [canonical_mk, Mach.updSession_canonical]

theorem Mach.clearRead_canonical {x a count m} (hm : canonical m) : canonical (Mach.clearRead x a count m) := by
  unfold Mach.clearRead
  split
  · exact canonical_foldl (fun _ _ h => Page.clearWord_canonical h) _ hm
  · exact hm

theorem Mach.readEffects_canonical {s x a count m} (hm : canonical m) : canonical (Mach.readEffects s x a count m) := by
  unfold Mach.readEffects
  grind -linarith [canonical_mk, Mach.clearRead_canonical, Mach.markSeen_canonical]

theorem Mach.sendAnswer_canonical {k r m} (hm : canonical m) : canonical (Mach.sendAnswer k r m) :=
  canonical_mk hm rfl

theorem Mach.serveAsked_canonical {m} (hm : canonical m) : canonical (Mach.serveAsked m) := by
  unfold Mach.serveAsked
  grind -linarith [canonical_mk, Mach.sendAnswer_canonical, Mach.updPair_canonical, Mach.clearRead_canonical]

/-! ### Functions of Machine/Recorder -/

theorem Mach.benchTick_canonical {m} (hm : canonical m) : canonical (Mach.benchTick m) := by
  unfold Mach.benchTick
  grind -linarith [canonical_mk, Mach.ecAdd_canonical, Mach.serveAsked_canonical, Mach.updRec_canonical]

theorem Mach.recLost_canonical {src f m} (hm : canonical m) : canonical (Mach.recLost src f m) :=
  canonical_ite (raise_canonical hm) (canonical_ite (raise_canonical (raise_canonical hm)) (raise_canonical hm))

theorem Mach.keepRec_canonical {x stay m} (hm : canonical m) : canonical (Mach.keepRec x stay m) := by
  unfold Mach.keepRec
  grind -linarith [canonical_mk, Mach.updRec_canonical, Mach.recLost_canonical, Mach.ecCount_canonical]

theorem Mach.ownRec_canonical {code p0 p1 m} (hm : canonical m) : canonical (Mach.ownRec code p0 p1 m) :=
  keepRec_canonical hm

theorem Mach.limitRec_canonical {n m} (hm : canonical m) : canonical (Mach.limitRec n m) := by
  unfold Mach.limitRec
  grind -linarith [canonical_mk, Mach.updRec_canonical, Mach.keepRec_canonical, Mach.ecCount_canonical]

theorem Mach.record_canonical {n m} (hm : canonical m) : canonical (Mach.record n m) := by
  refine Mach.limitRec_canonical ?_
  have hcounted := canonical_foldl (f := fun m (q : Byte × Byte) => Mach.ecCount q.1 q.2 m) (fun _ _ h => Mach.ecCount_canonical h) n.ec hm
  split
  · exact Mach.updRec_canonical hcounted
  · exact hcounted

theorem Mach.benchTake_canonical {n m} (hm : canonical m) : canonical (Mach.benchTake n m) := by
  unfold Mach.benchTake
  grind -linarith [canonical_mk, Mach.record_canonical, Mach.updRec_canonical]

theorem Mach.benchNote_canonical {code path p0 p1 ec m} (hm : canonical m) : canonical (Mach.benchNote code path p0 p1 ec m) :=
  canonical_ite hm (record_canonical hm)

theorem Mach.postRest_canonical {i d n m} (hm : canonical m) : canonical (Mach.postRest i d n m) :=
  updRest_canonical hm

theorem Mach.postUnit_canonical {n m} (hm : canonical m) : canonical (Mach.postUnit n m) := by
  unfold Mach.postUnit
  grind -linarith [canonical_mk, Mach.postLane_canonical, Mach.postRest_canonical, Mach.postField_canonical, Mach.postCal_canonical,
    Mach.postModule_canonical]

theorem Mach.takeQueue_canonical {take q path m} (htake : ∀ n m, canonical m → canonical (take n m)) (hm : canonical m) :
    canonical (Mach.takeQueue take q path m) := by
  have hitems := canonical_foldl (f := fun m n => take n m) (fun m n h => htake n m h) q.items hm
  unfold Mach.takeQueue
  dsimp only
  split
  · exact hitems
  · exact htake _ _ hitems

theorem Mach.drainRest_canonical {i d m} (hm : canonical m) : canonical (Mach.drainRest i d m) :=
  takeQueue_canonical (fun _ _ => record_canonical) (updRest_canonical hm)

theorem laneQueueDrain_canonical {src m} (hm : canonical m) : canonical (laneQueueDrain src m) := by
  unfold laneQueueDrain
  grind -linarith [canonical_mk, Mach.takeQueue_canonical, Mach.benchTake_canonical, Mach.updLane_canonical, Mach.record_canonical,
    Mach.drainRest_canonical]

theorem suppressedSummary_canonical {m} (hm : canonical m) : canonical (suppressedSummary m) := by
  unfold suppressedSummary
  split
  · exact hm
  · exact canonical_foldl (fun _ _ h => Mach.keepRec_canonical h) _ (Mach.updRec_canonical hm)

theorem Mach.newAnchor_canonical {t m} (hm : canonical m) : canonical (Mach.newAnchor t m) := by
  unfold Mach.newAnchor
  grind -linarith [canonical_mk, Mach.keepRec_canonical, Mach.updRec_canonical, Mach.ecCount_canonical, Mach.raise_canonical]

theorem anchor_canonical {m} (hm : canonical m) : canonical (anchor m) := by
  unfold anchor
  grind -linarith [canonical_mk, Mach.updRec_canonical, Mach.newAnchor_canonical]

theorem stimeOkLapse_canonical {m} (hm : canonical m) : canonical (stimeOkLapse m) :=
  canonical_ite hm hm

theorem Mach.flashFail_canonical {k m} (hm : canonical m) : canonical (Mach.flashFail k m) :=
  canonical_ite (raise_canonical hm) (canonical_ite (raise_canonical (raise_canonical hm)) (raise_canonical hm))

theorem Mach.roomBack_canonical {m} (hm : canonical m) : canonical (Mach.roomBack m) := by
  unfold Mach.roomBack
  grind -linarith [canonical_mk, Mach.ownRec_canonical, Mach.updRec_canonical]

theorem flashCommit_canonical {ok m} (hm : canonical m) : canonical (flashCommit ok m) := by
  unfold flashCommit
  grind -linarith [canonical_mk, Mach.roomBack_canonical, Mach.updRec_canonical, Mach.flashFail_canonical]

theorem Mach.eraseAhead_canonical {k m} (hm : canonical m) : canonical (Mach.eraseAhead k m) := by
  unfold Mach.eraseAhead
  grind -linarith [canonical_mk, Mach.ecCount_canonical, Mach.updRec_canonical]

theorem Mach.commitRec_canonical {x m} (hm : canonical m) : canonical (Mach.commitRec m x) := by
  unfold Mach.commitRec
  dsimp only
  refine Mach.updRec_canonical ?_
  split
  · cases m.bench.recd.nextSector with
    | none => exact hm
    | some k => exact Mach.eraseAhead_canonical hm
  · exact hm

theorem Mach.commitClosed_canonical {m} (hm : canonical m) : canonical (Mach.commitClosed m) :=
  canonical_foldl (fun _ _ h => Mach.commitRec_canonical h) _ hm

theorem sectorErase_canonical {ok m} (hm : canonical m) : canonical (sectorErase ok m) := by
  unfold sectorErase
  grind -linarith [canonical_mk, Mach.eraseAhead_canonical, Mach.flashFail_canonical]

theorem Mach.beginFreeze_canonical {s m} (hm : canonical m) : canonical (Mach.beginFreeze s m) :=
  canonical_ite hm hm

theorem Mach.endFreeze_canonical {timeout m} (hm : canonical m) : canonical (Mach.endFreeze timeout m) := by
  unfold Mach.endFreeze
  split
  · exact hm
  · extract_lets q lost y z w
    have hz : canonical z := canonical_foldl (fun _ _ h => Mach.keepRec_canonical h) _ (Mach.updRec_canonical hm)
    have hw : canonical w := by
      subst w
      split
      · exact hz
      · exact Mach.ownRec_canonical hz
    split
    · exact Mach.raise_canonical (Mach.ownRec_canonical hw)
    · exact hw

theorem freezeTimeout_canonical {m} (hm : canonical m) : canonical (freezeTimeout m) := by
  unfold freezeTimeout
  split
  · split
    · exact Mach.endFreeze_canonical hm
    · exact hm
  · exact hm

/-! ### Functions of Machine/Access -/

theorem Mach.authFail_canonical {ip m} (hm : canonical m) : canonical (Mach.authFail ip m) := by
  unfold Mach.authFail
  grind -linarith [canonical_mk, Mach.ecCount_canonical, Mach.updMnt_canonical, Mach.benchNote_canonical]

theorem Mach.reply_canonical {s r m} (hm : canonical m) : canonical (Mach.reply s r m) := by
  unfold Mach.reply
  grind -linarith [canonical_mk, Mach.answer_canonical, Mach.authFail_canonical]

theorem Mach.status_canonical {s c m} (hm : canonical m) : canonical (Mach.status s c m) :=
  reply_canonical hm

theorem Mach.closeSession_canonical {s m} (hm : canonical m) : canonical (Mach.closeSession s m) := by
  unfold Mach.closeSession
  grind -linarith [canonical_mk, Mach.updPair_canonical, Mach.updHost_canonical, Mach.updMnt_canonical]

theorem Mach.snapCounters_canonical {m} (hm : canonical m) : canonical (Mach.snapCounters m) :=
  raise_canonical hm

theorem Page.snap_canonical {p m} (hm : canonical m) : canonical (Page.snap p m) := by
  unfold Page.snap
  grind -linarith [canonical_mk, Mach.snapCounters_canonical, Mach.updLane_canonical]

theorem Page.snapDone_canonical {p m} (hm : canonical m) : canonical (Page.snapDone p m) := by
  unfold Page.snapDone
  grind -linarith [canonical_mk, Mach.raise_canonical, Mach.updLane_canonical]

theorem Mach.takeWords_canonical {s a count m} (hm : canonical m) : canonical (Mach.takeWords s a count m).2 :=
  readEffects_canonical hm

theorem Mach.sendRequest_canonical {a count m} (hm : canonical m) : canonical (Mach.sendRequest a count m) :=
  canonical_mk hm rfl

theorem Mach.queueRead_canonical {s a count m} (hm : canonical m) : canonical (Mach.queueRead s a count m) := by
  unfold Mach.queueRead
  grind -linarith [canonical_mk, Mach.sendRequest_canonical, Mach.updPair_canonical, Mach.status_canonical, Mach.updHost_canonical,
    Mach.updMntSess_canonical]

theorem Mach.sessionRead_canonical {s a count m} (hm : canonical m) : canonical (Mach.sessionRead s a count m) := by
  unfold Mach.sessionRead
  grind -linarith [canonical_mk, Mach.status_canonical, Mach.reply_canonical, Mach.takeWords_canonical, Mach.queueRead_canonical]

theorem Mach.endRead_canonical {s r e m} (hm : canonical m) : canonical (Mach.endRead s r e m) := by
  unfold Mach.endRead
  grind -linarith [canonical_mk, Mach.updHost_canonical, Mach.mntAnswer_canonical, Mach.updMntSess_canonical]

theorem Mach.tryRead_canonical {s r m} (hm : canonical m) : canonical (Mach.tryRead s r m) := by
  unfold Mach.tryRead
  grind -linarith [canonical_mk, Mach.endRead_canonical, Mach.readEffects_canonical]

/-! ### Functions of Machine/Commands -/

theorem Mach.completeCmd_canonical {outcome m} (hm : canonical m) : canonical (Mach.completeCmd outcome m) := by
  unfold Mach.completeCmd
  grind -linarith [canonical_mk, Mach.updMod_canonical, Mach.postModule_canonical, Mach.raise_canonical]

theorem Mach.issueCommand_canonical {code m} (hm : canonical m) : canonical (Mach.issueCommand code m) := by
  unfold Mach.issueCommand
  grind -linarith [canonical_mk, Mach.bumpFree_canonical, Mach.updMod_canonical, Mach.completeCmd_canonical]

theorem enrolOp_canonical {op m} (hm : canonical m) : canonical (enrolOp op m) := by
  unfold enrolOp
  grind -linarith [canonical_mk, Mach.updUpd_canonical]

theorem Mach.applyEnrol_canonical {m} (hm : canonical m) : canonical (Mach.applyEnrol m) := by
  unfold Mach.applyEnrol
  split
  · exact Mach.writeArea_canonical (Mach.updUpd_canonical (canonical_foldl (fun _ _ h => enrolOp_canonical h) _ hm))
  · exact hm

theorem Mach.enterCommissionMode_canonical {n m} (hm : canonical m) : canonical (Mach.enterCommissionMode n m) := by
  unfold Mach.enterCommissionMode
  grind -linarith [canonical_mk, Mach.startSweep_canonical, Mach.updField_canonical, Mach.updMod_canonical, Mach.enterModeAt_canonical]

theorem Mach.effect_canonical {n code m} (hm : canonical m) : canonical (Mach.effect n code m) := by
  unfold Mach.effect
  grind -linarith [canonical_mk, Mach.enterModeAt_canonical, Mach.enterCommissionMode_canonical, Mach.startSweep_canonical,
    Mach.updPair_canonical, Mach.enterQuiesce_canonical, Mach.updUpd_canonical, Mach.enterOutage_canonical, Mach.beginTrial_canonical,
    Mach.commitTrial_canonical, Mach.fallBack_canonical, Mach.applyEnrol_canonical]

theorem Mach.applyCommand_canonical {n m} (hm : canonical m) : canonical (Mach.applyCommand n m) := by
  unfold Mach.applyCommand
  grind -linarith [canonical_mk, Mach.completeCmd_canonical, Mach.updMod_canonical, Mach.effect_canonical]

theorem Mach.commandDone_canonical {l m} (hm : canonical m) : canonical (Mach.commandDone l m) := by
  unfold Mach.commandDone
  grind -linarith [canonical_mk, Mach.startRoll_canonical, Mach.updUpd_canonical, Mach.beginTrial_canonical, Mach.completeCmd_canonical]

/-! ### Functions of Machine/Transfer -/

theorem Mach.endUpdate_canonical {state result m} (hm : canonical m) : canonical (Mach.endUpdate state result m) :=
  raise_canonical hm

theorem Mach.updResult_canonical {r m} (hm : canonical m) : canonical (Mach.updResult r m).2 :=
  canonical_mk hm rfl

theorem Mach.updOpen_canonical {s kind mlen m} (hm : canonical m) : canonical (Mach.updOpen s kind mlen m).2 := by
  unfold Mach.updOpen
  grind -linarith [canonical_mk, Mach.updUpd_canonical]

theorem Mach.checkManifest_canonical {k m} (hm : canonical m) : canonical (Mach.checkManifest k m).2 := by
  unfold Mach.checkManifest
  grind -linarith [canonical_mk, Mach.endUpdate_canonical, Mach.benchNote_canonical, Mach.updResult_canonical, Mach.updUpd_canonical]

theorem Mach.takePart_canonical {off p data m} (hm : canonical m) : canonical (Mach.takePart off p data m).2 := by
  unfold Mach.takePart
  grind -linarith [canonical_mk, Mach.updUpd_canonical]

theorem Mach.updBlock_canonical {s off data crc writeOk m} (hm : canonical m) : canonical (Mach.updBlock s off data crc writeOk m).2 := by
  unfold Mach.updBlock
  dsimp only
  (repeat' split)
  iterate 9 exact Mach.updResult_canonical hm
  · exact Mach.checkManifest_canonical (Mach.updUpd_canonical hm)
  · exact Mach.updResult_canonical (Mach.updUpd_canonical hm)

theorem Mach.blockRequest_canonical {s off part data crc writeOk m} (hm : canonical m) :
    canonical (Mach.blockRequest s off part data crc writeOk m).2 := by
  unfold Mach.blockRequest
  grind -linarith [canonical_mk, Mach.updBlock_canonical, Mach.updResult_canonical, Mach.takePart_canonical]

theorem Mach.autoActivate_canonical {k m} (hm : canonical m) : canonical (Mach.autoActivate k m) := by
  unfold Mach.autoActivate
  grind -linarith [canonical_mk, Mach.updMod_canonical, Mach.beginTrial_canonical, Mach.applyEnrol_canonical, Mach.updUpd_canonical]

theorem Mach.verifyEnds_canonical {k ops m} (hm : canonical m) : canonical (Mach.verifyEnds k ops m).2 := by
  unfold Mach.verifyEnds
  grind -linarith [canonical_mk, Mach.endUpdate_canonical, Mach.updUpd_canonical, Mach.autoActivate_canonical, Mach.raise_canonical]

theorem Mach.recFreeze_canonical {s op m} (hm : canonical m) : canonical (Mach.recFreeze s op m).2 := by
  unfold Mach.recFreeze
  grind -linarith [canonical_mk, Mach.beginFreeze_canonical, Mach.endFreeze_canonical]

theorem Mach.carryOut_canonical {s num x m} (hm : canonical m) : canonical (Mach.carryOut s num x m).2 := by
  unfold Mach.carryOut
  grind -linarith [canonical_mk, Mach.recFreeze_canonical, Mach.updOpen_canonical, Mach.blockRequest_canonical, Mach.updUpd_canonical,
    Mach.endUpdate_canonical]

theorem Mach.collision_canonical {q m} (hm : canonical m) : canonical (Mach.collision m q) :=
  ecCount_canonical hm

/-- Words stored in the mailbox keep its form. -/
theorem Mach.updHost_store_canonical {kvs m} {f : HostPort → HostPort}
    (hf : (f m.bench.host).mailbox = memWrites 0 kvs m.bench.host.mailbox) (hm : canonical m) : canonical (Mach.updHost f m) :=
  canonical_withMailbox hm hf fun h => memWf_memWrites _ _ _ h

theorem Mach.benchMail_canonical {from0 ws m} (hm : canonical m) : canonical (Mach.benchMail from0 ws m) := by
  refine canonical_foldl (fun y q hy => ?_) _ hm
  dsimp only
  split
  · exact Mach.collision_canonical hy
  · exact Mach.updHost_store_canonical rfl hy

theorem Mach.mailReply_canonical {num typ e m} (hm : canonical m) : canonical (Mach.mailReply num typ e m) := by
  unfold Mach.mailReply
  grind -linarith [canonical_mk, Mach.benchMail_canonical, Mach.raise_canonical, Mach.updHost_canonical]

theorem Mach.finish_canonical {s num typ e m} (hm : canonical m) : canonical (Mach.finish s num typ e m) := by
  unfold Mach.finish
  grind -linarith [canonical_mk, Mach.mailReply_canonical, Mach.mntAnswer_canonical, Mach.authFail_canonical]

theorem Mach.serveTransfer_canonical {s num x m} (hm : canonical m) : canonical (Mach.serveTransfer s num x m) := by
  unfold Mach.serveTransfer
  grind -linarith [canonical_mk, Mach.finish_canonical, Mach.updUpd_canonical, Mach.carryOut_canonical]

theorem Mach.doorbell_canonical {v m} (hm : canonical m) : canonical (Mach.doorbell v m) := by
  have hset := Mach.updHost_store_canonical (kvs := m.bench.host.rewrite)
    (f := fun h => { h.store (m.now / 10) h.rewrite with h2b := v, rewrite := [] }) rfl hm
  unfold Mach.doorbell
  dsimp only
  split
  · exact Mach.mailReply_canonical hset
  · split
    · exact hset
    · split
      · exact hset
      · split
        · exact Mach.mailReply_canonical hset
        · exact Mach.serveTransfer_canonical hset

/-! ### Functions of Machine/RegWrite -/

theorem Page.clearIrq_canonical {p v m} (hm : canonical m) : canonical (Page.clearIrq p v m) :=
  canonical_withIrq hm fun h => memWf_memWrite _ _ _ _ h

theorem Mach.recOp_canonical {s v m} (hm : canonical m) : canonical (Mach.recOp s v m) :=
  canonical_ite (canonical_ite hm hm) (canonical_ite (endFreeze_canonical hm) hm)

theorem Mach.setTime_canonical {lo hi m} (hm : canonical m) : canonical (Mach.setTime lo hi m) :=
  canonical_mk hm rfl

theorem Page.writeWord_canonical {s lo off v p m} (hm : canonical m) : canonical (Page.writeWord s lo off v p m) := by
  unfold Page.writeWord
  grind -linarith [canonical_mk, Page.snap_canonical, Page.clearIrq_canonical, Mach.updSession_canonical, Mach.issueCommand_canonical,
    Mach.recOp_canonical, Mach.setTime_canonical, Mach.updBench_canonical, Mach.doorbell_canonical, Mach.eraseToken_canonical,
    Mach.endUpdate_canonical]

theorem Mach.burstEffect_canonical {s a data m} (hm : canonical m) : canonical (Mach.burstEffect s a data m) := by
  unfold Mach.burstEffect
  dsimp only
  split
  · exact canonical_foldl (fun _ _ h => Page.writeWord_canonical h) _ hm
  · exact hm

theorem Mach.settleSummaries_canonical {m} (hm : canonical m) : canonical (Mach.settleSummaries m) :=
  canonical_mk hm rfl

theorem Mach.hostWords_canonical {k0 ws m} (hm : canonical m) : canonical (Mach.hostWords k0 ws m) := by
  unfold Mach.hostWords
  extract_lets clk y
  have hy : canonical y := Mach.updHost_store_canonical rfl hm
  split
  · split
    · exact canonical_foldl (fun _ _ h => Mach.collision_canonical h) _ hy
    · exact hy
  · exact hy

theorem Mach.hostMail_canonical {a data m} (hm : canonical m) : canonical (Mach.hostMail a data m) :=
  Mach.updHost_canonical rfl (Mach.hostWords_canonical hm)

theorem Mach.writeBurst_canonical {s a data m} (hm : canonical m) : canonical (Mach.writeBurst s a data m) := by
  unfold Mach.writeBurst
  grind -linarith [canonical_mk, Mach.status_canonical, Mach.hostMail_canonical, Mach.settleSummaries_canonical, Mach.burstEffect_canonical]

theorem Mach.served_canonical {s f m} (hf : ∀ m, canonical m → canonical (f m)) (hm : canonical m) : canonical (Mach.served s f m) := by
  unfold Mach.served
  grind -linarith [canonical_mk, Mach.updHost_canonical]

theorem hostRegs_canonical {a data m} (hm : canonical m) : canonical (hostRegs a data m) :=
  canonical_ite (Mach.writeBurst_canonical (Mach.touch_canonical hm)) hm

theorem snapshotComplete_canonical {page m} (hm : canonical m) : canonical (snapshotComplete page m) := by
  unfold snapshotComplete
  grind -linarith [canonical_mk, Page.snapDone_canonical]

theorem commandUnserved_canonical {m} (hm : canonical m) : canonical (commandUnserved m) := by
  unfold commandUnserved
  grind -linarith [canonical_mk, Mach.completeCmd_canonical]

/-! ### Functions of Machine/HostPort -/

theorem Mach.sealFrame_canonical {pre withStatus m} (hm : canonical m) : canonical (Mach.sealFrame pre withStatus m) :=
  canonical_mk hm rfl

theorem hostFrame_canonical {pre withStatus f m} (hf : ∀ m, canonical m → canonical (f m)) (hm : canonical m) :
    canonical (hostFrame pre withStatus f m) := by
  unfold hostFrame
  grind -linarith [canonical_mk, Mach.served_canonical, Mach.sealFrame_canonical, Mach.touch_canonical]

theorem hostRead_canonical {addr count m} (hm : canonical m) : canonical (hostRead addr count m) :=
  hostFrame_canonical (fun _ => Mach.sessionRead_canonical) hm

theorem hostReadComplete_canonical {m} (hm : canonical m) : canonical (hostReadComplete m) := by
  unfold hostReadComplete
  grind -linarith [canonical_mk, Mach.tryRead_canonical]

theorem fetchRead_canonical {m} (hm : canonical m) : canonical (fetchRead m) := by
  unfold fetchRead
  grind -linarith [canonical_mk, Mach.reply_canonical, Mach.updHost_canonical, Mach.status_canonical]

theorem portStatus_canonical {m} (hm : canonical m) : canonical (portStatus m) :=
  canonical_mk hm rfl

theorem Mach.crcError_canonical {m} (hm : canonical m) : canonical (Mach.crcError m) :=
  canonical_mk hm rfl

theorem Mach.spoilMail_canonical {a n m} (hm : canonical m) : canonical (Mach.spoilMail a n m) :=
  Mach.updHost_canonical rfl (canonical_mk (Mach.hostWords_canonical hm) rfl)

theorem hostWrite_canonical {addr count data crc m} (hm : canonical m) : canonical (hostWrite addr count data crc m) := by
  unfold hostWrite
  grind -linarith [canonical_mk, Mach.crcError_canonical, Mach.spoilMail_canonical, Mach.status_canonical, Mach.touch_canonical,
    Mach.writeBurst_canonical]

theorem hostClose_canonical {crc m} (hm : canonical m) : canonical (hostClose crc m) := by
  unfold hostClose
  grind -linarith [canonical_mk, Mach.crcError_canonical, Mach.closeSession_canonical, Mach.touch_canonical]

theorem sessionTimeout_canonical {s m} (hm : canonical m) : canonical (sessionTimeout s m) := by
  unfold sessionTimeout
  split
  · split
    · dsimp only
      split
      · exact Mach.updHost_canonical rfl (Mach.closeSession_canonical hm)
      · exact Mach.closeSession_canonical hm
    · exact hm
  · exact hm

theorem Mach.endPartnerRead_canonical {e m} (hm : canonical m) : canonical (Mach.endPartnerRead e m) := by
  unfold Mach.endPartnerRead
  grind -linarith [canonical_mk, Mach.endRead_canonical, Mach.updPair_canonical]

theorem partnerReadTimeout_canonical {m} (hm : canonical m) : canonical (partnerReadTimeout m) := by
  unfold partnerReadTimeout
  split
  · split
    · exact Mach.endPartnerRead_canonical hm
    · exact hm
  · exact hm

theorem Mach.partnerAsks_canonical {k f m} (hm : canonical m) : canonical (Mach.partnerAsks k f m) := by
  unfold Mach.partnerAsks
  grind -linarith [canonical_mk, Mach.sendAnswer_canonical, Mach.serveAsked_canonical, Mach.updPair_canonical]

theorem Mach.benchTakes_canonical {k x f m} (hf : ∀ m, canonical m → canonical (f m)) (hm : canonical m) :
    canonical (Mach.benchTakes k x f m) :=
  linkTakes_canonical (fun m a => canonical_ite (hf m a) a) hm

theorem benchAccessRequest_canonical {k f m} (hm : canonical m) : canonical (benchAccessRequest k f m) :=
  Mach.benchTakes_canonical (fun _ => Mach.partnerAsks_canonical) hm

theorem benchAccessReply_canonical {k f m} (hm : canonical m) : canonical (benchAccessReply k f m) :=
  Mach.benchTakes_canonical (fun _ => Mach.endPartnerRead_canonical) hm

/-! ### Functions of Machine/MntPort -/

theorem Mach.datagram_canonical {h typ n seq payload f m} (hf : ∀ m, canonical m → canonical (f m)) (hm : canonical m) :
    canonical (Mach.datagram h typ n seq payload f m) := by
  unfold Mach.datagram
  grind -linarith [canonical_mk, Mach.served_canonical, Mach.updMnt_canonical]

theorem Mach.turnAway_canonical {ip typ n seq c m} (hm : canonical m) : canonical (Mach.turnAway ip typ n seq c m) :=
  canonical_mk hm rfl

theorem Mach.sequenced_canonical {ip typ n seq f m} (hf : ∀ m, canonical m → canonical (f m)) (hm : canonical m) :
    canonical (Mach.sequenced ip typ n seq f m) := by
  unfold Mach.sequenced
  grind -linarith [canonical_mk, Mach.turnAway_canonical, Mach.touch_canonical, Mach.updMntSess_canonical, Mach.updMnt_canonical]

theorem mntOpen_canonical {ip level seq m} (hm : canonical m) : canonical (mntOpen ip level seq m) := by
  unfold mntOpen
  grind -linarith [canonical_mk, Mach.turnAway_canonical, Mach.ecCount_canonical, Mach.updMnt_canonical, Mach.bumpFree_canonical]

theorem mntAuth_canonical {n credential m} (hm : canonical m) : canonical (mntAuth n credential m) := by
  unfold mntAuth
  grind -linarith [canonical_mk, Mach.status_canonical, Mach.updMntSess_canonical]

theorem authLockoutEnd_canonical {ip m} (hm : canonical m) : canonical (authLockoutEnd ip m) :=
  canonical_mk hm rfl

theorem mntAccessComplete_canonical {n m} (hm : canonical m) : canonical (mntAccessComplete n m) := by
  unfold mntAccessComplete
  grind -linarith [canonical_mk, Mach.tryRead_canonical]

theorem mntWrite_canonical {n addr count data m} (hm : canonical m) : canonical (mntWrite n addr count data m) :=
  canonical_ite hm (Mach.writeBurst_canonical hm)

theorem Mach.carryReq_canonical {n seq q m} (hm : canonical m) : canonical (Mach.carryReq n seq q m) := by
  unfold Mach.carryReq
  grind -linarith [canonical_mk, mntAuth_canonical, Mach.sessionRead_canonical, mntWrite_canonical, Mach.status_canonical,
    Mach.closeSession_canonical, Mach.serveTransfer_canonical]

theorem Mach.takeDatagram_canonical {d m} (hm : canonical m) : canonical (Mach.takeDatagram d m) := by
  unfold Mach.takeDatagram
  grind -linarith [canonical_mk, Mach.datagram_canonical, mntOpen_canonical, Mach.sequenced_canonical, Mach.carryReq_canonical]

theorem Mach.serveWaiting_canonical {m} (hm : canonical m) : canonical (Mach.serveWaiting m) :=
  canonical_foldl (fun _ _ h => Mach.takeDatagram_canonical h) _ (Mach.updMnt_canonical hm)

theorem notifySession_canonical {n m} (hm : canonical m) : canonical (notifySession n m) := by
  unfold notifySession
  grind -linarith [canonical_mk, Mach.updMntSess_canonical, Mach.bumpFree_canonical, Mach.updMnt_canonical]

theorem dhcpLease_canonical {up lease m} (hm : canonical m) : canonical (dhcpLease up lease m) :=
  canonical_ite hm (canonical_ite hm hm)

theorem Mach.lateReply_canonical {who typ e m} (hm : canonical m) : canonical (Mach.lateReply who typ e m) := by
  unfold Mach.lateReply
  grind -linarith [canonical_mk, Mach.finish_canonical]

theorem verifyComplete_canonical {ops m} (hm : canonical m) : canonical (verifyComplete ops m) := by
  unfold verifyComplete
  grind -linarith [canonical_mk, Mach.verifyEnds_canonical, Mach.lateReply_canonical]

theorem updateSessionIdle_canonical {m} (hm : canonical m) : canonical (updateSessionIdle m) :=
  canonical_ite (Mach.endUpdate_canonical hm) hm

theorem attestReady_canonical {m} (hm : canonical m) : canonical (attestReady m) := by
  unfold attestReady
  grind -linarith [canonical_mk, Mach.updUpd_canonical, Mach.lateReply_canonical]

/-! ### Functions of Machine/SelfTests -/

theorem Mach.markLane_canonical {l m} (hm : canonical m) : canonical (Mach.markLane l m) :=
  canonical_ite (raise_canonical hm) (raise_canonical hm)

theorem Mach.applyMarks_canonical {m} (hm : canonical m) : canonical (Mach.applyMarks m) := by
  unfold Mach.applyMarks
  extract_lets t port lanes gone di ai m1 m2 outs m3 track m4 m5 ring
  have hlanes : canonical lanes := by
    refine canonical_foldl (fun y l hy => ?_) _ hm
    split
    · exact Mach.markLane_canonical hy
    · exact Mach.updAgr_canonical hy
  have hinputs : canonical m2 := canonical_foldl (fun _ _ h => Mach.noteIn_canonical (Mach.raise_canonical h)) _
    (canonical_foldl (fun _ _ h => Mach.noteIn_canonical (Mach.raise_canonical h)) _ hlanes)
  have houtputs : canonical m3 := canonical_foldl (fun _ _ h => Mach.noteOut_canonical (Mach.raise_canonical h)) _ hinputs
  have htrack : canonical m4 := by
    subst m4
    split
    · exact Mach.updEnc_canonical (Mach.raise_canonical houtputs)
    · exact houtputs
  exact canonical_mk (Mach.updField_canonical htrack) rfl

theorem Mach.writeToken_canonical {field m} (hm : canonical m) : canonical (Mach.writeToken field m) :=
  raise_canonical hm

theorem Mach.testEnds_canonical {kind lane fail m} (hm : canonical m) : canonical (Mach.testEnds kind lane fail m) := by
  unfold Mach.testEnds
  grind -linarith [canonical_mk, Mach.raise_canonical, Mach.updTest_canonical, Mach.benchNote_canonical]

theorem Mach.commitAll_canonical {m} (hm : canonical m) : canonical (Mach.commitAll m) := by
  unfold Mach.commitAll
  grind -linarith [canonical_mk, Mach.commitClosed_canonical, Mach.roomBack_canonical, Mach.updRec_canonical]

theorem Mach.judgeTest_canonical {kind m} (hm : canonical m) : canonical (Mach.judgeTest kind m) := by
  unfold Mach.judgeTest
  grind -linarith [canonical_mk, Mach.applyMarks_canonical, Mach.testEnds_canonical, Mach.updTest_canonical, Mach.writeToken_canonical,
    Mach.commitAll_canonical, Mach.enterHalt_canonical]

theorem Mach.verdict_canonical {kind rs m} (hm : canonical m) : canonical (Mach.verdict kind rs m) := by
  unfold Mach.verdict
  grind -linarith [canonical_mk, Mach.judgeTest_canonical, Mach.updTest_canonical]

theorem shutdownTestVerdict_canonical {rs m} (hm : canonical m) : canonical (shutdownTestVerdict rs m) := by
  unfold shutdownTestVerdict
  grind -linarith [canonical_mk, Mach.verdict_canonical, Mach.tryBoot_canonical, Mach.enterDormant_canonical]

theorem tokenExpiry_canonical {m} (hm : canonical m) : canonical (tokenExpiry m) := by
  unfold tokenExpiry
  grind -linarith [canonical_mk, Mach.updTest_canonical]

theorem sliceDue_canonical {l m} (hm : canonical m) : canonical (sliceDue l m) :=
  canonical_ite hm hm

theorem sliceRequest_canonical {m} (hm : canonical m) : canonical (sliceRequest m) := by
  unfold sliceRequest
  grind -linarith [canonical_mk, Mach.updTest_canonical]

theorem sliceVerdict_canonical {l bist march m} (hm : canonical m) : canonical (sliceVerdict l bist march m) := by
  unfold sliceVerdict
  grind -linarith [canonical_mk, Mach.testEnds_canonical, Mach.updTest_canonical, Mach.updAgr_canonical, Mach.markLane_canonical]

theorem sliceOverdue_canonical {l m} (hm : canonical m) : canonical (sliceOverdue l m) := by
  unfold sliceOverdue
  grind -linarith [canonical_mk, Mach.benchNote_canonical, Mach.raise_canonical, Mach.updTest_canonical]

theorem Mach.sanderCorrect_canonical {l k m} (hm : canonical m) : canonical (Mach.sanderCorrect l k m) :=
  canonical_mk hm rfl

theorem Mach.sanderFinding_canonical {l f m} (hm : canonical m) : canonical (Mach.sanderFinding l f m) :=
  postLane_canonical (raise_canonical hm)

theorem sanderRegion_canonical {l finding corrected m} (hm : canonical m) : canonical (sanderRegion l finding corrected m) := by
  unfold sanderRegion
  dsimp only
  split
  · exact hm
  · refine Mach.updLane_canonical ?_
    have hcorrected := fun ks : List Nat => canonical_foldl (f := fun m k => Mach.sanderCorrect l k m)
      (fun _ _ h => Mach.sanderCorrect_canonical h) ks hm
    split
    · exact Mach.sanderFinding_canonical (hcorrected _)
    · exact hcorrected _

theorem sanderPassLate_canonical {l m} (hm : canonical m) : canonical (sanderPassLate l m) :=
  canonical_ite hm (Mach.postLane_canonical (Mach.raise_canonical hm))

/-! ### Functions of Machine/BenchCmds -/

theorem Mach.clearBenchIrq_canonical {m} (hm : canonical m) : canonical (Mach.clearBenchIrq m) :=
  canonical_withIrq hm fun h => memWf_filter _ _ _ h

theorem Mach.benchBegin_canonical {cause ram m} (hm : canonical m) : canonical (Mach.benchBegin cause ram m) := by
  unfold Mach.benchBegin
  split
  · exact hm
  · exact Mach.ownRec_canonical (Mach.commitClosed_canonical (Mach.updMod_canonical
      (Mach.updBench_canonical rfl (Mach.updPair_canonical (Mach.clearBenchIrq_canonical hm)))))

theorem Mach.benchStop_canonical {m} (hm : canonical m) : canonical (Mach.benchStop m) :=
  canonical_mk hm rfl

theorem Mach.senseWarn_canonical {idx value b m} (hm : canonical m) : canonical (Mach.senseWarn idx value b m) := by
  unfold Mach.senseWarn
  grind -linarith [canonical_mk, Mach.updBench_canonical, Mach.benchNote_canonical, Mach.raise_canonical]

theorem sensorSample_canonical {temps rails m} (hm : canonical m) : canonical (sensorSample temps rails m) := by
  unfold sensorSample
  split
  · exact hm
  · exact canonical_foldl (fun _ _ h => Mach.senseWarn_canonical h) _
      (canonical_foldl (fun _ _ h => Mach.senseWarn_canonical h) _ (Mach.updBench_canonical rfl hm))

theorem humiditySample_canonical {rh air m} (hm : canonical m) : canonical (humiditySample rh air m) := by
  unfold humiditySample
  grind -linarith [canonical_mk, Mach.updBench_canonical, Mach.senseWarn_canonical]

theorem sensorWarningClear_canonical {idx m} (hm : canonical m) : canonical (sensorWarningClear idx m) := by
  unfold sensorWarningClear
  grind -linarith [canonical_mk, Mach.benchNote_canonical, Mach.raise_canonical, Mach.updBench_canonical]

theorem shockEvent_canonical {x y z m} (hm : canonical m) : canonical (shockEvent x y z m) := by
  unfold shockEvent
  grind -linarith [canonical_mk, Mach.updBench_canonical, Mach.benchNote_canonical, Mach.raise_canonical]

theorem trialCommit_canonical {m} (hm : canonical m) : canonical (trialCommit m) :=
  canonical_ite (Mach.commitTrial_canonical hm) hm

theorem trialServiceTimeout_canonical {m} (hm : canonical m) : canonical (trialServiceTimeout m) := by
  unfold trialServiceTimeout
  grind -linarith [canonical_mk, Mach.fallBack_canonical]

/-! ### Functions of Machine/RingLinks -/

theorem Mach.sendCheck_canonical {i d k w0 w1 m} (hm : canonical m) : canonical (Mach.sendCheck i d k w0 w1 m) :=
  canonical_ite hm (updPort_canonical hm)

theorem Mach.startCheck_canonical {i m} (hm : canonical m) : canonical (Mach.startCheck i m) :=
  canonical_ite hm (updPort_canonical hm)

theorem Mach.renewCheck_canonical {i m} (hm : canonical m) : canonical (Mach.renewCheck i m) :=
  canonical_ite (startCheck_canonical hm) hm

theorem ringLinkUp_canonical {i d m} (hm : canonical m) : canonical (ringLinkUp i d m) := by
  unfold ringLinkUp
  grind -linarith [canonical_mk, Mach.raise_canonical, Mach.updPort_canonical, Mach.renewCheck_canonical]

theorem Mach.setTurn_canonical {i m} (hm : canonical m) : canonical (Mach.setTurn i m) :=
  canonical_ite (updRing_canonical hm) (canonical_ite (raise_canonical (updRing_canonical hm)) (raise_canonical (updRing_canonical hm)))

theorem Mach.closeLoss_canonical {i d m} (hm : canonical m) : canonical (Mach.closeLoss i d m) :=
  setTurn_canonical (updPort_canonical hm)

theorem Mach.linkMeasured_canonical {i d delay m} (hm : canonical m) : canonical (Mach.linkMeasured i d delay m) := by
  unfold Mach.linkMeasured
  grind -linarith [canonical_mk, Mach.updPort_canonical, Mach.postCal_canonical, Mach.updRing_canonical, Mach.setTurn_canonical]

theorem Mach.proposeClose_canonical {i d m} (hm : canonical m) : canonical (Mach.proposeClose i d m) :=
  canonical_ite hm (canonical_ite (canonical_ite (updRing_canonical hm) (updRing_canonical (updRing_canonical hm))) (closeLoss_canonical
    hm))

theorem Mach.takeClose_canonical {i d k m} (hm : canonical m) : canonical (Mach.takeClose i d k m) :=
  canonical_ite hm (canonical_ite (closeLoss_canonical hm) (updRing_canonical hm))

theorem linkEcho_canonical {i w0 m} (hm : canonical m) : canonical (linkEcho i w0 m) := by
  unfold linkEcho
  grind -linarith [canonical_mk, Mach.renewCheck_canonical, Mach.updPort_canonical, Mach.startCheck_canonical, Mach.proposeClose_canonical,
    Mach.sendCheck_canonical, Mach.linkMeasured_canonical]

theorem linkCheckFrame_canonical {i d f m} (hm : canonical m) : canonical (linkCheckFrame i d f m) := by
  unfold linkCheckFrame
  grind -linarith [canonical_mk, Mach.updRing_canonical, Mach.sendCheck_canonical, linkEcho_canonical, Mach.proposeClose_canonical,
    Mach.linkMeasured_canonical, Mach.updPort_canonical, Mach.takeClose_canonical]

theorem linkReport_canonical {i m} (hm : canonical m) : canonical (linkReport i m) :=
  canonical_ite hm (canonical_ite (Mach.updRing_canonical hm) (Mach.updRing_canonical (Mach.updRing_canonical hm)))

theorem ringLinkLoss_canonical {i d m} (hm : canonical m) : canonical (ringLinkLoss i d m) :=
  canonical_ite hm (Mach.setTurn_canonical (Mach.updRing_canonical (canonical_ite (Mach.raise_canonical (Mach.updPort_canonical hm))
    (Mach.updPort_canonical hm))))

theorem loopbackClose_canonical {i m} (hm : canonical m) : canonical (loopbackClose i m) := by
  unfold loopbackClose
  grind -linarith [canonical_mk, Mach.setTurn_canonical, Mach.updRing_canonical]

/-! ### Functions of Machine/Power -/

theorem Mach.updPower_canonical {f m} (hm : canonical m) : canonical (Mach.updPower f m) :=
  canonical_mk hm rfl

theorem Mach.dark_canonical {m} (_hm : canonical m) : canonical (Mach.dark m) := rfl

theorem Bench.startClock_mailbox (now : Nat) (b : Bench) : (b.startClock now).host.mailbox = b.host.mailbox := by
  unfold Bench.startClock
  split <;> rfl

theorem powerUp_canonical {m} (hm : canonical m) : canonical (powerUp m) := by
  unfold powerUp
  split
  · exact hm
  · exact Mach.benchBegin_canonical (Mach.readArea_canonical
      (Mach.updBench_canonical (Bench.startClock_mailbox _ _) (Mach.updFsm_canonical (Mach.updPower_canonical hm))))

theorem benchClockLost_canonical {m} (hm : canonical m) : canonical (benchClockLost m) :=
  canonical_ite hm hm

theorem supplyInterruption_canonical {m} (hm : canonical m) : canonical (supplyInterruption m) :=
  canonical_ite hm hm

theorem supplyLossQuiesce_canonical {m} (hm : canonical m) : canonical (supplyLossQuiesce m) := by
  unfold supplyLossQuiesce
  grind -linarith [canonical_mk, Mach.enterQuiesce_canonical]

theorem supplyReturn_canonical {m} (hm : canonical m) : canonical (supplyReturn m) :=
  canonical_ite hm (canonical_ite hm hm)

theorem laneRailOutOfWindow_canonical {l m} (hm : canonical m) : canonical (laneRailOutOfWindow l m) := by
  unfold laneRailOutOfWindow
  grind -linarith [canonical_mk, Mach.laneOut_canonical, Mach.bootLaneOut_canonical, Mach.updAgr_canonical]

theorem laneRailReturn_canonical {l m} (hm : canonical m) : canonical (laneRailReturn l m) :=
  canonical_ite hm (canonical_ite hm hm)

theorem resetNSample_canonical {low m} (hm : canonical m) : canonical (resetNSample low m) :=
  canonical_ite hm (canonical_ite hm (canonical_ite hm hm))

theorem resetNAsserted_canonical {m} (hm : canonical m) : canonical (resetNAsserted m) := by
  unfold resetNAsserted
  grind -linarith [canonical_mk, Mach.updMod_canonical, Mach.enterDormant_canonical, Mach.updPower_canonical, Mach.abandonTest_canonical]

theorem resetNReleased_canonical {m} (hm : canonical m) : canonical (resetNReleased m) := by
  unfold resetNReleased
  grind -linarith [canonical_mk, Mach.postPower_canonical, Mach.updMod_canonical, Mach.tryBoot_canonical]

theorem resetStuck_canonical {m} (hm : canonical m) : canonical (resetStuck m) :=
  canonical_ite (Mach.postPower_canonical (Mach.raise_canonical hm)) hm

theorem Mach.opticalLoss_canonical {m} (hm : canonical m) : canonical (Mach.opticalLoss m) := by
  refine canonical_foldl (fun y i hy => canonical_foldl (fun z d hz => ?_) _ hy) _ hm
  split
  · exact ringLinkLoss_canonical hz
  · exact hz

theorem carrierSupplyShort_canonical {m} (hm : canonical m) : canonical (carrierSupplyShort m) := by
  unfold carrierSupplyShort
  grind -linarith [canonical_mk, Mach.opticalLoss_canonical, Mach.updPower_canonical]

theorem carrierSupplyRetry_canonical {gone m} (hm : canonical m) : canonical (carrierSupplyRetry gone m) :=
  canonical_ite hm hm

/-! ### Functions of Machine/Boot -/

theorem Mach.failBoot_canonical {cause m} (hm : canonical m) : canonical (Mach.failBoot cause m) := by
  unfold Mach.failBoot
  grind -linarith [canonical_mk, Mach.updMod_canonical, Mach.postPower_canonical, Mach.writeArea_canonical, Mach.updUpd_canonical,
    Mach.enterBoot_canonical, Mach.enterHalt_canonical]

theorem bootTimeout_canonical {m} (hm : canonical m) : canonical (bootTimeout m) := by
  unfold bootTimeout
  grind -linarith [canonical_mk, Mach.failBoot_canonical, Mach.abandonTest_canonical]

theorem Mach.signatureNotes_canonical {r m} (hm : canonical m) : canonical (Mach.signatureNotes r m) := by
  refine canonical_foldl (fun y l hy => ?_) _ hm
  dsimp only
  (repeat' split)
  · exact hy
  · exact Mach.noteUpd_canonical hy
  · exact Mach.noteUpd_canonical hy
  · exact Mach.noteUpd_canonical (Mach.noteUpd_canonical hy)

theorem bootFailed_canonical {cause m} (hm : canonical m) : canonical (bootFailed cause m) := by
  unfold bootFailed
  grind -linarith [canonical_mk, Mach.signatureNotes_canonical, Mach.eraseToken_canonical, Mach.failBoot_canonical]

theorem Mach.bootEnds_canonical {m} (hm : canonical m) : canonical (Mach.bootEnds m) := by
  unfold Mach.bootEnds
  grind -linarith [canonical_mk, Mach.updMod_canonical, Mach.enterConfig_canonical]

theorem Mach.quickTest_canonical {r lanes m} (hm : canonical m) : canonical (Mach.quickTest r lanes m) := by
  unfold Mach.quickTest
  grind -linarith [canonical_mk, Mach.enterHalt_canonical, Mach.bootEnds_canonical, Mach.eraseToken_canonical, Mach.bootLaneOut_canonical,
    Mach.failBoot_canonical]

theorem Mach.fullTestEnds_canonical {m} (hm : canonical m) : canonical (Mach.fullTestEnds m) := by
  unfold Mach.fullTestEnds
  grind -linarith [canonical_mk, Mach.failBoot_canonical, Mach.bootEnds_canonical]

theorem Mach.fullTest_canonical {r lanes m} (hm : canonical m) : canonical (Mach.fullTest r lanes m) :=
  Mach.fullTestEnds_canonical (canonical_foldl (fun _ _ h => Mach.bootLaneOut_canonical h) _ (Mach.verdict_canonical hm))

theorem bootComplete_canonical {r m} (hm : canonical m) : canonical (bootComplete r m) := by
  have hnotes := Mach.signatureNotes_canonical (r := r) hm
  unfold bootComplete
  split
  · exact hm
  · split
    · exact Mach.fullTestEnds_canonical hm
    · dsimp only
      split
      · exact Mach.failBoot_canonical hnotes
      · split
        · exact Mach.quickTest_canonical (canonical_foldl (fun _ _ h => Mach.bootLaneOut_canonical h) _ hnotes)
        · exact Mach.fullTest_canonical (canonical_foldl (fun _ _ h => Mach.bootLaneOut_canonical h) _ hnotes)

/-! ### Functions of Machine/ConfigCmds -/

theorem Mach.noteGrain_canonical {l sd m} (hm : canonical m) : canonical (Mach.noteGrain l sd m) :=
  canonical_ite hm hm

theorem Mach.verdictNotes_canonical {sd v m} (hm : canonical m) : canonical (Mach.verdictNotes sd v m) := by
  refine canonical_foldl (fun y f hy => ?_) _ (Mach.updMod_canonical hm)
  dsimp only
  (repeat' split)
  · exact Mach.noteGrain_canonical (Mach.noteUpd_canonical hy)
  · exact Mach.noteUpd_canonical hy
  · exact Mach.noteGrain_canonical hy
  · exact hy

theorem Mach.configureRing_canonical {old sd i m} (hm : canonical m) : canonical (Mach.configureRing old sd i m) :=
  canonical_ite (renewCheck_canonical (updRing_canonical hm)) (updRing_canonical hm)

theorem Mach.configureUnits_canonical {sd m} (hm : canonical m) : canonical (Mach.configureUnits sd m) := by
  have hsd : canonical { m with sd := some sd } := canonical_mk hm rfl
  have hrings := Mach.configureRing_canonical (old := m.sd) (sd := sd) (i := .r2)
    (Mach.configureRing_canonical (old := m.sd) (sd := sd) (i := .r1) hsd)
  exact canonical_foldl (fun _ _ h => Mach.refitOut_canonical h) _ (canonical_foldl (fun _ _ h => Mach.refitDi_canonical h) _
    (Mach.updFsm_canonical (canonical_mk hrings rfl)))

theorem Mach.configureBench_canonical {sd m} (hm : canonical m) : canonical (Mach.configureBench sd m) :=
  canonical_mk hm rfl

theorem Mach.takeSet_canonical {sd v m} (hm : canonical m) : canonical (Mach.takeSet sd v m) := by
  refine Mach.setRole_canonical (Mach.updPair_canonical (Mach.updMod_canonical (Mach.updLanes_canonical (Mach.enterMode_canonical
    (Mach.configureBench_canonical (Mach.configureUnits_canonical
      (canonical_foldl (fun y f hy => ?_) _ (Mach.verdictNotes_canonical hm))))))))
  dsimp only
  split
  · exact Mach.bootLaneOut_canonical hy
  · exact Mach.laneOut_canonical hy

theorem configAccept_canonical {sd v m} (hm : canonical m) : canonical (configAccept sd v m) := by
  unfold configAccept
  grind -linarith [canonical_mk, Mach.takeSet_canonical]

theorem Mach.refuseSet_canonical {r m} (hm : canonical m) : canonical (Mach.refuseSet r m) := by
  unfold Mach.refuseSet
  grind -linarith [canonical_mk, Mach.updMod_canonical, Mach.postModule_canonical, Mach.enterBoot_canonical, Mach.endTrial_canonical,
    Mach.reconfigure_canonical, Mach.enterConfig_canonical]

theorem configRefuse_canonical {sd v m} (hm : canonical m) : canonical (configRefuse sd v m) := by
  unfold configRefuse
  grind -linarith [canonical_mk, Mach.refuseSet_canonical, Mach.verdictNotes_canonical]

theorem configTimeout_canonical {m} (hm : canonical m) : canonical (configTimeout m) := by
  unfold configTimeout
  grind -linarith [canonical_mk, Mach.refuseSet_canonical, Mach.updMod_canonical]

theorem joinStallEvent_canonical {m} (hm : canonical m) : canonical (joinStallEvent m) :=
  canonical_ite (canonical_ite hm hm) hm

theorem Mach.restartNotes_canonical {l sd r m} (hm : canonical m) : canonical (Mach.restartNotes l sd r m) := by
  unfold Mach.restartNotes
  grind -linarith [canonical_mk, Mach.noteUpd_canonical, Mach.noteGrain_canonical]

theorem Mach.enterSync_canonical {l sd m} (hm : canonical m) : canonical (Mach.enterSync l sd m) :=
  canonical_mk hm rfl

theorem restartComplete_canonical {l r m} (hm : canonical m) : canonical (restartComplete l r m) := by
  unfold restartComplete
  grind -linarith [canonical_mk, Mach.restartNotes_canonical, Mach.enterSync_canonical, Mach.laneOut_canonical, Mach.fallBack_canonical]

theorem Mach.sweepRecord_canonical {m} (hm : canonical m) : canonical (Mach.sweepRecord m) :=
  canonical_ite hm hm

theorem sweepStep_canonical {n m} (hm : canonical m) : canonical (sweepStep n m) := by
  unfold sweepStep
  grind -linarith [canonical_mk, Mach.sweepRecord_canonical, Mach.updOut_canonical, Mach.updMod_canonical]

/-! ### Functions of Machine/Cycle -/

theorem Mach.endHold_canonical {l m} (hm : canonical m) : canonical (Mach.endHold l m) :=
  canonical_ite hm (updLane_canonical (raise_canonical hm))

theorem Mach.lifeT0_canonical {l m} (hm : canonical m) : canonical (Mach.lifeT0 l m) := by
  unfold Mach.lifeT0
  grind -linarith [canonical_mk, Mach.updAgr_canonical, Mach.enterVoting_canonical, Mach.updUpd_canonical]

theorem Mach.clockReport_canonical {l dev m} (hm : canonical m) : canonical (Mach.clockReport l dev m) := by
  unfold Mach.clockReport
  grind -linarith [canonical_mk, Mach.updCsc_canonical, Mach.postCal_canonical, Mach.raise_canonical, Mach.haltCallipers_canonical]

theorem Mach.startSlice_canonical {l m} (hm : canonical m) : canonical (Mach.startSlice l m) := by
  unfold Mach.startSlice
  grind -linarith [canonical_mk, Mach.laneOut_canonical, Mach.updLane_canonical, Mach.raise_canonical, Mach.updTest_canonical]

theorem Mach.sanderSlice_canonical {l m} (hm : canonical m) : canonical (Mach.sanderSlice l m) := by
  unfold Mach.sanderSlice
  grind -linarith [canonical_mk, Mach.startSlice_canonical, Mach.updLane_canonical]

theorem Mach.requestedSlice_canonical {n m} (hm : canonical m) : canonical (Mach.requestedSlice n m) := by
  unfold Mach.requestedSlice
  grind -linarith [canonical_mk, Mach.startSlice_canonical, Mach.updTest_canonical]

theorem Mach.rollMode_canonical {n m} (hm : canonical m) : canonical (Mach.rollMode n m) :=
  canonical_ite (enterModeAt_canonical hm) hm

theorem Mach.rollT0_canonical {n m} (hm : canonical m) : canonical (Mach.rollT0 n m) := by
  unfold Mach.rollT0
  grind -linarith [canonical_mk, Mach.laneOutFor_canonical, Mach.updUpd_canonical, Mach.enterModeAt_canonical, Mach.updBench_canonical]

theorem Mach.moduleT0_canonical {n m} (hm : canonical m) : canonical (Mach.moduleT0 n m) := by
  unfold Mach.moduleT0
  grind -linarith [canonical_mk, Mach.dropAllAged_canonical, Mach.updPair_canonical, Mach.updVote_canonical, Mach.pairT0_canonical,
    Mach.joinExit_canonical, Mach.applyCommand_canonical, Mach.wakeWaiting_canonical, Mach.rollT0_canonical, Mach.rollMode_canonical,
    Mach.requestedSlice_canonical]

theorem startT0_canonical {l dev n aligned m} (hm : canonical m) : canonical (startT0 l dev n aligned m) := by
  unfold startT0
  grind -linarith [canonical_mk, Mach.endHold_canonical, Mach.copierFault_canonical, Mach.updLane_canonical, Mach.updMod_canonical,
    Mach.freezeFsm_canonical, Mach.ecCount_canonical, Mach.clockReport_canonical, Mach.lifeT0_canonical, Mach.moduleT0_canonical,
    Mach.sanderSlice_canonical]

theorem cycleT0_canonical {l dev m} (hm : canonical m) : canonical (cycleT0 l dev m) := by
  unfold cycleT0
  grind -linarith [canonical_mk, startT0_canonical]

theorem Mach.latchDrive_canonical {l m} (hm : canonical m) : canonical (Mach.latchDrive l m) := by
  unfold Mach.latchDrive
  grind -linarith [canonical_mk, Mach.updLane_canonical, Mach.demands_canonical, Mach.updOdm_canonical]

theorem Mach.silentProbe_canonical {l m} (hm : canonical m) : canonical (Mach.silentProbe l m) :=
  canonical_ite hm hm

theorem handoverEnd_canonical {l m} (hm : canonical m) : canonical (handoverEnd l m) := by
  unfold handoverEnd
  grind -linarith [canonical_mk, Mach.latchDrive_canonical, Mach.updLane_canonical, Mach.commandDone_canonical, Mach.silentProbe_canonical]

/-! ### The runs of an instruction -/

theorem Mach.supervise_canonical {old new : Mach} (hm : canonical new) : canonical (old.supervise new) := by
  unfold Mach.supervise
  split
  · exact canonical_mk hm rfl
  · exact hm

/-- Whatever state the outcome leads to keeps its memories in canonical form. -/
def CanonicalAfter (o : Host.Outcome State Fault Refusal) : Prop := ∀ t, o = .next t → canonical t.m = true

section
variable {s : State} {t : Nat} {f : Mach → Mach}

theorem canonicalAfter_run (h : canonical (f s.m)) : CanonicalAfter (s.run f) := by
  rintro _ ⟨⟩
  exact Mach.supervise_canonical h

theorem canonicalAfter_benchRun (hs : canonical s.m) (hf : ∀ m, canonical m → canonical (f m)) : CanonicalAfter (benchRun t f s) :=
  canonicalAfter_run (hf _ (Mach.benchTick_canonical (Mach.tick_canonical hs)))

theorem canonicalAfter_fsmRun (hs : canonical s.m) (hf : ∀ m, canonical m → canonical (f m)) : CanonicalAfter (fsmRun t f s) :=
  have hfit := hf _ (Mach.tick_canonical (t := t) hs)
  canonicalAfter_run (canonical_ite (canonical_mk hfit rfl) hfit)

theorem canonicalAfter_hostRun (hs : canonical s.m) (hf : ∀ m, canonical m → canonical (f m)) : CanonicalAfter (hostRun f t s) :=
  canonicalAfter_benchRun hs fun m hm => Mach.serveWaiting_canonical (hf m hm)

theorem canonicalAfter_mntRun {d : MntDatagram} (hs : canonical s.m) : CanonicalAfter (mntRun d t s) :=
  canonicalAfter_benchRun hs fun _ hm => canonical_ite (Mach.updMnt_canonical hm) (Mach.takeDatagram_canonical hm)

theorem canonicalAfter_readRun {via : Via} {a : W32} {count : Nat} (hs : canonical s.m) : CanonicalAfter (readRun via a count t s) :=
  match via with
  | .host => canonicalAfter_hostRun hs fun _ => hostRead_canonical
  | .mnt _ _ _ => canonicalAfter_mntRun hs

theorem canonicalAfter_writeRun {via : Via} {a : W32} {data : List W32} (hs : canonical s.m) : CanonicalAfter (writeRun via a data t s) :=
  match via with
  | .host => canonicalAfter_hostRun hs fun _ => hostRegs_canonical
  | .mnt _ _ _ => canonicalAfter_mntRun hs

theorem canonicalAfter_commandRun {via : Via} {code key : Byte} (hs : canonical s.m) : CanonicalAfter (commandRun via code key t s) :=
  canonicalAfter_writeRun hs

theorem canonicalAfter_updRun {via : UpdVia} {x : Transfer} (hs : canonical s.m) : CanonicalAfter (updRun via x t s) :=
  match via with
  | .mailbox _ => canonicalAfter_hostRun hs fun _ =>
      Mach.served_canonical fun _ h => Mach.serveTransfer_canonical (Mach.touch_canonical h)
  | .mnt _ _ _ => canonicalAfter_mntRun hs

end

theorem Mach.cutArea_elim_canonical {cut : Option W32} {m} (hm : canonical m) : canonical (cut.elim m (fun c => m.cutArea c)) := by
  cases cut with
  | none => exact hm
  | some c => exact Mach.cutArea_canonical hm

theorem execPartnerRead_canonicalAfter {via : Via} {write addr count t} {s : State} (hs : canonical s.m) :
    CanonicalAfter (execPartnerRead via write addr count t s) := by
  unfold execPartnerRead
  split
  · exact canonicalAfter_writeRun hs
  · exact canonicalAfter_readRun hs

theorem exec_canonicalAfter {i : Instr} {s : State} (hs : canonical s.m) : CanonicalAfter (exec i s) := by
  have htick (t : Nat) : canonical (s.m.tick t) := Mach.tick_canonical hs
  unfold exec
  cases i with
  | powerUp => exact canonicalAfter_run (powerUp_canonical (htick _))
  | supplyInterruption => exact canonicalAfter_run (supplyInterruption_canonical (htick _))
  | supplyLossQuiesce => exact canonicalAfter_run (supplyLossQuiesce_canonical (htick _))
  | supplyReturn => exact canonicalAfter_run (supplyReturn_canonical (htick _))
  | holdUpExhausted =>
    exact canonicalAfter_run (canonical_ite (Mach.dark_canonical (Mach.abandonTest_canonical (Mach.cutArea_elim_canonical (htick _))))
      (htick _))
  | holdUpReserveReached => exact canonicalAfter_run (canonical_ite (Mach.updPower_canonical (htick _)) (htick _))
  | haltSupplyRemoved => exact canonicalAfter_run (canonical_ite (Mach.dark_canonical (htick _)) (htick _))
  | laneRailOutOfWindow => exact canonicalAfter_run (laneRailOutOfWindow_canonical (htick _))
  | callipersRailFault => exact canonicalAfter_run (canonical_ite (Mach.enterHalt_canonical (htick _)) (htick _))
  | benchRailFault => exact canonicalAfter_benchRun hs fun _ => Mach.benchStop_canonical
  | resetNSample => exact canonicalAfter_run (resetNSample_canonical (htick _))
  | resetNAsserted => exact canonicalAfter_run (resetNAsserted_canonical (htick _))
  | resetNReleased => exact canonicalAfter_run (resetNReleased_canonical (htick _))
  | resetStuck => exact canonicalAfter_run (resetStuck_canonical (htick _))
  | benchClockLost => exact canonicalAfter_run (benchClockLost_canonical (htick _))
  | bootComplete => exact canonicalAfter_run (bootComplete_canonical (htick _))
  | bootFailed => exact canonicalAfter_run (bootFailed_canonical (htick _))
  | bootTimeout => exact canonicalAfter_run (bootTimeout_canonical (htick _))
  | configAccept => exact canonicalAfter_run (configAccept_canonical (htick _))
  | configRefuse => exact canonicalAfter_run (configRefuse_canonical (htick _))
  | configTimeout => exact canonicalAfter_run (configTimeout_canonical (htick _))
  | joinStallEvent => exact canonicalAfter_run (joinStallEvent_canonical (htick _))
  | cycleT0 => exact canonicalAfter_run (cycleT0_canonical (htick _))
  | pllLockTimeout => exact canonicalAfter_run (Mach.missedMark_canonical (htick _))
  | inputSample => exact canonicalAfter_run (inputSample_canonical (htick _))
  | samplingDeadline => exact canonicalAfter_run (canonical_ite (htick _) (Mach.missedMark_canonical (htick _)))
  | imageFrameSend => exact canonicalAfter_run (imageFrameSend_canonical (htick _))
  | exchangeFrameReceive => exact canonicalAfter_run (exchangeFrameReceive_canonical (htick _))
  | intactJudgement => exact canonicalAfter_run (intactJudgement_canonical (htick _))
  | acceptedSet => exact canonicalAfter_run (acceptedSet_canonical (htick _))
  | exchangeDeadline => exact canonicalAfter_run (canonical_ite (htick _) (Mach.missedMark_canonical (htick _)))
  | runStart => exact canonicalAfter_run (runStart_canonical (htick _))
  | gate => exact canonicalAfter_run (Mach.row_canonical (htick _))
  | storeRow => exact canonicalAfter_run (Mach.row_canonical (htick _))
  | timerRow => exact canonicalAfter_run (Mach.row_canonical (htick _))
  | endRow => exact canonicalAfter_run (Mach.row_canonical (htick _))
  | runClose => exact canonicalAfter_run (runClose_canonical (htick _))
  | progressCheckpoint => exact canonicalAfter_run (progressCheckpoint_canonical (htick _))
  | evaluationDeadline => exact canonicalAfter_run (Mach.missedMark_canonical (htick _))
  | handoverEnd => exact canonicalAfter_run (handoverEnd_canonical (htick _))
  | handoverDeadline => exact canonicalAfter_run (Mach.missedMark_canonical (htick _))
  | drivePeriodBoundary => exact canonicalAfter_run (drivePeriodBoundary_canonical (htick _))
  | mirrorDeadline => exact canonicalAfter_run (canonical_ite (htick _) (Mach.missedMark_canonical (htick _)))
  | sleepEntry => exact canonicalAfter_run (sleepEntry_canonical (htick _))
  | keepAwakeHoldSet => exact canonicalAfter_run (keepAwakeHold_canonical (htick _))
  | keepAwakeHoldRelease => exact canonicalAfter_run (keepAwakeHold_canonical (htick _))
  | comparatorMismatch => exact canonicalAfter_run (canonical_ite (Mach.mismatch_canonical (htick _)) (htick _))
  | comparatorInjection => exact canonicalAfter_run (comparatorInjection_canonical (htick _))
  | missedInjection => exact canonicalAfter_run (missedInjection_canonical (htick _))
  | exclusionLineExpire => exact canonicalAfter_run (exclusionLineExpire_canonical (htick _))
  | supervisorResetEnd => exact canonicalAfter_run (supervisorResetEnd_canonical (htick _))
  | restartComplete => exact canonicalAfter_run (restartComplete_canonical (htick _))
  | transferServe => exact canonicalAfter_run (transferServe_canonical (htick _))
  | transferReceive => exact canonicalAfter_run (transferReceive_canonical (htick _))
  | rejoinTimeout => exact canonicalAfter_run (rejoinTimeout_canonical (htick _))
  | voteWordArrive => exact canonicalAfter_run (voteWordArrive_canonical (htick _))
  | skewWindowClose => exact canonicalAfter_run (skewWindowClose_canonical (htick _))
  | cycleReport => exact canonicalAfter_run (cycleReport_canonical (htick _))
  | driveMonitorSample => exact canonicalAfter_run (driveMonitorSample_canonical (htick _))
  | driveRefreshMark => exact canonicalAfter_run (driveRefreshMark_canonical (htick _))
  | driveWatchdogTrip => exact canonicalAfter_run (driveWatchdogTrip_canonical (htick _))
  | callipersHalvesMismatch => exact canonicalAfter_run (canonical_ite (Mach.haltCallipers_canonical (htick _)) (htick _))
  | callipersInjection => exact canonicalAfter_run (callipersInjection_canonical (htick _))
  | inputRawSample => exact canonicalAfter_run (inputRawSample_canonical (htick _))
  | thresholdUpdate => exact canonicalAfter_run (thresholdUpdate_canonical (htick _))
  | couplerFrame => exact canonicalAfter_run (couplerFrame_canonical (htick _))
  | lineConductanceMeasure => exact canonicalAfter_run (lineConductance_canonical (htick _))
  | darkWindow => exact canonicalAfter_run (darkWindow_canonical (htick _))
  | pulseSourceFault => exact canonicalAfter_run (pulseSourceFault_canonical (htick _))
  | pulseSourceRetry => exact canonicalAfter_run (pulseSourceRetry_canonical (htick _))
  | comparatorTest => exact canonicalAfter_run (comparatorTest_canonical (htick _))
  | encoderEdge => exact canonicalAfter_run (encoderEdge_canonical (htick _))
  | encoderSpeedUpdate => exact canonicalAfter_run (encoderSpeedUpdate_canonical (htick _))
  | encoderRevalid => exact canonicalAfter_run (encoderRevalid_canonical (htick _))
  | analogueConversion => exact canonicalAfter_run (analogueConversion_canonical (htick _))
  | analogueReferenceCheck => exact canonicalAfter_run (analogueReferenceCheck_canonical (htick _))
  | inputFaultClear => exact canonicalAfter_run (inputFaultClear_canonical (htick _))
  | fieldSupplySample => exact canonicalAfter_fsmRun hs fun _ => fieldSupplySample_canonical
  | fsLow => exact canonicalAfter_run (fsLow_canonical (htick _))
  | fsLowClear => exact canonicalAfter_run (canonical_ite (Mach.updFsm_canonical (htick _)) (htick _))
  | fsSag => exact canonicalAfter_fsmRun hs fun _ => fsSag_canonical
  | fsRev => exact canonicalAfter_fsmRun hs fun _ => fsRev_canonical
  | fsHigh => exact canonicalAfter_fsmRun hs fun _ => fsHigh_canonical
  | fsRelease => exact canonicalAfter_fsmRun hs fun _ => fsRelease_canonical
  | fsmFreezeEnd => exact canonicalAfter_run (fsmFreezeEnd_canonical (htick _))
  | offStateJudgement => exact canonicalAfter_run (offStateJudgement_canonical (htick _))
  | openLoadOn => exact canonicalAfter_run (openLoadOn_canonical (htick _))
  | testPeriodStart => exact canonicalAfter_run (testPeriodStart_canonical (htick _))
  | darkPulse => exact canonicalAfter_run (Mach.startPulse_canonical (htick _))
  | darkPulseRedrive => exact canonicalAfter_run (darkPulseRedrive_canonical (Mach.crossFindings_canonical (htick _)))
  | darkPulseRecloseCheck => exact canonicalAfter_run (darkPulseReclose_canonical (Mach.crossFindings_canonical (htick _)))
  | lightPulse => exact canonicalAfter_run (Mach.startPulse_canonical (htick _))
  | lightPulseEnd => exact canonicalAfter_run (lightPulseEnd_canonical (Mach.crossFindings_canonical (htick _)))
  | lightPulseVerify => exact canonicalAfter_run (lightPulseVerify_canonical (Mach.crossFindings_canonical (htick _)))
  | pulseRepeat => exact canonicalAfter_run (pulseRepeat_canonical (htick _))
  | overload => exact canonicalAfter_run (overload_canonical (htick _))
  | thermalFoldback => exact canonicalAfter_run (thermalFoldback_canonical (htick _))
  | overtemperature => exact canonicalAfter_run (overtemperature_canonical (htick _))
  | outputFaultClear => exact canonicalAfter_run (outputFaultClear_canonical (htick _))
  | outputCouplerFrame => exact canonicalAfter_run (outputCouplerFrame_canonical (htick _))
  | ringFrameArrive => exact canonicalAfter_run (ringFrameArrive_canonical (htick _))
  | insertionBufferDrain => exact canonicalAfter_run (insertionBufferDrain_canonical (htick _))
  | toolRestWindowOpen => exact canonicalAfter_run (toolRestWindowOpen_canonical (htick _))
  | exclusiveWindowSend => exact canonicalAfter_run (exclusiveWindowSend_canonical (htick _))
  | arbitratingWindow => exact canonicalAfter_run (arbitratingWindow_canonical (htick _))
  | toolRestWindowClose => exact canonicalAfter_run (toolRestWindowClose_canonical (htick _))
  | toolRestReopen => exact canonicalAfter_run (toolRestReopen_canonical (htick _))
  | ringEntrySettle => exact canonicalAfter_run (ringEntrySettle_canonical (htick _))
  | ringLinkUp => exact canonicalAfter_run (ringLinkUp_canonical (htick _))
  | linkCheckFrame => exact canonicalAfter_run (linkCheckFrame_canonical (htick _))
  | linkReport => exact canonicalAfter_run (linkReport_canonical (htick _))
  | referenceSend => exact canonicalAfter_run (referenceSend_canonical (htick _))
  | referenceAccept => exact canonicalAfter_run (referenceAccept_canonical (htick _))
  | referenceMissed => exact canonicalAfter_run (referenceMissed_canonical (htick _))
  | successionReference => exact canonicalAfter_run (successionReference_canonical (htick _))
  | coldstartListenEnd => exact canonicalAfter_run (coldstartListenEnd_canonical (htick _))
  | coldstartCollision => exact canonicalAfter_run (coldstartCollision_canonical (htick _))
  | coldstartBackoffEnd => exact canonicalAfter_run (coldstartBackoffEnd_canonical (htick _))
  | joinFrameSend => exact canonicalAfter_run (joinFrameSend_canonical (htick _))
  | interfaceActive => exact canonicalAfter_run (interfaceActive_canonical (htick _))
  | ringLinkLoss => exact canonicalAfter_run (ringLinkLoss_canonical (htick _))
  | loopbackClose => exact canonicalAfter_run (loopbackClose_canonical (htick _))
  | netArpIcmp => exact canonicalAfter_run (netArpIcmp_canonical (htick _))
  | jxtDatagramReceive => exact canonicalAfter_run (jxtDatagramReceive_canonical (htick _))
  | jxtGroupSettle => exact canonicalAfter_run (jxtGroupSettle_canonical (htick _))
  | cvStart => exact canonicalAfter_run (cvStart_canonical hs)
  | cvFeed => exact canonicalAfter_run (cvOperate_canonical hs)
  | cvFinalise => exact canonicalAfter_run (cvOperate_canonical hs)
  | tatPending => exact canonicalAfter_run (tatPending_canonical (htick _))
  | txLateDeadline => exact canonicalAfter_run (canDeadline_canonical (htick _))
  | tatLateDeadline => exact canonicalAfter_run (canDeadline_canonical (htick _))
  | canFrameTxEnd => exact canonicalAfter_run (canFrameTxEnd_canonical (htick _))
  | canReferenceMessage => exact canonicalAfter_run (canReferenceMessage_canonical (htick _))
  | canExclusiveWindow => exact canonicalAfter_run (canExclusiveWindow_canonical (htick _))
  | canFrameReceive => exact canonicalAfter_run (canFrameReceive_canonical (htick _))
  | canPairSettle => exact canonicalAfter_run (canPairSettle_canonical (htick _))
  | ownershipBlockExpire => exact canonicalAfter_run (ownershipBlockExpire_canonical (htick _))
  | canOwnBitError => exact canonicalAfter_run (canOwnBitError_canonical (htick _))
  | canBusOff => exact canonicalAfter_run (canBusOff_canonical (htick _))
  | canBusOffRecovery => exact canonicalAfter_run (canBusOffRecovery_canonical (htick _))
  | canBusOffRecovered => exact canonicalAfter_run (canBusOffRecovered_canonical (htick _))
  | pairStatusSend =>
    exact canonicalAfter_run (canonical_ite (canonical_foldl (fun _ _ h => canonical_ite h (Mach.sendStatus_canonical h)) _ (htick _))
      (htick _))
  | pairStatusReceive => exact canonicalAfter_run (pairStatusReceive_canonical (htick _))
  | pairLinkTimeout => exact canonicalAfter_run (pairLinkTimeout_canonical (htick _))
  | mirrorFrameReceive => exact canonicalAfter_run (mirrorFrameReceive_canonical (htick _))
  | mirrorTake => exact canonicalAfter_run (mirrorTake_canonical (htick _))
  | joinAloneLead => exact canonicalAfter_run (joinAloneLead_canonical (htick _))
  | partnerRead => exact execPartnerRead_canonicalAfter hs
  | partnerReadTimeout => exact canonicalAfter_benchRun hs fun _ => partnerReadTimeout_canonical
  | enterMaintain => exact canonicalAfter_commandRun hs
  | leaveMaintain => exact canonicalAfter_commandRun hs
  | enterCommission => exact canonicalAfter_commandRun hs
  | endCommission => exact canonicalAfter_commandRun hs
  | sweep => exact canonicalAfter_commandRun hs
  | swap => exact canonicalAfter_commandRun hs
  | quiesce => exact canonicalAfter_commandRun hs
  | activateFw => exact canonicalAfter_commandRun hs
  | armFwBoot => exact canonicalAfter_commandRun hs
  | activateSd => exact canonicalAfter_commandRun hs
  | commit => exact canonicalAfter_commandRun hs
  | revert => exact canonicalAfter_commandRun hs
  | enrol => exact canonicalAfter_commandRun hs
  | commandUnserved => exact canonicalAfter_benchRun hs fun _ => commandUnserved_canonical
  | sweepStep => exact canonicalAfter_run (sweepStep_canonical (htick _))
  | shutdownTestVerdict => exact canonicalAfter_benchRun hs fun _ => shutdownTestVerdict_canonical
  | tokenExpiry => exact canonicalAfter_benchRun hs fun _ => tokenExpiry_canonical
  | sliceDue => exact canonicalAfter_benchRun hs fun _ => sliceDue_canonical
  | sliceRequest => exact canonicalAfter_benchRun hs fun _ => sliceRequest_canonical
  | sliceVerdict => exact canonicalAfter_benchRun hs fun _ => sliceVerdict_canonical
  | sliceOverdue => exact canonicalAfter_benchRun hs fun _ => sliceOverdue_canonical
  | sanderRegion => exact canonicalAfter_run (sanderRegion_canonical (htick _))
  | sanderPassLate => exact canonicalAfter_run (sanderPassLate_canonical (htick _))
  | benchWatchdog => exact canonicalAfter_benchRun hs fun _ => Mach.benchStop_canonical
  | benchStart => exact canonicalAfter_run (Mach.benchBegin_canonical (htick _))
  | notice => exact canonicalAfter_benchRun hs fun _ h => canonical_ite (Mach.benchTake_canonical h) (Mach.postUnit_canonical h)
  | laneQueueDrain => exact canonicalAfter_benchRun hs fun _ => laneQueueDrain_canonical
  | sensorSample => exact canonicalAfter_benchRun hs fun _ => sensorSample_canonical
  | humiditySample => exact canonicalAfter_benchRun hs fun _ => humiditySample_canonical
  | shockEvent => exact canonicalAfter_benchRun hs fun _ => shockEvent_canonical
  | sensorWarningClear => exact canonicalAfter_benchRun hs fun _ => sensorWarningClear_canonical
  | ecCfgWrite => exact canonicalAfter_writeRun hs
  | suppressedSummary => exact canonicalAfter_benchRun hs fun _ => suppressedSummary_canonical
  | anchor => exact canonicalAfter_benchRun hs fun _ => anchor_canonical
  | flashCommit => exact canonicalAfter_benchRun hs fun _ => flashCommit_canonical
  | sectorErase => exact canonicalAfter_benchRun hs fun _ => sectorErase_canonical
  | freeze => exact canonicalAfter_writeRun hs
  | freezeRelease => exact canonicalAfter_writeRun hs
  | freezeTimeout => exact canonicalAfter_benchRun hs fun _ => freezeTimeout_canonical
  | timeSet => exact canonicalAfter_writeRun hs
  | recInfo => exact canonicalAfter_mntRun hs
  | recRead => exact canonicalAfter_mntRun hs
  | recFreeze => exact canonicalAfter_mntRun hs
  | h2bDoorbell => exact canonicalAfter_hostRun hs fun _ => hostRegs_canonical
  | hostRead => exact canonicalAfter_hostRun hs fun _ => hostRead_canonical
  | hostReadComplete => exact canonicalAfter_benchRun hs fun _ => hostReadComplete_canonical
  | hostWrite => exact canonicalAfter_hostRun hs fun _ => Mach.served_canonical fun _ => hostWrite_canonical
  | fetch => exact canonicalAfter_hostRun hs fun _ => hostFrame_canonical fun _ => fetchRead_canonical
  | status => exact canonicalAfter_hostRun hs fun _ => hostFrame_canonical fun _ => portStatus_canonical
  | hostClose => exact canonicalAfter_hostRun hs fun _ h => canonical_ite (hostClose_canonical h) h
  | sessionTimeout => exact canonicalAfter_benchRun hs fun _ => sessionTimeout_canonical
  | mntOpen => exact canonicalAfter_mntRun hs
  | mntAuth => exact canonicalAfter_mntRun hs
  | authLockoutEnd => exact canonicalAfter_benchRun hs fun _ => authLockoutEnd_canonical
  | mntRead => exact canonicalAfter_mntRun hs
  | mntWrite => exact canonicalAfter_mntRun hs
  | mntKeep => exact canonicalAfter_mntRun hs
  | mntClose => exact canonicalAfter_mntRun hs
  | notify => exact canonicalAfter_benchRun hs fun _ => notifySession_canonical
  | dhcpLease => exact canonicalAfter_benchRun hs fun _ => dhcpLease_canonical
  | chanSelWrite => exact canonicalAfter_writeRun hs
  | irqMaskWrite => exact canonicalAfter_writeRun hs
  | irqStatClear => exact canonicalAfter_writeRun hs
  | pageSnap => exact canonicalAfter_writeRun hs
  | snapshotComplete => exact canonicalAfter_benchRun hs fun _ => snapshotComplete_canonical
  | resultGroupRead => exact canonicalAfter_readRun hs
  | rcRead => exact canonicalAfter_readRun hs
  | registerWrite => exact canonicalAfter_writeRun hs
  | bistDiscard => exact canonicalAfter_writeRun hs
  | updCtrlAbort => exact canonicalAfter_writeRun hs
  | updOpen => exact canonicalAfter_updRun hs
  | updBlock => exact canonicalAfter_updRun hs
  | updVerify => exact canonicalAfter_updRun hs
  | verifyComplete => exact canonicalAfter_benchRun hs fun _ => verifyComplete_canonical
  | updAbort => exact canonicalAfter_updRun hs
  | updStatus => exact canonicalAfter_updRun hs
  | updateSessionIdle => exact canonicalAfter_benchRun hs fun _ => updateSessionIdle_canonical
  | attest => exact canonicalAfter_updRun hs
  | attestReady => exact canonicalAfter_benchRun hs fun _ => attestReady_canonical
  | attRead => exact canonicalAfter_updRun hs
  | trialCommit => exact canonicalAfter_benchRun hs fun _ => trialCommit_canonical
  | trialServiceTimeout => exact canonicalAfter_benchRun hs fun _ => trialServiceTimeout_canonical
  | carrierSupplyShort => exact canonicalAfter_run (carrierSupplyShort_canonical (htick _))
  | carrierSupplyRetry => exact canonicalAfter_run (carrierSupplyRetry_canonical (htick _))
  | laneRailReturn => exact canonicalAfter_run (laneRailReturn_canonical (htick _))
  | redBlueLinkChange => exact canonicalAfter_run (redBlueLinkChange_canonical (htick _))
  | canArbitratingWindow => exact canonicalAfter_run (canArbitratingWindow_canonical (htick _))
  | canBusError => exact canonicalAfter_run (canBusError_canonical (htick _))
  | benchAccessRequest => exact canonicalAfter_benchRun hs fun _ => benchAccessRequest_canonical
  | benchAccessReply => exact canonicalAfter_benchRun hs fun _ => benchAccessReply_canonical
  | mntAccessComplete => exact canonicalAfter_benchRun hs fun _ => mntAccessComplete_canonical
  | stimeOkLapse => exact canonicalAfter_benchRun hs fun _ => stimeOkLapse_canonical

end Sys2Proof.Machine

open Sys2Proof Sys2Proof.Machine in
/-- Settles O60: a step runs the queue's front instruction, and every instruction keeps the memories in canonical form. -/
theorem canonicalMemories : Obligations.CanonicalMemories := by
  unfold Obligations.CanonicalMemories
  intro s t hs hstep
  unfold step at hstep
  split at hstep
  · cases hstep
    exact hs
  · next i rest _ => exact exec_canonicalAfter (i := i) (s := { s with pending := rest }) hs t hstep
end

section
/-! SUPPORT. Bits of a word and of a memory of bits; the working and the committed vector and the timer cells of a run (R82, R90, R91,
R111) as the writes of a run leave them. -/
namespace Sys2Proof.Machine

/-! ### Bits of a word -/

theorem getLsbD_setBit {w : Nat} (x : BitVec w) (n k : Nat) (b : Bool) :
    (setBit x n b).getLsbD k = if k = n ∧ k < w then b else x.getLsbD k := by
  by_cases hk : k < w
  · have hone : (BitVec.ofNat w 1 <<< n).getLsbD k = decide (n = k) := by
      rw [← BitVec.twoPow_eq, BitVec.getLsbD_twoPow]
      grind
    unfold setBit
    cases b with
    | true => rw [if_pos rfl, BitVec.getLsbD_or, hone]; grind
    | false => rw [if_neg (by decide), BitVec.getLsbD_and, BitVec.getLsbD_not, hone]; grind
  · rw [BitVec.getLsbD_of_ge _ _ (by omega), BitVec.getLsbD_of_ge _ _ (by omega), if_neg (by omega)]

/-! ### Bits of a memory -/

theorem memBit_memSetBit (m : Mem 32) (n a : Nat) (b : Bool) :
    memBit 0 (memSetBit 0 m n b) a = if a = n then b else memBit 0 m a := by
  unfold memBit memSetBit
  by_cases hw : a / 32 = n / 32
  · rw [hw, memRead_memWrite_same, getLsbD_setBit]
    by_cases h : a = n
    · rw [if_pos ⟨by rw [h], Nat.mod_lt _ (by omega)⟩, if_pos h]
    · rw [if_neg (by omega), if_neg h]
  · rw [memRead_memWrite_of_ne 0 _ _ _ _ hw, if_neg (fun h => hw (by rw [h]))]

/-- A memory made of bit numbers holds 1 at those and 0 elsewhere. -/
theorem memBit_memOfBits (ns : List Nat) (a : Nat) : memBit 0 (memOfBits ns) a = ns.contains a := by
  suffices h : ∀ m : Mem 32, memBit 0 (ns.foldl (fun m n => memSetBit 0 m n true) m) a = (ns.contains a || memBit 0 m a) by
    rw [memOfBits, h []]
    simp [memBit, memRead]
  induction ns with
  | nil => intro m; simp
  | cons n ns ih =>
    intro m
    rw [List.foldl_cons, ih, memBit_memSetBit, List.contains_cons]
    by_cases h : a = n
    · simp [h]
    · simp [h, beq_eq_false_iff_ne.2 h]

/-! ### The working vector (R82, R111) -/

/-- The half that a write of a run goes to: never the one that holds the committed word. -/
def Stores.writeHalf (s : Stores) (w : Nat) : Bool := !s.selDone.getLsbD w

theorem Stores.putWord_eq (g : Grain) (w : Nat) (v : W32) (s : Stores) :
    s.putWord g w v = { s with
      selWork := setBit s.selWork w (s.writeHalf w)
      half0 := if s.writeHalf w then s.half0 else memWrite (vecDefault g) w v s.half0
      half1 := if s.writeHalf w then memWrite (vecDefault g) w v s.half1 else s.half1 } := by
  unfold Stores.putWord Stores.writeHalf
  cases hw : s.selWork.getLsbD w <;> cases hd : s.selDone.getLsbD w <;> rfl

@[simp] theorem Stores.putWord_header (g : Grain) (w : Nat) (v : W32) (s : Stores) : (s.putWord g w v).header = s.header := by
  rw [Stores.putWord_eq]
@[simp] theorem Stores.putWord_selDone (g : Grain) (w : Nat) (v : W32) (s : Stores) : (s.putWord g w v).selDone = s.selDone := by
  rw [Stores.putWord_eq]
@[simp] theorem Stores.putWord_timers (g : Grain) (w : Nat) (v : W32) (s : Stores) : (s.putWord g w v).timers = s.timers := by
  rw [Stores.putWord_eq]
@[simp] theorem Stores.putWord_needsInit (g : Grain) (w : Nat) (v : W32) (s : Stores) :
    (s.putWord g w v).needsInit = s.needsInit := by
  rw [Stores.putWord_eq]

/-- A word of the vector written in a run reads back; every other word stays. -/
theorem Stores.workWord_putWord (g : Grain) (w k : Nat) (v : W32) (s : Stores) (hw : w < 8192) :
    (s.putWord g w v).workWord g k = if k = w then v else s.workWord g k := by
  rw [Stores.putWord_eq]
  unfold Stores.workWord
  dsimp only
  by_cases hk : k = w
  · subst hk
    have hsel : (setBit s.selWork k (s.writeHalf k)).getLsbD k = s.writeHalf k := by
      rw [getLsbD_setBit, if_pos ⟨rfl, hw⟩]
    rw [hsel, if_pos rfl]
    cases s.writeHalf k <;> simp
  · have hsel : (setBit s.selWork w (s.writeHalf w)).getLsbD k = s.selWork.getLsbD k := by
      rw [getLsbD_setBit, if_neg (fun h => hk h.1)]
    rw [hsel, if_neg hk]
    cases s.writeHalf w <;> cases s.selWork.getLsbD k <;> simp [memRead_memWrite_of_ne _ w k v _ hk]

/-- The committed vector does not see what a run writes. -/
theorem Stores.doneWord_putWord (g : Grain) (w k : Nat) (v : W32) (s : Stores) :
    (s.putWord g w v).doneWord g k = s.doneWord g k := by
  rw [Stores.putWord_eq]
  unfold Stores.doneWord Stores.writeHalf
  dsimp only
  by_cases hk : k = w
  · subst hk
    cases s.selDone.getLsbD k <;> rfl
  · cases s.selDone.getLsbD w <;> cases s.selDone.getLsbD k <;> simp [memRead_memWrite_of_ne _ w k v _ hk]

theorem Stores.workBit_putBit (g : Grain) (a k : Nat) (b : Bool) (s : Stores) (ha : a < 0x40000) :
    (s.putBit g a b).workBit g k = if k = a then b else s.workBit g k := by
  unfold Stores.putBit Stores.workBit
  rw [Stores.workWord_putWord g _ _ _ s (by omega)]
  by_cases hw : k / 32 = a / 32
  · rw [if_pos hw, getLsbD_setBit, hw]
    by_cases hk : k = a
    · rw [if_pos ⟨by rw [hk], Nat.mod_lt _ (by omega)⟩, if_pos hk]
    · rw [if_neg (by omega), if_neg hk]
  · rw [if_neg hw, if_neg (fun h => hw (by rw [h]))]

/-! ### Timer cells (R90, R91) -/

theorem Stores.cell_putCell (g : Grain) (a k : Nat) (v : W32) (s : Stores) :
    (s.putCell g a v).cell g k = if k = a then v else s.cell g k := by
  unfold Stores.putCell Stores.cell
  by_cases hk : k = a
  · rw [if_pos hk, hk]; exact memRead_memWrite_same ..
  · rw [if_neg hk]; exact memRead_memWrite_of_ne _ a k v _ hk

@[simp] theorem Stores.workBit_putCell (g : Grain) (a k : Nat) (v : W32) (s : Stores) :
    (s.putCell g a v).workBit g k = s.workBit g k := rfl

@[simp] theorem Stores.cell_putBit (g : Grain) (a k : Nat) (b : Bool) (s : Stores) : (s.putBit g a b).cell g k = s.cell g k := by
  unfold Stores.cell Stores.putBit
  rw [Stores.putWord_timers]

theorem grainWord_involutive (g : Grain) (w : W32) : grainWord g (grainWord g w) = w := by
  cases g <;> simp [grainWord]

/-- A change of the listed words that leaves the default as it is shows at every address. -/
theorem memRead_map {w : Nat} (d : BitVec w) (f : Nat → BitVec w → BitVec w) (m : Mem w) (a : Nat) (hd : f a d = d) :
    memRead d (m.map (fun p => (p.1, f p.1 p.2))) a = f a (memRead d m a) := by
  induction m with
  | nil => exact hd.symm
  | cons p r ih =>
    obtain ⟨b, x⟩ := p
    by_cases hb : b = a
    · simp [memRead, hb]
    · simpa [memRead, hb] using ih

end Sys2Proof.Machine
end

section
/-! SUPPORT. The rows of a run (R72 to R79, R90, R91, R110): what a command of the row's class does to its lane. -/

namespace Sys2Proof.Machine

/-! ### A command that changes one lane -/

theorem OnlyLane.trans {l : LaneId} {a b c : Mach} (h : OnlyLane l a b) (k : OnlyLane l b c) : OnlyLane l a c := by
  obtain ⟨hrest, hlanes⟩ := h
  obtain ⟨krest, klanes⟩ := k
  exact ⟨by rw [← hrest, ← krest], fun j hj hne => (klanes j hj hne).trans (hlanes j hj hne)⟩

theorem OnlyLane.mod {l : LaneId} {a b : Mach} (h : OnlyLane l a b) : b.mod = a.mod := by
  have k := congrArg Mach.mod h.1; exact k

theorem OnlyLane.sd {l : LaneId} {a b : Mach} (h : OnlyLane l a b) : b.sd = a.sd := by
  have k := congrArg Mach.sd h.1; exact k

theorem onlyLane_tick (l : LaneId) (t : Nat) (m : Mach) : OnlyLane l m (m.tick t) := ⟨rfl, fun _ _ _ => rfl⟩

/-- A meaning that changes one lane completes with its effect in every mode, HALT among them. -/
theorem completes_of_onlyLane {i : Instr} {s : State} {P : Mach → Prop} {l : LaneId} {t : Nat} {f : Mach → Mach}
    (he : exec i s = s.run (fun m => f (m.tick t))) (ho : OnlyLane l (s.m.tick t) (f (s.m.tick t))) (hp : P (f (s.m.tick t))) :
    Completes i s (fun m => OnlyLane l s.m m ∧ P m) :=
  completes_of_mode_eq _ he (congrArg ModState.mode ho.mod) ⟨(onlyLane_tick l t s.m).trans ho, hp⟩

/-! ### Fetching (R79) -/

/-- A lane whose fetch stage has marked row `n`: beside the row pointer, only the counts of the memory and the queue of notices may
differ. -/
def FetchMarked (n : Nat) (old x : Lane) : Prop :=
  { x with snd := old.snd, queue := old.queue } = { old with cop := { old.cop with rowPtr := BitVec.ofNat 20 n } }

section
variable {n : Nat} {old x : Lane} (h : FetchMarked n old x)
include h

theorem FetchMarked.mem : x.mem = old.mem := by have k := congrArg Lane.mem h; exact k
theorem FetchMarked.strap : x.strap = old.strap := by have k := congrArg Lane.strap h; exact k
theorem FetchMarked.cop : x.cop = { old.cop with rowPtr := BitVec.ofNat 20 n } := by have k := congrArg Lane.cop h; exact k
theorem FetchMarked.agr : x.agr = old.agr := by have k := congrArg Lane.agr h; exact k

end

theorem Mach.markFetch_marked (l : LaneId) (f : Fetch) (n : Nat) (m : Mach) :
    FetchMarked n (m.lane l) ((m.markFetch l f n).lane l) := by
  unfold Mach.markFetch
  cases f with
  | clean => rw [Mach.lane_updLane_self]; rfl
  | altered w => rw [Mach.lane_updLane_self]; rfl
  | corrected =>
    unfold Mach.postLane
    rw [Mach.lane_updLane_self, Mach.lane_updLane_self, Mach.lane_updLane_self]
    rfl
  | uncorrectable =>
    dsimp only
    generalize hx : Mach.raise _ _ _ = x
    have hl := Mach.lane_of_lanes ((congrArg Mach.lanes hx).symm.trans (Mach.raise_lanes ..)) l
    rw [Mach.lane_updLane_self, Mach.lane_updLane_self] at hl
    generalize (mkNotice _ _ _ _ _ _ : Notice) = notice
    have hq := Mach.postModule_lane notice x l
    rw [hl] at hq
    have k := congrArg (fun y : Lane => { y with snd := (m.lane l).snd, queue := (m.lane l).queue }) hq
    exact k

theorem Mach.markFetch_mod (l : LaneId) (f : Fetch) (n : Nat) (m : Mach) : (m.markFetch l f n).mod = m.mod := by
  unfold Mach.markFetch
  cases f with
  | clean => rfl
  | altered w => rfl
  | corrected => rfl
  | uncorrectable => exact Mach.postModule_mod ..

/-- A fetch that gives a word marks its own lane and nothing else. -/
theorem Mach.markFetch_onlyLane {l : LaneId} {f : Fetch} (n : Nat) (m : Mach) (hf : f ≠ .uncorrectable) :
    OnlyLane l m (m.markFetch l f n) := by
  unfold Mach.markFetch
  cases f with
  | uncorrectable => exact absurd rfl hf
  | clean => exact onlyLane_updLane ..
  | altered w => exact onlyLane_updLane ..
  | corrected => exact ((onlyLane_updLane ..).trans (onlyLane_updLane ..)).trans (onlyLane_updLane ..)

theorem fetched_ne_uncorrectable {f : Fetch} {stored w : W64} (h : fetched f stored = some w) : f ≠ .uncorrectable := by
  rintro rfl
  simp [fetched] at h

/-! ### A row (R75 to R78, R110) -/

/-- A lane in a run, not OUT, whose next row is fetched as `w`. -/
structure NextRow (l : LaneId) (f : Fetch) (w : W64) (m : Mach) : Prop where
  active : (m.lane l).cop.active = true
  running : (m.lane l).cop.ended = false
  life : m.life l ≠ .out
  word : fetched f (memRead 0 (m.lane l).mem.table (m.lane l).cop.next) = some w

theorem Mach.isOut_eq_false {l : LaneId} {m : Mach} (h : m.life l ≠ .out) : m.isOut l = false := beq_eq_false_iff_ne.2 h

/-- What is judged of a fetched row, in this order (R78, R110, R128): its class and reserved fields, the end marker's checks, the
checker. -/
theorem Mach.row_of_nextRow {l : LaneId} {f : Fetch} {w : W64} {m : Mach} (cls : Nat) (differs : Bool) (endOk : W64 → Nat → Bool)
    (eff : W64 → Lane → Lane) (h : NextRow l f w m) :
    m.row l cls f differs endOk eff =
      if classOk w = false ∨ reservedOk w = false then (m.markFetch l f (m.lane l).cop.next).copierFault l 0x04
      else if rowClass w ≠ cls then m
      else if endOk w (m.lane l).cop.next = false then (m.markFetch l f (m.lane l).cop.next).copierFault l 0x05
      else if differs then (m.markFetch l f (m.lane l).cop.next).copierFault l 0x0B
      else (m.markFetch l f (m.lane l).cop.next).updLane l (fun x =>
        { eff w x with cop := { (eff w x).cop with next := (m.lane l).cop.next + 1 } }) := by
  unfold Mach.row
  rw [if_neg (by simp [h.active, h.running, Mach.isOut_eq_false h.life])]
  dsimp only
  rw [h.word]

/-- A row of the command's class, with its reserved fields 0 and its checks passed, takes its effect, and the next row is the one
after. -/
theorem Mach.row_takes_effect {l : LaneId} {f : Fetch} {w : W64} {m : Mach} (cls : Nat) (endOk : W64 → Nat → Bool)
    (eff : W64 → Lane → Lane) (h : NextRow l f w m) (hcls : rowClass w = cls) (hok : classOk w = true)
    (hres : reservedOk w = true) (hend : endOk w (m.lane l).cop.next = true) :
    ∃ x, FetchMarked (m.lane l).cop.next (m.lane l) x ∧ OnlyLane l m (m.row l cls f false endOk eff) ∧
      (m.row l cls f false endOk eff).lane l = { eff w x with cop := { (eff w x).cop with next := (m.lane l).cop.next + 1 } } := by
  have honly := Mach.markFetch_onlyLane (l := l) (m.lane l).cop.next m (fetched_ne_uncorrectable h.word)
  rw [Mach.row_of_nextRow cls false endOk eff h, if_neg (by simp [hok, hres]), if_neg (by simp [hcls]), if_neg (by simp [hend]),
    if_neg Bool.false_ne_true]
  exact ⟨_, Mach.markFetch_marked .., honly.trans (onlyLane_updLane ..), Mach.lane_updLane_self ..⟩

theorem exec_gate (l : LaneId) (f : Fetch) (differs : Bool) (t : Nat) (s : State) :
    exec (.gate l f differs t) s =
      s.run (fun m => (m.tick t).row l 0x1 f differs (fun _ _ => true) (fun w x => gateRow x.strap w x)) := rfl

theorem exec_storeRow (l : LaneId) (f : Fetch) (differs : Bool) (t : Nat) (s : State) :
    exec (.storeRow l f differs t) s =
      s.run (fun m => (m.tick t).row l 0x2 f differs (fun _ _ => true) (fun w x => storeRowOf x.strap w x)) := rfl

theorem exec_timerRow (l : LaneId) (f : Fetch) (differs : Bool) (t : Nat) (s : State) :
    exec (.timerRow l f differs t) s =
      s.run (fun m => (m.tick t).row l 0x3 f differs (fun _ _ => true) (fun w x => timerRowOf x.strap w x)) := rfl

theorem classOk_of_rowClass {w : W64} (h : rowClass w ∈ [0x1, 0x2, 0x3, 0xE]) : classOk w = true := by
  simpa [classOk] using h

theorem rowField_lt (w : W64) (hi lo : Nat) : rowField w hi lo < 2 ^ (hi - lo + 1) := Nat.mod_lt _ (Nat.two_pow_pos _)

end Sys2Proof.Machine

open Sys2Proof Sys2Proof.Machine in
/-- Settles O8: the row takes its effect (`Mach.row_takes_effect`); STORE's is a write of one bit of the working vector, which no
committed word sees. -/
theorem gateAndStoreRows : Obligations.GateAndStoreRows := by
  unfold Obligations.GateAndStoreRows
  refine ⟨fun s l f t w hact hend hlife hword hcls hres => ?_, fun s l f t w hact hend hlife hword hcls hres => ?_⟩
  · obtain ⟨x, hx, honly, hlane⟩ := Mach.row_takes_effect (m := s.m.tick t) 1 (fun _ _ => true) (fun w x => gateRow x.strap w x)
      ⟨hact, hend, hlife, hword⟩ hcls (classOk_of_rowClass (by simp [hcls])) hres rfl
    refine completes_of_onlyLane (f := fun m => m.row l 1 f false _ _) (exec_gate ..) honly ?_
    rw [hlane]
    exact ⟨hx.mem, by simp only [gateRow, hx.mem, hx.strap, hx.cop]; rfl⟩
  · obtain ⟨x, hx, honly, hlane⟩ := Mach.row_takes_effect (m := s.m.tick t) 2 (fun _ _ => true) (fun w x => storeRowOf x.strap w x)
      ⟨hact, hend, hlife, hword⟩ hcls (classOk_of_rowClass (by simp [hcls])) hres rfl
    refine completes_of_onlyLane (f := fun m => m.row l 2 f false _ _) (exec_storeRow ..) honly ?_
    rw [hlane]
    simp only [storeRowOf, hx.mem, hx.strap, hx.cop]
    have hbit := Stores.workBit_putBit (s.m.grain l) (rowField w 29 12) (b := truth (rowField w 59 52) (s.m.lane l).cop.acc
      ((s.m.lane l).mem.workBit (s.m.grain l) (rowField w 49 32)) ((s.m.lane l).mem.workBit (s.m.grain l) (rowField w 29 12)))
      (s := (s.m.lane l).mem) (ha := rowField_lt w 29 12)
    refine ⟨(hbit _).trans (if_pos rfl), fun a ha => (hbit a).trans (if_neg ha), fun k => ?_, ?_, rfl⟩
    · exact Stores.doneWord_putWord ..
    · exact Stores.putWord_timers ..
end

section
/-! SUPPORT. TIMER and END rows (R90, R91, R102): the cell and the done bit that a TIMER row leaves, and the step of the running
cells at the end marker. -/

namespace Sys2Proof.Machine

/-! ### TIMER (R90, R102) -/

theorem timerTrue_eq (en : Bool) (cell : W32) (preset : Nat) :
    timerTrue en cell preset = (if en then setBit cell 31 true else 0, en && decide (10 * preset ≤ cell.toNat % 2 ^ 24)) := by
  cases en <;> rfl

/-- The same on complements: the enable, the running bit, the elapsed time, the preset and the done bit are all inverted. -/
theorem timerCounter_not_eq (acc : Bool) (cell : W32) (preset : Nat) :
    timerCounter (!acc) cell preset =
      (if acc then BitVec.allOnes 32 else setBit cell 31 false,
        acc || decide ((~~~cell).toNat % 2 ^ 24 < 10 * (0xFFFFF - preset))) := by
  cases acc
  · show (_, !decide _) = (_, decide _)
    simp only [← decide_not, Nat.not_le]
    rfl
  · rfl

/-- A TIMER row in true or cross grain. -/
theorem timerRowOf_true {g : Grain} (w : W64) (x : Lane) (hg : g ≠ .counter) :
    timerRowOf g w x =
      let r := timerTrue x.cop.acc (x.mem.cell g (rowField w 39 26)) (rowField w 59 40)
      { x with mem := (x.mem.putCell g (rowField w 39 26) r.1).putBit g (rowField w 25 8) r.2 } := by
  cases g with
  | counter => exact absurd rfl hg
  | true => rfl
  | cross => rfl

/-- A cell and its done bit, written together, read back; the other cells and bits stay. -/
theorem Stores.cell_putTimer (g : Grain) (k a j : Nat) (v : W32) (b : Bool) (s : Stores) :
    ((s.putCell g k v).putBit g a b).cell g j = if j = k then v else s.cell g j :=
  (Stores.cell_putBit ..).trans (Stores.cell_putCell ..)

theorem Stores.workBit_putTimer (g : Grain) (k a j : Nat) (v : W32) (b : Bool) (s : Stores) (ha : a < 0x40000) :
    ((s.putCell g k v).putBit g a b).workBit g j = if j = a then b else s.workBit g j :=
  Stores.workBit_putBit g a j b (s.putCell g k v) ha

/-! ### END (R91) -/

/-- What END does to its lane: the end marker is passed, and the running cells step (R78, R91). -/
def endRowOf (cMs : Nat) (x : Lane) : Lane :=
  { x with
    cop := { x.cop with ended := true }
    mem := match x.mem.header with
      | some h => timerStep x.strap h x.cop.timers.toNat cMs x.mem
      | none => x.mem }

theorem exec_endRow (l : LaneId) (f : Fetch) (differs : Bool) (t : Nat) (s : State) :
    exec (.endRow l f differs t) s =
      s.run (fun m => (m.tick t).row l 0xE f differs (endRowOk (m.grain l)) (fun _ => endRowOf m.cycleMs)) := rfl

theorem endRowOf_mem {cMs : Nat} {x : Lane} {h : ImageHeader} (hh : x.mem.header = some h) :
    (endRowOf cMs x).mem = timerStep x.strap h x.cop.timers.toNat cMs x.mem := by
  unfold endRowOf
  rw [hh]

/-- A stored cell that reads true-grain 0 does not run. -/
theorem stepCell_vecDefault (g : Grain) (cMs : Nat) : stepCell g cMs (vecDefault g) = vecDefault g := by
  unfold stepCell vecDefault
  rw [grainWord_involutive]
  simp

/-- The true-grain cell that a lane stores as `w` after the step, in true grain. -/
theorem grainWord_stepCell (g : Grain) (cMs : Nat) (w : W32) :
    grainWord g (stepCell g cMs w) =
      if (grainWord g w).getLsbD 31 then
        BitVec.ofNat 32 ((grainWord g w).toNat / 2 ^ 24 * 2 ^ 24 + min 0xFFFFFF ((grainWord g w).toNat % 2 ^ 24 + cMs))
      else grainWord g w := by
  unfold stepCell
  rw [grainWord_involutive]

theorem Stores.cell_timerStep (g : Grain) (h : ImageHeader) (timers cMs a : Nat) (s : Stores) :
    (timerStep g h timers cMs s).cell g a = if trueCell g h a < timers then stepCell g cMs (s.cell g a) else s.cell g a := by
  have hstep : (fun p : Nat × W32 => if trueCell g h p.1 < timers then (p.1, stepCell g cMs p.2) else p) =
      fun p => (p.1, if trueCell g h p.1 < timers then stepCell g cMs p.2 else p.2) := by
    funext p; split <;> rfl
  unfold timerStep Stores.cell
  rw [hstep, memRead_map _ (fun k v => if trueCell g h k < timers then stepCell g cMs v else v)]
  rw [stepCell_vecDefault, ite_self]

@[simp] theorem timerStep_header (g : Grain) (h : ImageHeader) (timers cMs : Nat) (s : Stores) :
    (timerStep g h timers cMs s).header = s.header := rfl

@[simp] theorem timerStep_workWord (g : Grain) (h : ImageHeader) (timers cMs k : Nat) (s : Stores) :
    (timerStep g h timers cMs s).workWord g k = s.workWord g k := rfl

/-- The step of the running cells in true grain: a cell below `TIMERS` whose running bit is 1 takes the cycle length, saturating. -/
theorem Lane.trueCellWord_timerStep {g : Grain} {h : ImageHeader} {x y : Lane} {timers cMs k : Nat} (hx : x.mem.header = some h)
    (hy : y.mem = timerStep g h timers cMs x.mem) (hk : trueCell g h (cellAddr g h k) = k) :
    y.trueCellWord g k =
      if k < timers ∧ (x.trueCellWord g k).getLsbD 31 = true then
        BitVec.ofNat 32 ((x.trueCellWord g k).toNat / 2 ^ 24 * 2 ^ 24 + min 0xFFFFFF ((x.trueCellWord g k).toNat % 2 ^ 24 + cMs))
      else x.trueCellWord g k := by
  have hcell : ∀ z : Lane, z.mem.header = some h → z.trueCellWord g k = grainWord g (z.mem.cell g (cellAddr g h k)) := by
    intro z hz
    unfold Lane.trueCellWord
    rw [hz]
  rw [hcell y (by rw [hy]; exact hx), hcell x hx, hy, Stores.cell_timerStep, hk, apply_ite (grainWord g), grainWord_stepCell, ite_and]

end Sys2Proof.Machine

open Sys2Proof Sys2Proof.Machine in
/-- Settles O9: a TIMER row writes its cell and its done bit, and END maps every listed cell; each is read back through the writes of
the run. -/
theorem timerAndEndRows : Obligations.TimerAndEndRows := by
  unfold Obligations.TimerAndEndRows
  refine ⟨fun s l f t w hg hact hend hlife hword hcls hres => ?_, fun s l f t w hg hact hend hlife hword hcls hres => ?_,
    fun s l f t w h hact hend hlife hh hword hcls hres hrow hgrain hinv => ?_⟩
  · obtain ⟨x, hx, honly, hlane⟩ := Mach.row_takes_effect (m := s.m.tick t) 3 (fun _ _ => true) (fun w x => timerRowOf x.strap w x)
      ⟨hact, hend, hlife, hword⟩ hcls (classOk_of_rowClass (by simp [hcls])) hres rfl
    refine completes_of_onlyLane (f := fun m => m.row l 3 f false _ _) (exec_timerRow ..) honly ?_
    have hstrap : x.strap = s.m.grain l := hx.strap
    rw [hlane, hstrap, timerRowOf_true w x hg, timerTrue_eq, hx.mem, hx.cop]
    refine ⟨?_, ?_, fun k hk => ?_, fun a ha => ?_, rfl⟩
    · exact (Stores.cell_putTimer ..).trans (if_pos rfl)
    · exact (Stores.workBit_putTimer _ _ _ _ _ _ _ (rowField_lt w 25 8)).trans (if_pos rfl)
    · exact (Stores.cell_putTimer ..).trans (if_neg hk)
    · exact (Stores.workBit_putTimer _ _ _ _ _ _ _ (rowField_lt w 25 8)).trans (if_neg ha)
  · obtain ⟨x, hx, honly, hlane⟩ := Mach.row_takes_effect (m := s.m.tick t) 3 (fun _ _ => true) (fun w x => timerRowOf x.strap w x)
      ⟨hact, hend, hlife, hword⟩ hcls (classOk_of_rowClass (by simp [hcls])) hres rfl
    refine completes_of_onlyLane (f := fun m => m.row l 3 f false _ _) (exec_timerRow ..) honly ?_
    have hstrap : x.strap = .counter := hx.strap.trans hg
    rw [hlane, hstrap]
    unfold timerRowOf
    dsimp only
    rw [timerCounter_not_eq, hx.mem, hx.cop]
    refine ⟨?_, ?_⟩
    · exact (Stores.cell_putTimer ..).trans (if_pos rfl)
    · exact (Stores.workBit_putTimer _ _ _ _ _ _ _ (rowField_lt w 25 8)).trans (if_pos rfl)
  · obtain ⟨x, hx, honly, hlane⟩ := Mach.row_takes_effect (m := s.m.tick t) 14 (endRowOk (s.m.grain l))
      (fun _ => endRowOf s.m.cycleMs) ⟨hact, hend, hlife, hword⟩ hcls (classOk_of_rowClass (by simp [hcls])) hres (by
        show (rowField w 59 40 == (s.m.lane l).cop.next && rowField w 39 38 == grainCode (s.m.grain l)) = true
        rw [hrow, hgrain, beq_self_eq_true, beq_self_eq_true, Bool.and_self])
    refine completes_of_onlyLane (f := fun m => m.row l 0xE f false (endRowOk (m.grain l)) (fun _ => endRowOf m.cycleMs))
      (exec_endRow ..) honly ?_
    have hmem : (endRowOf s.m.cycleMs x).mem =
        timerStep (s.m.grain l) h (s.m.lane l).cop.timers.toNat s.m.cycleMs (s.m.lane l).mem := by
      rw [endRowOf_mem (h := h) (by rw [hx.mem]; exact hh), hx.mem, hx.strap, hx.cop]
      rfl
    have hcop : (endRowOf s.m.cycleMs x).cop =
        { (s.m.lane l).cop with ended := true, rowPtr := BitVec.ofNat 20 (s.m.lane l).cop.next } := by
      show ({ x.cop with ended := true } : Copier) = _
      rw [hx.cop]
      rfl
    dsimp only at hlane ⊢
    rw [show (s.m.tick t).cycleMs = s.m.cycleMs from rfl, show (s.m.tick t).grain l = s.m.grain l from rfl, hlane]
    exact ⟨by rw [hcop]; rfl, fun k hk => Lane.trueCellWord_timerStep hh hmem (hinv k hk), fun k => by
      rw [hmem]; exact timerStep_workWord ..⟩
end

section
/-! SUPPORT. A lane fault (R128): the lane goes OUT with its cause, and nothing that its OUT entry brings for the module takes that back,
be it HALT. -/

namespace Sys2Proof.Machine

/-! ### What leaves the lanes alone -/

/-- Operations in a row keep whatever each of them keeps. -/
theorem Mach.foldl_keeps {α β : Type} (v : Mach → α) {f : Mach → β → Mach} (hf : ∀ m x, v (f m x) = v m) (xs : List β) (m : Mach) :
    v (xs.foldl f m) = v m := by
  induction xs generalizing m with
  | nil => rfl
  | cons x xs ih => exact (ih _).trans (hf m x)

theorem Mach.abandonTest_lanes (m : Mach) : m.abandonTest.lanes = m.lanes := by
  unfold Mach.abandonTest; split <;> rfl

theorem Mach.trialWritten_lanes (m : Mach) : m.trialWritten.lanes = m.lanes := by
  unfold Mach.trialWritten; split <;> rfl

theorem Mach.askArp_lanes (n : Net) (dst : W32) (m : Mach) : (m.askArp n dst).lanes = m.lanes := by
  unfold Mach.askArp; dsimp only; split <;> rfl

theorem Mach.jxtSend_lanes (k : Nat) (words : List W64) (m : Mach) : (m.jxtSend k words).lanes = m.lanes := by
  unfold Mach.jxtSend
  split
  · rfl
  · split
    · rfl
    · rw [Mach.updConn_lanes]
      refine Mach.foldl_keeps Mach.lanes ?_ _ m
      exact fun m q => Mach.askArp_lanes q.1 q.2.1 m

theorem Mach.sporadicQueue_lanes (i : RingId) (msg : Nat) (words : List W64) (cycle : W32) (m : Mach) :
    (m.sporadicQueue i msg words cycle).lanes = m.lanes := by
  unfold Mach.sporadicQueue
  split
  · rfl
  · simp only [apply_ite Mach.lanes, Mach.raise_lanes, Mach.updRing_lanes, ite_self]

theorem Mach.canStart_lanes (p : CanId) (cfg : CanCfg) (m : Mach) : (m.canStart p cfg).lanes = m.lanes := by
  unfold Mach.canStart; split
  · exact Mach.updCan_lanes ..
  · rfl

theorem Mach.releaseCan_lanes (p : CanId) (b : Nat) (words : List W64) (cycle : W32) (m : Mach) :
    (m.releaseCan p b words cycle).lanes = m.lanes := by
  unfold Mach.releaseCan
  split
  · rfl
  · split
    · rfl
    · exact (Mach.canStart_lanes ..).trans (Mach.updCan_lanes ..)

theorem Mach.releaseMsg_lanes (c : MsgCfg) (cycle : W32) (words : List W64) (m : Mach) :
    (m.releaseMsg c cycle words).lanes = m.lanes := by
  unfold Mach.releaseMsg
  split
  · rfl
  · rfl
  · exact Mach.sporadicQueue_lanes ..
  · exact Mach.jxtSend_lanes ..
  · exact Mach.releaseCan_lanes ..
  · exact Mach.updCan_lanes ..

theorem Mach.tryRelease_lanes (msg : Nat) (m : Mach) : (m.tryRelease msg).lanes = m.lanes := by
  unfold Mach.tryRelease
  split
  · rfl
  · split
    · rfl
    · split
      · rfl
      · exact Mach.releaseMsg_lanes ..

theorem Mach.emitVoted_lanes (s : VoteSlot) (v : W64) (m : Mach) : (m.emitVoted s v).lanes = m.lanes := by
  have hout : ∀ ps : List (LaneId × Copy), (ps.foldl (fun m p => m.outvote s p.1)
      (m.updSlot s.key (fun x => { x with voted := some v }))).lanes = m.lanes := by
    intro ps
    refine Mach.foldl_keeps Mach.lanes ?_ ps _
    exact fun _ _ => rfl
  unfold Mach.emitVoted
  dsimp only
  split
  · exact hout _
  · exact (Mach.tryRelease_lanes ..).trans (hout _)

/-! ### What lasts of a lane -/

/-- A property of a lane that notices, mode changes and the hold of HALT leave true. -/
structure Lasting (P : Lane → Prop) : Prop where
  queue : ∀ (x : Lane) q, P { x with queue := q } ↔ P x
  keys : ∀ (x : Lane) k, P { x with keys := k } ↔ P x
  comm : ∀ (x : Lane) c, P { x with comm := c } ↔ P x
  hold : ∀ (x : Lane) now, P x → P (x.hold now)

/-- Whatever lasts holds of every lane of `b` of which it holds in `a`. -/
structure Carries (a b : Mach) : Prop where
  lasts : ∀ P : Lane → Prop, Lasting P → ∀ l, P (a.lane l) → P (b.lane l)

theorem Carries.trans {a b c : Mach} (h : Carries a b) (k : Carries b c) : Carries a c :=
  ⟨fun P hP l hl => k.lasts P hP l (h.lasts P hP l hl)⟩

theorem Carries.of_lanes {a b : Mach} (h : b.lanes = a.lanes) : Carries a b :=
  ⟨fun P _ l hl => by rw [Mach.lane_of_lanes h l]; exact hl⟩

theorem Carries.foldl {β : Type} {f : Mach → β → Mach} (hf : ∀ m x, Carries m (f m x)) (xs : List β) (m : Mach) :
    Carries m (xs.foldl f m) := by
  induction xs generalizing m with
  | nil => exact .of_lanes rfl
  | cons x xs ih => exact (hf m x).trans (ih _)

theorem Mach.raise_carries (path : List Nat) (bit : Nat) (m : Mach) : Carries m (m.raise path bit) := .of_lanes rfl

theorem Mach.postModule_carries (n : Notice) (m : Mach) : Carries m (m.postModule n) := by
  refine ⟨fun P hP l hl => ?_⟩
  rw [← Mach.postModule_lane n m l] at hl
  exact (hP.queue _ _).1 hl

theorem Mach.enterModeAt_carries (cyc : W32) (new : Mode) (m : Mach) : Carries m (m.enterModeAt cyc new) := by
  refine ⟨fun P hP l hl => ?_⟩
  have h := Mach.enterModeAt_lane P cyc new m l (fun x k => propext (hP.keys x k)) (fun x c => propext (hP.comm x c))
    (fun x q => propext (hP.queue x q))
  exact h.mpr hl

theorem Mach.holdLanes_carries (m : Mach) : Carries m m.holdLanes := by
  refine ⟨fun P hP l hl => ?_⟩
  unfold Mach.holdLanes
  rw [Mach.lane_updLanes]
  exact hP.hold _ _ hl

theorem Mach.forcedOffAll_carries (m : Mach) : Carries m m.forcedOffAll := .of_lanes (Mach.forcedOffAll_butField m).lanes

theorem Mach.eraseToken_carries (m : Mach) : Carries m m.eraseToken := .of_lanes rfl

theorem Mach.enterHalt_carries (cause : Byte) (src : Nat) (m : Mach) : Carries m (m.enterHalt cause src) := by
  unfold Mach.enterHalt
  split
  · exact .of_lanes rfl
  · dsimp only
    refine .trans ?_ (Mach.postModule_carries ..)
    refine .trans ?_ (Mach.raise_carries ..)
    refine .trans ?_ (Mach.enterModeAt_carries ..)
    refine .trans ?_ (Mach.eraseToken_carries _)
    refine .trans ?_ (.of_lanes (Mach.portsOff_lanes _))
    refine .trans ?_ (Mach.forcedOffAll_carries _)
    refine .trans ?_ (Mach.holdLanes_carries _)
    exact .of_lanes ((Mach.trialWritten_lanes _).trans (Mach.abandonTest_lanes m))

theorem Mach.haltCallipers_carries (code : Byte) (m : Mach) : Carries m (m.haltCallipers code) := by
  unfold Mach.haltCallipers
  split
  · exact .of_lanes rfl
  · refine .trans ?_ (Mach.enterHalt_carries ..)
    exact .of_lanes rfl

theorem Mach.slotHalt_carries (s : VoteSlot) (m : Mach) : Carries m (m.slotHalt s) := by
  unfold Mach.slotHalt
  refine .trans ?_ (Mach.haltCallipers_carries ..)
  exact .of_lanes (Mach.updVote_lanes ..)

theorem Mach.judgeSlot_carries (k : Nat × Nat) (m : Mach) : Carries m (m.judgeSlot k) := by
  unfold Mach.judgeSlot
  split
  · exact .of_lanes rfl
  · split
    · exact .of_lanes rfl
    · dsimp only
      split
      · exact .of_lanes (Mach.emitVoted_lanes ..)
      · split
        · exact Mach.slotHalt_carries ..
        · exact .of_lanes rfl

theorem Mach.removeCopies_carries (l : LaneId) (m : Mach) : Carries m (m.removeCopies l) := by
  unfold Mach.removeCopies
  refine .trans (.of_lanes (Mach.updVote_lanes ..)) (Carries.foldl ?_ _ _)
  exact fun m k => m.judgeSlot_carries k

theorem Mach.countVoters_carries (m : Mach) : Carries m m.countVoters := by
  unfold Mach.countVoters
  split
  · exact .of_lanes rfl
  · split
    · exact Mach.enterHalt_carries ..
    · split
      · exact Mach.enterModeAt_carries ..
      · exact .of_lanes rfl

/-! ### OUT -/

/-- A lane that goes OUT keeps, of what `Lane.goOut` makes of it, everything that lasts. -/
theorem Mach.laneOutFor_carries (roll : Bool) (l : LaneId) (cause : Byte) (m : Mach) (ho : m.isOut l = false)
    (hm : m.mod.mode ≠ .halt) : Carries (m.updLane l (Lane.goOut roll cause m.now)) (m.laneOutFor roll l cause) := by
  unfold Mach.laneOutFor
  rw [if_neg (by simp [ho, hm])]
  dsimp only
  generalize hx : (m.updLane l (Lane.goOut roll cause m.now)).raise (lanePath l 6) 0 = x
  refine Carries.trans (.of_lanes (b := x) (by rw [← hx, Mach.raise_lanes])) ?_
  generalize hy : (if (m.lane l).agr.locked = true then x else if (x.lane l).agr.locked = true then x.raise (lanePath l 6) 3 else x) = y
  refine Carries.trans (.of_lanes (b := y) (by rw [← hy]; (repeat' split) <;> rfl)) ?_
  generalize hz : (if m.isVoting l = true then y else y.raise (lanePath l 6) 2) = z
  refine Carries.trans (.of_lanes (b := z) (by rw [← hz]; split <;> rfl)) ?_
  split
  · exact (((Mach.postModule_carries _ z).trans (Mach.removeCopies_carries ..)).trans (Mach.forcedOffAll_carries _)).trans
      (Mach.countVoters_carries _)
  · exact Mach.postModule_carries _ z

/-- What a lane fault leaves on the lane itself lasts. -/
def FaultLeft (cause : Byte) (faults : W16) (sel : BitVec 8192) (x : Lane) : Prop :=
  x.cop.faultCause = cause ∧ x.cop.faults = faults ∧ x.cop.active = false ∧ x.agr.life = .out ∧ x.agr.outCause = cause ∧
    x.agr.held = true ∧ x.drive.windings = 0 ∧ x.mem.selDone = sel

theorem faultLeft_lasting (cause : Byte) (faults : W16) (sel : BitVec 8192) : Lasting (FaultLeft cause faults sel) where
  queue _ _ := Iff.rfl
  keys _ _ := Iff.rfl
  comm _ _ := Iff.rfl
  hold _ _ h := by
    obtain ⟨hcause, hfaults, -, -, hout, -, -, hsel⟩ := h
    exact ⟨hcause, hfaults, rfl, rfl, hout, rfl, rfl, hsel⟩

/-- A lane fault outside HALT, of a lane that is not OUT (R128). -/
theorem Mach.copierFault_spec (l : LaneId) (cause : Byte) (m : Mach) (ho : m.isOut l = false) (hm : m.mod.mode ≠ .halt) :
    LaneFault l cause m (m.copierFault l cause) := by
  unfold Mach.copierFault
  rw [if_neg (by simp [ho, hm])]
  dsimp only
  generalize hx : (m.updLane l (fun x => { x with cop := { x.cop with
    faultCause := cause, faultRow := x.cop.rowPtr, faults := satInc x.cop.faults } })).raise (lanePath l 3) 0 = x
  have hl : x.lane l = { m.lane l with cop := { (m.lane l).cop with
      faultCause := cause, faultRow := (m.lane l).cop.rowPtr, faults := satInc (m.lane l).cop.faults } } := by
    rw [← hx]; exact Mach.lane_updLane_self ..
  have hxo : x.isOut l = false := by unfold Mach.isOut Mach.life at *; rw [hl]; exact ho
  have hxm : x.mod.mode ≠ .halt := by rw [← hx]; exact hm
  refine (Mach.laneOutFor_carries false l cause x hxo hxm).lasts (FaultLeft cause (satInc (m.lane l).cop.faults) (m.lane l).mem.selDone)
    (faultLeft_lasting ..) l ?_
  rw [Mach.lane_updLane_self, hl]
  exact ⟨rfl, rfl, rfl, rfl, rfl, rfl, rfl, rfl⟩

/-! ### Row faults (R78, R79, R110) -/

/-- A row fault: the fetch is marked, and the lane is OUT with the cause. -/
theorem Mach.rowFault_spec (l : LaneId) (f : Fetch) (n : Nat) (cause : Byte) (m : Mach) (ho : m.life l ≠ .out)
    (hm : m.mod.mode ≠ .halt) : LaneFault l cause m ((m.markFetch l f n).copierFault l cause) := by
  have hmark := Mach.markFetch_marked l f n m
  have hfault := Mach.copierFault_spec l cause (m.markFetch l f n)
    (by unfold Mach.isOut Mach.life; rw [hmark.agr]; exact Mach.isOut_eq_false ho) (by rw [Mach.markFetch_mod]; exact hm)
  unfold LaneFault at *
  rw [hmark.cop, hmark.mem] at hfault
  exact hfault

/-- A row command outside HALT completes with the fault that its row gives. -/
theorem completes_rowFault {i : Instr} {s : State} {l : LaneId} {f : Fetch} {differs : Bool} {t cls : Nat} {cause : Byte}
    {endOk : Mach → W64 → Nat → Bool} {eff : Mach → W64 → Lane → Lane}
    (he : exec i s = s.run (fun m => (m.tick t).row l cls f differs (endOk m) (eff m))) (hm : s.m.mod.mode ≠ .halt)
    (hfault : LaneFault l cause (s.m.tick t) ((s.m.tick t).row l cls f differs (endOk s.m) (eff s.m))) :
    Completes i s (LaneFault l cause s.m) := completes_of_ne_halt _ he hm hfault

/-- A row that cannot be fetched. -/
theorem Mach.row_uncorrectable {l : LaneId} {m : Mach} (cls : Nat) (differs : Bool) (endOk : W64 → Nat → Bool)
    (eff : W64 → Lane → Lane) (hact : (m.lane l).cop.active = true) (hend : (m.lane l).cop.ended = false) (ho : m.life l ≠ .out)
    (hm : m.mod.mode ≠ .halt) : LaneFault l 0x06 m (m.row l cls .uncorrectable differs endOk eff) := by
  unfold Mach.row
  rw [if_neg (by simp [hact, hend, Mach.isOut_eq_false ho])]
  exact Mach.rowFault_spec l .uncorrectable _ 0x06 m ho hm

/-- A row of no class, or with a reserved field that is not 0. -/
theorem Mach.row_undecodable {l : LaneId} {f : Fetch} {w : W64} {m : Mach} (cls : Nat) (differs : Bool) (endOk : W64 → Nat → Bool)
    (eff : W64 → Lane → Lane) (h : NextRow l f w m) (hm : m.mod.mode ≠ .halt)
    (hbad : rowClass w ∉ [0x1, 0x2, 0x3, 0xE] ∨ reservedOk w = false) : LaneFault l 0x04 m (m.row l cls f differs endOk eff) := by
  have hbad' : classOk w = false ∨ reservedOk w = false := hbad.imp_left (fun hc => by simpa [classOk] using hc)
  rw [Mach.row_of_nextRow cls differs endOk eff h, if_pos hbad']
  exact Mach.rowFault_spec l f _ 0x04 m h.life hm

end Sys2Proof.Machine

open Sys2Proof Sys2Proof.Machine in
/-- Settles O10: each row that is turned away is a lane fault, which lasts through whatever its OUT entry brings
(`Mach.copierFault_spec`). -/
theorem rowFaults : Obligations.RowFaults := by
  unfold Obligations.RowFaults
  refine ⟨fun s l d t hm hact hend hlife => ?_, fun s l f d t w hm hact hend hlife hword hbad => ?_,
    fun s l f d t w hm hact hend hlife hword hcls hres hmark => ?_, fun s l f t w hm hact hend hlife hword hcls hres => ?_⟩
  · have fault := fun cls endOk eff => Mach.row_uncorrectable (m := s.m.tick t) cls d endOk eff hact hend hlife hm
    exact ⟨completes_rowFault (exec_gate ..) hm (fault ..), completes_rowFault (exec_storeRow ..) hm (fault ..),
      completes_rowFault (exec_timerRow ..) hm (fault ..), completes_rowFault (exec_endRow ..) hm (fault ..)⟩
  · have fault := fun cls endOk eff =>
      Mach.row_undecodable (m := s.m.tick t) cls d endOk eff ⟨hact, hend, hlife, hword⟩ hm hbad
    exact ⟨completes_rowFault (exec_gate ..) hm (fault ..), completes_rowFault (exec_storeRow ..) hm (fault ..),
      completes_rowFault (exec_timerRow ..) hm (fault ..), completes_rowFault (exec_endRow ..) hm (fault ..)⟩
  · have hclass := classOk_of_rowClass (w := w) (by simp [hcls])
    have hno : endRowOk (s.m.grain l) w (s.m.lane l).cop.next = false := by
      unfold endRowOk
      rcases hmark with h | h
      · rw [beq_eq_false_iff_ne.2 h, Bool.false_and]
      · rw [beq_eq_false_iff_ne.2 h, Bool.and_false]
    refine completes_rowFault (exec_endRow ..) hm ?_
    rw [Mach.row_of_nextRow _ _ _ _ (m := s.m.tick t) ⟨hact, hend, hlife, hword⟩, if_neg (by simp [hclass, hres]),
      if_neg (by simp [hcls]), if_pos (by exact hno)]
    exact Mach.rowFault_spec l f _ 0x05 (s.m.tick t) hlife hm
  · have hclass := classOk_of_rowClass (w := w) (by simp [hcls])
    refine completes_rowFault (exec_gate ..) hm ?_
    rw [Mach.row_of_nextRow _ _ _ _ (m := s.m.tick t) ⟨hact, hend, hlife, hword⟩, if_neg (by simp [hclass, hres]),
      if_neg (by simp [hcls]), if_neg Bool.true_eq_false.mp, if_pos rfl]
    exact Mach.rowFault_spec l f _ 0x0B (s.m.tick t) hlife hm
end

section
/-! SUPPORT. What a lane takes from the networks at its sampling phase stays, on the lane, within its communication records and its
check-value contexts (R273 to R276, R319 to R324, R357 to R359); and with it the input image that it forms (R93, R95, R193, R194). -/

namespace Sys2Proof.Machine

/-! ### What the networks' take leaves alone -/

/-- Nothing differs but the ring interfaces, the JXT and CAN ports, the causes on the pages and the notices of the port section. -/
def ButNetworks (a b : Mach) : Prop :=
  { b with
    ring1 := a.ring1, ring2 := a.ring2, jxt := a.jxt, can1 := a.can1, can2 := a.can2, irq := a.irq
    cal := { b.cal with fifo := a.cal.fifo } } = a

/-- A lane that differs in its communication records and its check-value contexts alone. -/
def LaneTakes (x y : Lane) : Prop := { y with comm := x.comm, cv := x.cv, cvLost := x.cvLost } = x

theorem LaneTakes.trans {x y z : Lane} (h : LaneTakes x y) (k : LaneTakes y z) : LaneTakes x z := by
  unfold LaneTakes at *
  rw [← h, ← k]

theorem LaneTakes.updRingRec (i : RingId) (j : Nat) (f : RingRec → RingRec) (x : Lane) : LaneTakes x (x.updRingRec i j f) := by
  cases i <;> rfl

theorem LaneTakes.updCanRec (p : CanId) (b : Nat) (f : CanRec → CanRec) (x : Lane) : LaneTakes x (x.updCanRec p b f) := by
  cases p <;> rfl

theorem LaneTakes.updCv (ctx : Nat) (f : CvCtx → CvCtx) (x : Lane) : LaneTakes x (x.updCv ctx f) := rfl

/-- Nothing differs beside the networks' own state but lane `l`, and that only so. -/
structure TakesOnly (l : LaneId) (a b : Mach) : Prop where
  own : LaneTakes (a.lane l) (b.lane l)
  others : ∀ k, k ≠ l → b.lane k = a.lane k
  rest : ButNetworks a { b with lanes := a.lanes }

namespace TakesOnly

variable {l : LaneId} {a b c : Mach}

theorem refl (l : LaneId) (m : Mach) : TakesOnly l m m := ⟨rfl, fun _ _ => rfl, rfl⟩

theorem trans (h : TakesOnly l a b) (k : TakesOnly l b c) : TakesOnly l a c where
  own := h.own.trans k.own
  others j hj := (k.others j hj).trans (h.others j hj)
  rest := by
    have hr := h.rest
    have kr := congrArg (fun m : Mach => { m with lanes := a.lanes }) k.rest
    unfold ButNetworks at *
    rw [← hr, ← kr]

theorem ite {p : Prop} [Decidable p] (h : TakesOnly l a b) (k : TakesOnly l a c) : TakesOnly l a (if p then b else c) := by
  split
  · exact h
  · exact k

theorem foldl {β : Type} {f : Mach → β → Mach} (hf : ∀ m x, TakesOnly l m (f m x)) (xs : List β) (m : Mach) :
    TakesOnly l m (xs.foldl f m) := by
  induction xs generalizing m with
  | nil => exact refl l m
  | cons x xs ih => exact (hf m x).trans (ih _)

theorem of_butNetworks (h : ButNetworks a b) : TakesOnly l a b := by
  have hl : b.lanes = a.lanes := by have k := congrArg Mach.lanes h; exact k
  exact ⟨by rw [Mach.lane_of_lanes hl]; rfl, fun k _ => Mach.lane_of_lanes hl k, by rw [← hl]; exact h⟩

theorem updLane {f : Lane → Lane} (m : Mach)
    (hf : ∀ x, LaneTakes x (f x) := by exact fun _ => rfl) :
    TakesOnly l m (m.updLane l f) where
  own := by rw [Mach.lane_updLane_self]; exact hf _
  others k hk := Mach.lane_updLane_of_ne l k f m hk
  rest := rfl

theorem raise (path : List Nat) (bit : Nat) (m : Mach) : TakesOnly l m (m.raise path bit) := of_butNetworks rfl
theorem postCal (n : Notice) (m : Mach) : TakesOnly l m (m.postCal n) := of_butNetworks rfl
theorem updConn (k : Nat) (f : JxtConn → JxtConn) (m : Mach) : TakesOnly l m (m.updConn k f) := of_butNetworks rfl
theorem updRing (i : RingId) (f : RingIfc → RingIfc) (m : Mach) : TakesOnly l m (m.updRing i f) := by
  cases i <;> exact of_butNetworks rfl
theorem updCan (p : CanId) (f : CanPort → CanPort) (m : Mach) : TakesOnly l m (m.updCan p f) := by
  cases p <;> exact of_butNetworks rfl

theorem now (h : TakesOnly l a b) : b.now = a.now := by have k := congrArg Mach.now h.rest; exact k
theorem mod (h : TakesOnly l a b) : b.mod = a.mod := by have k := congrArg Mach.mod h.rest; exact k
theorem sd (h : TakesOnly l a b) : b.sd = a.sd := by have k := congrArg Mach.sd h.rest; exact k

end TakesOnly

theorem Mach.checkIn_takes {l : LaneId} {lost check : Mach → Mach} (ctx : Nat) (hl : ∀ m, TakesOnly l m (lost m))
    (hc : ∀ m, TakesOnly l m (check m)) (m : Mach) : TakesOnly l m (m.checkIn l ctx lost check) := by
  unfold Mach.checkIn
  split
  · refine .trans ?_ (hl _)
    exact .updLane m
  · exact hc m

/-! ### Rings -/

theorem Mach.updEntries_takes (l : LaneId) (i : RingId) (p : Nat → RingEntry → Bool) (f : EntryRec → EntryRec) (m : Mach) :
    TakesOnly l m (m.updEntries i p f) := by
  unfold Mach.updEntries
  exact .updRing ..

theorem Mach.noteRing_takes (l : LaneId) (i : RingId) (src : Nat) (p0 p1 : W32) (m : Mach) :
    TakesOnly l m (m.noteRing i src p0 p1) := TakesOnly.postCal ..

theorem Mach.ringCheck_takes (l : LaneId) (i : RingId) (j : Nat) (e : RingEntry) (f : Settled) (m : Mach) :
    TakesOnly l m (m.ringCheck l i j e f) := by
  unfold Mach.ringCheck
  dsimp only
  generalize hm : Mach.updLane l _ m = m1
  have own : TakesOnly l m m1 := hm ▸ .updLane m (fun x => (LaneTakes.updCv 1 _ x).trans (.updRingRec i j _ _))
  refine own.trans ?_
  split
  · exact .ite (Mach.updEntries_takes ..) (.refl ..)
  · exact .ite (.raise ..) (.refl ..)

theorem Mach.ringTimeout_takes (l : LaneId) (i : RingId) (j k : Nat) (e : RingEntry) (m : Mach) :
    TakesOnly l m (m.ringTimeout l i j k e) := by
  unfold Mach.ringTimeout
  dsimp only
  refine .ite (.refl ..) ?_
  generalize hm : Mach.updLane l _ m = m1
  have own : TakesOnly l m m1 := hm ▸ .updLane m (LaneTakes.updRingRec i j _)
  refine own.trans ?_
  exact .ite (((Mach.updEntries_takes ..).trans (.raise ..)).trans (Mach.noteRing_takes ..)) (.refl ..)

theorem Mach.ringTake_takes (l : LaneId) (i : RingId) (m : Mach) : TakesOnly l m (m.ringTake l i) := by
  unfold Mach.ringTake
  dsimp only
  refine .trans (TakesOnly.ite (.updRing ..) (.refl ..)) (TakesOnly.foldl (fun m q => ?_) _ _)
  split
  · exact .refl ..
  · refine .trans ?_ (Mach.ringTimeout_takes ..)
    split
    · exact .ite (.refl ..) (Mach.checkIn_takes 1 (fun m => .updLane m (LaneTakes.updRingRec i _ _))
        (Mach.ringCheck_takes l i _ _ _) m)
    · exact .refl ..

/-! ### JXT -/

theorem Mach.jxtLast_takes (l : LaneId) (k : Nat) (number : W16) (cause : Nat) (m : Mach) :
    TakesOnly l m (m.jxtLast k number cause) := .of_butNetworks rfl

theorem Mach.noteJxt_takes (l : LaneId) (k src : Nat) (p0 p1 : W32) (m : Mach) : TakesOnly l m (m.noteJxt k src p0 p1) :=
  .postCal ..

theorem jxtCount_takes (l : LaneId) (j : Jxt) (m : Mach) : TakesOnly l m { m with jxt := j } := .of_butNetworks rfl

theorem Mach.jxtCheck_takes (l : LaneId) (k : Nat) (c : JxtCfg) (ws : List W64) (serial : Nat) (m : Mach) :
    TakesOnly l m (m.jxtCheck l k c ws serial) := by
  unfold Mach.jxtCheck
  dsimp only
  generalize hm : Mach.updLane l _ m = m1
  have own : TakesOnly l m m1 := hm ▸ .updLane m
  refine own.trans (.ite (.refl ..) ?_)
  generalize hr : (if (_ && _) = true then _ else m1) = m2
  have restart : TakesOnly l m1 m2 := hr ▸ .ite ((jxtCount_takes ..).trans (Mach.noteJxt_takes ..)) (.refl ..)
  refine restart.trans ?_
  split
  · exact ((((jxtCount_takes ..).trans (Mach.jxtLast_takes ..)).trans (.raise ..)).trans (Mach.noteJxt_takes ..)).trans
      (Mach.noteJxt_takes ..)
  · exact ((jxtCount_takes ..).trans (Mach.jxtLast_takes ..)).trans (Mach.noteJxt_takes ..)
  · exact ((jxtCount_takes ..).trans (.updConn ..)).trans (.ite (.raise ..) (.refl ..))

theorem Mach.jxtTimeout_takes (l : LaneId) (k : Nat) (c : JxtCfg) (m : Mach) : TakesOnly l m (m.jxtTimeout l k c) := by
  unfold Mach.jxtTimeout
  dsimp only
  refine .ite (.refl ..) ?_
  generalize hm : Mach.updLane l _ m = m1
  have own : TakesOnly l m m1 := hm ▸ .updLane m
  refine own.trans ?_
  exact .ite (.refl ..) (((((jxtCount_takes ..).trans (.updConn ..)).trans (Mach.jxtLast_takes ..)).trans (.raise ..)).trans
    (Mach.noteJxt_takes ..))

theorem Mach.jxtTake_takes (l : LaneId) (m : Mach) : TakesOnly l m (m.jxtTake l) := by
  unfold Mach.jxtTake
  refine TakesOnly.foldl (fun m q => ?_) _ m
  dsimp only
  refine .trans ?_ (Mach.jxtTimeout_takes ..)
  split
  · exact Mach.checkIn_takes 1 (fun m => .updLane m) (Mach.jxtCheck_takes l _ _ _ _) m
  · exact .updLane m

/-! ### Field bus -/

theorem Mach.noteCan_takes (l : LaneId) (p : CanId) (src : Nat) (p0 p1 : W32) (m : Mach) :
    TakesOnly l m (m.noteCan p src p0 p1) := TakesOnly.postCal ..

theorem Mach.canTimeout_takes (l : LaneId) (p : CanId) (b : Nat) (c : BufCfg) (m : Mach) :
    TakesOnly l m (m.canTimeout l p b c) := by
  unfold Mach.canTimeout
  dsimp only
  refine .ite (.refl ..) ?_
  generalize hm : Mach.updLane l _ m = m1
  have own : TakesOnly l m m1 := hm ▸ .updLane m (LaneTakes.updCanRec p b _)
  refine own.trans ?_
  exact .ite (.refl ..) (((TakesOnly.updCan ..).trans (.raise ..)).trans (Mach.noteCan_takes ..))

theorem Mach.canCheck_takes (l : LaneId) (p : CanId) (b : Nat) (c : BufCfg) (f : CanFrame) (partner : Bool) (m : Mach) :
    TakesOnly l m (m.canCheck l p b c f partner) := by
  unfold Mach.canCheck
  dsimp only
  generalize canVerdict _ _ _ = v
  generalize hm : Mach.updLane l _ m = m1
  have own : TakesOnly l m m1 := by
    refine hm ▸ .updLane m (fun x => .trans ?_ (.updCanRec p b _ _))
    split
    · split
      · exact .trans (.updCv ..) (.updCv ..)
      · exact .updCv ..
    · rfl
  generalize hs : (if l = .a then _ else m1) = m2
  have shown : TakesOnly l m1 m2 := hs ▸ .ite (.updCan ..) (.refl ..)
  generalize hj : (if v.1 = some 4 then _ else m2) = m3
  have jumped : TakesOnly l m2 m3 := hj ▸ .ite (.raise ..) (.refl ..)
  refine ((own.trans shown).trans jumped).trans (.ite (.refl ..) ?_)
  split
  · exact .trans (.updCan ..) (.ite (Mach.noteCan_takes ..) (.refl ..))
  · exact .trans (.updCan ..) (.ite (.raise ..) (.refl ..))

theorem Mach.canTake_takes (l : LaneId) (p : CanId) (m : Mach) : TakesOnly l m (m.canTake l p) := by
  unfold Mach.canTake
  split
  · exact .refl ..
  · refine TakesOnly.foldl (fun m q => ?_) _ m
    dsimp only
    refine .ite (.refl ..) ?_
    refine .trans ?_ (Mach.canTimeout_takes ..)
    generalize hm : Mach.updLane l _ m = m1
    have own : TakesOnly l m m1 := hm ▸ .updLane m (LaneTakes.updCanRec p q.2 _)
    refine own.trans ?_
    split
    · exact Mach.checkIn_takes _ (TakesOnly.refl l) (Mach.canCheck_takes l p _ _ _ _) _
    · exact .refl ..

theorem Mach.takeNetworks_takes (l : LaneId) (m : Mach) : TakesOnly l m (m.takeNetworks l) :=
  (((((Mach.ringTake_takes ..).trans (Mach.ringTake_takes ..)).trans (Mach.jxtTake_takes ..)).trans (Mach.canTake_takes ..)).trans
    (Mach.canTake_takes ..)).trans (TakesOnly.updLane _)

end Sys2Proof.Machine
end

section
/-! SUPPORT. The input image that a lane forms at its sampling phase, and its system bits (R87, R93, R95, R193, R194). -/

namespace Sys2Proof.Machine

/-! ### The sources -/

/-- A mapped variable with one source: what the source gives, or its restrictive value. -/
theorem contains_imageBits {m : Mach} {sd : StationData} {g : Grain} {x : Lane} {blocks : List W32} {a : Nat} {src : InputSrc}
    (hjoin : m.mod.mode ≠ .join) (hmap : (a, src) ∈ sd.inputs) (hone : ∀ p ∈ sd.inputs, p.1 = a → p = (a, src))
    (hor : a ∉ x.xch.orBits) :
    (imageBits m sd g x blocks).contains a = (sourceValue m sd g x blocks a src).getD (sd.restrictIn.contains a) := by
  have hmapped : a ∈ sd.inputs.map Prod.fst := List.mem_map.2 ⟨_, hmap, rfl⟩
  rw [Bool.eq_iff_iff, List.contains_iff_mem]
  unfold imageBits
  rw [if_neg hjoin]
  simp only [List.mem_append, List.mem_filterMap, List.mem_filter, hor, or_false]
  constructor
  · rintro (⟨p, hp, hv⟩ | ⟨-, hn⟩)
    · split at hv
      · rename_i hval
        cases hone p hp (Option.some.inj hv)
        exact hval
      · cases hv
    · simp [hmapped] at hn
  · exact fun hval => .inl ⟨(a, src), hmap, if_pos hval⟩

/-- A digital input is valid while the monitor's frame and its own are fresh, sound and valid (R193). -/
theorem diJudged_of_sound {m : Mach} {x : Lane} {ch tf tm : Nat} {f : DiFrame} (hf : x.di[ch]? = some f) (hv : f.valid = true)
    (hc : f.checkOk = true) (hat : f.at0 = some tf) (hfresh : m.now ≤ tf + 100000) (hseq : m.now < f.seqAt + 2500000000)
    (hmon : x.fsmAt = some tm) (hmfresh : m.now ≤ tm + 200000) : diJudged m x ch = true := by
  simp [diJudged, fsmFresh, frameFresh, hf, hv, hc, hat, hfresh, hseq, hmon, hmfresh]

theorem diJudged_of_unsound {m : Mach} {x : Lane} {ch : Nat} {f : DiFrame} (hf : x.di[ch]? = some f)
    (hbad : f.valid = false ∨ f.checkOk = false ∨ f.at0.all (fun t => decide (t + 100000 < m.now)) = true ∨
      x.fsmAt.all (fun t => decide (t + 200000 < m.now)) = true) : diJudged m x ch = false := by
  unfold diJudged
  rw [hf]
  rcases hbad with h | h | h | h
  · simp [h]
  · simp [h]
  · have hstale : frameFresh m.now f.at0 = false := by
      unfold frameFresh
      split
      · rename_i t ht
        simpa [ht] using h
      · rfl
    simp [hstale]
  · have hstale : fsmFresh m.now x = false := by
      unfold fsmFresh
      split
      · rename_i t ht
        simpa [ht] using h
      · rfl
    simp [hstale]

/-- With `CAPT` 0 an input takes its frame's level (R194). -/
theorem diTaken_of_capt0 {m : Mach} {x : Lane} {ch : Nat} {sd : StationData} {f : DiFrame} (hsd : m.sd = some sd)
    (hcfg : (sd.di[ch]?).any (fun c => c.capt == 0 && !c.enc) = true) (hf : x.di[ch]? = some f) : diTaken m x ch = f.level := by
  obtain ⟨c, hc, hcapt⟩ : ∃ c, sd.di[ch]? = some c ∧ c.capt = 0 := by
    cases h : sd.di[ch]? with
    | none => simp [h] at hcfg
    | some c =>
      rw [h, Option.any_some, Bool.and_eq_true, beq_iff_eq] at hcfg
      exact ⟨c, rfl, hcfg.1⟩
  unfold diTaken Mach.diCfg
  simp [hsd, hc, hcapt, List.getD_eq_getElem?_getD, hf]

/-! ### The system bits (R87) -/

theorem getLsbD_sysBitsOf (m : Mach) (x : Lane) :
    (sysBitsOf m x).getLsbD 1 = true ∧ (sysBitsOf m x).getLsbD 2 = x.mem.needsInit ∧
      (sysBitsOf m x).getLsbD 4 = (m.mod.mode == .commission) ∧ (sysBitsOf m x).getLsbD 5 = (m.mod.mode == .maintain) := by
  unfold sysBitsOf
  have hbits : ∀ first held commission maintain : Bool,
      let w := fields [(1, 1), (2, bitOf first), (3, bitOf held), (4, bitOf commission), (5, bitOf maintain)]
      w.getLsbD 1 = true ∧ w.getLsbD 2 = first ∧ w.getLsbD 4 = commission ∧ w.getLsbD 5 = maintain := by decide
  exact hbits ..

/-! ### The sample -/

/-- The lane's sample once it has taken everything: image, system bits, blocks' runs and cleared latches. -/
def Lane.sampledAs (m : Mach) (l : LaneId) (sd : StationData) (x : Lane) : Lane :=
  { x with
    sampled := true, pfAux := (pfPass m sd (m.grain l) x).aux
    capHi := x.capHi.map (fun _ => false), capLo := x.capLo.map (fun _ => false)
    xch := { x.xch with
      sampled := memOfBits (imageBits m sd (m.grain l) x (pfPass m sd (m.grain l) x).blocks), sysBits := sysBitsOf m x
      orBits := [] } }

/-- The image is formed on the lane; what the safe stops show changes the field section alone. -/
theorem Mach.formImage_eq (l : LaneId) (sd : StationData) (m : Mach) : ∃ y : Mach, y.lanes = m.lanes ∧ y.mod = m.mod ∧
    m.formImage l sd = y.updLane l (fun x => { x with
      sampled := true, pfAux := (pfPass m sd (m.grain l) (m.lane l)).aux
      xch := { x.xch with
        sampled := memOfBits (imageBits m sd (m.grain l) (m.lane l) (pfPass m sd (m.grain l) (m.lane l)).blocks)
        sysBits := sysBitsOf m (m.lane l) } }) := by
  refine ⟨_, ?_, ?_, rfl⟩
  · refine Mach.foldl_keeps Mach.lanes ?_ _ m
    exact fun _ _ => rfl
  · refine Mach.foldl_keeps Mach.mod ?_ _ m
    exact fun _ _ => rfl

/-- The module once lane `l` has taken everything for its sample: its clock, mode and data set, the lane's stores, frames and exchange
buffer, and the other lanes stand as they did. -/
structure TakenForSample (l : LaneId) (m x : Mach) : Prop where
  now : x.now = m.now
  mod : x.mod = m.mod
  sd : x.sd = m.sd
  phase : (x.lane l).phase = .sampling
  mem : (x.lane l).mem = (m.lane l).mem
  di : (x.lane l).di = (m.lane l).di
  fsmAt : (x.lane l).fsmAt = (m.lane l).fsmAt
  xch : (x.lane l).xch = (m.lane l).xch
  others : ∀ k, k ≠ l → x.lane k = m.lane k

theorem TakesOnly.takenForSample {l : LaneId} {m x : Mach} {ai : List AiFrame}
    (h : TakesOnly l (m.updLane l (fun y => { y with phase := .sampling, ai := ai })) x) : TakenForSample l m x := by
  have hl := h.own
  rw [Mach.lane_updLane_self] at hl
  exact {
    now := h.now, mod := h.mod, sd := h.sd
    phase := by have k := congrArg Lane.phase hl; exact k
    mem := by have k := congrArg Lane.mem hl; exact k
    di := by have k := congrArg Lane.di hl; exact k
    fsmAt := by have k := congrArg Lane.fsmAt hl; exact k
    xch := by have k := congrArg Lane.xch hl; exact k
    others := fun k hk => (h.others k hk).trans (Mach.lane_updLane_of_ne l k _ m hk) }

/-- A lane that woke samples at 20 µs: it takes everything from the networks, `x` being the module then, and forms its image. -/
theorem inputSample_samples {l : LaneId} {m : Mach} {sd : StationData} (hsd : m.sd = some sd) (hlife : m.life l ≠ .out)
    (hawake : (m.lane l).awake = true) (hphase : (m.lane l).phase = .wake) (ht : (m.lane l).t0 + 20000 ≤ m.now) :
    ∃ x : Mach, TakenForSample l m x ∧ (inputSample l m).lane l = (x.lane l).sampledAs x l sd ∧ (∀ k, k ≠ l → (inputSample l m).lane k = x.lane k) ∧
      (inputSample l m).mod = x.mod := by
  have hrun : inputSample l m = (((m.updLane l (fun y => { y with
      phase := .sampling, ai := m.field.ai.map (fun c => ({ code := c.code, valid := c.valid } : AiFrame)) })).takeNetworks
        l).formImage l sd).updLane l (fun x => { x with
          capHi := x.capHi.map (fun _ => false), capLo := x.capLo.map (fun _ => false), xch := { x.xch with orBits := [] } }) := by
    unfold inputSample
    rw [hsd]
    exact if_pos (by simp [hawake, hphase, ht, Mach.isOut_eq_false hlife])
  generalize hx : Mach.takeNetworks l _ = x at hrun
  have htaken : TakenForSample l m x := (hx ▸ Mach.takeNetworks_takes l _ : TakesOnly l _ x).takenForSample
  obtain ⟨y, hlanes, hmod, himg⟩ := Mach.formImage_eq l sd x
  rw [hrun, himg]
  refine ⟨x, htaken, ?_, fun k hk => ?_, hmod⟩
  · rw [Mach.lane_updLane_self, Mach.lane_updLane_self, Mach.lane_of_lanes hlanes]
    rfl
  · rw [Mach.lane_updLane_of_ne l k _ _ hk, Mach.lane_updLane_of_ne l k _ _ hk, Mach.lane_of_lanes hlanes]

end Sys2Proof.Machine

open Sys2Proof Sys2Proof.Machine in
/-- Settles O12: the lane's image is formed over what it took from the networks (`inputSample_samples`), which leaves the frames of its
couplers, its stores and the other lanes as they are. -/
theorem sampledInputs : Obligations.SampledInputs := by
  unfold Obligations.SampledInputs
  refine ⟨fun s l t sd hsd hlife hawake hphase ht => ?_,
    fun s l t a ch sd f tf tm hsd hjoin hlife hawake hphase ht hmap hone hor hcfg hf hv hc hat hfresh hseq hmon hmfresh => ?_,
    fun s l t a ch sd f hsd hjoin hlife hawake hphase ht hmap hone hor hf hbad => ?_⟩
  all_goals
    obtain ⟨x, hx, hlane, hothers, hmod⟩ := inputSample_samples (m := s.m.tick t) hsd hlife hawake hphase ht
    refine completes_of_mode_eq (fun m => inputSample l (m.tick t)) rfl (congrArg ModState.mode (hmod.trans hx.mod)) ?_
  · obtain ⟨hone, hfirst, hcomm, hmaint⟩ := getLsbD_sysBitsOf x (x.lane l)
    rw [hx.mem] at hfirst
    rw [hx.mod] at hcomm hmaint
    rw [hlane]
    refine ⟨hx.phase, rfl, fun k => ⟨by simp [Lane.sampledAs], by simp [Lane.sampledAs]⟩, rfl, fun hj => ?_, hone, hfirst, hcomm,
      hmaint, hx.mem, hmod.trans hx.mod, fun k hk => ?_⟩
    · exact congrArg memOfBits (if_pos (by rw [hx.mod]; exact hj))
    · rw [hothers k hk, hx.others k hk]; rfl
  · rw [hlane]
    refine (memBit_memOfBits _ a).trans ?_
    rw [contains_imageBits (by rw [hx.mod]; exact hjoin) hmap hone (by rw [hx.xch]; exact hor)]
    have hdi : (x.lane l).di[ch]? = some f := by rw [hx.di]; exact hf
    have hj : diJudged x (x.lane l) ch = true := diJudged_of_sound hdi hv hc hat (by rw [hx.now]; exact hfresh)
      (by rw [hx.now]; exact hseq) (by rw [hx.fsmAt]; exact hmon) (by rw [hx.now]; exact hmfresh)
    simp [sourceValue, hj, diTaken_of_capt0 (hx.sd.trans hsd) hcfg hdi]
  · rw [hlane]
    refine (memBit_memOfBits _ a).trans ?_
    rw [contains_imageBits (by rw [hx.mod]; exact hjoin) hmap hone (by rw [hx.xch]; exact hor)]
    have hdi : (x.lane l).di[ch]? = some f := by rw [hx.di]; exact hf
    have hj : diJudged x (x.lane l) ch = false := diJudged_of_unsound hdi (by rw [hx.now, hx.fsmAt]; exact hbad)
    simp [sourceValue, hj]
end

section
/-! SUPPORT. From run start to the close (R84, R111, R121, R123, R165, R241): what the start of a run keeps, what forming the hand-over
keeps, and the drive image. -/

namespace Sys2Proof.Machine

/-! ### The start of a run (R84, R111) -/

theorem Stores.place_needsInit (g : Grain) (h : ImageHeader) (p v : Nat → Bool) (s : Stores) :
    (s.place g h p v).needsInit = s.needsInit := by
  unfold Stores.place
  generalize List.range 8192 = ws
  induction ws generalizing s with
  | nil => rfl
  | cons w ws ih =>
    rw [List.foldl_cons, ih]
    split
    · exact Stores.putWord_needsInit ..
    · rfl

theorem startVector_needsInit (g : Grain) (h : ImageHeader) (sd : StationData) (x : Lane) :
    (startVector g h sd x).needsInit = false := Stores.place_needsInit ..

theorem grainBit_false (g : Grain) : grainBit g false = (g == .counter) := by cases g <;> rfl

/-- A lane whose image is mapped starts its run at 108 µs, if it may evaluate, and enters sleep otherwise. -/
theorem runStart_eq {l : LaneId} {m : Mach} {sd : StationData} {h : ImageHeader} (hsd : m.sd = some sd)
    (hh : (m.lane l).mem.header = some h) (hphase : (m.lane l).phase = .exchange) (hmap : (m.lane l).xch.mapped = true)
    (ht : (m.lane l).t0 + 108000 ≤ m.now) :
    runStart l m =
      if (m.lane l).mayRun then
        m.updLane l (fun x => { x with
          phase := .run
          mem := startVector x.strap h sd x
          cop := { x.cop with active := true, acc := grainBit x.strap false, next := 0, ended := false } })
      else m.updLane l (fun x => { x with phase := .sleepEntry }) := by
  unfold runStart
  rw [hsd]
  dsimp only
  rw [hh]
  exact if_pos ⟨hphase, hmap, ht⟩

/-! ### Sleep and holds (R124, R125) -/

theorem Mach.phaseOf_of_sleepEntry {m : Mach} {l : LaneId} (h : (m.lane l).phase = .sleepEntry) : m.phaseOf l = .sleepEntry := by
  unfold Mach.phaseOf
  simp [h]

theorem sleepEntry_of_held {m : Mach} {l : LaneId} (h : (m.lane l).cop.holdSrc ≠ 0) : sleepEntry l m = m := by
  unfold sleepEntry
  exact if_neg (fun c => h c.2.2)

/-- Lane firmware changes a hold while the lane is awake; that of the event queue needs more than 64 notices to be set. -/
theorem keepAwakeHold_changes {m : Mach} {l : LaneId} {r : HoldReason} {on : Bool} (hawake : (m.lane l).awake = true)
    (hq : on = true → r = .queueDrain → 64 < (m.lane l).queue.arrived) :
    keepAwakeHold l r on m =
      m.updLane l (fun x => { x with cop := { x.cop with holdSrc := setBit x.cop.holdSrc (holdBit r) on } }) := by
  refine if_pos ?_
  rw [hawake, Bool.true_and, Bool.not_eq_true', Bool.and_eq_false_iff, Bool.and_eq_false_iff, decide_eq_false_iff_not, Nat.not_le,
    beq_eq_false_iff_ne]
  cases on with
  | false => exact .inl (.inl rfl)
  | true =>
    by_cases hr : r = .queueDrain
    · exact .inr (hq rfl hr)
    · exact .inl (.inr hr)

theorem keepAwakeHold_of_asleep {m : Mach} {l : LaneId} (r : HoldReason) (on : Bool) (h : (m.lane l).awake = false) :
    keepAwakeHold l r on m = m := if_neg (by simp [h])

theorem keepAwakeHold_of_fewNotices {m : Mach} {l : LaneId} (h : (m.lane l).queue.arrived ≤ 64) :
    keepAwakeHold l .queueDrain true m = m := if_neg (by simp [h])

/-! ### What forming the messages keeps (R165) -/

/-- A lane that formed messages differs in its check-value contexts and its communication records alone. -/
def FormedFrom (x y : Lane) : Prop := { y with cv := x.cv, comm := x.comm } = x

theorem FormedFrom.refl (x : Lane) : FormedFrom x x := rfl

theorem FormedFrom.trans {x y z : Lane} (h : FormedFrom x y) (k : FormedFrom y z) : FormedFrom x z := by
  unfold FormedFrom at *
  rw [← h, ← k]

theorem sealSafety_formed (pre ws : List W64) (x : Lane) : FormedFrom x (sealSafety pre ws x).1 := rfl

theorem formCan_formed (m : Mach) (p : CanId) (b : Nat) (ws : List W64) (x : Lane) : FormedFrom x (formCan m p b ws x).1 := by
  unfold formCan
  split
  · rfl
  · split
    · rfl
    · cases p <;> rfl

theorem formJxt_formed (c : JxtCfg) (cMs predHalf k : Nat) (ws : List W64) (x : Lane) :
    FormedFrom x (formJxt c cMs predHalf k ws x).1 := by
  unfold formJxt
  dsimp only
  split <;> rfl

theorem formMsg_formed (m : Mach) (sd : StationData) (g : Grain) (c : MsgCfg) (x : Lane) : FormedFrom x (formMsg m sd g c x).1 := by
  unfold formMsg
  dsimp only
  split
  · split <;> rfl
  · split <;> rfl
  · split
    · exact formJxt_formed ..
    · rfl
  · exact formCan_formed ..
  · rfl
  · rfl

theorem formAll_formed (m : Mach) (l : LaneId) (sd : StationData) (kind : VoteKind) (x : Lane) :
    FormedFrom x (formAll m l sd kind x).1 := by
  have hall : ∀ (cs : List MsgCfg) (a : Lane × List VoteWord), FormedFrom a.1 (cs.foldl (fun (a : Lane × List VoteWord) c =>
      ((formMsg m sd x.strap c a.1).1, a.2 ++ voteWords l kind c (formMsg m sd x.strap c a.1).2)) a).1 := by
    intro cs
    induction cs with
    | nil => exact fun a => .refl a.1
    | cons c cs ih => exact fun a => (formMsg_formed m sd x.strap c a.1).trans (ih _)
  unfold formAll
  dsimp only
  split
  · exact (hall (sortMsgs m.msgs) (x, [])).trans rfl
  · exact hall (sortMsgs m.msgs) (x, [])

/-- Beside those, the hand-over's own image and words. -/
theorem formHandover_keeps (m : Mach) (l : LaneId) (sd : StationData) (x : Lane) :
    { formHandover m l sd x with cv := x.cv, comm := x.comm, hoImage := x.hoImage, msgBuf := x.msgBuf } = x := by
  have hall := fun kind => congrArg (fun y : Lane => { y with hoImage := x.hoImage, msgBuf := x.msgBuf }) (formAll_formed m l sd kind x)
  unfold formHandover
  dsimp only
  split
  · rfl
  · split
    · exact hall .probe
    · exact hall .message

/-! ### The drive image (R121, R241) -/

theorem getLsbD_foldl_setBit_true {α : Type} {w : Nat} (f : α → Nat) (c : α → Bool) (xs : List α) (v : BitVec w) (n : Nat)
    (hn : n < w) :
    (xs.foldl (fun v x => if c x then setBit v (f x) true else v) v).getLsbD n =
      (v.getLsbD n || xs.any (fun x => f x == n && c x)) := by
  induction xs generalizing v with
  | nil => simp
  | cons x xs ih =>
    rw [List.foldl_cons, ih, List.any_cons]
    by_cases hc : c x
    · rw [if_pos hc, getLsbD_setBit]
      by_cases hx : f x = n
      · simp [hx, hn, hc]
      · simp [beq_eq_false_iff_ne.2 hx, Ne.symm hx]
    · simp [hc]

/-- An output's bit is 1 where its committed variable is 1 and neither a protection block nor the sweep holds it off. -/
theorem getLsbD_driveImage {m : Mach} (sd : StationData) (g : Grain) (x : Lane) {n : Nat} (hn : n < 24) (hm : m.handsOver = true) :
    (driveImage m sd g x).getLsbD n = sd.outputs.any (fun p => p.2 == n && x.trueBit g p.1 && !guardHeld sd g x n &&
      m.sweepHeld x.cop.cycleNo != some n) := by
  unfold driveImage
  rw [if_neg (by simp [hm]), getLsbD_foldl_setBit_true Prod.snd (fun p => x.trueBit g p.1 && !guardHeld sd g x p.2 &&
    m.sweepHeld x.cop.cycleNo != some p.2) sd.outputs 0 n hn,
    show (0 : BitVec 24).getLsbD n = false from BitVec.getLsbD_zero, Bool.false_or]
  refine congrArg sd.outputs.any (funext fun p => ?_)
  by_cases hp : p.2 = n
  · simp [hp, Bool.and_assoc]
  · simp [beq_eq_false_iff_ne.2 hp]

/-- A mode that hands nothing over, JOIN among them, leaves an image of 0 and no words. -/
theorem formHandover_of_silent {m : Mach} (l : LaneId) (sd : StationData) (x : Lane) (h : m.handsOver = false) :
    formHandover m l sd x = { x with msgBuf := [], hoImage := 0 } := if_pos h

/-- A VOTING lane hands over its messages, then its drive record and the end word. -/
theorem formHandover_of_voting {m : Mach} (l : LaneId) (sd : StationData) {x : Lane} (hm : m.handsOver = true)
    (hl : x.agr.life = .voting) :
    (formHandover m l sd x).hoImage = driveImage m sd x.strap x ∧
      (formHandover m l sd x).msgBuf = (formAll m l sd .message x).2 ++
        [voteWord l .drive true 0 0 (driveRecord x.cop.cycleNo (driveImage m sd x.strap x)), voteWord l .endHandover false 0 0 0] := by
  unfold formHandover
  dsimp only
  rw [if_neg (by simp [hm]), if_neg (by simp [hl])]
  exact ⟨rfl, rfl⟩

/-! ### What a lane reads of its committed vector -/

section
variable {x y : Lane} (h : y.mem = x.mem) (g : Grain)
include h

theorem Lane.trueBit_of_mem_eq (n : Nat) : y.trueBit g n = x.trueBit g n := by
  unfold Lane.trueBit
  rw [h]

theorem Lane.trueWord_of_mem_eq (w : Nat) : y.trueWord g w = x.trueWord g w := by
  unfold Lane.trueWord
  simp only [Lane.trueBit_of_mem_eq h]

theorem guardHeld_of_mem_eq (sd : StationData) (n : Nat) : guardHeld sd g y n = guardHeld sd g x n := by
  unfold guardHeld
  simp only [Lane.trueWord_of_mem_eq h]

end

/-! ### The close (R111, R121, R127) -/

/-- A change of a protection block stays within the field section and the causes on the pages. -/
theorem Mach.pfChange_keeps {α : Type} (v : Mach → α) (hf : ∀ x y, v { x with field := y } = v x)
    (hr : ∀ x y, v { x with irq := y } = v x) (j : Nat) (old new : W32) (m : Mach) : v (m.pfChange j old new) = v m := by
  have hnote : ∀ src x, v (Mach.notePf j src x) = v x := fun src x => hf x _
  have hraise : ∀ bit x, v (Mach.raise (fieldPath 7) bit x) = v x := fun bit x => hr x _
  have hpf : ∀ f x, v (Mach.updPf j f x) = v x := fun f x => hf x _
  unfold Mach.pfChange
  dsimp only
  rw [ite_view v _ _ ((hnote ..).trans (hraise ..)), ite_view v _ _ ((hnote ..).trans ((hraise ..).trans (hpf ..))),
    ite_view v _ _ ((hnote ..).trans ((hraise ..).trans (hpf ..)))]

theorem Mach.beginHandover_lanes (l : LaneId) (m : Mach) : (m.beginHandover l).lanes = m.lanes := by
  unfold Mach.beginHandover; split <;> rfl

theorem Mach.beginHandover_mod (l : LaneId) (m : Mach) : (m.beginHandover l).mod = m.mod := by
  unfold Mach.beginHandover; split <;> rfl

/-- A run that passed END and closes neither too early nor too late commits, and its lane hands over; the other lanes and the mode
stay. -/
theorem runClose_commits {l : LaneId} {m : Mach} {sd : StationData} (hsd : m.sd = some sd) (hlife : m.life l ≠ .out)
    (hphase : (m.lane l).phase = .run) (hact : (m.lane l).cop.active = true) (hend : (m.lane l).cop.ended = true)
    (hearly : predClose (m.lane l).cop.rows.toNat (m.lane l).cop.timers.toNat ≤ 2 * (m.now - (m.lane l).t0) + 400)
    (hlate : m.now ≤ (m.lane l).t0 + m.evalDl) :
    (runClose l m).lane l = formHandover m l sd (commitRun sd (m.lane l).strap m.now (m.lane l)) ∧
      (∀ k, k ≠ l → (runClose l m).lane k = m.lane k) ∧ (runClose l m).mod.mode = m.mod.mode := by
  have hclosed : ∀ (f : Lane → Lane) (w : Mach), w = (m.updLane l f).beginHandover l →
      w.lane l = f (m.lane l) ∧ (∀ k, k ≠ l → w.lane k = m.lane k) ∧ w.mod.mode = m.mod.mode := by
    rintro f w rfl
    have hlanes := Mach.beginHandover_lanes l (m.updLane l f)
    exact ⟨(Mach.lane_of_lanes hlanes l).trans (Mach.lane_updLane_self ..),
      fun k hk => (Mach.lane_of_lanes hlanes k).trans (Mach.lane_updLane_of_ne l k f m hk),
      congrArg ModState.mode (Mach.beginHandover_mod ..)⟩
  unfold runClose
  rw [hsd]
  dsimp only
  rw [if_neg (by simp [hphase, hact, hend, Mach.isOut_eq_false hlife]), if_neg (by omega), if_neg (by omega)]
  generalize hw : Mach.beginHandover l _ = w
  obtain ⟨hown, hothers, hmode⟩ := hclosed _ w hw.symm
  have hkept : ∀ z : Mach, z.lanes = w.lanes → z.mod.mode = w.mod.mode →
      z.lane l = formHandover m l sd (commitRun sd (m.lane l).strap m.now (m.lane l)) ∧
        (∀ k, k ≠ l → z.lane k = m.lane k) ∧ z.mod.mode = m.mod.mode := fun z hlanes hzmode =>
    ⟨(Mach.lane_of_lanes hlanes l).trans hown, fun k hk => (Mach.lane_of_lanes hlanes k).trans (hothers k hk), hzmode.trans hmode⟩
  split
  · refine hkept _ ((Mach.foldl_keeps Mach.lanes ?_ _ _).trans ?_) ((Mach.foldl_keeps (fun z => z.mod.mode) ?_ _ _).trans ?_)
    · exact fun m _ => m.pfChange_keeps Mach.lanes (fun _ _ => rfl) (fun _ _ => rfl) ..
    · split <;> rfl
    · exact fun m _ => m.pfChange_keeps (fun z => z.mod.mode) (fun _ _ => rfl) (fun _ _ => rfl) ..
    · split <;> rfl
  · exact hkept w rfl rfl


end Sys2Proof.Machine
end

section
/-! SUPPORT. The end of the hand-over and the drive-period boundary (R122, R174, R180, R228): the latch, and the windings that follow it. -/

namespace Sys2Proof.Machine

/-! ### Demands (R228) -/

theorem ButField.cmd {a b : Mach} (h : ButField a b) : b.mod.cmd = a.mod.cmd := by
  have k := congrArg (fun m => m.mod.cmd) h; exact k

theorem ButField.sd {a b : Mach} (h : ButField a b) : b.sd = a.sd := by
  have k := congrArg Mach.sd h; exact k

theorem Mach.resolvePulse_butField (n : Nat) (m : Mach) : ButField m (m.resolvePulse n) := by
  unfold Mach.resolvePulse
  split
  · exact .refl m
  · split
    · exact .ite _ (Mach.keepDark_butField ..) (Mach.pulseDiscard_butField ..)
    · exact .ite _ (Mach.pulseDiscard_butField ..) (.refl m)
    · exact .refl m

theorem Mach.demand_butField (l : LaneId) (n : Nat) (on : Bool) (m : Mach) : ButField m (m.demand l n on) := by
  unfold Mach.demand
  split
  · exact .refl m
  · exact (((ButField.updOut ..).trans (Mach.setPole_butField ..)).trans (.updOut ..)).trans (Mach.resolvePulse_butField ..)

theorem Mach.demands_butField (l : LaneId) (old new : BitVec 24) (m : Mach) : ButField m (m.demands l old new) := by
  unfold Mach.demands
  refine ButField.foldl _ ?_ _ m
  exact fun m p => m.demand_butField l p.1 p.2

/-! ### The latch (R122, R180) -/

/-- The latch of a lane: its image or none, and the voted record becomes the monitor's reference. -/
theorem Mach.latchDrive_latches (l : LaneId) (m : Mach) :
    (m.latchDrive l).lanes = (m.updLane l (fun x => { x with
      drive := { x.drive with latched := if m.handsOver then (m.lane l).hoImage else 0, latchAt := m.now } })).lanes ∧
    (m.latchDrive l).mod.mode = m.mod.mode ∧ (m.latchDrive l).mod.cmd = m.mod.cmd ∧ (m.latchDrive l).sd = m.sd ∧
    m.cal.odm.pendingRec.all (fun r => (m.latchDrive l).cal.odm.reference == r) = true ∧
    (m.latchDrive l).cal.odm.pendingRec = none := by
  unfold Mach.latchDrive
  dsimp only
  generalize hx : Mach.demands l _ _ _ = x
  have hfield := hx ▸ Mach.demands_butField ..
  have hcal : x.cal = m.cal := hfield.cal
  rw [hcal]
  cases hr : m.cal.odm.pendingRec with
  | none => exact ⟨hfield.lanes, hfield.mode, hfield.cmd, hfield.sd, rfl, by rw [hcal]; exact hr⟩
  | some r => exact ⟨hfield.lanes, hfield.mode, hfield.cmd, hfield.sd, beq_self_eq_true r, rfl⟩

/-- With no command on its way, the end of a hand-over completes none. -/
theorem Mach.commandDone_of_none (l : LaneId) {m : Mach} (h : m.mod.cmd = none) : m.commandDone l = m := by
  unfold Mach.commandDone
  rw [h]

/-- A VOTING lane of a single module ends its hand-over 240 µs after its close: it latches and enters sleep. -/
theorem handoverEnd_latches {l : LaneId} {m : Mach} (hlife : m.life l = .voting) (hsingle : m.paired = false)
    (hcmd : m.mod.cmd = none) (hphase : (m.lane l).phase = .handover) (ht : (m.lane l).closeAt + 240000 ≤ m.now) :
    handoverEnd l m = (m.latchDrive l).updLane l (fun x => { x with
      phase := .sleepEntry, cop := { x.cop with lastHo := satOf 23 ((m.now - (m.lane l).t0 + 5) / 10) } }) := by
  have hvote : m.isVoting l = true := beq_iff_eq.2 hlife
  have hout : m.isOut l = false := Mach.isOut_eq_false (by rw [hlife]; decide)
  obtain ⟨hlanes, -, hlcmd, hlsd, -⟩ := m.latchDrive_latches l
  have hlsingle : (m.latchDrive l).paired = false := by unfold Mach.paired at *; rw [hlsd]; exact hsingle
  have hstill : ∀ f : Lane → Lane, (∀ x, (f x).agr = x.agr) → ((m.latchDrive l).updLane l f).isVoting l = true := by
    intro f hf
    unfold Mach.isVoting Mach.life
    rw [Mach.lane_updLane_self, hf, Mach.lane_of_lanes hlanes, Mach.lane_updLane_self]
    exact hvote
  unfold handoverEnd
  dsimp only
  rw [if_neg (by simp [hphase, hout]; omega), if_pos hvote, hsingle, hlsingle, if_pos (hstill _ (by exact fun _ => rfl)),
    Mach.commandDone_of_none]
  · rfl
  · exact hlcmd.trans hcmd

/-! ### The drive-period boundary (R122, R174) -/

theorem Mach.setPole_mod (n : Nat) (p : Pole) (m : Mach) : (m.setPole n p).mod = m.mod := by
  unfold Mach.setPole
  split
  · rfl
  · dsimp only
    cases p <;> dsimp only <;> (repeat' split) <;> rfl

theorem Mach.refreshPoles_mod (m : Mach) : m.refreshPoles.mod = m.mod := by
  unfold Mach.refreshPoles
  exact Mach.foldl_keeps Mach.mod (fun m n => (Mach.setPole_mod n .neg _).trans (Mach.setPole_mod n .pos m)) _ m

/-- After a boundary later than the latch, and with no energise held back, the windings follow the latched image. -/
theorem Mach.windingsAt_eq_latched {m : Mach} {l : LaneId} {at0 : Nat} (hlatch : (m.lane l).drive.latchAt < at0)
    (hhold : ∀ o ∈ m.field.out, o.hold.get l ≤ at0) : m.windingsAt l at0 = (m.lane l).drive.latched := by
  unfold Mach.windingsAt
  dsimp only
  rw [if_neg (by omega)]
  generalize List.range 24 = ns
  induction ns with
  | nil => rfl
  | cons n ns ih =>
    rw [List.foldl_cons, if_neg ?_, ih]
    rw [Bool.and_eq_true]
    rintro ⟨-, hlate⟩
    split at hlate
    · rename_i o ho
      exact Nat.not_lt.2 (hhold o (List.mem_of_getElem? ho)) (of_decide_eq_true hlate)
    · cases hlate

/-- A boundary changes the lane's drive and, outside the lanes, the field section alone. -/
theorem drivePeriodBoundary_follows {l : LaneId} {m : Mach} (hlife : m.life l = .voting) (hmode : m.handsOver = true) :
    ∃ changed, (drivePeriodBoundary l m).lanes = (m.updLane l (fun x => { x with
        drive := { x.drive with windings := m.windingsAt l (lastBoundary (m.lane l).t0 m.now), changedAt := changed } })).lanes ∧
      (drivePeriodBoundary l m).mod = m.mod := by
  unfold drivePeriodBoundary
  dsimp only
  rw [if_neg (by simp [Mach.isVoting, hlife, hmode])]
  generalize m.windingsAt l (lastBoundary (m.lane l).t0 m.now) = w
  generalize hx : (if w = (m.lane l).drive.windings then m else _) = x
  have hx' : ∃ changed, x.lanes = (m.updLane l (fun y => { y with
      drive := { y.drive with windings := w, changedAt := changed } })).lanes ∧ x.mod = m.mod := by
    rw [← hx]
    split
    · rename_i hw
      refine ⟨(m.lane l).drive.changedAt, ?_, rfl⟩
      subst hw
      cases l <;> rfl
    · exact ⟨_, rfl, rfl⟩
  obtain ⟨changed, hlanes, hmod⟩ := hx'
  refine ⟨changed, ?_, ?_⟩
  · rw [(Mach.refreshPoles_butField _).lanes, ← hlanes]
    refine Mach.foldl_keeps Mach.lanes ?_ _ x
    exact fun _ _ => rfl
  · rw [Mach.refreshPoles_mod, ← hmod]
    refine Mach.foldl_keeps Mach.mod ?_ _ x
    exact fun _ _ => rfl

end Sys2Proof.Machine

open Sys2Proof Sys2Proof.Machine in
/-- Settles O15: each command's effect is the lemma of its case above; the drive image is read back bit by bit from what the run
committed (`getLsbD_driveImage`). -/
theorem runAndHandover : Obligations.RunAndHandover := by
  unfold Obligations.RunAndHandover
  refine ⟨fun s l t sd h hsd hh hphase hmap ht hrun => ?_, fun s l t sd h hsd hh hphase hmap ht hrun => ?_,
    fun s l t sd hsd hlife hphase hact hend hearly hlate => ?_,
    fun s l t sd hsd hlife hmode hphase hact hend hearly hlate => ?_,
    fun s l t hlife hsingle hcmd hphase ht => ?_, fun s l t hlife hmode hlatch hhold => ?_,
    fun s l t hphase hheld => ?_, fun s l t hheld => ?_, fun s l r t hawake hq => ?_, fun s l r t hawake => ?_,
    fun s l t hfew => ?_, fun s l r t hasleep => ⟨?_, ?_⟩⟩
  · have hrow := (runStart_eq (m := s.m.tick t) hsd hh hphase hmap ht).trans (if_pos hrun)
    refine completes_of_onlyLane (f := runStart l) rfl (by rw [hrow]; exact onlyLane_updLane ..) ?_
    rw [hrow, Mach.lane_updLane_self]
    refine ⟨rfl, rfl, grainBit_false _, rfl, rfl, startVector_needsInit (s.m.lane l).strap h sd (s.m.lane l), ?_⟩
    show ({ s.m.lane l with phase := .exchange } : Lane) = s.m.lane l
    rw [← hphase]
  · have hrow := (runStart_eq (m := s.m.tick t) hsd hh hphase hmap ht).trans (if_neg (ne_true_of_eq_false hrun))
    refine completes_of_onlyLane (f := runStart l) rfl (by rw [hrow]; exact onlyLane_updLane ..) ?_
    rw [hrow, Mach.lane_updLane_self]
    rfl
  · obtain ⟨hown, hothers, hmode⟩ := runClose_commits (m := s.m.tick t) hsd hlife hphase hact hend hearly hlate
    have hkeeps := formHandover_keeps (s.m.tick t) l sd (commitRun sd (s.m.lane l).strap (s.m.tick t).now (s.m.lane l))
    refine completes_of_mode_eq (fun m => runClose l (m.tick t)) rfl hmode ?_
    rw [show (s.m.tick t).lane l = s.m.lane l from rfl] at hown
    have hmem : ((runClose l (s.m.tick t)).lane l).mem = (s.m.lane l).mem.commit := by
      rw [hown]; have k := congrArg Lane.mem hkeeps; exact k
    have hcop : ((runClose l (s.m.tick t)).lane l).cop = (commitRun sd (s.m.lane l).strap (s.m.tick t).now (s.m.lane l)).cop := by
      rw [hown]; have k := congrArg Lane.cop hkeeps; exact k
    refine ⟨?_, ?_, by rw [hcop]; rfl, by rw [hcop]; rfl, by rw [hmem]; rfl, by rw [hmem]; rfl, by rw [hmem]; rfl, fun hj => ?_,
      hmode, hothers⟩
    · rw [hown]; have k := congrArg Lane.phase hkeeps; exact k
    · rw [hown]; have k := congrArg Lane.closeAt hkeeps; exact k
    · rw [hown, formHandover_of_silent l sd _ (by simp [Mach.handsOver, hj])]
      exact ⟨rfl, rfl⟩
  · obtain ⟨hown, -, hmode'⟩ := runClose_commits (m := s.m.tick t) hsd (by rw [show (s.m.tick t).life l = .voting from hlife]; decide)
      hphase hact hend hearly hlate
    rw [show (s.m.tick t).lane l = s.m.lane l from rfl] at hown
    generalize hy : commitRun sd (s.m.lane l).strap (s.m.tick t).now (s.m.lane l) = y at hown
    have hstrap : y.strap = s.m.grain l := by rw [← hy]; rfl
    have hcycle : y.cop.cycleNo = (s.m.lane l).cop.cycleNo := by rw [← hy]; rfl
    have hmem : ((runClose l (s.m.tick t)).lane l).mem = y.mem := by
      rw [hown]; have k := congrArg Lane.mem (formHandover_keeps (s.m.tick t) l sd y); exact k
    obtain ⟨himg, hbuf⟩ := formHandover_of_voting (m := s.m.tick t) l sd (x := y) hmode (by rw [← hy]; exact hlife)
    rw [← hown] at himg hbuf
    refine completes_of_mode_eq (fun m => runClose l (m.tick t)) rfl hmode' ⟨fun n hn => ?_, ?_⟩
    · rw [himg, getLsbD_driveImage (m := s.m.tick t) sd _ y hn hmode, hstrap, hcycle]
      simp only [Lane.trueBit_of_mem_eq hmem, guardHeld_of_mem_eq hmem]
      rfl
    · rw [hbuf, himg]
      simp [voteWord, driveRecord, hcycle]
  · have hend := handoverEnd_latches (m := s.m.tick t) hlife hsingle hcmd hphase ht
    obtain ⟨hlanes, hmode, -, -, href, hpend⟩ := (s.m.tick t).latchDrive_latches l
    refine completes_of_mode_eq (fun m => handoverEnd l (m.tick t)) rfl ?_ ?_
    · rw [hend]; exact hmode
    · rw [hend, Mach.lane_updLane_self, Mach.lane_of_lanes hlanes, Mach.lane_updLane_self]
      refine ⟨rfl, rfl, rfl, rfl, rfl, href, hpend, hmode, fun k hk => ?_⟩
      rw [Mach.lane_updLane_of_ne l k _ _ hk, Mach.lane_of_lanes hlanes, Mach.lane_updLane_of_ne l k _ _ hk]
      rfl
  · obtain ⟨changed, hlanes, hmod⟩ := drivePeriodBoundary_follows (m := s.m.tick t) hlife hmode
    rw [Mach.windingsAt_eq_latched (m := s.m.tick t)
      (at0 := lastBoundary ((s.m.tick t).lane l).t0 (s.m.tick t).now) hlatch hhold] at hlanes
    refine completes_of_mode_eq (fun m => drivePeriodBoundary l (m.tick t)) rfl (congrArg ModState.mode hmod) ?_
    have hown := (Mach.lane_of_lanes hlanes l).trans (Mach.lane_updLane_self ..)
    rw [hown]
    refine ⟨rfl, rfl, hmod, fun k hk => ?_, rfl⟩
    exact (Mach.lane_of_lanes hlanes k).trans (Mach.lane_updLane_of_ne l k _ _ hk)
  · have hrun : sleepEntry l (s.m.tick t) = _ := if_pos ⟨Mach.phaseOf_of_sleepEntry hphase, by
      rw [show ((s.m.tick t).lane l).phase = .sleepEntry from hphase]; decide, hheld⟩
    refine completes_of_onlyLane (f := sleepEntry l) rfl (by rw [hrun]; exact onlyLane_updLane ..) ?_
    rw [hrun, Mach.lane_updLane_self]
    exact ⟨rfl, rfl, rfl⟩
  · have hrun := sleepEntry_of_held (m := s.m.tick t) hheld
    exact becomes_of_run (fun m => sleepEntry l (m.tick t)) rfl (.inl (by rw [hrun]; rfl)) hrun
  · have hrun := keepAwakeHold_changes (m := s.m.tick t) (on := true) hawake (fun _ => hq)
    refine completes_of_onlyLane (f := keepAwakeHold l r true) rfl (by rw [hrun]; exact onlyLane_updLane ..) ?_
    rw [hrun, Mach.lane_updLane_self]
    rfl
  · have hrun := keepAwakeHold_changes (m := s.m.tick t) (l := l) (r := r) (on := false) hawake (fun h => absurd h (by decide))
    refine completes_of_onlyLane (f := keepAwakeHold l r false) rfl (by rw [hrun]; exact onlyLane_updLane ..) ?_
    rw [hrun, Mach.lane_updLane_self]
    rfl
  · have hrun := keepAwakeHold_of_fewNotices (m := s.m.tick t) hfew
    exact becomes_of_run (fun m => keepAwakeHold l .queueDrain true (m.tick t)) rfl (.inl (by rw [hrun]; rfl)) hrun
  · have hrun := keepAwakeHold_of_asleep (m := s.m.tick t) r true hasleep
    exact becomes_of_run (fun m => keepAwakeHold l r true (m.tick t)) rfl (.inl (by rw [hrun]; rfl)) hrun
  · have hrun := keepAwakeHold_of_asleep (m := s.m.tick t) r false hasleep
    exact becomes_of_run (fun m => keepAwakeHold l r false (m.tick t)) rfl (.inl (by rw [hrun]; rfl)) hrun
end

section
/-! SUPPORT. The mark of the mirror phase (R116, R128, R377): a packet that is complete at 90 % of the cycle has met it, and with it the
refutation of O7. -/

namespace Sys2Proof.Machine

/-- A lead whose mirror packet is complete at 90 % of the cycle has met the mark, and its lane is left alone. -/
theorem mirrorDeadline_of_mirrorDone {s : State} {l : LaneId} (t : Nat)
    (h : s.m.mirrorDone ((s.m.lane l).t0 + s.m.cycleNs * 9 / 10) = true) : Becomes (.mirrorDeadline l t) s (s.m.tick t) := by
  have hmet : (s.m.tick t).mirrorDone (((s.m.tick t).lane l).t0 + (s.m.tick t).cycleNs * 9 / 10) = true := h
  change execMirrorDeadline l t s = _
  rw [execMirrorDeadline, State.run_eq, if_pos hmet, Mach.supervise_of_eq s.m (s.m.tick t) rfl]

/-- What completes with the module as it becomes has its property there. -/
theorem Completes.of_becomes {i : Instr} {s : State} {m : Mach} {P : Mach → Prop} (hc : Completes i s P) (hb : Becomes i s m) : P m := by
  obtain ⟨t, ht, -, hp⟩ := hc
  rw [hb, Host.Outcome.next.injEq] at ht
  subst ht
  exact hp

/-- An interface of the ring that is not used. -/
def unusedRing : RingCfg :=
  { used := false, node := 1, pair := true, schedId := 0, cfgSchedId := 0, rtMaxGiven := none, nmod := 0, entries := [], sporadic := []
    coldstarts := [], lead := true, schedCrc := 0, loadedCrc := 0, declaredOpen := false }

/-- A CAN FD port without buffers. -/
def bareCan : CanCfg :=
  { nbr := 0, dbr := 0, tt := false, listen := false, nsp := none, dsp := none, cbcGiven := none, txen := none, refId := 0
    refIde := false, bufs := [], arbs := [] }

/-- A data set of a pair, with C = 8 ms and nothing assigned. -/
def pairSet : StationData :=
  { id := 1, role := .objectController, settingsFmt := 1, imageA := ⟨[], []⟩, imageB := ⟨[], []⟩, imageC := ⟨[], []⟩, inputs := []
    restrictIn := [], outputs := [], restrictOut := [], initial := [], msgs := [], msgBits := []
    permits := ⟨none, none, none, none, none, none, none, none, none, none⟩
    settings := {
      cycle := some 8, evalDlPct := none, thrMin := none, thrMax := none, encThrs := [], rateLim := none, timeIf := .r1, red := []
      blue := [], jxIcmp := none, jxDscp := none, redOpen := false, blueOpen := false, mntOpenRead := none, mntStatic := true, mnt := {}
      mntKey := [], sliceFrom := none, sliceLen := none, shockThr := none, tempLow := none, tempHigh := none, railLow := none
      railHigh := none, humHigh := none, recMode := false, buckets := [], ec := [] }
    di := [], ai := [], out := [], pf := [], ring1 := unusedRing, ring2 := unusedRing, jxt := [], can1 := bareCan, can2 := bareCan
    profiles := []
    pair := {
      paired := true, requests := [], memories := [], cells := [], capacity := 0, segWords := [], joinCyc := none, canAlive := []
      carryFrom := 0, carry := ⟨[], [], 0, 0, [], [], []⟩ } }

/-- A lead in SERVICE, its lanes in the mirror phase of the cycle that began at 0, the last frame of its packet gone at 6.0 ms. -/
def leadMirrored : Mach :=
  ({ State.reset.m with
      power := { powered := true }, sd := some pairSet, mod := { mode := .service }
      pair := { role := .lead, mirrorEnd := some 6000000 } } : Mach).updLanes (fun _ x =>
    { x with agr := { x.agr with life := .voting, held := false }, awake := true, phase := .mirror })

end Sys2Proof.Machine

open Sys2Proof Sys2Proof.Machine in
/-- Refutes O7: a lane of a lead whose mirror packet was complete at 6.0 ms of a cycle of 8 ms still stands in its mirror phase at the
mark of 7.2 ms, and is left alone there (`mirrorDeadline_of_mirrorDone`), as R128 has it; the last clause asks for a lane fault
with cause 0x0C without asking that the packet be incomplete. -/
theorem not_timetableFaults : ¬ Obligations.TimetableFaults := by
  unfold Obligations.TimetableFaults
  rintro ⟨-, -, -, -, -, -, -, -, hmirror⟩
  have hfault := hmirror ⟨[], leadMirrored⟩ .a 7200000 (by decide) (by decide) (by decide) (by decide) (by decide)
  obtain ⟨-, -, -, hout, -⟩ := hfault.of_becomes (mirrorDeadline_of_mirrorDone 7200000 (by decide))
  exact absurd hout (by decide)
end

section
/-! SUPPORT. A lane's T0 (R113, R115, R125, R128, R183): when it falls, what a lane that wakes leaves as it was, what the first T0 of a
cycle brings in a module at rest, and the fault of a T0 that finds the lane in a phase. -/

namespace Sys2Proof.Machine

/-! ### When T0 falls (R113, R115) -/

theorem Mach.mode_ne_halt_of_evaluates {m : Mach} (h : m.evaluates = true) : m.mod.mode ≠ .halt := by
  intro c
  rw [Mach.evaluates, c] at h
  cases h

theorem runsCycles_of_voting {l : LaneId} {m : Mach} (h : m.life l = .voting) : runsCycles (m.lane l) = true := by
  unfold runsCycles
  rw [show (m.lane l).agr.life = .voting from h]
  rfl

theorem Mach.phase_of_phaseOf_asleep {l : LaneId} {m : Mach} (h : m.phaseOf l = .asleep) : (m.lane l).phase = .asleep := by
  unfold Mach.phaseOf at h
  dsimp only at h
  split at h
  · cases h
  · exact h

/-- Off the boundaries, a T0 that is due begins the next cycle. -/
theorem cycleT0_of_due {l : LaneId} {m : Mach} {t : Nat} (dev : Int) (hev : m.evaluates = true) (hlife : m.life l = .voting)
    (hb : (m.tick t).boundaryNumber = none) (hdue : (m.lane l).t0 + m.cycleNs ≤ max m.now t + m.cycleNs * 3 / 10000) :
    cycleT0 l dev (m.tick t) = startT0 l dev ((m.lane l).cop.cycleNo + 1) false (m.tick t) := by
  have hkind : (m.tick t).t0Kind l = .regular ((m.lane l).cop.cycleNo + 1) := by
    have hcyc : runsCycles ((m.tick t).lane l) = true := runsCycles_of_voting hlife
    unfold Mach.t0Kind Mach.t0Slack
    rw [hb, if_neg (by rw [hcyc]; simp [show (m.tick t).evaluates = true from hev])]
    exact if_pos (decide_eq_true hdue)
  rw [cycleT0, hkind]

/-- A lane that is not aligned yet and sleeps begins the boundary's cycle at the boundary. -/
theorem cycleT0_of_boundary {l : LaneId} {m : Mach} {n : W32} (dev : Int) (hev : m.evaluates = true) (hlife : m.life l = .voting)
    (hb : m.boundaryNumber = some n) (hal : (m.lane l).aligned = false) (hphase : (m.lane l).phase = .asleep) :
    cycleT0 l dev m = startT0 l dev n true m := by
  have hkind : m.t0Kind l = .aligned n := by
    unfold Mach.t0Kind
    rw [hb]
    simp [hev, runsCycles_of_voting hlife, hal, hphase]
  rw [cycleT0, hkind]

/-- A T0 completes with what it makes of the module. -/
theorem completes_cycleT0 {s : State} {l : LaneId} {dev : Int} {t : Nat} {P : Mach → Prop} (hev : s.m.evaluates = true)
    (hp : P (cycleT0 l dev (s.m.tick t))) : Completes (.cycleT0 l dev t) s P :=
  completes_of_ne_halt (fun m => cycleT0 l dev (m.tick t)) rfl (Mach.mode_ne_halt_of_evaluates hev) hp

/-! ### Waking -/

/-- Nothing differs but what a lane's T0 leaves outside the lane: the freeze of the field supply monitor, the measurement of
the clock, the event counters and the causes on the pages. -/
def ButWake (a b : Mach) : Prop :=
  { b with
    irq := a.irq, field := { b.field with fsm := a.field.fsm }, cal := { b.cal with csc := a.cal.csc }
    bench := { b.bench with recd := a.bench.recd, ec := a.bench.ec, ecSeen := a.bench.ecSeen } } = a

/-- A VOTING lane that has woken at `t0` into cycle `n`, and the module around it. -/
structure Woken (l : LaneId) (n : W32) (aligned : Bool) (t0 : Nat) (old new : Mach) : Prop where
  own : ∃ basic, new.lane l = { (old.lane l).startCycle n aligned basic t0 with agr := { (old.lane l).agr with probe := false } }
  others : ∀ k, k ≠ l → new.lane k = old.lane k
  rest : ButWake old { new with lanes := old.lanes }

theorem Mach.endHold_of_none {l : LaneId} {m : Mach} (h : (m.lane l).cop.holdSrc = 0) : m.endHold l = m := if_pos h

theorem Mach.sanderSlice_of_none {l : LaneId} {m : Mach} (h : (m.lane l).snd.bringForward = false) : m.sanderSlice l = m := if_pos h

theorem Mach.lifeT0_of_voting {l : LaneId} {m : Mach} (h : m.life l = .voting) :
    m.lifeT0 l = m.updAgr l (fun a => { a with probe := false }) :=
  if_pos (by rw [show (m.lane l).agr.life = .voting from h]; decide)

/-- A measurement within ±0.5 % is taken down and no more (R183). -/
theorem Mach.clockReport_within {l : LaneId} {dev : Int} {m : Mach} (h0 : -50 ≤ dev) (h1 : dev ≤ 50) :
    ∃ f, m.clockReport l dev = m.updCsc f := ⟨_, if_neg (by omega)⟩

theorem ButWake.trans {a b c : Mach} (h : ButWake a b) (k : ButWake b c) : ButWake a c := by
  unfold ButWake at *
  rw [← h, ← k]

theorem ButWake.lanes {a b : Mach} (h : ButWake a b) : b.lanes = a.lanes := by have k := congrArg Mach.lanes h; exact k

theorem ButWake.of_onlyNoted {a b : Mach} (h : OnlyNoted a b) : ButWake a b := by
  have hfield : b.field = a.field := by have k := congrArg Mach.field h; exact k
  have hcal : b.cal = a.cal := by have k := congrArg Mach.cal h; exact k
  unfold ButWake OnlyNoted at *
  rw [hfield, hcal] at h ⊢
  exact h

theorem Mach.freezeFsm_butWake (n : W32) (m : Mach) : ButWake m (m.freezeFsm n) := by
  unfold Mach.freezeFsm
  split <;> rfl

/-- A VOTING lane that sleeps without a hold, and no slice of which is brought forward. -/
structure Mach.Sleeps (l : LaneId) (m : Mach) : Prop where
  life : m.life l = .voting
  phase : m.phaseOf l = .asleep
  unheld : (m.lane l).cop.holdSrc = 0
  noSlice : (m.lane l).snd.bringForward = false

/-- Where the T0 of a lane that wakes stands. -/
def Mach.wakeAt (l : LaneId) (aligned : Bool) (m : Mach) : Nat := if aligned then m.now else m.t0At (m.lane l)

theorem Mach.wakeAt_of_due {l : LaneId} {m : Mach} (h : m.now ≤ (m.lane l).t0 + m.cycleNs + m.cycleNs * 3 / 10000) :
    m.wakeAt l false = m.now := by
  unfold Mach.wakeAt Mach.t0At Mach.t0Slack
  rw [if_neg Bool.false_ne_true]
  exact Nat.min_eq_left h

/-- What T0 brings a lane that wakes, up to its measurement of the clock. -/
def Mach.wakeT0 (l : LaneId) (dev : Int) (n : W32) (aligned : Bool) (m : Mach) : Mach :=
  let woken := m.updLane l (Lane.startCycle n aligned (ringBoundary m.timeRing m.now) (m.wakeAt l aligned))
  let placed := if aligned then woken.updMod (fun y => { y with aligned := true }) else woken
  (((if l = .a then placed.ecCount 0xC0 255 else placed).freezeFsm n).lifeT0 l).clockReport l dev

/-- T0 of a lane that sleeps without a hold: it wakes, and a T0 that is the voter's first of its cycle brings the module's part. -/
theorem startT0_of_asleep {l : LaneId} {m : Mach} (dev : Int) (n : W32) (aligned : Bool) (hs : m.Sleeps l) :
    startT0 l dev n aligned m =
      let w := m.wakeT0 l dev n aligned
      if w.mod.mode = .halt then w
      else
        let v := if (m.cal.vote.cycle != n || (aligned && !m.mod.aligned)) && w.isVoting l then w.moduleT0 n else w
        if v.evaluates then v.sanderSlice l else v := by
  refine (if_neg ?_).trans ?_
  · rw [hs.phase]
    exact fun c => c.1 rfl
  · rw [Mach.endHold_of_none hs.unheld]
    rfl

/-- A VOTING lane wakes with its own new cycle. -/
theorem Mach.wakeT0_woken {l : LaneId} {dev : Int} {m : Mach} (n : W32) {aligned : Bool} (hlife : m.life l = .voting)
    (hal : aligned = true → m.mod.aligned = true) (h0 : -50 ≤ dev) (h1 : dev ≤ 50) :
    Woken l n aligned (m.wakeAt l aligned) m (m.wakeT0 l dev n aligned) := by
  unfold Mach.wakeT0
  extract_lets woken placed
  have hplaced : placed = woken := by
    unfold placed
    split
    · next ha =>
      have : woken.mod.aligned = true := hal ha
      unfold Mach.updMod
      rw [← this]
    · rfl
  rw [hplaced]
  have hcount : ButWake woken (if l = .a then woken.ecCount 0xC0 255 else woken) := by
    split
    · exact .of_onlyNoted (Mach.ecCount_onlyNoted ..)
    · rfl
  have hwake := hcount.trans (Mach.freezeFsm_butWake n _)
  generalize Mach.freezeFsm n _ = x at hwake ⊢
  have hown : x.lane l = _ := (Mach.lane_of_lanes hwake.lanes l).trans (Mach.lane_updLane_self ..)
  have hvoting : x.life l = .voting := by
    unfold Mach.life
    rw [hown]
    exact hlife
  obtain ⟨f, hf⟩ := Mach.clockReport_within (m := x.lifeT0 l) h0 h1
  rw [hf, Mach.lifeT0_of_voting hvoting]
  refine ⟨⟨ringBoundary m.timeRing m.now, ?_⟩, fun k hk => ?_, ?_⟩
  · refine (Mach.lane_updLane_self ..).trans ?_
    rw [hown]
    rfl
  · exact (Mach.lane_updLane_of_ne l k _ _ hk).trans
      ((Mach.lane_of_lanes hwake.lanes k).trans (Mach.lane_updLane_of_ne l k _ _ hk))
  · have k := congrArg (fun y : Mach => { y with lanes := m.lanes }) hwake
    exact k

section
variable {l : LaneId} {n : W32} {aligned : Bool} {t0 : Nat} {old new : Mach} (h : Woken l n aligned t0 old new)
include h

theorem Woken.mod : new.mod = old.mod := by have k := congrArg Mach.mod h.rest; exact k
theorem Woken.sd : new.sd = old.sd := by have k := congrArg Mach.sd h.rest; exact k
theorem Woken.vote : new.cal.vote = old.cal.vote := by have k := congrArg (fun m : Mach => m.cal.vote) h.rest; exact k
theorem Woken.test : new.bench.test = old.bench.test := by have k := congrArg (fun m : Mach => m.bench.test) h.rest; exact k
theorem Woken.upd : new.bench.upd = old.bench.upd := by have k := congrArg (fun m : Mach => m.bench.upd) h.rest; exact k

theorem Woken.life (k : LaneId) : new.life k = old.life k := by
  unfold Mach.life
  by_cases hk : k = l
  · obtain ⟨basic, hown⟩ := h.own
    rw [hk, hown]
  · rw [h.others k hk]

theorem Woken.bringForward : (new.lane l).snd.bringForward = (old.lane l).snd.bringForward := by
  obtain ⟨basic, hown⟩ := h.own
  rw [hown]
  rfl

end

/-- In a cycle that the voter has begun already, T0 wakes the lane and brings no more. -/
theorem startT0_woken {l : LaneId} {dev : Int} {n : W32} {aligned : Bool} {m : Mach} (hev : m.evaluates = true) (hs : m.Sleeps l)
    (hal : aligned = true → m.mod.aligned = true) (hcycle : m.cal.vote.cycle = n) (h0 : -50 ≤ dev) (h1 : dev ≤ 50) :
    Woken l n aligned (m.wakeAt l aligned) m (startT0 l dev n aligned m) := by
  have hw := Mach.wakeT0_woken n hs.life hal h0 h1
  have hfirst : (m.cal.vote.cycle != n || (aligned && !m.mod.aligned)) = false := by
    cases aligned with
    | false => simp [hcycle]
    | true => simp [hcycle, hal rfl]
  rw [startT0_of_asleep dev n aligned hs, hfirst]
  have hmode : (m.wakeT0 l dev n aligned).mod.mode ≠ .halt := by
    rw [hw.mod]
    exact Mach.mode_ne_halt_of_evaluates hev
  simp only [Bool.false_and, Bool.false_eq_true, if_false, if_neg hmode]
  rw [Mach.sanderSlice_of_none (hw.bringForward.trans hs.noSlice), ite_self]
  exact hw

/-! ### The first T0 of a cycle -/

/-- The dropping of aged ring frames keeps every view that looks at neither the ring interfaces nor the causes. -/
theorem Mach.dropAllAged_keeps {α : Type} (v : Mach → α) (hring : ∀ x i f, v (Mach.updRing i f x) = v x)
    (hraise : ∀ x p b, v (Mach.raise p b x) = v x) (n : W32) (m : Mach) : v (m.dropAllAged n) = v m := by
  unfold Mach.dropAllAged
  refine Mach.foldl_keeps v ?_ _ m
  intro x i
  split
  · unfold Mach.dropAged
    dsimp only
    split
    · rfl
    · exact (hraise ..).trans (hring ..)
  · rfl

/-- A single module in SERVICE with all lanes VOTING, and nothing pending for a T0. -/
structure Mach.AtRest (m : Mach) : Prop where
  mode : m.mod.mode = .service
  single : m.paired = false
  voting : ∀ k, m.life k = .voting
  cmd : m.mod.cmd = none
  request : m.bench.test.request = none
  noRoll : m.bench.upd.phase = 0

theorem Mach.AtRest.evaluates {m : Mach} (h : m.AtRest) : m.evaluates = true := by
  unfold Mach.evaluates
  rw [h.mode]

theorem Mach.AtRest.congr {a b : Mach} (h : a.AtRest) (hmod : b.mod = a.mod) (hsd : b.sd = a.sd)
    (htest : b.bench.test = a.bench.test) (hupd : b.bench.upd = a.bench.upd) (hlife : ∀ k, b.life k = a.life k) : b.AtRest where
  mode := by rw [hmod]; exact h.mode
  single := by unfold Mach.paired; rw [hsd]; exact h.single
  voting k := (hlife k).trans (h.voting k)
  cmd := by rw [hmod]; exact h.cmd
  request := by rw [htest]; exact h.request
  noRoll := by rw [hupd]; exact h.noRoll

section
variable {m : Mach} (n : W32) (h : m.AtRest)
include h

theorem Mach.pairT0_of_atRest : m.pairT0 n = m := if_pos h.single

theorem Mach.joinExit_of_atRest : m.joinExit n = m := if_neg (by rw [h.mode]; exact fun c => nomatch c.1)

theorem Mach.applyCommand_of_atRest : m.applyCommand n = m := by
  unfold Mach.applyCommand
  rw [h.cmd]

theorem Mach.requestedSlice_of_atRest : m.requestedSlice n = m := by
  unfold Mach.requestedSlice
  rw [h.request]

theorem Mach.rollMode_of_atRest : m.rollMode n = m := if_neg (by rw [h.noRoll]; exact fun c => nomatch c.1)

theorem Mach.rollT0_of_atRest : m.rollT0 n = m := if_pos (.inl (by rw [h.noRoll]; rfl))

theorem Mach.wakeWaiting_of_atRest : m.wakeWaiting = m := by
  unfold Mach.wakeWaiting
  rw [if_neg (by simp [h.evaluates])]
  refine List.foldl_fixed' (fun k => if_neg ?_) laneIds
  rw [show (m.lane k).agr.life = .voting from h.voting k]
  simp

/-- In a module at rest the first T0 of a cycle clears the voter for the cycle, and drops aged ring frames. -/
theorem Mach.moduleT0_of_atRest :
    m.moduleT0 n = ((m.updVote (Voter.newCycle n)).updPair (fun p => { p with mirrorEnd := none })).dropAllAged n := by
  unfold Mach.moduleT0
  generalize hy : Mach.updPair _ _ = y
  have hrest : y.AtRest := hy ▸ h.congr rfl rfl rfl rfl (fun _ => rfl)
  have hkeeps := y.dropAllAged_keeps (fun x => (x.mod, x.sd, x.bench, x.lanes)) (fun _ i _ => by cases i <;> rfl) (fun _ _ _ => rfl) n
  generalize y.dropAllAged n = x at hkeeps ⊢
  simp only [Prod.mk.injEq] at hkeeps
  obtain ⟨hmod, hsd, hbench, hlanes⟩ := hkeeps
  have hx : x.AtRest := hrest.congr hmod hsd (by rw [hbench]) (by rw [hbench])
    (fun k => congrArg (fun z : Lane => z.agr.life) (Mach.lane_of_lanes hlanes k))
  simp only [Mach.pairT0_of_atRest n hx, Mach.joinExit_of_atRest n hx, ite_self, Mach.applyCommand_of_atRest n hx,
    Mach.requestedSlice_of_atRest n hx, Mach.rollMode_of_atRest n hx, Mach.rollT0_of_atRest n hx, Mach.wakeWaiting_of_atRest hx]

end

/-- The first T0 of a cycle wakes its lane and begins the cycle in the voter. -/
theorem startT0_of_first {l : LaneId} {dev : Int} {n : W32} {m : Mach} (h : m.AtRest) (hs : m.Sleeps l)
    (hcycle : m.cal.vote.cycle ≠ n) (h0 : -50 ≤ dev) (h1 : dev ≤ 50) :
    ∃ w, Woken l n false (m.wakeAt l false) m w ∧ (startT0 l dev n false m).lanes = w.lanes ∧
      (startT0 l dev n false m).mod = m.mod ∧ (startT0 l dev n false m).cal.vote = Voter.newCycle n m.cal.vote := by
  have hw := Mach.wakeT0_woken (dev := dev) n (aligned := false) hs.life (fun c => nomatch c) h0 h1
  have hrest := h.congr hw.mod hw.sd hw.test hw.upd hw.life
  have hfirst : ((m.cal.vote.cycle != n || (false && !m.mod.aligned)) && (m.wakeT0 l dev n false).isVoting l) = true := by
    rw [show (m.wakeT0 l dev n false).isVoting l = true from beq_iff_eq.2 (hrest.voting l)]
    simp [hcycle]
  rw [startT0_of_asleep dev n false hs]
  dsimp only
  rw [if_neg (by rw [hrest.mode]; decide), if_pos hfirst, Mach.moduleT0_of_atRest n hrest]
  generalize m.wakeT0 l dev n false = w at *
  have hkeeps := Mach.dropAllAged_keeps (fun x => (x.lanes, x.mod, x.cal.vote)) (fun _ i _ => by cases i <;> rfl) (fun _ _ _ => rfl) n
    ((w.updVote (Voter.newCycle n)).updPair (fun p => { p with mirrorEnd := none }))
  generalize Mach.dropAllAged n _ = x at hkeeps ⊢
  simp only [Prod.mk.injEq] at hkeeps
  obtain ⟨hlanes, hmod, hvote⟩ := hkeeps
  rw [Mach.sanderSlice_of_none (by rw [Mach.lane_of_lanes hlanes]; exact hw.bringForward.trans hs.noSlice), ite_self]
  exact ⟨w, hw, hlanes, hmod.trans hw.mod, hvote.trans (congrArg (Voter.newCycle n) hw.vote)⟩

/-! ### A T0 that finds the lane in a phase (R125, R128) -/

theorem Mach.endHold_keeps (l : LaneId) (m : Mach) :
    ((m.endHold l).lane l).agr = (m.lane l).agr ∧ ((m.endHold l).lane l).mem = (m.lane l).mem ∧
      ((m.endHold l).lane l).cop.faults = (m.lane l).cop.faults ∧ (m.endHold l).mod = m.mod := by
  unfold Mach.endHold
  split
  · exact ⟨rfl, rfl, rfl, rfl⟩
  · cases l <;> exact ⟨rfl, rfl, rfl, rfl⟩

/-- A lane fault, whatever else of the lane changed before it. -/
theorem LaneFault.of_kept {l : LaneId} {cause : Byte} {a b c : Mach} (h : LaneFault l cause b c)
    (hfaults : (b.lane l).cop.faults = (a.lane l).cop.faults) (hmem : (b.lane l).mem = (a.lane l).mem) : LaneFault l cause a c := by
  unfold LaneFault at *
  rw [hfaults, hmem] at h
  exact h

theorem startT0_in_phase {l : LaneId} {m : Mach} (dev : Int) (n : W32) (aligned : Bool) (hlife : m.life l ≠ .out)
    (hm : m.mod.mode ≠ .halt) (hphase : m.phaseOf l ≠ .asleep ∧ ¬(m.phaseOf l = .sleepEntry ∧ (m.lane l).cop.holdSrc ≠ 0)) :
    LaneFault l 0x0D m (startT0 l dev n aligned m) := by
  obtain ⟨hagr, hmem, hfaults, hmod⟩ := m.endHold_keeps l
  unfold startT0
  dsimp only
  rw [if_pos hphase]
  generalize hx : Mach.updLane l _ (m.endHold l) = x
  have hlane : x.lane l = _ := hx ▸ Mach.lane_updLane_self ..
  refine (Mach.copierFault_spec l 0x0D x ?_ ?_).of_kept ?_ ?_
  · refine Mach.isOut_eq_false ?_
    unfold Mach.life
    rw [hlane, hagr]
    exact hlife
  · rw [← hx]
    exact hmod ▸ hm
  · rw [hlane]
    exact hfaults
  · rw [hlane]
    exact hmem

end Sys2Proof.Machine

open Sys2Proof Sys2Proof.Machine in
/-- Settles O11: in a cycle that the voter has begun a T0 is `Mach.wakeT0` alone (`startT0_woken`); the first T0 of a cycle in a
module at rest clears the voter beside it (`startT0_of_first`); in a phase it is a lane fault (`startT0_in_phase`). -/
theorem cycleStart : Obligations.CycleStart := by
  unfold Obligations.CycleStart
  refine ⟨fun s l dev t hev hlife hphase hheld hb hdue hlate hcycle hbf h0 h1 => ?_,
    fun s l dev t n hev hlife hphase hal hheld hb hcycle hmal hbf h0 h1 => ?_,
    fun s l dev t hmode hsingle hvoting hcmd hreq hupd hphase hheld hb hdue hlate hcycle h0 h1 => ?_,
    fun s l dev t hev hlife hphase hb hdue => ?_⟩
  · have hrun := cycleT0_of_due dev hev hlife hb hdue
    have hw := startT0_woken (m := s.m.tick t) (aligned := false) hev ⟨hlife, hphase, hheld, hbf⟩ (fun c => nomatch c) hcycle h0 h1
    rw [← hrun, Mach.wakeAt_of_due hlate] at hw
    refine completes_cycleT0 hev ?_
    obtain ⟨basic, hown⟩ := hw.own
    rw [hown]
    refine ⟨rfl, rfl, rfl, rfl, rfl, rfl, (hw.life l).trans hlife, hw.mod, hw.others, ?_, ?_, hw.vote⟩
    · have k := congrArg (fun y : Mach =>
        { y with now := s.m.now, bench := s.m.bench, cal := s.m.cal, irq := s.m.irq, field := s.m.field }) hw.rest
      exact k
    · have k := congrArg Mach.field hw.rest
      exact k
  · have hrun := cycleT0_of_boundary (m := s.m.tick t) dev hev hlife hb hal (Mach.phase_of_phaseOf_asleep hphase)
    have hw := startT0_woken (m := s.m.tick t) (aligned := true) hev ⟨hlife, hphase, hheld, hbf⟩ (fun _ => hmal) hcycle h0 h1
    rw [← hrun] at hw
    refine completes_cycleT0 hev ?_
    obtain ⟨basic, hown⟩ := hw.own
    rw [hown]
    exact ⟨rfl, Bool.or_true _, rfl, rfl, hw.others⟩
  · have hrest : (s.m.tick t).AtRest := ⟨hmode, hsingle, fun k => (hvoting k).1, hcmd, hreq, hupd⟩
    have hev : s.m.evaluates = true := hrest.evaluates
    have hrun := cycleT0_of_due dev hev (hvoting l).1 hb hdue
    have hs : (s.m.tick t).Sleeps l := ⟨(hvoting l).1, hphase, hheld, (hvoting l).2⟩
    obtain ⟨w, hw, hlanes, hmod, hvote⟩ := startT0_of_first hrest hs hcycle h0 h1
    rw [← hrun] at hlanes hmod hvote
    rw [Mach.wakeAt_of_due hlate] at hw
    refine completes_cycleT0 hev ?_
    obtain ⟨basic, hown⟩ := hw.own
    rw [hvote, Mach.lane_of_lanes hlanes, hown]
    exact ⟨rfl, rfl, rfl, rfl, rfl, rfl, rfl, rfl, hmod,
      fun k hk => (Mach.lane_of_lanes hlanes k).trans (hw.others k hk)⟩
  · refine completes_cycleT0 hev ?_
    rw [cycleT0_of_due dev hev hlife hb hdue]
    refine startT0_in_phase (m := s.m.tick t) dev _ false (by rw [show (s.m.tick t).life l = .voting from hlife]; decide)
      (Mach.mode_ne_halt_of_evaluates hev) ?_
    rcases hphase with h | h
    · exact ⟨fun c => absurd (c ▸ h) (by decide), fun c => absurd (c.1 ▸ h) (by decide)⟩
    · exact ⟨by rw [h.1]; decide, fun c => c.2 h.2⟩
end

section
/-! SUPPORT. The exchange's frames (R132 to R134, R152): what a lane sends at its marks, and what it takes from a link. -/

namespace Sys2Proof.Machine

/-! ### Commands that change one lane, or nothing -/

theorem completes_of_updLane {i : Instr} {s : State} {P : Mach → Prop} {l : LaneId} {t : Nat} {f : Mach → Mach} {g : Lane → Lane}
    (he : exec i s = s.run (fun m => f (m.tick t))) (hf : f (s.m.tick t) = (s.m.tick t).updLane l g)
    (hp : P ((s.m.tick t).updLane l g)) : Completes i s (fun m => OnlyLane l s.m m ∧ P m) :=
  completes_of_onlyLane he (by rw [hf]; exact onlyLane_updLane ..) (by rw [hf]; exact hp)

/-- A command that only moves the clock. -/
theorem becomes_tick {i : Instr} {s : State} {t : Nat} {f : Mach → Mach} (he : exec i s = s.run (fun m => f (m.tick t)))
    (hf : f (s.m.tick t) = s.m.tick t) : Becomes i s (s.m.tick t) :=
  becomes_of_run (fun m => f (m.tick t)) he (.inl (by rw [hf]; rfl)) hf

/-! ### Masks of lanes -/

@[simp] theorem inMask_maskOf (f : LaneId → Bool) (l : LaneId) : inMask (maskOf f) l = f l := by
  have hbits : ∀ a b c : Bool, let x := BitVec.ofNat 3 (bitOf a + 2 * bitOf b + 4 * bitOf c)
      x.getLsbD 0 = a ∧ x.getLsbD 1 = b ∧ x.getLsbD 2 = c := by decide
  obtain ⟨ha, hb, hc⟩ := hbits (f .a) (f .b) (f .c)
  cases l
  · exact ha
  · exact hb
  · exact hc

/-! ### The image frame at 45 µs (R133) -/

/-- The image frame of a lane that sampled, sent at an instant. -/
def Lane.imageFrame (l : LaneId) (now : Nat) (x : Lane) : ImageFrame :=
  sealImage
    { sender := l, voting := x.agr.life == .voting, cycle := x.cop.cycleNo, digest := sysDigest x.xch.sysBits
      image := x.xch.sampled, crc := 0, at0 := now, done := now + 10265 }

theorem imageFrameSend_of_due {l : LaneId} {m : Mach} (hphase : (m.lane l).phase = .sampling) (hs : (m.lane l).sampled = true)
    (hdue : (m.lane l).t0 + 45000 ≤ m.now) :
    imageFrameSend l m = m.updLane l (fun x => { x with
      phase := .exchange
      xch := { x.xch with
        sent := some ((m.lane l).imageFrame l m.now), ownSent := true
        images := x.xch.images.upd l (fun _ => some ((m.lane l).imageFrame l m.now)) } }) := if_pos ⟨hphase, hs, hdue⟩

/-! ### What arrives on a link (R132, R152) -/

section
variable {l : LaneId} {m : Mach}

theorem exchangeFrameReceive_unheard (e : ExchangeFrame) (h : m.life l ∈ [.out, .restart]) : exchangeFrameReceive l e m = m :=
  if_pos (by simpa using h)

theorem exchangeFrameReceive_image {f : ImageFrame} (h : m.life l ∈ [.voting, .sync]) (hf : f.sender ≠ l) :
    exchangeFrameReceive l (.image f) m = m.updLane l (fun x =>
      adoptTiming f { x with xch := { x.xch with images := x.xch.images.upd f.sender (fun _ => some f) } }) := by
  unfold exchangeFrameReceive
  rw [if_neg (by intro c; rcases c with c | c <;> simp [c] at h)]
  simp only [if_neg hf]

theorem exchangeFrameReceive_presence {f : PresenceFrame} (h : m.life l ∈ [.voting, .sync]) (hf : f.sender ≠ l) :
    exchangeFrameReceive l (.presence f) m = m.updLane l (fun x =>
      { x with xch := { x.xch with presence := x.xch.presence.upd f.sender (fun _ => some f) } }) := by
  unfold exchangeFrameReceive
  rw [if_neg (by intro c; rcases c with c | c <;> simp [c] at h)]
  simp only [if_neg hf]

theorem exchangeFrameReceive_transfer {f : TransferCopy} (h : m.life l = .sync) (hf : f.sender ≠ l) :
    exchangeFrameReceive l (.transfer f) m = m.updLane l (fun x =>
      if x.agr.life ≠ .sync then x
      else { x with xch := { x.xch with staging := x.xch.staging.filter (fun g => g.sender != f.sender) ++ [f] } }) := by
  unfold exchangeFrameReceive
  rw [if_neg (by rw [h]; decide)]
  simp only [hf, false_or]

end

/-- A lane that is not in SYNC keeps its own timing. -/
theorem adoptTiming_of_ne_sync (f : ImageFrame) {x : Lane} (h : x.agr.life ≠ .sync) : adoptTiming f x = x :=
  if_neg (fun c => h c.1)

theorem adoptTiming_of_sync {f : ImageFrame} {x : Lane} (hlife : x.agr.life = .sync) (hsync : x.agr.sync = .awaitFrames)
    (hv : f.voting = true) (hcrc : imageCrcOk f = true) (hat : x.agr.syncAt ≤ f.at0) :
    adoptTiming f x = { x with
      t0 := f.at0 - 45000, cop := { x.cop with cycleNo := f.cycle }, agr := { x.agr with sync := .request } } :=
  if_pos ⟨hlife, hsync, hv, hcrc, hat⟩

/-! ### The judgement at 62 µs (R134) -/

/-- The presence frame of a lane that judged the frames at an instant. -/
def Lane.presenceFrame (l : LaneId) (now : Nat) (x : Lane) : PresenceFrame :=
  sealPresence
    { sender := l, intact := intactMask x, request := x.agr.life == .sync && x.agr.sync == .request, cycle := x.cop.cycleNo
      crc := 0, done := now }

theorem intactJudgement_of_due {l : LaneId} {m : Mach} (hphase : (m.lane l).phase = .exchange) (hlife : m.life l ≠ .out)
    (hdue : (m.lane l).t0 + 62000 ≤ m.now) :
    intactJudgement l m = m.updLane l (fun x => { x with
      xch := { x.xch with
        sentPresence := some ((m.lane l).presenceFrame l m.now)
        presence := x.xch.presence.upd l (fun _ => some ((m.lane l).presenceFrame l m.now)) }
      agr := { x.agr with
        intact := intactMask (m.lane l), skewLo := skewOf x (otherLanes l).1, skewHi := skewOf x (otherLanes l).2 } }) :=
  if_pos (by simp [inExchange, hphase, hdue, Mach.isOut_eq_false hlife])

/-- The frames that a lane marks as intact. -/
theorem inMask_intactMask (x : Lane) (o : LaneId) : inMask (intactMask x) o = (x.xch.images.get o).any (frameIntact x) := by
  unfold intactMask
  rw [inMask_maskOf]
  cases x.xch.images.get o <;> rfl

end Sys2Proof.Machine

open Sys2Proof Sys2Proof.Machine in
/-- Settles O13: at its marks, and with a frame from another lane, a lane changes itself as the equations above say, and nothing
else changes. -/
theorem exchangeFrames : Obligations.ExchangeFrames := by
  unfold Obligations.ExchangeFrames
  refine ⟨fun s l t hphase hs hdue => ?_, fun s l f t hlife hf => ?_, fun s l f t hlife hsync hf hv hcrc hat => ?_,
    fun s l f t hlife hf => ?_, fun s l f t hlife hf => ?_, fun s l e t hlife => ?_, fun s l t hphase hlife hdue => ?_⟩
  · refine completes_of_updLane (f := imageFrameSend l) rfl (imageFrameSend_of_due hphase hs hdue) ?_
    rw [Mach.lane_updLane_self]
    refine ⟨rfl, rfl, Tri.get_upd_self .., ?_, ?_⟩
    · simp only [Option.any_some, Bool.and_eq_true, beq_iff_eq]
      exact ⟨⟨⟨⟨⟨rfl, rfl⟩, rfl⟩, rfl⟩, imageCrcOk_sealImage _⟩, rfl⟩
    · rw [← hphase]; rfl
  · refine completes_of_updLane (f := exchangeFrameReceive l (.image f)) rfl
      (exchangeFrameReceive_image (by simp [show (s.m.tick t).life l = .voting from hlife]) hf) ?_
    rw [Mach.lane_updLane_self]
    exact adoptTiming_of_ne_sync f (fun c => LaneLife.noConfusion (hlife.symm.trans c))
  · refine completes_of_updLane (f := exchangeFrameReceive l (.image f)) rfl
      (exchangeFrameReceive_image (by simp [show (s.m.tick t).life l = .sync from hlife]) hf) ?_
    rw [Mach.lane_updLane_self, adoptTiming_of_sync (by exact hlife) (by exact hsync) hv hcrc (by exact hat)]
    exact ⟨rfl, rfl, rfl, Tri.get_upd_self ..⟩
  · refine completes_of_updLane (f := exchangeFrameReceive l (.presence f)) rfl
      (exchangeFrameReceive_presence (by exact hlife) hf) (Mach.lane_updLane_self ..)
  · refine completes_of_updLane (f := exchangeFrameReceive l (.transfer f)) rfl (exchangeFrameReceive_transfer (by exact hlife) hf) ?_
    rw [Mach.lane_updLane_self, if_neg (fun c => c hlife)]
    exact ⟨rfl, rfl⟩
  · exact becomes_tick (f := exchangeFrameReceive l e) rfl (exchangeFrameReceive_unheard e hlife)
  · refine completes_of_updLane (f := intactJudgement l) rfl (intactJudgement_of_due hphase hlife hdue) ?_
    rw [Mach.lane_updLane_self]
    exact ⟨fun o => inMask_intactMask (s.m.lane l) o, rfl, Tri.get_upd_self .., rfl⟩
end

section
/-! SUPPORT. The end of a lane's sleep entry (R116, R143): its control core has stopped, and with it its comparator; and with that the
refutation of O16. -/

namespace Sys2Proof.Machine

/-- A comparator whose unit no longer runs at the instant of the command signals nothing (R143). -/
theorem comparatorMismatch_of_stopped {s : State} {l : LaneId} {u : Comparator} {t : Nat} (h : (s.m.tick t).unitRuns l u = false) :
    Becomes (.comparatorMismatch l u t) s (s.m.tick t) :=
  becomes_tick (f := fun m => if m.unitRuns l u then m.mismatch l u else m) rfl (if_neg (by rw [h]; exact Bool.false_ne_true))

/-- A module in SERVICE at instant 0, its lanes VOTING and in the sleep entry that ends at 4 µs. -/
def fallingAsleep : Mach :=
  ({ State.reset.m with power := { powered := true }, mod := { mode := .service } } : Mach).updLanes (fun _ x =>
    { x with agr := { x.agr with life := .voting, held := false }, phase := .asleep, awake := false, sleepEnd := 4000 })

end Sys2Proof.Machine

open Sys2Proof Sys2Proof.Machine in
/-- Refutes O16: the first clause asks whether the core runs before the command and not at its instant. A lane in the last 4 µs of its
sleep entry still runs its core at 0; at 4 µs it sleeps, nothing compares, and a mismatch sent then only moves the clock
(`comparatorMismatch_of_stopped`), where the clause has the lane OUT. -/
theorem not_laneFaultCommands : ¬ Obligations.LaneFaultCommands := by
  unfold Obligations.LaneFaultCommands
  rintro ⟨hcore, -⟩
  have hgone := hcore ⟨[], fallingAsleep⟩ .a 4000 (by decide) (by decide) (by decide)
  obtain ⟨hout, -⟩ := hgone.of_becomes (comparatorMismatch_of_stopped (by decide))
  exact absurd hout (by decide)
end

section
/-! SUPPORT. A lane that went OUT in its hand-over stands in the cycle's report as absent (R171); and with that the refutation of
O19. -/

namespace Sys2Proof.Machine

/-- The drive record of lanes A and B, voted, its window closed. -/
def votedDrive : VoteSlot :=
  { drive := true, msg := 0, word := 0, voted := some 0, closed := true
    copies := ⟨some { data := 0, good := true, at0 := 0 }, some { data := 0, good := true, at0 := 0 }, none⟩ }

/-- A module in DEGRADED: lanes A and B are VOTING and have ended their hand-over, lane C began its own and went OUT in it. -/
def lostInHandover : Mach :=
  { State.reset.m with
    power := { powered := true }, mod := { mode := .degraded }
    lanes := ⟨{ agr := { life := .voting, held := false } }, { agr := { life := .voting, held := false } }, {}⟩
    cal := { vote := { began := 7, ended := 3, firstEnd := some 0, lastEnd := some 0, slots := [votedDrive] } } }

theorem cycleReport_lostInHandover : (cycleReport (lostInHandover.tick 4000)).cal.vote.reportAbs = maskOf (· == .c) := by decide

end Sys2Proof.Machine

open Sys2Proof Sys2Proof.Machine in
/-- Refutes O19: the first clause asks only the VOTING lanes for their end-of-hand-over words, and has the report name no lane. A lane
that began its hand-over and went OUT before its end word is absent from the words that it did not hand over (R171), so the report
names it. -/
theorem not_cycleReport : ¬ Obligations.CycleReport := by
  unfold Obligations.CycleReport
  rintro ⟨hquiet, -⟩
  obtain ⟨-, -, habs, -⟩ := (hquiet ⟨[], lostInHandover⟩ 4000 0 rfl rfl (by decide) (by decide) (by decide) (by decide)
    (fun l => by cases l <;> decide) (by decide) rfl rfl).of_run (fun m => cycleReport (m.tick 4000)) rfl
  rw [Mach.supervise_of_ne _ _ (by decide), cycleReport_lostInHandover] at habs
  exact absurd habs (by decide)
end

section
/-! SUPPORT. The cause that HALT records (R408). -/

namespace Sys2Proof.Machine

/-- A mode change keeps what the module records beside its mode, the mode's cycle and the sweep. -/
theorem Mach.enterModeAt_keepsMod {α : Type} (g : ModState → α) (cyc : W32) (new : Mode) (m : Mach)
    (hmode : ∀ y a b c, g { y with mode := a, prev := b, modeCycle := c } = g y)
    (hsweep : ∀ y, g { y with sweepState := 3, sweepFrom := none } = g y) : g (m.enterModeAt cyc new).mod = g m.mod := by
  unfold Mach.enterModeAt
  split
  · rfl
  · dsimp only
    rw [Mach.postModule_mod, Mach.raise_mod]
    refine (ite_view (fun x => g x.mod) _ _ ?_).trans ((ite_view (fun x => g x.mod) _ _ ?_).trans
      ((ite_view (fun x => g x.mod) _ _ ?_).trans ((hmode ..).trans (ite_view (fun x => g x.mod) _ _ ?_))))
    · rfl
    · rfl
    · rfl
    · exact ite_view (fun x => g x.mod) _ _ (hsweep _)

theorem ButField.haltCause {a b : Mach} (h : ButField a b) : b.mod.haltCause = a.mod.haltCause := by
  have k := congrArg (fun m => m.mod.haltCause) h; exact k
theorem ButField.haltSrc {a b : Mach} (h : ButField a b) : b.mod.haltSrc = a.mod.haltSrc := by
  have k := congrArg (fun m => m.mod.haltSrc) h; exact k

/-- HALT records its cause and who took it. -/
theorem Mach.enterHalt_cause (cause : Byte) (src : Nat) {m : Mach} (h : m.mod.mode ≠ .halt) :
    (m.enterHalt cause src).mod.haltCause = cause ∧ (m.enterHalt cause src).mod.haltSrc = BitVec.ofNat 3 src := by
  unfold Mach.enterHalt
  rw [if_neg h]
  dsimp only
  rw [Mach.postModule_mod, Mach.raise_mod]
  generalize hx : Mach.trialWritten _ = x
  have hcause : x.mod.haltCause = cause := by rw [← hx, Mach.trialWritten_mod]
  have hsrc : x.mod.haltSrc = BitVec.ofNat 3 src := by rw [← hx, Mach.trialWritten_mod]
  have hheld := Mach.forcedOffAll_butField x.holdLanes
  generalize x.holdLanes.forcedOffAll = y at hheld ⊢
  have hkept := Mach.enterModeAt_keepsMod (fun z => (z.haltCause, z.haltSrc)) m.cycleNo .halt y.portsOff.eraseToken
    (fun _ _ _ _ => rfl) (fun _ => rfl)
  simp only [Prod.mk.injEq] at hkept
  exact ⟨hkept.1.trans (hheld.haltCause.trans hcause), hkept.2.trans (hheld.haltSrc.trans hsrc)⟩

end Sys2Proof.Machine
end

section
/-! SUPPORT. The accepted set and the consensus image (R135 to R140): which images count, what a word of the consensus is, and why a
difference that no earlier cycle saw charges no lane. -/

namespace Sys2Proof.Machine

/-! ### Memories made word by word -/

theorem memRead_memWrites_map {w : Nat} (d : BitVec w) (f : Nat → BitVec w) (keys : List Nat) (m : Mem w) (a : Nat) :
    memRead d (memWrites d (keys.map (fun k => (k, f k))) m) a = if a ∈ keys then f a else memRead d m a := by
  unfold memWrites
  induction keys generalizing m with
  | nil => rw [if_neg (List.not_mem_nil)]; rfl
  | cons k ks ih =>
    rw [List.map_cons, List.foldl_cons, ih]
    by_cases hk : a = k
    · rw [hk, memRead_memWrite_same]; simp
    · rw [memRead_memWrite_of_ne _ _ _ _ _ hk]; simp [hk]

theorem memRead_memBuild {w : Nat} (d : BitVec w) (keys : List Nat) (f : Nat → BitVec w) (a : Nat) :
    memRead d (memBuild d keys f) a = if a ∈ keys then f a else d := memRead_memWrites_map d f keys [] a

theorem memRead_of_notMem_memKeys {w : Nat} (d : BitVec w) {m : Mem w} {a : Nat} (h : a ∉ memKeys m) : memRead d m a = d := by
  induction m with
  | nil => rfl
  | cons p r ih =>
    obtain ⟨hp, hr⟩ := not_or.1 (fun c => h (List.mem_cons.2 c))
    exact (if_neg (Ne.symm hp)).trans (ih hr)

/-! ### The consensus (R136, R138) -/

theorem mem_wordsOf {imgs : List (LaneId × Mem 32)} {extra : List Nat} {w : Nat} :
    w ∈ wordsOf imgs extra ↔ w < 2048 ∧ ((∃ p ∈ imgs, w ∈ memKeys p.2) ∨ w ∈ extra) := by
  simp only [wordsOf, List.mem_filter, List.mem_range, List.contains_iff_mem, List.mem_append, List.mem_flatMap, decide_eq_true_eq]
  exact ⟨fun ⟨hw, h, _⟩ => ⟨hw, h⟩, fun ⟨hw, h⟩ => ⟨hw, h, hw⟩⟩

theorem nodup_wordsOf (imgs : List (LaneId × Mem 32)) (extra : List Nat) : (wordsOf imgs extra).Nodup :=
  List.nodup_range.filter _

/-- A word that no image lists is 0 in the consensus. -/
theorem consensusWord_unlisted (restrict : Mem 32) {imgs : List (LaneId × Mem 32)} {w : Nat}
    (h : ∀ p ∈ imgs, memRead 0 p.2 w = 0) : consensusWord restrict imgs w = 0 := by
  unfold consensusWord
  split
  · next a b c =>
    rw [h a (by simp), h b (by simp), h c (by simp)]
    rfl
  · next a b =>
    rw [h a (by simp), h b (by simp)]
    simp
  · rfl

/-- The consensus image holds the consensus of every input word. -/
theorem memRead_consensus (restrict : Mem 32) (imgs : List (LaneId × Mem 32)) (extra : List Nat) {w : Nat} (hw : w < 2048) :
    memRead 0 (memBuild 0 (wordsOf imgs extra) (consensusWord restrict imgs)) w = consensusWord restrict imgs w := by
  rw [memRead_memBuild]
  split
  · rfl
  · next hnot =>
    refine (consensusWord_unlisted restrict (fun p hp => memRead_of_notMem_memKeys 0 (fun hk => hnot ?_))).symm
    exact mem_wordsOf.2 ⟨hw, .inl ⟨p, hp, hk⟩⟩

/-! ### The images that count (R135) -/

theorem imagesOf_length_le (x : Lane) (k : BitVec 3) : (imagesOf x k).length ≤ (laneIds.filter (inMask k)).length := by
  have hfilter : imagesOf x k =
      (laneIds.filter (inMask k)).filterMap (fun o => (x.xch.images.get o).map (fun f => (o, f.image))) := by
    rw [List.filterMap_filter]
    rfl
  rw [hfilter]
  exact List.length_filterMap_le ..

theorem imagesOf_three {x : Lane} {a b c : ImageFrame} (h : x.xch.images = ⟨some a, some b, some c⟩) :
    imagesOf x 7 = [(.a, a.image), (.b, b.image), (.c, c.image)] := by
  unfold imagesOf
  rw [h]
  rfl

theorem imagesOf_two {x : Lane} {a b : ImageFrame} (ha : x.xch.images.a = some a) (hb : x.xch.images.b = some b) :
    imagesOf x 3 = [(.a, a.image), (.b, b.image)] := by
  have hget : x.xch.images = ⟨some a, some b, x.xch.images.c⟩ := by rw [← ha, ← hb]
  unfold imagesOf
  rw [hget]
  rfl

/-! ### Divergence (R139, R140) -/

/-- A difference to be tracked: its word, the code of its lane, and its bits. -/
structure Divergence where
  word : Nat
  lane : Nat
  bits : W32

def Divergence.key (d : Divergence) : Nat × Nat := (d.word, d.lane)

def trackAll (ds : List Divergence) (p : DivPass) : DivPass := ds.foldl (fun p d => trackDiv d.word d.lane d.bits p) p

/-- A table names none of the words and lanes that are still to come. -/
def DivPass.NamesNone (p : DivPass) (keys : List (Nat × Nat)) : Prop := ∀ e ∈ p.tbl, (e.word, e.lane) ∉ keys

/-- A word and lane that the table does not name yet makes a new entry at most, and no hit. -/
theorem trackDiv_of_new {w lane : Nat} (d : W32) {p : DivPass} (h : ∀ e ∈ p.tbl, (e.word, e.lane) ≠ (w, lane)) :
    (trackDiv w lane d p).hits = p.hits ∧ ∀ e ∈ (trackDiv w lane d p).tbl, e ∈ p.tbl ∨ (e.word, e.lane) = (w, lane) := by
  have hnone : p.tbl.find? (fun e => e.word == w && e.lane == lane) = none :=
    List.find?_eq_none.2 (fun e he => by simpa [Prod.ext_iff] using h e he)
  unfold trackDiv
  rw [hnone]
  dsimp only
  split
  · exact ⟨rfl, fun e he => .inl he⟩
  · split
    · refine ⟨rfl, fun e he => ?_⟩
      rcases List.mem_cons.1 he with rfl | he
      · exact .inr rfl
      · exact .inl he
    · exact ⟨rfl, fun e he => .inl he⟩

/-- Differences of one cycle, each word and lane once, make no hit where the table names none of them. -/
theorem trackAll_hits {ds : List Divergence} (hd : (ds.map Divergence.key).Nodup) {p : DivPass}
    (hp : p.NamesNone (ds.map Divergence.key)) : (trackAll ds p).hits = p.hits := by
  induction ds generalizing p with
  | nil => rfl
  | cons d ds ih =>
    obtain ⟨hnew, hrest⟩ := List.nodup_cons.1 hd
    obtain ⟨hhits, htbl⟩ := trackDiv_of_new (w := d.word) (lane := d.lane) d.bits (p := p)
      (fun e he c => hp e he (by rw [c]; exact List.mem_cons_self))
    refine (ih hrest (fun e he => ?_)).trans hhits
    rcases htbl e he with hold | hown
    · exact fun c => hp e hold (List.mem_cons_of_mem _ c)
    · rw [hown]; exact hnew

/-- The differences of two images from each other (R140). -/
def pairDiffs (a b : Mem 32) (ws : List Nat) : List Divergence := ws.map (fun w => ⟨w, 0, memRead 0 a w ^^^ memRead 0 b w⟩)

/-- The differences of images from the consensus, word by word (R139). -/
def laneDiffs (maj : Mem 32) (imgs : List (LaneId × Mem 32)) (ws : List Nat) : List Divergence :=
  ws.flatMap (fun w => imgs.map (fun x => ⟨w, laneCode x.1, memRead 0 x.2 w ^^^ memRead 0 maj w⟩))

theorem divPass_two (maj : Mem 32) (a b : LaneId × Mem 32) (ws : List Nat) (tbl : List DivEntry) :
    divPass maj [a, b] ws tbl = trackAll (pairDiffs a.2 b.2 ws) { tbl := tbl, full := tbl.length == 128, hits := [] } := by
  unfold divPass trackAll pairDiffs
  rw [List.foldl_map]

theorem divPass_three (maj : Mem 32) (a b c : LaneId × Mem 32) (ws : List Nat) (tbl : List DivEntry) :
    divPass maj [a, b, c] ws tbl =
      trackAll (laneDiffs maj [a, b, c] ws) { tbl := tbl, full := tbl.length == 128, hits := [] } := by
  unfold divPass trackAll laneDiffs
  rw [List.foldl_flatMap]
  rfl

/-- With no divergence running, two images make no hit. -/
theorem divPass_two_hits (maj : Mem 32) (a b : LaneId × Mem 32) {ws : List Nat} (hw : ws.Nodup) :
    (divPass maj [a, b] ws []).hits = [] := by
  rw [divPass_two]
  refine trackAll_hits ?_ (fun _ he => absurd he List.not_mem_nil)
  rw [pairDiffs, List.map_map]
  exact hw.map (fun u v h => congrArg Prod.fst h)

/-- With no divergence running, three images make no hit. -/
theorem divPass_three_hits (maj a b c : Mem 32) {ws : List Nat} (hw : ws.Nodup) :
    (divPass maj [(.a, a), (.b, b), (.c, c)] ws []).hits = [] := by
  rw [divPass_three]
  refine trackAll_hits ?_ (fun _ he => absurd he List.not_mem_nil)
  have hkeys : (laneDiffs maj [(.a, a), (.b, b), (.c, c)] ws).map Divergence.key = ws ×ˢ [1, 2, 3] := by
    unfold laneDiffs
    rw [List.map_flatMap]
    rfl
  rw [hkeys]
  exact hw.product (by decide)

/-! ### The pass over the images (R136 to R140) -/

/-- The image that a lane forms from an accepted set. -/
def Lane.consensusImage (acc : BitVec 3) (x : Lane) : Mem 32 :=
  memBuild 0 (wordsOf (imagesOf x acc) (x.agr.div.map DivEntry.word)) (consensusWord x.xch.restrict (imagesOf x acc))

/-- What the pass tracks of the images' differences. -/
def Lane.tracked (acc : BitVec 3) (x : Lane) : DivPass :=
  divPass (x.consensusImage acc) (imagesOf x acc) (wordsOf (imagesOf x acc) (x.agr.div.map DivEntry.word)) x.agr.div

/-- A lane has formed its image from an accepted set, and the module around it is as it was. -/
structure FormsImage (l : LaneId) (acc : BitVec 3) (old new : Mach) : Prop where
  only : OnlyLane l old { new with irq := old.irq }
  xch : (new.lane l).xch =
    { (old.lane l).xch with majority := (old.lane l).consensusImage acc, formed := true, mapped := true }
  accept : (new.lane l).agr.accept = acc
  twoImg : (imagesOf (old.lane l) acc).length = 2 → (new.lane l).agr.live.twoImg = satInc (old.lane l).agr.live.twoImg

theorem FormsImage.majority {l : LaneId} {acc : BitVec 3} {old new : Mach} (h : FormsImage l acc old new) {w : Nat} (hw : w < 2048) :
    memRead 0 (new.lane l).xch.majority w =
      consensusWord (old.lane l).xch.restrict (imagesOf (old.lane l) acc) w := by
  rw [h.xch]
  unfold Lane.consensusImage
  rw [memRead_consensus _ _ _ hw]

/-- A pass without a hit, and with no run of large differences, charges no lane. -/
theorem majorityPass_forms {l : LaneId} {acc : BitVec 3} {m : Mach} (hhits : ((m.lane l).tracked acc).hits = [])
    (hbig : (m.lane l).agr.bigRun = ⟨0, 0, 0⟩) (hacc : (m.lane l).agr.accept = acc) :
    FormsImage l acc m (majorityPass l acc m) := by
  unfold majorityPass
  extract_lets x imgs ws maj p two minor restr big inc m1 m2 runs
  have hp : p.hits = [] := hhits
  have hlanes : m2.lanes = m1.lanes := by unfold m2; split <;> rfl
  have hone : ∀ o, runs.get o ≤ 1 := by
    intro o
    have hrun : runs.get o = big o 0 := by
      have hself : m2.lane l = _ := (Mach.lane_of_lanes hlanes l).trans (Mach.lane_updLane_self ..)
      unfold runs
      rw [hself, Tri.get_all, hbig]
      cases o <;> rfl
    rw [hrun]
    unfold big
    split
    · split <;> omega
    · omega
  have hnone : (laneIds.filter (fun o => p.hits.contains (laneCode o) || decide (4 ≤ runs.get o))) = [] := by
    refine List.filter_eq_nil_iff.2 (fun o _ => ?_)
    have := hone o
    simp [hp]
    omega
  rw [hnone, hp, if_neg (by decide), List.foldl_nil]
  have honly : OnlyLane l m { m2 with irq := m.irq } := by
    have hm2 : { m2 with irq := m.irq } = m1 := by unfold m2; split <;> rfl
    rw [hm2]
    exact onlyLane_updLane ..
  have hself : m2.lane l = _ := (Mach.lane_of_lanes hlanes l).trans (Mach.lane_updLane_self ..)
  refine ⟨honly, ?_, ?_, fun htwo => ?_⟩
  · rw [hself]; rfl
  · rw [hself]; exact hacc
  · rw [hself]
    exact if_pos (beq_iff_eq.2 htwo)

/-! ### The accepted set at 63 µs (R135, R137) -/

/-- A VOTING lane in the exchange phase that has not formed its image at 63 µs, with the set that it accepts. -/
structure Accepting (l : LaneId) (acc : BitVec 3) (m : Mach) : Prop where
  life : m.life l = .voting
  phase : (m.lane l).phase = .exchange
  unformed : (m.lane l).xch.formed = false
  due : (m.lane l).t0 + 63000 ≤ m.now
  mask : acceptedMask m (m.lane l) = acc

/-- How often in a row a VOTING lane's image was not accepted (R146). -/
def Mach.missed (acc : BitVec 3) (m : Mach) (o : LaneId) (n : Nat) : Nat := if m.isVoting o && !inMask acc o then n + 1 else 0

/-- What a lane writes down of the set that it accepts. -/
def Mach.accepted (l : LaneId) (acc differ : BitVec 3) (m : Mach) : Mach :=
  m.updAgr l (fun a => { a with accept := acc, sysDig := differ, missRun := a.missRun.all (m.missed acc) })

section
variable {l : LaneId} {acc : BitVec 3} {m : Mach} (h : Accepting l acc m)
include h

/-- Fewer than two accepted images: HALT (R138). -/
theorem acceptedSet_of_few (hfew : (imagesOf (m.lane l) acc).length < 2) :
    ∃ differ, acceptedSet l m = (m.accepted l acc differ).haltLanes 0x03 := by
  obtain ⟨hlife, hphase, hform, hdue, hmask⟩ := h
  unfold acceptedSet
  subst hmask
  extract_lets x acc ds own differ miss m1
  rw [if_pos ⟨hphase, hform, hdue, Mach.isOut_eq_false (by rw [hlife]; decide)⟩, if_pos hfew]
  exact ⟨differ, rfl⟩

/-- Two accepted images or more, and digests of which no two agree: HALT (R137). No lane is judged in HALT. -/
theorem acceptedSet_of_disagreement (htwo : 2 ≤ (imagesOf (m.lane l) acc).length)
    (hds : digestVerdict (digestsOf m (m.lane l)) = .halt) (hm : m.mod.mode ≠ .halt) :
    ∃ differ, acceptedSet l m = (m.accepted l acc differ).haltLanes 0x04 := by
  obtain ⟨hlife, hphase, hform, hdue, hmask⟩ := h
  unfold acceptedSet
  subst hmask
  extract_lets x acc ds own differ miss m1 m2 m3
  rw [if_pos ⟨hphase, hform, hdue, Mach.isOut_eq_false (by rw [hlife]; decide)⟩, if_neg (Nat.not_lt.2 htwo)]
  have hvoting : m1.isVoting l = true := by
    unfold m1 Mach.isVoting Mach.life Mach.updAgr
    rw [Mach.lane_updLane_self]
    exact beq_iff_eq.2 hlife
  have hm2 : m2 = m1.haltLanes 0x04 := by
    unfold m2
    rw [if_pos hvoting, show digestVerdict ds = .halt from hds]
  obtain ⟨-, hheld, -⟩ := Mach.enterHalt_spec 0x04 6 m1 hm
  obtain ⟨hout, -⟩ := hheld l (by cases l <;> decide)
  have hm3 : m3 = m2 := by
    have hjudge : ∀ o, m2.judge l o 0x24 = m2 := by
      intro o
      refine if_pos (beq_eq_false_iff_ne.2 ?_)
      rw [hm2, show (m1.haltLanes 0x04).life l = .out from hout]
      decide
    exact List.foldl_fixed' hjudge _
  have hisOut : (m1.haltLanes 0x04).isOut l = true := beq_iff_eq.2 hout
  rw [hm3, hm2, if_pos hisOut]
  exact ⟨differ, rfl⟩

/-- Two accepted images or more, digests that agree, and no image missed in the cycle before: the lane forms its image. -/
theorem acceptedSet_of_agreement (htwo : 2 ≤ (imagesOf (m.lane l) acc).length)
    (hds : digestVerdict (digestsOf m (m.lane l)) = .agree) (hmiss : (m.lane l).agr.missRun = ⟨0, 0, 0⟩) :
    ∃ differ, acceptedSet l m =
      majorityPass l acc (m.accepted l acc differ) := by
  obtain ⟨hlife, hphase, hform, hdue, hmask⟩ := h
  unfold acceptedSet
  subst hmask
  extract_lets x acc ds own differ miss m1 m2 m3
  rw [if_pos ⟨hphase, hform, hdue, Mach.isOut_eq_false (by rw [hlife]; decide)⟩, if_neg (Nat.not_lt.2 htwo)]
  have hself : m1.lane l = _ := Mach.lane_updLane_self ..
  have hm2 : m2 = m1 := by
    unfold m2
    rw [show digestVerdict ds = .agree from hds]
    exact ite_self _
  have hnone : laneIds.filter (fun o => decide (2 ≤ (m1.lane l).agr.missRun.get o)) = [] := by
    refine List.filter_eq_nil_iff.2 (fun o _ => ?_)
    have hone : miss o 0 ≤ 1 := by
      unfold miss
      split <;> omega
    have hrun : (m1.lane l).agr.missRun.get o = miss o 0 := by
      rw [hself, Tri.get_all, hmiss]
      cases o <;> rfl
    rw [hrun]
    simp
    omega
  have hm3 : m3 = m1 := by
    unfold m3
    rw [hm2, hnone]
    rfl
  rw [hm3, if_neg]
  · exact ⟨differ, rfl⟩
  · unfold Mach.isOut Mach.life
    rw [hself, show (m.lane l).agr.life = .voting from hlife]
    decide

end

/-- So it does where no divergence of three cycles and no run of large differences has it judge a lane. -/
theorem acceptedSet_forms {l : LaneId} {acc : BitVec 3} {m : Mach} (h : Accepting l acc m) (htwo : 2 ≤ (imagesOf (m.lane l) acc).length)
    (hds : digestVerdict (digestsOf m (m.lane l)) = .agree) (hmiss : (m.lane l).agr.missRun = ⟨0, 0, 0⟩)
    (hhits : ((m.lane l).tracked acc).hits = []) (hbig : (m.lane l).agr.bigRun = ⟨0, 0, 0⟩) :
    FormsImage l acc m (acceptedSet l m) := by
  obtain ⟨differ, hrun⟩ := acceptedSet_of_agreement h htwo hds hmiss
  rw [hrun]
  have hself : (m.accepted l acc differ).lane l = _ := Mach.lane_updLane_self ..
  have honly : OnlyLane l m (m.accepted l acc differ) := onlyLane_updLane ..
  have hirq : (m.accepted l acc differ).irq = m.irq := rfl
  generalize m.accepted l acc differ = x at hself honly hirq ⊢
  obtain ⟨kept, hxch, hacc, htwoImg⟩ := majorityPass_forms (acc := acc) (m := x) (by rw [hself]; exact hhits)
    (by rw [hself]; exact hbig) (by rw [hself])
  rw [hirq] at kept
  rw [hself] at hxch htwoImg
  exact ⟨honly.trans kept, hxch, hacc, htwoImg⟩

/-- The command completes with the image formed, in every mode. -/
theorem completes_of_formsImage {s : State} {l : LaneId} {acc : BitVec 3} {t : Nat} {P : Mach → Prop}
    (h : FormsImage l acc (s.m.tick t) (acceptedSet l (s.m.tick t))) (hp : P (acceptedSet l (s.m.tick t))) :
    Completes (.acceptedSet l t) s (fun m => OnlyLane l s.m { m with irq := s.m.irq } ∧ P m) :=
  completes_of_mode_eq (fun m => acceptedSet l (m.tick t)) rfl (congrArg ModState.mode h.only.mod)
    ⟨(onlyLane_tick l t s.m).trans h.only, hp⟩

/-- The command completes with HALT for its cause. -/
theorem completes_acceptedSet_halt {s : State} {l : LaneId} {cause : Byte} {t : Nat} {m : Mach} (hm : s.m.mod.mode ≠ .halt)
    (hmode : m.mod.mode ≠ .halt) (hrun : acceptedSet l (s.m.tick t) = m.haltLanes cause) :
    Completes (.acceptedSet l t) s (fun m => m.mod.mode = .halt ∧ m.mod.haltCause = cause ∧ m.mod.haltSrc = 6 ∧
      LanesHeld m ∧ Undriven m ∧ Unsent m) := by
  refine completes_of_ne_halt (fun m => acceptedSet l (m.tick t)) rfl hm ?_
  rw [hrun]
  obtain ⟨hhalt, hrest⟩ := Mach.enterHalt_spec cause 6 m hmode
  obtain ⟨hcause, hsrc⟩ := Mach.enterHalt_cause cause 6 hmode
  exact ⟨hhalt, hcause, hsrc, hrest⟩

end Sys2Proof.Machine

open Sys2Proof Sys2Proof.Machine in
/-- Settles O14: with two or three accepted images the lane forms the consensus of each word (`acceptedSet_forms`,
`memRead_consensus`); with fewer, or with no two digests equal, the module takes HALT. -/
theorem acceptedImages : Obligations.AcceptedImages := by
  unfold Obligations.AcceptedImages
  refine ⟨fun s l t a b c hlife hphase hform hdue hacc hds himg hdiv hbig hmiss => ?_,
    fun s l t a b hlife hphase hform hdue hacc hds ha hb hdiv hbig hmiss => ?_,
    fun s l t hlife hphase hform hdue hm hacc => ?_, fun s l t hlife hphase hform hdue hm hacc himg hds => ?_⟩
  · have himgs := imagesOf_three himg
    have hhits : ((s.m.lane l).tracked 7).hits = [] := by
      unfold Lane.tracked
      rw [himgs, hdiv]
      exact divPass_three_hits _ _ _ _ (nodup_wordsOf ..)
    have hforms := acceptedSet_forms (m := s.m.tick t) ⟨hlife, hphase, hform, hdue, hacc⟩
      (by rw [show imagesOf ((s.m.tick t).lane l) 7 = _ from himgs]; exact Nat.le_succ 2) hds hmiss hhits hbig
    refine completes_of_formsImage hforms ?_
    refine ⟨by rw [hforms.xch], by rw [hforms.xch], hforms.accept, fun w hw => ?_⟩
    rw [hforms.majority hw, show imagesOf ((s.m.tick t).lane l) 7 = _ from himgs]
    rfl
  · have himgs := imagesOf_two ha hb
    have hhits : ((s.m.lane l).tracked 3).hits = [] := by
      unfold Lane.tracked
      rw [himgs, hdiv]
      exact divPass_two_hits _ _ _ (nodup_wordsOf ..)
    have hforms := acceptedSet_forms (m := s.m.tick t) ⟨hlife, hphase, hform, hdue, hacc⟩
      (by rw [show imagesOf ((s.m.tick t).lane l) 3 = _ from himgs]; exact le_rfl) hds hmiss hhits hbig
    refine completes_of_formsImage hforms ?_
    refine ⟨by rw [hforms.xch], hforms.accept, hforms.twoImg (congrArg List.length himgs), fun w hw => ?_⟩
    rw [hforms.majority hw, show imagesOf ((s.m.tick t).lane l) 3 = _ from himgs]
    rfl
  · have hfew : (imagesOf ((s.m.tick t).lane l) (acceptedMask s.m (s.m.lane l))).length < 2 := by
      refine lt_of_le_of_lt (imagesOf_length_le ..) ?_
      revert hacc
      generalize acceptedMask s.m (s.m.lane l) = k
      revert k
      decide
    obtain ⟨differ, hrun⟩ := acceptedSet_of_few (m := s.m.tick t) ⟨hlife, hphase, hform, hdue, rfl⟩ hfew
    exact completes_acceptedSet_halt hm (by exact hm) hrun
  · have hthree : 2 ≤ (imagesOf (s.m.lane l) 7).length := by
      obtain ⟨a, ha⟩ := Option.isSome_iff_exists.1 (himg .a)
      obtain ⟨b, hb⟩ := Option.isSome_iff_exists.1 (himg .b)
      obtain ⟨c, hc⟩ := Option.isSome_iff_exists.1 (himg .c)
      have himgs : (s.m.lane l).xch.images = ⟨some a, some b, some c⟩ := by rw [← ha, ← hb, ← hc]; rfl
      rw [imagesOf_three himgs]
      exact Nat.le_succ 2
    obtain ⟨differ, hrun⟩ := acceptedSet_of_disagreement (m := s.m.tick t) ⟨hlife, hphase, hform, hdue, hacc⟩ hthree hds (by exact hm)
    obtain ⟨x, hx, hpend, hhalt, hcause, -, hrest⟩ := completes_acceptedSet_halt hm (by exact hm) hrun
    exact ⟨x, hx, hpend, hhalt, hcause, hrest⟩
end

section
/-! SUPPORT. The way back of a lane that is OUT (R150 to R157, R160, R162): the supervisor's reset, RESTART, the transfer, the time-out
and the T0 that makes it VOTING. -/

namespace Sys2Proof.Machine

/-! ### The supervisor's reset (R150, R160) -/

/-- A lane OUT in a module that evaluates, 1.0 ms after its reset began, which nothing keeps held. -/
structure ResetOver (l : LaneId) (m : Mach) : Prop where
  life : m.life l = .out
  inReset : (m.lane l).agr.inReset = true
  expired : (m.lane l).agr.resetAt + 1000000 ≤ m.now
  unlocked : (m.lane l).agr.locked = false
  railGood : (m.lane l).agr.railBad = false
  usable : (m.lane l).agr.unusable = false
  evaluates : m.evaluates = true
  noLine : ∀ k, k ≠ l → (m.lane k).agr.exclUntil.get l = none

theorem Mach.excludes_of_none {m : Mach} {k l : LaneId} (h : (m.lane k).agr.exclUntil.get l = none) : m.excludes k l = false := by
  unfold Mach.excludes
  rw [h]
  exact Bool.and_false _

/-- A lane released from its reset. -/
def Agreement.released (a : Agreement) : Agreement :=
  { a with inReset := false, held := false, failedStart := a.failedStart && a.outCause != 0x29 }

/-- A change of a lane's agreement state that keeps its life keeps the count of VOTING lanes. -/
theorem Mach.votingLanes_updAgr (l : LaneId) (f : Agreement → Agreement) (m : Mach) (h : ∀ a, (f a).life = a.life) :
    (m.updAgr l f).votingLanes = m.votingLanes := by
  refine List.filter_congr (fun k _ => ?_)
  unfold Mach.isVoting Mach.life Mach.updAgr
  by_cases hk : k = l
  · rw [hk, Mach.lane_updLane_self]
    exact congrArg (· == LaneLife.voting) (h _)
  · rw [Mach.lane_updLane_of_ne l k _ _ hk]

/-- A lane whose reset is over is locked without an attempt left, restarts with two lanes VOTING, and waits otherwise. -/
theorem supervisorResetEnd_of_over {l : LaneId} {m : Mach} (h : ResetOver l m) :
    supervisorResetEnd l m =
      if (m.lane l).agr.attemptFree m.now = false then (m.updAgr l (fun a => { a with locked := true })).raise (lanePath l 6) 3
      else if 2 ≤ m.votingLanes.length then (m.updAgr l Agreement.released).enterRestart l
      else (m.updAgr l Agreement.released).updAgr l (fun a => { a with waiting := true }) := by
  have hlines : (laneIds.filter (· != l)).all (fun o => m.excludes o l) = false := by
    have hfree := fun k hk => Mach.excludes_of_none (h.noLine k hk)
    cases l
    · exact Bool.and_eq_false_iff.2 (.inl (hfree .b (by decide)))
    · exact Bool.and_eq_false_iff.2 (.inl (hfree .a (by decide)))
    · exact Bool.and_eq_false_iff.2 (.inl (hfree .a (by decide)))
  obtain ⟨hlife, hreset, hexpired, hlocked, hrail, husable, hev, -⟩ := h
  have hhalt := Mach.mode_ne_halt_of_evaluates hev
  have hdormant : m.mod.mode ≠ .dormant := by
    intro c
    rw [Mach.evaluates, c] at hev
    cases hev
  have hvoting := m.votingLanes_updAgr l Agreement.released (fun _ => rfl)
  unfold supervisorResetEnd
  extract_lets a x
  rw [if_neg, if_neg (by rw [hlines]; exact Bool.false_ne_true), hev, show x.evaluates = true from hev,
    show x.votingLanes = m.votingLanes from hvoting]
  · simp only [Bool.true_and, Bool.not_eq_true', decide_eq_true_eq]
    rfl
  · simp only [a, show (m.lane l).agr.life = .out from hlife, hreset, hlocked, hrail, husable, hhalt, hdormant]
    simpa using hexpired

/-! ### RESTART (R151, R152) -/

/-- A notice keeps every view of a lane that does not look at its queue of notices. -/
theorem Mach.postModule_view {α : Type} (g : Lane → α) (hq : ∀ (x : Lane) q, g { x with queue := q } = g x) (n : Notice) (m : Mach)
    (l : LaneId) : g ((m.postModule n).lane l) = g (m.lane l) := by
  have h := congrArg g (Mach.postModule_lane n m l)
  rwa [hq] at h

/-- Nothing that a rejoin looks at differs: neither the module's registers, nor the Bench, nor a lane's straps and agreement state. -/
structure OnlyPosted (a b : Mach) : Prop where
  mod : b.mod = a.mod
  bench : b.bench = a.bench
  agr : ∀ l, (b.lane l).agr = (a.lane l).agr
  strap : ∀ l, b.grain l = a.grain l

theorem OnlyPosted.refl (m : Mach) : OnlyPosted m m := ⟨rfl, rfl, fun _ => rfl, fun _ => rfl⟩

theorem OnlyPosted.trans {a b c : Mach} (h : OnlyPosted a b) (k : OnlyPosted b c) : OnlyPosted a c :=
  ⟨k.mod.trans h.mod, k.bench.trans h.bench, fun l => (k.agr l).trans (h.agr l), fun l => (k.strap l).trans (h.strap l)⟩

theorem Mach.postModule_posted (n : Notice) (m : Mach) : OnlyPosted m (m.postModule n) :=
  ⟨Mach.postModule_mod .., Mach.postModule_bench .., Mach.postModule_view Lane.agr (fun _ _ => rfl) n m,
    Mach.postModule_view Lane.strap (fun _ _ => rfl) n m⟩

theorem OnlyPosted.ite {c : Prop} [Decidable c] {m a b : Mach} (h : OnlyPosted m a) (k : OnlyPosted m b) :
    OnlyPosted m (if c then a else b) := by
  split <;> assumption

theorem Mach.restartNotes_posted (l : LaneId) (sd : StationData) (r : RestartReport) (m : Mach) :
    OnlyPosted m (m.restartNotes l sd r) := by
  have refused : ∀ {x : Mach} (ok : Bool) (kind cause : W32), OnlyPosted m x →
      OnlyPosted m (if ok then x else x.noteUpd 0xC001 kind cause) :=
    fun ok kind cause h => .ite h (h.trans (Mach.postModule_posted ..))
  have hfirmware := refused r.slhOk 1 3 (refused r.rsaOk 1 2 (.refl m))
  have hset := refused r.sdSlhOk 2 3 (refused r.sdRsaOk 2 2 hfirmware)
  unfold Mach.restartNotes
  exact .ite (.ite (hset.trans (Mach.postModule_posted ..)) hset) hfirmware

/-- A lane's image that passes its checks is of the lane's grain (R12, R104). -/
theorem grainMismatch_of_laneImageOk {sd : StationData} {g : Grain} (h : laneImageOk sd g = true) : grainMismatch sd g = false := by
  have hgrain : ((imageHeader (imageOf sd g)).grain.toNat == grainCode g) = true := by
    by_contra hother
    simp [laneImageOk, imageOk, headerOk, hother] at h
  unfold grainMismatch
  rw [bne, hgrain]
  rfl

/-- Where every step passed there is nothing to record. -/
theorem Mach.restartNotes_of_passed {l : LaneId} {sd : StationData} {r : RestartReport} {m : Mach}
    (h : restartPassed sd (m.grain l) (m.lane l).agr.noSlice r = true) : m.restartNotes l sd r = m := by
  simp only [restartPassed, restartTests, restartImage, Bool.and_eq_true] at h
  obtain ⟨⟨⟨⟨⟨⟨hfw, hrsa⟩, hslh⟩, hslice⟩, ⟨⟨⟨hsdRsa, hsdSlh⟩, -⟩, himage⟩⟩, -⟩, -⟩ := h
  unfold Mach.restartNotes restartTests
  simp only [hfw, hrsa, hslh, hsdRsa, hsdSlh, hslice, if_true, Bool.and_true, grainMismatch_of_laneImageOk himage]
  exact if_neg Bool.false_ne_true

theorem restartComplete_of_passed {l : LaneId} {sd : StationData} {r : RestartReport} {m : Mach} (hsd : m.sd = some sd)
    (hlife : m.life l = .restart) (h : restartPassed sd (m.grain l) (m.lane l).agr.noSlice r = true) :
    restartComplete l r m = m.enterSync l sd := by
  unfold restartComplete
  rw [hsd]
  dsimp only
  rw [if_neg (fun c => c hlife), Mach.restartNotes_of_passed h, if_pos h]

/-- A step that failed, with no firmware on trial: the lane is OUT with cause 0x30. -/
theorem restartComplete_of_failed {l : LaneId} {sd : StationData} {r : RestartReport} {m : Mach} (hsd : m.sd = some sd)
    (hlife : m.life l = .restart) (h : restartPassed sd (m.grain l) (m.lane l).agr.noSlice r = false)
    (htrial : m.bench.upd.onTrial .firmware = false) :
    restartComplete l r m = (m.restartNotes l sd r).laneOut l 0x30 := by
  have hposted := m.restartNotes_posted l sd r
  unfold restartComplete
  rw [hsd]
  dsimp only
  rw [if_neg (fun c => c hlife), hposted.strap, hposted.bench, htrial, Bool.and_false, if_neg (by rw [h]; exact Bool.false_ne_true),
    if_neg Bool.false_ne_true]

/-- A rejoining lane that goes OUT: its cause and hold; the mode and the other lanes' lives stay. -/
theorem completes_rejoinOut {i : Instr} {s : State} {l : LaneId} {cause : Byte} {f : Mach → Mach} {x : Mach} (he : exec i s = s.run f)
    (hm : s.m.mod.mode ≠ .halt) (hf : f s.m = x.laneOut l cause) (hx : OnlyPosted s.m x) (hlife : s.m.life l ∈ [.sync, .restart]) :
    Completes i s (fun m => m.life l = .out ∧ (m.lane l).agr.outCause = cause ∧ (m.lane l).agr.held = true ∧
      m.mod.mode = s.m.mod.mode ∧ ∀ k, k ≠ l → m.life k = s.m.life k) := by
  have hlives : ∀ k, x.life k = s.m.life k := fun k => congrArg Agreement.life (hx.agr k)
  obtain ⟨hout, hcause, hheld, -, hmod, hothers⟩ := Mach.laneOutFor_rejoining false l cause x (by rw [hlives]; exact hlife)
    (by rw [hx.mod]; exact hm)
  refine completes_of_ne_halt f he hm ?_
  rw [hf]
  refine ⟨hout, hcause, hheld, ?_, fun k hk => ?_⟩
  · exact congrArg ModState.mode (hmod.trans hx.mod)
  · exact (congrArg (fun y : Lane => y.agr.life) (hothers k hk)).trans (hlives k)

/-! ### The transfer (R153 to R156) -/

theorem copyCrc_sealed (c : TransferCopy) (v : W32) : copyCrc { c with crc := v } = copyCrc c := rfl

/-- A copy carries its own check word. -/
theorem copyIntact_sealed (c : TransferCopy) : copyIntact { c with crc := copyCrc c } = true := by
  unfold copyIntact
  rw [copyCrc_sealed]
  exact beq_self_eq_true _

theorem copyIntact_copyOf (g : Grain) (l : LaneId) (sdId : W64) (values : List (Option W64)) (x : Lane) :
    copyIntact (copyOf g l sdId values x) = true := by
  unfold copyOf
  exact copyIntact_sealed _

/-- An instant that is not later than a mark has not passed it. -/
theorem any_lt_of_all_le {o : Option Nat} {d : Nat} (h : o.all (fun e => decide (e ≤ d)) = true) :
    o.any (fun e => decide (d < e)) = false := by
  cases o with
  | none => rfl
  | some e => exact decide_eq_false (Nat.not_lt.2 (of_decide_eq_true h))

theorem transferServe_of_asked {l dest : LaneId} {m : Mach} {sd : StationData} (hsd : m.sd = some sd) (hlife : m.life l = .voting)
    (hphase : m.phaseOf l = .sleepEntry) (hhold : (m.lane l).cop.holdSrc.getLsbD 0 = true)
    (hask : (presenceOf (m.lane l) dest).any (fun f => f.request) = true)
    (hmirror : m.pair.mirrorEnd.all (fun e => decide (e ≤ (m.lane l).t0 + m.cycleNs * 9 / 10)) = true)
    (hnone : (m.lane l).xch.sentCopy = none) :
    transferServe l dest m = m.updLane l (fun x =>
      { x with xch := { x.xch with sentCopy := some (copyOf x.strap l sd.id m.startValues x) } }) := by
  have hlate := any_lt_of_all_le hmirror
  obtain ⟨f, hf, hreq⟩ := Option.any_eq_true _ _ |>.1 hask
  unfold transferServe
  extract_lets x asked late
  have hasked : asked = true := by
    unfold asked
    rw [show presenceOf x dest = some f from hf]
    exact hreq
  have hnot : late = false := hlate
  have hserves : (m.isVoting l && m.phaseOf l == .sleepEntry && x.cop.holdSrc.getLsbD 0 && asked && !late &&
      x.xch.sentCopy.isNone) = true := by
    simp only [Bool.and_eq_true]
    refine ⟨⟨⟨⟨⟨beq_iff_eq.2 hlife, beq_iff_eq.2 hphase⟩, hhold⟩, hasked⟩, ?_⟩, ?_⟩
    · rw [hnot]; rfl
    · rw [show x.xch.sentCopy = none from hnone]; rfl
  rw [if_pos hserves, hsd]

/-! ### A vector loaded (R95, R156) -/

theorem getLsbD_foldl_setBit_if {w : Nat} (c b : Nat → Bool) (is : List Nat) (x : BitVec w) {k : Nat} (hk : k < w) :
    (is.foldl (fun x i => if c i then setBit x i (b i) else x) x).getLsbD k =
      if k ∈ is ∧ c k = true then b k else x.getLsbD k := by
  induction is generalizing x with
  | nil => simp
  | cons i is ih =>
    rw [List.foldl_cons, ih]
    by_cases hi : k = i
    · subst hi
      cases hc : c k
      · simp
      · have hself : (setBit x k (b k)).getLsbD k = b k := (getLsbD_setBit ..).trans (if_pos ⟨rfl, hk⟩)
        rw [if_pos rfl, hself, ite_self, if_pos ⟨List.mem_cons_self, rfl⟩]
    · cases hc : c i <;> simp [getLsbD_setBit, hi]

theorem getLsbD_mapWord (g : Grain) (h : ImageHeader) (v : Nat → Bool) (w : Nat) (old : W32) {i : Nat} (hi : i < 32) :
    (mapWord g h (fun _ => true) v w old).getLsbD i = grainBit g (v (trueAddr g h (32 * w + i))) := by
  refine (getLsbD_foldl_setBit_if (fun _ => true) (fun i => grainBit g (v (trueAddr g h (32 * w + i)))) (List.range 32) old hi).trans ?_
  exact if_pos ⟨List.mem_range.2 hi, rfl⟩

theorem grainBit_involutive (g : Grain) (b : Bool) : grainBit g (grainBit g b) = b := by
  cases g <;> simp [grainBit]

section
variable (g : Grain) (h : ImageHeader) (v : Nat → Bool) (cells : Nat → W32) (s : Stores) (init : Bool)

theorem Stores.header_load : ({ s.load g h v cells with needsInit := init } : Stores).header = s.header := by
  simp only [Stores.load]

theorem Stores.doneWord_load {w : Nat} (hw : w < 8192) :
    ({ s.load g h v cells with needsInit := init } : Stores).doneWord g w = mapWord g h (fun _ => true) v w 0 := by
  have hhalf : ((0 : BitVec 8192).getLsbD w) = false := BitVec.getLsbD_zero
  unfold Stores.doneWord Stores.load
  rw [hhalf, if_neg Bool.false_ne_true, memRead_memBuild, if_pos (List.mem_range.2 hw)]

end

/-- A bit of a vector that was loaded in true grain reads back in true grain. -/
theorem Lane.trueBit_load {g : Grain} {h : ImageHeader} {x : Lane} {v : Nat → Bool} {cells : Nat → W32} {s : Stores} {init : Bool}
    {n : Nat} (hs : s.header = some h) (hx : x.mem = { s.load g h v cells with needsInit := init })
    (hn : stateAddr g h n < 262144) (hinv : trueAddr g h (stateAddr g h n) = n) : x.trueBit g n = v n := by
  have hheader : x.mem.header = some h := by rw [hx, Stores.header_load, hs]
  unfold Lane.trueBit
  rw [hheader]
  dsimp only
  rw [hx, Stores.doneWord_load g h v cells s init (by omega), getLsbD_mapWord g h v _ 0 (Nat.mod_lt _ (by omega)), Nat.div_add_mod, hinv,
    grainBit_involutive]

/-- What a lane takes from a copy of the committed state. -/
def Lane.takeCopy (h : ImageHeader) (a : TransferCopy) (x : Lane) : Lane :=
  { x with
    mem := { x.mem.load x.strap h (memBit 0 a.vector) (memRead 0 a.cells) with needsInit := false }
    comm := a.comm, pfAux := a.pfAux, rampWas := a.rampWas
    cv := (x.cv.zipIdx).map (fun q => q.1.resume (a.values.getD q.2 none))
    xch := { x.xch with staging := [] }
    agr := { x.agr with sync := .probeDue } }

/-- A lane that asked for a transfer and holds two sound copies of VOTING lanes, made under its station data. -/
structure TwoCopies (l : LaneId) (h : ImageHeader) (a b : TransferCopy) (m : Mach) : Prop where
  header : (m.lane l).mem.header = some h
  life : m.life l = .sync
  asked : (m.lane l).agr.sync = .request
  staging : (m.lane l).xch.staging = [a, b]
  voting : m.life a.sender = .voting ∧ m.life b.sender = .voting
  intact : copyIntact a = true ∧ copyIntact b = true
  sameSet : ∃ sd, m.sd = some sd ∧ a.sdId = sd.id ∧ b.sdId = sd.id

theorem transferReceive_of_two {l : LaneId} {h : ImageHeader} {a b : TransferCopy} {m : Mach} (hc : TwoCopies l h a b m) :
    transferReceive l m =
      if { b with sender := a.sender, crc := a.crc } = a then m.updLane l (Lane.takeCopy h a)
      else (m.laneOut l 0x31).enterHalt 0x06 (laneCode l) := by
  obtain ⟨hheader, hlife, hasked, hstaging, ⟨hva, hvb⟩, ⟨hia, hib⟩, ⟨sd, hsd, hida, hidb⟩⟩ := hc
  have hcopies : (m.lane l).xch.staging.filter (fun c => m.isVoting c.sender) = [a, b] := by
    rw [hstaging, List.filter_eq_self.2]
    simp [Mach.isVoting, hva, hvb]
  unfold transferReceive
  dsimp only
  rw [hsd, hheader]
  dsimp only
  rw [if_pos ⟨hlife, hasked⟩, hcopies]
  dsimp only
  rw [if_neg (by simp [hia, hib, hida, hidb])]
  rfl

/-! ### The T0 that makes a lane VOTING (R150, R157) -/

/-- The third lane has become VOTING: the module is back in SERVICE, and the rejoin is counted. -/
structure Rejoined (l : LaneId) (old new : Mach) : Prop where
  mode : new.mod.mode = .service
  voting : ∀ k, new.life k = .voting
  rejoins : (new.lane l).agr.rejoins = satInc (old.lane l).agr.rejoins
  snd : (new.lane l).snd = (old.lane l).snd

theorem Rejoined.of_lanes {l : LaneId} {a b c : Mach} (h : Rejoined l a b) (hmod : c.mod = b.mod) (hlanes : c.lanes = b.lanes) :
    Rejoined l a c := by
  have hlane := Mach.lane_of_lanes hlanes
  exact ⟨by rw [hmod]; exact h.mode, fun k => (congrArg (fun x : Lane => x.agr.life) (hlane k)).trans (h.voting k),
    by rw [hlane]; exact h.rejoins, by rw [hlane]; exact h.snd⟩

/-- A mode change keeps what the lanes' agreement and Sander hold. -/
theorem Mach.enterMode_lane {α : Type} (g : Agreement → SanderState → α) (new : Mode) (m : Mach) (k : LaneId) :
    g ((m.enterMode new).lane k).agr ((m.enterMode new).lane k).snd = g (m.lane k).agr (m.lane k).snd :=
  Mach.enterModeAt_lane (fun x => g x.agr x.snd) m.cycleNo new m k (fun _ _ => rfl) (fun _ _ => rfl) (fun _ _ => rfl)

theorem Mach.enterVoting_third {l : LaneId} {m : Mach} (hmode : m.mod.mode = .degraded) (hothers : ∀ k, k ≠ l → m.life k = .voting) :
    Rejoined l m (m.enterVoting l) := by
  unfold Mach.enterVoting
  extract_lets ms bench test m1 m2 m3
  have hlanes : m1.lanes = m.lanes := by unfold m1; split <;> rfl
  have hmod : m3.mod = m.mod := by
    unfold m3
    rw [Mach.postModule_mod, Mach.raise_mod]
    show m1.mod = m.mod
    unfold m1
    split <;> rfl
  have hown : m2.lane l = _ := Mach.lane_updLane_self ..
  have hlane : ∀ k, k ≠ l → m2.lane k = m.lane k := fun k hk =>
    (Mach.lane_updLane_of_ne l k _ _ hk).trans (Mach.lane_of_lanes hlanes k)
  have hpost : ∀ {α : Type} (g : Agreement → SanderState → α) k,
      g (m3.lane k).agr (m3.lane k).snd = g (m2.lane k).agr (m2.lane k).snd :=
    fun g k => Mach.postModule_view (fun x => g x.agr x.snd) (fun _ _ => rfl) _ _ k
  have hvoting : ∀ k, m3.life k = .voting := by
    intro k
    refine (hpost (fun a _ => a.life) k).trans ?_
    by_cases hk : k = l
    · rw [hk, hown]
    · rw [hlane k hk]; exact hothers k hk
  have hthree : m3.votingLanes = laneIds := List.filter_eq_self.2 (fun k _ => beq_iff_eq.2 (hvoting k))
  rw [if_pos ⟨by rw [hmod]; exact hmode, by rw [hthree]; rfl⟩]
  refine ⟨Mach.enterModeAt_mode _ _ _ (by rw [hmod, hmode]; decide),
    fun k => (Mach.enterMode_lane (fun a _ => a.life) .service m3 k).trans (hvoting k), ?_, ?_⟩
  · refine (Mach.enterMode_lane (fun a _ => a.rejoins) .service m3 l).trans ((hpost (fun a _ => a.rejoins) l).trans ?_)
    rw [hown, Mach.lane_of_lanes hlanes]
  · refine (Mach.enterMode_lane (fun _ x => x) .service m3 l).trans ((hpost (fun _ x => x) l).trans ?_)
    rw [hown, Mach.lane_of_lanes hlanes]

/-- A SYNC lane whose probe cycle passed, the third of a module in DEGRADED. -/
structure Returning (l : LaneId) (m : Mach) : Prop where
  mode : m.mod.mode = .degraded
  others : ∀ k, k ≠ l → m.life k = .voting
  life : m.life l = .sync
  passed : (m.lane l).agr.sync = .passed

theorem Mach.lifeT0_of_returning {l : LaneId} {m : Mach} (h : Returning l m) : Rejoined l m (m.lifeT0 l) := by
  have hrejoined := Mach.enterVoting_third h.mode h.others
  unfold Mach.lifeT0
  extract_lets a
  rw [if_neg (fun c => c h.life), show a.sync = .passed from h.passed]
  dsimp only
  split
  · exact hrejoined
  · exact hrejoined.of_lanes rfl rfl

theorem ButWake.mod {a b : Mach} (h : ButWake a b) : b.mod = a.mod := by have k := congrArg Mach.mod h; exact k

/-- Its T0 wakes it as a VOTING lane. -/
theorem Mach.wakeT0_of_returning {l : LaneId} {dev : Int} {m : Mach} (n : W32) (h : Returning l m) (h0 : -50 ≤ dev) (h1 : dev ≤ 50) :
    Rejoined l m (m.wakeT0 l dev n false) := by
  unfold Mach.wakeT0
  extract_lets woken placed
  have hcount : ButWake woken (if l = .a then placed.ecCount 0xC0 255 else placed) := by
    split
    · exact .of_onlyNoted (Mach.ecCount_onlyNoted ..)
    · rfl
  have hwake := hcount.trans (Mach.freezeFsm_butWake n _)
  generalize Mach.freezeFsm n _ = x at hwake ⊢
  have hown : x.lane l = _ := (Mach.lane_of_lanes hwake.lanes l).trans (Mach.lane_updLane_self ..)
  have hother : ∀ k, k ≠ l → x.lane k = m.lane k := fun k hk =>
    (Mach.lane_of_lanes hwake.lanes k).trans (Mach.lane_updLane_of_ne l k _ _ hk)
  have hx : Returning l x := by
    refine ⟨by rw [hwake.mod]; exact h.mode, fun k hk => ?_, ?_, by rw [hown]; exact h.passed⟩
    · unfold Mach.life; rw [hother k hk]; exact h.others k hk
    · unfold Mach.life; rw [hown]; exact h.life
  obtain ⟨f, hf⟩ := Mach.clockReport_within (m := x.lifeT0 l) h0 h1
  rw [hf]
  obtain ⟨hmode, hvoting, hrejoins, hsnd⟩ := (Mach.lifeT0_of_returning hx).of_lanes (c := (x.lifeT0 l).updCsc f) rfl rfl
  rw [hown] at hrejoins hsnd
  exact ⟨hmode, hvoting, hrejoins, hsnd⟩

/-- T0 of a lane that sleeps without a hold: it wakes, and a T0 that is the voter's first of its cycle brings the module's part. -/
theorem startT0_of_sleeping {l : LaneId} {m : Mach} (dev : Int) (n : W32) (hphase : m.phaseOf l = .asleep)
    (hheld : (m.lane l).cop.holdSrc = 0) :
    startT0 l dev n false m =
      let w := m.wakeT0 l dev n false
      if w.mod.mode = .halt then w
      else
        let v := if (m.cal.vote.cycle != n || (false && !m.mod.aligned)) && w.isVoting l then w.moduleT0 n else w
        if v.evaluates then v.sanderSlice l else v := by
  refine (if_neg ?_).trans ?_
  · rw [hphase]
    exact fun c => c.1 rfl
  · rw [Mach.endHold_of_none hheld]
    rfl

/-- In a cycle that the voter has begun already, the T0 of a returning lane that sleeps brings no more. -/
theorem startT0_of_returning {l : LaneId} {dev : Int} {n : W32} {m : Mach} (h : Returning l m) (hphase : m.phaseOf l = .asleep)
    (hheld : (m.lane l).cop.holdSrc = 0) (hcycle : m.cal.vote.cycle = n) (hbf : (m.lane l).snd.bringForward = false)
    (h0 : -50 ≤ dev) (h1 : dev ≤ 50) : Rejoined l m (startT0 l dev n false m) := by
  have hrejoined := Mach.wakeT0_of_returning (dev := dev) n h h0 h1
  have hfirst : (m.cal.vote.cycle != n || (false && !m.mod.aligned)) = false := by simp [hcycle]
  have hmode : (m.wakeT0 l dev n false).mod.mode ≠ .halt := by rw [hrejoined.mode]; decide
  rw [startT0_of_sleeping dev n hphase hheld, hfirst]
  simp only [Bool.false_and, Bool.false_eq_true, if_false, if_neg hmode]
  rw [Mach.sanderSlice_of_none (by rw [hrejoined.snd]; exact hbf), ite_self]
  exact hrejoined

theorem cycleT0_of_returning {l : LaneId} {m : Mach} (dev : Int) (h : Returning l m) (hb : m.boundaryNumber = none)
    (hdue : (m.lane l).t0 + m.cycleNs ≤ m.now + m.cycleNs * 3 / 10000) :
    cycleT0 l dev m = startT0 l dev ((m.lane l).cop.cycleNo + 1) false m := by
  have hkind : m.t0Kind l = .regular ((m.lane l).cop.cycleNo + 1) := by
    have hcyc : runsCycles (m.lane l) = true := by
      unfold runsCycles
      rw [show (m.lane l).agr.life = .sync from h.life, h.passed]
      rfl
    have hev : m.evaluates = true := by unfold Mach.evaluates; rw [h.mode]
    unfold Mach.t0Kind Mach.t0Slack
    rw [hb, if_neg (by rw [hcyc, hev]; simp)]
    exact if_pos (decide_eq_true hdue)
  rw [cycleT0, hkind]

/-! ### The commands -/

section
variable {s : State} {l : LaneId} {t : Nat}

/-- Where the supervisor's reset is over at the command's instant, with an attempt left. -/
theorem supervisorResetEnd_completes {P : Mach → Prop} {g : Lane → Lane} (h : ResetOver l (s.m.tick t))
    (hfree : (s.m.lane l).agr.attemptFree (max s.m.now t) = true)
    (hrun : (if 2 ≤ s.m.votingLanes.length then ((s.m.tick t).updAgr l Agreement.released).enterRestart l
      else ((s.m.tick t).updAgr l Agreement.released).updAgr l (fun a => { a with waiting := true })) =
        ((s.m.tick t).updAgr l Agreement.released).updLane l g)
    (hp : P (((s.m.tick t).updAgr l Agreement.released).updLane l g)) :
    Completes (.supervisorResetEnd l t) s (fun m => OnlyLane l s.m m ∧ P m) := by
  have hend : supervisorResetEnd l (s.m.tick t) = ((s.m.tick t).updAgr l Agreement.released).updLane l g :=
    (supervisorResetEnd_of_over h).trans ((if_neg (fun c => Bool.noConfusion (hfree.symm.trans c))).trans hrun)
  refine completes_of_onlyLane (f := supervisorResetEnd l) rfl ?_ ?_
  · rw [hend]
    exact (onlyLane_updLane ..).trans (onlyLane_updLane ..)
  · rw [hend]
    exact hp

theorem Mach.tick_posted (t : Nat) (m : Mach) : OnlyPosted m (m.tick t) := ⟨rfl, rfl, fun _ => rfl, fun _ => rfl⟩

/-- HALT keeps the cause of a lane's last OUT entry. -/
theorem lasting_outCause (cause : Byte) : Lasting (fun x => x.agr.outCause = cause) :=
  ⟨fun _ _ => Iff.rfl, fun _ _ => Iff.rfl, fun _ _ => Iff.rfl, fun _ _ h => h⟩

end

end Sys2Proof.Machine

open Sys2Proof Sys2Proof.Machine in
/-- Settles O17: each clause is the lemma of its step above, run at the command's instant. -/
theorem rejoinCommands : Obligations.RejoinCommands := by
  unfold Obligations.RejoinCommands
  refine ⟨fun s l t hlife hreset hover hlock hrail hus hev hfree hline htwo => ?_,
    fun s l t hlife hreset hover hlock hrail hus hev hfree hline hfew => ?_,
    fun s l t hlife hreset hover hlock hrail hus hev hfree hline => ?_, fun s l t hlock => ?_,
    fun s l r t sd hsd hlife hpass => ?_, fun s l r t sd hsd hlife hfail hm htrial => ?_,
    fun s l dest t sd hsd hlife hphase hhold hask hmirror hnone => ?_,
    fun s l t sd h a b hsd hh hlife hsync hst hva hvb hia hib hid hsame hinv => ?_,
    fun s l t sd h a b hsd hm hh hlife hsync hst hva hvb hia hib hida hidb hdiff => ?_,
    fun s l t hlife hm hdue => ?_,
    fun s l dev t hmode hothers hlife hpassed hphase hheld hb hdue hcycle hbf h0 h1 => ?_⟩
  · refine supervisorResetEnd_completes ⟨hlife, hreset, hover, hlock, hrail, hus, hev, hline⟩ hfree (if_pos htwo) ?_
    unfold Mach.life Mach.updAgr
    rw [Mach.lane_updLane_self, Mach.lane_updLane_self]
    exact ⟨rfl, rfl, rfl, rfl⟩
  · refine supervisorResetEnd_completes ⟨hlife, hreset, hover, hlock, hrail, hus, hev, hline⟩ hfree
      (if_neg (Nat.not_le.2 hfew)) ?_
    unfold Mach.life Mach.updAgr
    rw [Mach.lane_updLane_self, Mach.lane_updLane_self]
    exact ⟨hlife, rfl, rfl⟩
  · have hend := (supervisorResetEnd_of_over (m := s.m.tick t) ⟨hlife, hreset, hover, hlock, hrail, hus, hev, hline⟩).trans
      (if_pos hfree)
    refine completes_of_mode_eq (fun m => supervisorResetEnd l (m.tick t)) rfl (by rw [hend]; rfl) ?_
    rw [hend]
    exact ⟨(onlyLane_tick l t s.m).trans (onlyLane_updLane ..), Mach.lane_updLane_self ..⟩
  · exact becomes_tick (f := supervisorResetEnd l) rfl (if_pos (.inr (.inr (.inr (.inl hlock)))))
  · refine completes_of_updLane (f := restartComplete l r) rfl (restartComplete_of_passed (m := s.m.tick t) hsd hlife hpass) ?_
    unfold Mach.life
    rw [Mach.lane_updLane_self]
    exact ⟨rfl, rfl, rfl, rfl, rfl⟩
  · have hend := restartComplete_of_failed (m := s.m.tick t) hsd hlife hfail htrial
    exact completes_rejoinOut (f := fun m => restartComplete l r (m.tick t)) rfl hm hend
      ((s.m.tick_posted t).trans (Mach.restartNotes_posted ..)) (by simp [hlife])
  · refine completes_of_updLane (f := transferServe l dest) rfl
      (transferServe_of_asked (m := s.m.tick t) hsd hlife hphase hhold hask hmirror hnone) ?_
    rw [Mach.lane_updLane_self]
    have hintact := copyIntact_copyOf ((s.m.tick t).lane l).strap l sd.id (s.m.tick t).startValues ((s.m.tick t).lane l)
    refine Option.any_some.trans ?_
    simp only [Bool.and_eq_true, beq_iff_eq]
    exact ⟨⟨⟨⟨rfl, rfl⟩, rfl⟩, rfl⟩, hintact⟩
  · have hids : b.sdId = a.sdId := by simpa using congrArg TransferCopy.sdId hsame
    have htwo : TwoCopies l h a b (s.m.tick t) :=
      ⟨hh, hlife, hsync, hst, ⟨hva, hvb⟩, ⟨hia, hib⟩, sd, hsd, hid, hids.trans hid⟩
    refine completes_of_updLane (f := transferReceive l) rfl ((transferReceive_of_two htwo).trans (if_pos hsame)) ?_
    rw [Mach.lane_updLane_self]
    refine ⟨rfl, rfl, rfl, rfl, fun n hn => ?_⟩
    obtain ⟨haddr, htrue⟩ := hinv n hn
    exact Lane.trueBit_load (s := (s.m.lane l).mem) hh rfl haddr htrue
  · have htwo : TwoCopies l h a b (s.m.tick t) := ⟨hh, hlife, hsync, hst, ⟨hva, hvb⟩, ⟨hia, hib⟩, sd, hsd, hida, hidb⟩
    have hend := (transferReceive_of_two htwo).trans (if_neg hdiff)
    obtain ⟨-, hcause, -, -, hmod, -⟩ := Mach.laneOutFor_rejoining false l 0x31 (s.m.tick t) (List.mem_cons.2 (.inl hlife)) hm
    have hrun : ((s.m.tick t).laneOut l 0x31).mod.mode ≠ .halt := fun c => hm ((congrArg ModState.mode hmod).symm.trans c)
    obtain ⟨hhalt, hheld, hundriven, -⟩ := Mach.enterHalt_spec 0x06 (laneCode l) _ hrun
    refine completes_of_ne_halt (fun m => transferReceive l (m.tick t)) rfl hm ?_
    rw [hend]
    exact ⟨hhalt, (Mach.enterHalt_cause 0x06 (laneCode l) hrun).1, hheld, hundriven,
      (Mach.enterHalt_carries ..).lasts _ (lasting_outCause 0x31) l hcause⟩
  · have hrejoins : s.m.life l ∈ [.sync, .restart] := by simpa [or_comm] using hlife
    have hkind : (s.m.life l == .restart || s.m.life l == .sync) = true := by simpa using hlife
    have hend : rejoinTimeout l (s.m.tick t) = (s.m.tick t).laneOut l 0x34 :=
      if_pos (Bool.and_eq_true_iff.2 ⟨hkind, decide_eq_true hdue⟩)
    obtain ⟨s', hs, hnext, hout, hcause, -, hkept⟩ :=
      completes_rejoinOut (i := .rejoinTimeout l t) (f := fun m => rejoinTimeout l (m.tick t)) rfl hm hend (s.m.tick_posted t) hrejoins
    exact ⟨s', hs, hnext, hout, hcause, hkept⟩
  · have hret : Returning l (s.m.tick t) := ⟨hmode, hothers, hlife, hpassed⟩
    have hend := cycleT0_of_returning dev hret hb hdue
    obtain ⟨hservice, hvoting, hrejoins, -⟩ :=
      startT0_of_returning (n := (s.m.lane l).cop.cycleNo + 1) hret hphase hheld hcycle hbf h0 h1
    refine completes_of_ne_halt (fun m => cycleT0 l dev (m.tick t)) rfl (by rw [hmode]; decide) ?_
    rw [hend]
    exact ⟨hvoting l, hservice, hrejoins, fun k _ => hvoting k⟩
end

section
/-! SUPPORT. The slot of a word of message 4096, the number that names the drive record (R165 to R167); and with that the refutation
of O18. -/

namespace Sys2Proof.Machine

theorem Mach.slot_eq_none_iff {m : Mach} {k : Nat × Nat} : m.slot k = none ↔ ∀ x ∈ m.cal.vote.slots, x.key ≠ k := by
  unfold Mach.slot
  simp only [List.find?_eq_none, beq_iff_eq, ne_eq]

theorem Mach.updSlot_of_none {m : Mach} {k : Nat × Nat} (f : VoteSlot → VoteSlot) (h : m.slot k = none) : m.updSlot k f = m := by
  have hslots : m.cal.vote.slots.map (fun x => if x.key = k then f x else x) = m.cal.vote.slots :=
    (List.map_congr_left (fun x hx => if_neg (Mach.slot_eq_none_iff.1 h x hx))).trans (List.map_id _)
  exact congrArg (fun xs => m.updVote (fun v => { v with slots := xs })) hslots

/-- The slot opened under number 4096 is the drive record's, of key (4096, 0): a word other than word 0 does not find it. -/
theorem Mach.openSlot_of_driveMsg {m : Mach} {k : Nat} (hk : k ≠ 0) (h : m.slot (driveMsg, k) = none) :
    (m.openSlot (driveMsg, k)).slot (driveMsg, k) = none := by
  have hkeys := Mach.slot_eq_none_iff.1 h
  refine Mach.slot_eq_none_iff.2 (fun x hx => ?_)
  unfold Mach.openSlot at hx
  rw [h] at hx
  rcases List.mem_append.1 hx with hold | hnew
  · exact hkeys x hold
  · rw [List.mem_singleton.1 hnew]
    exact fun c => hk (congrArg Prod.snd c).symm

/-- So that word's copy is not kept. -/
theorem Mach.slotCopy_of_driveMsg {m : Mach} {k : Nat} (w : VoteWord) (hk : k ≠ 0) (h : m.slot (driveMsg, k) = none) :
    m.slotCopy (driveMsg, k) w = m.openSlot (driveMsg, k) := by
  have hopened := Mach.openSlot_of_driveMsg hk h
  unfold Mach.slotCopy
  dsimp only
  rw [Mach.updSlot_of_none _ hopened, hopened]

/-- A message's word that is named goes to the slot of its `MSG` and `WORD`. -/
theorem voteWordArrive_of_named {w : VoteWord} {m : Mach} (hopen : m.voteOpen = true) (hlife : m.life w.lane = .voting)
    (hkind : w.kind = .message) (hnamed : m.named w = true) : voteWordArrive w m = m.slotCopy (w.msg, w.word) w := by
  have hdrive : m.isDrive w = false := by unfold Mach.isDrive Mach.probeDrive; rw [hkind]; rfl
  unfold voteWordArrive Mach.voteCopy Mach.slotOf
  rw [if_neg (by rw [hopen]; decide), hlife, hkind, hdrive, hnamed]
  rfl

/-- A data set that gives number 4096 to a message of two words. -/
def driveNumbered : StationData := { pairSet with msgs := [{ msg := 4096, port := .ring .r1, words := 2, base := [0] }] }

/-- A module in SERVICE with that set, its lanes VOTING and in their hand-over. -/
def handingOver : Mach :=
  ({ State.reset.m with
      power := { powered := true }, sd := some driveNumbered, mod := { mode := .service }
      cal := { vote := { began := 7 } } } : Mach).updLanes (fun _ x => { x with agr := { x.agr with life := .voting, held := false } })

/-- Lane A's copy of the second word of that message. -/
def secondWord : VoteWord := { lane := .a, kind := .message, last := true, msg := 4096, word := 1, data := 7, chk := 0 }

end Sys2Proof.Machine

open Sys2Proof Sys2Proof.Machine in
/-- Refutes O18: the first clause does not bound the message's number, which has 12 bits on the link (R164). A data set that gives
the number 4096, under which the drive record has its slot, to a message of two words loses the copies of the second: the slot opened
for it is the drive record's (`Mach.slotCopy_of_driveMsg`). -/
theorem not_voteWords : ¬ Obligations.VoteWords := by
  unfold Obligations.VoteWords
  rintro ⟨hfirst, -⟩
  have hword := hfirst ⟨[], handingOver⟩ secondWord 0 { msg := 4096, port := .ring .r1, words := 2, base := [0] } (by decide)
    (by decide) rfl (by decide) (by decide) rfl rfl (by decide)
  obtain ⟨hkept, -⟩ := hword.of_run (fun m => voteWordArrive secondWord (m.tick 0)) rfl
  have hlost : (voteWordArrive secondWord (handingOver.tick 0)).slot (secondWord.msg, secondWord.word) = none := by
    rw [voteWordArrive_of_named (by decide) (by decide) rfl (by decide)]
    exact (congrArg (Mach.slot · (driveMsg, 1)) (Mach.slotCopy_of_driveMsg secondWord (by decide) rfl)).trans
      (Mach.openSlot_of_driveMsg (by decide) rfl)
  rw [Mach.supervise_of_ne _ _ (by decide), hlost] at hkept
  exact Option.some_ne_none _ hkept.symm
end

section
/-! SUPPORT. A drive monitor sample that takes HALT (R180, R228, R233); and with that the refutation of O20. -/

namespace Sys2Proof.Machine

/-- A module in SERVICE whose output 0 is not armed and runs a dark pulse that found its pole not opening, and whose output 1 was
seen driven against the vote in the last sample. -/
def pulseFailed : Mach :=
  ({ State.reset.m with
      power := { powered := true }, sd := some pairSet, mod := { mode := .service }
      cal := { csc := { running := true }, odm := { pos := [{}, { sight := .against, run := 1 }] } }
      field := {
        fsm := { sag := false, samples := [2400] }
        out := { test := some .dark, tphase := 1, pendMatch := true } :: List.replicate 23 {} } } : Mach).updLanes (fun _ x =>
    { x with agr := { x.agr with life := .voting, held := false } })

/-- The counts of the + poles: output 1 is seen against the vote a second time. -/
def againstAgain : List Nat := 0 :: 2 :: List.replicate 22 0

/-- The sample arms output 0, and takes HALT on output 1; the forced off of HALT keeps output 0's pulse as a finding of code 0x4
(`Mach.keepDark`), which leaves it not armed. -/
theorem driveMonitorSample_pulseFailed :
    (driveMonitorSample againstAgain (List.replicate 24 0) (pulseFailed.tick 190000)).mod.mode = .halt ∧
    ((driveMonitorSample againstAgain (List.replicate 24 0) (pulseFailed.tick 190000)).field.out[0]?).map
      (fun x => (x.armed, x.inhibit, x.cmd)) = some (false, true, false) := by decide +kernel

end Sys2Proof.Machine

open Sys2Proof Sys2Proof.Machine in
/-- Refutes O20: the first clause has a sample arm a healthy output whatever else the sample shows. One that shows another output
driven against the vote takes HALT, and the forced off of HALT has a dark pulse whose pole did not open keep its output not armed
(`driveMonitorSample_pulseFailed`). The model starts no pulse on an output that is not armed (`Mach.pulseMay`), but the clause does
not ask that none runs. -/
theorem not_driveWatch : ¬ Obligations.DriveWatch := by
  unfold Obligations.DriveWatch
  rintro ⟨harms, -⟩
  have hsample := harms ⟨[], pulseFailed⟩ againstAgain (List.replicate 24 0) 0 190000
    { test := some .dark, tphase := 1, pendMatch := true } rfl (by decide) rfl (by decide) rfl rfl rfl rfl rfl rfl (by decide)
    (by decide)
  obtain ⟨-, hleft⟩ := driveMonitorSample_pulseFailed
  have harmed := hsample.of_run (fun m => driveMonitorSample againstAgain (List.replicate 24 0) (m.tick 190000)) rfl
  dsimp only at harmed
  rw [Mach.supervise_of_ne _ _ (by decide), hleft] at harmed
  exact absurd harmed (by decide)
end

section
/-! SUPPORT. What the field section's commands have in common (R189 to R212): raised causes and posted notices, one channel of a list
changed, and a row of channels changed one by one. -/

namespace Sys2Proof.Machine

/-! ### A channel of a list -/

theorem modAt_of_none {α : Type} {f : α → α} {n : Nat} {xs : List α} (h : xs[n]? = none) : modAt f n xs = xs := by
  refine List.ext_getElem? (fun k => ?_)
  by_cases hk : k = n
  · rw [hk, modAt_get_self, h]
    rfl
  · exact modAt_get_of_ne f n k xs hk

/-- Two changes that agree on the entry at an index change the list alike. -/
theorem modAt_congr {α : Type} {f g : α → α} {n : Nat} {xs : List α} {x : α} (h : xs[n]? = some x) (hfg : f x = g x) :
    modAt f n xs = modAt g n xs := by
  refine List.ext_getElem? (fun k => ?_)
  by_cases hk : k = n
  · rw [hk, modAt_get_self, modAt_get_self, h, Option.map_some, Option.map_some, hfg]
  · rw [modAt_get_of_ne f n k xs hk, modAt_get_of_ne g n k xs hk]

theorem modAt_of_fixed {α : Type} {f : α → α} {n : Nat} {xs : List α} {x : α} (h : xs[n]? = some x) (hf : f x = x) :
    modAt f n xs = xs := by
  refine List.ext_getElem? (fun k => ?_)
  by_cases hk : k = n
  · rw [hk, modAt_get_self, h, Option.map_some, hf]
  · exact modAt_get_of_ne f n k xs hk

theorem modAt_modAt {α : Type} (f g : α → α) (n : Nat) (xs : List α) : modAt g n (modAt f n xs) = modAt (g ∘ f) n xs := by
  refine List.ext_getElem? (fun k => ?_)
  by_cases hk : k = n
  · rw [hk, modAt_get_self, modAt_get_self, modAt_get_self, Option.map_map]
  · rw [modAt_get_of_ne g n k _ hk, modAt_get_of_ne f n k _ hk, modAt_get_of_ne _ n k _ hk]

/-! ### A row of channels changed one by one -/

section
variable {α : Type} {v : Mach → List α} {step : Mach → Nat → Mach} {R : α → α → Prop}

/-- Each step changes the entry of its own index alone, as `R` says. -/
def StepsAt (v : Mach → List α) (R : α → α → Prop) (step : Mach → Nat → Mach) : Prop :=
  ∀ m n, ∃ f : α → α, (∀ x, R x (f x)) ∧ v (step m n) = modAt f n (v m)

theorem StepsAt.length (h : StepsAt v R step) (ns : List Nat) (m : Mach) : (v (ns.foldl step m)).length = (v m).length := by
  refine Mach.foldl_keeps (fun m => (v m).length) (fun m n => ?_) ns m
  obtain ⟨f, -, hf⟩ := h m n
  exact (congrArg List.length hf).trans (modAt_length ..)

theorem StepsAt.get_of_not_mem (h : StepsAt v R step) {ns : List Nat} {k : Nat} (hk : k ∉ ns) (m : Mach) :
    (v (ns.foldl step m))[k]? = (v m)[k]? := by
  induction ns generalizing m with
  | nil => rfl
  | cons n ns ih =>
    obtain ⟨hkn, hkns⟩ := List.ne_and_not_mem_of_not_mem_cons hk
    obtain ⟨f, -, hf⟩ := h m n
    rw [List.foldl_cons, ih hkns, hf, modAt_get_of_ne f n k _ hkn]

theorem StepsAt.get_of_mem (h : StepsAt v R step) {ns : List Nat} (hn : ns.Nodup) {k : Nat} (hk : k ∈ ns) (m : Mach) :
    ∃ f : α → α, (∀ x, R x (f x)) ∧ (v (ns.foldl step m))[k]? = ((v m)[k]?).map f := by
  induction ns generalizing m with
  | nil => exact absurd hk List.not_mem_nil
  | cons n ns ih =>
    obtain ⟨hnot, hns⟩ := List.nodup_cons.1 hn
    obtain ⟨f, hR, hf⟩ := h m n
    rw [List.foldl_cons]
    by_cases hkn : k = n
    · subst hkn
      exact ⟨f, hR, by rw [h.get_of_not_mem hnot, hf, modAt_get_self]⟩
    · obtain ⟨g, hg, hget⟩ := ih hns ((List.mem_cons.1 hk).resolve_left hkn) (step m n)
      exact ⟨g, hg, by rw [hget, hf, modAt_get_of_ne f n k _ hkn]⟩

/-- Steps over a whole row change every entry. -/
theorem StepsAt.all (h : StepsAt v R step) {n : Nat} {m : Mach} (hlen : (v m).length = n) :
    ∀ y ∈ v ((List.range n).foldl step m), ∃ x ∈ v m, R x y := by
  intro y hy
  obtain ⟨k, hk⟩ := List.mem_iff_getElem?.1 hy
  obtain ⟨hlt, -⟩ := List.getElem?_eq_some_iff.1 hk
  rw [h.length, hlen] at hlt
  obtain ⟨f, hR, hf⟩ := h.get_of_mem List.nodup_range (List.mem_range.2 hlt) m
  obtain ⟨x, hx, hxy⟩ := Option.map_eq_some_iff.1 (hf.symm.trans hk)
  exact ⟨x, List.mem_of_getElem? hx, hxy ▸ hR x⟩

end

/-- What each of several operations in a row keeps to, they keep to together. -/
theorem foldl_stays {R : Mach → Mach → Prop} (hrefl : ∀ m, R m m) (htrans : ∀ {a b c}, R a b → R b c → R a c)
    {step : Mach → Nat → Mach} (hstep : ∀ m n, R m (step m n)) (ns : List Nat) (m : Mach) : R m (ns.foldl step m) := by
  induction ns generalizing m with
  | nil => exact hrefl m
  | cons n ns ih => exact htrans (hstep m n) (ih _)

/-! ### Causes and notices -/

/-- Nothing differs but the causes on the pages and the notices of the field section. -/
def Reports (a b : Mach) : Prop := ∃ i q, b = { a with irq := i, field := { a.field with fifo := q } }

theorem Reports.refl (m : Mach) : Reports m m := ⟨_, _, rfl⟩

theorem Reports.trans {a b c : Mach} (h : Reports a b) (k : Reports b c) : Reports a c := by
  obtain ⟨i, q, rfl⟩ := h
  obtain ⟨j, r, rfl⟩ := k
  exact ⟨j, r, rfl⟩

theorem Reports.raise (path : List Nat) (bit : Nat) (m : Mach) : Reports m (m.raise path bit) := ⟨_, _, rfl⟩
theorem Reports.postField (n : Notice) (m : Mach) : Reports m (m.postField n) := ⟨_, _, rfl⟩

theorem Reports.noteIn (k ch : Nat) (srcs : List Nat) (m : Mach) : Reports m (m.noteIn k ch srcs) := by
  cases srcs <;> exact ⟨_, _, rfl⟩

theorem Reports.noteOut (n : Nat) (srcs : List Nat) (m : Mach) : Reports m (m.noteOut n srcs) := by
  cases srcs <;> exact ⟨_, _, rfl⟩

theorem Reports.ite {c : Prop} [Decidable c] {m a b : Mach} (h : Reports m a) (k : Reports m b) : Reports m (if c then a else b) := by
  split <;> assumption

/-- A change of the field section that does not look at its notices. -/
theorem Reports.updField {a b : Mach} (h : Reports a b) (g : Field → Field)
    (hg : ∀ z q, g { z with fifo := q } = { g z with fifo := q }) : Reports (a.updField g) (b.updField g) := by
  obtain ⟨i, q, rfl⟩ := h
  exact ⟨i, q, congrArg (fun z => ({ a with irq := i, field := z } : Mach)) (hg a.field q)⟩

section
variable {a b : Mach} (h : Reports a b)
include h

theorem Reports.di : b.field.di = a.field.di := by obtain ⟨i, q, rfl⟩ := h; rfl
theorem Reports.ai : b.field.ai = a.field.ai := by obtain ⟨i, q, rfl⟩ := h; rfl
theorem Reports.ps : b.field.ps = a.field.ps := by obtain ⟨i, q, rfl⟩ := h; rfl
theorem Reports.enc : b.field.enc = a.field.enc := by obtain ⟨i, q, rfl⟩ := h; rfl
theorem Reports.fsm : b.field.fsm = a.field.fsm := by obtain ⟨i, q, rfl⟩ := h; rfl
theorem Reports.out : b.field.out = a.field.out := by obtain ⟨i, q, rfl⟩ := h; rfl
theorem Reports.now : b.now = a.now := by obtain ⟨i, q, rfl⟩ := h; rfl
theorem Reports.mod : b.mod = a.mod := by obtain ⟨i, q, rfl⟩ := h; rfl

theorem Reports.updDi (ch : Nat) (f : DiCh → DiCh) : Reports (a.updDi ch f) (b.updDi ch f) := h.updField _ (fun _ _ => rfl)
theorem Reports.updAi (ch : Nat) (f : AiCh → AiCh) : Reports (a.updAi ch f) (b.updAi ch f) := h.updField _ (fun _ _ => rfl)
theorem Reports.updEnc (f : Encoder → Encoder) : Reports (a.updEnc f) (b.updEnc f) := h.updField _ (fun _ _ => rfl)

/-- What changes nothing outside the field section but the clock, and then only reports. -/
theorem Reports.onlyField {m : Mach} (ha : OnlyField m a) : OnlyField m b := by
  obtain ⟨i, q, rfl⟩ := h
  exact ha

end

theorem OnlyField.refl (m : Mach) : OnlyField m m := rfl

theorem OnlyField.trans {a b c : Mach} (h : OnlyField a b) (k : OnlyField b c) : OnlyField a c := by
  unfold OnlyField at *
  rw [← h, ← k]

theorem OnlyField.foldl {f : Mach → Nat → Mach} (hf : ∀ m n, OnlyField m (f m n)) (ns : List Nat) (m : Mach) :
    OnlyField m (ns.foldl f m) := foldl_stays .refl .trans hf ns m

theorem OnlyField.mode {a b : Mach} (h : OnlyField a b) : b.mod.mode = a.mod.mode := by
  have k := congrArg (fun m => m.mod.mode) h; exact k

/-- A meaning that stays within the field section completes in every mode. -/
theorem completes_of_onlyField {i : Instr} {s : State} {P : Mach → Prop} {t : Nat} {f : Mach → Mach}
    (he : exec i s = s.run (fun m => f (m.tick t))) (ho : OnlyField s.m (f (s.m.tick t))) (hp : P (f (s.m.tick t))) :
    Completes i s P := completes_of_mode_eq _ he ho.mode hp

end Sys2Proof.Machine
end

section
/-! SUPPORT. The digital inputs and their pulse sources (R192 to R201, R211, R212): findings, the filter, and what a command of a
channel or of a source comes to. -/

namespace Sys2Proof.Machine

/-! ### Findings -/

theorem standsNow_addFinding {code : Nat} (h : code < 16) (xs : List Finding) : standsNow code (addFinding code xs) = true := by
  simp [standsNow, addFinding, BitVec.toNat_ofNat, Nat.mod_eq_of_lt h]

/-- The end of other conditions leaves a finding as it stands. -/
theorem standsNow_endFindings {code : Nat} {codes : List Nat} (h : code ∉ codes) (now : Nat) (xs : List Finding) :
    standsNow code (endFindings codes now xs) = standsNow code xs := by
  unfold standsNow endFindings
  rw [List.any_map]
  refine congrArg (List.any xs) (funext fun f => ?_)
  by_cases hc : f.code.toNat = code
  · have hnot : codes.contains f.code.toNat = false := by simpa [hc] using h
    simp only [Function.comp, hnot, Bool.and_false, Bool.false_eq_true, if_false]
  · have hother : (f.code.toNat == code) = false := beq_false_of_ne hc
    simp only [Function.comp]
    split <;> simp only [hother, Bool.false_and]

/-! ### Channels under a change -/

theorem Mach.updDi_of_none {m : Mach} {ch : Nat} (f : DiCh → DiCh) (h : m.field.di[ch]? = none) : m.updDi ch f = m :=
  congrArg (fun z => m.updField (fun x => { x with di := z })) (modAt_of_none h)

theorem Mach.updDi_congr {m : Mach} {ch : Nat} {x : DiCh} {f g : DiCh → DiCh} (h : m.field.di[ch]? = some x) (hfg : f x = g x) :
    m.updDi ch f = m.updDi ch g :=
  congrArg (fun z => m.updField (fun x => { x with di := z })) (modAt_congr h hfg)

theorem Mach.updDi_of_fixed {m : Mach} {ch : Nat} {x : DiCh} {f : DiCh → DiCh} (h : m.field.di[ch]? = some x) (hf : f x = x) :
    m.updDi ch f = m :=
  congrArg (fun z => m.updField (fun x => { x with di := z })) (modAt_of_fixed h hf)

theorem Mach.updDi_updDi (ch : Nat) (f g : DiCh → DiCh) (m : Mach) : (m.updDi ch f).updDi ch g = m.updDi ch (g ∘ f) :=
  congrArg (fun z => m.updField (fun x => { x with di := z })) (modAt_modAt f g ch m.field.di)

theorem Mach.updDi_get_self {m : Mach} {ch : Nat} {x : DiCh} (f : DiCh → DiCh) (h : m.field.di[ch]? = some x) :
    (m.updDi ch f).field.di[ch]? = some (f x) := (modAt_get_self f ch m.field.di).trans (congrArg (Option.map f) h)

/-- Changes of one channel in a row, with reports between them. -/
theorem Reports.updDi_trans {a b c : Mach} {ch : Nat} {f g : DiCh → DiCh} (h : Reports (a.updDi ch f) b)
    (k : Reports (b.updDi ch g) c) : Reports (a.updDi ch (g ∘ f)) c := by
  have hboth := (h.updDi ch g).trans k
  rwa [Mach.updDi_updDi] at hboth

theorem Reports.di_self {a b : Mach} {ch : Nat} {f : DiCh → DiCh} {x : DiCh} (h : Reports (a.updDi ch f) b)
    (hx : a.field.di[ch]? = some x) : b.field.di[ch]? = some (f x) := by
  rw [h.di]
  exact Mach.updDi_get_self f hx

theorem Reports.di_other {a b : Mach} {ch k : Nat} {f : DiCh → DiCh} (h : Reports (a.updDi ch f) b) (hk : k ≠ ch) :
    b.field.di[k]? = a.field.di[k]? := by
  rw [h.di]
  exact modAt_get_of_ne f ch k _ hk

/-! ### Fault findings (R211, R212) -/

/-- A channel that takes a fault finding. -/
def DiCh.takesFault (code : Nat) (latch : Bool) (now : Nat) (x : DiCh) : DiCh :=
  { x with
    found := addFinding code x.found, valid := false, latch := latch, revalidate := false
    faults := satInc x.faults, levelAt := now }

/-- One that is latched, or has the finding, stays. -/
def DiCh.faulted (code : Nat) (latch : Bool) (now : Nat) (x : DiCh) : DiCh :=
  if x.latch = true ∨ standsNow code x.found = true then x else x.takesFault code latch now

theorem DiCh.faulted_of_free {code : Nat} {x : DiCh} (hl : x.latch = false) (hs : standsNow code x.found = false) (latch : Bool)
    (now : Nat) : x.faulted code latch now = x.takesFault code latch now := if_neg (by rw [hl, hs]; decide)

theorem Mach.diFault_reports (ch code : Nat) (latch : Bool) (m : Mach) :
    Reports (m.updDi ch (DiCh.faulted code latch m.now)) (m.diFault ch code latch) := by
  unfold Mach.diFault
  split
  next hnone => rw [Mach.updDi_of_none _ hnone]; exact .refl m
  next x hx =>
    split
    next hkept =>
      have hkeeps : x.faulted code latch m.now = x := if_pos hkept
      rw [Mach.updDi_of_fixed hx hkeeps]
      exact .refl m
    next hfree =>
      have htakes : x.faulted code latch m.now = x.takesFault code latch m.now := if_neg hfree
      rw [Mach.updDi_congr hx htakes]
      exact ((Reports.ite (.raise ..) (.refl _)).trans (Reports.ite (.raise ..) (.refl _))).trans (.noteIn ..)

/-! ### The filter (R192, R196) -/

/-- A channel whose filtered level takes a value; `cos` says that its changes are reported. -/
def DiCh.levelled (b cos : Bool) (now : Nat) (x : DiCh) : DiCh :=
  if x.level = b then x
  else
    let n := if x.cosSec = now / 1000000000 then x.cosN else 0
    { x with
      level := b, cosCnt := satInc x.cosCnt, levelAt := now, cosSec := now / 1000000000
      cosN := if (cos && decide (n < 8)) = true then n + 1 else n }

/-- Only the level and the account of its changes differ. -/
theorem DiCh.levelled_eq (b cos : Bool) (now : Nat) (x : DiCh) :
    ∃ cnt at0 sec n, x.levelled b cos now = { x with level := b, cosCnt := cnt, levelAt := at0, cosSec := sec, cosN := n } := by
  unfold DiCh.levelled
  split
  next h => exact ⟨x.cosCnt, x.levelAt, x.cosSec, x.cosN, by rw [← h]⟩
  next => exact ⟨_, _, _, _, rfl⟩

theorem Mach.diLevel_reports (ch : Nat) (b : Bool) (m : Mach) :
    Reports (m.updDi ch (DiCh.levelled b ((m.diCfg ch).any (fun c => c.cos)) m.now)) (m.diLevel ch b) := by
  unfold Mach.diLevel
  split
  next hnone => rw [Mach.updDi_of_none _ hnone]; exact .refl m
  next x hx =>
    split
    next hkept =>
      have hkeeps : x.levelled b ((m.diCfg ch).any (fun c => c.cos)) m.now = x := if_pos hkept
      rw [Mach.updDi_of_fixed hx hkeeps]
      exact .refl m
    next hchange =>
      extract_lets sec n rep m1
      have hm1 : m.updDi ch (DiCh.levelled b ((m.diCfg ch).any (fun c => c.cos)) m.now) = m1 :=
        Mach.updDi_congr hx (if_neg hchange)
      rw [hm1]
      exact Reports.ite (.postField ..) (.refl _)

theorem Mach.diValid_reports (ch : Nat) (m : Mach) :
    Reports (m.updDi ch (fun x => { x with valid := true, revalidate := false, levelAt := m.now })) (m.diValid ch) :=
  (Reports.raise ..).trans (.noteIn ..)

/-- The filter restarts: level and counter 0, to be validated again; its findings and its validity stay. -/
theorem Mach.diRestart_reports (ch : Nat) (m : Mach) :
    ∃ f : DiCh → DiCh, Reports (m.updDi ch f) (m.diRestart ch) ∧ ∀ x, (f x).fcnt = 0 ∧ (f x).level = false ∧
      (f x).found = x.found ∧ (f x).valid = x.valid ∧ (f x).revalidate = true := by
  refine ⟨_, (Mach.diLevel_reports ch false m).updDi_trans (.refl _), fun x => ?_⟩
  obtain ⟨cnt, at0, sec, n, h⟩ := x.levelled_eq false ((m.diCfg ch).any (fun c => c.cos)) m.now
  simp only [Function.comp, h, and_self]

/-- The counter after a counted sample. -/
def countTo (n : Nat) (up : Bool) (x : DiCh) : Nat := min n (if up then x.fcnt.toNat + 1 else x.fcnt.toNat - 1)

/-- The level that a counter gives. -/
def levelAtCount (n c : Nat) (b : Bool) : Bool := if c = n then true else if c = 0 then false else b

/-- A counted sample moves the counter, and at its ends the level (R192). -/
theorem Mach.diCount_reports {ch : Nat} {m : Mach} {x : DiCh} (n : Nat) (up : Bool) (hx : m.field.di[ch]? = some x) :
    ∃ f : DiCh → DiCh, Reports (m.updDi ch f) (m.diCount ch n up) ∧ (f x).raw = x.raw ∧
      (f x).fcnt = BitVec.ofNat 10 (countTo n up x) ∧ (f x).level = levelAtCount n (countTo n up x) x.level := by
  unfold Mach.diCount
  rw [hx]
  dsimp -zeta only
  extract_lets c m1 m2
  have hcounted : Reports (m.updDi ch (fun y => { y with fcnt := BitVec.ofNat 10 c, fresh := y.fresh + 1 })) m1 := .refl _
  have hset : ∀ b, ∃ f : DiCh → DiCh, Reports (m.updDi ch f) (m1.diLevel ch b) ∧ (f x).raw = x.raw ∧
      (f x).fcnt = BitVec.ofNat 10 c ∧ (f x).level = b := by
    intro b
    refine ⟨_, hcounted.updDi_trans (Mach.diLevel_reports ch b m1), ?_⟩
    obtain ⟨cnt, at0, sec, k, h⟩ := DiCh.levelled_eq b ((m1.diCfg ch).any (fun c => c.cos)) m1.now
      { x with fcnt := BitVec.ofNat 10 c, fresh := x.fresh + 1 }
    simp only [Function.comp, h, and_self]
  have hlevel : ∃ f : DiCh → DiCh, Reports (m.updDi ch f) m2 ∧ (f x).raw = x.raw ∧
      (f x).fcnt = BitVec.ofNat 10 c ∧ (f x).level = levelAtCount n c x.level := by
    unfold levelAtCount m2
    split
    · exact hset true
    · split
      · exact hset false
      · exact ⟨_, hcounted, rfl, rfl, rfl⟩
  obtain ⟨f, hf, hraw, hcnt, hlvl⟩ := hlevel
  split
  · exact ⟨_, hf.updDi_trans (Mach.diValid_reports ch m2), hraw, hcnt, hlvl⟩
  · exact ⟨f, hf, hraw, hcnt, hlvl⟩

/-! ### Raw samples (R192) -/

/-- A channel whose raw samples the filter counts: no encoder track, fed by no pulse source, in no comparator test, outside
COMMISSION. -/
structure Counting (ch : Nat) (c : DiCfg) (x : DiCh) (m : Mach) : Prop where
  runs : m.fieldRuns = true
  channel : m.field.di[ch]? = some x
  settings : m.diCfg ch = some c
  noTrack : c.enc = false
  noSource : c.mon ≠ 2
  noTest : x.testAt = none
  mode : m.mod.mode ≠ .commission

/-- What a raw sample reads as: above the ON threshold 1, at or below the OFF threshold 1.0 V under it 0 (R191). -/
def rawLevel (m : Mach) (x : DiCh) (mV : Int) : Bool :=
  decide (100 * (m.field.fsm.thrOn.toNat : Int) < mV) || (x.level && decide (100 * (m.field.fsm.thrOn.toNat : Int) - 1000 < mV))

theorem rawLevel_of_above {m : Mach} {x : DiCh} {mV : Int} (h : 100 * (m.field.fsm.thrOn.toNat : Int) < mV) :
    rawLevel m x mV = true := Bool.or_eq_true_iff.2 (.inl (decide_eq_true h))

theorem rawLevel_of_below {m : Mach} {x : DiCh} {mV : Int} (h : mV ≤ 100 * (m.field.fsm.thrOn.toNat : Int) - 1000) :
    rawLevel m x mV = false :=
  Bool.or_eq_false_iff.2 ⟨decide_eq_false (by omega), Bool.and_eq_false_iff.2 (.inr (decide_eq_false (Int.not_lt.2 h)))⟩

theorem countTo_down {n : Nat} {x : DiCh} (h : x.fcnt.toNat ≤ n) : countTo n false x = x.fcnt.toNat - 1 :=
  Nat.min_eq_right (Nat.le_trans (Nat.sub_le ..) h)

theorem levelAtCount_up {n : Nat} (c : Nat) (b : Bool) (h : 1 ≤ n) :
    levelAtCount n (min n (c + 1)) b = if n ≤ c + 1 then true else b := by
  have hsome : min n (c + 1) ≠ 0 := by omega
  simp only [levelAtCount, min_eq_left_iff, hsome, if_false]

theorem levelAtCount_down {n c : Nat} (b : Bool) (h : 1 ≤ n) (hc : c ≤ n) :
    levelAtCount n (c - 1) b = if c ≤ 1 then false else b := by
  have hfew : c - 1 ≠ n := by omega
  simp only [levelAtCount, hfew, if_false, Nat.sub_eq_zero_iff_le]

theorem Mach.diSeen_of_ne {m : Mach} (ch : Nat) (h : m.mod.mode ≠ .commission) : m.diSeen ch = m := by
  unfold Mach.diSeen
  split
  · rfl
  · exact if_neg (fun c => h c.1)

theorem inputRawSample_of_counting {ch : Nat} {c : DiCfg} {x : DiCh} {m : Mach} (h : Counting ch c x m) (mV : Int) :
    inputRawSample ch mV m =
      (m.updDi ch (fun y => { y with raw := rawLevel m x mV })).diCount ch (filtN c) (rawLevel m x mV) := by
  obtain ⟨hrun, hx, hc, henc, hmon, htest, hmode⟩ := h
  have hcfg : ∀ f, (m.updDi ch f).diCfg ch = some c := fun _ => hc
  have htrack : diEnc m ch = false := by rw [diEnc, hc]; exact henc
  have hsource : ∀ f, diSource (m.updDi ch f) ch = none := by
    intro f
    rw [diSource, diMon, hcfg, if_neg]
    exact hmon
  have hskips : ∀ f, diSkips (m.updDi ch f) ch x = false := by
    intro f
    rw [diSkips, hsource, htest]
    rfl
  have hthr : thrAtChannel m x = 100 * (m.field.fsm.thrOn.toNat : Int) := by
    rw [thrAtChannel, htest]
    rfl
  obtain ⟨f, hf, -⟩ := Mach.diCount_reports (filtN c) (rawLevel m x mV)
    (Mach.updDi_get_self (fun y => { y with raw := rawLevel m x mV }) hx)
  unfold inputRawSample
  rw [hx]
  dsimp only
  rw [if_neg (by rw [hrun, htrack]; decide), hthr, hcfg]
  dsimp only
  rw [hsource]
  dsimp only
  rw [hskips, if_neg Bool.false_ne_true]
  exact Mach.diSeen_of_ne ch (fun e => hmode ((congrArg ModState.mode hf.mod).symm.trans e))

/-- A counted sample: its level is kept, and the filter counts it. -/
theorem inputRawSample_reports {ch : Nat} {c : DiCfg} {x : DiCh} {m : Mach} (h : Counting ch c x m) (mV : Int) :
    ∃ f : DiCh → DiCh, Reports (m.updDi ch f) (inputRawSample ch mV m) ∧ (f x).raw = rawLevel m x mV ∧
      (f x).fcnt = BitVec.ofNat 10 (countTo (filtN c) (rawLevel m x mV) x) ∧
      (f x).level = levelAtCount (filtN c) (countTo (filtN c) (rawLevel m x mV) x) x.level := by
  rw [inputRawSample_of_counting h]
  obtain ⟨f, hf, hkept⟩ := Mach.diCount_reports (filtN c) (rawLevel m x mV)
    (Mach.updDi_get_self (fun y => { y with raw := rawLevel m x mV }) h.channel)
  exact ⟨_, (Reports.refl _).updDi_trans hf, hkept⟩

/-! ### Line conductance (R197) -/

theorem condCode_of_outside {c : Nat} (h : c < 1000 ∨ 1600 < c) : condCode c = if c < 300 then 1 else 2 := by
  unfold condCode
  rw [if_pos h]

/-- A channel with a conductance measured. -/
def DiCh.measured (c : Nat) (x : DiCh) : DiCh :=
  { x with cond := satOf 12 c, judge := condCode c, judgeRun := if x.judge = condCode c then x.judgeRun + 1 else 1 }

/-- A conductance-monitored channel at level 0. -/
structure Measuring (ch : Nat) (x : DiCh) (m : Mach) : Prop where
  runs : m.fieldRuns = true
  channel : m.field.di[ch]? = some x
  monitored : diMon m ch = 1
  noTrack : diEnc m ch = false
  low : x.level = false

theorem lineConductance_of_measuring {ch : Nat} {x : DiCh} {m : Mach} (h : Measuring ch x m) (c : Nat) :
    lineConductance ch c m =
      if (x.measured c).judgeRun < 10 then m.updDi ch (DiCh.measured c)
      else if condCode c = 0 then (m.updDi ch (DiCh.measured c)).diGone ch [1, 2]
      else ((m.updDi ch (DiCh.measured c)).diGone ch [3 - condCode c]).diFault ch (condCode c) false := by
  obtain ⟨hrun, hx, hmon, henc, hlow⟩ := h
  have hmeasured : m.updDi ch (DiCh.measured c) = m.updDi ch (fun y => { y with
      cond := satOf 12 c, judge := condCode c, judgeRun := (x.measured c).judgeRun }) := Mach.updDi_congr hx rfl
  unfold lineConductance
  rw [hx]
  dsimp only
  rw [if_neg (by rw [hrun, hmon, henc, hlow]; decide), hmeasured]
  rfl

/-- The tenth judgement in a row outside the range is a finding. -/
theorem lineConductance_tenth {ch c : Nat} {x : DiCh} {m : Mach} (h : Measuring ch x m) (hout : c < 1000 ∨ 1600 < c)
    (hj : x.judge = condCode c) (hten : 9 ≤ x.judgeRun) (hl : x.latch = false) (hs : standsNow (condCode c) x.found = false) :
    ∃ f : DiCh → DiCh, Reports (m.updDi ch f) (lineConductance ch c m) ∧ (f x).cond = satOf 12 c ∧
      (f x).fault = BitVec.ofNat 4 (condCode c) ∧ (f x).valid = false ∧ standsNow (condCode c) (f x).found = true := by
  have hcode : condCode c = 1 ∨ condCode c = 2 := by
    rw [condCode_of_outside hout]
    split
    · exact .inl rfl
    · exact .inr rfl
  have hrun : ¬(x.measured c).judgeRun < 10 := by
    simp only [DiCh.measured, hj, if_true]
    omega
  have hbad : condCode c ≠ 0 := by omega
  have hother : condCode c ∉ [3 - condCode c] := by simp only [List.mem_singleton]; omega
  rw [lineConductance_of_measuring h, if_neg hrun, if_neg hbad]
  refine ⟨_, ((Reports.refl _).updDi_trans (.refl _)).updDi_trans (Mach.diFault_reports ch (condCode c) false _), ?_⟩
  simp only [Function.comp]
  rw [DiCh.faulted_of_free (by exact hl) (by exact (standsNow_endFindings hother ..).trans hs)]
  exact ⟨rfl, rfl, rfl, standsNow_addFinding (by omega) _⟩

/-- An earlier one changes neither its code nor its validity. -/
theorem lineConductance_early {ch c : Nat} {x : DiCh} {m : Mach} (h : Measuring ch x m) (hfew : x.judgeRun < 9) :
    lineConductance ch c m = m.updDi ch (DiCh.measured c) := by
  refine (lineConductance_of_measuring h c).trans (if_pos ?_)
  unfold DiCh.measured
  dsimp only
  split <;> omega

/-! ### Pulse sources (R198 to R200) -/

/-- A finding of one code in every channel of a row. -/
theorem diFault_stepsAt (code : Nat) (latch : Bool) :
    StepsAt (fun m => m.field.di) (fun x y => ∃ now, y = x.faulted code latch now) (fun m ch => m.diFault ch code latch) :=
  fun m ch => ⟨_, fun _ => ⟨m.now, rfl⟩, (Mach.diFault_reports ch code latch m).di⟩

theorem Mach.mem_fedFrom {m : Mach} {k ch : Nat} : ch ∈ m.fedFrom k ↔ ch < 48 ∧ diSource m ch = some k := by
  rw [Mach.fedFrom, List.mem_filter, List.mem_range, beq_iff_eq]

theorem Mach.nodup_fedFrom (m : Mach) (k : Nat) : (m.fedFrom k).Nodup := List.nodup_range.filter _

/-- A source that goes into fault. -/
def PsCh.failed (c : SourceCause) (now : Nat) (x : PsCh) : PsCh :=
  { x with
    fault := true, cause := BitVec.ofNat 2 (sourceCode c), faults := satInc x.faults, on := false, dark := false
    darkAt := none, ma := 0, faultAt := now }

theorem pulseSourceFault_of_found {k : Nat} {c : SourceCause} {x : PsCh} {m : Mach} (hrun : m.fieldRuns = true)
    (hx : m.field.ps[k]? = some x) (hf : x.fault = false) (hc : c = .overload ∨ 2 ≤ x.highRun) :
    pulseSourceFault k c m =
      (m.fedFrom k).foldl (fun m ch => m.diFault ch 5 false) ((m.updPs k (PsCh.failed c m.now)).raise (fieldPath 4) 0) := by
  have hfound : ¬(m.fieldRuns = false ∨ x.fault = true ∨ c = .cannotGoDark ∧ x.highRun < 2) := by
    rcases hc with rfl | hc
    · simp [hrun, hf]
    · simp [hrun, hf, Nat.not_lt.2 hc]
  unfold pulseSourceFault
  rw [hx]
  exact if_neg hfound

/-- Its channels take the finding, and no others. -/
theorem pulseSourceFault_channels {k : Nat} {c : SourceCause} {x : PsCh} {m : Mach} (hrun : m.fieldRuns = true)
    (hx : m.field.ps[k]? = some x) (hf : x.fault = false) (hc : c = .overload ∨ 2 ≤ x.highRun) (ch : Nat) :
    (diSource m ch ≠ some k → (pulseSourceFault k c m).field.di[ch]? = m.field.di[ch]?) ∧
      (ch < 48 → diSource m ch = some k → ∀ y, m.field.di[ch]? = some y →
        ∃ now, (pulseSourceFault k c m).field.di[ch]? = some (y.faulted 5 false now)) := by
  rw [pulseSourceFault_of_found hrun hx hf hc]
  have hsteps := diFault_stepsAt 5 false
  constructor
  · intro hnot
    exact hsteps.get_of_not_mem (fun hmem => hnot (Mach.mem_fedFrom.1 hmem).2) _
  · intro hlt hsrc y hy
    obtain ⟨f, hfault, hget⟩ := hsteps.get_of_mem (m.nodup_fedFrom k) (Mach.mem_fedFrom.2 ⟨hlt, hsrc⟩)
      ((m.updPs k (PsCh.failed c m.now)).raise (fieldPath 4) 0)
    obtain ⟨now, hnow⟩ := hfault y
    exact ⟨now, hget.trans ((congrArg (Option.map f) hy).trans (congrArg some hnow))⟩

theorem Mach.diFault_onlyField (ch code : Nat) (latch : Bool) (m : Mach) : OnlyField m (m.diFault ch code latch) :=
  (Mach.diFault_reports ch code latch m).onlyField rfl

theorem Mach.updPs_get_self {m : Mach} {k : Nat} {x : PsCh} (f : PsCh → PsCh) (h : m.field.ps[k]? = some x) :
    (m.updPs k f).field.ps[k]? = some (f x) := (modAt_get_self f k m.field.ps).trans (congrArg (Option.map f) h)

theorem darkWindow_of_on {k : Nat} {high : Bool} {ma : Nat} {x : PsCh} {m : Mach} (hrun : m.fieldRuns = true)
    (hx : m.field.ps[k]? = some x) (hon : x.on = true) :
    darkWindow k high ma m = m.updPs k (fun x => { x with
      dark := true, darkAt := some m.now, highRun := if high then x.highRun + 1 else 0, ma := satOf 8 ma }) := by
  unfold darkWindow
  rw [hx]
  exact if_neg (by rw [hrun, hon]; decide)

/-- Ended conditions change the channels alone. -/
theorem Mach.foldl_diGone (codes chs : List Nat) (m : Mach) :
    ∃ xs, chs.foldl (fun m ch => m.diGone ch codes) m = m.updField (fun z => { z with di := xs }) := by
  induction chs generalizing m with
  | nil => exact ⟨m.field.di, rfl⟩
  | cons ch chs ih =>
    obtain ⟨xs, h⟩ := ih (m.diGone ch codes)
    exact ⟨xs, h⟩

/-- A source in fault that retries: on again where the cause is gone. -/
def PsCh.retried (gone : Bool) (now : Nat) (x : PsCh) : PsCh :=
  if gone then { x with fault := false, cause := 0, on := true, highRun := 0 } else { x with faultAt := now }

/-- The retry changes the source, and its channels where the cause is gone. -/
theorem pulseSourceRetry_of_due {k : Nat} (gone : Bool) {x : PsCh} {m : Mach} (hrun : m.fieldRuns = true)
    (hx : m.field.ps[k]? = some x) (hf : x.fault = true) (hdue : x.faultAt + 1000000000 ≤ m.now) :
    ∃ xs, pulseSourceRetry k gone m = (m.updPs k (PsCh.retried gone m.now)).updField (fun z => { z with di := xs }) := by
  unfold pulseSourceRetry
  rw [hx]
  dsimp only
  rw [if_neg (by simp [hrun, hf, hdue])]
  cases gone with
  | false => exact ⟨m.field.di, rfl⟩
  | true => exact Mach.foldl_diGone ..

/-! ### Comparator tests (R201) -/

/-- A channel after a comparator test with these halves passed. -/
def DiCh.tested (first second : Bool) (now : Nat) (x : DiCh) : DiCh :=
  { x with
    testAt := some now, testFail0 := if first then 0 else x.testFail0 + 1, testFail1 := if second then 0 else x.testFail1 + 1
    tseq := if first && second then x.tseq + 1 else x.tseq }

theorem comparatorTest_of_channel {ch : Nat} {x : DiCh} {m : Mach} (hrun : m.fieldRuns = true) (hx : m.field.di[ch]? = some x)
    (henc : diEnc m ch = false) (first second : Bool) :
    comparatorTest ch first second m =
      if 2 ≤ (x.tested first second m.now).testFail0 ∨ 2 ≤ (x.tested first second m.now).testFail1 then
        (m.updDi ch (DiCh.tested first second m.now)).diFault ch 6 true
      else m.updDi ch (DiCh.tested first second m.now) := by
  have htested : m.updDi ch (DiCh.tested first second m.now) = m.updDi ch (fun y => { y with
      testAt := some m.now, testFail0 := (x.tested first second m.now).testFail0
      testFail1 := (x.tested first second m.now).testFail1
      tseq := if first && second then y.tseq + 1 else y.tseq }) := Mach.updDi_congr hx rfl
  unfold comparatorTest
  rw [hx]
  dsimp only
  rw [if_neg (by rw [hrun, henc]; decide), htested]
  rfl

/-- The second failure of the first half in a row latches code 0x6. -/
theorem comparatorTest_reports_of_second_failure {ch : Nat} {x : DiCh} {m : Mach} (hrun : m.fieldRuns = true)
    (hx : m.field.di[ch]? = some x) (henc : diEnc m ch = false) (hfail : 1 ≤ x.testFail0) (second : Bool) :
    Reports (m.updDi ch (DiCh.faulted 6 true m.now ∘ DiCh.tested false second m.now)) (comparatorTest ch false second m) := by
  rw [comparatorTest_of_channel hrun hx henc, if_pos (.inl (Nat.succ_le_succ hfail))]
  exact (Reports.refl _).updDi_trans (Mach.diFault_reports ch 6 true _)

/-! ### Clearing (R212) -/

/-- A digital channel without a finding left: its filter restarts. -/
theorem inputFaultClear_digital_of_cleared {ch : Nat} {x : DiCh} {m : Mach} (hx : m.field.di[ch]? = some x) (hfound : x.found ≠ [])
    (hl : x.latch = false) (hleft : stillFound m.now x.found = []) :
    ∃ f : DiCh → DiCh, Reports (m.updDi ch f) (inputFaultClear .digital ch m) ∧ (f x).fault = 0 ∧ (f x).fcnt = 0 ∧
      (f x).level = false ∧ (f x).valid = x.valid ∧ (f x).revalidate = true := by
  have hfewer : ([] : List Finding).length ≠ x.found.length := fun c => hfound (List.length_eq_zero_iff.1 c.symm)
  have hrow : inputFaultClear .digital ch m = (m.updDi ch (fun x => { x with found := [] })).diRestart ch := by
    unfold inputFaultClear
    dsimp only
    rw [hx]
    dsimp only
    rw [hleft, if_neg (by simpa [hl] using hfewer)]
    rfl
  obtain ⟨g, hg, hkept⟩ := Mach.diRestart_reports ch (m.updDi ch (fun x => { x with found := [] }))
  obtain ⟨hcnt, hlvl, hnone, hvalid, hre⟩ := hkept { x with found := [] }
  rw [hrow]
  exact ⟨_, (Reports.refl _).updDi_trans hg, congrArg newestCode hnone, hcnt, hlvl, hvalid, hre⟩

theorem inputFaultClear_analogue_of_cleared {ch : Nat} {x : AiCh} {m : Mach} (hx : m.field.ai[ch]? = some x) (hfound : x.found ≠ [])
    (hl : x.latch = false) (hleft : stillFound m.now x.found = []) :
    inputFaultClear .analogue ch m = m.updAi ch (fun x => { x with found := [], okRun := 0 }) := by
  have hfewer : ([] : List Finding).length ≠ x.found.length := fun c => hfound (List.length_eq_zero_iff.1 c.symm)
  unfold inputFaultClear
  dsimp only
  rw [hx]
  dsimp only
  rw [hleft, if_neg (by simpa [hl] using hfewer)]
  rfl

/-! ### Coupler frames (R193) -/

theorem couplerFrame_of_channel {ch : Nat} {x : DiCh} {m : Mach} (hrun : m.fieldRuns = true) (hx : m.field.di[ch]? = some x)
    (henc : diEnc m ch = false) (ok : LaneId → Bool) :
    couplerFrame ch ok m = (m.updDi ch (fun x => { x with toggle := !x.toggle })).updLanes (fun l y =>
      y.takeDi ch x x.valid (!x.toggle) (ok l) m.now) := by
  unfold couplerFrame frameValid
  rw [hx]
  dsimp only
  rw [if_neg (by rw [hrun]; decide), henc]
  rfl

end Sys2Proof.Machine

open Sys2Proof Sys2Proof.Machine in
/-- Settles O21: each command changes its channel or source as the lemmas above say, and only reports beside. -/
theorem digitalInputs : Obligations.DigitalInputs := by
  unfold Obligations.DigitalInputs
  refine ⟨fun s ch t mV c x hrun hx hc henc hmon htest hmode hn hon => ?_,
    fun s ch t mV c x hrun hx hc henc hmon htest hmode hle hn hoff => ?_,
    fun s ch t a b c x hrun hx henc => ?_,
    fun s ch c t x hrun hx hmon henc hlow hout hjudge hten hl hs => ?_,
    fun s ch c t x hrun hx hmon henc hlow hfew => ?_,
    fun s k t high ma x hrun hx hon => ?_,
    fun s k t c x hrun hx hf hc hfree => ?_,
    fun s k t gone x hrun hx hf hdue => ?_,
    fun s ch t x hrun hx henc => ?_,
    fun s ch t second x hrun hx henc hfail hl hs => ?_,
    fun s ch t x hx hfound hl hleft => ?_,
    fun s ch t x hx hfound hl hleft => ?_⟩
  · obtain ⟨f, hf, hraw, hcnt, hlvl⟩ := inputRawSample_reports (m := s.m.tick t) ⟨hrun, hx, hc, henc, hmon, htest, hmode⟩ mV
    rw [rawLevel_of_above (by exact hon)] at hraw hcnt hlvl
    refine completes_of_onlyField (f := inputRawSample ch mV) rfl (hf.onlyField rfl) ⟨?_, hf.onlyField rfl, fun k => hf.di_other⟩
    rw [hf.di_self hx, Option.map_some, hraw, hcnt, hlvl]
    exact congrArg (fun b => some (true, BitVec.ofNat 10 (min (filtN c) (x.fcnt.toNat + 1)), b)) (levelAtCount_up _ x.level hn)
  · obtain ⟨f, hf, hraw, hcnt, hlvl⟩ := inputRawSample_reports (m := s.m.tick t) ⟨hrun, hx, hc, henc, hmon, htest, hmode⟩ mV
    rw [rawLevel_of_below (by exact hoff), countTo_down hle] at hcnt hlvl
    refine completes_of_onlyField (f := inputRawSample ch mV) rfl (hf.onlyField rfl) ⟨?_, hf.onlyField rfl, fun k => hf.di_other⟩
    rw [hf.di_self hx, Option.map_some, hraw, hcnt, hlvl, rawLevel_of_below (by exact hoff), levelAtCount_down x.level hn hle]
  · have hframe := couplerFrame_of_channel (m := s.m.tick t) hrun hx henc (byLane a b c)
    refine completes_of_mode_eq (fun m => couplerFrame ch (byLane a b c) (m.tick t)) rfl (by rw [hframe]; rfl) ?_
    rw [hframe]
    refine ⟨fun l hl => ?_, rfl, fun k hk => modAt_get_of_ne _ ch k _ hk⟩
    have hheld : (s.m.lane l).di[ch]? = some ((s.m.lane l).di[ch]) := List.getElem?_eq_getElem hl
    rw [Mach.lane_updLanes]
    exact congrArg (Option.map _) ((modAt_get_self _ ch _).trans (congrArg (Option.map _) hheld))
  · rw [← condCode_of_outside hout] at hjudge
    obtain ⟨f, hf, hcond, hfault, hvalid, hstands⟩ :=
      lineConductance_tenth (m := s.m.tick t) ⟨hrun, hx, hmon, henc, hlow⟩ hout hjudge hten hl hs
    refine completes_of_onlyField (f := lineConductance ch c) rfl (hf.onlyField rfl) ⟨?_, hf.onlyField rfl⟩
    rw [hf.di_self hx, Option.map_some, hcond, hfault, hvalid, hstands, condCode_of_outside hout]
    split <;> rfl
  · have hrow := lineConductance_early (m := s.m.tick t) (c := c) ⟨hrun, hx, hmon, henc, hlow⟩ hfew
    refine completes_of_onlyField (f := lineConductance ch c) rfl ?_ ?_ <;> rw [hrow]
    · rfl
    · exact ⟨congrArg (Option.map _) (Mach.updDi_get_self (m := s.m.tick t) _ hx), rfl, rfl⟩
  · have hrow := darkWindow_of_on (m := s.m.tick t) (high := high) (ma := ma) hrun hx hon
    refine completes_of_onlyField (f := darkWindow k high ma) rfl ?_ ?_ <;> rw [hrow]
    · rfl
    · exact ⟨Mach.updPs_get_self (m := s.m.tick t) _ hx, rfl, fun j hj => modAt_get_of_ne _ k j _ hj⟩
  · have hrow := pulseSourceFault_of_found (m := s.m.tick t) hrun hx hf hc
    have honly : OnlyField s.m (pulseSourceFault k c (s.m.tick t)) := by
      rw [hrow]
      exact OnlyField.trans (b := ((s.m.tick t).updPs k (PsCh.failed c (max s.m.now t))).raise (fieldPath 4) 0) rfl
        (.foldl (fun m ch => Mach.diFault_onlyField ch 5 false m) _ _)
    have hchannels := pulseSourceFault_channels (m := s.m.tick t) hrun hx hf hc
    refine completes_of_onlyField (f := pulseSourceFault k c) rfl honly
      ⟨?_, fun ch hlt hsrc hlen => ?_, fun ch => (hchannels ch).1, honly⟩
    · rw [hrow, Mach.foldl_keeps (fun m => m.field.ps) (fun m ch => (Mach.diFault_reports ch 5 false m).ps)]
      refine (congrArg (Option.map _) (Mach.updPs_get_self (m := s.m.tick t) _ hx)).trans ?_
      cases c <;> rfl
    · have hy : s.m.field.di[ch]? = some (s.m.field.di[ch]) := List.getElem?_eq_getElem hlen
      obtain ⟨hl, hs⟩ := hfree _ (List.getElem_mem hlen)
      obtain ⟨now, hget⟩ := (hchannels ch).2 hlt hsrc _ hy
      rw [hget, DiCh.faulted_of_free hl hs]
      rfl
  · obtain ⟨xs, hrow⟩ := pulseSourceRetry_of_due (m := s.m.tick t) gone hrun hx hf hdue
    refine completes_of_onlyField (f := pulseSourceRetry k gone) rfl ?_ ?_ <;> rw [hrow]
    · rfl
    · refine ⟨(congrArg (Option.map _) (Mach.updPs_get_self (m := s.m.tick t) _ hx)).trans ?_, rfl, rfl⟩
      cases gone with
      | false => exact congrArg (fun b => some (b, x.on)) hf
      | true => rfl
  · have hrow := (comparatorTest_of_channel (m := s.m.tick t) hrun hx henc true true).trans (if_neg (by simp [DiCh.tested]))
    refine completes_of_onlyField (f := comparatorTest ch true true) rfl ?_ ?_ <;> rw [hrow]
    · rfl
    · exact ⟨Mach.updDi_get_self (m := s.m.tick t) _ hx, rfl⟩
  · have hf := comparatorTest_reports_of_second_failure (m := s.m.tick t) hrun hx henc hfail second
    refine completes_of_onlyField (f := comparatorTest ch false second) rfl (hf.onlyField rfl) ⟨?_, hf.onlyField rfl⟩
    rw [hf.di_self hx, Function.comp, DiCh.faulted_of_free (by exact hl) (by exact hs)]
    rfl
  · obtain ⟨f, hf, hfault, hcnt, hlvl, hvalid, hre⟩ := inputFaultClear_digital_of_cleared (m := s.m.tick t) hx hfound hl hleft
    refine completes_of_onlyField (f := inputFaultClear .digital ch) rfl (hf.onlyField rfl) ⟨?_, hf.onlyField rfl⟩
    rw [hf.di_self hx, Option.map_some, hfault, hcnt, hlvl, hvalid, hre]
  · have hrow := inputFaultClear_analogue_of_cleared (m := s.m.tick t) hx hfound hl hleft
    refine completes_of_onlyField (f := inputFaultClear .analogue ch) rfl ?_ ?_ <;> rw [hrow]
    · rfl
    · exact ⟨(modAt_get_self _ ch _).trans (congrArg (Option.map _) hx), rfl, rfl⟩
end

section
/-! SUPPORT. The encoder and the analogue inputs (R202 to R207, R212): what a track's edge, a conversion and a reference check
come to. -/

namespace Sys2Proof.Machine

/-! ### Edges (R202) -/

/-- The encoder after an edge to these levels of its tracks. -/
def Encoder.edged (now : Nat) (a b : Bool) (e : Encoder) : Encoder :=
  let dA := e.lastA != a
  let dB := e.lastB != b
  let illegal := dA && dB
  let overf := (dA && edgeShort now e.edgeA) || (dB && edgeShort now e.edgeB)
  let step := (quadPhase a b + 4 - quadPhase e.lastA e.lastB) % 4
  let y := { e with
    lastA := a, lastB := b
    edgeA := if dA then some now else e.edgeA, edgeB := if dB then some now else e.edgeB
    count := if illegal then e.count else if step = 1 then e.count + 1 else if step = 3 then e.count - 1 else e.count
    illCnt := if illegal then satInc e.illCnt else e.illCnt
    illAt := if illegal then now :: e.recentIllegal now else e.illAt
    overAt := if overf then some now else e.overAt
    overfreq := e.overfreq || overf }
  { y with illegal := y.illegal || decide (2 ≤ (y.recentIllegal now).length) }

theorem encoderEdge_of_runs {m : Mach} (hrun : m.fieldRuns = true) (henc : diEnc m 46 = true) (a b : Bool) :
    encoderEdge a b m =
      if (m.field.enc.edged m.now a b).illegal = true ∨ (m.field.enc.edged m.now a b).overfreq = true then
        (m.updEnc (Encoder.edged m.now a b)).encInvalid.updEnc (fun e => { e with condAt := m.now })
      else m.updEnc (Encoder.edged m.now a b) :=
  if_neg (by rw [hrun, henc]; decide)

/-- A quadrature step changes one track. -/
theorem quadPhase_step {a b c d : Bool}
    (h : (quadPhase a b + 4 - quadPhase c d) % 4 = 1 ∨ (quadPhase a b + 4 - quadPhase c d) % 4 = 3) : (c != a && d != b) = false := by
  revert h
  revert a b c d
  decide

/-- A legal step with no edge and no illegal step before it makes neither condition. -/
theorem Encoder.edged_of_step {e : Encoder} {a b : Bool} (now : Nat) (hi : e.illegal = false) (ho : e.overfreq = false)
    (hA : e.edgeA = none) (hB : e.edgeB = none) (hnone : e.illAt = []) (hstep : (e.lastA != a && e.lastB != b) = false) :
    (e.edged now a b).illegal = false ∧ (e.edged now a b).overfreq = false := by
  simp [Encoder.edged, Encoder.recentIllegal, edgeShort, hi, ho, hA, hB, hnone, hstep]

theorem encoderEdge_of_step {m : Mach} {a b : Bool} (hrun : m.fieldRuns = true) (henc : diEnc m 46 = true)
    (hi : m.field.enc.illegal = false) (ho : m.field.enc.overfreq = false) (hA : m.field.enc.edgeA = none)
    (hB : m.field.enc.edgeB = none) (hnone : m.field.enc.illAt = [])
    (hstep : (m.field.enc.lastA != a && m.field.enc.lastB != b) = false) :
    encoderEdge a b m = m.updEnc (Encoder.edged m.now a b) := by
  obtain ⟨hill, hover⟩ := Encoder.edged_of_step m.now hi ho hA hB hnone hstep
  rw [encoderEdge_of_runs hrun henc, if_neg (by rw [hill, hover]; decide)]

/-- The count moves by a legal step. -/
theorem Encoder.edged_count {e : Encoder} {a b : Bool} (now : Nat) (hstep : (e.lastA != a && e.lastB != b) = false) :
    (e.edged now a b).count = if (quadPhase a b + 4 - quadPhase e.lastA e.lastB) % 4 = 1 then e.count + 1
      else if (quadPhase a b + 4 - quadPhase e.lastA e.lastB) % 4 = 3 then e.count - 1 else e.count := by
  unfold Encoder.edged
  dsimp only
  rw [hstep]
  exact if_neg Bool.false_ne_true

/-- A second step of both tracks at once within 10 ms (R203). -/
theorem Encoder.edged_of_second_illegal {e : Encoder} {a b : Bool} {now u : Nat} (hlast : e.illAt = [u]) (hu : now < u + 10000000)
    (ha : a ≠ e.lastA) (hb : b ≠ e.lastB) :
    (e.edged now a b).illegal = true ∧ (e.edged now a b).count = e.count ∧ (e.edged now a b).illCnt = satInc e.illCnt := by
  have hboth : (e.lastA != a && e.lastB != b) = true := Bool.and_eq_true_iff.2 ⟨bne_iff_ne.2 ha.symm, bne_iff_ne.2 hb.symm⟩
  unfold Encoder.edged
  dsimp only
  rw [hboth]
  simp [Encoder.recentIllegal, hlast, hu]

theorem DiCh.faulted_view {code ch : Nat} {xs : List DiCh} (latch : Bool) (now : Nat)
    (h : ∀ x ∈ xs, x.latch = false ∧ standsNow code x.found = false) (hch : ch < xs.length) :
    ((xs[ch]?).map (DiCh.faulted code latch now)).map (fun x => (x.valid, x.fault)) = some (false, BitVec.ofNat 4 code) := by
  obtain ⟨hl, hs⟩ := h _ (List.getElem_mem hch)
  rw [List.getElem?_eq_getElem hch, Option.map_some, DiCh.faulted_of_free hl hs]
  rfl

/-- The encoder and both its channels become invalid with code 0x8. -/
theorem Mach.encInvalid_reports (m : Mach) :
    Reports (((m.updEnc (fun e => { e with valid := false })).updDi 46 (DiCh.faulted 8 false m.now)).updDi 47
      (DiCh.faulted 8 false m.now)) m.encInvalid := by
  unfold Mach.encInvalid
  extract_lets m1 m2
  have hraised : Reports m m1 := Reports.ite (.raise ..) (.refl m)
  have hinvalid : Reports (m.updEnc (fun e => { e with valid := false })) m2 := hraised.updEnc _
  have h46 := Mach.diFault_reports 46 8 false m2
  rw [hinvalid.now] at h46
  have hfirst := (hinvalid.updDi 46 (DiCh.faulted 8 false m.now)).trans h46
  have h47 := Mach.diFault_reports 47 8 false (m2.diFault 46 8 false)
  rw [hfirst.now] at h47
  exact (hfirst.updDi 47 _).trans h47

/-! ### Validity again (R203, R212) -/

/-- A channel made valid without a finding. -/
def DiCh.validated (now : Nat) (x : DiCh) : DiCh := { x with found := [], valid := true, revalidate := false, levelAt := now }

theorem DiCh.validated_view {o : Option DiCh} (now : Nat) (h : o.any trackFree = true) :
    (o.map (DiCh.validated now)).map (fun x => (x.valid, x.fault)) = some (true, 0) := by
  cases o with
  | none => exact absurd h Bool.false_ne_true
  | some x => rfl

theorem encoderRevalid_reports {m : Mach} (hrun : m.fieldRuns = true) (henc : diEnc m 46 = true) (hv : m.field.enc.valid = false)
    (hi : m.field.enc.illegal = false) (ho : m.field.enc.overfreq = false) (hheld : m.field.fsm.held = false)
    (hdue : m.field.enc.condAt + 1000000000 ≤ m.now) (h46 : (m.field.di[46]?).any trackFree = true)
    (h47 : (m.field.di[47]?).any trackFree = true) :
    Reports (((m.updEnc (fun e => { e with valid := true })).updDi 46 (DiCh.validated m.now)).updDi 47 (DiCh.validated m.now))
      (encoderRevalid m) := by
  have hrow : encoderRevalid m = [46, 47].foldl (fun m ch => (m.updDi ch (fun x => { x with found := [] })).diValid ch)
      (m.updEnc (fun e => { e with valid := true })) := by
    refine if_pos ?_
    simp only [hrun, henc, hv, hi, ho, hheld, hdue, h46, h47, List.all_cons, List.all_nil]
    rfl
  rw [hrow]
  have hvalid : ∀ ch (x : Mach), Reports (x.updDi ch (DiCh.validated x.now))
      ((x.updDi ch (fun x => { x with found := [] })).diValid ch) :=
    fun ch x => (Reports.refl _).updDi_trans (Mach.diValid_reports ch _)
  have hfirst := hvalid 46 (m.updEnc (fun e => { e with valid := true }))
  refine (hfirst.updDi 47 _).trans ?_
  have hsecond := hvalid 47 (((m.updEnc (fun e => { e with valid := true })).updDi 46 (fun x => { x with found := [] })).diValid 46)
  rw [hfirst.now] at hsecond
  exact hsecond

theorem Reports.di_pair {a b : Mach} {j k : Nat} {f g : DiCh → DiCh} (hjk : j ≠ k) (h : Reports ((a.updDi j f).updDi k g) b) :
    b.field.di[j]? = (a.field.di[j]?).map f ∧ b.field.di[k]? = (a.field.di[k]?).map g := by
  rw [h.di]
  refine ⟨(modAt_get_of_ne g k j _ hjk).trans (modAt_get_self ..), (modAt_get_self ..).trans ?_⟩
  exact congrArg (Option.map g) (modAt_get_of_ne f j k _ hjk.symm)

/-! ### Analogue channels under a change -/

theorem Mach.updAi_congr {m : Mach} {ch : Nat} {x : AiCh} {f g : AiCh → AiCh} (h : m.field.ai[ch]? = some x) (hfg : f x = g x) :
    m.updAi ch f = m.updAi ch g :=
  congrArg (fun z => m.updField (fun x => { x with ai := z })) (modAt_congr h hfg)

theorem Mach.updAi_get_self {m : Mach} {ch : Nat} {x : AiCh} (f : AiCh → AiCh) (h : m.field.ai[ch]? = some x) :
    (m.updAi ch f).field.ai[ch]? = some (f x) := (modAt_get_self f ch m.field.ai).trans (congrArg (Option.map f) h)

theorem Reports.updAi_trans {a b c : Mach} {ch : Nat} {f g : AiCh → AiCh} (h : Reports (a.updAi ch f) b)
    (k : Reports (b.updAi ch g) c) : Reports (a.updAi ch (g ∘ f)) c := by
  have hboth : (a.updAi ch f).updAi ch g = a.updAi ch (g ∘ f) :=
    congrArg (fun z => a.updField (fun x => { x with ai := z })) (modAt_modAt f g ch a.field.ai)
  exact hboth ▸ (h.updAi ch g).trans k

theorem Reports.ai_self {a b : Mach} {ch : Nat} {f : AiCh → AiCh} {x : AiCh} (h : Reports (a.updAi ch f) b)
    (hx : a.field.ai[ch]? = some x) : b.field.ai[ch]? = some (f x) := by
  rw [h.ai]
  exact Mach.updAi_get_self f hx

theorem Reports.ai_other {a b : Mach} {ch k : Nat} {f : AiCh → AiCh} (h : Reports (a.updAi ch f) b) (hk : k ≠ ch) :
    b.field.ai[k]? = a.field.ai[k]? := by
  rw [h.ai]
  exact modAt_get_of_ne f ch k _ hk

/-- A channel that takes a fault finding. -/
def AiCh.takesFault (code : Nat) (latch : Bool) (x : AiCh) : AiCh :=
  { x with found := addFinding code x.found, valid := false, latch := latch, faults := satInc x.faults }

/-- One that is latched, or has the finding, stays. -/
def AiCh.faulted (code : Nat) (latch : Bool) (x : AiCh) : AiCh :=
  if x.latch = true ∨ standsNow code x.found = true then x else x.takesFault code latch

theorem AiCh.faulted_of_free {code : Nat} {x : AiCh} (hl : x.latch = false) (hs : standsNow code x.found = false) (latch : Bool) :
    x.faulted code latch = x.takesFault code latch := if_neg (by rw [hl, hs]; decide)

theorem Mach.aiFault_reports (ch code : Nat) (latch : Bool) (m : Mach) :
    Reports (m.updAi ch (AiCh.faulted code latch)) (m.aiFault ch code latch) := by
  have kept : modAt (AiCh.faulted code latch) ch m.field.ai = m.field.ai → m.updAi ch (AiCh.faulted code latch) = m :=
    congrArg (fun z => m.updField (fun x => { x with ai := z }))
  unfold Mach.aiFault
  split
  next hnone =>
    rw [kept (modAt_of_none hnone)]
    exact .refl m
  next x hx =>
    split
    next hkept =>
      have hkeeps : x.faulted code latch = x := if_pos hkept
      rw [kept (modAt_of_fixed hx hkeeps)]
      exact .refl m
    next hfree =>
      have htakes : x.faulted code latch = x.takesFault code latch := if_neg hfree
      rw [Mach.updAi_congr hx htakes]
      exact (Reports.ite (.raise ..) (.refl _)).trans (.noteIn ..)

/-- A channel whose conditions of some codes are absent. -/
def AiCh.ended (codes : List Nat) (now : Nat) (x : AiCh) : AiCh := { x with found := endFindings codes now x.found }

/-- Three results in range make a channel without a fault valid; one that is valid stays so. -/
theorem Mach.aiInRange_reports {ch : Nat} {x : AiCh} {m : Mach} (hx : m.field.ai[ch]? = some x) (hfound : x.found = [])
    (hl : x.latch = false) (hu : x.unusable = false) (hheld : m.field.fsm.held = false) (hok : 3 ≤ x.okRun) :
    ∃ f : AiCh → AiCh, Reports (m.updAi ch f) (m.aiInRange ch) ∧
      (f x).code = x.code ∧ (f x).found = [] ∧ (f x).valid = true ∧ (f x).group = x.group := by
  have hended : (x.ended [1, 2] m.now).found = [] := by rw [AiCh.ended, hfound]; rfl
  have hget : (m.aiGone ch [1, 2]).field.ai[ch]? = some (x.ended [1, 2] m.now) := Mach.updAi_get_self _ hx
  unfold Mach.aiInRange
  dsimp only
  rw [hget]
  dsimp only
  split
  next => exact ⟨_, (Reports.refl (m.aiGone ch [1, 2])).updAi_trans (.raise ..), rfl, hended, rfl, rfl⟩
  next hnot =>
    have hvalid : x.valid = true := by
      by_contra hv
      rw [Bool.not_eq_true] at hv
      refine hnot ?_
      rw [hended]
      simp [AiCh.ended, hv, hl, hu, hok, show (m.aiGone ch [1, 2]).field.fsm.held = false from hheld]
    exact ⟨AiCh.ended [1, 2] m.now, .refl _, rfl, hended, hvalid, rfl⟩

/-! ### Conversions (R204, R205) -/

theorem satOf_of_lt {w n : Nat} (h : n < 2 ^ w) : satOf w n = BitVec.ofNat w n := if_pos h

/-- A channel after a conversion. -/
def AiCh.converted (code now : Nat) (x : AiCh) : AiCh :=
  { x with
    code := satOf 16 code, group := x.group.complete, convAt := some now
    lowRun := if code < 7200 then x.lowRun + 1 else 0, highRun := if 42000 < code then x.highRun + 1 else 0
    okRun := if (if code < 7200 then x.lowRun + 1 else 0) = 0 ∧ (if 42000 < code then x.highRun + 1 else 0) = 0 then x.okRun + 1
      else 0 }

/-- What the runs of a channel say of a conversion, on a module that has taken it. -/
def judgeConversion (ch : Nat) (y : AiCh) (m : Mach) : Mach :=
  let m := if y.lowRun ≠ 0 then m.aiGone ch [2] else if y.highRun ≠ 0 then m.aiGone ch [1] else m
  if 3 ≤ y.lowRun then m.aiFault ch 1 false else if 3 ≤ y.highRun then m.aiFault ch 2 false
    else if y.lowRun = 0 ∧ y.highRun = 0 then m.aiInRange ch else m

theorem analogueConversion_of_runs {ch code : Nat} {x : AiCh} {m : Mach} (hrun : m.fieldRuns = true) (hx : m.field.ai[ch]? = some x) :
    analogueConversion ch code m =
      (judgeConversion ch (x.converted code m.now) (m.updAi ch (AiCh.converted code m.now))).aiSeen ch := by
  have htaken : m.updAi ch (AiCh.converted code m.now) = m.updAi ch (fun y => { y with
      code := satOf 16 code, group := y.group.complete, convAt := some m.now, lowRun := (x.converted code m.now).lowRun
      highRun := (x.converted code m.now).highRun
      okRun := if (x.converted code m.now).lowRun = 0 ∧ (x.converted code m.now).highRun = 0 then y.okRun + 1 else 0 }) :=
    Mach.updAi_congr hx rfl
  unfold analogueConversion
  rw [hx]
  dsimp only
  rw [if_neg (by rw [hrun]; decide), htaken]
  rfl

/-- Outside COMMISSION nothing is marked as seen. -/
theorem Mach.aiSeen_of_ne {m : Mach} (ch : Nat) (h : m.mod.mode ≠ .commission) : m.aiSeen ch = m := by
  unfold Mach.aiSeen
  split
  · rfl
  · exact if_neg (fun c => h c.1)

theorem analogueConversion_reports {ch code : Nat} {x : AiCh} {m : Mach} {f : AiCh → AiCh} (hrun : m.fieldRuns = true)
    (hx : m.field.ai[ch]? = some x) (hm : m.mod.mode ≠ .commission)
    (h : Reports ((m.updAi ch (AiCh.converted code m.now)).updAi ch f)
      (judgeConversion ch (x.converted code m.now) (m.updAi ch (AiCh.converted code m.now)))) :
    Reports (m.updAi ch (f ∘ AiCh.converted code m.now)) (analogueConversion ch code m) := by
  rw [analogueConversion_of_runs hrun hx, Mach.aiSeen_of_ne ch (fun e => hm ((congrArg ModState.mode h.mod).symm.trans e))]
  exact (Reports.refl _).updAi_trans h

/-- The third conversion in a row on one side of the range is a finding. -/
theorem judgeConversion_third_outside {ch k : Nat} {y : AiCh} {m : Mach}
    (h : 3 ≤ y.lowRun ∧ k = 1 ∨ y.lowRun = 0 ∧ 3 ≤ y.highRun ∧ k = 2) :
    Reports (m.updAi ch (AiCh.faulted k false ∘ AiCh.ended [3 - k] m.now)) (judgeConversion ch y m) := by
  have hrow : judgeConversion ch y m = (m.aiGone ch [3 - k]).aiFault ch k false := by
    unfold judgeConversion
    dsimp only
    rcases h with ⟨hlow, rfl⟩ | ⟨hlow, hhigh, rfl⟩
    · rw [if_pos hlow, if_pos (by omega)]
    · rw [if_neg (by omega), if_pos hhigh, if_neg (by omega), if_pos (by omega)]
  rw [hrow]
  exact (Reports.refl _).updAi_trans (Mach.aiFault_reports ch k false _)

/-- It makes the channel invalid with the side's code. -/
theorem analogueConversion_third_outside {ch code k : Nat} {x : AiCh} {m : Mach} (hrun : m.fieldRuns = true)
    (hx : m.field.ai[ch]? = some x) (hm : m.mod.mode ≠ .commission)
    (h : code < 7200 ∧ 2 ≤ x.lowRun ∧ k = 1 ∨ 42000 < code ∧ 2 ≤ x.highRun ∧ k = 2) (hl : x.latch = false)
    (hs : standsNow k x.found = false) :
    ∃ f : AiCh → AiCh, Reports (m.updAi ch f) (analogueConversion ch code m) ∧ (f x).code = satOf 16 code ∧
      (f x).fault = (BitVec.ofNat 4 k).setWidth 3 ∧ (f x).valid = false := by
  have hside : 3 ≤ (x.converted code m.now).lowRun ∧ k = 1 ∨
      (x.converted code m.now).lowRun = 0 ∧ 3 ≤ (x.converted code m.now).highRun ∧ k = 2 := by
    simp only [AiCh.converted]
    rcases h with ⟨hlow, hrow, hk⟩ | ⟨hhigh, hrow, hk⟩
    · exact .inl ⟨by rw [if_pos hlow]; omega, hk⟩
    · exact .inr ⟨if_neg (by omega), by rw [if_pos hhigh]; omega, hk⟩
  have hother : k ∉ [3 - k] := by simp only [List.mem_singleton]; omega
  refine ⟨_, analogueConversion_reports hrun hx hm (judgeConversion_third_outside hside), ?_⟩
  simp only [Function.comp]
  rw [AiCh.faulted_of_free (by exact hl) (by exact (standsNow_endFindings hother ..).trans hs)]
  exact ⟨rfl, rfl, rfl⟩

/-- The third conversion in range of a channel without a fault makes it valid. -/
theorem analogueConversion_third_inside {ch code : Nat} {x : AiCh} {m : Mach} (hrun : m.fieldRuns = true)
    (hx : m.field.ai[ch]? = some x) (hm : m.mod.mode ≠ .commission) (hlow : 7200 ≤ code) (hhigh : code ≤ 42000)
    (hok : 2 ≤ x.okRun) (hfound : x.found = []) (hl : x.latch = false) (hu : x.unusable = false) (hheld : m.field.fsm.held = false) :
    ∃ f : AiCh → AiCh, Reports (m.updAi ch f) (analogueConversion ch code m) ∧ (f x).code = satOf 16 code ∧ (f x).fault = 0 ∧
      (f x).valid = true ∧ (f x).group.ready = true := by
  have hnotLow : (x.converted code m.now).lowRun = 0 := if_neg (by omega)
  have hnotHigh : (x.converted code m.now).highRun = 0 := if_neg (by omega)
  have hthird : 3 ≤ (x.converted code m.now).okRun := by
    have h : (x.converted code m.now).okRun = x.okRun + 1 := if_pos ⟨hnotLow, hnotHigh⟩
    omega
  obtain ⟨f, hf, hcode, hnone, hvalid, hgroup⟩ := Mach.aiInRange_reports (m := m.updAi ch (AiCh.converted code m.now))
    (Mach.updAi_get_self _ hx) hfound hl hu hheld hthird
  have hrow : judgeConversion ch (x.converted code m.now) (m.updAi ch (AiCh.converted code m.now)) =
      (m.updAi ch (AiCh.converted code m.now)).aiInRange ch := by
    unfold judgeConversion
    rw [hnotLow, hnotHigh]
    rfl
  refine ⟨_, analogueConversion_reports hrun hx hm (by rw [hrow]; exact hf), hcode, ?_, hvalid, ?_⟩
  · exact congrArg (fun z => (newestCode z).setWidth 3) hnone
  · exact congrArg ResultGroup.ready hgroup

/-! ### Reference checks (R207) -/

/-- The nominal code of a reference, and whether a reading is off by more than 80 counts. -/
def refNominal (high : Bool) : Nat := if high then 40000 else 8000
def refOff (high : Bool) (r : Nat) : Bool := decide (r + 80 < refNominal high) || decide (refNominal high + 80 < r)

/-- The failures of a reference in a row, with one reading more. -/
def failsAfter (high : Bool) (r : Nat) (x : AiCh) : Nat := if refOff high r then (if high then x.failHi else x.failLo) + 1 else 0

/-- A channel after a reference check. -/
def AiCh.checked (high : Bool) (r now : Nat) (x : AiCh) : AiCh :=
  if high then { x with refHi := satOf 16 r, failHi := failsAfter high r x, convAt := some now }
  else { x with refLo := satOf 16 r, failLo := failsAfter high r x, convAt := some now }

theorem analogueReferenceCheck_of_runs {ch : Nat} {x : AiCh} {m : Mach} (hrun : m.fieldRuns = true) (hx : m.field.ai[ch]? = some x)
    (high : Bool) (r : Nat) :
    analogueReferenceCheck ch high r m =
      (let y := if refOff high r then (m.updAi ch (AiCh.checked high r m.now)).raise (fieldPath 3) 2
        else m.updAi ch (AiCh.checked high r m.now)
      if 2 ≤ failsAfter high r x then y.aiFault ch 3 true else y) := by
  have hchecked : m.updAi ch (AiCh.checked high r m.now) = m.updAi ch (fun y =>
      if high then { y with refHi := satOf 16 r, failHi := failsAfter high r x, convAt := some m.now }
      else { y with refLo := satOf 16 r, failLo := failsAfter high r x, convAt := some m.now }) := Mach.updAi_congr hx rfl
  unfold analogueReferenceCheck
  rw [hx, hchecked]
  exact if_neg (by rw [hrun]; decide)

theorem analogueReferenceCheck_of_passed {ch r : Nat} {high : Bool} {x : AiCh} {m : Mach} (hrun : m.fieldRuns = true)
    (hx : m.field.ai[ch]? = some x) (hr : refOff high r = false) :
    analogueReferenceCheck ch high r m = m.updAi ch (AiCh.checked high r m.now) := by
  rw [analogueReferenceCheck_of_runs hrun hx, failsAfter, hr]
  rfl

/-- The second failure of a reference in a row latches code 0x3. -/
theorem analogueReferenceCheck_reports_of_second_failure {ch r : Nat} {high : Bool} {x : AiCh} {m : Mach} (hrun : m.fieldRuns = true)
    (hx : m.field.ai[ch]? = some x) (hr : refOff high r = true) (hfail : 1 ≤ (if high then x.failHi else x.failLo)) :
    Reports (m.updAi ch (AiCh.faulted 3 true ∘ AiCh.checked high r m.now)) (analogueReferenceCheck ch high r m) := by
  have hsecond : 2 ≤ failsAfter high r x := by rw [failsAfter, hr, if_pos rfl]; omega
  rw [analogueReferenceCheck_of_runs hrun hx, hr]
  dsimp only
  rw [if_pos hsecond]
  exact Reports.updAi_trans (.raise ..) (Mach.aiFault_reports ch 3 true _)

theorem AiCh.checked_kept (high : Bool) (r now : Nat) (x : AiCh) :
    (x.checked high r now).latch = x.latch ∧ (x.checked high r now).found = x.found := by
  cases high <;> exact ⟨rfl, rfl⟩

end Sys2Proof.Machine

open Sys2Proof Sys2Proof.Machine in
/-- Settles O22: each command changes the encoder or its channel as the lemmas above say, and only reports beside. -/
theorem encoderAndAnalogue : Obligations.EncoderAndAnalogue := by
  unfold Obligations.EncoderAndAnalogue
  refine ⟨fun s a b t hrun henc hi ho hA hB hnone hone => ?_, fun s a b t hrun henc hi ho hA hB hnone hthree => ?_,
    fun s a b t u hrun henc hlast hu ha hb hfree hlen => ?_, fun s t hrun henc => ?_,
    fun s t hrun henc hv hi ho hheld hdue h46 h47 => ?_,
    fun s ch code t x hrun hx hcode hlow hl hs hm => ?_, fun s ch code t x hrun hx hcode hword hhigh hl hs hm => ?_,
    fun s ch code t x hrun hx hlow hhigh hok hfound hl hu hheld hm => ?_,
    fun s ch r t high x hrun hx hle hge => ?_, fun s ch r t high x hrun hx hoff hfail hl hs => ?_⟩
  · have hstep := quadPhase_step (.inl hone)
    have hrow := encoderEdge_of_step (m := s.m.tick t) hrun henc hi ho hA hB hnone hstep
    refine completes_of_onlyField (f := encoderEdge a b) rfl ?_ ?_ <;> rw [hrow]
    · rfl
    · exact ⟨(Encoder.edged_count _ hstep).trans (if_pos hone), rfl, rfl, rfl, rfl⟩
  · have hstep := quadPhase_step (.inr hthree)
    have hrow := encoderEdge_of_step (m := s.m.tick t) hrun henc hi ho hA hB hnone hstep
    refine completes_of_onlyField (f := encoderEdge a b) rfl ?_ ?_ <;> rw [hrow]
    · rfl
    · refine ⟨(Encoder.edged_count _ hstep).trans ?_, rfl, rfl, rfl⟩
      rw [hthree]
      rfl
  · obtain ⟨hill, hcount, hcnt⟩ := Encoder.edged_of_second_illegal (e := s.m.field.enc) hlast hu ha hb
    have hrow := (encoderEdge_of_runs (m := s.m.tick t) hrun henc a b).trans (if_pos (.inl hill))
    have hf := (Mach.encInvalid_reports ((s.m.tick t).updEnc (Encoder.edged (s.m.tick t).now a b))).updEnc
      (fun e => { e with condAt := (s.m.tick t).now })
    have hfaulted := fun ch (h : ch < 48) =>
      DiCh.faulted_view (code := 8) false (max s.m.now t) hfree (Nat.lt_of_lt_of_le h hlen)
    rw [← hrow] at hf
    obtain ⟨h46, h47⟩ := Reports.di_pair (j := 46) (k := 47)
      (a := ((s.m.tick t).updEnc (Encoder.edged (s.m.tick t).now a b)).updEnc (fun e => { e with
        valid := false, condAt := (s.m.tick t).now })) (by decide) hf
    refine completes_of_onlyField (f := encoderEdge a b) rfl (hf.onlyField rfl)
      ⟨?_, ?_, ?_, (congrArg _ h46).trans (hfaulted 46 (by decide)), (congrArg _ h47).trans (hfaulted 47 (by decide)),
        hf.onlyField rfl⟩
    all_goals rw [hf.enc]
    · exact hcount
    · exact hcnt
    · rfl
  · have hrow : encoderSpeedUpdate (s.m.tick t) = _ := if_neg (by rw [hrun, show diEnc (s.m.tick t) 46 = true from henc]; decide)
    refine completes_of_onlyField (f := encoderSpeedUpdate) rfl ?_ ?_ <;> rw [hrow]
    · rfl
    · exact ⟨rfl, rfl, rfl, rfl, rfl⟩
  · have hf := encoderRevalid_reports (m := s.m.tick t) hrun henc hv hi ho hheld hdue h46 h47
    obtain ⟨g46, g47⟩ := Reports.di_pair (j := 46) (k := 47) (by decide) hf
    refine completes_of_onlyField (f := encoderRevalid) rfl (hf.onlyField rfl)
      ⟨by rw [hf.enc]; rfl, (congrArg _ g46).trans (DiCh.validated_view _ h46), (congrArg _ g47).trans (DiCh.validated_view _ h47),
        hf.onlyField rfl⟩
  · obtain ⟨f, hf, hcoded, hfault, hvalid⟩ :=
      analogueConversion_third_outside (m := s.m.tick t) hrun hx hm (.inl ⟨hcode, hlow, rfl⟩) hl hs
    refine completes_of_onlyField (f := analogueConversion ch code) rfl (hf.onlyField rfl)
      ⟨?_, hf.onlyField rfl, fun k => hf.ai_other⟩
    rw [hf.ai_self hx, Option.map_some, hcoded, hfault, hvalid, satOf_of_lt (by omega)]
    rfl
  · obtain ⟨f, hf, hcoded, hfault, hvalid⟩ :=
      analogueConversion_third_outside (m := s.m.tick t) hrun hx hm (.inr ⟨hcode, hhigh, rfl⟩) hl hs
    refine completes_of_onlyField (f := analogueConversion ch code) rfl (hf.onlyField rfl) ⟨?_, hf.onlyField rfl⟩
    rw [hf.ai_self hx, Option.map_some, hcoded, hfault, hvalid, satOf_of_lt hword]
    rfl
  · obtain ⟨f, hf, hcoded, hfault, hvalid, hready⟩ :=
      analogueConversion_third_inside (m := s.m.tick t) hrun hx hm hlow hhigh hok hfound hl hu hheld
    refine completes_of_onlyField (f := analogueConversion ch code) rfl (hf.onlyField rfl) ⟨?_, hf.onlyField rfl⟩
    rw [hf.ai_self hx, Option.map_some, hcoded, hfault, hvalid, hready, satOf_of_lt (by omega)]
  · have hpass : refOff high r = false :=
      Bool.or_eq_false_iff.2 ⟨decide_eq_false (Nat.not_lt.2 hle), decide_eq_false (Nat.not_lt.2 hge)⟩
    have hrow := analogueReferenceCheck_of_passed (m := s.m.tick t) hrun hx hpass
    refine completes_of_onlyField (f := analogueReferenceCheck ch high r) rfl ?_ ?_ <;> rw [hrow]
    · rfl
    · refine ⟨(Mach.updAi_get_self (m := s.m.tick t) _ hx).trans ?_, rfl, rfl⟩
      rw [AiCh.checked, failsAfter, hpass]
      rfl
  · have hbad : refOff high r = true := Bool.or_eq_true_iff.2 (hoff.imp decide_eq_true decide_eq_true)
    have hf := analogueReferenceCheck_reports_of_second_failure (m := s.m.tick t) hrun hx hbad hfail
    obtain ⟨hlatch, hfound⟩ := AiCh.checked_kept high r (s.m.tick t).now x
    refine completes_of_onlyField (f := analogueReferenceCheck ch high r) rfl (hf.onlyField rfl) ⟨?_, hf.onlyField rfl⟩
    rw [hf.ai_self hx, Function.comp, AiCh.faulted_of_free (hlatch.trans hl) ((congrArg (standsNow 3) hfound).trans hs)]
    rfl
end

section
/-! SUPPORT. The safety outputs under a hold of the field supply (R228, R234): what stays in the field section while outputs are forced
off and their poles follow their drive. -/

namespace Sys2Proof.Machine

/-! ### Outputs alone -/

/-- In the field section nothing differs but the safety outputs, as many as before, and the notices. -/
def OutputsOnly (a b : Mach) : Prop :=
  ∃ xs q, b.field = { a.field with out := xs, fifo := q } ∧ xs.length = a.field.out.length

theorem OutputsOnly.refl (m : Mach) : OutputsOnly m m := ⟨_, _, rfl, rfl⟩

theorem OutputsOnly.trans {a b c : Mach} (h : OutputsOnly a b) (k : OutputsOnly b c) : OutputsOnly a c := by
  obtain ⟨xs, q, hb, hxs⟩ := h
  obtain ⟨ys, r, hc, hys⟩ := k
  rw [hb] at hc hys
  exact ⟨ys, r, hc, hys.trans hxs⟩

theorem OutputsOnly.ite {c : Prop} [Decidable c] {m a b : Mach} (h : OutputsOnly m a) (k : OutputsOnly m b) :
    OutputsOnly m (if c then a else b) := by
  split <;> assumption

theorem OutputsOnly.foldl {f : Mach → Nat → Mach} (hf : ∀ m n, OutputsOnly m (f m n)) (ns : List Nat) (m : Mach) :
    OutputsOnly m (ns.foldl f m) :=
  foldl_stays .refl .trans hf ns m

theorem OutputsOnly.updOut (n : Nat) (f : OutCh → OutCh) (m : Mach) : OutputsOnly m (m.updOut n f) :=
  ⟨_, _, rfl, modAt_length ..⟩
theorem OutputsOnly.raise (path : List Nat) (bit : Nat) (m : Mach) : OutputsOnly m (m.raise path bit) := .refl m

theorem OutputsOnly.noteOut (n : Nat) (srcs : List Nat) (m : Mach) : OutputsOnly m (m.noteOut n srcs) := by
  cases srcs <;> exact ⟨_, _, rfl, rfl⟩

theorem OutputsOnly.length {a b : Mach} (h : OutputsOnly a b) : b.field.out.length = a.field.out.length := by
  obtain ⟨xs, q, hb, hxs⟩ := h
  rw [hb]
  exact hxs

theorem Mach.setPole_outputsOnly (n : Nat) (p : Pole) (m : Mach) : OutputsOnly m (m.setPole n p) := by
  unfold Mach.setPole
  split
  · exact .refl m
  · extract_lets d b m1
    have hband : OutputsOnly m m1 := .ite (.refl m) (.refl m)
    cases p
    · exact .ite hband (hband.trans (.updOut ..))
    · exact .ite hband (hband.trans (.updOut ..))

theorem Mach.refreshPoles_outputsOnly (m : Mach) : OutputsOnly m m.refreshPoles :=
  .foldl (fun m n => (m.setPole_outputsOnly n .pos).trans (Mach.setPole_outputsOnly n .neg _)) _ m

theorem Mach.outAvail_outputsOnly (n : Nat) (m : Mach) : OutputsOnly m (m.outAvail n) := by
  unfold Mach.outAvail
  split
  · exact .refl m
  · refine .ite (.refl m) (.ite (.updOut ..) ?_)
    exact (OutputsOnly.updOut ..).trans (.ite (.refl _) (.noteOut ..))

theorem Mach.pulseJudged_outputsOnly (n : Nat) (pass : Bool) (m : Mach) : OutputsOnly m (m.pulseJudged n pass) := by
  unfold Mach.pulseJudged
  dsimp only
  split
  · exact .ite ((OutputsOnly.updOut ..).trans (Mach.outAvail_outputsOnly ..)) (.updOut ..)
  · exact .updOut ..

theorem Mach.pulseDiscard_outputsOnly (n start : Nat) (p : Pole) (m : Mach) : OutputsOnly m (m.pulseDiscard n start p) :=
  (OutputsOnly.updOut ..).trans (.noteOut ..)

theorem Mach.takeFault_outputsOnly (n code : Nat) (m : Mach) : OutputsOnly m (m.takeFault n code) := by
  unfold Mach.takeFault
  split
  · exact .refl m
  · dsimp only
    refine .ite (.refl m) (.trans ?_ (.noteOut ..))
    refine OutputsOnly.trans ?_ (.ite (.raise ..) (.refl _))
    refine OutputsOnly.trans ?_ (.ite (.raise ..) (.refl _))
    refine OutputsOnly.trans ?_ (.ite (.raise ..) (.refl _))
    refine OutputsOnly.trans ?_ ((Mach.setPole_outputsOnly n .pos _).trans (Mach.setPole_outputsOnly n .neg _))
    exact (OutputsOnly.updOut n _ m).trans (.ite (.refl _) (.refl _))

theorem Mach.keepDark_outputsOnly (n : Nat) (x : OutCh) (m : Mach) : OutputsOnly m (m.keepDark n x) :=
  (Mach.pulseJudged_outputsOnly n x.pendOk m).trans (.ite (.refl _) ((Mach.takeFault_outputsOnly n 4 _).trans (.updOut ..)))

theorem Mach.forcedOff_outputsOnly (n : Nat) (m : Mach) : OutputsOnly m (m.forcedOff n) := by
  unfold Mach.forcedOff
  split
  · exact .refl m
  · split
    · exact .refl m
    · exact .ite (Mach.keepDark_outputsOnly ..) (Mach.pulseDiscard_outputsOnly ..)
    · exact (Mach.pulseDiscard_outputsOnly ..).trans (.updOut ..)

/-! ### A hold at the outputs (R234) -/

/-- An output that a hold has switched off. -/
def OutCh.heldOff (x : OutCh) : Prop := x.avail = false ∧ x.armed = false ∧ x.inhibit = true

/-- An output that a hold switches off. -/
def OutCh.holdOff (x : OutCh) : OutCh :=
  let x := { x with armed := false, inhibit := true, avail := false, repeatDue := none }
  if x.isFault || x.latch || x.unusable then x else { x with fault := 7 }

theorem OutCh.holdOff_heldOff (x : OutCh) : x.holdOff.heldOff := by
  unfold OutCh.holdOff
  dsimp only
  split <;> exact ⟨rfl, rfl, rfl⟩

/-- A hold at one output. -/
def holdOutput (m : Mach) (n : Nat) : Mach :=
  match m.field.out[n]? with
  | none => m
  | some x => if x.avail then ((m.updOut n OutCh.holdOff).raise (fieldPath 2) 0).noteOut n [0x40] else m.updOut n OutCh.holdOff

theorem Mach.outHold_eq (m : Mach) :
    m.outHold = ((List.range 24).foldl holdOutput ((List.range 24).foldl (fun m n => m.forcedOff n) m)).refreshPoles := rfl

theorem holdOutput_reports (m : Mach) (n : Nat) : Reports (m.updOut n OutCh.holdOff) (holdOutput m n) := by
  unfold holdOutput
  split
  next hnone =>
    have hkept : m.updOut n OutCh.holdOff = m := congrArg (fun z => m.updField (fun x => { x with out := z })) (modAt_of_none hnone)
    rw [hkept]
    exact .refl m
  next => exact .ite ((Reports.raise ..).trans (.noteOut ..)) (.refl _)

theorem Mach.outHold_butField (m : Mach) : ButField m m.outHold := by
  rw [Mach.outHold_eq]
  refine .trans (.trans (ButField.foldl _ (fun m n => m.forcedOff_butField n) _ m) (ButField.foldl _ (fun m n => ?_) _ _))
    (Mach.refreshPoles_butField _)
  obtain ⟨i, q, h⟩ := holdOutput_reports m n
  rw [h]
  rfl

theorem holdOutput_outputsOnly (m : Mach) (n : Nat) : OutputsOnly m (holdOutput m n) := by
  obtain ⟨i, q, h⟩ := holdOutput_reports m n
  rw [h]
  exact ⟨_, _, rfl, modAt_length ..⟩

theorem Mach.outHold_outputsOnly (m : Mach) : OutputsOnly m m.outHold := by
  rw [Mach.outHold_eq]
  exact (OutputsOnly.trans (.foldl (fun m n => m.forcedOff_outputsOnly n) _ m) (.foldl holdOutput_outputsOnly _ _)).trans
    (Mach.refreshPoles_outputsOnly _)

theorem Mach.setPole_out (n : Nat) (p : Pole) (m : Mach) :
    ∃ f : OutCh → OutCh, (∀ x, x.heldOff → (f x).heldOff) ∧ (m.setPole n p).field.out = modAt f n m.field.out := by
  have hdriven : ∀ (now : Nat) (x : OutCh), x.heldOff → (x.driven now).heldOff := by
    intro now x h
    unfold OutCh.driven
    dsimp only
    split <;> exact h
  have hkept : ∃ f : OutCh → OutCh, (∀ x, x.heldOff → (f x).heldOff) ∧ m.field.out = modAt f n m.field.out :=
    ⟨id, fun _ h => h, by
      cases hx : m.field.out[n]? with
      | none => exact (modAt_of_none hx).symm
      | some x => exact (modAt_of_fixed hx rfl).symm⟩
  unfold Mach.setPole
  split
  · exact hkept
  · extract_lets d b m1
    have hband : m1.field = m.field := by unfold m1; split <;> rfl
    cases p
    all_goals
      dsimp only
      split
      · rw [hband]
        exact hkept
      · exact ⟨_, fun x h => hdriven m1.now _ (by exact h), congrArg (fun z => modAt _ n (Field.out z)) hband⟩

theorem refreshPoles_stepsAt : StepsAt (fun m => m.field.out) (fun x y => x.heldOff → y.heldOff)
    (fun m n => (m.setPole n .pos).setPole n .neg) := by
  intro m n
  obtain ⟨f, hf, hpos⟩ := m.setPole_out n .pos
  obtain ⟨g, hg, hneg⟩ := (m.setPole n .pos).setPole_out n .neg
  refine ⟨g ∘ f, fun x h => hg _ (hf x h), ?_⟩
  show ((m.setPole n .pos).setPole n .neg).field.out = _
  rw [hneg, hpos, modAt_modAt]

/-- Poles that follow their drive leave switched-off outputs switched off. -/
theorem Mach.refreshPoles_heldOff {m : Mach} (hlen : m.field.out.length = 24) (h : ∀ x ∈ m.field.out, x.heldOff) :
    ∀ y ∈ m.refreshPoles.field.out, y.heldOff := by
  unfold Mach.refreshPoles
  intro y hy
  obtain ⟨x, hx, hxy⟩ := refreshPoles_stepsAt.all hlen y hy
  exact hxy (h x hx)

/-- Every output is unavailable, not armed and inhibited after a hold. -/
theorem Mach.outHold_heldOff {m : Mach} (hlen : m.field.out.length = 24) : ∀ y ∈ m.outHold.field.out, y.heldOff := by
  have hforced := (OutputsOnly.foldl (fun m n => m.forcedOff_outputsOnly n) (List.range 24) m).length.trans hlen
  have hheld := (OutputsOnly.foldl holdOutput_outputsOnly (List.range 24) _).length.trans hforced
  have hsteps : StepsAt (fun m => m.field.out) (fun _ y => y.heldOff) holdOutput :=
    fun m n => ⟨OutCh.holdOff, OutCh.holdOff_heldOff, (holdOutput_reports m n).out⟩
  rw [Mach.outHold_eq]
  refine Mach.refreshPoles_heldOff hheld (fun x hx => ?_)
  obtain ⟨_, -, hoff⟩ := hsteps.all hforced x hx
  exact hoff

theorem Mach.outRelease_butField (m : Mach) : ButField m m.outRelease :=
  ButField.foldl _ (fun _ n => (ButField.updOut ..).trans (Mach.outAvail_butField n _)) _ m

theorem Mach.outRelease_outputsOnly (m : Mach) : OutputsOnly m m.outRelease :=
  .foldl (fun _ n => (OutputsOnly.updOut ..).trans (Mach.outAvail_outputsOnly n _)) _ m

end Sys2Proof.Machine
end

section
/-! SUPPORT. The field supply monitor (R190, R191, R208 to R210, R217): what it publishes, its conditions, holds and release, and the
switching threshold. -/

namespace Sys2Proof.Machine

/-! ### Its commands -/

/-- A command of the monitor completes with what its function makes of the module, whatever a test that runs notes of it. -/
theorem completes_of_fsmRun {i : Instr} {s : State} {P : Mach → Prop} {t : Nat} {f : Mach → Mach} (he : exec i s = fsmRun t f s)
    (hm : (f (s.m.tick t)).mod.mode = s.m.mod.mode) (hp : ∀ b, P { f (s.m.tick t) with bench := b }) : Completes i s P := by
  refine completes_of_mode_eq _ (he.trans rfl) ?_ ?_
  · dsimp only
    split <;> exact hm
  · dsimp only
    split
    · exact hp _
    · exact hp (f (s.m.tick t)).bench

/-- The held state as published while it is not frozen (R209). -/
theorem Mach.publishFsm_of_thawed {m : Mach} (h : m.field.fsm.frozen = false) :
    m.publishFsm = (m.updFsm (fun x => { x with published := x.held, pubAt := some m.now })).updLanes (fun _ x =>
      { x with fsmHeld := m.field.fsm.held, fsmAt := some m.now }) := by
  unfold Mach.publishFsm
  rw [h]
  rfl

theorem fieldSupplySample_of_runs {v : Int} {m : Mach} (hp : m.power.powered = true) (hv : 800 ≤ v) :
    fieldSupplySample v m =
      ((m.updFsm (Fsm.sample v m.now)).updField (fun x => { x with ps := x.ps.map (PsCh.supply false) })).publishFsm := by
  have hlive : decide (v < 800) = false := decide_eq_false (Int.not_lt.2 hv)
  have hruns : ∀ f : List PsCh → List PsCh,
      ((m.updFsm (Fsm.sample v m.now)).updField (fun x => { x with ps := f x.ps })).fieldRuns = true :=
    fun _ => Bool.and_eq_true_iff.2 ⟨hp, decide_eq_true hv⟩
  unfold fieldSupplySample
  rw [if_neg (by rw [hp]; decide), hlive]
  dsimp only
  rw [Bool.false_and, if_neg Bool.false_ne_true, if_pos (hruns (List.map (PsCh.supply false)))]

/-! ### Conditions (R208) -/

theorem stood_of_le {now ns u : Nat} {from0 : Option Nat} (hu : from0 = some u) (h : u + ns ≤ now) : stood now from0 ns = true := by
  rw [hu]
  exact decide_eq_true h

theorem fsLow_reports {m : Mach} {u : Nat} (hlow : m.field.fsm.low = false) (hu : m.field.fsm.lowFrom = some u)
    (hdue : u + 900000 ≤ m.now) : Reports (m.updFsm (fun x => { x with low := true })) (fsLow m) := by
  unfold fsLow
  dsimp only
  rw [if_pos (Bool.and_eq_true_iff.2 ⟨decide_eq_true hlow, stood_of_le hu hdue⟩)]
  exact (Reports.raise ..).trans (.postField ..)

/-- FS_LOW_CLEAR on a module. -/
def clearLow (m : Mach) : Mach :=
  if stood m.now m.field.fsm.okFrom 900000 then m.updFsm (fun x => { x with low := false }) else m

/-! ### Holds (R208, R234) -/

/-- Nothing differs but the channels of the inputs, the causes and the notices. -/
def InputsOnly (a b : Mach) : Prop :=
  ∃ i q d e, b = { a with irq := i, field := { a.field with fifo := q, di := d, ai := e } }

theorem InputsOnly.refl (m : Mach) : InputsOnly m m := ⟨_, _, _, _, rfl⟩

theorem InputsOnly.trans {a b c : Mach} (h : InputsOnly a b) (k : InputsOnly b c) : InputsOnly a c := by
  obtain ⟨i, q, d, e, rfl⟩ := h
  obtain ⟨j, r, f, g, rfl⟩ := k
  exact ⟨j, r, f, g, rfl⟩

theorem InputsOnly.foldl {f : Mach → Nat → Mach} (hf : ∀ m n, InputsOnly m (f m n)) (ns : List Nat) (m : Mach) :
    InputsOnly m (ns.foldl f m) :=
  foldl_stays .refl .trans hf ns m

theorem Reports.inputsOnly {m a b : Mach} (h : Reports a b) (ha : InputsOnly m a) : InputsOnly m b := by
  obtain ⟨i, q, d, e, rfl⟩ := ha
  obtain ⟨j, r, rfl⟩ := h
  exact ⟨j, r, d, e, rfl⟩

theorem InputsOnly.updDi (ch : Nat) (f : DiCh → DiCh) (m : Mach) : InputsOnly m (m.updDi ch f) := ⟨_, _, _, _, rfl⟩
theorem InputsOnly.updAi (ch : Nat) (f : AiCh → AiCh) (m : Mach) : InputsOnly m (m.updAi ch f) := ⟨_, _, _, _, rfl⟩

theorem aiFault_stepsAt (code : Nat) (latch : Bool) :
    StepsAt (fun m => m.field.ai) (fun x y => y = x.faulted code latch) (fun m ch => m.aiFault ch code latch) :=
  fun m ch => ⟨_, fun _ => rfl, (Mach.aiFault_reports ch code latch m).ai⟩

/-- Every digital, then every analogue input takes code 0x7. -/
def Mach.diHeld (m : Mach) : Mach := (List.range 48).foldl (fun m ch => m.diFault ch 7 false) m
def Mach.aiHeld (m : Mach) : Mach := (List.range 8).foldl (fun m ch => m.aiFault ch 7 false) m

theorem Mach.diHeld_inputsOnly (m : Mach) : InputsOnly m m.diHeld :=
  .foldl (fun m ch => (Mach.diFault_reports ch 7 false m).inputsOnly (.updDi ..)) _ m

theorem Mach.aiHeld_inputsOnly (m : Mach) : InputsOnly m m.aiHeld :=
  .foldl (fun m ch => (Mach.aiFault_reports ch 7 false m).inputsOnly (.updAi ..)) _ m

theorem Mach.diHeld_ai (m : Mach) : m.diHeld.field.ai = m.field.ai := by
  unfold Mach.diHeld
  exact Mach.foldl_keeps (fun m => m.field.ai) (fun m ch => (Mach.diFault_reports ch 7 false m).ai) _ m

theorem Mach.aiHeld_di (m : Mach) : m.aiHeld.field.di = m.field.di := by
  unfold Mach.aiHeld
  exact Mach.foldl_keeps (fun m => m.field.di) (fun m ch => (Mach.aiFault_reports ch 7 false m).di) _ m

/-- Code 0x7 leaves no channel valid whose latched or standing fault had it invalid. -/
theorem DiCh.faulted_invalid {code : Nat} {latch : Bool} {now : Nat} {x : DiCh}
    (h : x.latch = true ∨ standsNow code x.found = true → x.valid = false) : (x.faulted code latch now).valid = false := by
  unfold DiCh.faulted
  split
  next hkept => exact h hkept
  next => rfl

theorem AiCh.faulted_invalid {code : Nat} {latch : Bool} {x : AiCh}
    (h : x.latch = true ∨ standsNow code x.found = true → x.valid = false) : (x.faulted code latch).valid = false := by
  unfold AiCh.faulted
  split
  next hkept => exact h hkept
  next => rfl

theorem Mach.diHeld_invalid {m : Mach} (hlen : m.field.di.length = 48)
    (h : ∀ x ∈ m.field.di, x.latch = true ∨ standsNow 7 x.found = true → x.valid = false) :
    ∀ y ∈ m.diHeld.field.di, y.valid = false := by
  unfold Mach.diHeld
  intro y hy
  obtain ⟨x, hx, now, rfl⟩ := (diFault_stepsAt 7 false).all hlen y hy
  exact DiCh.faulted_invalid (h x hx)

theorem Mach.aiHeld_invalid {m : Mach} (hlen : m.field.ai.length = 8)
    (h : ∀ x ∈ m.field.ai, x.latch = true ∨ standsNow 7 x.found = true → x.valid = false) :
    ∀ y ∈ m.aiHeld.field.ai, y.valid = false := by
  unfold Mach.aiHeld
  intro y hy
  obtain ⟨x, hx, rfl⟩ := (aiFault_stepsAt 7 false).all hlen y hy
  exact AiCh.faulted_invalid (h x hx)

/-- What a hold of the field supply comes to. -/
structure FieldHeld (a b : Mach) : Prop where
  fsm : b.field.fsm = { a.field.fsm with
    sags := satInc a.field.fsm.sags, release := false, rangeFrom := none, published := true, pubAt := some a.now }
  di : a.field.di.length = 48 → (∀ x ∈ a.field.di, x.latch = true ∨ standsNow 7 x.found = true → x.valid = false) →
    ∀ y ∈ b.field.di, y.valid = false
  ai : a.field.ai.length = 8 → (∀ x ∈ a.field.ai, x.latch = true ∨ standsNow 7 x.found = true → x.valid = false) →
    ∀ y ∈ b.field.ai, y.valid = false
  enc : b.field.enc.valid = false
  out : a.field.out.length = 24 → ∀ y ∈ b.field.out, y.heldOff
  lanes : ∀ l, (b.lane l).fsmHeld = true ∧ (b.lane l).fsmAt = some a.now
  mode : b.mod.mode = a.mod.mode

theorem ButField.now {a b : Mach} (h : ButField a b) : b.now = a.now := by
  have k := congrArg Mach.now h; exact k

/-- The encoder and the monitor in a hold, with its notice. -/
def Mach.holdNoted (m : Mach) : Mach :=
  let m := if m.field.enc.valid then m.raise (fieldPath 5) 0 else m
  let m := m.updEnc (fun e => { e with valid := false })
  let m := (m.updFsm (fun x => { x with sags := satInc x.sags, release := false, rangeFrom := none })).raise (fieldPath 6) 1
  m.postField (mkNotice (evCode 5 0x47) (fieldPath 6) (m.field.fsm.volt.setWidth 32) 0 (some m.cycleNo) [ecSrc 0x47])

theorem Mach.fieldHold_eq (m : Mach) : m.fieldHold = m.diHeld.aiHeld.holdNoted.outHold.publishFsm := by
  unfold Mach.fieldHold Mach.holdNoted Mach.aiHeld Mach.diHeld
  rfl

theorem Mach.holdNoted_reports (m : Mach) :
    Reports ((m.updEnc (fun e => { e with valid := false })).updFsm (fun x =>
      { x with sags := satInc x.sags, release := false, rangeFrom := none })) m.holdNoted := by
  have hraised : Reports m (if m.field.enc.valid then m.raise (fieldPath 5) 0 else m) := .ite (.raise ..) (.refl m)
  exact ((hraised.updEnc _).updField _ (fun _ _ => rfl)).trans ((Reports.raise ..).trans (.postField ..))

/-- The hold before its outputs: the inputs invalid, the monitor's part noted, and nothing else. -/
theorem Mach.holdNoted_of_held (m : Mach) : ∃ i q d e,
    m.diHeld.aiHeld.holdNoted = { m with
      irq := i
      field := { m.field with
        fifo := q, di := d, ai := e, enc := { m.field.enc with valid := false }
        fsm := { m.field.fsm with sags := satInc m.field.fsm.sags, release := false, rangeFrom := none } } } ∧
    d = m.diHeld.field.di ∧ e = m.diHeld.aiHeld.field.ai := by
  have hdi := m.diHeld.aiHeld_di
  obtain ⟨i, q, d, e, h⟩ := m.diHeld_inputsOnly.trans (Mach.aiHeld_inputsOnly _)
  obtain ⟨j, r, hnoted⟩ := m.diHeld.aiHeld.holdNoted_reports
  rw [hnoted]
  rw [h] at hdi ⊢
  exact ⟨j, r, d, e, rfl, hdi, rfl⟩

theorem Mach.fieldHold_held {m : Mach} (hthawed : m.field.fsm.frozen = false) (hheld : m.field.fsm.held = true) :
    FieldHeld m m.fieldHold := by
  obtain ⟨i, q, d, e, hx, hd, he⟩ := m.holdNoted_of_held
  rw [Mach.fieldHold_eq, hx]
  generalize hy : ({ m with irq := i, field := _ } : Mach) = y
  obtain ⟨xs, p, hfield, -⟩ := y.outHold_outputsOnly
  have hlanes := y.outHold_butField.lanes
  have hmode := y.outHold_butField.mode
  have hnow := y.outHold_butField.now
  have hout : m.field.out.length = 24 → ∀ z ∈ y.outHold.field.out, z.heldOff :=
    fun hlen => Mach.outHold_heldOff (by rw [← hy]; exact hlen)
  generalize y.outHold = z at *
  subst hy
  have hfsm : z.field.fsm = { m.field.fsm with sags := satInc m.field.fsm.sags, release := false, rangeFrom := none } :=
    congrArg Field.fsm hfield
  have hdi : z.field.di = m.diHeld.field.di := (congrArg Field.di hfield).trans hd
  have hai : z.field.ai = m.diHeld.aiHeld.field.ai := (congrArg Field.ai hfield).trans he
  have hstands : z.field.fsm.held = true := (congrArg Fsm.held hfsm).trans hheld
  rw [Mach.publishFsm_of_thawed ((congrArg Fsm.frozen hfsm).trans hthawed), hstands, hnow]
  refine ⟨?_, fun hlen h => ?_, fun hlen h => ?_, congrArg (fun w => w.enc.valid) hfield, hout, fun l => ?_, hmode⟩
  · show { z.field.fsm with published := z.field.fsm.held, pubAt := some m.now } = _
    rw [hstands, hfsm]
  · show ∀ y ∈ z.field.di, y.valid = false
    rw [hdi]
    exact Mach.diHeld_invalid hlen h
  · show ∀ y ∈ z.field.ai, y.valid = false
    rw [← m.diHeld_ai] at hlen h
    rw [hai]
    exact Mach.aiHeld_invalid hlen h
  · rw [Mach.lane_updLanes]
    exact ⟨rfl, rfl⟩

theorem FieldHeld.bench {a b : Mach} (h : FieldHeld a b) (x : Bench) : FieldHeld a { b with bench := x } :=
  ⟨h.fsm, h.di, h.ai, h.enc, h.out, h.lanes, h.mode⟩

/-- A condition found holds the field section. -/
theorem completes_of_fieldHold {i : Instr} {s : State} {P : Mach → Prop} {t : Nat} {f : Mach → Mach} {g : Fsm → Fsm}
    (he : exec i s = fsmRun t f s) (hrow : f (s.m.tick t) = ((s.m.tick t).updFsm g).fieldHold)
    (hthawed : (g s.m.field.fsm).frozen = false) (hheld : (g s.m.field.fsm).held = true)
    (hp : ∀ m, FieldHeld ((s.m.tick t).updFsm g) m → P m) : Completes i s P := by
  have h := Mach.fieldHold_held (m := (s.m.tick t).updFsm g) hthawed hheld
  rw [← hrow] at h
  exact completes_of_fsmRun he h.mode (fun b => hp _ (h.bench b))

theorem fsSag_of_found {m : Mach} (h : m.field.fsm.sag = false) (hrun : 2 ≤ m.field.fsm.sagRun) :
    fsSag m = (m.updFsm (fun x => { x with sag := true })).fieldHold := if_neg (by simp [h, Nat.not_lt.2 hrun])

theorem fsRev_of_found {m : Mach} (h : m.field.fsm.rev = false) (hrun : 2 ≤ m.field.fsm.revRun) :
    fsRev m = (m.updFsm (fun x => { x with rev := true })).fieldHold := if_neg (by simp [h, Nat.not_lt.2 hrun])

theorem fsHigh_of_found {m : Mach} {u : Nat} (h : m.field.fsm.high = false) (hu : m.field.fsm.highFrom = some u)
    (hdue : u + 900000 ≤ m.now) : fsHigh m = (m.updFsm (fun x => { x with high := true })).fieldHold :=
  if_pos (Bool.and_eq_true_iff.2 ⟨decide_eq_true h, stood_of_le hu hdue⟩)

/-! ### Release (R209, R210, R212) -/

/-- A channel without code 0x7. -/
def DiCh.unheld (x : DiCh) : DiCh := { x with found := dropFinding 7 x.found }
def AiCh.unheld (x : AiCh) : AiCh := { x with okRun := 0, found := dropFinding 7 x.found }

/-- The digital, then the analogue inputs at a release: their filters restart without code 0x7. -/
def Mach.diReleased (m : Mach) : Mach :=
  (List.range 48).foldl (fun m ch => (m.updDi ch DiCh.unheld).diRestart ch) m
def Mach.aiReleased (m : Mach) : Mach :=
  (List.range 8).foldl (fun m ch => m.updAi ch AiCh.unheld) m

theorem code_ne_of_mem_dropFinding {xs : List Finding} {f : Finding} (h : f ∈ dropFinding 7 xs) : f.code ≠ 7 := by
  rintro hcode
  rw [dropFinding, List.mem_filter, hcode] at h
  exact absurd h.2 (by decide)

theorem diReleased_step (m : Mach) (ch : Nat) :
    ∃ f : DiCh → DiCh, Reports (m.updDi ch f) ((m.updDi ch DiCh.unheld).diRestart ch) ∧
      ∀ x, (f x).found = dropFinding 7 x.found := by
  obtain ⟨g, hg, hkept⟩ := (m.updDi ch DiCh.unheld).diRestart_reports ch
  refine ⟨_, (Reports.refl _).updDi_trans hg, fun x => ?_⟩
  obtain ⟨-, -, hfound, -⟩ := hkept x.unheld
  exact hfound

theorem Mach.diReleased_inputsOnly (m : Mach) : InputsOnly m m.diReleased := by
  refine .foldl (fun m ch => ?_) _ m
  obtain ⟨f, hf, -⟩ := diReleased_step m ch
  exact hf.inputsOnly (.updDi ..)

theorem Mach.aiReleased_inputsOnly (m : Mach) : InputsOnly m m.aiReleased := .foldl (fun m ch => .updAi ch _ m) _ m

theorem Mach.diReleased_found {m : Mach} (hlen : m.field.di.length = 48) :
    ∀ y ∈ m.diReleased.field.di, ∀ f ∈ y.found, f.code ≠ 7 := by
  have hsteps : StepsAt (fun m => m.field.di) (fun x y => y.found = dropFinding 7 x.found)
      (fun m ch => (m.updDi ch DiCh.unheld).diRestart ch) := by
    intro m ch
    obtain ⟨f, hf, hfound⟩ := diReleased_step m ch
    exact ⟨f, hfound, hf.di⟩
  unfold Mach.diReleased
  intro y hy f hf
  obtain ⟨x, -, hxy⟩ := hsteps.all hlen y hy
  rw [hxy] at hf
  exact code_ne_of_mem_dropFinding hf

theorem Mach.aiReleased_found {m : Mach} (hlen : m.field.ai.length = 8) :
    ∀ y ∈ m.aiReleased.field.ai, ∀ f ∈ y.found, f.code ≠ 7 := by
  have hsteps : StepsAt (fun m => m.field.ai) (fun x y => y.found = dropFinding 7 x.found)
      (fun m ch => m.updAi ch AiCh.unheld) :=
    fun m ch => ⟨_, fun _ => rfl, rfl⟩
  unfold Mach.aiReleased
  intro y hy f hf
  obtain ⟨x, -, hxy⟩ := hsteps.all hlen y hy
  rw [hxy] at hf
  exact code_ne_of_mem_dropFinding hf

theorem Mach.diReleased_ai (m : Mach) : m.diReleased.field.ai = m.field.ai := by
  unfold Mach.diReleased
  refine Mach.foldl_keeps (fun m => m.field.ai) (fun m ch => ?_) _ m
  obtain ⟨f, hf, -⟩ := diReleased_step m ch
  exact hf.ai

theorem Mach.aiReleased_di (m : Mach) : m.aiReleased.field.di = m.field.di := by
  unfold Mach.aiReleased
  exact Mach.foldl_keeps (fun m => m.field.di) (f := fun m ch => m.updAi ch AiCh.unheld) (fun _ _ => rfl) _ m

/-- The monitor at a release. -/
def Fsm.released (x : Fsm) : Fsm := { x with sag := false, rev := false, high := false, release := false, sinceRelease := 0 }

theorem fsRelease_of_due {m : Mach} {u : Nat} (hheld : m.field.fsm.held = true) (hu : m.field.fsm.rangeFrom = some u)
    (hdue : u + 200000000 ≤ m.now) :
    fsRelease m = ((m.updFsm Fsm.released).diReleased.aiReleased.raise (fieldPath 6) 2).outRelease.publishFsm := by
  unfold fsRelease
  dsimp only
  rw [if_pos (Bool.and_eq_true_iff.2 ⟨hheld, stood_of_le hu hdue⟩)]
  unfold Mach.aiReleased Mach.diReleased
  rfl

/-- What a release comes to. -/
structure FieldReleased (a b : Mach) : Prop where
  fsm : b.field.fsm = { a.field.fsm.released with published := false, pubAt := some a.now }
  lanes : ∀ l, (b.lane l).fsmHeld = false ∧ (b.lane l).fsmAt = some a.now
  di : a.field.di.length = 48 → ∀ y ∈ b.field.di, ∀ f ∈ y.found, f.code ≠ 7
  ai : a.field.ai.length = 8 → ∀ y ∈ b.field.ai, ∀ f ∈ y.found, f.code ≠ 7
  mode : b.mod.mode = a.mod.mode

theorem fsRelease_released {m : Mach} {u : Nat} (hheld : m.field.fsm.held = true) (hu : m.field.fsm.rangeFrom = some u)
    (hdue : u + 200000000 ≤ m.now) (hthawed : m.field.fsm.frozen = false) : FieldReleased m (fsRelease m) := by
  rw [fsRelease_of_due hheld hu hdue]
  have hdi := (m.updFsm Fsm.released).diReleased.aiReleased_di
  obtain ⟨i, q, d, e, h⟩ := (m.updFsm Fsm.released).diReleased_inputsOnly.trans (Mach.aiReleased_inputsOnly _)
  have hd : d = (m.updFsm Fsm.released).diReleased.field.di := by rw [h] at hdi; exact hdi
  have he : e = (m.updFsm Fsm.released).diReleased.aiReleased.field.ai := by rw [h]
  rw [h]
  generalize hy : Mach.raise _ _ _ = y
  obtain ⟨xs, p, hfield, -⟩ := y.outRelease_outputsOnly
  have hmode := y.outRelease_butField.mode
  have hnow := y.outRelease_butField.now
  generalize y.outRelease = z at *
  subst hy
  have hfsm : z.field.fsm = m.field.fsm.released := congrArg Field.fsm hfield
  have hfree : z.field.fsm.held = false := congrArg Fsm.held hfsm
  have hzdi : z.field.di = (m.updFsm Fsm.released).diReleased.field.di := (congrArg Field.di hfield).trans hd
  have hzai : z.field.ai = (m.updFsm Fsm.released).diReleased.aiReleased.field.ai := (congrArg Field.ai hfield).trans he
  rw [Mach.publishFsm_of_thawed ((congrArg Fsm.frozen hfsm).trans hthawed), hfree, hnow]
  refine ⟨?_, fun l => ?_, fun hlen => ?_, fun hlen => ?_, hmode⟩
  · show { z.field.fsm with published := z.field.fsm.held, pubAt := some m.now } = _
    rw [hfree, hfsm]
  · rw [Mach.lane_updLanes]
    exact ⟨rfl, rfl⟩
  · show ∀ y ∈ z.field.di, _
    rw [hzdi]
    exact Mach.diReleased_found hlen
  · show ∀ y ∈ z.field.ai, _
    rw [hzai]
    exact Mach.aiReleased_found ((congrArg List.length (Mach.diReleased_ai _)).trans hlen)

/-! ### The switching threshold (R190, R191) -/

theorem Fsm.moveThr_thrOn (now : Nat) (new : BitVec 7) (x : Fsm) : (x.moveThr now new).thrOn = new := by
  unfold Fsm.moveThr
  split
  next h => exact h.symm
  next => rfl

/-- A threshold `cur` after one update towards `goal` within a band. -/
def thrNext (lo hi cur goal : Nat) : Nat := max lo (min hi (if cur < goal then min goal (cur + 2) else max goal (cur - 2)))

/-- The monitor with a new threshold inside the band. -/
def Fsm.moved (now new : Nat) (x : Fsm) : Fsm := { x.moveThr now (BitVec.ofNat 7 new) with pinned := false, edge := x.edge }

/-- With the target inside the band the threshold moves, and is not pinned. -/
theorem thresholdUpdate_reports {m : Mach} {lo hi : Nat} (hrun : m.fieldRuns = true) (hheld : m.field.fsm.held = false)
    (hlen : m.field.fsm.samples.length = 100) (hsince : 100 ≤ m.field.fsm.sinceRelease) (hband : m.thrBand = (lo, hi))
    (hlo : (lo : Int) ≤ thrTarget m.field.fsm.samples) (hhi : thrTarget m.field.fsm.samples ≤ (hi : Int)) :
    Reports (m.updFsm (Fsm.moved m.now (thrNext lo hi m.field.fsm.thrOn.toNat (thrTarget m.field.fsm.samples).toNat)))
      (thresholdUpdate m) := by
  unfold thresholdUpdate
  dsimp only
  rw [if_neg (by rw [hrun, hheld, hlen]; simp [hsince]), hband]
  dsimp only
  rw [decide_eq_false (Int.not_lt.2 hlo), decide_eq_false (Int.not_lt.2 hhi)]
  simp only [Bool.or_self, Bool.false_eq_true, if_false]
  exact .ite (.refl _) ((Reports.raise ..).trans (.postField ..))

theorem thrNext_of_band {lo hi cur : Nat} {v : Int} (hcur : lo ≤ cur) (hcur' : cur ≤ hi) (hlo : (lo : Int) ≤ v)
    (hhi : v ≤ (hi : Int)) :
    thrNext lo hi cur v.toNat ≤ hi ∧
      (thrNext lo hi cur v.toNat : Int) = if (cur : Int) < v then min v (cur + 2) else max v ((cur : Int) - 2) := by
  unfold thrNext
  split <;> split <;> omega

end Sys2Proof.Machine

open Sys2Proof Sys2Proof.Machine in
/-- Settles O23: a sample, a condition, a hold, the release, the end of a freeze and the threshold each come to what the lemmas above
say, at the command's instant. -/
theorem fieldSupply : Obligations.FieldSupply := by
  unfold Obligations.FieldSupply
  refine ⟨fun s v t hp hthawed hv => ?_, fun s t u hlow hu hdue => ?_, fun s t u hu hdue => ?_,
    fun s t hsag hrun hthawed hdi hai hdiLen haiLen houtLen => ?_, fun s t hrev hrun hthawed hdi hdiLen houtLen => ?_,
    fun s t u hhigh hu hdue hthawed hdi hdiLen houtLen => ?_, fun s t u hheld hu hdue hthawed hdiLen haiLen => ?_,
    fun s t hfrozen hdue => ?_,
    fun s t sd lo hi hrun hheld hlen hsince hsd hmin hmax hcur hcur' hword hlo hhi => ?_⟩
  · have hrow := (fieldSupplySample_of_runs (m := s.m.tick t) hp hv).trans (Mach.publishFsm_of_thawed hthawed)
    refine completes_of_fsmRun (f := fieldSupplySample v) rfl ?_ (fun b => ?_) <;> rw [hrow]
    · rfl
    · refine ⟨rfl, rfl, rfl, fun l => ?_, rfl, rfl, rfl, fun l => ?_⟩
      · cases l <;> exact ⟨rfl, rfl⟩
      · cases l <;> rfl
  · have hf := fsLow_reports (m := s.m.tick t) hlow hu hdue
    exact completes_of_onlyField (f := fsLow) rfl (hf.onlyField rfl) ⟨hf.fsm, hf.onlyField rfl, hf.di, hf.out⟩
  · have hcleared : clearLow (s.m.tick t) = _ := if_pos (stood_of_le hu hdue)
    exact becomes_of_run (fun m => clearLow (m.tick t)) rfl (.inl (by rw [hcleared]; rfl)) hcleared
  · refine completes_of_fieldHold (f := fsSag) rfl (fsSag_of_found (m := s.m.tick t) hsag hrun) hthawed rfl (fun m h => ?_)
    exact ⟨congrArg Fsm.sag h.fsm, h.di hdiLen hdi, h.ai haiLen hai, h.enc, h.out houtLen, h.lanes, congrArg Fsm.sags h.fsm, h.mode⟩
  · refine completes_of_fieldHold (f := fsRev) rfl (fsRev_of_found (m := s.m.tick t) hrev hrun) hthawed ?_ (fun m h => ?_)
    · simp [Fsm.held]
    · exact ⟨congrArg Fsm.rev h.fsm, h.di hdiLen hdi, h.out houtLen, fun l => (h.lanes l).1⟩
  · refine completes_of_fieldHold (f := fsHigh) rfl (fsHigh_of_found (m := s.m.tick t) hhigh hu hdue) hthawed ?_ (fun m h => ?_)
    · simp [Fsm.held]
    · exact ⟨congrArg Fsm.high h.fsm, h.di hdiLen hdi, h.out houtLen, fun l => (h.lanes l).1⟩
  · have h := fsRelease_released (m := s.m.tick t) hheld hu hdue hthawed
    exact completes_of_fsmRun (f := fsRelease) rfl h.mode (fun b =>
      ⟨congrArg Fsm.sag h.fsm, congrArg Fsm.rev h.fsm, congrArg Fsm.high h.fsm, h.lanes, h.di hdiLen, h.ai haiLen, h.mode⟩)
  · have hrow : fsmFreezeEnd (s.m.tick t) = ((s.m.tick t).updFsm (fun x => { x with frozen := false })).publishFsm :=
      if_pos ⟨hfrozen, hdue⟩
    rw [Mach.publishFsm_of_thawed rfl] at hrow
    refine completes_of_mode_eq (fun m => fsmFreezeEnd (m.tick t)) rfl ?_ ?_ <;> rw [hrow]
    · rfl
    · refine ⟨rfl, fun l => ?_, rfl, rfl⟩
      cases l <;> exact ⟨rfl, rfl⟩
  · have hband : (s.m.tick t).thrBand = (lo, hi) := by
      unfold Mach.thrBand
      rw [show (s.m.tick t).sd = some sd from hsd]
      dsimp only
      rw [hmin, hmax]
      rfl
    have hf := thresholdUpdate_reports (m := s.m.tick t) hrun hheld hlen hsince hband hlo hhi
    obtain ⟨hle, hnext⟩ := thrNext_of_band hcur hcur' hlo hhi
    refine completes_of_onlyField (f := thresholdUpdate) rfl (hf.onlyField rfl) ⟨?_, congrArg Fsm.pinned hf.fsm, hf.onlyField rfl⟩
    rw [hf.fsm]
    refine Eq.trans ?_ hnext
    refine congrArg Nat.cast ?_
    exact (congrArg BitVec.toNat (Fsm.moveThr_thrOn ..)).trans (Nat.mod_eq_of_lt (Nat.lt_of_le_of_lt hle hword))
end

section
/-! SUPPORT. The safety outputs (R221, R222, R230, R232, R233, R235, R236): one output changed, the finding of FAULT on an output that
runs no pulse, and what a readback, a current, a temperature and a coupler frame come to. -/

namespace Sys2Proof.Machine

/-! ### One output changed -/

@[simp] theorem Mach.updOut_now (n : Nat) (f : OutCh → OutCh) (m : Mach) : (m.updOut n f).now = m.now := rfl
@[simp] theorem Mach.updOut_fsm (n : Nat) (f : OutCh → OutCh) (m : Mach) : (m.updOut n f).field.fsm = m.field.fsm := rfl

theorem Mach.updOut_congr {m : Mach} {n : Nat} {x : OutCh} {f g : OutCh → OutCh} (h : m.field.out[n]? = some x) (hfg : f x = g x) :
    m.updOut n f = m.updOut n g :=
  congrArg (fun z => m.updField (fun x => { x with out := z })) (modAt_congr h hfg)

theorem Mach.updOut_updOut (n : Nat) (f g : OutCh → OutCh) (m : Mach) : (m.updOut n f).updOut n g = m.updOut n (g ∘ f) :=
  congrArg (fun z => m.updField (fun x => { x with out := z })) (modAt_modAt f g n m.field.out)

theorem Mach.updOut_get_self {m : Mach} {n : Nat} {x : OutCh} (f : OutCh → OutCh) (h : m.field.out[n]? = some x) :
    (m.updOut n f).field.out[n]? = some (f x) := (modAt_get_self f n m.field.out).trans (congrArg (Option.map f) h)

theorem Reports.butField {a b : Mach} (h : Reports a b) : ButField a b := by
  obtain ⟨i, q, rfl⟩ := h
  rfl

/-- Output `n` becomes `y`, and no other output and nothing that `ButField` covers changes. -/
structure OutputTakes (n : Nat) (y : OutCh) (a b : Mach) : Prop where
  but : ButField a b
  self : b.field.out[n]? = some y
  other : ∀ k, k ≠ n → b.field.out[k]? = a.field.out[k]?

section
variable {n : Nat} {x y z : OutCh} {a b c : Mach}

theorem OutputTakes.trans (h : OutputTakes n y a b) (k : OutputTakes n z b c) : OutputTakes n z a c :=
  ⟨h.but.trans k.but, k.self, fun i hi => (k.other i hi).trans (h.other i hi)⟩

theorem OutputTakes.of_self (hx : a.field.out[n]? = some x) : OutputTakes n x a a := ⟨.refl a, hx, fun _ _ => rfl⟩

theorem OutputTakes.of_updOut (f : OutCh → OutCh) (hx : a.field.out[n]? = some x) : OutputTakes n (f x) a (a.updOut n f) :=
  ⟨.updOut .., Mach.updOut_get_self f hx, fun k hk => modAt_get_of_ne f n k _ hk⟩

theorem OutputTakes.updOut (h : OutputTakes n y a b) (f : OutCh → OutCh) : OutputTakes n (f y) a (b.updOut n f) :=
  h.trans (.of_updOut f h.self)

/-- What then leaves the outputs alone. -/
theorem OutputTakes.kept (h : OutputTakes n y a b) (hbut : ButField b c) (hout : c.field.out = b.field.out) : OutputTakes n y a c :=
  ⟨h.but.trans hbut, hout ▸ h.self, hout ▸ h.other⟩

theorem OutputTakes.reports (h : OutputTakes n y a b) (k : Reports b c) : OutputTakes n y a c := h.kept k.butField k.out

theorem OutputTakes.view (h : OutputTakes n y a b) {α : Type} (g : OutCh → α) : (b.field.out[n]?).map g = some (g y) :=
  congrArg (Option.map g) h.self

/-- A command that changes one output completes in every mode. -/
theorem completes_of_outputTakes {i : Instr} {s : State} {P : Mach → Prop} {t : Nat} {f : Mach → Mach}
    (he : exec i s = s.run (fun m => f (m.tick t))) (h : OutputTakes n y (s.m.tick t) (f (s.m.tick t))) (hp : P (f (s.m.tick t))) :
    Completes i s P := completes_of_mode_eq _ he h.but.mode hp

end

/-! ### FAULT (R232, R233) -/

/-- The mark that the step of a field sweep on this output failed, where one runs. -/
theorem ButField.sweepBad (p : Prop) [Decidable p] (m : Mach) :
    ButField m (if p then { m with mod := { m.mod with sweepBad := true } } else m) := .ite _ rfl (.refl m)

theorem Mach.sweepBad_field (p : Prop) [Decidable p] (m : Mach) :
    (if p then ({ m with mod := { m.mod with sweepBad := true } } : Mach) else m).field = m.field := by split <;> rfl

/-- Only the drive and the instants that follow it differ. -/
theorem OutCh.driven_eq (now : Nat) (x : OutCh) :
    ∃ drive low, x.driven now = { x with settleAt := now, judgeRun := 0, driveAt := drive, lowCurAt := low } := by
  unfold OutCh.driven
  dsimp only
  split <;> exact ⟨_, _, rfl⟩

/-- An output with a pole not driven. -/
def OutCh.undrive (p : Pole) (x : OutCh) : OutCh :=
  match p with
  | .pos => { x with drvPos := false }
  | .neg => { x with drvNeg := false }

theorem OutCh.undrive_pos_iff {x : OutCh} : x.undrive .pos = x ↔ x.drvPos = false :=
  ⟨fun h => by rw [← h]; rfl, fun h => by rw [OutCh.undrive, ← h]⟩

theorem OutCh.undrive_neg_iff {x : OutCh} : x.undrive .neg = x ↔ x.drvNeg = false :=
  ⟨fun h => by rw [← h]; rfl, fun h => by rw [OutCh.undrive, ← h]⟩

/-- The poles of an inhibited output have no gate supply (R219). -/
theorem Mach.setPole_of_inhibited {m : Mach} {n : Nat} {x : OutCh} (p : Pole) (hx : m.field.out[n]? = some x) (hi : x.inhibit = true) :
    ∃ settle run drive low, OutputTakes n
      { x.undrive p with settleAt := settle, judgeRun := run, driveAt := drive, lowCurAt := low } m (m.setPole n p) := by
  have hdrive : poleDrive m n x p = .off := if_neg (by simp [gateSupply, hi])
  have hpole : m.setPole n p = if x.undrive p = x then m else m.updOut n (fun x => (x.undrive p).driven m.now) := by
    unfold Mach.setPole
    rw [hx]
    dsimp only
    rw [hdrive, if_neg (show GateDrive.off ≠ GateDrive.band by decide)]
    cases p
    · exact if_congr OutCh.undrive_pos_iff.symm rfl rfl
    · exact if_congr OutCh.undrive_neg_iff.symm rfl rfl
  rw [hpole]
  split
  next hoff => exact ⟨x.settleAt, x.judgeRun, x.driveAt, x.lowCurAt, hoff.symm ▸ .of_self hx⟩
  next =>
    obtain ⟨drive, low, hdriven⟩ := OutCh.driven_eq m.now (x.undrive p)
    exact ⟨m.now, 0, drive, low, hdriven ▸ .of_updOut (fun x => (x.undrive p).driven m.now) hx⟩

/-- An output that takes a FAULT finding. -/
def OutCh.takesFault (code : Nat) (x : OutCh) : OutCh :=
  { x with
    fault := BitVec.ofNat 4 code, isFault := true, avail := false, armed := false, inhibit := true, latch := codeLatches code
    faults := satInc x.faults, healthyAt := none, fromDark := none, repeatDue := none }

/-- An output with neither pole driven, from given instants on. -/
def OutCh.undriven (settle run drive : Nat) (low : Option Nat) (x : OutCh) : OutCh :=
  { x with drvPos := false, drvNeg := false, settleAt := settle, judgeRun := run, driveAt := drive, lowCurAt := low }

/-- The finding, and then both poles off. -/
theorem Mach.takeFault_takes {m : Mach} {n code : Nat} {x : OutCh} (hx : m.field.out[n]? = some x) (hu : x.unusable = false)
    (hl : x.latch = false) (hnew : x.fault.toNat ≠ code) :
    ∃ settle run drive low, OutputTakes n ((x.takesFault code).undriven settle run drive low) m (m.takeFault n code) := by
  unfold Mach.takeFault
  rw [hx]
  dsimp -zeta only
  extract_lets _ _ _ m2 m3 _ _ m6
  rw [if_neg (by simp [hu, hl, hnew])]
  have hfault : OutputTakes n (x.takesFault code) m m2 :=
    (OutputTakes.of_updOut (OutCh.takesFault code) hx).kept (.sweepBad ..) (congrArg Field.out (Mach.sweepBad_field ..))
  obtain ⟨_, _, _, _, hpos⟩ := Mach.setPole_of_inhibited .pos hfault.self rfl
  obtain ⟨settle, run, drive, low, hneg⟩ := Mach.setPole_of_inhibited .neg hpos.self rfl
  have hreports : Reports m3 (m6.noteOut n ((if x.avail then [0x40] else []) ++ (if codeLatches code then [0x42] else []) ++
      (if code = 8 then [0x43] else []))) :=
    (((Reports.ite (.raise ..) (.refl _)).trans (.ite (.raise ..) (.refl _))).trans (.ite (.raise ..) (.refl _))).trans (.noteOut ..)
  exact ⟨settle, run, drive, low, ((hfault.trans hpos).trans hneg).reports hreports⟩

/-- On an output that runs no pulse a finding forces nothing off before it. -/
theorem Mach.outFault_takes {m : Mach} {n code : Nat} {x : OutCh} (hx : m.field.out[n]? = some x) (htest : x.test = none)
    (hu : x.unusable = false) (hl : x.latch = false) (hnew : x.fault.toNat ≠ code) :
    ∃ settle run drive low, OutputTakes n ((x.takesFault code).undriven settle run drive low) m (m.outFault n code) := by
  have hforced : m.forcedOff n = m := by
    unfold Mach.forcedOff
    rw [hx]
    dsimp only
    rw [htest]
  unfold Mach.outFault
  rw [hforced]
  exact Mach.takeFault_takes hx hu hl hnew

/-- A finding that is not FAULT: a new one leaves the output unavailable. -/
theorem Mach.outUnavail_takes {m : Mach} {n code : Nat} {x : OutCh} (hx : m.field.out[n]? = some x) (hf : x.isFault = false)
    (hl : x.latch = false) (hu : x.unusable = false) (hheld : m.field.fsm.held = false) :
    ∃ avail faults healthy, (x.fault.toNat ≠ code → avail = false) ∧ OutputTakes n
      { x with fault := BitVec.ofNat 4 code, avail := avail, faults := faults, healthyAt := healthy } m (m.outUnavail n code) := by
  unfold Mach.outUnavail
  rw [hx]
  dsimp -zeta only
  extract_lets _ _ m2
  by_cases hnew : x.fault.toNat = code
  · rw [if_pos (by simp [hnew]), ← hnew, BitVec.ofNat_toNat, BitVec.setWidth_eq]
    exact ⟨x.avail, x.faults, x.healthyAt, fun h => absurd rfl h, .of_self hx⟩
  · rw [if_neg (by simp [hf, hl, hu, hheld, hnew])]
    have htaken : OutputTakes n _ m m2 := (OutputTakes.of_updOut _ hx).kept (.sweepBad ..) (congrArg Field.out (Mach.sweepBad_field ..))
    exact ⟨false, _, none, fun _ => rfl, htaken.reports (.ite ((Reports.raise ..).trans (.noteOut ..)) (.refl _))⟩

/-! ### Readback with the poles open (R221, R222) -/

theorem termClass_low_iff {supply v : Int} : termClass supply v = .low ↔ 100 * v ≤ 30 * supply := by
  unfold termClass
  split
  next hlow => exact iff_of_true rfl hlow
  next hlow => exact iff_of_false (by split <;> decide) hlow

theorem termClass_high_iff {supply v : Int} (h : 0 < supply) : termClass supply v = .high ↔ 70 * supply ≤ 100 * v := by
  unfold termClass
  split
  next hlow => exact iff_of_false (by decide) (by omega)
  next hlow =>
    split
    next hhigh => exact iff_of_true rfl hhigh
    next hhigh => exact iff_of_false (by decide) hhigh

/-- The code of two terminals of which one reads low or high, other than as an open load does. -/
theorem offCode_of_wrong (c : OutCfg) {p q : TermClass} (hread : (p = .high ∨ p = .low) ∨ (q = .high ∨ q = .low))
    (hopen : ¬(p = .low ∧ q = .high)) :
    offCode c p q = if p = .high ∧ q = .high then 1 else if p = .low ∧ q = .low then 2 else 11 := by
  cases p <;> cases q <;> simp_all [offCode]

theorem Mach.fieldRuns_of_supply {m : Mach} {v : Int} (hp : m.power.powered = true) (hv : m.field.fsm.samples.head? = some v)
    (hvolt : 800 ≤ v) : m.fieldRuns = true ∧ m.supplyV = v := by
  obtain ⟨vs, hsamples⟩ := List.head?_eq_some_iff.1 hv
  unfold Mach.fieldRuns Mach.supplyV
  rw [hp, hsamples]
  exact ⟨decide_eq_true hvolt, rfl⟩

/-- With neither pole driven or under test both read open. -/
theorem OutCh.senses_of_open {x : OutCh} (hpos : x.drvPos = false) (hneg : x.drvNeg = false) (htest : x.test = none) (vp vn : Int)
    (p q : TermClass) : x.senses vp vn p q = { x with vpos := satInt 16 vp, vneg := satInt 16 vn, pos := false, neg := false } := by
  unfold OutCh.senses
  rw [hpos, hneg, htest]
  rfl

/-- The output with the run of judgements that reached its tenth. -/
def OutCh.judgedTen (code : Nat) (x : OutCh) : OutCh := { x with judge := code, judgeRun := 10, healthyAt := none }

/-- A used output whose poles are both driven, or both open, and have settled, with no pulse on it. -/
structure PolesSettled (driven : Bool) (since n : Nat) (x : OutCh) (c : OutCfg) (m : Mach) : Prop where
  runs : m.fieldRuns = true
  output : m.field.out[n]? = some x
  config : m.outCfg n = some c
  used : c.used = true
  unheld : m.field.fsm.held = false
  pos : x.drvPos = driven
  neg : x.drvNeg = driven
  idle : x.test = none
  settled : since ≤ m.now

theorem offStateJudgement_tenth {m : Mach} {n code : Nat} {vp vn : Int} {x : OutCh} {c : OutCfg}
    (h : PolesSettled false (x.settleAt + 20000000) n x c m)
    (hcode : offCode c (termClass m.supplyV vp) (termClass m.supplyV vn) = code) (hbad : code ≠ 0) (hload : code ≠ 6)
    (hj : x.judge = code) (hnine : x.judgeRun = 9) :
    offStateJudgement n vp vn m =
      (((m.updOut n (OutCh.senses vp vn (termClass m.supplyV vp) (termClass m.supplyV vn))).updOut n
        (OutCh.judgedTen code)).outFault n code).updOut n (fun x => { x with fromDark := none }) := by
  obtain ⟨hrun, hx, hc, hused, hheld, hpos, hneg, htest, hsettled⟩ := h
  unfold offStateJudgement
  rw [hx, hc]
  dsimp only
  rw [if_neg (by simp [hrun]), if_neg (by simp [hused, hheld, hpos, hneg, htest, Nat.not_lt.2 hsettled]), hcode, if_pos hj, hnine]
  rw [if_neg (by decide), if_neg hbad, if_neg hload]
  simp only [if_pos hbad]
  rfl

/-- The tenth equal judgement that is no open load is FAULT. -/
theorem offStateJudgement_takes {m : Mach} {n code : Nat} {vp vn : Int} {x : OutCh} {c : OutCfg}
    (h : PolesSettled false (x.settleAt + 20000000) n x c m)
    (hcode : offCode c (termClass m.supplyV vp) (termClass m.supplyV vn) = code) (hbad : code ≠ 0) (hload : code ≠ 6)
    (hj : x.judge = code) (hnine : x.judgeRun = 9) (hu : x.unusable = false) (hl : x.latch = false) (hnew : x.fault.toNat ≠ code) :
    ∃ settle run drive low, OutputTakes n
      ((({ x with vpos := satInt 16 vp, vneg := satInt 16 vn, pos := false, neg := false } : OutCh).judgedTen code).takesFault
        code |>.undriven settle run drive low) m (offStateJudgement n vp vn m) := by
  have hsensed := OutputTakes.of_updOut (OutCh.senses vp vn (termClass m.supplyV vp) (termClass m.supplyV vn)) h.output
  rw [OutCh.senses_of_open h.pos h.neg h.idle] at hsensed
  have hjudged := hsensed.updOut (OutCh.judgedTen code)
  obtain ⟨settle, run, drive, low, hfault⟩ := Mach.outFault_takes (code := code) hjudged.self h.idle hu hl hnew
  rw [offStateJudgement_tenth h hcode hbad hload hj hnine]
  exact ⟨settle, run, drive, low, (hjudged.trans hfault).updOut (fun x => { x with fromDark := none })⟩

/-! ### Current and temperature (R222, R230, R232) -/

/-- An output with its current sampled. -/
def OutCh.drawing (i : BitVec 12) (x : OutCh) : OutCh := { x with cur := i, ipeak := bvMax x.ipeak i }

theorem openLoadOn_of_long {m : Mach} {n mA u : Nat} {vp vn : Int} {x : OutCh} {c : OutCfg}
    (h : PolesSettled true (x.driveAt + 1000000) n x c m) (hold : c.old = true) (hored : c.ored = false)
    (hlow : mA < outImin c) (hu : x.lowCurAt = some u) (hdue : u + 100000000 ≤ m.now) :
    openLoadOn n mA vp vn m =
      ((m.updOut n (fun x =>
          (x.drawing (satOf 12 mA)).senses vp vn (termClass m.supplyV vp) (termClass m.supplyV vn))).updOut n (fun x =>
        { x with lowCurAt := some u, healthyAt := none })).outUnavail n 6 := by
  obtain ⟨hrun, hx, hc, hused, hheld, hpos, hneg, htest, hsettled⟩ := h
  unfold openLoadOn
  rw [hx, hc]
  dsimp only
  rw [if_neg (by simp [hrun]), if_neg (by simp [hused, hheld, hpos, hneg, htest, Nat.not_lt.2 hsettled]), if_pos hlow, hu]
  exact if_pos ⟨hdue, hold, hored⟩

/-- A current below `IMIN` for 100 ms is an open load. -/
theorem openLoadOn_takes {m : Mach} {n mA u : Nat} {vp vn : Int} {x : OutCh} {c : OutCfg}
    (h : PolesSettled true (x.driveAt + 1000000) n x c m) (hold : c.old = true) (hored : c.ored = false)
    (hlow : mA < outImin c) (hu : x.lowCurAt = some u) (hdue : u + 100000000 ≤ m.now) (hf : x.isFault = false)
    (hl : x.latch = false) (husable : x.unusable = false) :
    ∃ avail faults healthy, (x.fault.toNat ≠ 6 → avail = false) ∧ OutputTakes n
      { (x.drawing (satOf 12 mA)).senses vp vn (termClass m.supplyV vp) (termClass m.supplyV vn) with
        lowCurAt := some u, fault := 6, avail := avail, faults := faults, healthyAt := healthy } m (openLoadOn n mA vp vn m) := by
  have hlong := (OutputTakes.of_updOut (fun x =>
    (x.drawing (satOf 12 mA)).senses vp vn (termClass m.supplyV vp) (termClass m.supplyV vn)) h.output).updOut (fun x =>
      { x with lowCurAt := some u, healthyAt := none })
  obtain ⟨avail, faults, healthy, hnew, hunavail⟩ := Mach.outUnavail_takes (code := 6) hlong.self hf hl husable h.unheld
  rw [openLoadOn_of_long h hold hored hlow hu hdue]
  exact ⟨avail, faults, healthy, hnew, hlong.trans hunavail⟩

theorem overload_of_driven {m : Mach} {n : Nat} {x : OutCh} (hrun : m.fieldRuns = true) (hx : m.field.out[n]? = some x)
    (hdriven : x.drvPos = true ∨ x.drvNeg = true) (hused : outUsed m n = true) : overload n m = m.outFault n 3 := by
  unfold overload
  rw [hx]
  exact if_pos (by simp [hrun, hused, hdriven])

theorem overtemperature_of_hot {m : Mach} {n : Nat} {temp : Int} (hrun : m.fieldRuns = true) (hused : outUsed m n = true)
    (hhot : 175 ≤ temp) : overtemperature n temp m = (m.updOut n (fun x => { x with temp := satInt 8 temp })).outFault n 9 :=
  if_pos (by simp [hrun, hused, hhot])

theorem thermalFoldback_reports {m : Mach} {n : Nat} {x : OutCh} (temp : Int) (hrun : m.fieldRuns = true)
    (hx : m.field.out[n]? = some x) :
    Reports (m.updOut n (fun x => { x with temp := satInt 8 temp, fold := decide (150 < temp) })) (thermalFoldback n temp m) := by
  unfold thermalFoldback
  rw [hx]
  dsimp only
  rw [if_neg (by simp [hrun])]
  exact .ite ((Reports.raise ..).trans (.noteOut ..)) (.refl _)

/-! ### Clearing (R233) -/

theorem Mach.outAvail_reports {m : Mach} {n : Nat} {x : OutCh} (hx : m.field.out[n]? = some x) (hf : x.isFault = false)
    (hl : x.latch = false) (hu : x.unusable = false) (hheld : m.field.fsm.held = false) (hdone : x.isOverdue = false) :
    Reports (m.updOut n (fun x => { x with fault := 0, avail := true })) (m.outAvail n) := by
  unfold Mach.outAvail
  rw [hx]
  dsimp only
  rw [if_neg (by simp [hf, hl, hu, hheld]), if_neg (by simp [hdone])]
  exact .ite (.refl _) ((Reports.raise ..).trans (.noteOut ..))

/-- A FAULT that clears. -/
def OutCh.cleared (temp : Int) (x : OutCh) : OutCh := { x with isFault := false, fault := 0, temp := satInt 8 temp, avail := true }

theorem outputFaultClear_reports {m : Mach} {n u : Nat} {temp : Int} {x : OutCh} (hx : m.field.out[n]? = some x)
    (hhealthy : x.healthyAt = some u) (hdue : u + 1000000000 ≤ m.now) (hl : x.latch = false) (hheld : m.field.fsm.held = false)
    (hf : x.isFault = true) (hu : x.unusable = false) (hcool : x.fault = 9 → temp < 120) (hpos : x.noPos < 8) (hneg : x.noNeg < 8) :
    Reports (m.updOut n (OutCh.cleared temp)) (outputFaultClear n temp m) := by
  have hcleared : x.isFault = true ∧ (x.fault ≠ 9 ∨ temp < 120) := ⟨hf, (Decidable.em (x.fault = 9)).symm.imp_right hcool⟩
  have hdone : x.isOverdue = false := by simp [OutCh.isOverdue, hpos, hneg]
  unfold outputFaultClear
  rw [hx]
  dsimp only
  rw [hhealthy, if_neg (by simp [hl, hheld, hdue]), if_pos hcleared]
  have havail := Mach.outAvail_reports
    (Mach.updOut_get_self (fun x => { x with isFault := false, fault := 0, temp := satInt 8 temp }) hx) rfl hl hu hheld hdone
  rwa [Mach.updOut_updOut] at havail

theorem outputFaultClear_of_latched {m : Mach} {n : Nat} {x : OutCh} (temp : Int) (hx : m.field.out[n]? = some x)
    (hl : x.latch = true) : outputFaultClear n temp m = m := by
  unfold outputFaultClear
  rw [hx]
  exact if_pos (.inl hl)

/-! ### Coupler frames (R236) -/

theorem outputCouplerFrame_of_runs {m : Mach} {n : Nat} {x : OutCh} (ok : LaneId → Bool) (hrun : m.fieldRuns = true)
    (hx : m.field.out[n]? = some x) :
    outputCouplerFrame n ok m =
      (m.updOut n (fun y => { y with toggle := !x.toggle })).updLanes (fun l y => y.takeOut n x (!x.toggle) (ok l) m.now) := by
  have htoggled : m.updOut n (fun y => { y with toggle := !x.toggle }) = m.updOut n (fun y => { y with toggle := !y.toggle }) :=
    Mach.updOut_congr hx rfl
  unfold outputCouplerFrame
  rw [hx, htoggled]
  exact if_neg (by simp [hrun])

/-- The entry of a coupler frame in a lane's list. -/
theorem Lane.takeOut_get_self {n : Nat} {y : Lane} (x : OutCh) (toggle ok : Bool) (now : Nat) (h : n < y.outs.length) :
    ∃ f, (y.takeOut n x toggle ok now).outs[n]? = some f ∧ f.avail = x.avail ∧ f.code = x.fault ∧ f.armed = x.armed ∧
      f.toggle = toggle ∧ f.checkOk = ok ∧ f.at0 = some now := by
  unfold Lane.takeOut
  dsimp only
  rw [modAt_get_self, List.getElem?_eq_getElem h]
  exact ⟨_, rfl, rfl, rfl, rfl, rfl, rfl, rfl⟩

end Sys2Proof.Machine

open Sys2Proof Sys2Proof.Machine in
/-- Settles O24: each command takes its output to the one that the lemmas above name, and leaves the others alone. -/
theorem outputReadback : Obligations.OutputReadback := by
  unfold Obligations.OutputReadback
  refine ⟨fun s n vp vn v t code x c hp hv hvolt hx hc hused hheld hpos hneg htest hsettled hf hl hu hcode hread hopen hj hnine => ?_,
    fun s n mA vp vn t u x c hrun hx hc hused hold hored hheld hpos hneg htest hdriven hlow hsince hdue hf hl hu hword => ?_,
    fun s n temp t u x hx hhealthy hdue hl hheld hf hu hcool hpos hneg => ?_, fun s n temp t x hx hl => ?_,
    fun s n okA okB okC t x hrun hx hlen => ?_, fun s n t x hrun hx hdriven hused htest hf hl hu => ?_,
    fun s n temp t x hrun hx => ?_, fun s n temp t x hrun hx hused htest hhot hf hl hu => ?_⟩
  · obtain ⟨hrun, hsupply⟩ := Mach.fieldRuns_of_supply (m := s.m.tick t) hp hv hvolt
    have hv0 : 0 < v := by omega
    have hoff : offCode c (termClass (s.m.tick t).supplyV vp) (termClass (s.m.tick t).supplyV vn) = code := by
      rw [hsupply, hcode]
      simp only [← termClass_high_iff hv0, ← termClass_low_iff (supply := v)] at hread hopen ⊢
      exact offCode_of_wrong c hread hopen
    have hcodes : code = 1 ∨ code = 2 ∨ code = 11 := by
      rw [hcode]
      split_ifs <;> simp
    have hword : (BitVec.ofNat 4 code).toNat = code := (BitVec.toNat_ofNat ..).trans (Nat.mod_eq_of_lt (by omega))
    have hnew : x.fault.toNat ≠ code := by
      rw [hf]
      exact fun h : 0 = code => by omega
    obtain ⟨_, _, _, _, hout⟩ := offStateJudgement_takes (m := s.m.tick t)
      ⟨hrun, hx, hc, hused, hheld, hpos, hneg, htest, hsettled⟩ hoff (by omega) (by omega) hj hnine hu hl hnew
    exact completes_of_outputTakes (f := offStateJudgement n vp vn) rfl hout
      ⟨(hout.view _).trans (congrArg (fun k => some (k, true, false, false, true)) hword), hout.view _, hout.other, hout.but.lanes,
        hout.but.cal, hout.but.mode⟩
  · obtain ⟨avail, _, _, hnew, hout⟩ := openLoadOn_takes (m := s.m.tick t) (vp := vp) (vn := vn)
      ⟨hrun, hx, hc, hused, hheld, hpos, hneg, htest, hdriven⟩ hold hored hlow hsince hdue hf hl hu
    have hcur : (satOf 12 mA).toNat = mA := (congrArg BitVec.toNat (satOf_of_lt hword)).trans (Nat.mod_eq_of_lt hword)
    refine completes_of_outputTakes (f := openLoadOn n mA vp vn) rfl hout
      ⟨(hout.view _).trans ?_, hout.view _, fun hother => (hout.view _).trans (congrArg some (hnew ?_)), hout.other, hout.but.lanes,
        hout.but.mode⟩
    · show some ((6 : BitVec 4), x.isFault, (satOf 12 mA).toNat, x.drvPos, x.drvNeg) = _
      rw [hf, hcur, hpos, hneg]
    · exact fun h => hother (BitVec.eq_of_toNat_eq h)
  · have hrow := outputFaultClear_reports (m := s.m.tick t) hx hhealthy hdue hl hheld hf hu hcool hpos hneg
    have hout := (OutputTakes.of_updOut (OutCh.cleared temp) (a := s.m.tick t) hx).reports hrow
    exact completes_of_onlyField (f := outputFaultClear n temp) rfl (hrow.onlyField rfl)
      ⟨hout.view _, hout.other, hrow.onlyField rfl⟩
  · exact becomes_tick (f := outputFaultClear n temp) rfl (outputFaultClear_of_latched (m := s.m.tick t) temp hx hl)
  · have hrow := outputCouplerFrame_of_runs (m := s.m.tick t) (Tri.get ⟨okA, okB, okC⟩) hrun hx
    refine completes_of_mode_eq (fun m => outputCouplerFrame n (Tri.get ⟨okA, okB, okC⟩) (m.tick t)) rfl ?_ ?_ <;> rw [hrow]
    · rfl
    · refine ⟨rfl, fun l => ?_, fun l => ?_, fun l k hk => ?_, fun l => ?_, rfl, rfl⟩ <;> rw [Mach.lane_updLanes]
      · obtain ⟨f, hget, havail, hcode, harmed, htoggle, -, -⟩ := Lane.takeOut_get_self x (!x.toggle) _ (max s.m.now t) (hlen l)
        exact (congrArg (Option.map _) hget).trans (by rw [Option.map_some, havail, hcode, harmed, htoggle])
      · obtain ⟨f, hget, -, -, -, -, hok, hat⟩ := Lane.takeOut_get_self x (!x.toggle) _ (max s.m.now t) (hlen l)
        exact (congrArg (Option.map _) hget).trans (by rw [Option.map_some, hok, hat]; rfl)
      · exact modAt_get_of_ne _ n k _ hk
      · exact ⟨rfl, rfl, rfl⟩
  · have hrow := overload_of_driven (m := s.m.tick t) hrun hx hdriven hused
    obtain ⟨_, _, _, _, hout⟩ := Mach.outFault_takes (m := s.m.tick t) (code := 3) hx htest hu hl (by rw [hf]; decide)
    rw [← hrow] at hout
    exact completes_of_outputTakes (f := overload n) rfl hout
      ⟨hout.view _, hout.view _, hout.view _, hout.other, hout.but.lanes, hout.but.cal, hout.but.mode⟩
  · have hrow := thermalFoldback_reports (m := s.m.tick t) temp hrun hx
    have hout := (OutputTakes.of_updOut (fun x => { x with temp := satInt 8 temp, fold := decide (150 < temp) })
      (a := s.m.tick t) hx).reports hrow
    exact completes_of_onlyField (f := thermalFoldback n temp) rfl (hrow.onlyField rfl)
      ⟨hout.view _, hout.view _, hout.other, hrow.onlyField rfl⟩
  · have htemp := OutputTakes.of_updOut (fun x => { x with temp := satInt 8 temp }) (a := s.m.tick t) hx
    obtain ⟨_, _, _, _, hfault⟩ := Mach.outFault_takes (code := 9) htemp.self htest hu hl (by rw [hf]; decide)
    have hout := htemp.trans hfault
    rw [← overtemperature_of_hot (m := s.m.tick t) hrun hused hhot] at hout
    exact completes_of_outputTakes (f := overtemperature n temp) rfl hout
      ⟨hout.view _, hout.view _, hout.view _, hout.other, hout.but.lanes⟩
end

section
/-! SUPPORT. The instant that a test period starts from (R223, R227): the T0 of the lane whose events the module's registers follow; and
with that the refutation of O25. -/

namespace Sys2Proof.Machine

/-- A period that starts takes the T0 of the first VOTING lane, or of the lane that the Bench views where none is. -/
theorem testPeriodStart_periodAt {m : Mach} (heval : m.evaluates = true) (hset : m.cycleMs ≠ 0)
    (hdue : m.cycleNo.toNat * m.cycleMs % 1024 = 0) (hnew : m.field.periodAt ≠ (m.lane m.countLane).t0) :
    (testPeriodStart m).field.periodAt = (m.lane m.countLane).t0 := by
  have hother : (m.field.periodOn && m.field.periodAt == (m.lane m.countLane).t0) = false := by simp [hnew]
  unfold testPeriodStart
  dsimp only
  rw [if_neg (by simp [heval, hset, hdue, hother])]
  rfl

/-- A data set whose outputs are all used. -/
def outputsUsed : StationData := { pairSet with out := List.replicate 24 { used := true, ored := false, old := true, imin := none } }

/-- A module in DEGRADED at the cycle that starts its second test period. Lanes B and C are VOTING; lane A is in SYNC, and had its T0
500 ns after theirs. -/
def lateSync : Mach :=
  { State.reset.m with
    power := { powered := true }, sd := some outputsUsed, mod := { mode := .degraded }
    lanes := ⟨{ agr := { life := .sync, held := false }, cop := { cycleNo := 128 }, t0 := 1024000500 },
      { agr := { life := .voting, held := false }, cop := { cycleNo := 128 }, t0 := 1024000000 },
      { agr := { life := .voting, held := false }, cop := { cycleNo := 128 }, t0 := 1024000000 }⟩
    field := { fsm := { sag := false, samples := [2400] }, periodOn := true } }

end Sys2Proof.Machine

open Sys2Proof Sys2Proof.Machine in
/-- Refutes O25: the first clause dates the period from the T0 of the lane that the Bench views, the first that is not OUT. With lane A
in SYNC that is lane A, while the period starts at the T0 of lane B, the first that is VOTING (`testPeriodStart_periodAt`). -/
theorem not_testPulses : ¬ Obligations.TestPulses := by
  unfold Obligations.TestPulses
  rintro ⟨hstart, -⟩
  obtain ⟨-, hviewed, -⟩ := (hstart ⟨[], lateSync⟩ 1024001000 0 {} rfl (by decide) (by decide) rfl (by decide) (by decide) rfl rfl rfl
    rfl rfl rfl).of_run (fun m => testPeriodStart (m.tick 1024001000)) rfl
  have hvoting := testPeriodStart_periodAt (m := lateSync.tick 1024001000) rfl (by decide) (by decide) (by decide)
  rw [Mach.supervise_of_ne _ _ (by decide), hvoting] at hviewed
  exact absurd hviewed (by decide)
end

section
/-! SUPPORT. One ring interface (R252 to R306): what a ring command makes of it, while nothing else of the module changes but the causes
on the pages, the notices of the port section and the number of the next free value. -/

namespace Sys2Proof.Machine

/-! ### One port, one Tool rest, one entry of an interface -/

def RingIfc.updPort (d : Dir) (f : RingPort → RingPort) (r : RingIfc) : RingIfc :=
  match d with
  | .east => { r with east := f r.east }
  | .west => { r with west := f r.west }

def RingIfc.updRest (d : Dir) (f : ToolRest → ToolRest) (r : RingIfc) : RingIfc :=
  match d with
  | .east => { r with restE := f r.restE }
  | .west => { r with restW := f r.restW }

def RingIfc.updEntry (k : Nat) (f : EntryRec → EntryRec) (r : RingIfc) : RingIfc := { r with entries := modAt f k r.entries }

section
variable (d e : Dir) (f : RingPort → RingPort) (g : ToolRest → ToolRest) (r : RingIfc)

@[simp] theorem RingIfc.updPort_port : (r.updPort d f).port d = f (r.port d) := by cases d <;> rfl
@[simp] theorem RingIfc.updPort_rest : (r.updPort d f).rest e = r.rest e := by cases d <;> rfl
@[simp] theorem RingIfc.updPort_entries : (r.updPort d f).entries = r.entries := by cases d <;> rfl
@[simp] theorem RingIfc.updPort_ifc : (r.updPort d f).ifc = r.ifc := by cases d <;> rfl
@[simp] theorem RingIfc.updPort_turn : (r.updPort d f).turn = r.turn := by cases d <;> rfl
@[simp] theorem RingIfc.updPort_queue : (r.updPort d f).queue = r.queue := by cases d <;> rfl
@[simp] theorem RingIfc.updPort_joinOk : (r.updPort d f).joinOk = r.joinOk := by cases d <;> rfl
@[simp] theorem RingIfc.updPort_joinFail : (r.updPort d f).joinFail = r.joinFail := by cases d <;> rfl
@[simp] theorem RingIfc.updPort_leaves : (r.updPort d f).leaves = r.leaves := by cases d <;> rfl

@[simp] theorem RingIfc.updRest_rest : (r.updRest d g).rest d = g (r.rest d) := by cases d <;> rfl
@[simp] theorem RingIfc.updRest_port : (r.updRest d g).port e = r.port e := by cases d <;> rfl
@[simp] theorem RingIfc.updRest_entries : (r.updRest d g).entries = r.entries := by cases d <;> rfl
@[simp] theorem RingIfc.updRest_ifc : (r.updRest d g).ifc = r.ifc := by cases d <;> rfl
@[simp] theorem RingIfc.updRest_turn : (r.updRest d g).turn = r.turn := by cases d <;> rfl
@[simp] theorem RingIfc.updRest_queue : (r.updRest d g).queue = r.queue := by cases d <;> rfl
@[simp] theorem RingIfc.updRest_joinOk : (r.updRest d g).joinOk = r.joinOk := by cases d <;> rfl
@[simp] theorem RingIfc.updRest_joinFail : (r.updRest d g).joinFail = r.joinFail := by cases d <;> rfl
@[simp] theorem RingIfc.updRest_leaves : (r.updRest d g).leaves = r.leaves := by cases d <;> rfl

end

theorem RingIfc.updEntry_port (d : Dir) (k : Nat) (f : EntryRec → EntryRec) (r : RingIfc) : (r.updEntry k f).port d = r.port d := rfl
theorem RingIfc.updEntry_queue (k : Nat) (f : EntryRec → EntryRec) (r : RingIfc) : (r.updEntry k f).queue = r.queue := rfl

theorem RingIfc.updEntry_get (k : Nat) (f : EntryRec → EntryRec) (r : RingIfc) :
    (r.updEntry k f).entries[k]? = (r.entries[k]?).map f := modAt_get_self f k r.entries

theorem RingIfc.updEntry_get_of_ne {j k : Nat} {f : EntryRec → EntryRec} {r : RingIfc} (h : j ≠ k) :
    (r.updEntry k f).entries[j]? = r.entries[j]? := modAt_get_of_ne f k j r.entries h

@[simp] theorem Mach.tick_ring (t : Nat) (m : Mach) (i : RingId) : (m.tick t).ring i = m.ring i := rfl
@[simp] theorem Mach.updRest_now (i : RingId) (d : Dir) (f : ToolRest → ToolRest) (m : Mach) : (m.updRest i d f).now = m.now :=
  Mach.updRing_now ..
@[simp] theorem Mach.updRest_mod (i : RingId) (d : Dir) (f : ToolRest → ToolRest) (m : Mach) : (m.updRest i d f).mod = m.mod :=
  Mach.updRing_mod ..

/-! ### What a command makes of its interface -/

/-- The interface `i` of `b` is `r`; beside it nothing differs from `a` but the causes on the pages, the notices of the port section and
the number of the next free value. -/
def RingTakes (i : RingId) (r : RingIfc) (a b : Mach) : Prop :=
  ∃ q n fifo, b = { a.updRing i (fun _ => r) with irq := q, freeCtr := n, cal := { a.cal with fifo := fifo } }

theorem RingTakes.refl (i : RingId) (m : Mach) : RingTakes i (m.ring i) m m := by cases i <;> exact ⟨_, _, _, rfl⟩

namespace RingTakes
variable {i : RingId} {r : RingIfc} {a b : Mach} (h : RingTakes i r a b)
include h

theorem ring : b.ring i = r := by obtain ⟨q, n, fifo, rfl⟩ := h; cases i <;> rfl
theorem otherRing : b.ring (otherRing i) = a.ring (Machine.otherRing i) := by obtain ⟨q, n, fifo, rfl⟩ := h; cases i <;> rfl
theorem now : b.now = a.now := by obtain ⟨q, n, fifo, rfl⟩ := h; cases i <;> rfl
theorem mod : b.mod = a.mod := by obtain ⟨q, n, fifo, rfl⟩ := h; cases i <;> rfl
theorem ident : b.ident = a.ident := by obtain ⟨q, n, fifo, rfl⟩ := h; cases i <;> rfl
theorem lanes : b.lanes = a.lanes := by obtain ⟨q, n, fifo, rfl⟩ := h; cases i <;> rfl
theorem field : b.field = a.field := by obtain ⟨q, n, fifo, rfl⟩ := h; cases i <;> rfl
theorem vote : b.cal.vote = a.cal.vote := by obtain ⟨q, n, fifo, rfl⟩ := h; cases i <;> rfl

/-- What starts with the clock alone stays within the interface. -/
theorem onlyRing {m : Mach} {t : Nat} (ha : a = m.tick t) : OnlyRing i m b := by
  obtain ⟨q, n, fifo, rfl⟩ := h
  subst ha
  cases i <;> exact ⟨rfl, rfl⟩

theorem updRing (f : RingIfc → RingIfc) : RingTakes i (f r) a (b.updRing i f) := by
  obtain ⟨q, n, fifo, rfl⟩ := h
  cases i <;> exact ⟨_, _, _, rfl⟩

theorem updPort (d : Dir) (f : RingPort → RingPort) : RingTakes i (r.updPort d f) a (b.updPort i d f) := by
  cases d <;> exact h.updRing _

theorem updRest (d : Dir) (f : ToolRest → ToolRest) : RingTakes i (r.updRest d f) a (b.updRest i d f) := by
  cases d <;> exact h.updRing _

theorem updRests (f : ToolRest → ToolRest) : RingTakes i ((r.updRest .east f).updRest .west f) a (b.updRests i f) :=
  (h.updRest .east f).updRest .west f

theorem updEntry (k : Nat) (f : EntryRec → EntryRec) : RingTakes i (r.updEntry k f) a (b.updEntry i k f) := h.updRing _

theorem raise (path : List Nat) (bit : Nat) : RingTakes i r a (b.raise path bit) := by
  obtain ⟨q, n, fifo, rfl⟩ := h
  exact ⟨_, _, _, rfl⟩

theorem postCal (x : Notice) : RingTakes i r a (b.postCal x) := by
  obtain ⟨q, n, fifo, rfl⟩ := h
  cases i <;> exact ⟨_, _, _, rfl⟩

theorem noteRing (src : Nat) (p0 p1 : W32) : RingTakes i r a (b.noteRing i src p0 p1) := h.postCal _

theorem bumpFree : RingTakes i r a b.bumpFree := by
  obtain ⟨q, n, fifo, rfl⟩ := h
  exact ⟨_, _, _, rfl⟩

end RingTakes

/-- A ring command completes in every mode with what its function makes of the module. -/
theorem completes_of_ringTakes {x : Instr} {s : State} {P : Mach → Prop} {t : Nat} {f : Mach → Mach} {i : RingId} {r : RingIfc}
    (he : exec x s = s.run (fun m => f (m.tick t))) (h : RingTakes i r (s.m.tick t) (f (s.m.tick t)))
    (hp : P (f (s.m.tick t))) : Completes x s P :=
  completes_of_mode_eq _ he (congrArg ModState.mode h.mod) hp

end Sys2Proof.Machine
end

section
/-! SUPPORT. The windows of a Tool rest (R269 to R271, R296, R297): the cuts that it counts, the third of which takes the interface out of
the ring; and with these O28. -/

namespace Sys2Proof.Machine

/-! ### Cuts -/

/-- The cuts of the last 2 matrix cycles that a Tool rest remembers. -/
def ToolRest.cutsSince (now : Nat) (x : ToolRest) : List Nat := x.recent.filter (fun y => decide (now < y + 64000000))

/-- A Tool rest that cut or refused an insertion. -/
def ToolRest.cutAt (now slot : Nat) (refused : Bool) (x : ToolRest) : ToolRest :=
  { x with
    recent := now :: x.cutsSince now, lastSlot := BitVec.ofNat 11 slot
    cuts := if refused then x.cuts else satInc x.cuts, refused := if refused then satInc x.refused else x.refused }

/-- A Tool rest that closes after faults. -/
def ToolRest.fault (now : Nat) (x : ToolRest) : ToolRest :=
  { x with
    state := .faulted, tb := x.tb.clear, joined := false, faultAt := now, recent := [], openSlot := none, sending := none }

/-- A Tool rest whose window is over. -/
def ToolRest.shut (x : ToolRest) : ToolRest := { x with openSlot := none, sending := none }

/-- A port that cuts what it is sending with the abort delimiter. -/
def RingPort.abort (now : Nat) (p : RingPort) : RingPort :=
  { p with lastTx := p.lastTx.map (fun f => { f with aborted := true }), busyUntil := now }

/-- An interface that left the ring and comes back only by joining. -/
def RingIfc.leave (rank now : Nat) (r : RingIfc) : RingIfc :=
  { r.toListen rank now with leaves := satInc r.leaves, mustJoin := true }

theorem RingIfc.leave_rest (rank now : Nat) (r : RingIfc) (d : Dir) : (r.leave rank now).rest d = r.rest d := by
  unfold RingIfc.leave RingIfc.toListen RingIfc.keepCount
  split <;> cases d <;> rfl

/-- A cut or refusal is counted and raised; after two others within 2 matrix cycles it closes the Tool rest. -/
theorem Mach.restCut_eq (i : RingId) (d : Dir) (slot : Nat) (refused : Bool) (m : Mach) :
    m.restCut i d slot refused =
      if (((m.ring i).rest d).cutsSince m.now).length < 2 then
        (m.updRest i d (ToolRest.cutAt m.now slot refused)).raise (restPath i d) (if refused then 1 else 0)
      else
        (((m.updRest i d (ToolRest.cutAt m.now slot refused)).raise (restPath i d) (if refused then 1 else 0)).updRest i d
          (ToolRest.fault m.now)).leaveRing i := by
  cases i <;> cases d <;> exact if_congr Nat.succ_lt_succ_iff rfl rfl

section
variable {i : RingId} {r : RingIfc} {a b : Mach} (h : RingTakes i r a b) (d : Dir) (slot : Nat) (refused : Bool)
include h

theorem RingTakes.leaveRing : RingTakes i (r.leave (b.ringRank i) b.now) a (b.leaveRing i) :=
  ((h.updRing (fun r => r.leave (b.ringRank i) b.now)).raise _ _).noteRing _ _ _

/-- Fewer than three cuts within 2 matrix cycles are counted only. -/
theorem RingTakes.restCut_counts (hfew : ((r.rest d).cutsSince a.now).length < 2) :
    RingTakes i (r.updRest d (ToolRest.cutAt a.now slot refused)) a (b.restCut i d slot refused) := by
  rw [Mach.restCut_eq, if_pos (by rwa [h.ring, h.now]), h.now]
  exact (h.updRest d _).raise _ _

/-- The third cut within 2 matrix cycles closes the Tool rest, and the interface leaves the ring. -/
theorem RingTakes.restCut_leaves (hmany : 2 ≤ ((r.rest d).cutsSince a.now).length) :
    ∃ rank now, RingTakes i (((r.updRest d (ToolRest.cutAt a.now slot refused)).updRest d (ToolRest.fault a.now)).leave rank now) a
      (b.restCut i d slot refused) := by
  rw [Mach.restCut_eq, if_neg (by rw [h.ring, h.now]; omega), h.now]
  exact ⟨_, _, (((h.updRest d _).raise _ _).updRest d _).leaveRing⟩

end

/-! ### Opening and closing -/

section
variable {i : RingId} {d : Dir} {k : Nat} {m : Mach} {c : RingCfg} {e : RingEntry} {p : RingPoint}
variable (he : m.entryOf i k = some (c, e))
include he

theorem toolRestWindowOpen_opens (hsync : ((m.ring i).rest d).state = .sync) (hclosed : ((m.ring i).rest d).openSlot ≠ some k)
    (hholds : restHolds m c e = true) (hp : p = ((m.ring i).rest d).tb.at0 m.now)
    (hbasic : e.kind = .reference ∨ inBasic e p.basic = true) (hfrom : restOpens e ≤ p.off) (hto : p.off ≤ restCloses e)
    (hallowed : e.kind = .join ∨ e.kind = .reference ∨ ((m.ring i).rest d).joined = true) :
    toolRestWindowOpen i d k m = m.updRest i d (fun x => { x with openSlot := some k, opens := satInc x.opens }) := by
  subst hp
  unfold toolRestWindowOpen
  rw [he]
  refine if_pos ⟨hsync, hclosed, ?_⟩
  simp only [Bool.and_eq_true, Bool.or_eq_true, beq_iff_eq, decide_eq_true_eq]
  exact ⟨⟨hholds, ⟨hbasic, hfrom⟩, hto⟩, or_assoc.2 hallowed⟩

theorem toolRestWindowOpen_stays (h : restHolds m c e = false ∨ ((m.ring i).rest d).state ≠ .sync ∨
      (e.kind ≠ .join ∧ e.kind ≠ .reference ∧ ((m.ring i).rest d).joined = false)) :
    toolRestWindowOpen i d k m = m := by
  unfold toolRestWindowOpen
  rw [he]
  refine if_neg ?_
  rintro ⟨hsync, -, hopens⟩
  simp only [Bool.and_eq_true, Bool.or_eq_true, beq_iff_eq] at hopens
  obtain ⟨⟨hholds, -⟩, hallowed⟩ := hopens
  obtain hno | hno | ⟨hjoin, href, hnot⟩ := h
  · exact absurd hholds (by rw [hno]; decide)
  · exact hno hsync
  · rcases hallowed with (hk | hk) | hk
    · exact hjoin hk
    · exact href hk
    · exact absurd hk (by rw [hnot]; decide)

section
variable (hopen : ((m.ring i).rest d).openSlot = some k) (hp : p = ((m.ring i).rest d).tb.at0 m.now) (href : e.kind ≠ .reference)
  (hover : inBasic e p.basic = false ∨ restCloses e ≤ p.off)
include hopen hp href hover

/-- At the end of its window a Tool rest that sends nothing any more closes. -/
theorem toolRestWindowClose_idle (hidle : ∀ q, ((m.ring i).rest d).sending = some q → q.2 ≤ m.now) :
    toolRestWindowClose i d k m = m.updRest i d ToolRest.shut := by
  subst hp
  unfold toolRestWindowClose
  rw [he]
  dsimp only
  rw [if_neg (by rcases hover with h | h <;> simp [hopen, href, h])]
  split
  · rename_i j endAt hsending
    have hend : endAt ≤ m.now := hidle _ hsending
    exact if_neg (fun hcut => by rw [Mach.updRest_now] at hcut; omega)
  · rfl

/-- A frame still being sent is cut with the abort delimiter. -/
theorem toolRestWindowClose_cuts {e1 : Nat} (hsending : ((m.ring i).rest d).sending = some (k, e1)) (hlate : m.now < e1) :
    toolRestWindowClose i d k m = ((m.updRest i d ToolRest.shut).updPort i d (RingPort.abort m.now)).restCut i d k false := by
  subst hp
  unfold toolRestWindowClose
  rw [he]
  dsimp only
  rw [if_neg (by rcases hover with h | h <;> simp [hopen, href, h]), hsending]
  rw [Mach.updRest_now]
  exact if_pos ⟨rfl, hlate⟩

end
end

end Sys2Proof.Machine

open Sys2Proof Sys2Proof.Machine

/-- Settles O28: a window opens and closes as the equations above say; a frame cut at its end is counted, and the third cut within 2
matrix cycles closes the Tool rest and takes the interface out of the ring (`RingTakes.restCut_leaves`). -/
theorem toolRestWindows : Obligations.ToolRestWindows := by
  unfold Obligations.ToolRestWindows
  refine ⟨?_, ?_, ?_, ?_, ?_, ?_⟩
  · intro s i d k t c e p he hsync hclosed hholds hp hbasic hfrom hto hallowed
    have hrun : toolRestWindowOpen i d k (s.m.tick t) = _ :=
      toolRestWindowOpen_opens he hsync hclosed hholds hp hbasic hfrom hto hallowed
    exact becomes_of_run (fun m => toolRestWindowOpen i d k (m.tick t)) rfl
      (.inl (by simp only [hrun, Mach.updRest_mod, Mach.tick_mod])) hrun
  · intro s i d k t c e he h
    have hrun : toolRestWindowOpen i d k (s.m.tick t) = _ := toolRestWindowOpen_stays he h
    exact becomes_of_run (fun m => toolRestWindowOpen i d k (m.tick t)) rfl (.inl (by simp only [hrun]; rfl)) hrun
  · intro s i d k t c e p he hopen hp href hover hidle
    have hrun : toolRestWindowClose i d k (s.m.tick t) = _ := toolRestWindowClose_idle he hopen hp href hover hidle
    exact becomes_of_run (fun m => toolRestWindowClose i d k (m.tick t)) rfl
      (.inl (by simp only [hrun, Mach.updRest_mod, Mach.tick_mod])) hrun
  · intro s i d k t e1 c e p f he hopen hp href hover hsending hlate hlast hrecent
    have hrun : toolRestWindowClose i d k (s.m.tick t) = _ := toolRestWindowClose_cuts he hopen hp href hover hsending hlate
    have hshut := ((RingTakes.refl i (s.m.tick t)).updRest d ToolRest.shut).updPort d (RingPort.abort (s.m.tick t).now)
    have hcut := hshut.restCut_counts d k false (by simp [ToolRest.shut, ToolRest.cutsSince, hrecent])
    rw [← hrun] at hcut
    refine completes_of_ringTakes rfl hcut ⟨?_, ?_, ?_, ?_, ?_, ?_, hcut.onlyRing rfl⟩ <;> rw [hcut.ring] <;>
      simp [ToolRest.cutAt, ToolRest.shut, RingPort.abort, hlast]
  · intro s i d k t e1 a b c e p f he hopen hp href hover hsending hlate hlast hrecent ha hb
    have hrun : toolRestWindowClose i d k (s.m.tick t) = _ := toolRestWindowClose_cuts he hopen hp href hover hsending hlate
    have hshut := ((RingTakes.refl i (s.m.tick t)).updRest d ToolRest.shut).updPort d (RingPort.abort (s.m.tick t).now)
    obtain ⟨rank, now, hcut⟩ := hshut.restCut_leaves d k false
      (by simp [ToolRest.shut, ToolRest.cutsSince, hrecent, max_lt_iff.1 ha, max_lt_iff.1 hb])
    rw [← hrun] at hcut
    refine completes_of_ringTakes rfl hcut ⟨?_, ?_, ?_, ?_, ?_, hcut.onlyRing rfl⟩ <;> rw [hcut.ring]
    · rw [RingIfc.leave_rest, RingIfc.updRest_rest]
      rfl
    · rfl
    · rfl
    · rfl
    · simp [RingIfc.leave]
  · intro s i d t hstate hdue
    have hrun : toolRestReopen i d (s.m.tick t) = _ := if_pos ⟨hstate, hdue⟩
    exact becomes_of_run (fun m => toolRestReopen i d (m.tick t)) rfl (.inl (by simp only [hrun, Mach.updRest_mod, Mach.tick_mod]))
      hrun

end

section
/-! SUPPORT. Sending on a ring (R265, R267, R268, R270, R274, R294, R295): an own frame through the Tool rest, exclusive and arbitrating
windows, join frames and the entry into ACTIVE; and with these O29. -/

namespace Sys2Proof.Machine

/-! ### An own frame through the Tool rest -/

/-- An own frame on the line. -/
def RingIfc.put (d : Dir) (now : Nat) (f : RingFrame) (r : RingIfc) : RingIfc :=
  { r.updPort d (fun p => { p with
      lastTx := some { f with loop := r.turn == 1 }, busyUntil := frameEnd now f, sentAt := some now
      inserted := if f.aborted then p.inserted else satInc p.inserted }) with
    sentFrames := { f with loop := r.turn == 1 } :: r.sentFrames.filter (fun g => decide ((f.seq - g.seq).toNat ≤ 2)) }

/-- An own frame that the Tool rest passes in a window. -/
def RingIfc.insert (slot now : Nat) (f : RingFrame) (r : RingIfc) : RingIfc :=
  (r.updRest r.outDir (fun x => { x with sending := some (slot, frameEnd now f) })).put r.outDir now f

section
variable (slot now : Nat) (f : RingFrame) (r : RingIfc)

theorem RingIfc.insert_lastTx : ((r.insert slot now f).port r.outDir).lastTx = some { f with loop := r.turn == 1 } := by
  unfold RingIfc.insert
  rw [← RingIfc.updRest_turn r.outDir (fun x => { x with sending := some (slot, frameEnd now f) }) r]
  generalize r.outDir = d
  cases d <;> rfl

/-- What becomes of the entries leaves the frame on the line. -/
theorem RingIfc.insert_lastTx_of_updEntry (k : Nat) (g : EntryRec → EntryRec) :
    (((r.updEntry k g).insert slot now f).port r.outDir).lastTx = some { f with loop := r.turn == 1 } :=
  RingIfc.insert_lastTx slot now f (r.updEntry k g)

@[simp] theorem RingIfc.insert_entries : (r.insert slot now f).entries = r.entries :=
  (RingIfc.updPort_entries ..).trans (RingIfc.updRest_entries ..)
@[simp] theorem RingIfc.insert_ifc : (r.insert slot now f).ifc = r.ifc :=
  (RingIfc.updPort_ifc ..).trans (RingIfc.updRest_ifc ..)
@[simp] theorem RingIfc.insert_queue : (r.insert slot now f).queue = r.queue :=
  (RingIfc.updPort_queue ..).trans (RingIfc.updRest_queue ..)
@[simp] theorem RingIfc.insert_joinOk : (r.insert slot now f).joinOk = r.joinOk :=
  (RingIfc.updPort_joinOk ..).trans (RingIfc.updRest_joinOk ..)
@[simp] theorem RingIfc.insert_joinFail : (r.insert slot now f).joinFail = r.joinFail :=
  (RingIfc.updPort_joinFail ..).trans (RingIfc.updRest_joinFail ..)

end

/-- The Tool rest holds a window open, in its own time, and its port is in ring service. -/
structure RingIfc.Passes (r : RingIfc) (now slot : Nat) (e : RingEntry) : Prop where
  isOpen : (r.rest r.outDir).openSlot = some slot
  inTime : ((r.rest r.outDir).tb.at0 now).off ≤ restCloses e
  service : (r.port r.outDir).service = true

theorem RingIfc.Passes.updEntry {r : RingIfc} {now slot : Nat} {e : RingEntry} (h : r.Passes now slot e) (k : Nat)
    (f : EntryRec → EntryRec) : (r.updEntry k f).Passes now slot e := ⟨h.isOpen, h.inTime, h.service⟩

theorem RingTakes.putFrame {i : RingId} {r : RingIfc} {a b : Mach} (h : RingTakes i r a b) (d : Dir) (f : RingFrame) :
    RingTakes i (r.put d a.now f) a (b.putFrame i d f) := by
  obtain ⟨q, n, fifo, rfl⟩ := h
  cases i <;> cases d <;> exact ⟨_, _, _, rfl⟩

/-- A frame that fits its window goes out while the Tool rest passes it. -/
theorem RingTakes.insertFrame_passes {i : RingId} {r : RingIfc} {a b : Mach} (h : RingTakes i r a b) {c : RingCfg} {slot : Nat}
    {e : RingEntry} {f : RingFrame} (hpass : r.Passes a.now slot e) (hfits : fitsWindow b c slot e f = true) :
    (b.insertFrame i c slot e f).2 = true ∧ RingTakes i (r.insert slot a.now f) a (b.insertFrame i c slot e f).1 := by
  unfold Mach.insertFrame Mach.passFrame
  dsimp only
  rw [h.ring, h.now, if_neg (by rw [not_or, not_not, Nat.not_lt]; exact ⟨hpass.isOpen, hpass.inTime⟩), if_neg (by simp [hfits]),
    if_neg (by simp [hpass.service])]
  exact ⟨rfl, (h.updRest r.outDir _).putFrame r.outDir f⟩

/-- Out of its window nothing reaches the line, and the Tool rest counts a cut. -/
theorem Mach.insertFrame_closed {i : RingId} {m : Mach} {slot : Nat}
    (hclosed : ((m.ring i).rest (m.ring i).outDir).openSlot ≠ some slot) (c : RingCfg) (e : RingEntry) (f : RingFrame) :
    m.insertFrame i c slot e f = (m.restCut i (m.ring i).outDir slot false, false) := if_pos (.inl hclosed)

theorem mkFrame_of_ident {a b : Mach} (h : b.ident = a.ident) : mkFrame b = mkFrame a := by
  funext
  unfold mkFrame ringCopy
  rw [h]

section
variable {m : Mach} {c : RingCfg} {slot : Nat} {e : RingEntry} {words : List W64} {prio : BitVec 4} {basic msg : Nat}

theorem fitsWindow_exclusive (hkind : e.kind = .exclusive) (hlen : e.len = 8 * words.length) :
    fitsWindow m c slot e (mkFrame m c 1 prio slot basic msg words) = true := by
  simp [fitsWindow, mkFrame, hkind, hlen]

theorem fitsWindow_arbitrating (hkind : e.kind = .arbitrating) (hlen : 8 * words.length ≤ 1496) :
    fitsWindow m c slot e (mkFrame m c 2 prio slot basic msg words) = true := by
  simp [fitsWindow, mkFrame, hkind, Nat.mod_eq_of_lt (show 8 * words.length < 65536 by omega), hlen]

theorem fitsWindow_join {g : RingFrame} (hkind : e.kind = .join) (htyp : g.typ = 0xA) (hsrc : g.src = c.node)
    (hcopy : g.copy = ringCopy m c) : fitsWindow m c slot e g = true := by
  simp [fitsWindow, hkind, htyp, hsrc, hcopy]

end

/-- An entry whose window is used in a basic cycle. -/
def EntryRec.use (basic : Nat) (x : EntryRec) : EntryRec := { x with windowAt := some basic }

/-- An entry that counts a frame sent. -/
def EntryRec.countOk (x : EntryRec) : EntryRec := { x with ok := satInc x.ok }

/-! ### Exclusive windows (R265, R274) -/

/-- The instant of one of the module's exclusive windows, which is still unused. -/
structure ExclusiveDue (m : Mach) (i : RingId) (k : Nat) (c : RingCfg) (e : RingEntry) (p : RingPoint) : Prop where
  entry : m.entryOf i k = some (c, e)
  kind : e.kind = .exclusive
  tx : e.tx = true
  owner : e.owner = c.node
  copy : e.copy = ringCopy m c
  active : (m.ring i).ifc = .active
  point : p = (m.ring i).at0 m.now
  basic : inBasic e p.basic = true
  since : instantNs e ≤ p.off
  upTo : p.off ≤ instantNs e + 2000
  unused : ((m.ring i).entries.getD k {}).windowAt ≠ some p.basic
  mayInsert : m.mayInsert i = true

/-- A held message is taken for its window. -/
def Mach.takeHeld (h : HeldMsg) (m : Mach) : Mach :=
  { m with cal := { m.cal with vote := { m.cal.vote with held := m.cal.vote.held.filter (fun g => g != h) } } }

/-- What the window does with the message that is held for it, if one is. -/
def Mach.sendExclusive (i : RingId) (k : Nat) (c : RingCfg) (e : RingEntry) (basic : Nat) (held : Option HeldMsg) (m : Mach) : Mach :=
  match held with
  | none => m.silentWindow i k basic
  | some h =>
    let q := ((m.takeHeld h).updEntry i k (EntryRec.use basic)).insertFrame i c k e
      (mkFrame m c 1 0 k basic e.msg h.words)
    if q.2 then q.1.updEntry i k EntryRec.countOk else q.1

section
variable {m : Mach} {i : RingId} {k : Nat} {c : RingCfg} {e : RingEntry} {p : RingPoint} (hd : ExclusiveDue m i k c e p)
include hd

theorem ExclusiveDue.run : exclusiveWindowSend i k m = m.sendExclusive i k c e p.basic
    ((m.cal.vote.held.find? (fun h => h.msg == e.msg && h.cycle == m.cycleOf p.basic)).filter (fun _ => m.handsOver)) := by
  obtain ⟨hentry, hkind, htx, howner, hcopy, hactive, rfl, hbasic, hsince, hupTo, hunused, hmay⟩ := hd
  have hcloses : ¬closesNs e < ((m.ring i).at0 m.now).off := by
    rw [closesNs, if_neg (by rw [hkind]; decide)]
    omega
  unfold exclusiveWindowSend
  rw [hentry]
  dsimp only
  generalize (m.ring i).entries.getD k {} = x at hunused ⊢
  rw [if_neg (by simp [hkind, htx, howner, hcopy, hactive, hbasic, hsince, hcloses, hunused]), if_neg (by omega),
    if_neg (by simp [hmay])]
  cases (m.cal.vote.held.find? (fun h => h.msg == e.msg && h.cycle == m.cycleOf ((m.ring i).at0 m.now).basic)).filter
      (fun _ => m.handsOver) with
  | none => rfl
  | some h =>
    have hident : ((m.takeHeld h).updEntry i k (EntryRec.use ((m.ring i).at0 m.now).basic)).ident = m.ident :=
      Mach.updRing_ident ..
    dsimp only [Mach.sendExclusive]
    rw [← mkFrame_of_ident hident]
    rfl

/-- With no message held for its logic cycle the window stays silent. -/
theorem ExclusiveDue.silent (hnone : ∀ h ∈ m.cal.vote.held, h.msg ≠ e.msg ∨ h.cycle ≠ m.cycleOf p.basic) :
    exclusiveWindowSend i k m = m.silentWindow i k p.basic := by
  have hfind : m.cal.vote.held.find? (fun h => h.msg == e.msg && h.cycle == m.cycleOf p.basic) = none := by
    rw [List.find?_eq_none]
    intro h hh
    rcases hnone h hh with hno | hno <;> simp [hno]
  rw [hd.run, hfind]
  rfl

/-- The one message held for its logic cycle goes to the Tool rest. -/
theorem ExclusiveDue.sends {h : HeldMsg} (hon : m.handsOver = true) (hheld : m.cal.vote.held = [h]) (hmsg : h.msg = e.msg)
    (hcycle : h.cycle = m.cycleOf p.basic) : exclusiveWindowSend i k m = m.sendExclusive i k c e p.basic (some h) := by
  rw [hd.run, hheld, List.find?_cons_of_pos (by simp [hmsg, hcycle]), hon]
  rfl

end

section
variable {m : Mach} {i : RingId} {k : Nat} {c : RingCfg} {e : RingEntry} (basic : Nat) (h : HeldMsg)

/-- The window that is taken for a held message is marked as used. -/
theorem Mach.takeHeld_window : RingTakes i ((m.ring i).updEntry k (EntryRec.use basic)) (m.takeHeld h)
    ((m.takeHeld h).updEntry i k (EntryRec.use basic)) :=
  (RingTakes.refl i (m.takeHeld h)).updEntry k _

/-- In the open window of the Tool rest the message goes out and is counted. -/
theorem Mach.sendExclusive_passes (hkind : e.kind = .exclusive) (hlen : e.len = 8 * h.words.length)
    (hpass : (m.ring i).Passes m.now k e) :
    RingTakes i ((((m.ring i).updEntry k (EntryRec.use basic)).insert k m.now (mkFrame m c 1 0 k basic e.msg h.words)).updEntry k
        EntryRec.countOk)
      (m.takeHeld h) (m.sendExclusive i k c e basic (some h)) := by
  have htaken := Mach.takeHeld_window (m := m) (i := i) (k := k) basic h
  have hframe := mkFrame_of_ident (a := m) htaken.ident
  obtain ⟨hsent, hput⟩ := htaken.insertFrame_passes (f := mkFrame m c 1 0 k basic e.msg h.words) (hpass.updEntry ..)
    (by rw [← hframe]; exact fitsWindow_exclusive hkind hlen)
  unfold Mach.sendExclusive
  dsimp only
  rw [if_pos hsent]
  exact hput.updEntry k _

/-- Against the closed window of the Tool rest the message is lost, and the cut counted. -/
theorem Mach.sendExclusive_closed (hclosed : ((m.ring i).rest (m.ring i).outDir).openSlot = none)
    (hfew : (((m.ring i).rest (m.ring i).outDir).cutsSince m.now).length < 2) :
    RingTakes i (((m.ring i).updEntry k (EntryRec.use basic)).updRest (m.ring i).outDir
      (ToolRest.cutAt m.now k false)) (m.takeHeld h) (m.sendExclusive i k c e basic (some h)) := by
  have htaken := Mach.takeHeld_window (m := m) (i := i) (k := k) basic h
  unfold Mach.sendExclusive
  dsimp only
  rw [Mach.insertFrame_closed (by rw [htaken.ring]; exact hclosed ▸ (Option.some_ne_none k).symm), htaken.ring]
  exact htaken.restCut_counts _ k false hfew

end

/-! ### Arbitrating windows (R267, R268) -/

/-- An arbitrating window that is open to a module of its members. -/
structure ArbitratingDue (m : Mach) (i : RingId) (k : Nat) (c : RingCfg) (e : RingEntry) (p : RingPoint) : Prop where
  entry : m.entryOf i k = some (c, e)
  kind : e.kind = .arbitrating
  member : e.members.contains c.node = true
  active : (m.ring i).ifc = .active
  point : p = (m.ring i).at0 m.now
  isOpen : openAt e p = true

/-- A frame that went out in an arbitrating window has left the queue, and its line time is taken of the window's budget. -/
def RingIfc.spend (k basic : Nat) (q : ArbItem) (r : RingIfc) : RingIfc :=
  { r with
    queue := r.queue.filter (fun y => y.msg != q.msg), arbIn := some (k, basic), arbUsed := lineNs (8 * q.words.length) }

theorem RingIfc.spend_port (k basic : Nat) (q : ArbItem) (r : RingIfc) (d : Dir) : (r.spend k basic q).port d = r.port d := rfl
theorem RingIfc.spend_entries (k basic : Nat) (q : ArbItem) (r : RingIfc) : (r.spend k basic q).entries = r.entries := rfl

theorem flatMap_range_ite {α : Type} (x : α) (v n : Nat) :
    (List.range n).flatMap (fun p => if v == p then [x] else []) = if v < n then [x] else [] := by
  induction n with
  | zero => rfl
  | succ n ih =>
    rw [List.range_succ, List.flatMap_append, ih, List.flatMap_singleton]
    by_cases hv : v = n
    · simp [hv]
    · have : (v < n + 1) ↔ v < n := by omega
      simp [hv, this]

theorem arbOrder_singleton (q : ArbItem) : arbOrder [q] = [q] := by
  have h := flatMap_range_ite q q.prio.toNat 16
  rw [if_pos q.prio.isLt] at h
  simp only [arbOrder, List.filter_cons, List.filter_nil]
  exact h

/-- A queued frame is past its age limit in a logic cycle. -/
def pastAge (c : RingCfg) (cycle : W32) (x : ArbItem) : Bool :=
  decide (((c.sporadic.find? (fun y => y.msg == x.msg)).bind (fun y => y.ageMax)).getD 2 < (cycle - x.cycle).toNat)

theorem Mach.dropAged_eq (i : RingId) (c : RingCfg) (cycle : W32) (m : Mach) : m.dropAged i c cycle =
    if ((m.ring i).queue.filter (pastAge c cycle)).length = 0 then m
    else (m.updRing i (fun r => { r with
      queue := r.queue.filter (fun x => !pastAge c cycle x)
      arbDrop := satAdd r.arbDrop ((m.ring i).queue.filter (pastAge c cycle)).length })).raise (schedPath i) 3 := rfl

theorem pastAge_of_find {c : RingCfg} {q : ArbItem} {sp : Sporadic} (hsp : c.sporadic.find? (fun y => y.msg == q.msg) = some sp)
    (cycle : W32) : pastAge c cycle q = decide (sp.ageMax.getD 2 < (cycle - q.cycle).toNat) := by
  rw [pastAge, hsp]
  rfl

section
variable {m : Mach} {i : RingId} {c : RingCfg} {cycle : W32} {q : ArbItem} (hqueue : (m.ring i).queue = [q])
include hqueue

/-- A queued frame within its age limit stays. -/
theorem Mach.dropAged_fresh (hage : pastAge c cycle q = false) : m.dropAged i c cycle = m := by
  rw [Mach.dropAged_eq, if_pos (by simp [hqueue, hage])]

/-- The one queued frame, past its age limit, is dropped and counted. -/
theorem Mach.dropAged_old (hage : pastAge c cycle q = true) :
    RingTakes i { m.ring i with queue := [], arbDrop := satAdd (m.ring i).arbDrop 1 } m (m.dropAged i c cycle) := by
  have hrest : (m.ring i).queue.filter (fun x => !pastAge c cycle x) = [] := by simp [hqueue, hage]
  have hdropped : ((m.ring i).queue.filter (pastAge c cycle)).length = 1 := by simp [hqueue, hage]
  rw [Mach.dropAged_eq, hdropped, if_neg (by decide), ← hrest]
  exact ((RingTakes.refl i m).updRing (fun r => { r with
    queue := r.queue.filter (fun x => !pastAge c cycle x), arbDrop := satAdd r.arbDrop 1 })).raise _ _

end

section
variable {m : Mach} {i : RingId} {k : Nat} {c : RingCfg} {e : RingEntry} {p : RingPoint} {q : ArbItem}
  (hd : ArbitratingDue m i k c e p) (hqueue : (m.ring i).queue = [q])
include hd hqueue

/-- The queued frame that budget and window hold goes to the Tool rest; once out it leaves the queue and takes of the budget. -/
theorem ArbitratingDue.sends (hage : pastAge c (m.cycleOf p.basic) q = false) (hmay : m.mayInsert i = true)
    (hon : m.handsOver = true) (hfirst : (m.ring i).arbIn ≠ some (k, p.basic)) (hfits : arbFits e p.off 0 q = true)
    (hpass : (m.ring i).Passes m.now k e) (hlen : 8 * q.words.length ≤ 1496) :
    RingTakes i ((((m.ring i).insert k m.now (mkFrame m c 2 q.prio k p.basic q.msg q.words)).spend k p.basic q).updEntry k
      EntryRec.countOk) m (arbitratingWindow i k m) := by
  obtain ⟨hentry, hkind, hmember, hactive, rfl, hisOpen⟩ := hd
  unfold arbitratingWindow
  rw [hentry]
  dsimp only
  rw [if_neg (by simp [hkind, List.contains_iff_mem.1 hmember, hactive, hisOpen] : ¬_), Mach.dropAged_fresh hqueue hage,
    if_neg (by simp [hmay, hon]), if_neg hfirst, hqueue, arbOrder_singleton, List.find?_cons_of_pos hfits]
  dsimp only
  obtain ⟨hsent, hb⟩ := (RingTakes.refl i m).insertFrame_passes (f := mkFrame m c 2 q.prio k ((m.ring i).at0 m.now).basic q.msg q.words)
    hpass (fitsWindow_arbitrating hkind hlen)
  rw [hsent, if_neg (by decide), Nat.zero_add]
  exact (hb.updRing (RingIfc.spend k ((m.ring i).at0 m.now).basic q)).updEntry k _

/-- The queued frame past its age is dropped, and nothing is sent. -/
theorem ArbitratingDue.drops (hage : pastAge c (m.cycleOf p.basic) q = true) :
    arbitratingWindow i k m = m.dropAged i c (m.cycleOf p.basic) := by
  obtain ⟨hentry, hkind, hmember, hactive, rfl, hisOpen⟩ := hd
  have hempty : ((m.dropAged i c (m.cycleOf ((m.ring i).at0 m.now).basic)).ring i).queue = [] :=
    congrArg RingIfc.queue (Mach.dropAged_old hqueue hage).ring
  unfold arbitratingWindow
  rw [hentry]
  dsimp only
  rw [if_neg (by simp [hkind, List.contains_iff_mem.1 hmember, hactive, hisOpen] : ¬_), hempty]
  exact ite_self _

end

/-! ### Joining (R294, R295) -/

/-- A join window that an interface which joins may use. -/
structure JoinDue (m : Mach) (i : RingId) (k : Nat) (c : RingCfg) (e : RingEntry) (p : RingPoint) : Prop where
  entry : m.entryOf i k = some (c, e)
  kind : e.kind = .join
  joining : (m.ring i).ifc = .joining
  awaits : (m.ring i).joinOk = false
  point : p = (m.ring i).at0 m.now
  isOpen : openAt e p = true
  since : instantNs e ≤ p.off
  unused : ((m.ring i).entries.getD k {}).windowAt ≠ some p.basic
  mayInsert : m.mayInsert i = true

/-- A join frame that came back intact lets the interface join, and both Tool rests open their windows. -/
def RingIfc.joins (basic : Nat) (r : RingIfc) : RingIfc :=
  ({ r with joinOk := true, joinB := basic % 2 ^ 32, joinRun := 0 }.updRest .east (fun x => { x with joined := true })).updRest .west
    (fun x => { x with joined := true })

/-- A join frame that did not is counted. -/
def RingIfc.failsJoin (r : RingIfc) : RingIfc := { r with joinFail := satInc r.joinFail, joinRun := r.joinRun + 1 }

/-- What the return of a join frame makes of the interface. -/
def RingIfc.joinEnds (basic : Nat) (returned : Bool) (r : RingIfc) : RingIfc := if returned then r.joins basic else r.failsJoin

section
variable (basic : Nat) (returned : Bool) (r : RingIfc)

theorem RingIfc.joinEnds_joinOk (h : r.joinOk = false) : (r.joinEnds basic returned).joinOk = returned := by
  cases returned with
  | true => rfl
  | false => exact h

theorem RingIfc.joinEnds_joinFail :
    (r.joinEnds basic returned).joinFail = if returned then r.joinFail else satInc r.joinFail := by cases returned <;> rfl

theorem RingIfc.joinEnds_port (d : Dir) : (r.joinEnds basic returned).port d = r.port d := by cases returned <;> rfl

theorem RingIfc.joinEnds_ifc : (r.joinEnds basic returned).ifc = r.ifc := by cases returned <;> rfl

/-- Both Tool rests open their data windows once the join frame came back. -/
theorem RingIfc.joinEnds_rests (h : returned = true) :
    (r.joinEnds basic returned).restE.joined = true ∧ (r.joinEnds basic returned).restW.joined = true := by
  subst h
  exact ⟨rfl, rfl⟩

end

/-- What follows a join frame that went to the Tool rest. -/
def Mach.joinOver (i : RingId) (basic : Nat) (returned : Bool) (q : Mach × Bool) : Mach :=
  if q.2 = false then q.1
  else if returned then
    (q.1.updRing i (fun r => { r with joinOk := true, joinB := basic % 2 ^ 32, joinRun := 0 })).updRests i (fun x => { x with
      joined := true })
  else
    let m := (q.1.updRing i RingIfc.failsJoin).noteRing i 0x64 0 0
    if (m.ring i).joinRun = 16 then m.postCal (mkNotice (evCode 7 0x11) (ringPath i) 16 0 (some m.cycleNo) []) else m

/-- A join frame on the line comes back intact or is counted. -/
theorem RingTakes.joinOver {i : RingId} {r : RingIfc} {a : Mach} {q : Mach × Bool} (h : q.2 = true ∧ RingTakes i r a q.1) (basic : Nat)
    (returned : Bool) : RingTakes i (r.joinEnds basic returned) a (Mach.joinOver i basic returned q) := by
  obtain ⟨hsent, hq⟩ := h
  unfold Mach.joinOver RingIfc.joinEnds
  rw [hsent, if_neg (c := true = false) (by decide)]
  cases returned with
  | true => exact (hq.updRing _).updRests _
  | false =>
    have hfail := (hq.updRing RingIfc.failsJoin).noteRing 0x64 0 0
    simp only [Bool.false_eq_true, if_false]
    split
    · exact hfail.postCal _
    · exact hfail

/-- A join window sends its frame, whose return decides. -/
theorem JoinDue.sends {m : Mach} {i : RingId} {k : Nat} {c : RingCfg} {e : RingEntry} {p : RingPoint} (hd : JoinDue m i k c e p)
    (returned : Bool) (hpass : (m.ring i).Passes m.now k e) :
    ∃ (f : RingFrame) (r : RingIfc), f.typ = 0xA ∧ f.src = c.node ∧ f.copy = ringCopy m c ∧ f.seq = BitVec.ofNat 32 p.basic ∧
      r = ((m.ring i).updEntry k (EntryRec.use p.basic)).insert k m.now f ∧
      RingTakes i (r.joinEnds p.basic returned) m (joinFrameSend i k returned m) := by
  obtain ⟨hentry, hkind, hjoining, hawaits, rfl, hisOpen, hsince, hunused, hmay⟩ := hd
  have hentries := (RingTakes.refl i m).updEntry k (EntryRec.use ((m.ring i).at0 m.now).basic)
  have hcopy : ringCopy (m.updEntry i k (EntryRec.use ((m.ring i).at0 m.now).basic)) c = ringCopy m c := by
    rw [ringCopy, hentries.ident]
    rfl
  unfold joinFrameSend
  rw [hentry]
  dsimp only
  generalize (m.ring i).entries.getD k {} = x at hunused ⊢
  rw [if_neg (c := e.kind ≠ .join ∨ _) (by simp [hkind, hjoining, hawaits, hisOpen, hsince, hunused, hmay])]
  exact ⟨_, _, rfl, rfl, hcopy, rfl, rfl,
    .joinOver (hentries.insertFrame_passes (hpass.updEntry ..) (fitsWindow_join hkind rfl rfl rfl)) _ returned⟩

/-- An interface that joined or started becomes ACTIVE; one that started the ring is its time master then. -/
def RingIfc.activate (c : RingCfg) (copy : BitVec 1) (rank : Nat) (r : RingIfc) : RingIfc :=
  { r with
    ifc := .active, joinOk := false, mustJoin := false, collRun := 0
    role := if r.ifc == .coldstart then 1 else r.role
    masterNode := if r.ifc == .coldstart then c.node else r.masterNode
    masterCopy := if r.ifc == .coldstart then copy else r.masterCopy
    masterRank := if r.ifc == .coldstart then BitVec.ofNat 3 rank else r.masterRank }

theorem interfaceActive_activates {i : RingId} {m : Mach} {c : RingCfg} {p : RingPoint} (hused : m.ringUsed i = some c)
    (hifc : (m.ring i).ifc = .joining ∨ (m.ring i).ifc = .coldstart) (hjoin : (m.ring i).joinOk = true)
    (hp : p = (m.ring i).at0 m.now) (hbasic : p.basic % 32 = 0)
    (hnewer : newer (BitVec.ofNat 32 p.basic) (BitVec.ofNat 32 (m.ring i).joinB) = true) :
    RingTakes i ((m.ring i).activate c (ringCopy m c) (ownRank m c)) m (interfaceActive i m) := by
  subst hp
  have hstate : ((m.ring i).ifc == .joining || (m.ring i).ifc == .coldstart) = true := by
    rcases hifc with h | h <;> rw [h] <;> rfl
  unfold interfaceActive
  rw [hused]
  dsimp only
  rw [if_neg (by simp only [hstate, hjoin, hbasic, hnewer]; decide)]
  exact (RingTakes.refl i m).updRing _

end Sys2Proof.Machine

open Sys2Proof Sys2Proof.Machine

/-- Settles O29: what each window comes to is the lemma of its case above; what the interface shows then is read off the interface
that the lemma names. -/
theorem ringSending : Obligations.RingSending := by
  unfold Obligations.RingSending
  refine ⟨?_, ?_, ?_, ?_, ?_, ?_, ?_, ?_⟩
  · intro s i k t c e p h x hentry hkind htx howner hcopy hactive hp hbasic hsince hupTo hx hunused hmay hon hheld hmsg hcycle hopen
      hservice htime hlen _
    have hd : ExclusiveDue (s.m.tick t) i k c e p :=
      ⟨hentry, hkind, htx, howner, hcopy, hactive, hp, hbasic, hsince, hupTo, by simp [List.getD, hx, hunused], hmay⟩
    have hsent := Mach.sendExclusive_passes (m := s.m.tick t) (c := c) p.basic h hkind hlen ⟨hopen, htime, hservice⟩
    rw [← hd.sends hon hheld hmsg hcycle] at hsent
    refine completes_of_mode_eq (fun m => exclusiveWindowSend i k (m.tick t)) rfl (congrArg ModState.mode hsent.mod)
      ⟨?_, ?_, ?_, hsent.lanes, hsent.mod, hsent.field, hsent.otherRing⟩
    · rw [hsent.ring, mkFrame_of_ident (Mach.tick_ident t s.m), Mach.tick_ring, RingIfc.updEntry_port,
        RingIfc.insert_lastTx_of_updEntry]
    · rw [hsent.vote]
      simp [Mach.takeHeld, hheld]
    · rw [hsent.ring, RingIfc.updEntry_get, RingIfc.insert_entries, RingIfc.updEntry_get, Mach.tick_ring, hx]
      rfl
  · intro s i k t c e p x hentry hkind htx howner hcopy hactive hp hbasic hsince hupTo hx hunused hmay hnone
    have hd : ExclusiveDue (s.m.tick t) i k c e p :=
      ⟨hentry, hkind, htx, howner, hcopy, hactive, hp, hbasic, hsince, hupTo, by simp [List.getD, hx, hunused], hmay⟩
    have hsilent := (RingTakes.refl i (s.m.tick t)).updEntry k (fun x => { x with miss := satInc x.miss, windowAt := some p.basic })
    have hrun : exclusiveWindowSend i k (s.m.tick t) = _ := hd.silent hnone
    rw [Mach.silentWindow] at hrun
    rw [← hrun] at hsilent
    refine completes_of_ringTakes rfl hsilent ⟨fun d => ?_, ?_, hsilent.onlyRing rfl⟩ <;> rw [hsilent.ring]
    · rfl
    · rw [RingIfc.updEntry_get, Mach.tick_ring, hx]
      rfl
  · intro s i k t c e p h x hentry hkind htx howner hcopy hactive hp hbasic hsince hupTo hx hunused hmay hon hheld hmsg hcycle hclosed
      hrecent
    have hd : ExclusiveDue (s.m.tick t) i k c e p :=
      ⟨hentry, hkind, htx, howner, hcopy, hactive, hp, hbasic, hsince, hupTo, by simp [List.getD, hx, hunused], hmay⟩
    have hcut := Mach.sendExclusive_closed (m := s.m.tick t) (k := k) (c := c) (e := e) p.basic h hclosed
      (by simp [ToolRest.cutsSince, hrecent])
    rw [← hd.sends hon hheld hmsg hcycle] at hcut
    refine completes_of_mode_eq (fun m => exclusiveWindowSend i k (m.tick t)) rfl (congrArg ModState.mode hcut.mod)
      ⟨fun d => ?_, ?_, ?_⟩ <;> rw [hcut.ring]
    · rw [RingIfc.updRest_port]
      rfl
    · rw [Mach.tick_ring, RingIfc.updRest_rest]
      rfl
    · rw [RingIfc.updRest_entries, RingIfc.updEntry_get, Mach.tick_ring, hx]
      rfl
  · intro s i k t c e p q sp x hentry hkind hmember hactive hp hisOpen hmay hon hqueue hfirst hsp hage hopen hservice htime hlen hwindow
      hbudget hx
    have hd : ArbitratingDue (s.m.tick t) i k c e p := ⟨hentry, hkind, hmember, hactive, hp, hisOpen⟩
    have hfits : arbFits e p.off 0 q = true := by
      unfold arbFits lineNs
      simp only [Bool.and_eq_true, decide_eq_true_eq]
      omega
    have hfresh : pastAge c (s.m.cycleOf p.basic) q = false := by
      rw [pastAge_of_find hsp, decide_eq_false (Nat.not_lt.2 hage)]
    have hrun := hd.sends hqueue hfresh hmay hon hfirst hfits ⟨hopen, htime, hservice⟩ hlen
    refine completes_of_ringTakes rfl hrun ⟨?_, ?_, ?_, ?_, hrun.onlyRing rfl⟩ <;> rw [hrun.ring]
    · rw [RingIfc.updEntry_queue, RingIfc.spend, RingIfc.insert_queue, Mach.tick_ring, hqueue]
      simp
    · rw [RingIfc.updEntry_port, RingIfc.spend_port, mkFrame_of_ident (Mach.tick_ident t s.m), Mach.tick_ring, RingIfc.insert_lastTx]
    · rfl
    · rw [RingIfc.updEntry_get, RingIfc.spend_entries, RingIfc.insert_entries, Mach.tick_ring, hx]
      rfl
  · intro s i k t c e p q sp hentry hkind hmember hactive hp hisOpen hqueue hsp hage
    have hd : ArbitratingDue (s.m.tick t) i k c e p := ⟨hentry, hkind, hmember, hactive, hp, hisOpen⟩
    have hold : pastAge c ((s.m.tick t).cycleOf p.basic) q = true := by
      rw [pastAge_of_find hsp]
      exact decide_eq_true hage
    have hdrop := Mach.dropAged_old (m := s.m.tick t) hqueue hold
    have hrun := hd.drops hqueue hold
    rw [← hrun] at hdrop
    refine completes_of_ringTakes rfl hdrop ⟨?_, fun d => ?_, ?_, hdrop.onlyRing rfl⟩ <;> rw [hdrop.ring]
    · rfl
    · rfl
  · intro s i k t returned c e p hentry hkind hjoining hawaits hp hisOpen hsince hmay hopen hservice htime hunused
    have hd : JoinDue (s.m.tick t) i k c e p := ⟨hentry, hkind, hjoining, hawaits, hp, hisOpen, hsince, hunused, hmay⟩
    obtain ⟨f, r, htyp, hsrc, hcopy, hseq, hr, hrun⟩ := hd.sends returned ⟨hopen, htime, hservice⟩
    refine completes_of_ringTakes rfl hrun ⟨?_, ?_, ?_, ?_, ?_, hrun.onlyRing rfl⟩ <;> rw [hrun.ring]
    · rw [RingIfc.joinEnds_joinOk]
      rw [hr, RingIfc.insert_joinOk]
      exact hawaits
    · rw [RingIfc.joinEnds_port, hr, Mach.tick_ring, RingIfc.insert_lastTx_of_updEntry]
      simp only [Option.map_some, htyp, hsrc, hseq, hcopy]
      rfl
    · rw [RingIfc.joinEnds_joinFail, hr, RingIfc.insert_joinFail]
      rfl
    · exact RingIfc.joinEnds_rests _ _ _
    · rw [RingIfc.joinEnds_ifc, hr, RingIfc.insert_ifc]
      exact hjoining
  · intro s i k t returned c e hentry hused
    have hrun : joinFrameSend i k returned (s.m.tick t) = s.m.tick t := by
      unfold joinFrameSend
      rw [show (s.m.tick t).entryOf i k = some (c, e) from hentry]
      exact if_pos (.inr (.inr (.inr (.inr (.inr (.inr hused))))))
    exact becomes_of_run (fun m => joinFrameSend i k returned (m.tick t)) rfl (.inl (by simp only [hrun, Mach.tick_mod])) hrun
  · intro s i t c p hused hifc hjoin hp hbasic hnewer
    have hrun := interfaceActive_activates (m := s.m.tick t) hused hifc hjoin hp hbasic hnewer
    refine completes_of_ringTakes rfl hrun ⟨?_, fun hstart => ?_, fun hjoined => ?_, ?_, hrun.onlyRing rfl⟩ <;> rw [hrun.ring]
    · rfl
    · simp [RingIfc.activate, hstart]
      rfl
    · simp [RingIfc.activate, hjoined]
    · rfl

end

section
/-! SUPPORT. What a ring entry receives (R272, R273): a frame judged behind its forwarding, which leaves the entries and ring time alone,
and the settling of an entry; and with these O27. -/

namespace Sys2Proof.Machine

/-! ### What passing frames on leaves (R258 to R261) -/

/-- An interface that passed frames on: it differs in its ports, its insertion buffer and the instants of arriving frames alone, and its
link delays stand. -/
structure Carried (r x : RingIfc) : Prop where
  rest : { x with east := r.east, west := r.west, ibuf := r.ibuf, lastStart := r.lastStart, arriveEnd := r.arriveEnd } = r
  linkDly : ∀ d, (x.port d).linkDly = (r.port d).linkDly

namespace Carried
variable {r x : RingIfc}

theorem refl (r : RingIfc) : Carried r r := ⟨rfl, fun _ => rfl⟩

theorem updPort (h : Carried r x) (d : Dir) {f : RingPort → RingPort} (hf : ∀ p, (f p).linkDly = p.linkDly) :
    Carried r (x.updPort d f) := by
  refine ⟨by rw [← h.rest]; cases d <;> rfl, fun e => ?_⟩
  rw [← h.linkDly e]
  cases d <;> cases e
  · exact hf _
  · rfl
  · rfl
  · exact hf _

variable (h : Carried r x)
include h

theorem entries : x.entries = r.entries := by have k := congrArg RingIfc.entries h.rest; exact k
theorem settled : x.settled = r.settled := by have k := congrArg RingIfc.settled h.rest; exact k
theorem tb : x.tb = r.tb := by have k := congrArg RingIfc.tb h.rest; exact k

end Carried

/-- Nothing happened but that an interface passed frames on. -/
def PassesOn (i : RingId) (a b : Mach) : Prop := ∃ x, RingTakes i x a b ∧ Carried (a.ring i) x

namespace PassesOn
variable {i : RingId} {a b : Mach}

theorem refl (i : RingId) (m : Mach) : PassesOn i m m := ⟨_, .refl i m, .refl _⟩

theorem ite {p : Prop} [Decidable p] {b' : Mach} (h : PassesOn i a b) (h' : PassesOn i a b') : PassesOn i a (if p then b else b') := by
  split <;> assumption

variable (h : PassesOn i a b)
include h

theorem updPort (d : Dir) {f : RingPort → RingPort} (hf : ∀ p, (f p).linkDly = p.linkDly := by intro p; rfl) :
    PassesOn i a (b.updPort i d f) := by
  obtain ⟨x, hx, hc⟩ := h
  exact ⟨_, hx.updPort d f, hc.updPort d hf⟩

theorem updRing {f : RingIfc → RingIfc}
    (hf : ∀ r x, Carried r x → Carried r (f x) := by intro r x hc; exact ⟨hc.rest, hc.linkDly⟩) : PassesOn i a (b.updRing i f) := by
  obtain ⟨x, hx, hc⟩ := h
  exact ⟨_, hx.updRing f, hf _ _ hc⟩

theorem raise (path : List Nat) (bit : Nat) : PassesOn i a (b.raise path bit) := by
  obtain ⟨x, hx, hc⟩ := h
  exact ⟨_, hx.raise path bit, hc⟩

theorem noteRing (src : Nat) (p0 p1 : W32) : PassesOn i a (b.noteRing i src p0 p1) := by
  obtain ⟨x, hx, hc⟩ := h
  exact ⟨_, hx.noteRing src p0 p1, hc⟩

theorem bumpFree : PassesOn i a b.bumpFree := by
  obtain ⟨x, hx, hc⟩ := h
  exact ⟨_, hx.bumpFree, hc⟩

theorem noteError (d : Dir) : PassesOn i a (b.noteError i d) := h.updPort d

theorem cutHere (d : Dir) (f : RingFrame) (k : Nat) : PassesOn i a (b.cutHere i d f k) := by
  unfold Mach.cutHere
  exact (((h.noteError d).updPort d).raise _ _).noteRing _ _ _

theorem sendOn (d : Dir) (f : RingFrame) (aborted : Bool) (res start : Nat) : PassesOn i a (b.sendOn i d f aborted res start) := by
  unfold Mach.sendOn
  refine PassesOn.updPort ?_ d (fun p => ?_)
  · exact .ite (h.updPort _) h
  · split
    · split <;> rfl
    · rfl

theorem forward (d : Dir) (f : RingFrame) : PassesOn i a (b.forward i d f) := by
  unfold Mach.forward
  dsimp only
  have hcut : PassesOn i a (match cutCause f with | some k => b.cutHere i d f k | none => b) := by
    split
    · exact h.cutHere ..
    · exact h
  refine .ite (.ite ?_ hcut) (hcut.sendOn ..).bumpFree
  exact (hcut.updRing).updPort d

theorem now : b.now = a.now := h.elim (fun _ hx => hx.1.now)

theorem tb : (b.ring i).tb = (a.ring i).tb := by
  obtain ⟨x, hx, hc⟩ := h
  rw [hx.ring, hc.tb]

theorem entries : (b.ring i).entries = (a.ring i).entries := by
  obtain ⟨x, hx, hc⟩ := h
  rw [hx.ring, hc.entries]

theorem linkedDly (d : Dir) (f : RingFrame) : linkedDly b i d f = Machine.linkedDly a i d f := by
  obtain ⟨x, hx, hc⟩ := h
  rw [Machine.linkedDly, hx.ring, hc.linkDly]
  rfl

theorem sendInstant (d : Dir) (f : RingFrame) : sendInstant b i d f = Machine.sendInstant a i d f := by
  rw [Machine.sendInstant, h.now, h.linkedDly]
  rfl

/-- The point in ring time at which a frame was sent. -/
theorem point (d : Dir) (f : RingFrame) :
    (b.ring i).at0 (Machine.sendInstant b i d f) = (a.ring i).at0 (Machine.sendInstant a i d f) := by
  rw [h.sendInstant, RingIfc.at0, h.tb]
  rfl

theorem sync : (b.ring i).sync = (a.ring i).sync := by
  rw [RingIfc.sync, h.tb]
  rfl

end PassesOn

/-! ### Judgement (R272) -/

/-- An entry that rejects a frame for a cause. -/
def EntryRec.reject (n : Nat) (x : EntryRec) : EntryRec := { x with rej := satInc x.rej, cause := BitVec.ofNat 4 n }

/-- A data frame of another node that arrives whole, for an exclusive receive entry of a synchronised interface. -/
structure DataArrives (m : Mach) (i : RingId) (d : Dir) (f : RingFrame) (c : RingCfg) (k : Nat) (e : RingEntry) : Prop where
  used : m.ringUsed i = some c
  service : ((m.ring i).port d).service = true
  sync : (m.ring i).sync = true
  typ : f.typ = 1
  intact : intactFrame f = true
  loop : f.loop = false
  slot : f.slot.toNat = k
  entry : c.entries[k]? = some e
  rx : e.rx = true
  kind : e.kind = .exclusive
  foreign : f.src ≠ c.node

section
variable {m : Mach} {i : RingId} {d : Dir} {f : RingFrame} {c : RingCfg} {k : Nat} {e : RingEntry}

theorem symErr_of_intact (h : intactFrame f = true) : f.symErr = none := by
  simp only [intactFrame, Bool.and_eq_true, Option.isNone_iff_eq_none] at h
  exact h.1.1.1.1

theorem endsPath_of_foreign (h : f.src ≠ c.node) {r : RingIfc} : endsPath m c d r f = false := by simp [endsPath, ownFrame, h]

theorem sight_of_foreign (h : f.src ≠ c.node) : m.sight c f = m := if_neg (by simp [h])

/-- A frame of another node is passed on, or ends its path, and then received. -/
theorem ringFrameArrive_receives (hused : m.ringUsed i = some c) (hservice : ((m.ring i).port d).service = true) (htyp : f.typ ≠ 0xB)
    (hforeign : f.src ≠ c.node) : ∃ b, PassesOn i m b ∧ ringFrameArrive i d f m = b.receive i c d f := by
  unfold ringFrameArrive
  rw [hused]
  dsimp only
  rw [if_neg (by rw [hservice]; simpa using htyp), endsPath_of_foreign hforeign, if_neg Bool.false_ne_true, sight_of_foreign hforeign]
  refine ⟨_, ?_, rfl⟩
  have harrive : PassesOn i m (m.updRing i (fun r => { r with
      lastStart := if d = .west then m.now else r.lastStart, arriveEnd := frameEnd m.now f })) :=
    (PassesOn.refl i m).updRing
  have hseen := PassesOn.ite (p := f.symErr.isSome = true) (harrive.noteError d) harrive
  exact .ite (hseen.updPort d) (.ite hseen (hseen.forward d f))

section
variable (hsync : (m.ring i).sync = true) (hsym : f.symErr = none) (htyp : f.typ = 1)
  (hmatch : matchEntry c f ((m.ring i).at0 (sendInstant m i d f)) = some (k, e))
include hsync hsym htyp hmatch

theorem Mach.judgeFrame_rejects {n : Nat}
    (hjudge : judgeData e f (linkedDly m i d f) ((m.ring i).at0 (sendInstant m i d f)) = some n) :
    m.judgeFrame i c d f = m.updEntry i k (EntryRec.reject n) := by
  unfold Mach.judgeFrame
  dsimp only
  rw [if_neg (by simp [hsync, errBy, hsym, htyp]), hmatch]
  dsimp only
  rw [hjudge]
  rfl

theorem Mach.judgeFrame_takes (hjudge : judgeData e f (linkedDly m i d f) ((m.ring i).at0 (sendInstant m i d f)) = none)
    (hopen : ((m.ring i).entries.getD k {}).windowAt = none) :
    m.judgeFrame i c d f = (m.updEntry i k (EntryRec.put f (sendInstant m i d f) m.now)).noteTaken i f := by
  unfold Mach.judgeFrame
  dsimp only
  rw [if_neg (by simp [hsync, errBy, hsym, htyp]), hmatch]
  dsimp only
  rw [hjudge, hopen]
  rfl

end

variable (h : DataArrives m i d f c k e)
include h

/-- A data frame is judged by the ring time and the entries that it found. -/
theorem DataArrives.judged : ∃ b, PassesOn i m b ∧ ringFrameArrive i d f m = b.judgeFrame i c d f := by
  obtain ⟨b, hb, hrun⟩ := ringFrameArrive_receives h.used h.service (by rw [h.typ]; decide) h.foreign
  refine ⟨b, hb, hrun.trans ?_⟩
  rw [Mach.receive, if_neg (by simp [Mach.secondPass, h.loop]), Mach.hearJoin, if_neg (by simp [h.typ])]

theorem DataArrives.matches (p : RingPoint) : matchEntry c f p = some (k, e) := by
  simp [matchEntry, h.typ, h.slot, h.entry, h.rx, h.kind]

/-- A frame that fails a check is counted and its cause kept; nothing is taken. -/
theorem DataArrives.rejected {n : Nat}
    (hjudge : judgeData e f (linkedDly m i d f) ((m.ring i).at0 (sendInstant m i d f)) = some n) :
    ∃ x, Carried (m.ring i) x ∧ RingTakes i (x.updEntry k (EntryRec.reject n)) m
      (ringFrameArrive i d f m) := by
  obtain ⟨b, hb, hrun⟩ := h.judged
  rw [hrun, Mach.judgeFrame_rejects (hb.sync.trans h.sync) (symErr_of_intact h.intact) h.typ (h.matches _)
    (by rw [hb.linkedDly, hb.point, hjudge])]
  obtain ⟨x, hx, hc⟩ := hb
  exact ⟨x, hc, hx.updEntry k _⟩

/-- A frame that passes every check is kept as its entry's copy, where the entry has not settled. -/
theorem DataArrives.taken (hjudge : judgeData e f (linkedDly m i d f) ((m.ring i).at0 (sendInstant m i d f)) = none)
    (hopen : ((m.ring i).entries.getD k {}).windowAt = none) :
    ∃ x, Carried (m.ring i) x ∧ ∃ seen,
      RingTakes i { x.updEntry k (EntryRec.put f (sendInstant m i d f) m.now) with loopSeen := seen } m (ringFrameArrive i d f m) := by
  obtain ⟨b, hb, hrun⟩ := h.judged
  rw [hrun, Mach.judgeFrame_takes (hb.sync.trans h.sync) (symErr_of_intact h.intact) h.typ (h.matches _)
    (by rw [hb.linkedDly, hb.point, hjudge]) (by rw [hb.entries, hopen]), hb.sendInstant, hb.now]
  obtain ⟨x, hx, hc⟩ := hb
  exact ⟨x, hc, _, (hx.updEntry k _).updRing _⟩

end

/-! ### The checks of a data frame (R272) -/

section
variable {e : RingEntry} {f : RingFrame} {dly : W16} {p : RingPoint} (hkind : e.kind = .exclusive) (hintact : intactFrame f = true)
include hkind hintact

theorem judgeData_source (hsource : ¬(f.src = e.owner ∧ f.copy = e.copy)) : judgeData e f dly p = some 3 := by
  have hfits : sourceFits e f = false := by
    simpa [sourceFits, hkind] using hsource
  rw [judgeData, hintact, if_neg (by decide), if_pos hfits]

variable (hsrc : f.src = e.owner) (hcopy : f.copy = e.copy) (hdly : dly ≠ 0xFFFF) (hbasic : inBasic e p.basic = true)
  (hfrom : p.off ≤ instantNs e + 2000) (hto : instantNs e ≤ p.off + 2000)
include hsrc hcopy hdly hbasic hfrom hto

/-- Of the right source and at the right instant, a frame is judged by its sequence and length. -/
theorem judgeData_of_instant : judgeData e f dly p =
    if f.seq ≠ BitVec.ofNat 32 p.basic then some 2 else if f.len ≠ BitVec.ofNat 16 e.len then some 4 else none := by
  have hfits : sourceFits e f = true := by simp [sourceFits, hkind, hsrc, hcopy]
  have hinstant : instantFits e p = true := by simp [instantFits, nearInstant, hkind, hbasic, hfrom, hto]
  rw [judgeData, hintact, if_neg (by decide), hfits, if_neg (by decide), hinstant, if_neg (not_or.2 ⟨hdly, by decide⟩)]

end

/-! ### Settling (R273) -/

section
variable {r : RingIfc} {k : Nat} {e : RingEntry} {x : EntryRec} (hx : r.entries[k]? = some x)
include hx

theorem copiesGot_singleton : copiesGot r [(k, e)] = ((x.got0.toList ++ x.got1.toList).map (fun y => (k, y))).foldr
    (fun x xs => xs.takeWhile (fun y => decide (y.2.at0 < x.2.at0)) ++ x :: xs.dropWhile (fun y => decide (y.2.at0 < x.2.at0))) [] := by
  have hget : r.entries.getD k {} = x := by rw [List.getD_eq_getElem?_getD, hx, Option.getD_some]
  rw [copiesGot, List.flatMap_singleton, hget]

theorem copiesGot_none (h0 : x.got0 = none) (h1 : x.got1 = none) : copiesGot r [(k, e)] = [] := by
  rw [copiesGot_singleton hx, h0, h1]
  rfl

theorem copiesGot_one {y : RingCopy} (h0 : x.got0 = some y) (h1 : x.got1 = none) : copiesGot r [(k, e)] = [(k, y)] := by
  rw [copiesGot_singleton hx, h0, h1]
  rfl

/-- Two copies stand in the order of their arrival. -/
theorem copiesGot_two {y z : RingCopy} (h0 : x.got0 = some y) (h1 : x.got1 = some z) :
    copiesGot r [(k, e)] = if z.at0 < y.at0 then [(k, z), (k, y)] else [(k, y), (k, z)] := by
  rw [copiesGot_singleton hx, h0, h1]
  split <;> rename_i h <;> simp [h]

end

/-- Entries of a group marked as settled in a basic cycle. -/
def RingIfc.markSettled (group : List (Nat × RingEntry)) (basic : Nat) (bad : Bool) (r : RingIfc) : RingIfc :=
  { r with
    entries := (r.entries.zipIdx).map (fun q =>
      if group.any (fun g => g.1 == q.2) then { q.1 with got0 := none, got1 := none, windowAt := some basic, bad := bad } else q.1) }

/-- An entry that counted its settling and is marked with its group of one. -/
theorem RingIfc.markSettled_get {k : Nat} {e : RingEntry} {basic : Nat} {bad : Bool} {r : RingIfc} {x : EntryRec}
    (hx : r.entries[k]? = some x) (f : EntryRec → EntryRec) : ((r.updEntry k f).markSettled [(k, e)] basic bad).entries[k]? =
      some { f x with got0 := none, got1 := none, windowAt := some basic, bad := bad } := by
  simp [RingIfc.markSettled, List.getElem?_zipIdx, RingIfc.updEntry_get, hx]

/-- A settling among those of its connection. -/
def RingIfc.settleConn (conn : Nat) (z : Settled) (r : RingIfc) : RingIfc := { r with settled := addSettled conn z r.settled }

theorem addSettled_getLast (conn : Nat) (z : Settled) (xs : List (Nat × Settled)) : (addSettled conn z xs).getLast? = some (conn, z) :=
  List.getLast?_concat ..

section
variable {m : Mach} {i : RingId} {k : Nat} {e : RingEntry} {x : EntryRec} (basic : Nat) (hx : (m.ring i).entries[k]? = some x)
include hx

/-- Without a copy the entry counts a miss. -/
theorem Mach.settleEntry_misses (h0 : x.got0 = none) (h1 : x.got1 = none) :
    RingTakes i (((m.ring i).updEntry k (fun x => { x with miss := satInc x.miss })).markSettled [(k, e)] basic true) m
      (m.settleEntry i k e [(k, e)] basic) := by
  unfold Mach.settleEntry
  dsimp only
  rw [copiesGot_none hx h0 h1]
  exact ((RingTakes.refl i m).updEntry k _).updRing (RingIfc.markSettled [(k, e)] basic true)

/-- One copy settles: its frame becomes the connection's newest. -/
theorem Mach.settleEntry_takes {y : RingCopy} (h0 : x.got0 = some y) (h1 : x.got1 = none) :
    ∃ z : Settled, z.payload = y.frame.payload ∧ z.sentAt = y.sentAt ∧ z.at0 = m.now ∧
      RingTakes i ((((m.ring i).settleConn e.conn z).updEntry k (fun x => { x with ok := satInc x.ok })).markSettled [(k, e)] basic false)
        m (m.settleEntry i k e [(k, e)] basic) := by
  unfold Mach.settleEntry
  dsimp only
  rw [copiesGot_one hx h0 h1]
  refine ⟨_, ?_, ?_, ?_, (((RingTakes.refl i m).updRing (RingIfc.settleConn e.conn _)).updEntry k _).updRing
    (RingIfc.markSettled [(k, e)] basic false)⟩ <;> rfl

/-- Two copies that differ in their payload count a pair disagreement, and nothing is taken. -/
theorem Mach.settleEntry_differ {y z : RingCopy} (h0 : x.got0 = some y) (h1 : x.got1 = some z)
    (hne : z.frame.payload ≠ y.frame.payload) :
    RingTakes i (((m.ring i).updEntry k (fun x => { x with pairDis := satInc x.pairDis, cause := 6 })).markSettled [(k, e)] basic true)
      m (m.settleEntry i k e [(k, e)] basic) := by
  have hmarked := (((RingTakes.refl i m).updEntry k (fun x => { x with pairDis := satInc x.pairDis, cause := 6 })).updRing
    (RingIfc.markSettled [(k, e)] basic true)).raise (schedPath i) 2
  unfold Mach.settleEntry
  dsimp only
  rw [copiesGot_two hx h0 h1]
  by_cases horder : z.at0 < y.at0
  · rw [if_pos horder]
    dsimp only
    rw [if_pos (by simpa using hne.symm)]
    exact hmarked.noteRing ..
  · rw [if_neg horder]
    dsimp only
    rw [if_pos (by simpa using hne)]
    exact hmarked.noteRing ..

end

/-- A receive entry with a connection of its own settles once `RT_MAX` has passed its window. -/
theorem ringEntrySettle_due {m : Mach} {i : RingId} {k : Nat} {c : RingCfg} {e : RingEntry} {x : EntryRec}
    (hused : m.ringUsed i = some c) (hentry : c.entries[k]? = some e) (hgroup : connGroup c e = [(k, e)])
    (hsync : (m.ring i).sync = true) (hrx : e.rx = true) (hbasic : inBasic e ((m.ring i).at0 m.now).basic = true)
    (hdue : closesNs e + c.rtMax * 10 ≤ ((m.ring i).at0 m.now).off) (hx : (m.ring i).entries[k]? = some x)
    (hopen : x.windowAt = none) :
    ringEntrySettle i k m = m.settleEntry i k e [(k, e)] ((m.ring i).at0 m.now).basic := by
  have hget : ((m.ring i).entries.getD k {}).windowAt = none := by
    rw [List.getD_eq_getElem?_getD, hx, Option.getD_some, hopen]
  unfold ringEntrySettle
  rw [hused, Option.bind_some, hentry, Option.map_some]
  dsimp only
  rw [hgroup, if_neg (by simp [hsync, hrx, hbasic]), if_neg (by simp), if_neg (Nat.not_lt.2 hdue), hget]
  rfl

end Sys2Proof.Machine

open Sys2Proof Sys2Proof.Machine

/-- Settles O27: a frame is judged by the ring time and the entries that its forwarding leaves alone (`PassesOn`); a group of one entry
settles by the copies that it holds. -/
theorem ringReceipt : Obligations.RingReceipt := by
  unfold Obligations.RingReceipt
  refine ⟨?_, ?_, ?_, ?_, ?_, ?_⟩
  · intro s i d f c t k e p hused hservice hsync htyp hintact hloop hslot hentry hlt hrx hkind hsrc hcopy hforeign hdly hlen hp
      ⟨hbasic, hfrom, hto, hseq⟩ hopen
    have h : DataArrives (s.m.tick t) i d f c k e :=
      ⟨hused, hservice, hsync, htyp, hintact, hloop, hslot, hentry, hrx, hkind, hforeign⟩
    subst hp
    have hjudge := judgeData_of_instant hkind hintact hsrc hcopy hdly hbasic hfrom hto
    rw [if_neg (not_not.2 hseq), if_neg (not_not.2 hlen)] at hjudge
    obtain ⟨y, hy⟩ : ∃ y, (s.m.ring i).entries[k]? = some y := ⟨_, List.getElem?_eq_getElem hlt⟩
    rw [hy, Option.map_some, Option.some_inj] at hopen
    obtain ⟨x, hx, seen, htaken⟩ := h.taken hjudge (by
      rw [Mach.tick_ring, List.getD_eq_getElem?_getD, hy, Option.getD_some, hopen])
    refine completes_of_ringTakes rfl htaken ⟨?_, fun j hj => ?_, ?_, htaken.onlyRing rfl⟩ <;> rw [htaken.ring]
    · dsimp only
      rw [RingIfc.updEntry_get, hx.entries, Mach.tick_ring, hy, Option.map_some, Option.map_some, EntryRec.put]
      split <;> rfl
    · dsimp only
      rw [RingIfc.updEntry_get_of_ne hj, hx.entries, Mach.tick_ring]
    · exact hx.settled
  · intro s i d f c t k e hused hservice hsync htyp hintact hloop hslot hentry _ hrx hkind hsource hforeign
    have h : DataArrives (s.m.tick t) i d f c k e :=
      ⟨hused, hservice, hsync, htyp, hintact, hloop, hslot, hentry, hrx, hkind, hforeign⟩
    obtain ⟨x, hx, hrej⟩ := h.rejected (judgeData_source hkind hintact hsource)
    refine completes_of_ringTakes rfl hrej ⟨?_, ?_, hrej.onlyRing rfl⟩ <;>
      rw [hrej.ring, RingIfc.updEntry_get, hx.entries, Mach.tick_ring, Option.map_map] <;> rfl
  · intro s i d f c t k e p hused hservice hsync htyp hintact hloop hslot hentry _ hrx hkind hsrc hcopy hforeign hdly hp
      ⟨hbasic, hfrom, hto, hseq⟩
    have h : DataArrives (s.m.tick t) i d f c k e :=
      ⟨hused, hservice, hsync, htyp, hintact, hloop, hslot, hentry, hrx, hkind, hforeign⟩
    subst hp
    have hjudge := judgeData_of_instant hkind hintact hsrc hcopy hdly hbasic hfrom hto
    rw [if_pos hseq] at hjudge
    obtain ⟨x, hx, hrej⟩ := h.rejected hjudge
    refine completes_of_ringTakes rfl hrej ⟨?_, ?_, hrej.onlyRing rfl⟩ <;>
      rw [hrej.ring, RingIfc.updEntry_get, hx.entries, Mach.tick_ring, Option.map_map] <;> rfl
  · intro s i t k c e x y hused hentry hgroup hsync hrx hbasic hdue hx hopen h0 h1
    have hrun := ringEntrySettle_due (m := s.m.tick t) hused hentry hgroup hsync hrx hbasic hdue hx hopen
    obtain ⟨z, hpayload, hsent, hat, hset⟩ := Mach.settleEntry_takes (m := s.m.tick t) (e := e) _ hx h0 h1
    rw [← hrun] at hset
    refine completes_of_ringTakes rfl hset ⟨?_, ?_, hset.onlyRing rfl⟩ <;> rw [hset.ring]
    · rw [RingIfc.markSettled_get (r := ((s.m.tick t).ring i).settleConn e.conn z) hx]
      rfl
    · rw [show (RingIfc.settled _).getLast? = _ from addSettled_getLast e.conn z (s.m.ring i).settled, Option.map_some, hpayload, hsent,
        hat, Mach.tick_now]
  · intro s i t k c e x hused hentry hgroup hsync hrx hbasic hdue hx hopen h0 h1
    have hrun := ringEntrySettle_due (m := s.m.tick t) hused hentry hgroup hsync hrx hbasic hdue hx hopen
    have hmiss := Mach.settleEntry_misses (m := s.m.tick t) (e := e) (((s.m.tick t).ring i).at0 (s.m.tick t).now).basic hx h0 h1
    rw [← hrun] at hmiss
    refine completes_of_ringTakes rfl hmiss ⟨?_, ?_, hmiss.onlyRing rfl⟩ <;> rw [hmiss.ring]
    · rw [RingIfc.markSettled_get (r := (s.m.tick t).ring i) hx]
      rfl
    · rfl
  · intro s i t k c e x a b hused hentry hgroup hsync hrx hbasic hdue hx hopen h0 h1 hne
    have hrun := ringEntrySettle_due (m := s.m.tick t) hused hentry hgroup hsync hrx hbasic hdue hx hopen
    have hdiffer := Mach.settleEntry_differ (m := s.m.tick t) (e := e) (((s.m.tick t).ring i).at0 (s.m.tick t).now).basic hx h0 h1 hne
    rw [← hrun] at hdiffer
    refine completes_of_ringTakes rfl hdiffer ⟨?_, ?_, hdiffer.onlyRing rfl⟩ <;> rw [hdiffer.ring]
    · rw [RingIfc.markSettled_get (r := (s.m.tick t).ring i) hx]
      rfl
    · rfl

end

section
/-! SUPPORT. A frame with a symbol error behind its last byte (R254, R260): no check of its bytes finds the error, and what is forwarded
does not show it; and with that the refutation of O26. -/

namespace Sys2Proof.Machine

/-- The second of the four modules of a ring. -/
def secondOfFour : RingCfg := { unusedRing with used := true, node := 0x102, nmod := 4 }

/-- That module with both ports of its interface 1 in ring service. -/
def passingModule : Mach :=
  { State.reset.m with
    power := { powered := true }, sd := some { pairSet with ring1 := secondOfFour }
    ring1 := { east := { up := true, service := true }, west := { up := true, service := true } } }

/-- A data frame of the first module. Its 40 bytes are right; the code group after them is a symbol error. -/
def errorBehindBytes : RingFrame :=
  { mkFrame passingModule { secondOfFour with node := 0x101 } 1 0 0 0 5 [1, 2] with symErr := some 40 }

theorem errorBehindBytes_passes : cutCause errorBehindBytes = none := by decide +kernel

/-- What goes out to the east shows no symbol error. -/
theorem errorBehindBytes_forwarded :
    (((ringFrameArrive .r1 .west errorBehindBytes (passingModule.tick 0)).ring .r1).port (otherDir .west)).lastTx.map
      (fun g => g.symErr) = some none := by
  decide +kernel

end Sys2Proof.Machine

open Sys2Proof Sys2Proof.Machine in
/-- Refutes O26: the first clause has the forwarded frame be the arriving one but for `HOP` and `DLY`. A frame whose symbol error lies
behind its last byte passes every check that the clause asks for, and is sent on without the error. -/
theorem not_ringForwarding : ¬ Obligations.RingForwarding := by
  unfold Obligations.RingForwarding
  rintro ⟨hforward, -⟩
  obtain ⟨⟨k, -, hlast⟩, -⟩ := (hforward ⟨[], passingModule⟩ .r1 .west errorBehindBytes secondOfFour 0 rfl rfl rfl rfl
    (by decide) (by decide) (by decide) errorBehindBytes_passes rfl rfl (by decide)).of_run
    (fun m => ringFrameArrive .r1 .west errorBehindBytes (m.tick 0)) rfl
  rw [Mach.supervise_of_ne _ _ (by decide)] at hlast
  have hshown := congrArg (Option.map (fun g => g.symErr)) hlast
  rw [errorBehindBytes_forwarded] at hshown
  have hkept : none = errorBehindBytes.symErr := Option.some.inj hshown
  exact absurd hkept (by decide)

end

section
/-! SUPPORT. The links of a ring (R280 to R282, R299, R300, R303, R305): link checks as they arrive, the exchange that measures a link,
loop-back and its end; and with these O32. -/

namespace Sys2Proof.Machine

/-! ### What a ring command leaves -/

namespace RingTakes
variable {i : RingId} {r : RingIfc} {a b : Mach} (h : RingTakes i r a b)
include h

theorem sd : b.sd = a.sd := by obtain ⟨q, n, fifo, rfl⟩ := h; cases i <;> rfl

theorem ringUsed (j : RingId) : b.ringUsed j = a.ringUsed j := by rw [Mach.ringUsed, Mach.ringCfg, h.sd]; rfl

end RingTakes

@[simp] theorem Mach.updPort_mod (i : RingId) (d : Dir) (f : RingPort → RingPort) (m : Mach) : (m.updPort i d f).mod = m.mod :=
  Mach.updRing_mod ..

/-- A ring command that keeps the module's part has what its function makes of the module as its whole effect. -/
theorem becomes_of_tick {x : Instr} {s : State} {m : Mach} {t : Nat} {f : Mach → Mach} (he : exec x s = s.run (fun m => f (m.tick t)))
    (hf : f (s.m.tick t) = m) (hmod : m.mod = s.m.mod) : Becomes x s m :=
  becomes_of_run (fun m => f (m.tick t)) he (.inl (by simp only [hf, hmod])) hf

/-! ### The turning point (R300) -/

def RingPort.setLoop (b : Bool) (p : RingPort) : RingPort := { p with loop := b }

/-- An interface that comes to a turning point, or to none. -/
def RingIfc.turnTo (turn : BitVec 2) (r : RingIfc) : RingIfc :=
  { r with
    turn := turn, heals := if turn = 0 ∨ turn = r.turn then r.heals else satInc r.heals
    closeAt := if turn = r.turn then r.closeAt else none
    east := { r.east with loop := decide (turn = 1) }, west := { r.west with loop := decide (turn = 2) } }

/-- An interface whose turning point follows its links. -/
def RingIfc.turned (r : RingIfc) : RingIfc := r.turnTo (turnOf r)

theorem RingIfc.turned_port (r : RingIfc) (d : Dir) : r.turned.port d = (r.port d).setLoop (decide (turnOf r = turnCode d)) := by
  cases d <;> rfl

theorem RingIfc.updPort_port_other (d : Dir) (f : RingPort → RingPort) (r : RingIfc) :
    (r.updPort d f).port (otherDir d) = r.port (otherDir d) := by cases d <;> rfl

theorem RingTakes.setTurn {i : RingId} {r : RingIfc} {a b : Mach} (h : RingTakes i r a b) : RingTakes i r.turned a (b.setTurn i) := by
  have hturned := h.updRing (RingIfc.turnTo (turnOf r))
  unfold Mach.setTurn
  rw [h.ring]
  dsimp only
  split
  · exact hturned
  · split
    · exact hturned.raise _ _
    · exact (hturned.raise _ _).noteRing _ _ _

section
variable {r : RingIfc} (d : Dir)

theorem RingIfc.turned_port_of_straight (h : turnOf r = 0) : r.turned.port d = (r.port d).setLoop false := by
  rw [RingIfc.turned_port, h]
  cases d <;> rfl

theorem RingIfc.turned_port_of_turn (h : turnOf r = turnCode d) : r.turned.port d = (r.port d).setLoop true := by
  rw [RingIfc.turned_port, decide_eq_true h]

theorem RingIfc.turned_port_other_of_turn (h : turnOf r = turnCode d) :
    r.turned.port (otherDir d) = (r.port (otherDir d)).setLoop false := by
  rw [RingIfc.turned_port, h]
  cases d <;> rfl

/-- A module neither of whose links is lost does not turn. -/
theorem turnOf_of_kept (hd : (r.port d).lost = false) (ho : (r.port (otherDir d)).lost = false) : turnOf r = 0 := by
  unfold turnOf
  cases d <;> simp_all [RingIfc.port, otherDir]

/-- A module neither of whose links is in ring service does not turn. -/
theorem turnOf_of_idle (hd : (r.port d).service = false) (ho : (r.port (otherDir d)).service = false) : turnOf r = 0 := by
  unfold turnOf
  cases d <;> simp_all [RingIfc.port, otherDir]

/-- A module with one link lost and the other in ring service turns at the lost side. -/
theorem turnOf_of_lost (hlost : (r.port d).lost = true) (hservice : (r.port (otherDir d)).service = true)
    (hkept : (r.port (otherDir d)).lost = false) : turnOf r = turnCode d := by
  unfold turnOf
  cases d <;> simp_all [RingIfc.port, otherDir, turnCode]

end

/-! ### Link-check frames that go out (R280, R281, R296) -/

/-- A link-check frame is made of the clock, the configuration, the identity and the interface's ring time. -/
theorem checkFrame_congr {i : RingId} {a b : Mach} (hnow : b.now = a.now) (hsd : b.sd = a.sd) (hident : b.ident = a.ident)
    (htb : (b.ring i).tb = (a.ring i).tb) : checkFrame b i = checkFrame a i := by
  have hused : b.ringUsed i = a.ringUsed i := by rw [Mach.ringUsed, Mach.ringCfg, hsd]; rfl
  funext k w0 w1
  unfold checkFrame ringCopy RingIfc.sync RingIfc.at0
  dsimp only
  rw [hused, hident, htb, hnow]

theorem RingTakes.checkFrame {i : RingId} {r : RingIfc} {a b : Mach} (h : RingTakes i r a b) (htb : r.tb = (a.ring i).tb) :
    checkFrame b i = Machine.checkFrame a i := checkFrame_congr h.now h.sd h.ident (by rw [h.ring, htb])

/-- A port with one more link-check frame to send. -/
def RingPort.sendCheck (now : Nat) (f : RingFrame) (p : RingPort) : RingPort :=
  { p with checks := p.checks.filter (fun q => decide (now ≤ q.1)) ++ [(now, f)] }

section
variable {i : RingId} {d : Dir} (k : LinkCheck) (w0 : W32) (w1 : W64)

theorem Mach.sendCheck_sends {m : Mach} (hopen : ((m.ring i).rest d).state ≠ .closed) (hdriving : ((m.ring i).port d).driving = true) :
    m.sendCheck i d k w0 w1 = m.updPort i d (RingPort.sendCheck m.now (checkFrame m i k w0 w1)) :=
  if_neg (by simp [hopen, hdriving])

theorem RingTakes.sendCheck {r : RingIfc} {a b : Mach} (h : RingTakes i r a b) (htb : r.tb = (a.ring i).tb)
    (hopen : (r.rest d).state ≠ .closed) (hdriving : (r.port d).driving = true) :
    RingTakes i (r.updPort d (RingPort.sendCheck a.now (Machine.checkFrame a i k w0 w1))) a (b.sendCheck i d k w0 w1) := by
  rw [Mach.sendCheck_sends k w0 w1 (by rwa [h.ring]) (by rwa [h.ring]), h.checkFrame htb, h.now]
  exact h.updPort d _

end

/-! ### The exchange that measures a link (R281) -/

theorem requestTime_toNat (u j : Nat) : (requestTime u j).toNat = (u / 10 + 2000 * j) % 2 ^ 32 := by
  rw [requestTime, linkTime, BitVec.toNat_ofNat, show u + 20000 * j = u + 10 * (2000 * j) by omega, Nat.add_mul_div_left _ _ (by decide)]

/-- The requests of an exchange are told apart by the times they carry. -/
theorem requestTime_inj {u j k : Nat} (hj : j < 16) (hk : k < 16) (h : requestTime u j = requestTime u k) : j = k := by
  have hsmall : ∀ l < 16, 2000 * l < 2 ^ 32 := fun l hl => by omega
  have hmod := congrArg BitVec.toNat h
  rw [requestTime_toNat, requestTime_toNat] at hmod
  exact Nat.eq_of_mul_eq_mul_left (by decide : 0 < 2000)
    ((Nat.ModEq.add_left_cancel' _ hmod).eq_of_lt_of_lt (hsmall j hj) (hsmall k hk))

theorem echoOf_request {p : RingPort} {u j : Nat} (now : Nat) (hfrom : p.checkFrom = some u) (hj : j < 16) :
    echoOf p now (requestTime u j) = some (j, (linkTime now - requestTime u j).toNat * 10 - 2000) := by
  have hfind : (List.range 16).find? (fun k => requestTime u k == requestTime u j) = some j := by
    rw [List.find?_range_eq_some]
    refine ⟨beq_self_eq_true _, List.mem_range.2 hj, fun k hk => ?_⟩
    have hne : requestTime u k ≠ requestTime u j := fun he => hk.ne (requestTime_inj (hk.trans hj) hj he)
    simpa using hne
  rw [echoOf, hfrom, Option.bind_some, hfind]
  rfl

/-- A port that keeps the round trip of one request. -/
def RingPort.measure (j rt : Nat) (p : RingPort) : RingPort := { p with measures := (j, rt) :: p.measures.filter (fun q => q.1 != j) }

/-- A port whose link is measured. -/
def RingPort.measured (delay : Nat) (p : RingPort) : RingPort :=
  { p with linkDly := BitVec.ofNat 16 delay, service := decide (delay ≤ 2000), measures := [] }

/-- An interface that listens from now on. -/
def RingIfc.listenFrom (now : Nat) (r : RingIfc) : RingIfc := { r with ifc := .listen, lastValid := now }

/-- An interface that was down, with one more link in ring service. -/
def RingIfc.serve (d : Dir) (delay now : Nat) (r : RingIfc) : RingIfc :=
  ((r.updPort d (RingPort.measured delay)).listenFrom now).turned

section
variable {d : Dir} {r : RingIfc} (delay now : Nat) (hd : (r.port d).lost = false) (ho : (r.port (otherDir d)).lost = false)
include hd ho

/-- It does not turn where none of its links is lost. -/
theorem RingIfc.serve_turn : (r.serve d delay now).turn = 0 :=
  turnOf_of_kept d (by cases d <;> exact hd) (by cases d <;> exact ho)

theorem RingIfc.serve_port_other : (r.serve d delay now).port (otherDir d) = (r.port (otherDir d)).setLoop false := by
  have hstraight : turnOf ((r.updPort d (RingPort.measured delay)).listenFrom now) = 0 := RingIfc.serve_turn delay now hd ho
  rw [RingIfc.serve, RingIfc.turned_port_of_straight _ hstraight]
  cases d <;> rfl

end

section
variable {i : RingId} {m : Mach} {u j : Nat} (hidle : (m.ring i).east.service = false) (hfrom : (m.ring i).east.checkFrom = some u)
  (hj : j < 16)
include hidle hfrom hj

/-- An echo before the last of the sixteen is kept. -/
theorem linkEcho_keeps (hfew : ((m.ring i).east.measures.filter (fun q => q.1 != j)).length < 15) :
    linkEcho i (requestTime u j) m =
      m.updPort i .east (RingPort.measure j ((linkTime m.now - requestTime u j).toNat * 10 - 2000)) := by
  unfold linkEcho
  dsimp only
  rw [if_neg (by simp [hidle]), echoOf_request _ hfrom hj]
  dsimp only
  rw [if_pos (by rw [List.length_cons]; omega)]
  cases i <;> rfl

/-- With the sixteenth the link is measured, and the delay goes to the other end. -/
theorem linkEcho_measures {n : Nat} (hall : ((m.ring i).east.measures.filter (fun q => q.1 != j)).length = 15)
    (hdelay : linkDelay (((linkTime m.now - requestTime u j).toNat * 10 - 2000) ::
      ((m.ring i).east.measures.filter (fun q => q.1 != j)).map Prod.snd) = some n) :
    linkEcho i (requestTime u j) m =
      ((((m.updPort i .east (RingPort.measure j ((linkTime m.now - requestTime u j).toNat * 10 - 2000))).linkMeasured i .east n).sendCheck
        i .east .result (BitVec.ofNat 32 n) 0).proposeClose i .east) := by
  unfold linkEcho
  dsimp only
  rw [if_neg (by simp [hidle]), echoOf_request _ hfrom hj]
  dsimp only
  rw [if_neg (by simp [hall]), List.map_cons, hdelay]
  cases i <;> rfl

end

section
variable {i : RingId} {r : RingIfc} {a b : Mach} (h : RingTakes i r a b) (d : Dir) {delay : Nat}
include h

/-- A link up to 20 µs long enters ring service, and an interface that was down listens. -/
theorem RingTakes.linkMeasured_serves (hdelay : delay ≤ 2000) (hdown : r.ifc = .down) (hused : (a.ringUsed i).isSome = true) :
    RingTakes i (r.serve d delay a.now) a (b.linkMeasured i d delay) := by
  have hmeasured := h.updPort d (RingPort.measured delay)
  unfold Mach.linkMeasured
  dsimp only
  rw [if_neg (by simp [hdelay]), if_pos (by
    refine ⟨(congrArg RingIfc.ifc hmeasured.ring).trans ?_, (congrArg Option.isSome (hmeasured.ringUsed i)).trans hused⟩
    rwa [RingIfc.updPort_ifc])]
  rw [← hmeasured.now]
  exact (hmeasured.updRing (RingIfc.listenFrom _)).setTurn

/-- A longer one does not. -/
theorem RingTakes.linkMeasured_refused (hdelay : 2000 < delay) :
    RingTakes i (r.updPort d (RingPort.measured delay)) a (b.linkMeasured i d delay) := by
  unfold Mach.linkMeasured
  dsimp only
  rw [if_pos (decide_eq_false (Nat.not_le.2 hdelay))]
  exact (h.updPort d (RingPort.measured delay)).postCal _

end

/-- A port that begins the exchange of its link. -/
def RingPort.beginCheck (i : RingId) (m : Mach) (p : RingPort) : RingPort :=
  { p with
    checkFrom := some m.now, measures := []
    checks := if p.driving then (List.range 16).map (fun j =>
      (m.now + 20000 * j, checkFrame { m with now := m.now + 20000 * j } i .request (requestTime m.now j) 0)) else p.checks }

/-- The sixteen requests, one every 20 µs. -/
theorem RingPort.beginCheck_checks (i : RingId) (m : Mach) {p : RingPort} (hdriving : p.driving = true) :
    (p.beginCheck i m).checks.length = 16 ∧ ∀ j, j < 16 → (p.beginCheck i m).checks[j]? =
      some (m.now + 20000 * j, checkFrame { m with now := m.now + 20000 * j } i .request (requestTime m.now j) 0) := by
  unfold RingPort.beginCheck
  rw [hdriving, if_pos rfl]
  exact ⟨List.length_map .., fun j hj => by rw [List.getElem?_map, List.getElem?_range hj]; rfl⟩

/-- An interface whose exchange begins anew where it is due and the Tool rest is not closed. -/
def RingIfc.renewCheck (i : RingId) (m : Mach) (r : RingIfc) : RingIfc :=
  r.updPort .east (fun p => if checkDue p m.now = true ∧ r.restE.state ≠ .closed then p.beginCheck i m else p)

/-- An exchange leaves the state of its link. -/
theorem RingIfc.renewCheck_link (i : RingId) (m : Mach) (r : RingIfc) : (r.renewCheck i m).east.up = r.east.up ∧
    (r.renewCheck i m).east.driving = r.east.driving ∧ (r.renewCheck i m).east.service = r.east.service := by
  unfold RingIfc.renewCheck RingIfc.updPort
  dsimp only
  split <;> exact ⟨rfl, rfl, rfl⟩

theorem RingIfc.renewCheck_begins {i : RingId} {m : Mach} {r : RingIfc} (hdue : checkDue r.east m.now = true)
    (hopen : r.restE.state ≠ .closed) : (r.renewCheck i m).east = r.east.beginCheck i m := if_pos ⟨hdue, hopen⟩

theorem RingTakes.renewCheck {i : RingId} {r : RingIfc} {a b : Mach} (h : RingTakes i r a b) (htb : r.tb = (a.ring i).tb) :
    RingTakes i (r.renewCheck i a) a (b.renewCheck i) := by
  have hframe : ∀ x, Machine.checkFrame { b with now := x } i = Machine.checkFrame { a with now := x } i := fun x => by
    refine checkFrame_congr rfl h.sd h.ident ?_
    rw [← h.ring] at htb
    cases i <;> exact htb
  have hbegin : RingPort.beginCheck i b = RingPort.beginCheck i a := by
    funext p
    simp only [RingPort.beginCheck, hframe, h.now]
  unfold RingIfc.renewCheck Mach.renewCheck Mach.startCheck
  dsimp only
  rw [h.ring, ← h.now, ← hbegin]
  by_cases hdue : checkDue r.east b.now = true
  · rw [if_pos hdue]
    by_cases hclosed : r.restE.state = .closed
    · rw [RingIfc.updPort, if_neg (fun hboth => hboth.2 hclosed), if_pos hclosed]
      exact h
    · rw [RingIfc.updPort, if_pos ⟨hdue, hclosed⟩, if_neg hclosed]
      exact h.updPort .east _
  · rw [RingIfc.updPort, if_neg (fun hboth => hdue hboth.1), if_neg hdue]
    exact h

/-! ### A link that comes up (R281, R485) -/

/-- A port whose link has come up. -/
def RingPort.comeUp (p : RingPort) : RingPort := { p with up := true, driving := true, checkFrom := none, measures := [] }

theorem ringLinkUp_of_off {i : RingId} {d : Dir} {m : Mach} (h : m.cal.txOn = false ∨ ((m.ring i).port d).unusable = true ∨
    (((m.ring i).port d).fx = true ∧ m.power.carrierOn = false)) : ringLinkUp i d m = m := if_pos h

/-- A link that comes up begins its exchange at its west end. -/
theorem RingTakes.ringLinkUp {i : RingId} {d : Dir} {m : Mach} (hon : m.cal.txOn = true)
    (husable : ((m.ring i).port d).unusable = false) (hdown : ((m.ring i).port d).up = false)
    (hsupplied : ((m.ring i).port d).fx = true → m.power.carrierOn = true) :
    RingTakes i (if d = .east then ((m.ring i).updPort .east RingPort.comeUp).renewCheck i m else (m.ring i).updPort .west RingPort.comeUp)
      m (Machine.ringLinkUp i d m) := by
  have hup := ((RingTakes.refl i m).updPort d RingPort.comeUp).raise (portPath i d) 1
  unfold Machine.ringLinkUp
  dsimp only
  rw [if_neg (c := m.cal.txOn = false ∨ _) (by simpa [hon, husable] using hsupplied), hdown, if_neg Bool.false_ne_true]
  cases d with
  | east => exact hup.renewCheck rfl
  | west => exact hup

/-! ### Link-check frames that arrive (R280 to R282, R291, R305) -/

/-- The start delimiter of a frame is seen at the west port. -/
def RingIfc.seeStart (d : Dir) (now : Nat) (r : RingIfc) : RingIfc := { r with lastStart := if d = .west then now else r.lastStart }

def Mach.seeStart (i : RingId) (d : Dir) (m : Mach) : Mach := m.updRing i (RingIfc.seeStart d m.now)

/-- What an intact link-check frame does at the port that it reached. -/
def Mach.takeCheck (i : RingId) (d : Dir) (k : LinkCheck) (w0 : W32) (m : Mach) : Mach :=
  match k with
  | .request => if d = .west then m.sendCheck i d .echo w0 200 else m
  | .echo => if d = .east then linkEcho i w0 m else m
  | .result => if d = .west then (m.linkMeasured i d w0.toNat).proposeClose i d else m
  | .report => if d = .east then m.updPort i d (fun p => { p with farErrors := satAdd p.farErrors w0.toNat }) else m
  | .close => m.takeClose i d w0

/-- An intact link-check frame of a kind at a port whose link is up. -/
structure CheckArrives (m : Mach) (i : RingId) (d : Dir) (f : RingFrame) (k : LinkCheck) : Prop where
  up : ((m.ring i).port d).up = true
  on : m.cal.txOn = true
  typ : f.typ = 11
  intact : intactFrame f = true
  kind : linkKind f = some k

section
variable {i : RingId} {d : Dir} {f : RingFrame} {m : Mach}

theorem Mach.seeStart_eq (i : RingId) (d : Dir) (m : Mach) :
    (if d = .west then m.updRing i (fun r => { r with lastStart := m.now }) else m) = m.seeStart i d := by
  cases d <;> cases i <;> rfl

theorem Mach.seeStart_east (i : RingId) (m : Mach) : m.seeStart i .east = m := by cases i <;> rfl

theorem RingIfc.seeStart_port (now : Nat) (r : RingIfc) (e : Dir) : (r.seeStart d now).port e = r.port e := by cases e <;> rfl

theorem Mach.seeStart_up : (((m.seeStart i d).ring i).port d).up = ((m.ring i).port d).up := by cases i <;> cases d <;> rfl

theorem Mach.seeStart_state : (((m.seeStart i d).ring i).rest d).state = ((m.ring i).rest d).state := by cases i <;> cases d <;> rfl

theorem Mach.seeStart_txOn : (m.seeStart i d).cal.txOn = m.cal.txOn := by cases i <;> rfl

theorem RingTakes.seeStart (i : RingId) (d : Dir) (m : Mach) : RingTakes i ((m.ring i).seeStart d m.now) m (m.seeStart i d) :=
  (RingTakes.refl i m).updRing _

theorem CheckArrives.run {k : LinkCheck} (h : CheckArrives m i d f k) :
    linkCheckFrame i d f m = (m.seeStart i d).takeCheck i d k ((f.payload.headD 0).setWidth 32) := by
  unfold linkCheckFrame
  dsimp only
  rw [Mach.seeStart_eq, if_neg (by simp [Mach.seeStart_up, Mach.seeStart_txOn, h.up, h.on, h.typ, h.intact]), h.kind]
  cases k <;> rfl

/-- A frame that is not an intact one of a link in use is only seen, and so is a request at a closed Tool rest. -/
theorem linkCheckFrame_ignored (h : ((m.ring i).port d).up = false ∨ m.cal.txOn = false ∨ f.typ ≠ 11 ∨ intactFrame f = false ∨
    linkKind f = none ∨ (linkKind f = some .request ∧ ((m.ring i).rest d).state = .closed)) :
    linkCheckFrame i d f m = m.seeStart i d := by
  unfold linkCheckFrame
  dsimp only
  rw [Mach.seeStart_eq]
  split
  · rfl
  · next hheard =>
    rw [Mach.seeStart_up, Mach.seeStart_txOn] at hheard
    obtain ⟨hup, hon, htyp, hintact⟩ : _ ∧ _ ∧ _ ∧ _ := by simpa only [not_or] using hheard
    rcases h with h | h | h | h | h | ⟨h, hclosed⟩
    · exact absurd h hup
    · exact absurd h hon
    · exact absurd h htyp
    · exact absurd h hintact
    · rw [h]
    · rw [h]
      dsimp only
      split
      · exact if_pos (.inl (Mach.seeStart_state.trans hclosed))
      · rfl

end

/-- No close is proposed at a port that is out of ring service or has no loss to close. -/
theorem Mach.proposeClose_stays {i : RingId} {d : Dir} {m : Mach}
    (h : ((m.ring i).port d).service = false ∨ ((m.ring i).port d).lost = false) : m.proposeClose i d = m := if_pos h

section
variable {i : RingId} {r : RingIfc} {a b : Mach} (h : RingTakes i r a b)
include h

/-- The measured delay reaches the east end of the link, which enters ring service there too. -/
theorem RingTakes.takeResult_serves {w0 : W32} (hdelay : w0.toNat ≤ 2000) (hdown : r.ifc = .down)
    (hused : (a.ringUsed i).isSome = true) (hkept : r.west.lost = false) :
    RingTakes i (r.serve .west w0.toNat a.now) a (b.takeCheck i .west .result w0) := by
  have hserved := h.linkMeasured_serves .west hdelay hdown hused
  unfold Mach.takeCheck
  dsimp only
  rw [if_pos rfl, Mach.proposeClose_stays (.inr (by rw [hserved.ring]; exact hkept))]
  exact hserved

theorem RingTakes.takeResult_refused {w0 : W32} (hdelay : 2000 < w0.toNat) :
    RingTakes i (r.updPort .west (RingPort.measured w0.toNat)) a (b.takeCheck i .west .result w0) := by
  have hrefused := h.linkMeasured_refused .west hdelay
  unfold Mach.takeCheck
  dsimp only
  rw [if_pos rfl, Mach.proposeClose_stays (.inl (by rw [hrefused.ring]; exact decide_eq_false (Nat.not_le.2 hdelay)))]
  exact hrefused

end

/-- The sixteenth echo takes the link into ring service, and the delay goes to the other end. -/
theorem RingTakes.linkEcho_serves {i : RingId} {m : Mach} {u j n : Nat} (hidle : (m.ring i).east.service = false)
    (hfrom : (m.ring i).east.checkFrom = some u) (hj : j < 16)
    (hall : ((m.ring i).east.measures.filter (fun q => q.1 != j)).length = 15)
    (hdelay : linkDelay (((linkTime m.now - requestTime u j).toNat * 10 - 2000) ::
      ((m.ring i).east.measures.filter (fun q => q.1 != j)).map Prod.snd) = some n) (hn : n ≤ 2000) (hdown : (m.ring i).ifc = .down)
    (hused : (m.ringUsed i).isSome = true) (hkept : (m.ring i).east.lost = false) (hopen : (m.ring i).restE.state ≠ .closed)
    (hdriving : (m.ring i).east.driving = true) :
    ∃ x : RingIfc, x.west = (m.ring i).west ∧ x.east.lost = false ∧ RingTakes i ((x.serve .east n m.now).updPort .east
      (RingPort.sendCheck m.now (Machine.checkFrame m i .result (BitVec.ofNat 32 n) 0))) m (linkEcho i (requestTime u j) m) := by
  have hserved := ((RingTakes.refl i m).updPort .east
    (RingPort.measure j ((linkTime m.now - requestTime u j).toNat * 10 - 2000))).linkMeasured_serves .east hn hdown hused
  have hsent := hserved.sendCheck (d := .east) .result (BitVec.ofNat 32 n) 0 rfl hopen hdriving
  rw [linkEcho_measures hidle hfrom hj hall hdelay, Mach.proposeClose_stays (.inr (by rw [hsent.ring]; exact hkept))]
  exact ⟨_, rfl, hkept, hsent⟩

/-- A port whose lost link carries the ring again. -/
def RingPort.regain (p : RingPort) : RingPort := { p with lost := false }

/-- The later of the matrix cycles that two ends name. -/
def laterClose (k : W32) (named : Option W32) : Option W32 :=
  match named with
  | some h => if newer k h then some k else some h
  | none => some k

section
variable {i : RingId} {d : Dir} {m : Mach} (k : W32) (hlost : ((m.ring i).port d).lost = true)
include hlost

/-- A synchronised turning point keeps the later of the matrix cycles named. -/
theorem Mach.takeClose_keeps (hloop : ((m.ring i).port d).loop = true) (hsync : (m.ring i).sync = true) :
    m.takeClose i d k = m.updRing i (fun r => { r with closeAt := laterClose k r.closeAt }) := by
  unfold Mach.takeClose
  dsimp only
  rw [hlost, if_neg (by decide), if_neg (by simp [hloop, hsync])]
  rfl

/-- Any other end closes at once. -/
theorem Mach.takeClose_ends (hno : ((m.ring i).port d).loop = false ∨ (m.ring i).sync = false) :
    m.takeClose i d k = m.closeLoss i d := by
  unfold Mach.takeClose
  dsimp only
  rw [hlost, if_neg (by decide), if_pos hno]

end

theorem RingTakes.closeLoss {i : RingId} {r : RingIfc} {a b : Mach} (h : RingTakes i r a b) (d : Dir) :
    RingTakes i (r.updPort d RingPort.regain).turned a (b.closeLoss i d) := (h.updPort d RingPort.regain).setTurn

/-! ### Reports (R281, R282) -/

/-- From 500 µs of a basic cycle, once, the west port reports the errors of the cycle before. -/
theorem linkReport_sends {i : RingId} {m : Mach} {p : RingPoint} {n : Nat} (hsync : (m.ring i).sync = true)
    (hservice : (m.ring i).west.service = true) (hturned : turnedWest (m.ring i) m.now = false) (hp : p = (m.ring i).at0 m.now)
    (hoff : 500000 ≤ p.off) (hnew : (m.ring i).reported ≠ some p.basic) (hopen : (m.ring i).restW.state ≠ .closed)
    (hdriving : (m.ring i).west.driving = true)
    (hn : n = ((m.ring i).west.errors.filter (fun x => decide (x < m.now - p.off) &&
      decide (m.now - p.off ≤ x + basicLen (m.ring i).tb.rate))).length) :
    linkReport i m = (m.updRing i (fun r => { r with reported := some p.basic })).updPort i .west
      (RingPort.sendCheck m.now (checkFrame m i .report (BitVec.ofNat 32 n) 0)) := by
  subst hp hn
  have hring := (RingTakes.refl i m).updRing (fun r => { r with reported := some ((m.ring i).at0 m.now).basic })
  unfold linkReport
  dsimp only
  rw [if_neg (by simp [hsync, hservice, hturned, hoff, hnew]), Mach.sendCheck_sends _ _ _ (by rw [hring.ring]; exact hopen)
    (by rw [hring.ring]; exact hdriving), hring.checkFrame rfl, hring.now]

theorem linkReport_silent {i : RingId} {m : Mach} (h : (m.ring i).sync = false ∨
    (m.ring i).reported = some ((m.ring i).at0 m.now).basic ∨ turnedWest (m.ring i) m.now = true) : linkReport i m = m := by
  refine if_pos ?_
  rcases h with h | h | h
  · exact .inl h
  · exact .inr (.inr (.inr (.inr h)))
  · exact .inr (.inr (.inl h))

/-! ### Lost links and loop-back (R299, R300, R305) -/

/-- A port whose link is lost. -/
def RingPort.lose (now : Nat) (p : RingPort) : RingPort :=
  { p with
    up := false, driving := false, service := false, checkFrom := none, measures := []
    checks := p.checks.filter (fun q => decide (q.1 ≤ now)), lost := true }

/-- An interface that lost a link, with no matrix cycle named for the end of its loop-back. -/
def RingIfc.loseLink (d : Dir) (now : Nat) (r : RingIfc) : RingIfc := { r.updPort d (RingPort.lose now) with closeAt := none }

section
variable (d : Dir) (now : Nat) (r : RingIfc)

theorem RingIfc.loseLink_port : (r.loseLink d now).port d = (r.port d).lose now := by cases d <;> rfl
theorem RingIfc.loseLink_port_other : (r.loseLink d now).port (otherDir d) = r.port (otherDir d) := by cases d <;> rfl
theorem RingIfc.loseLink_tb : (r.loseLink d now).tb = r.tb := by cases d <;> rfl
theorem RingIfc.loseLink_ifc : (r.loseLink d now).ifc = r.ifc := by cases d <;> rfl
theorem RingIfc.loseLink_turn : (r.loseLink d now).turn = r.turn := by cases d <;> rfl
theorem RingIfc.loseLink_heals : (r.loseLink d now).heals = r.heals := by cases d <;> rfl

end

theorem RingTakes.ringLinkLoss {i : RingId} {d : Dir} {m : Mach} (hup : ((m.ring i).port d).up = true) :
    RingTakes i ((m.ring i).loseLink d m.now).turned m (Machine.ringLinkLoss i d m) := by
  unfold Machine.ringLinkLoss
  dsimp only
  rw [if_neg (by simp [hup]), if_pos hup]
  exact ((((RingTakes.refl i m).updPort d (RingPort.lose m.now)).raise _ _).updRing (fun r => { r with closeAt := none })).setTurn

/-- A port whose loss is closed where it is in ring service. -/
def RingPort.reopen (p : RingPort) : RingPort := { p with lost := p.lost && !p.service }

theorem RingPort.reopen_of_service {p : RingPort} (h : p.service = true) : p.reopen = { p with lost := false } := by
  simp [RingPort.reopen, h]

/-- An interface at the end of its loop-back. -/
def RingIfc.endLoop (r : RingIfc) : RingIfc := { r with closeAt := none, east := r.east.reopen, west := r.west.reopen }

section
variable {i : RingId} {m : Mach} {k : W32} (hnamed : (m.ring i).closeAt = some k)
include hnamed

/-- Loop-back ends in the last basic cycle before the named matrix cycle. -/
theorem RingTakes.loopbackClose (hsync : (m.ring i).sync = true)
    (hbasic : ((m.ring i).at0 m.now).basic = (k.toNat * 32 + basicMod - 1) % basicMod) (hoff : 995000 ≤ ((m.ring i).at0 m.now).off) :
    RingTakes i (m.ring i).endLoop.turned m (Machine.loopbackClose i m) := by
  unfold Machine.loopbackClose
  dsimp only
  rw [hnamed]
  dsimp only
  rw [hbasic, Nat.add_sub_cancel_left, Nat.mod_self, if_pos ⟨hsync, by decide, .inr hoff⟩]
  exact ((RingTakes.refl i m).updRing RingIfc.endLoop).setTurn

/-- Before that it goes on. -/
theorem loopbackClose_waits (hearly :
    (((m.ring i).at0 m.now).basic + basicMod - (k.toNat * 32 + basicMod - 1) % basicMod) % basicMod = 0 ∧
      ((m.ring i).at0 m.now).off < 995000 ∨
    basicMod / 2 ≤ (((m.ring i).at0 m.now).basic + basicMod - (k.toNat * 32 + basicMod - 1) % basicMod) % basicMod) :
    loopbackClose i m = m := by
  unfold loopbackClose
  dsimp only
  rw [hnamed]
  refine if_neg ?_
  rintro ⟨-, hpast, hlate⟩
  rcases hearly with ⟨hlast, hoff⟩ | hbefore
  · exact hlate.elim (absurd hlast) (Nat.not_le.2 hoff)
  · exact Nat.not_lt.2 hbefore hpast

end

end Sys2Proof.Machine

open Sys2Proof Sys2Proof.Machine

/-- Settles O32: what each command makes of its interface is the lemma of its case above; what the interface shows then is read off the
interface that the lemma names. -/
theorem ringLinks : Obligations.RingLinks := by
  unfold Obligations.RingLinks
  refine ⟨?_, ?_, ?_, ?_, ?_, ?_, ?_, ?_, ?_, ?_, ?_, ?_, ?_, ?_, ?_, ?_, ?_⟩
  · intro s i d t hon husable hdown hsupplied
    have hup := RingTakes.ringLinkUp (m := s.m.tick t) hon husable hdown hsupplied
    cases d with
    | west =>
      rw [if_neg (by decide)] at hup
      refine completes_of_ringTakes rfl hup ⟨?_, ?_, ?_, ?_, ?_, ?_, hup.onlyRing rfl⟩ <;> rw [hup.ring]
      case refine_4 => exact fun h => absurd h (by decide)
      all_goals rfl
    | east =>
      rw [if_pos rfl] at hup
      obtain ⟨hlink, hdriving, hservice⟩ :=
        RingIfc.renewCheck_link i (s.m.tick t) ((s.m.ring i).updPort .east RingPort.comeUp)
      refine completes_of_ringTakes rfl hup ⟨?_, ?_, ?_, ?_, ?_, ?_, hup.onlyRing rfl⟩ <;> rw [hup.ring]
      · exact hlink
      · exact hdriving
      · exact hservice
      · intro _ hopen (hidle : (s.m.ring i).east.service = false)
        have hdue : checkDue (s.m.ring i).east.comeUp (s.m.tick t).now = true := by simp [checkDue, RingPort.comeUp, hidle]
        have hbegun : (((s.m.ring i).updPort .east RingPort.comeUp).renewCheck i (s.m.tick t)).east =
          (s.m.ring i).east.comeUp.beginCheck i (s.m.tick t) := RingIfc.renewCheck_begins hdue hopen
        have hchecks := RingPort.beginCheck_checks i (s.m.tick t) (p := (s.m.ring i).east.comeUp) rfl
        rw [← hbegun] at hchecks
        exact ⟨congrArg RingPort.checkFrom hbegun, hchecks⟩
      · exact (RingIfc.updPort_port_other .east ..).trans (RingIfc.updPort_port_other .east ..)
      · exact (RingIfc.updPort_ifc ..).trans (RingIfc.updPort_ifc ..)
  · intro s i d t hoff
    exact becomes_of_tick rfl (ringLinkUp_of_off (m := s.m.tick t) hoff) rfl
  · intro s i f t hup hon htyp hintact hkind hopen hdriving
    have harr : CheckArrives (s.m.tick t) i .west f .request := ⟨hup, hon, htyp, hintact, hkind⟩
    have hseen := RingTakes.seeStart i .west (s.m.tick t)
    refine becomes_of_tick rfl (harr.run.trans ?_) (by simp)
    exact (Mach.sendCheck_sends _ _ _ (by rw [hseen.ring]; exact hopen) (by rw [hseen.ring]; exact hdriving)).trans
      (by rw [hseen.checkFrame rfl, hseen.now]; rfl)
  · intro s i d f t h
    exact becomes_of_tick rfl (linkCheckFrame_ignored (m := s.m.tick t) h) (by simp)
  · intro s i f t u j hup hon htyp hintact hkind hidle hfrom hj hreq hfew
    have harr : CheckArrives (s.m.tick t) i .east f .echo := ⟨hup, hon, htyp, hintact, hkind⟩
    refine becomes_of_tick rfl (harr.run.trans ?_) (by simp)
    rw [hreq, Mach.seeStart_east]
    exact linkEcho_keeps (m := s.m.tick t) hidle hfrom hj hfew
  · intro s i f t u j n hup hon htyp hintact hkind hidle hfrom hj hreq hall hdown hused heast hwest hturn hopen hdriving hn hdelay
    have harr : CheckArrives (s.m.tick t) i .east f .echo := ⟨hup, hon, htyp, hintact, hkind⟩
    obtain ⟨x, hxwest, hxeast, hsent⟩ :=
      RingTakes.linkEcho_serves (m := s.m.tick t) hidle hfrom hj hall hdelay hn hdown hused heast hopen hdriving
    have hxkept : x.west.lost = false := by rw [hxwest]; exact hwest
    have hrun : linkCheckFrame i .east f (s.m.tick t) = linkEcho i (requestTime u j) (s.m.tick t) :=
      harr.run.trans (by rw [hreq, Mach.seeStart_east]; rfl)
    rw [← hrun] at hsent
    refine completes_of_ringTakes rfl hsent ⟨?_, ?_, ?_, ?_, ?_, ?_, ?_, hsent.onlyRing rfl⟩ <;> rw [hsent.ring]
    · rfl
    · exact decide_eq_true hn
    · exact List.mem_append_right _ (List.mem_singleton_self _)
    · rfl
    · rfl
    · exact RingIfc.serve_turn n _ (d := .east) hxeast hxkept
    · exact (RingIfc.serve_port_other n _ (d := .east) hxeast hxkept).trans (congrArg (RingPort.setLoop false) hxwest)
  · intro s i f t w0 hup hon htyp hintact hkind hw hwest heast hturn hshort hdown hused
    have harr : CheckArrives (s.m.tick t) i .west f .result := ⟨hup, hon, htyp, hintact, hkind⟩
    subst hw
    have hserved := (RingTakes.seeStart i .west (s.m.tick t)).takeResult_serves hshort hdown hused hwest
    rw [← harr.run] at hserved
    refine completes_of_ringTakes rfl hserved ⟨?_, ?_, ?_, ?_, hserved.onlyRing rfl⟩ <;> rw [hserved.ring]
    · exact decide_eq_true hshort
    · exact BitVec.ofNat_toNat ..
    · rfl
    · exact RingIfc.serve_turn _ _ (d := .west) hwest heast
  · intro s i f t w0 hup hon htyp hintact hkind hw hlong
    have harr : CheckArrives (s.m.tick t) i .west f .result := ⟨hup, hon, htyp, hintact, hkind⟩
    subst hw
    have hrefused := (RingTakes.seeStart i .west (s.m.tick t)).takeResult_refused hlong
    rw [← harr.run] at hrefused
    refine completes_of_ringTakes rfl hrefused ⟨?_, ?_, ?_, hrefused.onlyRing rfl⟩ <;> rw [hrefused.ring]
    · exact decide_eq_false (Nat.not_le.2 hlong)
    · exact BitVec.ofNat_toNat ..
    · exact RingIfc.updPort_ifc ..
  · intro s i f t w0 hup hon htyp hintact hkind hw
    have harr : CheckArrives (s.m.tick t) i .east f .report := ⟨hup, hon, htyp, hintact, hkind⟩
    refine becomes_of_tick rfl (harr.run.trans ?_) (by simp)
    rw [← hw, Mach.seeStart_east]
    rfl
  · intro s i d f t w0 hup hon htyp hintact hkind hw hlost hloop hsync
    have harr : CheckArrives (s.m.tick t) i d f .close := ⟨hup, hon, htyp, hintact, hkind⟩
    refine becomes_of_tick rfl (harr.run.trans ?_) (by simp)
    have hseen := RingTakes.seeStart i d (s.m.tick t)
    rw [← hw]
    refine (Mach.takeClose_keeps w0 ?_ ?_ ?_).trans ?_
    · rwa [hseen.ring, RingIfc.seeStart_port]
    · rwa [hseen.ring, RingIfc.seeStart_port]
    · rw [hseen.ring]; exact hsync
    · cases i <;> rfl
  · intro s i d f t hup hon htyp hintact hkind hlost hno hother
    have harr : CheckArrives (s.m.tick t) i d f .close := ⟨hup, hon, htyp, hintact, hkind⟩
    have hseen := RingTakes.seeStart i d (s.m.tick t)
    have hclosed := hseen.closeLoss d
    rw [← Mach.takeClose_ends ((f.payload.headD 0).setWidth 32) (by rwa [hseen.ring, RingIfc.seeStart_port])
      (by rwa [hseen.ring, RingIfc.seeStart_port]), ← show _ = Mach.takeClose .. from harr.run] at hclosed
    have hstraight : turnOf (((s.m.ring i).seeStart d (max s.m.now t)).updPort d RingPort.regain) = 0 :=
      turnOf_of_kept d (by rw [RingIfc.updPort_port]; rfl) (by rwa [RingIfc.updPort_port_other, RingIfc.seeStart_port])
    refine completes_of_ringTakes rfl hclosed ⟨?_, ?_, ?_, ?_, hclosed.onlyRing rfl⟩ <;> rw [hclosed.ring]
    · rw [RingIfc.turned_port, RingIfc.updPort_port]
      rfl
    · exact congrArg RingPort.loop (RingIfc.turned_port_of_straight d hstraight)
    · exact hstraight
    · exact RingIfc.updPort_ifc ..
  · intro s i t n p hsync hservice hturned hp hoff hnew hopen hdriving hn
    exact becomes_of_tick rfl (linkReport_sends (m := s.m.tick t) hsync hservice hturned hp hoff hnew hopen hdriving hn) (by simp)
  · intro s i t h
    exact becomes_of_tick rfl (linkReport_silent (m := s.m.tick t) h) rfl
  · intro s i d t hup hservice hkept hturn
    have hloss := RingTakes.ringLinkLoss (m := s.m.tick t) (d := d) hup
    have hturns : turnOf ((s.m.ring i).loseLink d (max s.m.now t)) = turnCode d := turnOf_of_lost d
      (congrArg RingPort.lost (RingIfc.loseLink_port ..)) (by rwa [RingIfc.loseLink_port_other])
      (by rwa [RingIfc.loseLink_port_other])
    have hport := (RingIfc.turned_port_of_turn d hturns).trans (congrArg (RingPort.setLoop _) (RingIfc.loseLink_port ..))
    have hheals : ¬(turnCode d = 0 ∨ turnCode d = ((s.m.ring i).loseLink d (max s.m.now t)).turn) := by
      rw [RingIfc.loseLink_turn, hturn]
      cases d <;> decide
    rw [← hturns] at hheals
    refine completes_of_ringTakes rfl hloss ⟨?_, ?_, ?_, ?_, ?_, ?_, ?_, ?_, ?_, ?_, ?_, hloss.onlyRing rfl⟩ <;> rw [hloss.ring]
    · exact congrArg RingPort.up hport
    · exact congrArg RingPort.service hport
    · exact congrArg RingPort.driving hport
    · exact congrArg RingPort.loop hport
    · exact congrArg RingPort.lost hport
    · exact hturns.trans (by cases d <;> rfl)
    · exact (if_neg hheals).trans (congrArg satInc (RingIfc.loseLink_heals ..))
    · exact (RingIfc.turned_port_other_of_turn d hturns).trans (congrArg (RingPort.setLoop false) (RingIfc.loseLink_port_other ..))
    · exact ite_self _
    · exact congrArg TimeBase.live (RingIfc.loseLink_tb ..)
    · exact RingIfc.loseLink_ifc ..
  · intro s i d t hup hidle
    have hloss := RingTakes.ringLinkLoss (m := s.m.tick t) (d := d) hup
    have hstraight : turnOf ((s.m.ring i).loseLink d (max s.m.now t)) = 0 := turnOf_of_idle d
      (congrArg RingPort.service (RingIfc.loseLink_port ..)) (by rwa [RingIfc.loseLink_port_other])
    have hport := (RingIfc.turned_port_of_straight d hstraight).trans (congrArg (RingPort.setLoop _) (RingIfc.loseLink_port ..))
    refine completes_of_ringTakes rfl hloss ⟨?_, ?_, ?_, ?_, hloss.onlyRing rfl⟩ <;> rw [hloss.ring]
    · exact congrArg RingPort.up hport
    · exact congrArg RingPort.driving hport
    · exact hstraight
    · exact ite_self _
  · intro s i t k hnamed hsync heast hwest hbasic hoff
    have hclose := RingTakes.loopbackClose (m := s.m.tick t) hnamed hsync hbasic hoff
    have hstraight : turnOf (s.m.ring i).endLoop = 0 := turnOf_of_kept .east
      (congrArg RingPort.lost (RingPort.reopen_of_service heast)) (congrArg RingPort.lost (RingPort.reopen_of_service hwest))
    refine completes_of_ringTakes rfl hclose ⟨?_, ?_, ?_, ?_, ?_, hclose.onlyRing rfl⟩ <;> rw [hclose.ring]
    · exact hstraight
    · exact ite_self _
    · exact (RingIfc.turned_port_of_straight .east hstraight).trans
        (congrArg (RingPort.setLoop false) (RingPort.reopen_of_service heast))
    · exact (RingIfc.turned_port_of_straight .west hstraight).trans
        (congrArg (RingPort.setLoop false) (RingPort.reopen_of_service hwest))
    · rfl
  · intro s i t k hnamed hearly
    refine becomes_of_tick rfl (loopbackClose_waits (m := s.m.tick t) hnamed ?_) rfl
    exact hearly.imp_left And.right

end

section
/-! SUPPORT. A reference of the lead ring at a module that is also master of the slaved ring (R287): the slaved ring's timebase follows
it; and with that the refutations of O30 and O31. -/

namespace Sys2Proof.Machine

/-! ### What a reference of the own leaves -/

section
variable {i : RingId} {r : RingIfc} {a b : Mach} (h : RingTakes i r a b)
include h

theorem RingTakes.restCut (d : Dir) (slot : Nat) (refused : Bool) : ∃ x, RingTakes i x a (b.restCut i d slot refused) := by
  rcases Nat.lt_or_ge ((r.rest d).cutsSince a.now).length 2 with hfew | hmany
  · exact ⟨_, h.restCut_counts d slot refused hfew⟩
  · obtain ⟨rank, now, hcut⟩ := h.restCut_leaves d slot refused hmany
    exact ⟨_, hcut⟩

theorem RingTakes.passFrame (d : Dir) (slot : Nat) (cut : Option Nat) (f : RingFrame) :
    ∃ x, RingTakes i x a (b.passFrame i d slot cut f).1 := by
  unfold Mach.passFrame
  dsimp only
  split
  · exact ⟨_, h⟩
  · cases cut with
    | none => exact ⟨_, (h.updRest d _).putFrame d f⟩
    | some t => exact ((h.updRest d _).updPort d _).restCut d slot false

end

theorem Mach.insertRef_takes (i : RingId) (c : RingCfg) (f : RingFrame) (m : Mach) : ∃ x, RingTakes i x m (m.insertRef i c f).1 := by
  have h := RingTakes.refl i m
  unfold Mach.insertRef
  dsimp only
  cases ((m.ring i).rest (m.ring i).outDir).state with
  | sync =>
    dsimp only
    split
    · exact h.restCut ..
    · split
      · exact h.restCut ..
      · exact h.passFrame ..
  | unsync =>
    dsimp only
    generalize (f.typ == 9 && ownRank m c != 0 && _) = passes
    cases passes with
    | true =>
      rw [if_pos rfl]
      exact (h.updRest _ _).passFrame ..
    | false => exact ⟨_, h⟩
  | _ => exact ⟨_, h⟩

/-! ### The slaved ring (R287) -/

/-- The module is master of its other ring, which is slaved. -/
structure LeadsSlaved (i : RingId) (m : Mach) : Prop where
  slaved : (m.ringUsed (otherRing i)).any (fun c => !c.lead) = true
  active : (m.ring (otherRing i)).ifc = .active
  master : (m.ring (otherRing i)).role = 1

/-- Two modules with one configuration and one other interface. -/
structure SameOther (i : RingId) (a b : Mach) : Prop where
  sd : b.sd = a.sd
  ring : b.ring (otherRing i) = a.ring (otherRing i)

theorem LeadsSlaved.of_same {i : RingId} {a b : Mach} (h : LeadsSlaved i a) (hb : SameOther i a b) : LeadsSlaved i b := by
  obtain ⟨hsd, hring⟩ := hb
  obtain ⟨hslaved, hactive, hmaster⟩ := h
  refine ⟨?_, hring ▸ hactive, hring ▸ hmaster⟩
  rw [Mach.ringUsed, Mach.ringCfg, hsd]
  exact hslaved

/-- A reference of the ring corrects the timebase of the slaved ring. -/
theorem LeadsSlaved.slaveFollows_tb {i : RingId} {m : Mach} (h : LeadsSlaved i m) (basic start : Nat) :
    ((m.slaveFollows i basic start).ring (otherRing i)).tb = (m.ring (otherRing i)).tb.slaved (rateLim m) basic start := by
  obtain ⟨hslaved, hactive, hmaster⟩ := h
  unfold Mach.slaveFollows
  dsimp only
  rw [if_pos (by simp [hslaved, hactive, hmaster])]
  cases i <;> rfl

theorem SameOther.trans {i : RingId} {a b c : Mach} (hab : SameOther i a b) (hbc : SameOther i b c) : SameOther i a c :=
  ⟨hbc.sd.trans hab.sd, hbc.ring.trans hab.ring⟩

theorem RingTakes.sameOther {i : RingId} {r : RingIfc} {a b : Mach} (h : RingTakes i r a b) : SameOther i a b :=
  ⟨h.sd, h.otherRing⟩

theorem SameOther.rateLim {i : RingId} {a b : Mach} (h : SameOther i a b) : rateLim b = Machine.rateLim a := by
  rw [Machine.rateLim, h.sd]
  rfl

theorem SameOther.updRec (i : RingId) (f : Recorder → Recorder) (m : Mach) : SameOther i m (m.updRec f) := by
  cases i <;> exact ⟨rfl, rfl⟩

theorem SameOther.applyTimeSet (i : RingId) (start : Nat) (m : Mach) : SameOther i m (m.applyTimeSet start) := by
  unfold Mach.applyTimeSet
  split
  · split
    · exact .updRec ..
    · exact ⟨rfl, rfl⟩
  · exact ⟨rfl, rfl⟩

theorem SameOther.lanesFollow (i : RingId) (f : TimeBase → TimeBase) (m : Mach) : SameOther i m (m.lanesFollow i f) := by
  unfold Mach.lanesFollow
  split
  · cases i <;> exact ⟨rfl, rfl⟩
  · exact ⟨rfl, rfl⟩

/-- So does one that the module itself sends while it has ring time. -/
theorem LeadsSlaved.sendRef_tb {i : RingId} {m : Mach} (h : LeadsSlaved i m) (c : RingCfg) (typ : BitVec 4) {tb : TimeBase}
    (hlive : tb.live = true) :
    ((m.sendRef i c typ tb).ring (otherRing i)).tb = (m.ring (otherRing i)).tb.slaved (rateLim m) tb.count tb.start := by
  have htime : SameOther i m (if c.lead then (m.advanceStime tb.start).applyTimeSet tb.start else m.advanceStime tb.start) := by
    split
    · exact (SameOther.updRec ..).trans (.applyTimeSet ..)
    · exact .updRec ..
  unfold Mach.sendRef
  dsimp only
  generalize (if c.lead then (m.advanceStime tb.start).applyTimeSet tb.start else m.advanceStime tb.start) = a at htime ⊢
  generalize mkFrame a c typ 0 0 tb.count 0 _ = f
  obtain ⟨x, hx⟩ := a.insertRef_takes i c f
  generalize a.insertRef i c f = q at hx ⊢
  obtain ⟨b, sent⟩ := q
  dsimp only at hx ⊢
  have hy := hx.updRing (fun r => { r with
    tb := { tb with missRun := 0, errRun := 0 }, ownLooped := false, refOut := some tb.count
    csOut := if typ = 9 then some b.now else r.csOut })
  generalize b.updRing i _ = d at hy ⊢
  rw [if_pos ((congrArg RingIfc.sync hy.ring).trans hlive)]
  have hsame := (htime.trans hy.sameOther).trans (.lanesFollow i (TimeBase.follow (rateLim d) tb.count tb.start) d)
  rw [(h.of_same hsame).slaveFollows_tb, hsame.rateLim, hsame.ring]

/-- Where that moves the slaved ring's timebase, the other interface does not stay as it was. -/
theorem LeadsSlaved.sendRef_moves {i : RingId} {m : Mach} (h : LeadsSlaved i m) (c : RingCfg) (typ : BitVec 4) {tb : TimeBase}
    (hlive : tb.live = true)
    (hmoves : (m.ring (otherRing i)).tb.slaved (rateLim m) tb.count tb.start ≠ (m.ring (otherRing i)).tb) :
    (m.sendRef i c typ tb).ring (otherRing i) ≠ m.ring (otherRing i) :=
  fun hkept => hmoves ((h.sendRef_tb c typ hlive).symm.trans (congrArg RingIfc.tb hkept))

/-- The time master of a lead ring sends its reference at 4.00 µs of a basic cycle. -/
theorem referenceSend_sends {i : RingId} {m : Mach} {c : RingCfg} {p : RingPoint} (hused : m.ringUsed i = some c)
    (hactive : (m.ring i).ifc = .active) (hrole : (m.ring i).role = 1) (hrank : ownRank m c ≠ 0) (hp : p = (m.ring i).at0 m.now)
    (hnew : (m.ring i).refOut ≠ some p.basic) (hsince : (m.ring i).tb.start ≤ m.now) (hfrom : 4000 ≤ p.off) (hto : p.off ≤ 10000)
    (hmay : m.mayInsert i = true) : referenceSend i m = m.sendRef i c 8 ((m.ring i).tb.onTo p.basic) := by
  subst hp
  have hidle : ((m.ring i).ifc == .coldstart) = false := by rw [hactive]; rfl
  unfold referenceSend
  rw [hused]
  dsimp only
  rw [hidle, if_neg (by simp [hactive, hrole, hrank, hnew, hsince, hfrom, hto, hmay]), if_neg (c := false = true ∧ _) (by simp),
    if_pos hrole]

/-- An interface that starts its ring. -/
def RingIfc.start (now : Nat) (r : RingIfc) : RingIfc :=
  { r with ifc := .coldstart, coldstarts := satInc r.coldstarts, startedAt := now, joinOk := false, ownLooped := false }

/-- A coldstart interface of a lead ring that listened through 64 ms sends a coldstart frame. -/
theorem coldstartListenEnd_starts {i : RingId} {m : Mach} {c : RingCfg} (hused : m.ringUsed i = some c) (hlead : c.lead = true)
    (hlisten : (m.ring i).ifc = .listen) (hrank : ownRank m c ≠ 0) (hjoin : (m.ring i).mustJoin = false)
    (heast : (m.ring i).east.service = true) (hwest : (m.ring i).west.service = true)
    (hquiet : (m.ring i).lastValid + 64000000 ≤ m.now) (hclear : (m.ring i).lastStart + c.rtMax * 10 ≤ m.now)
    (hmay : m.mayInsert i = true) :
    coldstartListenEnd i m = (m.updRing i (RingIfc.start m.now)).sendRef i c 9
      { (m.ring i).tb.first ((firstMatrix m.now (m.ring i)).toNat * 32) (m.now - 4000) with
        live := (m.ring i).tb.live, offset := (m.ring i).tb.offset } := by
  unfold coldstartListenEnd
  rw [hused]
  dsimp only
  rw [hlead, if_neg (by simp [hlisten, hrank, hjoin, heast, hwest, hquiet, hclear, hmay])]
  rfl

/-! ### A module between two rings -/

/-- An interface of a ring of four modules. -/
def ofFour (node : BitVec 12) (lead : Bool) : RingCfg :=
  { unusedRing with
    used := true, node := node, pair := false, nmod := 4, lead := lead, coldstarts := [{ node := node, copy := 0, rank := 1 }] }

/-- Ring time in basic cycle 256. -/
def inMatrix8 : TimeBase := { live := true, count := 256, start := 1000000 }

/-- A module between two rings. It is time master of ring 2, which is slaved to ring 1, and both its links of ring 1 are in service. -/
def betweenRings (ifc : RingIf) (role : BitVec 2) : Mach :=
  { State.reset.m with
    power := { powered := true }, sd := some { pairSet with ring1 := ofFour 0x101 true, ring2 := ofFour 0x201 false }
    ring1 := {
      ifc := ifc, role := role, tb := inMatrix8, east := { up := true, service := true }, west := { up := true, service := true }
      restE := { state := .sync, tb := inMatrix8 } }
    ring2 := { ifc := .active, role := 1, tb := inMatrix8 } }

theorem betweenRings_leadsSlaved (ifc : RingIf) (role : BitVec 2) (t : Nat) : LeadsSlaved .r1 ((betweenRings ifc role).tick t) :=
  ⟨rfl, rfl, rfl⟩

end Sys2Proof.Machine

open Sys2Proof Sys2Proof.Machine

/-- Refutes O30: the first clause has a reference that the time master sends leave the module's other ring interface as it was. At a
module that is also master of a ring slaved to this one, the other timebase corrects toward the reference and takes its count from it
(R287, `LeadsSlaved.sendRef_tb`): ring 2 goes from basic cycle 256 to 257. -/
theorem not_ringTime : ¬ Obligations.RingTime := by
  unfold Obligations.RingTime
  rintro ⟨hsend, -⟩
  obtain ⟨-, -, -, -, -, -, -, hother, -⟩ := (hsend ⟨[], betweenRings .active 1⟩ .r1 2004000 (ofFour 0x101 true)
    { basic := 257, off := 4000 } rfl rfl rfl rfl rfl (by decide) (by decide) (by decide) rfl (by decide) rfl (by decide)
    (by decide)).of_run (fun m => referenceSend .r1 (m.tick 2004000)) rfl
  have hrun := referenceSend_sends (i := .r1) (m := (betweenRings .active 1).tick 2004000) (c := ofFour 0x101 true)
    (p := { basic := 257, off := 4000 }) rfl rfl rfl (by decide) rfl (by decide) (by decide) (by decide) (by decide) (by decide)
  rw [Mach.supervise_of_ne _ _ (by decide), hrun] at hother
  exact (betweenRings_leadsSlaved .active 1 2004000).sendRef_moves _ _ rfl (by decide) hother

/-- Refutes O31: the first clause has a cold start leave the module's other ring interface as it was, and lets the interface that
starts still hold ring time. One that does, as no command leaves an interface in LISTEN, brings the ring slaved to it to the coldstart
frame's basic cycle, as any reference does (R287, `LeadsSlaved.sendRef_tb`): ring 2 goes from basic cycle 256 to 0. -/
theorem not_coldStart : ¬ Obligations.ColdStart := by
  unfold Obligations.ColdStart
  rintro ⟨hstart, -⟩
  obtain ⟨-, -, -, -, -, hother, -⟩ := (hstart ⟨[], betweenRings .listen 2⟩ .r1 65002000 (ofFour 0x101 true) rfl rfl rfl (by decide)
    rfl rfl rfl (by decide) (by decide) rfl (by decide) (.inl ⟨rfl, by decide⟩)).of_run
    (fun m => coldstartListenEnd .r1 (m.tick 65002000)) rfl
  have hrun := coldstartListenEnd_starts (i := .r1) (m := (betweenRings .listen 2).tick 65002000) (c := ofFour 0x101 true) rfl rfl rfl
    (by decide) rfl rfl rfl (by decide) (by decide) (by decide)
  have hleads := (betweenRings_leadsSlaved .listen 2 65002000).of_same ((RingTakes.refl .r1 _).updRing (RingIfc.start 65002000)).sameOther
  rw [Mach.supervise_of_ne _ _ (by decide), hrun] at hother
  exact hleads.sendRef_moves _ _ rfl (by decide) hother

end
